-- ==== Sys2Proof/Word.lean ====
section
/-!
DEFINITION. The word types and the sparse map.
-/

namespace Sys2Proof

/-- A 32-bit register word (R4). -/
abbrev Word := BitVec 32

/-- A byte. -/
abbrev Byte := BitVec 8

/-- A sparse map from numbers to values: keys strictly rising, no entry equal to the default. -/
abbrev KV (α : Type) := List (Nat × α)

end Sys2Proof
end

