-- ==== Sys2Proof/Syntax.lean ====
section
/-!
DEFINITION. The commands and events of spec/opcode_table.json as one inductive type `Instr`, and the data they
carry. A Rygus command carries the header fields of its message (`Hdr`) and its typed body; a register row carries
the instance it names; an event row carries what the outside world supplies at that event.
-/

namespace Sys2Proof

/-! ### Instances -/

abbrev SrcId := Fin 1024
abbrev DstId := Fin 1024
abbrev PrcId := Fin 512
abbrev HeadId := Fin 32
abbrev OtgId := Fin 32
abbrev TbId := Fin 4
abbrev RefId := Fin 16
abbrev EvtId := Fin 64
abbrev LaneId := Fin 96
abbrev QuadId := Fin 24
abbrev MacId := Fin 97
abbrev SapId := Fin 16
abbrev FlowId := Fin 8192
abbrev RingId := Fin 16
abbrev SessId := Fin 32
abbrev ChanId := Fin 32768
abbrev HbmChId := Fin 64
abbrev PortId := Fin 56

/-- A function of the device: everything that has a common state word (R28, R29). -/
inductive Fn where
  | tb (n : TbId) | dpll | otg (n : OtgId) | src (n : SrcId) | dst (n : DstId) | prc (n : PrcId)
  | mvh (n : HeadId) | aud | sap (n : SapId) | hlk (n : LaneId) | lane (n : LaneId) | quad (n : QuadId)
  | sdi (n : LaneId) | mac (n : MacId) | flowRx (n : FlowId) | flowTx (n : FlowId) | hbm | hbmCh (n : HbmChId)
  | mtx | twin | ring (n : RingId) | boot | pwr
  deriving DecidableEq, Repr

/-- Who writes a register: the PCIe host, or firmware through the control complex's ports (R423, R449). -/
inductive Writer where
  | host | firmware
  deriving DecidableEq, Repr

/-! ### Rygus commands -/

/-- Where a command of a ring came from and where its long completion goes (R428, R429). -/
structure RingSlot where
  sqIndex : Nat := 0
  respAddr : Nat := 0
  respLen : Nat := 0
  deriving DecidableEq, Repr

/-- The intake a command came by (R423): a command ring or a management session. -/
inductive Intake where
  | ring (r : RingId) (slot : RingSlot)
  | session (s : SessId)
  deriving DecidableEq, Repr

/-- What every command row carries beside its body: its intake and the header's sequence (R438). -/
structure Hdr where
  intake : Intake
  seq : Nat
  deriving DecidableEq, Repr

/-- The body of a TAKE, and a chain entry (R102, R116). -/
structure TakeBody where
  controller : Nat
  dest : Nat
  reportCommit : Bool := false
  field2 : Bool := false
  autoFrame : Bool := false
  mode : Nat := 0
  video : Bool := false
  audio : Bool := false
  anc : Bool := false
  source : Nat
  deriving DecidableEq, Repr

/-- The body of a TAKE_OVERLAY (R124). -/
structure OverlayBody where
  controller : Nat
  dest : Nat
  layer : Nat
  ctrl : Nat
  pos : Nat
  deriving DecidableEq, Repr

/-- The body of LOCK/PROTECT without its op, which the row gives (R115). -/
structure HoldBody where
  controller : Nat
  dest : Nat
  deriving DecidableEq, Repr

structure ChainLoadBody where
  chain : Nat
  last : Bool
  first : Nat
  entries : List TakeBody
  deriving DecidableEq, Repr

/-- A chain's trigger (R117). -/
inductive ChainTrig where
  | time (scale sec ns : Nat)
  | frame (dest count : Nat)
  deriving DecidableEq, Repr

structure ChainArmBody where
  chain : Nat
  controller : Nat
  trig : ChainTrig
  deriving DecidableEq, Repr

structure ChainFireBody where
  chain : Nat
  controller : Nat
  dest : Nat
  deriving DecidableEq, Repr

structure ChainCancelBody where
  chain : Nat
  controller : Nat
  deriving DecidableEq, Repr

structure SurfaceAllocBody where
  id : Nat
  double : Bool
  sampling : Nat
  format : Nat
  deriving DecidableEq, Repr

structure SurfaceWriteBody where
  id : Nat
  offset : Nat
  data : List Byte
  deriving DecidableEq, Repr

/-- PROC_SET (R165): the words 0x000 to 0x028 and 0x100 to 0x17C of the processor, in address order. -/
structure ProcSetBody where
  controller : Nat
  proc : Nat
  regs : List Nat
  mtx : List Nat
  deriving DecidableEq, Repr

structure LutLoadBody where
  slot : Nat
  last : Bool
  first : Nat
  entries : List (Nat × Nat × Nat)
  deriving DecidableEq, Repr

structure CurveLoadBody where
  proc : Nat
  curve : Nat
  entries : List Nat
  deriving DecidableEq, Repr

structure CoefLoadBody where
  proc : Nat
  bank : Nat
  coefs : List Nat
  deriving DecidableEq, Repr

/-- MV_SET (R194): the words 0x000 to 0x018, then the clock and palette registers, in address order. -/
structure MvSetBody where
  controller : Nat
  head : Nat
  regs : List Nat
  clocks : List Nat
  palette : List Nat
  deriving DecidableEq, Repr

/-- One tile entry of MV_LAYOUT (R194). -/
structure TileEntry where
  src : Nat
  rectX : Nat
  rectY : Nat
  deco : Nat
  meter : Nat
  deriving DecidableEq, Repr

structure MvLayoutBody where
  controller : Nat
  head : Nat
  tiles : List TileEntry
  deriving DecidableEq, Repr

structure MvTextBody where
  head : Nat
  tile : Nat
  text : List Byte
  deriving DecidableEq, Repr

structure MvTallyBody where
  head : Nat
  tile : Nat
  tally : Nat
  deriving DecidableEq, Repr

structure MvGuardBody where
  head : Nat
  region : Nat
  ctrl : Nat
  x : Nat
  y : Nat
  expect : Nat
  deriving DecidableEq, Repr

structure FontSetBody where
  font : Nat
  height : Nat
  baseline : Nat
  defaultCp : Nat
  deriving DecidableEq, Repr

structure FontLoadBody where
  font : Nat
  slot : Nat
  cp : Nat
  width : Nat
  bitmap : List Byte
  deriving DecidableEq, Repr

structure AudioMapBody where
  controller : Nat
  first : Nat
  entries : List (Nat × Nat)
  deriving DecidableEq, Repr

structure AudioBindBody where
  first : Nat
  entries : List Nat
  deriving DecidableEq, Repr

structure AudioGroupBody where
  kind : Nat
  index : Nat
  base : Nat
  count : Nat
  delay : Nat
  deriving DecidableEq, Repr

structure AudioToneBody where
  generator : Nat
  freq : Nat
  level : Nat
  deriving DecidableEq, Repr

structure AudioMonitorBody where
  kind : Nat
  index : Nat
  values : List Nat
  deriving DecidableEq, Repr

structure AudioQueryBody where
  inputs : Bool
  first : Nat
  count : Nat
  deriving DecidableEq, Repr

structure AudioSapBody where
  port : Nat
  values : List Nat
  deriving DecidableEq, Repr

structure TimeSetBody where
  target : Nat
  sec : Nat
  ns : Nat
  deriving DecidableEq, Repr

/-- TIME_REF (R441): the candidate, then the values of 0x000 to 0x01C in address order. -/
structure TimeRefBody where
  cand : Nat
  values : List Nat
  deriving DecidableEq, Repr

structure TimeDpllBody where
  ctrl : Nat
  bw : Nat
  slew : Nat
  holdover : Nat
  deriving DecidableEq, Repr

structure TimeOtgBody where
  otg : Nat
  ctrl : Nat
  offset : Nat
  deriving DecidableEq, Repr

structure UpdateBeginBody where
  kind : Nat
  force : Bool
  length : Nat
  imageId : Nat
  deriving DecidableEq, Repr

structure UpdateWriteBody where
  offset : Nat
  data : List Byte
  deriving DecidableEq, Repr

structure UpdateActivateBody where
  op : Nat
  scale : Nat
  sec : Nat
  ns : Nat
  deriving DecidableEq, Repr

structure ProvisionBody where
  slot : Nat
  sigRequired : Bool
  digest : List Byte
  deriving DecidableEq, Repr

/-- A debug unlock response (R508, R514): the key (X, Y) and the signature (r, s). -/
structure DebugResponse where
  level : Nat
  slot : Nat
  x : Nat
  y : Nat
  r : Nat
  s : Nat
  deriving DecidableEq, Repr

/-- CONFIG_SET (R441): (offset, value) pairs of one instance of one block. -/
structure ConfigBody where
  block : Nat
  inst : Nat
  pairs : List (Nat × Nat)
  deriving DecidableEq, Repr

/-- A Rygus command with its typed body (R441, R477, R508). -/
inductive Cmd where
  | take (b : TakeBody) | takeOverlay (b : OverlayBody)
  | chainLoad (b : ChainLoadBody) | chainArm (b : ChainArmBody) | chainFire (b : ChainFireBody)
  | chainCancel (b : ChainCancelBody) | chainQuery (chain : Nat)
  | hold (op : Nat) (b : HoldBody)
  | queryXpt (first count : Nat) | queryStatus | queryCommand (seq : Nat) | queryRegs (offset count : Nat)
  | audioMap (b : AudioMapBody) | audioBind (b : AudioBindBody) | audioGroup (b : AudioGroupBody)
  | audioTone (b : AudioToneBody) | audioMonitor (b : AudioMonitorBody) | audioQuery (b : AudioQueryBody)
  | audioSap (b : AudioSapBody)
  | surfaceAlloc (b : SurfaceAllocBody) | surfaceWrite (b : SurfaceWriteBody) | surfacePublish (id : Nat)
  | surfaceFree (id : Nat) | surfaceQuery (id : Nat)
  | procSet (b : ProcSetBody) | lutLoad (b : LutLoadBody) | lutFree (slot : Nat) | curveLoad (b : CurveLoadBody)
  | coefLoad (b : CoefLoadBody) | procQuery (proc : Nat)
  | mvSet (b : MvSetBody) | mvLayout (b : MvLayoutBody) | mvText (b : MvTextBody) | mvTally (b : MvTallyBody)
  | mvGuard (b : MvGuardBody) | fontSet (b : FontSetBody) | fontLoad (b : FontLoadBody) | mvQuery (head : Nat)
  | timeSet (b : TimeSetBody) | timeRealign | timeRef (b : TimeRefBody) | timeDpll (b : TimeDpllBody)
  | timeOtg (b : TimeOtgBody)
  | updateBegin (b : UpdateBeginBody) | updateWrite (b : UpdateWriteBody) | updateStatus (first : Nat)
  | updateVerify | updateActivate (b : UpdateActivateBody) | updateAbort | updateTrickle (v : Nat)
  | updateRevert | updateProvision (b : ProvisionBody)
  | healthSwap | healthReinit (block inst : Nat) | healthReset | healthPowerCycle | healthSubscribe (start : Bool)
  | healthChallenge (level : Nat) | healthResponse (b : DebugResponse)
  | configSet (b : ConfigBody)
  deriving DecidableEq, Repr

/-! ### House timing events -/

/-- An edge on a reference input (R45 to R47): a sync separator's frame pulse, with whether it coincided with a line
pulse and the lines since the last one; a PPS edge at an instant of the house clock in units of 1/3024 ns, with the
length of 10,000,000 cycles of FREQ after the previous edge. -/
inductive RefEdge where
  | frame (onLine : Bool) (lines : Nat)
  | pps (instant freqSecond : Nat)
  deriving DecidableEq, Repr

/-- What a tick of R52 measures of one candidate: whether its pulses or its lane clock are present, and its short-term
frequency offset from nominal against OSC_IN, in 0.001 ppm (R47). -/
structure RefMeas where
  cand : RefId
  present : Bool
  freq : Int
  deriving DecidableEq, Repr

/-- The pulse outputs (R65). -/
inductive PulseOut where
  | pps | frame (n : Fin 8) | wclk (n : Fin 4)
  deriving DecidableEq, Repr

/-- The PTP messages firmware's stack sends (R41). -/
inductive PtpTx where
  | sync | announce | delayReq | pdelayReq | pdelayResp
  deriving DecidableEq, Repr

/-! ### Ingress events -/

/-- A detected picture format (R71): format code, sampling, bit depth, colorimetry and transfer codes as in R90. -/
structure VideoFmt where
  format : Nat
  sampling : Nat := 0
  depth : Nat := 1
  colorimetry : Nat := 1
  transfer : Nat := 0
  deriving DecidableEq, Repr

/-- What a transport gives at the first packet, segment or line of a frame (R71, R85): the measured format, the
declared one where the transport declares one, a RTP timestamp (ST 2110), and an instant on the source's scale in
units of 1/3024 ns (the segment's time field, or the arrival of line 1's first sample less the receive latency). -/
structure FrameStart where
  measured : VideoFmt
  declared : Option VideoFmt := none
  rtp : Nat := 0
  instant : Nat := 0
  deriving DecidableEq, Repr

/-- What has arrived of a frame: pel words of its active lines in stored order, each run with its line and first word
(R74), and the ancillary packets that belong to it (R82). -/
structure PelRun where
  line : Nat
  first : Nat
  words : List Nat
  deriving DecidableEq, Repr

/-- An ST 291 ancillary packet (R82): DID, SDID, user data words and checksum as received, 10 bits each. -/
structure AncPacket where
  line : Nat
  hanc : Bool := false
  cStream : Bool := false
  did : Nat
  sdid : Nat := 0
  data : List Nat := []
  checksum : Nat := 0
  deriving DecidableEq, Repr

/-- A decision record as it is mirrored over the twin lanes (R90, R91). -/
structure DecisionRec where
  format : Nat
  sampling : Nat := 0
  seq : Nat
  /-- T_j on house time, in units of 1/3024 ns. -/
  t : Int
  kind : Nat := 0
  locked : Bool := false
  lockScale : Nat := 0
  tsLocal : Bool := false
  digest : Nat := 0
  deriving DecidableEq, Repr

/-- A COMMIT message (R405): the commit counter, the sender's controller and sequence, the command, and the active's
commit instant in house time, in units of 1/3024 ns. -/
structure CommitMsg where
  counter : Nat
  controller : Nat
  seq : Nat
  cmd : Cmd
  instant : Int
  deriving DecidableEq, Repr

/-! ### Audio and serial audio port events -/

/-- An uncorrectable error the audio matrix meets (R225): in an input's samples, in an output's entry, in a binding or
its ASRC state, in the global state. -/
inductive AudErr where
  | samples (i : Nat) | entry (o : Nat) | binding (i : Nat) | global
  deriving DecidableEq, Repr

/-- One entry of a twin AUDIO message (R206, R400): the input, its state, its slip (−1 a drop, 1 a repeat, 0 none) and
its ratio in units of 2^-32. -/
structure AudMirror where
  input : Nat
  state : Nat
  slip : Int := 0
  ratio : Nat := 4294967296
  deriving DecidableEq, Repr

/-- A twin AUDIO message (R400): the block index and its entries. -/
structure AudioMsg where
  block : Nat
  entries : List AudMirror
  deriving DecidableEq, Repr

/-- A frame that ends at a serial audio port (R230, R236): its BCLKs, its period in units of 1/3024 ns, and the words
its slots carried, left-justified in 32 bits. -/
structure SapFrameIn where
  bclks : Nat
  period : Nat
  words : List Nat
  deriving DecidableEq, Repr

/-! ### Lane and Holtut link events -/

/-- Where adaptation pulls a lane's equalisers at a step, or what it converged to (R291). -/
structure EqTarget where
  ctle : Nat
  vga : Nat
  dfe : List Int
  dffe : List Int := []
  deriving DecidableEq, Repr

/-- A link partner's coefficient request (R292): tap 0 to 4 is c(−3) to c(1). -/
inductive LtRequest where
  | inc (tap : Nat) | dec (tap : Nat) | preset
  deriving DecidableEq, Repr

/-- The answer to a coefficient request (R292). -/
inductive LtAnswer where
  | updated | maximum | minimum | notUpdated
  deriving DecidableEq, Repr

/-- What a lane's monitor slicer measures in 10 ms (R293): the eyes as (upper, middle, lower), the signal-to-noise ratio
in 0.1 dB, and the errors at the data point. -/
structure LaneMon where
  eyeH : Nat × Nat × Nat
  eyeW : Nat × Nat × Nat
  snr : Nat
  errors : Nat := 0
  deriving DecidableEq, Repr

/-- Why a sleeping lane wakes (R295). -/
inductive WakeCause where
  | stageLeft | binding | farSignal
  deriving DecidableEq, Repr

/-- A 66-bit block as it is received (R246): the header as a number whose more significant bit was sent first (1 a data
block, 2 a control block), and the 64 payload bits, the first sent the least significant. -/
structure Block66 where
  header : Nat
  payload : Nat
  deriving DecidableEq, Repr

/-- A FEC frame as it is received (R250): its blocks, 80 with FEC on, and by how many blocks the elastic buffer's fill
has moved since the last frame for the difference of the two clocks (R257). With FEC off the blocks are a run of the
block stream. -/
structure FecFrame where
  blocks : List Block66
  drift : Int := 0
  deriving DecidableEq, Repr

/-- A segment (R258, R259): the fields of its SOS block, its data bytes with the CRC-32C in the last four, and the
instant its SOS crossed the device's reference plane, on house time in units of 1/3024 ns. -/
structure Segment where
  version : Nat := 1
  kind : Nat
  flow : Nat
  seq : Nat
  data : List Byte
  stamp : Nat := 0
  deriving DecidableEq, Repr


/-! ### Direct SDI events -/

/-- What a line that carries an SD error-detection packet shows (R306): whether the active-picture and the full-field CRC
agree. -/
structure EdhCheck where
  ap : Bool
  ff : Bool
  deriving DecidableEq, Repr

/-- A line as an SDI receiver takes it (R306, R309): its number, whether its TRS stand at their places and are correctly
protected, whether its line-number words agree with the line counted and its CRCs with its words, whether the words per
line or the lines per frame have changed, the pel words of its active picture with the link's active line (counted in the
stored order of R75), an SD packet's outcome, whether it is the frame's last line, the arrival of its EAV at the lane
corrected by the internal latency, on the scale of R309 in units of 1/3024 ns, and, on the first link of a group, the
spread of its links in ns. -/
structure SdiLine where
  line : Nat
  trs : Bool := true
  number : Bool := true
  crc : Bool := true
  changed : Bool := false
  active : Option (Nat × List Nat) := none
  edh : Option EdhCheck := none
  last : Bool := false
  arrival : Nat := 0
  skew : Nat := 0
  deriving DecidableEq, Repr

/-- What an ST 291 packet of an SDI input carries (R305 to R308). -/
inductive SdiBody where
  /-- Audio data of a group (from 1): each of its four channels' samples of 24 bits, the pairs of the group that are not
  PCM, and whether its ECC holds or has been corrected. -/
  | audio (group : Nat) (samples : List (List Int)) (nonPcm : Nat) (ecc : Bool)
  /-- Audio control of a group: its rate is the matrix's 96 kHz, 48 kHz, or neither. -/
  | control (group : Nat) (rate : Option Bool)
  /-- ST 352: its four bytes, byte 1 the least significant, the link number they give (0 none) and whether they declare
  level B. -/
  | vpid (bytes link : Nat) (levelB : Bool)
  /-- An SD error-detection packet's flags. -/
  | edh (flags : Nat)
  | other (p : AncPacket)
  deriving DecidableEq, Repr

/-- An ST 291 packet received (R307): its stream (2 is the second stream of level B-DL), and whether it has a parity or
checksum error. -/
structure SdiPacket where
  body : SdiBody
  stream : Nat := 1
  bad : Bool := false
  deriving DecidableEq, Repr

/-- A line as a lane transmits it (R312 to R314): its number, the pel words of its active picture, the audio samples of
each group (from 1) by channel, the groups whose control packets it carries, ST 352's bytes, whether it carries an SD
error-detection packet, and the ancillary packets placed on it. -/
structure SdiOut where
  line : Nat
  active : List Nat
  audio : List (Nat × List (List Int))
  control : List Nat
  vpid : Option Nat
  edh : Bool
  anc : List AncPacket
  deriving DecidableEq, Repr


/-! ### Ethernet events -/

/-- The IP and UDP header of a received packet: its version, its addresses (the first octet the most significant, IPv4 as
::ffff:a.b.c.d) and its destination UDP port. -/
structure IpHdr where
  v6 : Bool := false
  src : Nat
  dst : Nat
  udp : Nat
  deriving DecidableEq, Repr

/-- What an RTP packet carries (R324): ST 2110-20 rows as pel words of stored lines, ST 2110-30 or -31 samples by channel
with the pairs that are not PCM, ST 2110-40 entries, or bytes that are not inspected. -/
inductive RtpBody where
  | video (rows : List PelRun)
  | audio (samples : List (List Int)) (nonPcm : Nat)
  | anc (entries : List AncPacket)
  | opaque (bytes : List Byte)
  deriving DecidableEq, Repr

/-- An RTP packet (R325, R331); `ext` is the extended sequence number of ST 2110-20. -/
structure RtpPacket where
  version : Nat := 2
  pt : Nat
  ssrc : Nat
  seq : Nat
  ext : Nat := 0
  stamp : Nat
  marker : Bool := false
  body : RtpBody
  deriving DecidableEq, Repr

/-- A received PTP message (R41): where it completes an exchange, the offset from the master that firmware's servo then
measures, in ns, and the trim its loop asks for. -/
structure PtpRx where
  offset : Option (Int × Int) := none
  deriving DecidableEq, Repr

/-- What a received frame is (R321). -/
inductive EthBody where
  | rtp (p : RtpPacket)
  | ptp (p : PtpRx)
  | other
  deriving DecidableEq, Repr

/-- A frame as a MAC receives it (R321, R322): its destination address (byte 0 the most significant), its length with the
FCS, the identifiers of its 802.1Q tags, its IP and UDP header, whether its FCS, its lengths, its IPv4 and UDP checksums
and its symbols are right, whether it finds the staging full, the FEC codewords corrected and uncorrectable since the last
frame, and its raw capture at the port on house time, in units of 1/3024 ns. -/
structure EthFrame where
  dest : Nat
  length : Nat
  tags : List Nat := []
  ip : Option IpHdr := none
  fcs : Bool := true
  lengths : Bool := true
  ipSum : Bool := true
  udpSum : Bool := true
  symbols : Bool := true
  full : Bool := false
  fecCorr : Nat := 0
  fecUncorr : Nat := 0
  stamp : Nat := 0
  body : EthBody
  deriving DecidableEq, Repr

/-- The state of a port's PCS (R320). -/
structure MacLink where
  pcsLock : Bool
  localFault : Bool := false
  remoteFault : Bool := false
  deriving DecidableEq, Repr


/-! ### Memory and matrix events -/

/-- An error the HBM's check finds as a burst is read (R364): the data burst (its address / 64), whether the error lies in
the check burst that covers it, whether it is uncorrectable, and the syndrome of the first failing word. -/
structure HbmErr where
  burst : Nat
  check : Bool := false
  ue : Bool
  syndrome : Nat := 0
  deriving DecidableEq, Repr

/-- A pseudo-channel controller serves a request: the pseudo-channel and the errors the check finds. -/
structure HbmReq where
  pc : Nat
  errs : List HbmErr := []
  deriving DecidableEq, Repr

/-- An error in an SRAM word (R374): the word of 8 bytes, counted from firkin 0, and whether it is uncorrectable. -/
structure SramErr where
  word : Nat
  ue : Bool
  deriving DecidableEq, Repr

/-- What training finds of a channel (R369 to R371): whether it trained, its redundant lanes and hard repair resources
left, and whether a failing lane found no redundant lane. -/
structure ChTrain where
  ok : Bool := true
  lanes : Nat := 0
  hard : Nat := 0
  laneShort : Bool := false
  deriving DecidableEq, Repr

/-- What training finds (R371): the stacks identified as 24 GiB HBM3E, the stacks' temperatures, and each channel. -/
structure HbmTraining where
  found : Nat
  temps : List Nat := []
  chans : List ChTrain := []
  deriving DecidableEq, Repr

/-- A transaction as a port issues it (R381, R386): a write with its data and byte enables (empty: all set), and whether it
writes a word that marks other data as complete. -/
structure MtxReq where
  stream : Nat
  tag : Nat
  write : Bool
  addr : Nat
  beats : Nat
  data : List Byte := []
  enables : List Bool := []
  mark : Bool := false
  deriving DecidableEq, Repr



/-! ### Twin messages and pecks -/

/-- A peck (R275). -/
structure Peck where
  replaceReq : Bool := false
  lockstep : Bool := false
  grant : Bool := false
  role : Nat
  seq_ : Nat := 0
  stage : Nat := 0
  gen : Nat := 0
  deriving DecidableEq, Repr

/-- An entry of a SIGNATURE message (R400, R409). -/
structure SigEntry where
  dest : Nat
  inputDiff : Bool := false
  digest : Nat
  shown : Nat
  deriving DecidableEq, Repr

/-- A SIGNATURE message (R400): its OTG, the low word of its frame count, and its entries. -/
structure SigMsg where
  otg : Nat
  frame : Nat
  entries : List SigEntry
  deriving DecidableEq, Repr

/-- An ADMIT message (R400, R413). -/
structure AdmitMsg where
  unit : Nat
  es : Bool
  compat : Nat
  gen : Nat
  die : Nat := 0
  deriving DecidableEq, Repr

/-- An item of a snapshot (R412): a register word by its BAR0 offset, a chain with its state, or a table, a font, a
surface or a configuration as the command that gives it. -/
inductive SnapItem where
  | reg (offset value : Nat)
  | chain (n state controller : Nat) (entries : List TakeBody) (trig : Option ChainTrig)
  | cmd (c : Cmd)
  deriving DecidableEq, Repr

/-- A snapshot (R412): the reference OTG's frame count it is taken at, the commit counter it stands at, and its items. -/
structure SnapMsg where
  frame : Nat
  counter : Nat
  items : List SnapItem
  deriving DecidableEq, Repr

/-! ### Host interface events -/

/-- A submission-queue descriptor with what its fetch finds (R428, R432): the length in the message's header, and whether a
read ended with an error. -/
structure Desc where
  msgAddr : Nat
  msgLen : Nat
  respLen : Nat := 0
  respAddr : Nat := 0
  reserved : Nat := 0
  hdrLen : Nat
  err : Bool := false
  deriving DecidableEq, Repr

/-- What resets the host interface (R426). -/
inductive HostReset where
  | perst | hot | linkDown | flr
  deriving DecidableEq, Repr

/-- A management datagram (R433): the sender's address as four words and its port, the transport header's session and
counter, the payload and the tag. -/
structure MgmtGram where
  addr : List Nat := []
  port : Nat := 0
  session : Nat := 0
  counter : Nat := 0
  payload : List Byte
  tag : List Byte
  deriving DecidableEq, Repr

/-! ### Start-up, power and test events -/

/-- Why the reference wait ends (R456). -/
inductive RefWait where
  | locked | timeout | peck
  deriving DecidableEq, Repr

/-- What the fuses hold as they are read (R454, R465, R466, R469): grade, stepping, die identifier, security version, the
four key digests (none while blank), revocations and cfg_sig_required. -/
structure Fuses where
  es : Bool := false
  stepping : Nat := 0
  die : Nat := 0
  vf : Nat := 0
  keys : List (Option (List Byte)) := []
  revoked : List Nat := []
  cfgSig : Bool := false
  deriving DecidableEq, Repr

/-- The settings of the POLICY section (R468), with their defaults. -/
structure Policy where
  refWait : Nat := 45
  confirm : Nat := 600
  handover : Nat := 300
  trickle : Nat := 0x520A
  windowMax : Nat := 128
  testMode : Bool := false
  deriving DecidableEq, Repr, Inhabited

/-- What the sections of a configuration image say (R468): register words by BAR0 offset for MEMORY; (block, instance,
offset, value) for REGISTERS; tables and fonts as the commands that load them; controller keys; the park map, where its CRC
holds; surfaces with their pel words; state as commands; the flow address table by word; and POLICY. -/
structure CfgSections where
  memory : List (Nat × Nat) := []
  registers : List (Nat × Nat × Nat × Nat) := []
  luts : List LutLoadBody := []
  curves : List CurveLoadBody := []
  coefs : List CoefLoadBody := []
  fonts : List FontSetBody := []
  glyphs : List FontLoadBody := []
  keys : List (Nat × List Byte) := []
  park : Option (List Nat) := none
  surfaces : List (SurfaceAllocBody × List Byte) := []
  state : List (Nat × Cmd) := []
  flowAddr : List (Nat × Nat) := []
  policy : Policy := {}
  deriving DecidableEq, Repr, Inhabited

/-- What one poll of a regulator gives (R495, R496): whether the poll succeeded and how many of its transactions failed,
and its readings: mV, 0.01 W and the STATUS_WORD. -/
structure RailPoll where
  dev : Nat
  ok : Bool := true
  failed : Nat := 0
  volts : Nat := 0
  power : Nat := 0
  status : Nat := 0
  deriving DecidableEq, Repr

/-- What starts a warm reset (BOOT_RESET_CAUSE). -/
inductive ResetCause where
  | command | watchdog | escalation | update
  deriving DecidableEq, Repr

/-! ### The commands and events of spec/opcode_table.json -/

/-- One constructor per row of spec/opcode_table.json, in its order. -/
inductive Instr where
  | functionEnable (f : Fn) (who : Writer)
  | functionDisable (f : Fn) (who : Writer)
  | initComplete (f : Fn)
  | drainComplete (f : Fn)
  | functionFault (f : Fn) (code : Nat) (rung2 : Bool)
  | warmReset (cause : ResetCause)
  | powerCycle
  | pwrCycleTimeout
  | hbmBwSample (rd : Nat) (wr : Nat) (chans : List Nat)
  | registerWrite (addr : Nat) (value : Word) (be : Nat)
  | counterLowRead (addr : Nat)
  | hostUnmappedAccess (write : Bool) (addr : Nat) (value : Word) (be : Nat)
  | timeSnap (who : Writer)
  | htSecondsStore
  | ptpAnnounceTimeout (n : TbId)
  | ptpServoLock (n : TbId)
  | ptpOffsetUnlock (n : TbId)
  | servoRange (n : TbId)
  | tbAdjStep (n : TbId)
  | tbAdjSlew (n : TbId)
  | tbSlewComplete (n : TbId)
  | tbSet (n : TbId)
  | refEnableWrite (n : RefId) (on : Bool)
  | refLockoutWrite (n : RefId) (on : Bool)
  | refPulseEdge (n : RefId) (e : RefEdge)
  | refTick (meas : List RefMeas) (cw : Int)
  | refQualComplete (n : RefId)
  | refWtrComplete (n : RefId)
  | refDriftSample (n : RefId) (freq : Int)
  | dpllModeAuto
  | dpllModeForced (ref : RefId)
  | holdoverForce
  | freeRunForce
  | dpllAcqLocked (adj : Int)
  | dpllCaptureComplete (offset : Int)
  | dpllPullComplete
  | dpllCwLimit
  | synthLockLoss (relocked : Bool)
  | dpllRealign
  | htRealignStep
  | otgFrameBoundary (n : OtgId)
  | pulseOutputEdge (o : PulseOut)
  | evtArm (n : EvtId) (who : Writer)
  | evtDisarm (n : EvtId) (who : Writer)
  | evtFire (n : EvtId)
  | timeSet (h : Hdr) (b : TimeSetBody)
  | timeRealign (h : Hdr)
  | timeRef (h : Hdr) (b : TimeRefBody)
  | timeDpll (h : Hdr) (b : TimeDpllBody)
  | timeOtg (h : Hdr) (b : TimeOtgBody)
  | ingressFrameStart (n : SrcId) (f : FrameStart)
  | ingressFrameComplete (n : SrcId)
  | frameAbandon (n : SrcId)
  | noInputTimeout (n : SrcId)
  | decisionMirrorRx (n : SrcId) (r : DecisionRec)
  | decisionLocalDeadline (n : SrcId) (seq_ : Nat)
  | srcCntClear (n : SrcId)
  | take (h : Hdr) (b : TakeBody)
  | takeOverlay (h : Hdr) (b : OverlayBody)
  | takeCommit (n : DstId)
  | destFrameBoundary (n : DstId)
  | destSwitchPoint (n : DstId) (field2 : Bool)
  | destSwitchLine (n : DstId) (field2 : Bool)
  | scanoutTileRowFetch (n : DstId) (layer : Fin 3) (row : Nat)
  | scanoutLineEmit (n : DstId) (line : Nat)
  | destFrameEmitted (n : DstId)
  | protect (h : Hdr) (b : HoldBody)
  | lock (h : Hdr) (b : HoldBody)
  | release (h : Hdr) (b : HoldBody)
  | forceRelease (h : Hdr) (b : HoldBody)
  | chainLoad (h : Hdr) (b : ChainLoadBody)
  | chainArm (h : Hdr) (b : ChainArmBody)
  | chainFire (h : Hdr) (b : ChainFireBody)
  | chainCancel (h : Hdr) (b : ChainCancelBody)
  | chainQuery (h : Hdr) (chain : Nat)
  | chainTrigger (chain : Fin 256)
  | surfaceAlloc (h : Hdr) (b : SurfaceAllocBody)
  | surfaceWrite (h : Hdr) (b : SurfaceWriteBody)
  | surfacePublish (h : Hdr) (id : Nat)
  | surfaceFree (h : Hdr) (id : Nat)
  | surfaceQuery (h : Hdr) (id : Nat)
  | surfaceReclaim (id : Fin 256)
  | dstCntClear (n : DstId)
  | procSet (h : Hdr) (b : ProcSetBody)
  | procLut3dLoad (h : Hdr) (b : LutLoadBody)
  | procLut3dFree (h : Hdr) (slot : Nat)
  | procCurveLoad (h : Hdr) (b : CurveLoadBody)
  | procCoefLoad (h : Hdr) (b : CoefLoadBody)
  | procQuery (h : Hdr) (proc : Nat)
  | procOutputBoundary (n : PrcId)
  | procFrameComplete (n : PrcId)
  | prcCntClear (n : PrcId)
  | mvSet (h : Hdr) (b : MvSetBody)
  | mvLayout (h : Hdr) (b : MvLayoutBody)
  | mvText (h : Hdr) (b : MvTextBody)
  | mvTally (h : Hdr) (b : MvTallyBody)
  | mvGuard (h : Hdr) (b : MvGuardBody)
  | mvFontSet (h : Hdr) (b : FontSetBody)
  | mvFontLoad (h : Hdr) (b : FontLoadBody)
  | mvQuery (h : Hdr) (head : Nat)
  | mvHeadBoundary (n : HeadId)
  | mvHeadRowComposed (n : HeadId) (row : Nat) (late : List Nat)
  | mvhCntClear (n : HeadId)
  | audioMap (h : Hdr) (b : AudioMapBody)
  | audioBind (h : Hdr) (b : AudioBindBody)
  | audioGroup (h : Hdr) (b : AudioGroupBody)
  | audioTone (h : Hdr) (b : AudioToneBody)
  | audioMonitor (h : Hdr) (b : AudioMonitorBody)
  | audioQuery (h : Hdr) (b : AudioQueryBody)
  | audioBlockBoundary (late : List Nat) (errs : List AudErr)
  | audioInputReturn (c : ChanId)
  | asrcReturn (c : ChanId)
  | loudnessUpdate
  | silenceDetect (d : Fin 2048)
  | twinAudioMsg (m : AudioMsg)
  | audCntClear
  | audioSap (h : Hdr) (b : AudioSapBody)
  | sapFrame (p : SapId) (f : SapFrameIn)
  | sapQualified (p : SapId)
  | sapClockLoss (p : SapId)
  | sapCntClear (p : SapId)
  | hlkSignalDetect (l : LaneId)
  | hlkSignalLoss (l : LaneId)
  | hlkBlockLock (l : LaneId)
  | hlkBlockLockLost (l : LaneId)
  | hlkFecLock (l : LaneId)
  | hlkFecLockLost (l : LaneId)
  | hlkFecFrameRx (l : LaneId) (f : FecFrame)
  | hlkUpTimeout (l : LaneId)
  | wakeFail (l : LaneId)
  | hlkStateRx (l : LaneId) (b : Block66)
  | noState (l : LaneId)
  | hlkStateTx (l : LaneId)
  | hlkVideoSegmentRx (l : LaneId) (g : Segment)
  | hlkAudioBundleRx (l : LaneId) (g : Segment)
  | hlkAncSegmentRx (l : LaneId) (g : Segment)
  | hlkOpaqueSegmentRx (l : LaneId) (g : Segment)
  | hlkTimeSegmentRx (l : LaneId) (g : Segment)
  | hlkTimeTx (l : LaneId)
  | hlkTwinFragmentRx (l : LaneId) (g : Segment)
  | hlkFragmentTimeout (l : LaneId)
  | hlkIdleEnter (l : LaneId)
  | hlkWakeBurst (l : LaneId) (sent : Bool)
  | hlkCntClear (l : LaneId)
  | laneAdaptComplete (l : LaneId) (t : EqTarget)
  | laneEqStep (l : LaneId) (t : EqTarget)
  | ltCoefRequest (l : LaneId) (q : LtRequest)
  | laneMonitorUpdate (l : LaneId) (m : LaneMon)
  | lowMargin (l : LaneId) (below : Bool)
  | laneScanGo (l : LaneId)
  | scanDone (l : LaneId) (errors : Nat)
  | laneWake (l : LaneId) (why : WakeCause)
  | laneResleep (l : LaneId)
  | lanePllUnlock (q : QuadId) (pll : Fin 2) (relocked : Bool)
  | refclkLost (q : QuadId)
  | refclkRestored (q : QuadId)
  | laneCntClear (l : LaneId)
  | sdiSignalDetect (l : LaneId)
  | sdiSearchDwell (l : LaneId)
  | sdiCdrLock (l : LaneId) (rate : Nat)
  | sdiAlignComplete (l : LaneId) (levelB : Bool) (rows : Nat)
  | sdiCdrUnlock (l : LaneId)
  | sdiLos (l : LaneId)
  | sdiLineRx (l : LaneId) (d : SdiLine)
  | sdiAncPacketRx (l : LaneId) (p : SdiPacket)
  | sdiTxLine (l : LaneId) (line : Nat)
  | sdiCntClear (l : LaneId)
  | macFrameRx (m : MacId) (f : EthFrame)
  | flowSeqRelease (q : FlowId) (seq_ : Nat)
  | flowLegLost (q : FlowId) (leg : Fin 2)
  | macLinkChange (m : MacId) (k : MacLink)
  | txLaunchSlot (m : MacId) (under : Bool)
  | txLateDrop (m : MacId)
  | gateWaitDrop (m : MacId)
  | macTxComplete (m : MacId)
  | gateEntryChange (m : MacId)
  | macGateApply (m : MacId) (who : Writer)
  | gateListInstall (m : MacId)
  | macTsqPop (who : Writer)
  | macCntClear (m : MacId)
  | macTsqCntClear
  | flowCntClear (tx : Bool) (q : FlowId)
  | hbmRequestServe (r : HbmReq)
  | spareCopyDone (pc : Fin 128)
  | hbmRefresh (pc : Fin 128) (bank : Fin 32)
  | qosUrgencyEval (slack : List Nat)
  | hbmScrubStep (pc : Fin 128) (e : List HbmErr) (behind : Bool)
  | sramScrubStep (fk : Fin 256) (e : List SramErr)
  | hbmRecal (c : HbmChId) (failures : Nat)
  | hbmEyeRetrain (c : HbmChId) (ok : Bool)
  | hbmTrainingComplete (t : HbmTraining)
  | hbmApertureAccess (write : Bool) (off : Nat) (value : Word) (be : Nat)
  | hbmElogPop
  | hbmCntClear
  | mtxTransactionIssue (m : PortId) (t : MtxReq)
  | mtxGrant (target : Fin 73) (e : List SramErr)
  | mtxResponse (m : PortId) (tag : Nat)
  | mtxWatchdogExpiry (m : PortId) (tag : Nat)
  | mtxStreamIdle (m : PortId) (stream : Nat)
  | mtxLogPop
  | mtxCntClear
  | twinPeckTx
  | twinPeckRx (path : Option LaneId) (p : Peck)
  | twinMissEval (grant : Bool)
  | roleActivePeckTimeout
  | twinSeekTimeout (grant : Bool)
  | twinCommitMsg (m : CommitMsg)
  | twinSignatureMsg (m : SigMsg)
  | twinSignatureTx (n : OtgId)
  | twinShedMsg (stage : Nat) (frame : Nat)
  | twinSwapMsg (op : Nat) (reason : Nat) (frame : Nat)
  | twinAdmitMsg (m : AdmitMsg)
  | twinSnapshotMsg (m : SnapMsg)
  | twinResyncComplete
  | twinAdmitRecheck
  | admitAgreement
  | healthSwap (h : Hdr)
  | twinSwapBoundary
  | twinSwapTimeout
  | twinCntClear
  | sqTailDoorbell (r : RingId) (v : Nat)
  | cqHeadDoorbell (r : RingId) (v : Nat)
  | cmdDescFetch (r : RingId) (d : Desc)
  | cmdMessageReceived (k : Intake) (words : List Nat)
  | pcieHostReset (kind : HostReset)
  | openSession (d : MgmtGram)
  | dataDatagram (d : MgmtGram)
  | closeSession (d : MgmtGram)
  | sessionTimeout (e : SessId)
  | queryXpt (h : Hdr) (first : Nat) (count : Nat)
  | queryStatus (h : Hdr)
  | queryCommand (h : Hdr) (seq : Nat)
  | queryRegs (h : Hdr) (offset : Nat) (count : Nat)
  | configSet (h : Hdr) (b : ConfigBody)
  | glbIrqEoi (vector : Fin 64)
  | irqCoalTimeout (r : RingId)
  | glbAflPop
  | glbCntClear
  | cmdCntClear
  | fwHeartbeat
  | porstRelease (f : Fuses)
  | railInRegulation (rail : Fin 8)
  | railFail (rail : Fin 8)
  | railOutOfTolerance (rail : Fin 9) (low : Bool)
  | bootRomSelect (found : Bool) (flash : List (Nat × Nat))
  | firmwareLoaded
  | configApply
  | mramRestore (bad : List (Nat × Nat))
  | linksUp
  | referenceWaitEnd (why : RefWait)
  | routingStart
  | trialConfirm
  | trialHandoverTimeout
  | mramWindowWrite
  | updateBegin (h : Hdr) (b : UpdateBeginBody)
  | updateEraseDone (ok : Bool)
  | updateWrite (h : Hdr) (b : UpdateWriteBody) (ok : Bool)
  | updateStatus (h : Hdr) (first : Nat)
  | updateVerify (h : Hdr)
  | updateActivate (h : Hdr) (b : UpdateActivateBody)
  | updateActivationStart
  | updateHandoverTimeout
  | updateAbort (h : Hdr)
  | updateTrickle (h : Hdr) (value : Word)
  | updateRevert (h : Hdr)
  | updateProvision (h : Hdr) (b : ProvisionBody)
  | tricklePiece (n : SrcId) (p : AncPacket) (ok : Bool)
  | bootCntClear
  | avsEval (vReq : Nat)
  | avsCeiling
  | shedEval (vMeas : Nat)
  | shedStepDown
  | undervoltageReset
  | supplyWarn
  | thermalSample (die : Int) (temps : List Nat)
  | thermWarnHeld
  | thermalTrip
  | watchdogExpiry
  | pmbusPoll (r : List RailPoll)
  | pmbusAlert (r : List RailPoll)
  | healthReinit (h : Hdr) (block : Nat) (inst : Nat)
  | healthReset (h : Hdr)
  | healthPowerCycle (h : Hdr)
  | healthSubscribe (h : Hdr) (start : Bool)
  | healthDebugChallenge (h : Hdr) (level : Nat)
  | healthDebugResponse (h : Hdr) (b : DebugResponse)
  | telemetryRecord
  | pwrCntClear
  | extest (dr : Nat)
  | idcode
  | samplePreload (dr : Nat)
  | clamp
  | highz
  | dbgChallenge (level : Nat)
  | dbgResponse (b : DebugResponse)
  | scanRead
  | bypass (bit : Bool)
  | freeze
  | porstAssert
  | supplyWarnRelease
  | startupTimeExpiry
  | ptpMessageTx (m : MacId) (k : PtpTx)
  | updateVerifyDone
  | laneSignalDetect (l : LaneId)
  | laneSignalLoss (l : LaneId)
  | laneCdrLockLoss (l : LaneId)
  | pcieLinkUp
  | msixVectorUnmask (v : Fin 64)
  | hbmCeRateClear
  deriving DecidableEq, Repr

end Sys2Proof
end

