-- ==== Sys2Proof/Decode.lean ====
section
/-!
DEFINITION. The command a word of the opcode table's bits spells. No row of spec/opcode_table.json gives any bits
(every row's field list is empty), so no word spells a command. How a Rygus message spells a command (R438, R441) is
in Machine/Message.lean.
-/

namespace Sys2Proof

/-- The command an `nbits`-bit table word spells: none, since no row of the table has bits. -/
def decodeTableWord (_nbits _w : Nat) : Option Instr := none

end Sys2Proof
end

