-- ==== Sys2Proof/Config.lean ====
section
/-!
DEFINITION. What an implementation fixes and the spec leaves open: free values and functions with no body, so that
nothing can be proved of them beyond what a statement assumes.
-/

namespace Sys2Proof.Config

/-- A value nothing constrains; the argument is a counter of the state that every use advances (assumption 1). -/
opaque freeValue : Nat → Nat

/-- Where firmware places an allocation of HBM (R355): the allocations in force as (base, size), the size asked for and
the grain. The model takes the answer only where it is a whole free range (assumption 20). -/
opaque hbmBase : List (Nat × Nat) → Nat → Nat → Nat

/-- The 12-bit coefficient code of an AUTO bank (R150), which firmware generates: taps, input and output length, chroma,
phase and tap (assumption 21). -/
opaque autoCoef : Nat → Nat → Nat → Bool → Nat → Nat → Nat

/-- Bytes of HBM that the audio matrix's delay lines take (R225): the spec gives no size (assumption 27). -/
opaque audioStore : Nat

/-- The sample an asynchronous sample-rate converter gives (R206): the ratio and the position within the supplier's
sample, both in units of 2^-32, and the supplier's samples around it. The spec gives its passband and stopband and no
coefficients (assumption 22). -/
opaque asrcSample : Nat → Nat → List Int → Int

/-- The sample the fixed half-band converter of a serial audio port gives (R234): whether it doubles the rate, and the
port's samples around it (assumption 22). -/
opaque halfBand : Bool → List Int → Int

/-- One block through the K-weighting filter of ITU-R BS.1770-4 (R222): the matrix rate, the filter's state and the
block's samples give the new state and the block's mean-square power (assumption 23). -/
opaque kBlock : Bool → Nat → List Int → Nat × Nat

/-- The loudness in 0.1 LUFS of a weighted mean-square power under ITU-R BS.1770-4 (R222, assumption 23). -/
opaque lufs : Nat → Int

/-- The four bytes of an ST 352 packet (R312), byte 1 the least significant: the lane's interface as its rate code and level
B, the format, the sampling, the depth and the colorimetry codes, and the link number (assumption 24). -/
opaque vpidBytes : Nat → Bool → Nat → Nat → Nat → Nat → Nat → Nat

/-- What the bytes of a configuration image's sections say (R468): the Rygus compiler's layout of most sections is its own
(assumption 25). -/
opaque sections : List Byte → CfgSections

/-- What a quad measures of its reference clock against the oscillator (R287): the quad and the millisecond of the house
clock (assumption 36). -/
opaque refclkOffset : Nat → Nat → Nat

/-- The measured power of a quad's lanes and PLLs (R297): the quad and the millisecond of the house clock (assumption 36). -/
opaque quadPower : Nat → Nat → Nat

/-- The character errors counted on the LVDS path (R397), by the millisecond of the house clock (assumption 36). -/
opaque lvdsErrors : Nat → Nat

/-- Zelhan's manufacturer code in the IDCODE (R513): the spec gives no number (assumption 29). -/
opaque manufacturer : Nat

end Sys2Proof.Config
end

