-- ==== Sys2Proof/Machine/Bits.lean ====
section
/-!
DEFINITION. The bit-field, sign, byte-order and rounding helpers every meaning uses, and the sparse map's operations.
Every range is written [msb:lsb] in spec/ (00_scope, Numbers and units) and is named here by its lowest bit and its
width.
-/

namespace Sys2Proof

/-- Bits [lo + n - 1 : lo] of a number. -/
def bitsOf (x lo n : Nat) : Nat := x / 2 ^ lo % 2 ^ n

/-- Bit `b` of a number. -/
def bitOf (x b : Nat) : Bool := x / 2 ^ b % 2 == 1

/-- The number with bits [lo + n - 1 : lo] replaced by `v` (reduced to n bits). -/
def putBits (x lo n v : Nat) : Nat :=
  x - bitsOf x lo n * 2 ^ lo + (v % 2 ^ n) * 2 ^ lo

/-- The two's complement reading of an n-bit number. -/
def signedOf (n x : Nat) : Int :=
  if x % 2 ^ n < 2 ^ (n - 1) then (x % 2 ^ n : Int) else (x % 2 ^ n : Int) - 2 ^ n

/-- The n-bit two's complement code of an integer. -/
def codeOf (n : Nat) (x : Int) : Nat := (x % 2 ^ n).toNat

/-- The n-bit two's complement code of an integer, saturating at the ends of the range. -/
def satCode (n : Nat) (x : Int) : Nat :=
  codeOf n (max (-(2 ^ (n - 1))) (min (2 ^ (n - 1) - 1) x))

/-- One as a Bool's number. -/
def boolBit (b : Bool) : Nat := if b then 1 else 0

/-- The number clamped to a range. -/
def clampN (lo hi x : Nat) : Nat := max lo (min hi x)

/-- The integer clamped to a range. -/
def clampI (lo hi x : Int) : Int := max lo (min hi x)

/-- Division rounded up. -/
def ceilDiv (a b : Nat) : Nat := (a + b - 1) / b

/-- The little-endian bytes of a number (R10). -/
def leBytes : Nat → Nat → List Byte
  | 0, _ => []
  | n + 1, x => BitVec.ofNat 8 x :: leBytes n (x / 256)

/-- The number that little-endian bytes spell (R10). -/
def ofLeBytes : List Byte → Nat
  | [] => 0
  | b :: r => b.toNat + 256 * ofLeBytes r

/-- The most significant byte first bytes of a number (R10, network structures). -/
def beBytes (n x : Nat) : List Byte := (leBytes n x).reverse

/-- The number that most-significant-first bytes spell. -/
def ofBeBytes (l : List Byte) : Nat := ofLeBytes l.reverse

/-- The value a sparse map holds at a key. -/
def KV.get {α : Type} (dflt : α) : KV α → Nat → α
  | [], _ => dflt
  | (k, v) :: r, n => if n = k then v else KV.get dflt r n

/-- The sparse map with an entry put in its place. -/
def KV.put {α : Type} : KV α → Nat → α → KV α
  | [], n, v => [(n, v)]
  | (k, w) :: r, n, v => if n < k then (n, v) :: (k, w) :: r else (k, w) :: KV.put r n v

/-- The sparse map with a key set; setting the default removes the entry. -/
def KV.set {α : Type} [DecidableEq α] (dflt : α) (m : KV α) (n : Nat) (v : α) : KV α :=
  if v = dflt then m.filter (fun e => e.1 ≠ n) else KV.put (m.filter fun e => e.1 ≠ n) n v

/-- The sparse map with the value at a key changed. -/
def KV.upd {α : Type} [DecidableEq α] (dflt : α) (m : KV α) (n : Nat) (f : α → α) : KV α :=
  KV.set dflt m n (f (KV.get dflt m n))

end Sys2Proof
end

