-- ==== Sys2Proof/Machine/RegMap.lean ====
section
/-!
DEFINITION. The register map: one `RK` per register word of the register tables of spec/ (02 to 18), its
address, its dimensions, its reset value and its access masks (R4, R6, R8, R9, R447, R448), one name per register
(`R.<REGISTER>`) and one per field (`F.<REGISTER>_<field>`), as the tables spell them; an index letter of the
tables is an argument.
-/
namespace Sys2Proof.Machine

/-- One constructor per kind of register word of the register tables and table windows of spec/. -/
inductive RK where
  | TIME_SNAP | TIME_STATUS | TIME_UTC | TIME_SNAP_FRAC | TIME_SNAP_NS | TIME_SNAP_SEC_LO | TIME_SNAP_SEC_HI
  | TIME_IRQ_STATUS | TIME_IRQ_ENABLE | TB_CTRL | TB_FSTATE | TB_LOCK | TB_OFFSET | TB_FREQ_ADJ | TB_ADJ_VALUE
  | TB_ADJ_CMD | TB_SLEW | TB_SET_SEC_HI | TB_SET_SEC_LO | TB_SET_NS | TB_SET_CMD | TB_ADJ_STATUS | DPLL_CTRL
  | DPLL_FSTATE | DPLL_STATE | DPLL_BW | DPLL_SLEW | DPLL_HOLDOVER | DPLL_REALIGN | DPLL_REALIGN_STATUS
  | DPLL_BUILDOUT | DPLL_CW | DPLL_HO_VALUE | DPLL_HO_SPAN | REF_CTRL | REF_STATE | REF_WTR | REF_WTR_LEFT
  | REF_DRIFT | REF_FREQ | REF_DRIFT_MEAN | REF_ANA_FMT | OTG_CTRL | OTG_FSTATE | OTG_OFFSET | OTG_STATUS
  | OTG_FRAME_LO | OTG_FRAME_HI | OTG_LAST_ADJ | PPS_OUT_CTRL | FRAME_OUT_CTRL | WCLK_OUT_CTRL | EVT_CTRL
  | EVT_SEC_HI | EVT_SEC_LO | EVT_NS | EVT_STATUS | PORT_PTP_CTRL | PORT_RX_LAT | PORT_TX_LAT | PORT_ASYM
  | SRC_CTRL | SRC_FSTATE | SRC_INPUT | SRC_FMT | SRC_FMT_DET | SRC_GUARD | SRC_TS | SRC_STATUS | SRC_ALARM
  | SRC_ALARM_EN | SRC_PHASE | SRC_ARRIVAL_LAT | SRC_SEQ | SRC_HOG_BASE_LO | SRC_HOG_BASE_HI | SRC_HOG_SIZE
  | SRC_MON_CTRL | SRC_DIGEST | SRC_COMPACT_RATIO | SRC_CNT_FRAMES | SRC_CNT_SKIPPED | SRC_CNT_ABANDONED
  | SRC_CNT_LATE | SRC_CNT_CONCEAL | SRC_CNT_UE | SRC_CNT_OVERTAKE | SRC_CNT_ANC_DROP | SRC_CNT_LOCAL
  | SRC_CNT_DIGEST_MISMATCH | SRC_CNT_RAW_TILES | SRC_CNT_CLEAR | DST_CTRL | DST_FSTATE | DST_OUTPUT | DST_TAKE
  | DST_BREAK | DST_CUR_VIDEO | DST_CUR_BREAK | DST_LANDED_LO | DST_LANDED_HI | DST_HOLD | DST_FILL_Y | DST_FILL_C
  | DST_OPQ | DST_OVL_CTRL | DST_OVL_POS | DST_CUR_OVL_CTRL | DST_CUR_OVL_POS | DST_STATUS | DST_ALARM
  | DST_ALARM_EN | DST_SHOWN_SEQ | DST_CNT_TAKES | DST_CNT_SUPERSEDED | DST_CNT_NOT_READY | DST_CNT_UNDERRUN
  | DST_CNT_REPEAT | DST_CNT_DROP | DST_CNT_UE | DST_CNT_OPQ_GAP | DST_CNT_CLEAR | PRC_CTRL | PRC_FSTATE
  | PRC_INPUT | PRC_OUT_FMT | PRC_OUT | PRC_FUNC | PRC_CROP_X | PRC_CROP_Y | PRC_SCALE | PRC_FRC | PRC_DEINT
  | PRC_STATUS | PRC_ALARM | PRC_ALARM_EN | PRC_ELLS | PRC_LOAD | PRC_ENG | PRC_SEQ | PRC_CNT_FRAMES | PRC_CNT_LATE
  | PRC_CNT_NO_FRAME | PRC_CNT_UE | PRC_CNT_REDUCED | PRC_CNT_CLEAR | PRC_MTX_COEF | PRC_MTX_PRE | PRC_MTX_POST
  | MVH_CTRL | MVH_FSTATE | MVH_OUT | MVH_BG_Y | MVH_BG_C | MVH_MON | MVH_METER | MVH_TILES | MVH_LOAD | MVH_STATUS
  | MVH_ALARM | MVH_ALARM_EN | MVH_SEQ | MVH_CNT_FRAMES | MVH_CNT_LATE | MVH_CNT_TILE_LATE | MVH_CNT_TILE_NOT_READY
  | MVH_CNT_UE | MVH_CNT_SCRUPLE_MISMATCH | MVH_CNT_CLEAR | MVH_T_SRC | MVH_T_RECT_X | MVH_T_RECT_Y | MVH_T_DECO
  | MVH_T_METER | MVH_T_STATUS | MVH_T_SHOWN_SEQ | MVH_T_TEXT | MVH_GR_CTRL | MVH_GR_X | MVH_GR_Y | MVH_GR_EXPECT
  | MVH_GR_PRED | MVH_GR_MEAS | MVH_GR_STATUS | MVH_GR_CNT | MVH_CLK_CTRL | MVH_CLK_POS | MVH_CLK_OFFSET
  | MVH_PAL_Y | MVH_PAL_C | DMON_CTRL | DMON_THRESH | DMON_DIGEST | DMON_LUMA | DMON_STATUS | DMON_ALARM
  | DMON_ALARM_EN | DMON_SEQ | AUD_CTRL | AUD_FSTATE | AUD_STATUS | AUD_ALARM | AUD_ALARM_EN | AUD_BLOCK_LO
  | AUD_BLOCK_HI | AUD_ASRC | AUD_CNT_LOST | AUD_CNT_SLIP | AUD_CNT_LATE | AUD_CNT_CLIP | AUD_CNT_LOCAL
  | AUD_CNT_SUPERSEDED | AUD_CNT_UE | AUD_CNT_CLEAR | AUD_SGRP | AUD_SGRP_DELAY | AUD_DGRP | AUD_DGRP_DELAY
  | AUD_TONE | AUD_TONE_LEVEL | AUD_SIL_CTRL | AUD_SIL_STATUS | AUD_LG_CTRL | AUD_LG_M | AUD_LG_S | AUD_LG_CH
  | SAP_CTRL | SAP_FSTATE | SAP_FRAME | SAP_RX_MASK | SAP_TX_MASK | SAP_TX | SAP_QUAL | SAP_CLK_STATE | SAP_STATUS
  | SAP_ALARM | SAP_ALARM_EN | SAP_FREQ | SAP_QUAL_COUNT | SAP_BUF_FILL | SAP_CNT_DISCARD | SAP_CNT_REQUAL
  | SAP_CNT_CLOCK_LOST | SAP_CNT_SLIP | SAP_CNT_CLEAR | HLK_CTRL | HLK_FSTATE | HLK_STATE | HLK_FAR_ID
  | HLK_FAR_EPOCH | HLK_PAIR_ID | HLK_TIME_CTRL | HLK_ASYM | HLK_DELAY | HLK_FAR_OFFSET | HLK_FEC_COUNTER
  | HLK_BUF_FILL | HLK_ALARM | HLK_ALARM_EN | HLK_PLAN | HLK_CNT_FEC_CORR | HLK_CNT_FEC_UNCORR | HLK_CNT_FRAME_GAP
  | HLK_CNT_BLOCK_LOSS | HLK_CNT_RETRAIN | HLK_CNT_BAD_BLOCK | HLK_CNT_SEG_RX | HLK_CNT_SEG_TX | HLK_CNT_SEG_BAD
  | HLK_CNT_SEG_LOST | HLK_CNT_BAD_KIND | HLK_CNT_FILL_DEL | HLK_CNT_FILL_INS | HLK_CNT_PECK_RX | HLK_CNT_CLEAR
  | HLK_RXF_STATUS | HLK_RXF_SEGS | HLK_RXF_LOST | HLK_RXF_BAD | HLK_TXF_STATUS | HLK_TXF_SEGS | HLK_TXF_PLAN
  | LANE_CTRL | LANE_FSTATE | LANE_POL | LANE_STATUS | LANE_EQ_MODE | LANE_EQ_BOUND | LANE_EQ_BOUND2 | LANE_EQ_FIX
  | LANE_EQ_STATE | LANE_TX | LANE_TXFFE_BOUND | LANE_DFE | LANE_TXFFE | LANE_DFFE | LANE_EYE_H | LANE_EYE_W
  | LANE_SNR | LANE_MARGIN | LANE_SCAN_CTRL | LANE_SCAN_RESULT | LANE_ALARM | LANE_ALARM_EN | LANE_CNT_SIGNAL_LOSS
  | LANE_CNT_CDR_LOSS | LANE_CNT_ADAPT | LANE_CNT_MON_ERR | LANE_CNT_CLEAR | QUAD_CTRL | QUAD_FSTATE | QUAD_SWAP
  | QUAD_STATUS | QUAD_REFCLK_FREQ | QUAD_ALARM | QUAD_ALARM_EN | QUAD_POWER | SDI_CTRL | SDI_FSTATE | SDI_RX_CTRL
  | SDI_RX_STATE | SDI_RX_VPID | SDI_RX_LAT | SDI_RX_TWIN_DIFF | SDI_RX_SKEW | SDI_TX_CTRL | SDI_TX_LAT
  | SDI_STATUS | SDI_ALARM | SDI_ALARM_EN | SDI_RX_EDH | SDI_CNT_CRC | SDI_CNT_LN | SDI_CNT_TRS | SDI_CNT_EDH_AP
  | SDI_CNT_EDH_FF | SDI_CNT_ERR_FRAMES | SDI_CNT_ANC_CSUM | SDI_CNT_AUD_ERR | SDI_CNT_ANC_DROP | SDI_CNT_LOS
  | SDI_CNT_CLEAR | MAC_CTRL | MAC_FSTATE | MAC_ADDR_LO | MAC_ADDR_HI | MAC_IPV4 | MAC_IPV6 | MAC_MAX_FRAME
  | MAC_TX_THRESH | MAC_STATUS | MAC_ALARM | MAC_ALARM_EN | MAC_TC | MAC_HASH | MAC_GATE_CTRL
  | MAC_GATE_BASE_SEC_LO | MAC_GATE_BASE_SEC_HI | MAC_GATE_BASE_NS | MAC_GATE_CYCLE | MAC_GATE_CMD
  | MAC_GATE_STATUS | MAC_CNT_RX_FRAMES | MAC_CNT_RX_FCS | MAC_CNT_RX_LEN | MAC_CNT_RX_NOMATCH | MAC_CNT_RX_FULL
  | MAC_CNT_TX_FRAMES | MAC_CNT_TX_UNDERRUN | MAC_CNT_TX_LATE | MAC_CNT_FEC_CORR | MAC_CNT_FEC_UNCORR
  | MAC_CNT_CLEAR | MAC_GCL_ADMIN | MAC_GCL_OPER | MAC_TSQ_STATUS | MAC_TSQ_POP | MAC_TSQ_NEXT_TAG | MAC_TSQ_E
  | MAC_CNT_TSQ_DROP | MAC_TSQ_CNT_CLEAR | FLOW_TABLE_USED | FLOW_RX_ON | FLOW_TX_ON | FLOW_OPAQUE_USED
  | FLOW_CNT_CLEAR | FLOW_STAGE_FILL | FLOW_RX_CTRL | FLOW_RX_FSTATE | FLOW_RX_LEG | FLOW_RX_ADDR | FLOW_RX_MERGE
  | FLOW_RX_STATUS | FLOW_RX_ALARM | FLOW_RX_ALARM_EN | FLOW_RX_SSRC | FLOW_RX_CNT_PKTS | FLOW_RX_CNT_LOST
  | FLOW_RX_CNT_ERR | FLOW_RX_CNT_LATE | FLOW_RX_CNT_DUP | FLOW_TX_CTRL | FLOW_TX_FSTATE | FLOW_TX_LEG
  | FLOW_TX_ADDR | FLOW_TX_SSRC | FLOW_TX_TRO | FLOW_TX_PKT | FLOW_TX_TRS | FLOW_TX_STATUS | FLOW_TX_ALARM
  | FLOW_TX_ALARM_EN | FLOW_TX_SEQ | FLOW_TX_CNT_PKTS | FLOW_TX_CNT_LATE | HBM_CTRL | HBM_FSTATE | HBM_INFO
  | HBM_APERTURE | HBM_SCRUB | HBM_PNR | HBM_REPAIR | HBM_STATUS | HBM_ALARM | HBM_ALARM_EN | HBM_BW_RD | HBM_BW_WR
  | HBM_PLAN | HBM_PLAN_LIMIT | HBM_CNT_CE | HBM_CNT_UE | HBM_CNT_POISON_READ | HBM_CNT_SPARED | HBM_CNT_PNR_DROP
  | HBM_CNT_CLEAR | HBM_ELOG_CTRL | HBM_ELOG_STATUS | HBM_ELOG_POP | HBM_ELOG_E | HBM_QOS_CTRL | HBM_QOS_TARGET
  | HBM_QOS_STATUS | HBM_QOS_LATE | HBM_FK_STATUS | HBM_FK_CNT_CE | HBM_FK_CNT_UE | HBM_CH_CTRL | HBM_CH_FSTATE
  | HBM_CH_STATUS | HBM_CH_REPAIR | HBM_CH_CNT_CE | HBM_CH_CNT_UE | HBM_CH_CNT_DROP | HBM_CH_BW | MTX_CTRL
  | MTX_FSTATE | MTX_WATCHDOG | MTX_POOL | MTX_STATUS | MTX_ALARM | MTX_ALARM_EN | MTX_LOG_STATUS | MTX_LOG_POP
  | MTX_CNT_DECODE | MTX_CNT_TIMEOUT | MTX_CNT_LOG_DROP | MTX_CNT_CLEAR | MTX_LOG_E | MTX_SQ_SEL | MTX_SQ_STATE
  | MTX_P_STATUS | MTX_P_HELD | MTX_P_CNT_RD | MTX_P_CNT_WR | MTX_P_CNT_POOL_WAIT | MTX_P_PRIO | TWIN_CTRL
  | TWIN_FSTATE | TWIN_STATUS | TWIN_PECK | TWIN_TIMING | TWIN_ADMIT | TWIN_ADMIT_COUNT | TWIN_SIG_CTRL
  | TWIN_FAR_INFO | TWIN_CFG_GEN | TWIN_COMPAT | TWIN_COMMIT_CNT | TWIN_SWAP_FRAME_LO | TWIN_SWAP_FRAME_HI
  | TWIN_LVDS_STATUS | TWIN_ALARM | TWIN_ALARM_EN | TWIN_CNT_FAILOVER | TWIN_CNT_SWAP | TWIN_CNT_LANE_MISS
  | TWIN_CNT_LVDS_MISS | TWIN_CNT_SIG_MISMATCH | TWIN_CNT_DECISION_LOCAL | TWIN_CNT_DECISION_DIFFER
  | TWIN_CNT_COMMIT_LATE | TWIN_CNT_RESYNC | TWIN_CNT_CLEAR | TWIN_SIG | TWIN_SIG_FAR | GLB_ID | GLB_DIE_ID_LO
  | GLB_DIE_ID_HI | GLB_FW_VERSION | GLB_STATUS | GLB_HEARTBEAT | GLB_SCRATCH | GLB_IRQ_STATUS | GLB_IRQ_PIN_EN
  | GLB_IRQ_MSI_EN | GLB_IRQ_EOI | GLB_FAULT_STATUS | GLB_ALARM | GLB_ALARM_EN | GLB_IRQ_MAP | GLB_AFL_STATUS
  | GLB_AFL_POP | GLB_AFL_E | GLB_CNT_AFL | GLB_CNT_AFL_DROP | GLB_CNT_CLEAR | GLB_SUM | CMD_CTRL | CMD_STATUS
  | CMD_ALARM | CMD_ALARM_EN | CMD_CNT_RX | CMD_CNT_REJECTED | CMD_CNT_AUTH_FAIL | CMD_CNT_REPLAY | CMD_CNT_DUP
  | CMD_CNT_DROP_CPL | CMD_COMMIT_LAT_MAX | CMD_CNT_CLEAR | CMD_RING_CTRL | CMD_RING_FSTATE | CMD_RING_SQ_BASE_LO
  | CMD_RING_SQ_BASE_HI | CMD_RING_CQ_BASE_LO | CMD_RING_CQ_BASE_HI | CMD_RING_SQ_HEAD | CMD_RING_CQ_TAIL
  | CMD_RING_COAL | CMD_RING_CNT_CMD | CMD_RING_CNT_CPL | CMD_SESS_STATE | CMD_SESS_ID | CMD_SESS_PEER_PORT
  | CMD_SESS_PEER_ADDR | CMD_SESS_IDLE_MS | CMD_SESS_CNT_CMD | BOOT_STATUS | BOOT_FSTATE | BOOT_START_MS
  | BOOT_RESET_CAUSE | BOOT_SLOT_A_VER | BOOT_SLOT_B_VER | BOOT_RECOVERY_VER | BOOT_SECVER | BOOT_KEYS
  | BOOT_FORMATS | BOOT_CFG_INFO | BOOT_UPD_STATE | BOOT_UPD_LEN | BOOT_UPD_RECEIVED | BOOT_UPD_IMAGE_ID
  | BOOT_UPD_FAIL | BOOT_UPD_TIME_LO | BOOT_UPD_TIME_HI | BOOT_TRICKLE_CTRL | BOOT_TRICKLE_COUNT
  | BOOT_TRICKLE_TOTAL | BOOT_MRAM_STATUS | BOOT_MRAM_RATE | BOOT_MRAM_WEAR | BOOT_ALARM | BOOT_ALARM_EN
  | BOOT_CNT_PIECE_OK | BOOT_CNT_PIECE_BAD | BOOT_CNT_PIECE_DUP | BOOT_CNT_PIECE_OTHER | BOOT_CNT_FLASH_ERR
  | BOOT_CNT_RESTORE_DROP | BOOT_CNT_MRAM_CRC | BOOT_CNT_CLEAR | PWR_CTRL | PWR_FSTATE | PWR_STATUS | PWR_ALARM
  | PWR_ALARM_EN | PWR_AVS_WINDOW | PWR_AVS_STATUS | PWR_VCORE | PWR_WDOG | PWR_REPLACE | PWR_REPLACE_FIRST
  | PWR_THERM_CTRL | PWR_TEMP_MAX | PWR_TOTAL | PWR_LIMIT | PWR_EN_STATUS | PWR_DEBUG | PWR_TELEM_CTRL
  | PWR_TELEM_SEQ | PWR_CNT_SHED | PWR_CNT_OVERRIDE | PWR_CNT_PMBUS_ERR | PWR_CNT_WDOG | PWR_CNT_UV_RESET
  | PWR_CNT_CLEAR | PWR_PMBUS_DEV | PWR_RAIL_V | PWR_RAIL_P | PWR_RAIL_STATUS | PWR_TELEM_W | XPT_VIDEO
  | XPT_ROUTES | XPT_HOLD | XPT_LANDED | SURF_STATE | SURF_REFS | SURF_SIZE | PAT_KIND | PAT_Y | PAT_C
  | LUT3D_STATE | LUT3D_REFS | LUT3D_LOADED | PRC_VIEW | GLYPH_ID | GLYPH_WIDTH | FONT_HDR | FONT_DEFAULT_CP
  | FONT_GLYPHS | FADDR_IP | FADDR_UDP | FADDR_MAC_LO | FADDR_MAC_HI | AOUT_ROUTE | AOUT_GAIN | AIN_BIND
  | AIN_STATE | AOUT_METER | ATX_DESC | ATX_FIRST | ARX_DESC
  deriving DecidableEq, Repr

/-- A register word: its kind and its indices (instance first; unused indices are 0). -/
structure Reg where
  kind : RK
  i : Nat := 0
  j : Nat := 0
  k : Nat := 0
  deriving DecidableEq, Repr

/-- A field of a register word: its lowest bit and its width. -/
structure Field where
  reg : Reg
  lo : Nat
  width : Nat
  deriving DecidableEq, Repr

/-- What the register tables say of a kind of word. `impl`: the bits that read (R8: the others read as 0);
`rw`: bits a host write sets; `fw`: bits firmware writes and a host write drops (R449); `w1c`, `w1s`, `wo`: R6;
`off`: bits written only while the function is OFF; `view`: the word is computed when it is read. -/
structure RegInfo where
  base : Nat
  dims : List (Nat × Nat)
  reset : Nat
  impl : Nat
  rw : Nat := 0
  fw : Nat := 0
  w1c : Nat := 0
  w1s : Nat := 0
  wo : Nat := 0
  off : Nat := 0
  view : Bool := false
  deriving DecidableEq, Repr

/-- The register tables of spec/, one row per kind of word. -/
def regInfo : RK → RegInfo
  | .TIME_SNAP => { base := 0x40000, dims := [], reset := 0x0, impl := 0x0, wo := 0x1 }
  | .TIME_STATUS => { base := 0x40004, dims := [], reset := 0x0, impl := 0x7 }
  | .TIME_UTC => { base := 0x40008, dims := [], reset := 0x0, impl := 0x3FFFF, rw := 0x3FFFF }
  | .TIME_SNAP_FRAC => { base := 0x40010, dims := [(5, 0x10)], reset := 0x0, impl := 0xF }
  | .TIME_SNAP_NS => { base := 0x40014, dims := [(5, 0x10)], reset := 0x0, impl := 0x3FFFFFFF }
  | .TIME_SNAP_SEC_LO => { base := 0x40018, dims := [(5, 0x10)], reset := 0x0, impl := 0xFFFFFFFF }
  | .TIME_SNAP_SEC_HI => { base := 0x4001C, dims := [(5, 0x10)], reset := 0x0, impl := 0xFFFF }
  | .TIME_IRQ_STATUS => { base := 0x40080, dims := [], reset := 0x0, impl := 0x1FF, w1c := 0x1FF }
  | .TIME_IRQ_ENABLE => { base := 0x40084, dims := [], reset := 0x0, impl := 0x1FF, rw := 0x1FF }
  | .TB_CTRL => { base := 0x41000, dims := [(4, 0x400)], reset := 0x7F00, impl := 0x1FF0D, rw := 0x1FF0D }
  | .TB_FSTATE => { base := 0x41004, dims := [(4, 0x400)], reset := 0x0, impl := 0xFF0C0387 }
  | .TB_LOCK => { base := 0x41008, dims := [(4, 0x400)], reset := 0x0, impl := 0x1 }
  | .TB_OFFSET => { base := 0x4100C, dims := [(4, 0x400)], reset := 0x0, impl := 0xFFFFFFFF }
  | .TB_FREQ_ADJ => { base := 0x41010, dims := [(4, 0x400)], reset := 0x0, impl := 0xFFFFFFFF, rw := 0xFFFFFFFF }
  | .TB_ADJ_VALUE => { base := 0x41014, dims := [(4, 0x400)], reset := 0x0, impl := 0xFFFFFFFF, rw := 0xFFFFFFFF }
  | .TB_ADJ_CMD => { base := 0x41018, dims := [(4, 0x400)], reset := 0x0, impl := 0x0, wo := 0x3 }
  | .TB_SLEW => { base := 0x4101C, dims := [(4, 0x400)], reset := 0x3E8, impl := 0xFFFF, rw := 0xFFFF }
  | .TB_SET_SEC_HI => { base := 0x41020, dims := [(4, 0x400)], reset := 0x0, impl := 0xFFFF, rw := 0xFFFF }
  | .TB_SET_SEC_LO => { base := 0x41024, dims := [(4, 0x400)], reset := 0x0, impl := 0xFFFFFFFF, rw := 0xFFFFFFFF }
  | .TB_SET_NS => { base := 0x41028, dims := [(4, 0x400)], reset := 0x0, impl := 0x3FFFFFFF, rw := 0x3FFFFFFF }
  | .TB_SET_CMD => { base := 0x4102C, dims := [(4, 0x400)], reset := 0x0, impl := 0x0, wo := 0x1 }
  | .TB_ADJ_STATUS => { base := 0x41030, dims := [(4, 0x400)], reset := 0x0, impl := 0x1 }
  | .DPLL_CTRL => { base := 0x42000, dims := [], reset := 0x20, impl := 0xF27, rw := 0xF27 }
  | .DPLL_FSTATE => { base := 0x42004, dims := [], reset := 0x0, impl := 0xFF0C0387 }
  | .DPLL_STATE => { base := 0x42008, dims := [], reset := 0x0, impl := 0x7F0FF307 }
  | .DPLL_BW => { base := 0x4200C, dims := [], reset := 0x604, impl := 0xF0F, rw := 0xF0F }
  | .DPLL_SLEW => { base := 0x42010, dims := [], reset := 0x64, impl := 0xFFFF, rw := 0xFFFF }
  | .DPLL_HOLDOVER => { base := 0x42014, dims := [], reset := 0x258003C, impl := 0xFFFF0FFF, rw := 0xFFFF0FFF }
  | .DPLL_REALIGN => { base := 0x42018, dims := [], reset := 0x0, impl := 0x0, wo := 0x1 }
  | .DPLL_REALIGN_STATUS => { base := 0x4201C, dims := [], reset := 0x0, impl := 0x3 }
  | .DPLL_BUILDOUT => { base := 0x42020, dims := [], reset := 0x0, impl := 0xFFFFFFFF }
  | .DPLL_CW => { base := 0x42024, dims := [], reset := 0x0, impl := 0xFFFFFFFF }
  | .DPLL_HO_VALUE => { base := 0x42028, dims := [], reset := 0x0, impl := 0xFFFFFFFF }
  | .DPLL_HO_SPAN => { base := 0x4202C, dims := [], reset := 0x0, impl := 0xFFFF }
  | .REF_CTRL => { base := 0x43000, dims := [(16, 0x40)], reset := 0xF00, impl := 0x7F3F03, rw := 0x7F3F03 }
  | .REF_STATE => { base := 0x43004, dims := [(16, 0x40)], reset := 0x0, impl := 0xF007 }
  | .REF_WTR => { base := 0x43008, dims := [(16, 0x40)], reset := 0x12C, impl := 0xFFF, rw := 0xFFF }
  | .REF_WTR_LEFT => { base := 0x4300C, dims := [(16, 0x40)], reset := 0x0, impl := 0xFFF }
  | .REF_DRIFT => { base := 0x43010, dims := [(16, 0x40)], reset := 0x6400C8, impl := 0xFFFFFFFF, rw := 0xFFFFFFFF }
  | .REF_FREQ => { base := 0x43014, dims := [(16, 0x40)], reset := 0x0, impl := 0xFFFFFFFF }
  | .REF_DRIFT_MEAN => { base := 0x43018, dims := [(16, 0x40)], reset := 0x0, impl := 0xFFFFFFFF }
  | .REF_ANA_FMT => { base := 0x4301C, dims := [(16, 0x40)], reset := 0x0, impl := 0xFF, rw := 0xFF }
  | .OTG_CTRL => { base := 0x44000, dims := [(32, 0x40)], reset := 0x0, impl := 0x7FF1, rw := 0x7FF1 }
  | .OTG_FSTATE => { base := 0x44004, dims := [(32, 0x40)], reset := 0x0, impl := 0xFF0C0387 }
  | .OTG_OFFSET => { base := 0x44008, dims := [(32, 0x40)], reset := 0x0, impl := 0xFFFFFFFF, rw := 0xFFFFFFFF }
  | .OTG_STATUS => { base := 0x4400C, dims := [(32, 0x40)], reset := 0x0, impl := 0x7FF07 }
  | .OTG_FRAME_LO => { base := 0x44010, dims := [(32, 0x40)], reset := 0x0, impl := 0xFFFFFFFF }
  | .OTG_FRAME_HI => { base := 0x44014, dims := [(32, 0x40)], reset := 0x0, impl := 0xFFFFFFFF }
  | .OTG_LAST_ADJ => { base := 0x44018, dims := [(32, 0x40)], reset := 0x0, impl := 0xFFFFFFFF }
  | .PPS_OUT_CTRL => { base := 0x45000, dims := [], reset := 0x27100000, impl := 0xFFFF0073, rw := 0xFFFF0073 }
  | .FRAME_OUT_CTRL => { base := 0x45010, dims := [(8, 0x4)], reset := 0x640000, impl := 0xFFFF1F33, rw := 0xFFFF1F33 }
  | .WCLK_OUT_CTRL => { base := 0x45040, dims := [(4, 0x4)], reset := 0x0, impl := 0x733, rw := 0x733 }
  | .EVT_CTRL => { base := 0x46000, dims := [(64, 0x20)], reset := 0x0, impl := 0xFF070F01, rw := 0xFF070F00, w1s := 0x1, wo := 0x2 }
  | .EVT_SEC_HI => { base := 0x46004, dims := [(64, 0x20)], reset := 0x0, impl := 0xFFFF, rw := 0xFFFF }
  | .EVT_SEC_LO => { base := 0x46008, dims := [(64, 0x20)], reset := 0x0, impl := 0xFFFFFFFF, rw := 0xFFFFFFFF }
  | .EVT_NS => { base := 0x4600C, dims := [(64, 0x20)], reset := 0x0, impl := 0x3FFFFFFF, rw := 0x3FFFFFFF }
  | .EVT_STATUS => { base := 0x46010, dims := [(64, 0x20)], reset := 0x0, impl := 0x7 }
  | .PORT_PTP_CTRL => { base := 0x48000, dims := [(97, 0x10)], reset := 0x0, impl := 0x7, rw := 0x7 }
  | .PORT_RX_LAT => { base := 0x48004, dims := [(97, 0x10)], reset := 0x0, impl := 0xFFFFFF, rw := 0xFFFFFF }
  | .PORT_TX_LAT => { base := 0x48008, dims := [(97, 0x10)], reset := 0x0, impl := 0xFFFFFF, rw := 0xFFFFFF }
  | .PORT_ASYM => { base := 0x4800C, dims := [(97, 0x10)], reset := 0x0, impl := 0xFFFFFFFF, rw := 0xFFFFFFFF }
  | .SRC_CTRL => { base := 0x800000, dims := [(1024, 0x400)], reset := 0x80030000, impl := 0xFF1F0E3D, fw := 0xFF1F0E3D, off := 0x1F0000 }
  | .SRC_FSTATE => { base := 0x800004, dims := [(1024, 0x400)], reset := 0x0, impl := 0xFF0C0387 }
  | .SRC_INPUT => { base := 0x800008, dims := [(1024, 0x400)], reset := 0x0, impl := 0x1FFF, fw := 0x1FFF }
  | .SRC_FMT => { base := 0x80000C, dims := [(1024, 0x400)], reset := 0x1006959, impl := 0x3FFFFFF, fw := 0x3FFFFFF, off := 0xFF00 }
  | .SRC_FMT_DET => { base := 0x800010, dims := [(1024, 0x400)], reset := 0x0, impl := 0x83FF0FFF }
  | .SRC_GUARD => { base := 0x800014, dims := [(1024, 0x400)], reset := 0xC8, impl := 0x3FFF, fw := 0x3FFF }
  | .SRC_TS => { base := 0x800018, dims := [(1024, 0x400)], reset := 0x0, impl := 0x17, fw := 0x17 }
  | .SRC_STATUS => { base := 0x80001C, dims := [(1024, 0x400)], reset := 0x0, impl := 0x1FF }
  | .SRC_ALARM => { base := 0x800020, dims := [(1024, 0x400)], reset := 0x0, impl := 0x7FFF, w1c := 0x7FFF }
  | .SRC_ALARM_EN => { base := 0x800024, dims := [(1024, 0x400)], reset := 0x0, impl := 0x7FFF, rw := 0x7FFF }
  | .SRC_PHASE => { base := 0x800028, dims := [(1024, 0x400)], reset := 0x0, impl := 0xFFFFFFFF }
  | .SRC_ARRIVAL_LAT => { base := 0x80002C, dims := [(1024, 0x400)], reset := 0x0, impl := 0xFFFFFFFF }
  | .SRC_SEQ => { base := 0x800030, dims := [(1024, 0x400)], reset := 0x0, impl := 0xFFFFFFFF }
  | .SRC_HOG_BASE_LO => { base := 0x800034, dims := [(1024, 0x400)], reset := 0x0, impl := 0xFFFFFFFF }
  | .SRC_HOG_BASE_HI => { base := 0x800038, dims := [(1024, 0x400)], reset := 0x0, impl := 0xFFFFFFFF }
  | .SRC_HOG_SIZE => { base := 0x80003C, dims := [(1024, 0x400)], reset := 0x0, impl := 0xFFFFFFFF }
  | .SRC_MON_CTRL => { base := 0x800040, dims := [(1024, 0x400)], reset := 0x19320140, impl := 0xFFFF0FFF, rw := 0xFFFF0FFF }
  | .SRC_DIGEST => { base := 0x800044, dims := [(1024, 0x400)], reset := 0x0, impl := 0xFFFFFFFF }
  | .SRC_COMPACT_RATIO => { base := 0x800048, dims := [(1024, 0x400)], reset := 0x400, impl := 0x7FF }
  | .SRC_CNT_FRAMES => { base := 0x800050, dims := [(1024, 0x400)], reset := 0x0, impl := 0xFFFFFFFF }
  | .SRC_CNT_SKIPPED => { base := 0x800054, dims := [(1024, 0x400)], reset := 0x0, impl := 0xFFFFFFFF }
  | .SRC_CNT_ABANDONED => { base := 0x800058, dims := [(1024, 0x400)], reset := 0x0, impl := 0xFFFFFFFF }
  | .SRC_CNT_LATE => { base := 0x80005C, dims := [(1024, 0x400)], reset := 0x0, impl := 0xFFFFFFFF }
  | .SRC_CNT_CONCEAL => { base := 0x800060, dims := [(1024, 0x400)], reset := 0x0, impl := 0xFFFFFFFF }
  | .SRC_CNT_UE => { base := 0x800064, dims := [(1024, 0x400)], reset := 0x0, impl := 0xFFFFFFFF }
  | .SRC_CNT_OVERTAKE => { base := 0x800068, dims := [(1024, 0x400)], reset := 0x0, impl := 0xFFFFFFFF }
  | .SRC_CNT_ANC_DROP => { base := 0x80006C, dims := [(1024, 0x400)], reset := 0x0, impl := 0xFFFFFFFF }
  | .SRC_CNT_LOCAL => { base := 0x800070, dims := [(1024, 0x400)], reset := 0x0, impl := 0xFFFFFFFF }
  | .SRC_CNT_DIGEST_MISMATCH => { base := 0x800074, dims := [(1024, 0x400)], reset := 0x0, impl := 0xFFFFFFFF }
  | .SRC_CNT_RAW_TILES => { base := 0x800078, dims := [(1024, 0x400)], reset := 0x0, impl := 0xFFFFFFFF }
  | .SRC_CNT_CLEAR => { base := 0x80007C, dims := [(1024, 0x400)], reset := 0x0, impl := 0x0, wo := 0x1 }
  | .DST_CTRL => { base := 0x900000, dims := [(1024, 0x400)], reset := 0x1100000, impl := 0xF3F6FFD, fw := 0xF3F6FFD, off := 0x2000 }
  | .DST_FSTATE => { base := 0x900004, dims := [(1024, 0x400)], reset := 0x0, impl := 0xFF0C0387 }
  | .DST_OUTPUT => { base := 0x900008, dims := [(1024, 0x400)], reset := 0x0, impl := 0x1FFF, fw := 0x1FFF }
  | .DST_TAKE => { base := 0x90000C, dims := [(1024, 0x400)], reset := 0xFFF, impl := 0x10FFF, fw := 0x10FFF }
  | .DST_BREAK => { base := 0x900010, dims := [(1024, 0x400)], reset := 0x3FFF0FFF, impl := 0x3FFF0FFF, fw := 0x3FFF0FFF }
  | .DST_CUR_VIDEO => { base := 0x900014, dims := [(1024, 0x400)], reset := 0xFFF, impl := 0x10FFF }
  | .DST_CUR_BREAK => { base := 0x900018, dims := [(1024, 0x400)], reset := 0x3FFF0FFF, impl := 0x3FFF0FFF }
  | .DST_LANDED_LO => { base := 0x90001C, dims := [(1024, 0x400)], reset := 0x0, impl := 0xFFFFFFFF }
  | .DST_LANDED_HI => { base := 0x900020, dims := [(1024, 0x400)], reset := 0x0, impl := 0xFFFFFFFF }
  | .DST_HOLD => { base := 0x900024, dims := [(1024, 0x400)], reset := 0x0, impl := 0x3FFFF }
  | .DST_FILL_Y => { base := 0x900028, dims := [(1024, 0x400)], reset := 0x100, impl := 0xFFF, fw := 0xFFF }
  | .DST_FILL_C => { base := 0x90002C, dims := [(1024, 0x400)], reset := 0x800800, impl := 0xFFFFFF, fw := 0xFFFFFF }
  | .DST_OPQ => { base := 0x900030, dims := [(1024, 0x400)], reset := 0x3E8, impl := 0x3FFF, fw := 0x3FFF }
  | .DST_OVL_CTRL => { base := 0x900040, dims := [(1024, 0x400), (2, 0x10)], reset := 0xFF0FFF, impl := 0x3FF0FFF, fw := 0x3FF0FFF }
  | .DST_OVL_POS => { base := 0x900044, dims := [(1024, 0x400), (2, 0x10)], reset := 0x0, impl := 0xFFFFFFFF, fw := 0xFFFFFFFF }
  | .DST_CUR_OVL_CTRL => { base := 0x900048, dims := [(1024, 0x400), (2, 0x10)], reset := 0xFF0FFF, impl := 0x3FF0FFF }
  | .DST_CUR_OVL_POS => { base := 0x90004C, dims := [(1024, 0x400), (2, 0x10)], reset := 0x0, impl := 0xFFFFFFFF }
  | .DST_STATUS => { base := 0x900060, dims := [(1024, 0x400)], reset := 0x0, impl := 0xF7 }
  | .DST_ALARM => { base := 0x900064, dims := [(1024, 0x400)], reset := 0x0, impl := 0x1FFF, w1c := 0x1FFF }
  | .DST_ALARM_EN => { base := 0x900068, dims := [(1024, 0x400)], reset := 0x0, impl := 0x1FFF, rw := 0x1FFF }
  | .DST_SHOWN_SEQ => { base := 0x90006C, dims := [(1024, 0x400)], reset := 0x0, impl := 0xFFFFFFFF }
  | .DST_CNT_TAKES => { base := 0x900070, dims := [(1024, 0x400)], reset := 0x0, impl := 0xFFFFFFFF }
  | .DST_CNT_SUPERSEDED => { base := 0x900074, dims := [(1024, 0x400)], reset := 0x0, impl := 0xFFFFFFFF }
  | .DST_CNT_NOT_READY => { base := 0x900078, dims := [(1024, 0x400)], reset := 0x0, impl := 0xFFFFFFFF }
  | .DST_CNT_UNDERRUN => { base := 0x90007C, dims := [(1024, 0x400)], reset := 0x0, impl := 0xFFFFFFFF }
  | .DST_CNT_REPEAT => { base := 0x900080, dims := [(1024, 0x400)], reset := 0x0, impl := 0xFFFFFFFF }
  | .DST_CNT_DROP => { base := 0x900084, dims := [(1024, 0x400)], reset := 0x0, impl := 0xFFFFFFFF }
  | .DST_CNT_UE => { base := 0x900088, dims := [(1024, 0x400)], reset := 0x0, impl := 0xFFFFFFFF }
  | .DST_CNT_OPQ_GAP => { base := 0x90008C, dims := [(1024, 0x400)], reset := 0x0, impl := 0xFFFFFFFF }
  | .DST_CNT_CLEAR => { base := 0x900090, dims := [(1024, 0x400)], reset := 0x0, impl := 0x0, wo := 0x1 }
  | .PRC_CTRL => { base := 0xA00000, dims := [(512, 0x800)], reset := 0x0, impl := 0x3FF3B11, rw := 0x1, fw := 0x3FF3B10 }
  | .PRC_FSTATE => { base := 0xA00004, dims := [(512, 0x800)], reset := 0x0, impl := 0xFF0C0387 }
  | .PRC_INPUT => { base := 0xA00008, dims := [(512, 0x800)], reset := 0xFFF, impl := 0x1F0FFF, fw := 0x1F0FFF }
  | .PRC_OUT_FMT => { base := 0xA0000C, dims := [(512, 0x800)], reset := 0x110059, impl := 0xFF30FFF, fw := 0xFF30FFF }
  | .PRC_OUT => { base := 0xA00010, dims := [(512, 0x800)], reset := 0x80000003, impl := 0xF13FFF1F, fw := 0xF13FFF1F }
  | .PRC_FUNC => { base := 0xA00014, dims := [(512, 0x800)], reset := 0x0, impl := 0x3F01FF, fw := 0x3F01FF }
  | .PRC_CROP_X => { base := 0xA00018, dims := [(512, 0x800)], reset := 0x0, impl := 0xFFFFFFFF, fw := 0xFFFFFFFF }
  | .PRC_CROP_Y => { base := 0xA0001C, dims := [(512, 0x800)], reset := 0x0, impl := 0xFFFFFFFF, fw := 0xFFFFFFFF }
  | .PRC_SCALE => { base := 0xA00020, dims := [(512, 0x800)], reset := 0x804, impl := 0x31F0F, fw := 0x31F0F }
  | .PRC_FRC => { base := 0xA00024, dims := [(512, 0x800)], reset := 0x2, impl := 0xF, fw := 0xF }
  | .PRC_DEINT => { base := 0xA00028, dims := [(512, 0x800)], reset := 0x40020, impl := 0xF0FFF, fw := 0xF0FFF }
  | .PRC_STATUS => { base := 0xA00030, dims := [(512, 0x800)], reset := 0x0, impl := 0xFF }
  | .PRC_ALARM => { base := 0xA00034, dims := [(512, 0x800)], reset := 0x0, impl := 0x1FF, w1c := 0x1FF }
  | .PRC_ALARM_EN => { base := 0xA00038, dims := [(512, 0x800)], reset := 0x0, impl := 0x1FF, rw := 0x1FF }
  | .PRC_ELLS => { base := 0xA0003C, dims := [(512, 0x800)], reset := 0x0, impl := 0xF7F007F }
  | .PRC_LOAD => { base := 0xA00040, dims := [(512, 0x800)], reset := 0x0, impl := 0x3FFFF }
  | .PRC_ENG => { base := 0xA00044, dims := [(512, 0x800)], reset := 0x60, impl := 0xF007F }
  | .PRC_SEQ => { base := 0xA00048, dims := [(512, 0x800)], reset := 0x0, impl := 0xFFFFFFFF }
  | .PRC_CNT_FRAMES => { base := 0xA00050, dims := [(512, 0x800)], reset := 0x0, impl := 0xFFFFFFFF }
  | .PRC_CNT_LATE => { base := 0xA00054, dims := [(512, 0x800)], reset := 0x0, impl := 0xFFFFFFFF }
  | .PRC_CNT_NO_FRAME => { base := 0xA00058, dims := [(512, 0x800)], reset := 0x0, impl := 0xFFFFFFFF }
  | .PRC_CNT_UE => { base := 0xA0005C, dims := [(512, 0x800)], reset := 0x0, impl := 0xFFFFFFFF }
  | .PRC_CNT_REDUCED => { base := 0xA00060, dims := [(512, 0x800)], reset := 0x0, impl := 0xFFFFFFFF }
  | .PRC_CNT_CLEAR => { base := 0xA00064, dims := [(512, 0x800)], reset := 0x0, impl := 0x0, wo := 0x1 }
  | .PRC_MTX_COEF => { base := 0xA00100, dims := [(512, 0x800), (2, 0x40), (9, 0x4)], reset := 0x0, impl := 0x3FFFF, fw := 0x3FFFF }
  | .PRC_MTX_PRE => { base := 0xA00124, dims := [(512, 0x800), (2, 0x40), (3, 0x4)], reset := 0x0, impl := 0x3FFFF, fw := 0x3FFFF }
  | .PRC_MTX_POST => { base := 0xA00130, dims := [(512, 0x800), (2, 0x40), (3, 0x4)], reset := 0x0, impl := 0x3FFFF, fw := 0x3FFFF }
  | .MVH_CTRL => { base := 0xB00000, dims := [(32, 0x4000)], reset := 0x0, impl := 0x3FF11F1, rw := 0x1, fw := 0x3FF11F0 }
  | .MVH_FSTATE => { base := 0xB00004, dims := [(32, 0x4000)], reset := 0x0, impl := 0xFF0C0387 }
  | .MVH_OUT => { base := 0xB00008, dims := [(32, 0x4000)], reset := 0x81000003, impl := 0xFFBFFF1F, fw := 0xFFBFFF1F }
  | .MVH_BG_Y => { base := 0xB0000C, dims := [(32, 0x4000)], reset := 0x100, impl := 0xFFF, fw := 0xFFF }
  | .MVH_BG_C => { base := 0xB00010, dims := [(32, 0x4000)], reset := 0x800800, impl := 0xFFFFFF, fw := 0xFFFFFF }
  | .MVH_MON => { base := 0xB00014, dims := [(32, 0x4000)], reset := 0x105140, impl := 0xFFFFFFF, fw := 0xFFFFFFF }
  | .MVH_METER => { base := 0xB00018, dims := [(32, 0x4000)], reset := 0x240C, impl := 0xFFFF, fw := 0xFFFF }
  | .MVH_TILES => { base := 0xB0001C, dims := [(32, 0x4000)], reset := 0x0, impl := 0x7FF }
  | .MVH_LOAD => { base := 0xB00020, dims := [(32, 0x4000)], reset := 0x0, impl := 0xFFFF }
  | .MVH_STATUS => { base := 0xB00024, dims := [(32, 0x4000)], reset := 0x0, impl := 0x1F }
  | .MVH_ALARM => { base := 0xB00028, dims := [(32, 0x4000)], reset := 0x0, impl := 0x7F, w1c := 0x7F }
  | .MVH_ALARM_EN => { base := 0xB0002C, dims := [(32, 0x4000)], reset := 0x0, impl := 0x7F, rw := 0x7F }
  | .MVH_SEQ => { base := 0xB00030, dims := [(32, 0x4000)], reset := 0x0, impl := 0xFFFFFFFF }
  | .MVH_CNT_FRAMES => { base := 0xB00040, dims := [(32, 0x4000)], reset := 0x0, impl := 0xFFFFFFFF }
  | .MVH_CNT_LATE => { base := 0xB00044, dims := [(32, 0x4000)], reset := 0x0, impl := 0xFFFFFFFF }
  | .MVH_CNT_TILE_LATE => { base := 0xB00048, dims := [(32, 0x4000)], reset := 0x0, impl := 0xFFFFFFFF }
  | .MVH_CNT_TILE_NOT_READY => { base := 0xB0004C, dims := [(32, 0x4000)], reset := 0x0, impl := 0xFFFFFFFF }
  | .MVH_CNT_UE => { base := 0xB00050, dims := [(32, 0x4000)], reset := 0x0, impl := 0xFFFFFFFF }
  | .MVH_CNT_SCRUPLE_MISMATCH => { base := 0xB00054, dims := [(32, 0x4000)], reset := 0x0, impl := 0xFFFFFFFF }
  | .MVH_CNT_CLEAR => { base := 0xB00058, dims := [(32, 0x4000)], reset := 0x0, impl := 0x0, wo := 0x1 }
  | .MVH_T_SRC => { base := 0xB00400, dims := [(32, 0x4000), (64, 0x40)], reset := 0xFFF, impl := 0x90000FFF, fw := 0x90000FFF }
  | .MVH_T_RECT_X => { base := 0xB00404, dims := [(32, 0x4000), (64, 0x40)], reset := 0x0, impl := 0xFFFFFFFF, fw := 0xFFFFFFFF }
  | .MVH_T_RECT_Y => { base := 0xB00408, dims := [(32, 0x4000), (64, 0x40)], reset := 0x0, impl := 0xFFFFFFFF, fw := 0xFFFFFFFF }
  | .MVH_T_DECO => { base := 0xB0040C, dims := [(32, 0x4000), (64, 0x40)], reset := 0x10F00100, impl := 0xF3F33778, fw := 0xF3F33778 }
  | .MVH_T_METER => { base := 0xB00410, dims := [(32, 0x4000), (64, 0x40)], reset := 0x0, impl := 0x1FFFFF, fw := 0x1FFFFF }
  | .MVH_T_STATUS => { base := 0xB00414, dims := [(32, 0x4000), (64, 0x40)], reset := 0x0, impl := 0x1F }
  | .MVH_T_SHOWN_SEQ => { base := 0xB00418, dims := [(32, 0x4000), (64, 0x40)], reset := 0x0, impl := 0xFFFFFFFF }
  | .MVH_T_TEXT => { base := 0xB00420, dims := [(32, 0x4000), (64, 0x40), (8, 0x4)], reset := 0x0, impl := 0xFFFFFFFF }
  | .MVH_GR_CTRL => { base := 0xB01400, dims := [(32, 0x4000), (16, 0x20)], reset := 0x0, impl := 0x3, fw := 0x3 }
  | .MVH_GR_X => { base := 0xB01404, dims := [(32, 0x4000), (16, 0x20)], reset := 0x0, impl := 0xFFFFFFFF, fw := 0xFFFFFFFF }
  | .MVH_GR_Y => { base := 0xB01408, dims := [(32, 0x4000), (16, 0x20)], reset := 0x0, impl := 0xFFFFFFFF, fw := 0xFFFFFFFF }
  | .MVH_GR_EXPECT => { base := 0xB0140C, dims := [(32, 0x4000), (16, 0x20)], reset := 0x0, impl := 0xFFFFFFFF, fw := 0xFFFFFFFF }
  | .MVH_GR_PRED => { base := 0xB01410, dims := [(32, 0x4000), (16, 0x20)], reset := 0x0, impl := 0xFFFFFFFF }
  | .MVH_GR_MEAS => { base := 0xB01414, dims := [(32, 0x4000), (16, 0x20)], reset := 0x0, impl := 0xFFFFFFFF }
  | .MVH_GR_STATUS => { base := 0xB01418, dims := [(32, 0x4000), (16, 0x20)], reset := 0x0, impl := 0x3FF0007 }
  | .MVH_GR_CNT => { base := 0xB0141C, dims := [(32, 0x4000), (16, 0x20)], reset := 0x0, impl := 0xFFFFFFFF }
  | .MVH_CLK_CTRL => { base := 0xB01600, dims := [(32, 0x4000), (4, 0x10)], reset := 0x0, impl := 0x370031, fw := 0x370031 }
  | .MVH_CLK_POS => { base := 0xB01604, dims := [(32, 0x4000), (4, 0x10)], reset := 0x0, impl := 0xFFFFFFFF, fw := 0xFFFFFFFF }
  | .MVH_CLK_OFFSET => { base := 0xB01608, dims := [(32, 0x4000), (4, 0x10)], reset := 0x0, impl := 0xFFFF, fw := 0xFFFF }
  | .MVH_PAL_Y => { base := 0xB01700, dims := [(32, 0x4000), (8, 0x8)], reset := 0x0, impl := 0xFFF, fw := 0xFFF }
  | .MVH_PAL_C => { base := 0xB01704, dims := [(32, 0x4000), (8, 0x8)], reset := 0x0, impl := 0xFFFFFF, fw := 0xFFFFFF }
  | .DMON_CTRL => { base := 0xB80000, dims := [(1024, 0x20)], reset := 0x19320000, impl := 0xFFFF0000, rw := 0xFFFF0000 }
  | .DMON_THRESH => { base := 0xB80004, dims := [(1024, 0x20)], reset := 0x100140, impl := 0xFFF0FFF, rw := 0xFFF0FFF }
  | .DMON_DIGEST => { base := 0xB80008, dims := [(1024, 0x20)], reset := 0x0, impl := 0xFFFFFFFF }
  | .DMON_LUMA => { base := 0xB8000C, dims := [(1024, 0x20)], reset := 0x0, impl := 0xFFFFFF }
  | .DMON_STATUS => { base := 0xB80010, dims := [(1024, 0x20)], reset := 0x0, impl := 0x70F }
  | .DMON_ALARM => { base := 0xB80014, dims := [(1024, 0x20)], reset := 0x0, impl := 0xF, w1c := 0xF }
  | .DMON_ALARM_EN => { base := 0xB80018, dims := [(1024, 0x20)], reset := 0x0, impl := 0xF, rw := 0xF }
  | .DMON_SEQ => { base := 0xB8001C, dims := [(1024, 0x20)], reset := 0x0, impl := 0xFFFFFFFF }
  | .AUD_CTRL => { base := 0xC00000, dims := [], reset := 0xA0000, impl := 0x7F0011, rw := 0x7F0011, off := 0x10 }
  | .AUD_FSTATE => { base := 0xC00004, dims := [], reset := 0x0, impl := 0xFF0C0387 }
  | .AUD_STATUS => { base := 0xC00008, dims := [], reset := 0x0, impl := 0xF }
  | .AUD_ALARM => { base := 0xC0000C, dims := [], reset := 0x0, impl := 0x7FF, w1c := 0x7FF }
  | .AUD_ALARM_EN => { base := 0xC00010, dims := [], reset := 0x0, impl := 0x7FF, rw := 0x7FF }
  | .AUD_BLOCK_LO => { base := 0xC00014, dims := [], reset := 0x0, impl := 0xFFFFFFFF }
  | .AUD_BLOCK_HI => { base := 0xC00018, dims := [], reset := 0x0, impl := 0xFFFFFFFF }
  | .AUD_ASRC => { base := 0xC0001C, dims := [], reset := 0x0, impl := 0xFFF }
  | .AUD_CNT_LOST => { base := 0xC00040, dims := [], reset := 0x0, impl := 0xFFFFFFFF }
  | .AUD_CNT_SLIP => { base := 0xC00044, dims := [], reset := 0x0, impl := 0xFFFFFFFF }
  | .AUD_CNT_LATE => { base := 0xC00048, dims := [], reset := 0x0, impl := 0xFFFFFFFF }
  | .AUD_CNT_CLIP => { base := 0xC0004C, dims := [], reset := 0x0, impl := 0xFFFFFFFF }
  | .AUD_CNT_LOCAL => { base := 0xC00050, dims := [], reset := 0x0, impl := 0xFFFFFFFF }
  | .AUD_CNT_SUPERSEDED => { base := 0xC00054, dims := [], reset := 0x0, impl := 0xFFFFFFFF }
  | .AUD_CNT_UE => { base := 0xC00058, dims := [], reset := 0x0, impl := 0xFFFFFFFF }
  | .AUD_CNT_CLEAR => { base := 0xC0005C, dims := [], reset := 0x0, impl := 0x0, wo := 0x1 }
  | .AUD_SGRP => { base := 0xC01000, dims := [(1024, 0x8)], reset := 0x0, impl := 0x7FFF, fw := 0x7FFF }
  | .AUD_SGRP_DELAY => { base := 0xC01004, dims := [(1024, 0x8)], reset := 0x0, impl := 0xFFFF, fw := 0xFFFF }
  | .AUD_DGRP => { base := 0xC03000, dims := [(1024, 0x8)], reset := 0x0, impl := 0x3F7FFF, fw := 0x3F7FFF }
  | .AUD_DGRP_DELAY => { base := 0xC03004, dims := [(1024, 0x8)], reset := 0x0, impl := 0xFFFF, fw := 0xFFFF }
  | .AUD_TONE => { base := 0xC05000, dims := [(16, 0x10)], reset := 0x3E8, impl := 0x80007FFF, fw := 0x80007FFF }
  | .AUD_TONE_LEVEL => { base := 0xC05004, dims := [(16, 0x10)], reset := 0xB4, impl := 0x3FF, fw := 0x3FF }
  | .AUD_SIL_CTRL => { base := 0xC06000, dims := [(2048, 0x10)], reset := 0x3C0A0000, impl := 0xFFFF7FFF, fw := 0xFFFF7FFF }
  | .AUD_SIL_STATUS => { base := 0xC06004, dims := [(2048, 0x10)], reset := 0x0, impl := 0x1 }
  | .AUD_LG_CTRL => { base := 0xC0E000, dims := [(128, 0x80)], reset := 0x0, impl := 0x8000001F, fw := 0x8000001F }
  | .AUD_LG_M => { base := 0xC0E004, dims := [(128, 0x80)], reset := 0xFD44, impl := 0xFFFF }
  | .AUD_LG_S => { base := 0xC0E008, dims := [(128, 0x80)], reset := 0xFD44, impl := 0xFFFF }
  | .AUD_LG_CH => { base := 0xC0E040, dims := [(128, 0x80), (16, 0x4)], reset := 0x0, impl := 0x37FFF, fw := 0x37FFF }
  | .SAP_CTRL => { base := 0xD00000, dims := [(16, 0x1000)], reset := 0x1000000, impl := 0x30F3311, rw := 0x1, fw := 0x30F3310 }
  | .SAP_FSTATE => { base := 0xD00004, dims := [(16, 0x1000)], reset := 0x0, impl := 0xFF0C0387 }
  | .SAP_FRAME => { base := 0xD00008, dims := [(16, 0x1000)], reset := 0x20221, impl := 0x3F0331, fw := 0x3F0331 }
  | .SAP_RX_MASK => { base := 0xD0000C, dims := [(16, 0x1000)], reset := 0x3, impl := 0xFFFFFFFF, fw := 0xFFFFFFFF }
  | .SAP_TX_MASK => { base := 0xD00010, dims := [(16, 0x1000)], reset := 0x3, impl := 0xFFFFFFFF, fw := 0xFFFFFFFF }
  | .SAP_TX => { base := 0xD00014, dims := [(16, 0x1000)], reset := 0x0, impl := 0x7FFF, fw := 0x7FFF }
  | .SAP_QUAL => { base := 0xD00018, dims := [(16, 0x1000)], reset := 0x140030, impl := 0xFFFFFF, fw := 0xFFFFFF }
  | .SAP_CLK_STATE => { base := 0xD0001C, dims := [(16, 0x1000)], reset := 0x0, impl := 0x333 }
  | .SAP_STATUS => { base := 0xD00020, dims := [(16, 0x1000)], reset := 0x0, impl := 0xF }
  | .SAP_ALARM => { base := 0xD00024, dims := [(16, 0x1000)], reset := 0x0, impl := 0x3F, w1c := 0x3F }
  | .SAP_ALARM_EN => { base := 0xD00028, dims := [(16, 0x1000)], reset := 0x0, impl := 0x3F, rw := 0x3F }
  | .SAP_FREQ => { base := 0xD0002C, dims := [(16, 0x1000)], reset := 0x0, impl := 0xFFFFFFFF }
  | .SAP_QUAL_COUNT => { base := 0xD00030, dims := [(16, 0x1000)], reset := 0x0, impl := 0xFFFF }
  | .SAP_BUF_FILL => { base := 0xD00034, dims := [(16, 0x1000)], reset := 0x0, impl := 0x1F }
  | .SAP_CNT_DISCARD => { base := 0xD00040, dims := [(16, 0x1000)], reset := 0x0, impl := 0xFFFFFFFF }
  | .SAP_CNT_REQUAL => { base := 0xD00044, dims := [(16, 0x1000)], reset := 0x0, impl := 0xFFFFFFFF }
  | .SAP_CNT_CLOCK_LOST => { base := 0xD00048, dims := [(16, 0x1000)], reset := 0x0, impl := 0xFFFFFFFF }
  | .SAP_CNT_SLIP => { base := 0xD0004C, dims := [(16, 0x1000)], reset := 0x0, impl := 0xFFFFFFFF }
  | .SAP_CNT_CLEAR => { base := 0xD00050, dims := [(16, 0x1000)], reset := 0x0, impl := 0x0, wo := 0x1 }
  | .HLK_CTRL => { base := 0x300000, dims := [(96, 0x1000)], reset := 0x40, impl := 0x1677, fw := 0x1677 }
  | .HLK_FSTATE => { base := 0x300004, dims := [(96, 0x1000)], reset := 0x0, impl := 0xFF0C0387 }
  | .HLK_STATE => { base := 0x300008, dims := [(96, 0x1000)], reset := 0x0, impl := 0xFC030007 }
  | .HLK_FAR_ID => { base := 0x30000C, dims := [(96, 0x1000)], reset := 0x0, impl := 0xFFFFFFFF }
  | .HLK_FAR_EPOCH => { base := 0x300010, dims := [(96, 0x1000)], reset := 0x0, impl := 0xFF }
  | .HLK_PAIR_ID => { base := 0x300014, dims := [(96, 0x1000)], reset := 0x0, impl := 0xFFFFFFFF, fw := 0xFFFFFFFF }
  | .HLK_TIME_CTRL => { base := 0x300018, dims := [(96, 0x1000)], reset := 0x4, impl := 0x7, fw := 0x7 }
  | .HLK_ASYM => { base := 0x30001C, dims := [(96, 0x1000)], reset := 0x0, impl := 0xFFFFFFFF, rw := 0xFFFFFFFF }
  | .HLK_DELAY => { base := 0x300020, dims := [(96, 0x1000)], reset := 0x0, impl := 0xFFFFFFFF }
  | .HLK_FAR_OFFSET => { base := 0x300024, dims := [(96, 0x1000)], reset := 0x0, impl := 0xFFFFFFFF }
  | .HLK_FEC_COUNTER => { base := 0x300028, dims := [(96, 0x1000)], reset := 0x0, impl := 0xFF }
  | .HLK_BUF_FILL => { base := 0x30002C, dims := [(96, 0x1000)], reset := 0x0, impl := 0x7F }
  | .HLK_ALARM => { base := 0x300030, dims := [(96, 0x1000)], reset := 0x0, impl := 0xFFF, w1c := 0xFFF }
  | .HLK_ALARM_EN => { base := 0x300034, dims := [(96, 0x1000)], reset := 0x0, impl := 0xFFF, rw := 0xFFF }
  | .HLK_PLAN => { base := 0x300038, dims := [(96, 0x1000)], reset := 0x0, impl := 0xFFFFFFFF }
  | .HLK_CNT_FEC_CORR => { base := 0x300040, dims := [(96, 0x1000)], reset := 0x0, impl := 0xFFFFFFFF }
  | .HLK_CNT_FEC_UNCORR => { base := 0x300044, dims := [(96, 0x1000)], reset := 0x0, impl := 0xFFFFFFFF }
  | .HLK_CNT_FRAME_GAP => { base := 0x300048, dims := [(96, 0x1000)], reset := 0x0, impl := 0xFFFFFFFF }
  | .HLK_CNT_BLOCK_LOSS => { base := 0x30004C, dims := [(96, 0x1000)], reset := 0x0, impl := 0xFFFFFFFF }
  | .HLK_CNT_RETRAIN => { base := 0x300050, dims := [(96, 0x1000)], reset := 0x0, impl := 0xFFFFFFFF }
  | .HLK_CNT_BAD_BLOCK => { base := 0x300054, dims := [(96, 0x1000)], reset := 0x0, impl := 0xFFFFFFFF }
  | .HLK_CNT_SEG_RX => { base := 0x300058, dims := [(96, 0x1000)], reset := 0x0, impl := 0xFFFFFFFF }
  | .HLK_CNT_SEG_TX => { base := 0x30005C, dims := [(96, 0x1000)], reset := 0x0, impl := 0xFFFFFFFF }
  | .HLK_CNT_SEG_BAD => { base := 0x300060, dims := [(96, 0x1000)], reset := 0x0, impl := 0xFFFFFFFF }
  | .HLK_CNT_SEG_LOST => { base := 0x300064, dims := [(96, 0x1000)], reset := 0x0, impl := 0xFFFFFFFF }
  | .HLK_CNT_BAD_KIND => { base := 0x300068, dims := [(96, 0x1000)], reset := 0x0, impl := 0xFFFFFFFF }
  | .HLK_CNT_FILL_DEL => { base := 0x30006C, dims := [(96, 0x1000)], reset := 0x0, impl := 0xFFFFFFFF }
  | .HLK_CNT_FILL_INS => { base := 0x300070, dims := [(96, 0x1000)], reset := 0x0, impl := 0xFFFFFFFF }
  | .HLK_CNT_PECK_RX => { base := 0x300074, dims := [(96, 0x1000)], reset := 0x0, impl := 0xFFFFFFFF }
  | .HLK_CNT_CLEAR => { base := 0x300078, dims := [(96, 0x1000)], reset := 0x0, impl := 0x0, wo := 0x1 }
  | .HLK_RXF_STATUS => { base := 0x300400, dims := [(96, 0x1000), (64, 0x10)], reset := 0x0, impl := 0xFF0000F1 }
  | .HLK_RXF_SEGS => { base := 0x300404, dims := [(96, 0x1000), (64, 0x10)], reset := 0x0, impl := 0xFFFFFFFF }
  | .HLK_RXF_LOST => { base := 0x300408, dims := [(96, 0x1000), (64, 0x10)], reset := 0x0, impl := 0xFFFFFFFF }
  | .HLK_RXF_BAD => { base := 0x30040C, dims := [(96, 0x1000), (64, 0x10)], reset := 0x0, impl := 0xFFFFFFFF }
  | .HLK_TXF_STATUS => { base := 0x300800, dims := [(96, 0x1000), (64, 0x10)], reset := 0x0, impl := 0xC0001FFF }
  | .HLK_TXF_SEGS => { base := 0x300804, dims := [(96, 0x1000), (64, 0x10)], reset := 0x0, impl := 0xFFFFFFFF }
  | .HLK_TXF_PLAN => { base := 0x300808, dims := [(96, 0x1000), (64, 0x10)], reset := 0x0, impl := 0xFFFFFFFF }
  | .LANE_CTRL => { base := 0x200000, dims := [(96, 0x1000)], reset := 0x30000, impl := 0x130F31, fw := 0x130F31, off := 0xF30 }
  | .LANE_FSTATE => { base := 0x200004, dims := [(96, 0x1000)], reset := 0x0, impl := 0xFF0C0387 }
  | .LANE_POL => { base := 0x200008, dims := [(96, 0x1000)], reset := 0x0, impl := 0x3, fw := 0x3 }
  | .LANE_STATUS => { base := 0x20000C, dims := [(96, 0x1000)], reset := 0x0, impl := 0xF00000E3 }
  | .LANE_EQ_MODE => { base := 0x200010, dims := [(96, 0x1000)], reset := 0x0, impl := 0x103, rw := 0x103 }
  | .LANE_EQ_BOUND => { base := 0x200014, dims := [(96, 0x1000)], reset := 0x3F001F00, impl := 0x3F3F1F1F, rw := 0x3F3F1F1F }
  | .LANE_EQ_BOUND2 => { base := 0x200018, dims := [(96, 0x1000)], reset := 0x7F, impl := 0xFF, rw := 0xFF }
  | .LANE_EQ_FIX => { base := 0x20001C, dims := [(96, 0x1000)], reset := 0x2010, impl := 0x3F1F, rw := 0x3F1F }
  | .LANE_EQ_STATE => { base := 0x200020, dims := [(96, 0x1000)], reset := 0x0, impl := 0x73F1F03 }
  | .LANE_TX => { base := 0x200024, dims := [(96, 0x1000)], reset := 0xC, impl := 0xF, rw := 0xF }
  | .LANE_TXFFE_BOUND => { base := 0x200028, dims := [(96, 0x1000)], reset := 0x3F, impl := 0x3F, rw := 0x3F }
  | .LANE_DFE => { base := 0x200040, dims := [(96, 0x1000), (5, 0x4)], reset := 0x0, impl := 0xFF, rw := 0xFF }
  | .LANE_TXFFE => { base := 0x200030, dims := [(96, 0x1000), (5, 0x4)], reset := 0x0, impl := 0x7F, rw := 0x7F }
  | .LANE_DFFE => { base := 0x200080, dims := [(96, 0x1000), (24, 0x4)], reset := 0x0, impl := 0x3FF, rw := 0x3FF }
  | .LANE_EYE_H => { base := 0x200100, dims := [(96, 0x1000)], reset := 0x0, impl := 0xFFFFFF }
  | .LANE_EYE_W => { base := 0x200104, dims := [(96, 0x1000)], reset := 0x0, impl := 0xFFFFFF }
  | .LANE_SNR => { base := 0x200108, dims := [(96, 0x1000)], reset := 0x0, impl := 0x3FF }
  | .LANE_MARGIN => { base := 0x20010C, dims := [(96, 0x1000)], reset := 0xAA, impl := 0x3FF, rw := 0x3FF }
  | .LANE_SCAN_CTRL => { base := 0x200110, dims := [(96, 0x1000)], reset := 0x0, impl := 0xFFF7F, rw := 0xFFF7F, wo := 0x80000000 }
  | .LANE_SCAN_RESULT => { base := 0x200114, dims := [(96, 0x1000)], reset := 0x0, impl := 0xC0FFFFFF }
  | .LANE_ALARM => { base := 0x200118, dims := [(96, 0x1000)], reset := 0x0, impl := 0x7F, w1c := 0x7F }
  | .LANE_ALARM_EN => { base := 0x20011C, dims := [(96, 0x1000)], reset := 0x0, impl := 0x7F, rw := 0x7F }
  | .LANE_CNT_SIGNAL_LOSS => { base := 0x200120, dims := [(96, 0x1000)], reset := 0x0, impl := 0xFFFFFFFF }
  | .LANE_CNT_CDR_LOSS => { base := 0x200124, dims := [(96, 0x1000)], reset := 0x0, impl := 0xFFFFFFFF }
  | .LANE_CNT_ADAPT => { base := 0x200128, dims := [(96, 0x1000)], reset := 0x0, impl := 0xFFFFFFFF }
  | .LANE_CNT_MON_ERR => { base := 0x20012C, dims := [(96, 0x1000)], reset := 0x0, impl := 0xFFFFFFFF }
  | .LANE_CNT_CLEAR => { base := 0x200130, dims := [(96, 0x1000)], reset := 0x0, impl := 0x0, wo := 0x1 }
  | .QUAD_CTRL => { base := 0x260000, dims := [(24, 0x100)], reset := 0x10, impl := 0x1331, fw := 0x1331, off := 0x1330 }
  | .QUAD_FSTATE => { base := 0x260004, dims := [(24, 0x100)], reset := 0x0, impl := 0xFF0C0387 }
  | .QUAD_SWAP => { base := 0x260008, dims := [(24, 0x100)], reset := 0xE4E4, impl := 0xFFFF, fw := 0xFFFF, off := 0xFFFF }
  | .QUAD_STATUS => { base := 0x26000C, dims := [(24, 0x100)], reset := 0x0, impl := 0x7 }
  | .QUAD_REFCLK_FREQ => { base := 0x260010, dims := [(24, 0x100)], reset := 0x0, impl := 0xFFFFFFFF }
  | .QUAD_ALARM => { base := 0x260014, dims := [(24, 0x100)], reset := 0x0, impl := 0x7, w1c := 0x7 }
  | .QUAD_ALARM_EN => { base := 0x260018, dims := [(24, 0x100)], reset := 0x0, impl := 0x7, rw := 0x7 }
  | .QUAD_POWER => { base := 0x26001C, dims := [(24, 0x100)], reset := 0x0, impl := 0xFFFF }
  | .SDI_CTRL => { base := 0x400000, dims := [(96, 0x1000)], reset := 0x0, impl := 0x3301, fw := 0x3301 }
  | .SDI_FSTATE => { base := 0x400004, dims := [(96, 0x1000)], reset := 0x0, impl := 0xFF0C0387 }
  | .SDI_RX_CTRL => { base := 0x400008, dims := [(96, 0x1000)], reset := 0x1FF0000, impl := 0x1FF0010, fw := 0x1FF0010 }
  | .SDI_RX_STATE => { base := 0x40000C, dims := [(96, 0x1000)], reset := 0x0, impl := 0xF1F00307 }
  | .SDI_RX_VPID => { base := 0x400010, dims := [(96, 0x1000)], reset := 0x0, impl := 0xFFFFFFFF }
  | .SDI_RX_LAT => { base := 0x400014, dims := [(96, 0x1000)], reset := 0x0, impl := 0xFFFFFF, rw := 0xFFFFFF }
  | .SDI_RX_TWIN_DIFF => { base := 0x400018, dims := [(96, 0x1000)], reset := 0x0, impl := 0xFFFFFFFF }
  | .SDI_RX_SKEW => { base := 0x40001C, dims := [(96, 0x1000)], reset := 0x0, impl := 0xFFFF }
  | .SDI_TX_CTRL => { base := 0x400020, dims := [(96, 0x1000)], reset := 0x1, impl := 0x11, fw := 0x11 }
  | .SDI_TX_LAT => { base := 0x400024, dims := [(96, 0x1000)], reset := 0x0, impl := 0xFFFFFF, rw := 0xFFFFFF }
  | .SDI_STATUS => { base := 0x400028, dims := [(96, 0x1000)], reset := 0x0, impl := 0x3F }
  | .SDI_ALARM => { base := 0x40002C, dims := [(96, 0x1000)], reset := 0x0, impl := 0x7FF, w1c := 0x7FF }
  | .SDI_ALARM_EN => { base := 0x400030, dims := [(96, 0x1000)], reset := 0x0, impl := 0x7FF, rw := 0x7FF }
  | .SDI_RX_EDH => { base := 0x400034, dims := [(96, 0x1000)], reset := 0x0, impl := 0xFFFF }
  | .SDI_CNT_CRC => { base := 0x400040, dims := [(96, 0x1000)], reset := 0x0, impl := 0xFFFFFFFF }
  | .SDI_CNT_LN => { base := 0x400044, dims := [(96, 0x1000)], reset := 0x0, impl := 0xFFFFFFFF }
  | .SDI_CNT_TRS => { base := 0x400048, dims := [(96, 0x1000)], reset := 0x0, impl := 0xFFFFFFFF }
  | .SDI_CNT_EDH_AP => { base := 0x40004C, dims := [(96, 0x1000)], reset := 0x0, impl := 0xFFFFFFFF }
  | .SDI_CNT_EDH_FF => { base := 0x400050, dims := [(96, 0x1000)], reset := 0x0, impl := 0xFFFFFFFF }
  | .SDI_CNT_ERR_FRAMES => { base := 0x400054, dims := [(96, 0x1000)], reset := 0x0, impl := 0xFFFFFFFF }
  | .SDI_CNT_ANC_CSUM => { base := 0x400058, dims := [(96, 0x1000)], reset := 0x0, impl := 0xFFFFFFFF }
  | .SDI_CNT_AUD_ERR => { base := 0x40005C, dims := [(96, 0x1000)], reset := 0x0, impl := 0xFFFFFFFF }
  | .SDI_CNT_ANC_DROP => { base := 0x400060, dims := [(96, 0x1000)], reset := 0x0, impl := 0xFFFFFFFF }
  | .SDI_CNT_LOS => { base := 0x400064, dims := [(96, 0x1000)], reset := 0x0, impl := 0xFFFFFFFF }
  | .SDI_CNT_CLEAR => { base := 0x400068, dims := [(96, 0x1000)], reset := 0x0, impl := 0x0, wo := 0x1 }
  | .MAC_CTRL => { base := 0x500000, dims := [(97, 0x1000)], reset := 0x0, impl := 0x1F31, fw := 0x1F31 }
  | .MAC_FSTATE => { base := 0x500004, dims := [(97, 0x1000)], reset := 0x0, impl := 0xFF0C0387 }
  | .MAC_ADDR_LO => { base := 0x500008, dims := [(97, 0x1000)], reset := 0x0, impl := 0xFFFFFFFF, fw := 0xFFFFFFFF }
  | .MAC_ADDR_HI => { base := 0x50000C, dims := [(97, 0x1000)], reset := 0x0, impl := 0xFFFF, fw := 0xFFFF }
  | .MAC_IPV4 => { base := 0x500010, dims := [(97, 0x1000)], reset := 0x0, impl := 0xFFFFFFFF, fw := 0xFFFFFFFF }
  | .MAC_IPV6 => { base := 0x500014, dims := [(97, 0x1000), (4, 0x4)], reset := 0x0, impl := 0xFFFFFFFF, fw := 0xFFFFFFFF }
  | .MAC_MAX_FRAME => { base := 0x500024, dims := [(97, 0x1000)], reset := 0x2400, impl := 0x3FFF, rw := 0x3FFF }
  | .MAC_TX_THRESH => { base := 0x500028, dims := [(97, 0x1000)], reset := 0x100, impl := 0x3FFF, rw := 0x3FFF }
  | .MAC_STATUS => { base := 0x50002C, dims := [(97, 0x1000)], reset := 0x0, impl := 0x1F }
  | .MAC_ALARM => { base := 0x500030, dims := [(97, 0x1000)], reset := 0x0, impl := 0x7F, w1c := 0x7F }
  | .MAC_ALARM_EN => { base := 0x500034, dims := [(97, 0x1000)], reset := 0x0, impl := 0x7F, rw := 0x7F }
  | .MAC_TC => { base := 0x500038, dims := [(97, 0x1000)], reset := 0x700, impl := 0x707, fw := 0x707 }
  | .MAC_HASH => { base := 0x500040, dims := [(97, 0x1000), (16, 0x4)], reset := 0x0, impl := 0xFFFFFFFF, fw := 0xFFFFFFFF }
  | .MAC_GATE_CTRL => { base := 0x500100, dims := [(97, 0x1000)], reset := 0x10000, impl := 0x1FF0071, fw := 0x1FF0071 }
  | .MAC_GATE_BASE_SEC_LO => { base := 0x500104, dims := [(97, 0x1000)], reset := 0x0, impl := 0xFFFFFFFF, fw := 0xFFFFFFFF }
  | .MAC_GATE_BASE_SEC_HI => { base := 0x500108, dims := [(97, 0x1000)], reset := 0x0, impl := 0xFFFF, fw := 0xFFFF }
  | .MAC_GATE_BASE_NS => { base := 0x50010C, dims := [(97, 0x1000)], reset := 0x0, impl := 0x3FFFFFFF, fw := 0x3FFFFFFF }
  | .MAC_GATE_CYCLE => { base := 0x500110, dims := [(97, 0x1000)], reset := 0x0, impl := 0xFFFFFFFF, fw := 0xFFFFFFFF }
  | .MAC_GATE_CMD => { base := 0x500114, dims := [(97, 0x1000)], reset := 0x0, impl := 0x0, wo := 0x1 }
  | .MAC_GATE_STATUS => { base := 0x500118, dims := [(97, 0x1000)], reset := 0x0, impl := 0x81FF00FF }
  | .MAC_CNT_RX_FRAMES => { base := 0x500180, dims := [(97, 0x1000)], reset := 0x0, impl := 0xFFFFFFFF }
  | .MAC_CNT_RX_FCS => { base := 0x500184, dims := [(97, 0x1000)], reset := 0x0, impl := 0xFFFFFFFF }
  | .MAC_CNT_RX_LEN => { base := 0x500188, dims := [(97, 0x1000)], reset := 0x0, impl := 0xFFFFFFFF }
  | .MAC_CNT_RX_NOMATCH => { base := 0x50018C, dims := [(97, 0x1000)], reset := 0x0, impl := 0xFFFFFFFF }
  | .MAC_CNT_RX_FULL => { base := 0x500190, dims := [(97, 0x1000)], reset := 0x0, impl := 0xFFFFFFFF }
  | .MAC_CNT_TX_FRAMES => { base := 0x500194, dims := [(97, 0x1000)], reset := 0x0, impl := 0xFFFFFFFF }
  | .MAC_CNT_TX_UNDERRUN => { base := 0x500198, dims := [(97, 0x1000)], reset := 0x0, impl := 0xFFFFFFFF }
  | .MAC_CNT_TX_LATE => { base := 0x50019C, dims := [(97, 0x1000)], reset := 0x0, impl := 0xFFFFFFFF }
  | .MAC_CNT_FEC_CORR => { base := 0x5001A0, dims := [(97, 0x1000)], reset := 0x0, impl := 0xFFFFFFFF }
  | .MAC_CNT_FEC_UNCORR => { base := 0x5001A4, dims := [(97, 0x1000)], reset := 0x0, impl := 0xFFFFFFFF }
  | .MAC_CNT_CLEAR => { base := 0x5001A8, dims := [(97, 0x1000)], reset := 0x0, impl := 0x0, wo := 0x1 }
  | .MAC_GCL_ADMIN => { base := 0x500800, dims := [(97, 0x1000), (256, 0x4)], reset := 0xFF000000, impl := 0xFFFFFFFF, fw := 0xFFFFFFFF }
  | .MAC_GCL_OPER => { base := 0x500C00, dims := [(97, 0x1000), (256, 0x4)], reset := 0xFF000000, impl := 0xFFFFFFFF }
  | .MAC_TSQ_STATUS => { base := 0x570000, dims := [], reset := 0x0, impl := 0x10003FF, view := true }
  | .MAC_TSQ_POP => { base := 0x570004, dims := [], reset := 0x0, impl := 0x0, wo := 0x1 }
  | .MAC_TSQ_NEXT_TAG => { base := 0x570008, dims := [], reset := 0x0, impl := 0xFFFF }
  | .MAC_TSQ_E => { base := 0x570010, dims := [(4, 0x4)], reset := 0x0, impl := 0xFFFFFFFF, view := true }
  | .MAC_CNT_TSQ_DROP => { base := 0x570020, dims := [], reset := 0x0, impl := 0xFFFFFFFF }
  | .MAC_TSQ_CNT_CLEAR => { base := 0x570024, dims := [], reset := 0x0, impl := 0x0, wo := 0x1 }
  | .FLOW_TABLE_USED => { base := 0x600000, dims := [], reset := 0x0, impl := 0x3FFF }
  | .FLOW_RX_ON => { base := 0x600004, dims := [], reset := 0x0, impl := 0x3FFF }
  | .FLOW_TX_ON => { base := 0x600008, dims := [], reset := 0x0, impl := 0x3FFF }
  | .FLOW_OPAQUE_USED => { base := 0x60000C, dims := [], reset := 0x0, impl := 0x7FF07FF }
  | .FLOW_CNT_CLEAR => { base := 0x600010, dims := [], reset := 0x0, impl := 0x0, wo := 0x11FFF }
  | .FLOW_STAGE_FILL => { base := 0x600014, dims := [], reset := 0x0, impl := 0x1FFF }
  | .FLOW_RX_CTRL => { base := 0x610000, dims := [(8192, 0x40)], reset := 0x6000, impl := 0x3FF7F6F, fw := 0x3FF7F6F }
  | .FLOW_RX_FSTATE => { base := 0x610004, dims := [(8192, 0x40)], reset := 0x0, impl := 0xFF0C0387 }
  | .FLOW_RX_LEG => { base := 0x610008, dims := [(8192, 0x40), (2, 0x8)], reset := 0x0, impl := 0xFFF03FF, fw := 0xFFF03FF }
  | .FLOW_RX_ADDR => { base := 0x61000C, dims := [(8192, 0x40), (2, 0x8)], reset := 0x0, impl := 0x3FFF3FFF, fw := 0x3FFF3FFF }
  | .FLOW_RX_MERGE => { base := 0x610018, dims := [(8192, 0x40)], reset := 0x3E8, impl := 0x3FFF, fw := 0x3FFF }
  | .FLOW_RX_STATUS => { base := 0x61001C, dims := [(8192, 0x40)], reset := 0x0, impl := 0xFFFF001F }
  | .FLOW_RX_ALARM => { base := 0x610020, dims := [(8192, 0x40)], reset := 0x0, impl := 0x3F, w1c := 0x3F }
  | .FLOW_RX_ALARM_EN => { base := 0x610024, dims := [(8192, 0x40)], reset := 0x0, impl := 0x3F, rw := 0x3F }
  | .FLOW_RX_SSRC => { base := 0x610028, dims := [(8192, 0x40)], reset := 0x0, impl := 0xFFFFFFFF }
  | .FLOW_RX_CNT_PKTS => { base := 0x61002C, dims := [(8192, 0x40)], reset := 0x0, impl := 0xFFFFFFFF }
  | .FLOW_RX_CNT_LOST => { base := 0x610030, dims := [(8192, 0x40)], reset := 0x0, impl := 0xFFFFFFFF }
  | .FLOW_RX_CNT_ERR => { base := 0x610034, dims := [(8192, 0x40)], reset := 0x0, impl := 0xFFFFFFFF }
  | .FLOW_RX_CNT_LATE => { base := 0x610038, dims := [(8192, 0x40)], reset := 0x0, impl := 0xFFFFFFFF }
  | .FLOW_RX_CNT_DUP => { base := 0x61003C, dims := [(8192, 0x40)], reset := 0x0, impl := 0xFFFFFFFF }
  | .FLOW_TX_CTRL => { base := 0x700000, dims := [(8192, 0x40)], reset := 0x56000, impl := 0x3FF77F7F, fw := 0x3FF77F7F }
  | .FLOW_TX_FSTATE => { base := 0x700004, dims := [(8192, 0x40)], reset := 0x0, impl := 0xFF0C0387 }
  | .FLOW_TX_LEG => { base := 0x700008, dims := [(8192, 0x40), (2, 0x8)], reset := 0x0, impl := 0xEFFF02FF, fw := 0xEFFF02FF }
  | .FLOW_TX_ADDR => { base := 0x70000C, dims := [(8192, 0x40), (2, 0x8)], reset := 0x40000000, impl := 0xFF3F3FFF, fw := 0xFF3F3FFF }
  | .FLOW_TX_SSRC => { base := 0x700018, dims := [(8192, 0x40)], reset := 0x0, impl := 0xFFFFFFFF, fw := 0xFFFFFFFF }
  | .FLOW_TX_TRO => { base := 0x70001C, dims := [(8192, 0x40)], reset := 0x0, impl := 0xFFFFFFFF, fw := 0xFFFFFFFF }
  | .FLOW_TX_PKT => { base := 0x700020, dims := [(8192, 0x40)], reset := 0x6404B0, impl := 0x3FFF3FFF, fw := 0x3FFF3FFF }
  | .FLOW_TX_TRS => { base := 0x700024, dims := [(8192, 0x40)], reset := 0x0, impl := 0xFFFFFFFF }
  | .FLOW_TX_STATUS => { base := 0x700028, dims := [(8192, 0x40)], reset := 0x0, impl := 0xFFFFC007 }
  | .FLOW_TX_ALARM => { base := 0x70002C, dims := [(8192, 0x40)], reset := 0x0, impl := 0x3, w1c := 0x3 }
  | .FLOW_TX_ALARM_EN => { base := 0x700030, dims := [(8192, 0x40)], reset := 0x0, impl := 0x3, rw := 0x3 }
  | .FLOW_TX_SEQ => { base := 0x700034, dims := [(8192, 0x40)], reset := 0x0, impl := 0xFFFFFFFF }
  | .FLOW_TX_CNT_PKTS => { base := 0x700038, dims := [(8192, 0x40)], reset := 0x0, impl := 0xFFFFFFFF }
  | .FLOW_TX_CNT_LATE => { base := 0x70003C, dims := [(8192, 0x40)], reset := 0x0, impl := 0xFFFFFFFF }
  | .HBM_CTRL => { base := 0x100000, dims := [], reset := 0xC10, impl := 0xF11, fw := 0xF11, off := 0xF10 }
  | .HBM_FSTATE => { base := 0x100004, dims := [], reset := 0x0, impl := 0xFF0C0387 }
  | .HBM_INFO => { base := 0x100008, dims := [], reset := 0x0, impl := 0xFFFFF }
  | .HBM_APERTURE => { base := 0x10000C, dims := [], reset := 0x0, impl := 0x80000FFF, rw := 0xFFF, fw := 0x80000000 }
  | .HBM_SCRUB => { base := 0x100010, dims := [], reset := 0x800A0018, impl := 0x80FF00FF, rw := 0x80FF00FF }
  | .HBM_PNR => { base := 0x100014, dims := [], reset := 0x118, impl := 0x13F, rw := 0x13F }
  | .HBM_REPAIR => { base := 0x100018, dims := [], reset := 0x3E81804, impl := 0xFFFFFFFF, fw := 0xFFFFFFFF }
  | .HBM_STATUS => { base := 0x10001C, dims := [], reset := 0x0, impl := 0x1F }
  | .HBM_ALARM => { base := 0x100020, dims := [], reset := 0x0, impl := 0xFF, w1c := 0xFF }
  | .HBM_ALARM_EN => { base := 0x100024, dims := [], reset := 0x0, impl := 0xFF, rw := 0xFF }
  | .HBM_BW_RD => { base := 0x100028, dims := [], reset := 0x0, impl := 0xFFFFFFFF }
  | .HBM_BW_WR => { base := 0x10002C, dims := [], reset := 0x0, impl := 0xFFFFFFFF }
  | .HBM_PLAN => { base := 0x100030, dims := [], reset := 0x0, impl := 0xFFFFFFFF }
  | .HBM_PLAN_LIMIT => { base := 0x100034, dims := [], reset := 0x0, impl := 0xFFFFFFFF }
  | .HBM_CNT_CE => { base := 0x100040, dims := [], reset := 0x0, impl := 0xFFFFFFFF }
  | .HBM_CNT_UE => { base := 0x100044, dims := [], reset := 0x0, impl := 0xFFFFFFFF }
  | .HBM_CNT_POISON_READ => { base := 0x100048, dims := [], reset := 0x0, impl := 0xFFFFFFFF }
  | .HBM_CNT_SPARED => { base := 0x10004C, dims := [], reset := 0x0, impl := 0xFFFFFFFF }
  | .HBM_CNT_PNR_DROP => { base := 0x100050, dims := [], reset := 0x0, impl := 0xFFFFFFFF }
  | .HBM_CNT_CLEAR => { base := 0x100054, dims := [], reset := 0x0, impl := 0x0, wo := 0x1 }
  | .HBM_ELOG_CTRL => { base := 0x100100, dims := [], reset := 0x1, impl := 0x1, rw := 0x1 }
  | .HBM_ELOG_STATUS => { base := 0x100104, dims := [], reset := 0x0, impl := 0x8000007F, view := true }
  | .HBM_ELOG_POP => { base := 0x100108, dims := [], reset := 0x0, impl := 0x0, wo := 0x1 }
  | .HBM_ELOG_E => { base := 0x100110, dims := [(6, 0x4)], reset := 0x0, impl := 0xFFFFFFFF, view := true }
  | .HBM_QOS_CTRL => { base := 0x102000, dims := [(56, 0x10)], reset := 0x0, impl := 0x1, fw := 0x1 }
  | .HBM_QOS_TARGET => { base := 0x102004, dims := [(56, 0x10)], reset := 0x1F40, impl := 0xFFFF, fw := 0xFFFF }
  | .HBM_QOS_STATUS => { base := 0x102008, dims := [(56, 0x10)], reset := 0x0, impl := 0x3 }
  | .HBM_QOS_LATE => { base := 0x10200C, dims := [(56, 0x10)], reset := 0x0, impl := 0xFFFFFFFF }
  | .HBM_FK_STATUS => { base := 0x104000, dims := [(256, 0x10)], reset := 0x0, impl := 0xF07 }
  | .HBM_FK_CNT_CE => { base := 0x104004, dims := [(256, 0x10)], reset := 0x0, impl := 0xFFFFFFFF }
  | .HBM_FK_CNT_UE => { base := 0x104008, dims := [(256, 0x10)], reset := 0x0, impl := 0xFFFFFFFF }
  | .HBM_CH_CTRL => { base := 0x110000, dims := [(64, 0x400)], reset := 0x1, impl := 0x1, rw := 0x1 }
  | .HBM_CH_FSTATE => { base := 0x110004, dims := [(64, 0x400)], reset := 0x0, impl := 0xFF0C0387 }
  | .HBM_CH_STATUS => { base := 0x110008, dims := [(64, 0x400)], reset := 0x0, impl := 0xFF017F7F }
  | .HBM_CH_REPAIR => { base := 0x11000C, dims := [(64, 0x400)], reset := 0x0, impl := 0xFFFF }
  | .HBM_CH_CNT_CE => { base := 0x110010, dims := [(64, 0x400)], reset := 0x0, impl := 0xFFFFFFFF }
  | .HBM_CH_CNT_UE => { base := 0x110014, dims := [(64, 0x400)], reset := 0x0, impl := 0xFFFFFFFF }
  | .HBM_CH_CNT_DROP => { base := 0x110018, dims := [(64, 0x400)], reset := 0x0, impl := 0xFFFFFFFF }
  | .HBM_CH_BW => { base := 0x11001C, dims := [(64, 0x400)], reset := 0x0, impl := 0xFFFFFFFF }
  | .MTX_CTRL => { base := 0x80000, dims := [], reset := 0x1, impl := 0x100, fw := 0x100 }
  | .MTX_FSTATE => { base := 0x80004, dims := [], reset := 0x2, impl := 0xFF0C0387 }
  | .MTX_WATCHDOG => { base := 0x80008, dims := [], reset := 0x64, impl := 0xFFFFFF, fw := 0xFFFFFF }
  | .MTX_POOL => { base := 0x8000C, dims := [], reset := 0x0, impl := 0xFFF0FFF }
  | .MTX_STATUS => { base := 0x80010, dims := [], reset := 0x0, impl := 0x3 }
  | .MTX_ALARM => { base := 0x80014, dims := [], reset := 0x0, impl := 0x7, w1c := 0x7 }
  | .MTX_ALARM_EN => { base := 0x80018, dims := [], reset := 0x0, impl := 0x7, rw := 0x7 }
  | .MTX_LOG_STATUS => { base := 0x8001C, dims := [], reset := 0x0, impl := 0x8000001F, view := true }
  | .MTX_LOG_POP => { base := 0x80020, dims := [], reset := 0x0, impl := 0x0, wo := 0x1 }
  | .MTX_CNT_DECODE => { base := 0x80024, dims := [], reset := 0x0, impl := 0xFFFFFFFF }
  | .MTX_CNT_TIMEOUT => { base := 0x80028, dims := [], reset := 0x0, impl := 0xFFFFFFFF }
  | .MTX_CNT_LOG_DROP => { base := 0x8002C, dims := [], reset := 0x0, impl := 0xFFFFFFFF }
  | .MTX_CNT_CLEAR => { base := 0x80030, dims := [], reset := 0x0, impl := 0x0, wo := 0x1 }
  | .MTX_LOG_E => { base := 0x80040, dims := [(6, 0x4)], reset := 0x0, impl := 0xFFFFFFFF, view := true }
  | .MTX_SQ_SEL => { base := 0x80100, dims := [], reset := 0x0, impl := 0x3F3FFF, rw := 0x3F3FFF }
  | .MTX_SQ_STATE => { base := 0x80104, dims := [], reset := 0x0, impl := 0x37F3F01, view := true }
  | .MTX_P_STATUS => { base := 0x81000, dims := [(56, 0x100)], reset := 0x0, impl := 0x7F3F07 }
  | .MTX_P_HELD => { base := 0x81004, dims := [(56, 0x100)], reset := 0x0, impl := 0x3FFF }
  | .MTX_P_CNT_RD => { base := 0x81008, dims := [(56, 0x100)], reset := 0x0, impl := 0xFFFFFFFF }
  | .MTX_P_CNT_WR => { base := 0x8100C, dims := [(56, 0x100)], reset := 0x0, impl := 0xFFFFFFFF }
  | .MTX_P_CNT_POOL_WAIT => { base := 0x81010, dims := [(56, 0x100)], reset := 0x0, impl := 0xFFFFFFFF }
  | .MTX_P_PRIO => { base := 0x81020, dims := [(56, 0x100), (10, 0x4)], reset := 0x0, impl := 0xFFFFFFFF, fw := 0xFFFFFFFF }
  | .TWIN_CTRL => { base := 0x30000, dims := [], reset := 0x100, impl := 0x111, fw := 0x111 }
  | .TWIN_FSTATE => { base := 0x30004, dims := [], reset := 0x0, impl := 0xFF0C0387 }
  | .TWIN_STATUS => { base := 0x30008, dims := [], reset := 0x0, impl := 0x3FFFFF0F }
  | .TWIN_PECK => { base := 0x3000C, dims := [], reset := 0x0, impl := 0x7FF0F0F }
  | .TWIN_TIMING => { base := 0x30010, dims := [], reset := 0x80005, impl := 0xF00FF, fw := 0xF00FF }
  | .TWIN_ADMIT => { base := 0x30014, dims := [], reset := 0x1400FA, impl := 0xFFFFFFFF, fw := 0xFFFFFFFF }
  | .TWIN_ADMIT_COUNT => { base := 0x30018, dims := [], reset := 0x0, impl := 0xFFFF }
  | .TWIN_SIG_CTRL => { base := 0x3001C, dims := [], reset := 0x23200, impl := 0xFFF1F, fw := 0xFFF1F }
  | .TWIN_FAR_INFO => { base := 0x30020, dims := [], reset := 0x0, impl := 0x73FFFF }
  | .TWIN_CFG_GEN => { base := 0x30024, dims := [], reset := 0x0, impl := 0xFFFF }
  | .TWIN_COMPAT => { base := 0x30028, dims := [], reset := 0x0, impl := 0xFFFF }
  | .TWIN_COMMIT_CNT => { base := 0x3002C, dims := [], reset := 0x0, impl := 0xFFFFFFFF }
  | .TWIN_SWAP_FRAME_LO => { base := 0x30030, dims := [], reset := 0x0, impl := 0xFFFFFFFF }
  | .TWIN_SWAP_FRAME_HI => { base := 0x30034, dims := [], reset := 0x0, impl := 0xFFFFFFFF }
  | .TWIN_LVDS_STATUS => { base := 0x30038, dims := [], reset := 0x0, impl := 0x8000FFFF }
  | .TWIN_ALARM => { base := 0x30040, dims := [], reset := 0x0, impl := 0xFFF, w1c := 0xFFF }
  | .TWIN_ALARM_EN => { base := 0x30044, dims := [], reset := 0x0, impl := 0xFFF, rw := 0xFFF }
  | .TWIN_CNT_FAILOVER => { base := 0x30050, dims := [], reset := 0x0, impl := 0xFFFFFFFF }
  | .TWIN_CNT_SWAP => { base := 0x30054, dims := [], reset := 0x0, impl := 0xFFFFFFFF }
  | .TWIN_CNT_LANE_MISS => { base := 0x30058, dims := [], reset := 0x0, impl := 0xFFFFFFFF }
  | .TWIN_CNT_LVDS_MISS => { base := 0x3005C, dims := [], reset := 0x0, impl := 0xFFFFFFFF }
  | .TWIN_CNT_SIG_MISMATCH => { base := 0x30060, dims := [], reset := 0x0, impl := 0xFFFFFFFF }
  | .TWIN_CNT_DECISION_LOCAL => { base := 0x30064, dims := [], reset := 0x0, impl := 0xFFFFFFFF }
  | .TWIN_CNT_DECISION_DIFFER => { base := 0x30068, dims := [], reset := 0x0, impl := 0xFFFFFFFF }
  | .TWIN_CNT_COMMIT_LATE => { base := 0x3006C, dims := [], reset := 0x0, impl := 0xFFFFFFFF }
  | .TWIN_CNT_RESYNC => { base := 0x30070, dims := [], reset := 0x0, impl := 0xFFFFFFFF }
  | .TWIN_CNT_CLEAR => { base := 0x30074, dims := [], reset := 0x0, impl := 0x0, wo := 0x1 }
  | .TWIN_SIG => { base := 0x31000, dims := [(1024, 0x8)], reset := 0x0, impl := 0xF000FFFF, fw := 0x10000000 }
  | .TWIN_SIG_FAR => { base := 0x31004, dims := [(1024, 0x8)], reset := 0x0, impl := 0xFFFFFFFF }
  | .GLB_ID => { base := 0x0, dims := [], reset := 0x10240000, impl := 0xFFFFFFFF }
  | .GLB_DIE_ID_LO => { base := 0x4, dims := [], reset := 0x0, impl := 0xFFFFFFFF }
  | .GLB_DIE_ID_HI => { base := 0x8, dims := [], reset := 0x0, impl := 0xFFFFFFFF }
  | .GLB_FW_VERSION => { base := 0xC, dims := [], reset := 0x0, impl := 0xFFFFFFFF }
  | .GLB_STATUS => { base := 0x10, dims := [], reset := 0x0, impl := 0x113 }
  | .GLB_HEARTBEAT => { base := 0x14, dims := [], reset := 0x0, impl := 0xFFFFFFFF }
  | .GLB_SCRATCH => { base := 0x18, dims := [], reset := 0x0, impl := 0xFFFFFFFF, rw := 0xFFFFFFFF }
  | .GLB_IRQ_STATUS => { base := 0x100, dims := [], reset := 0x0, impl := 0xFFFFF, view := true }
  | .GLB_IRQ_PIN_EN => { base := 0x104, dims := [], reset := 0x0, impl := 0xFFFFF, rw := 0xFFFFF }
  | .GLB_IRQ_MSI_EN => { base := 0x108, dims := [], reset := 0x0, impl := 0xFFFFF, rw := 0xFFFFF }
  | .GLB_IRQ_EOI => { base := 0x10C, dims := [], reset := 0x0, impl := 0x0, wo := 0x3F }
  | .GLB_FAULT_STATUS => { base := 0x110, dims := [], reset := 0x0, impl := 0x7FFFF, w1c := 0x7FFFF }
  | .GLB_ALARM => { base := 0x114, dims := [], reset := 0x0, impl := 0x3, w1c := 0x3 }
  | .GLB_ALARM_EN => { base := 0x118, dims := [], reset := 0x0, impl := 0x3, rw := 0x3 }
  | .GLB_IRQ_MAP => { base := 0x140, dims := [(20, 0x4)], reset := 0x0, impl := 0x3F, rw := 0x3F }
  | .GLB_AFL_STATUS => { base := 0x200, dims := [], reset := 0x0, impl := 0x8000003F, view := true }
  | .GLB_AFL_POP => { base := 0x204, dims := [], reset := 0x0, impl := 0x0, wo := 0x1 }
  | .GLB_AFL_E => { base := 0x210, dims := [(5, 0x4)], reset := 0x0, impl := 0xFFFFFFFF, view := true }
  | .GLB_CNT_AFL => { base := 0x230, dims := [], reset := 0x0, impl := 0xFFFFFFFF }
  | .GLB_CNT_AFL_DROP => { base := 0x234, dims := [], reset := 0x0, impl := 0xFFFFFFFF }
  | .GLB_CNT_CLEAR => { base := 0x238, dims := [], reset := 0x0, impl := 0x0, wo := 0x1 }
  | .GLB_SUM => { base := 0x1000, dims := [(20, 0x800), (512, 0x4)], reset := 0x0, impl := 0xFFFFFFFF, view := true }
  | .CMD_CTRL => { base := 0xE00000, dims := [], reset := 0x5DC00000, impl := 0xFFFF0001, fw := 0xFFFF0001 }
  | .CMD_STATUS => { base := 0xE00004, dims := [], reset := 0x0, impl := 0xFFFFFF }
  | .CMD_ALARM => { base := 0xE00008, dims := [], reset := 0x0, impl := 0xF, w1c := 0xF }
  | .CMD_ALARM_EN => { base := 0xE0000C, dims := [], reset := 0x0, impl := 0xF, rw := 0xF }
  | .CMD_CNT_RX => { base := 0xE00010, dims := [], reset := 0x0, impl := 0xFFFFFFFF }
  | .CMD_CNT_REJECTED => { base := 0xE00014, dims := [], reset := 0x0, impl := 0xFFFFFFFF }
  | .CMD_CNT_AUTH_FAIL => { base := 0xE00018, dims := [], reset := 0x0, impl := 0xFFFFFFFF }
  | .CMD_CNT_REPLAY => { base := 0xE0001C, dims := [], reset := 0x0, impl := 0xFFFFFFFF }
  | .CMD_CNT_DUP => { base := 0xE00020, dims := [], reset := 0x0, impl := 0xFFFFFFFF }
  | .CMD_CNT_DROP_CPL => { base := 0xE00024, dims := [], reset := 0x0, impl := 0xFFFFFFFF }
  | .CMD_COMMIT_LAT_MAX => { base := 0xE00028, dims := [], reset := 0x0, impl := 0xFFFF }
  | .CMD_CNT_CLEAR => { base := 0xE0002C, dims := [], reset := 0x0, impl := 0x0, wo := 0x1 }
  | .CMD_RING_CTRL => { base := 0xE01000, dims := [(16, 0x100)], reset := 0xFFFF0040, impl := 0xFFFF3FF1, rw := 0xFFFF3FF1, off := 0xF0 }
  | .CMD_RING_FSTATE => { base := 0xE01004, dims := [(16, 0x100)], reset := 0x0, impl := 0xFF0C0387 }
  | .CMD_RING_SQ_BASE_LO => { base := 0xE01008, dims := [(16, 0x100)], reset := 0x0, impl := 0xFFFFFFFF, rw := 0xFFFFFFFF, off := 0xFFFFFFFF }
  | .CMD_RING_SQ_BASE_HI => { base := 0xE0100C, dims := [(16, 0x100)], reset := 0x0, impl := 0xFFFFFFFF, rw := 0xFFFFFFFF, off := 0xFFFFFFFF }
  | .CMD_RING_CQ_BASE_LO => { base := 0xE01010, dims := [(16, 0x100)], reset := 0x0, impl := 0xFFFFFFFF, rw := 0xFFFFFFFF, off := 0xFFFFFFFF }
  | .CMD_RING_CQ_BASE_HI => { base := 0xE01014, dims := [(16, 0x100)], reset := 0x0, impl := 0xFFFFFFFF, rw := 0xFFFFFFFF, off := 0xFFFFFFFF }
  | .CMD_RING_SQ_HEAD => { base := 0xE01018, dims := [(16, 0x100)], reset := 0x0, impl := 0xFFF }
  | .CMD_RING_CQ_TAIL => { base := 0xE0101C, dims := [(16, 0x100)], reset := 0x80000000, impl := 0x80000FFF }
  | .CMD_RING_COAL => { base := 0xE01020, dims := [(16, 0x100)], reset := 0x1, impl := 0xFFFF00FF, rw := 0xFFFF00FF }
  | .CMD_RING_CNT_CMD => { base := 0xE01024, dims := [(16, 0x100)], reset := 0x0, impl := 0xFFFFFFFF }
  | .CMD_RING_CNT_CPL => { base := 0xE01028, dims := [(16, 0x100)], reset := 0x0, impl := 0xFFFFFFFF }
  | .CMD_SESS_STATE => { base := 0xE02000, dims := [(32, 0x40)], reset := 0x0, impl := 0xFFFF0001 }
  | .CMD_SESS_ID => { base := 0xE02004, dims := [(32, 0x40)], reset := 0x0, impl := 0xFFFFFFFF }
  | .CMD_SESS_PEER_PORT => { base := 0xE02008, dims := [(32, 0x40)], reset := 0x0, impl := 0xFFFF }
  | .CMD_SESS_PEER_ADDR => { base := 0xE0200C, dims := [(32, 0x40), (4, 0x4)], reset := 0x0, impl := 0xFFFFFFFF }
  | .CMD_SESS_IDLE_MS => { base := 0xE0201C, dims := [(32, 0x40)], reset := 0x0, impl := 0xFFFFFFFF }
  | .CMD_SESS_CNT_CMD => { base := 0xE02020, dims := [(32, 0x40)], reset := 0x0, impl := 0xFFFFFFFF }
  | .BOOT_STATUS => { base := 0x20000, dims := [], reset := 0x0, impl := 0xFF0F3330 }
  | .BOOT_FSTATE => { base := 0x20004, dims := [], reset := 0x0, impl := 0xFF0C0387 }
  | .BOOT_START_MS => { base := 0x20008, dims := [], reset := 0x0, impl := 0xFFFFFFFF }
  | .BOOT_RESET_CAUSE => { base := 0x2000C, dims := [], reset := 0x0, impl := 0x7 }
  | .BOOT_SLOT_A_VER => { base := 0x20010, dims := [], reset := 0x0, impl := 0xFFFFFFFF }
  | .BOOT_SLOT_B_VER => { base := 0x20014, dims := [], reset := 0x0, impl := 0xFFFFFFFF }
  | .BOOT_RECOVERY_VER => { base := 0x20018, dims := [], reset := 0x0, impl := 0xFFFFFFFF }
  | .BOOT_SECVER => { base := 0x2001C, dims := [], reset := 0x0, impl := 0xFF7F }
  | .BOOT_KEYS => { base := 0x20020, dims := [], reset := 0x0, impl := 0x1FF }
  | .BOOT_FORMATS => { base := 0x20024, dims := [], reset := 0x0, impl := 0xFFFFFFFF }
  | .BOOT_CFG_INFO => { base := 0x20028, dims := [], reset := 0x0, impl := 0xFFFF00FF }
  | .BOOT_UPD_STATE => { base := 0x20030, dims := [], reset := 0x0, impl := 0xF70000FF }
  | .BOOT_UPD_LEN => { base := 0x20034, dims := [], reset := 0x0, impl := 0xFFFFFFFF }
  | .BOOT_UPD_RECEIVED => { base := 0x20038, dims := [], reset := 0x0, impl := 0xFFFFFFFF }
  | .BOOT_UPD_IMAGE_ID => { base := 0x2003C, dims := [], reset := 0x0, impl := 0xFFFFFFFF }
  | .BOOT_UPD_FAIL => { base := 0x20040, dims := [], reset := 0x0, impl := 0xFFFF }
  | .BOOT_UPD_TIME_LO => { base := 0x20044, dims := [], reset := 0x0, impl := 0xFFFFFFFF }
  | .BOOT_UPD_TIME_HI => { base := 0x20048, dims := [], reset := 0x0, impl := 0xFFFF }
  | .BOOT_TRICKLE_CTRL => { base := 0x20050, dims := [], reset := 0x520A, impl := 0xE3FFFFFF, fw := 0xE3FFFFFF }
  | .BOOT_TRICKLE_COUNT => { base := 0x20054, dims := [], reset := 0x0, impl := 0xFFFFFFFF }
  | .BOOT_TRICKLE_TOTAL => { base := 0x20058, dims := [], reset := 0x0, impl := 0xFFFFFFFF }
  | .BOOT_MRAM_STATUS => { base := 0x20060, dims := [], reset := 0x0, impl := 0xFFFF7FFF }
  | .BOOT_MRAM_RATE => { base := 0x20064, dims := [], reset := 0x0, impl := 0xFFFF }
  | .BOOT_MRAM_WEAR => { base := 0x20068, dims := [], reset := 0x0, impl := 0xFFFFFFFF }
  | .BOOT_ALARM => { base := 0x20070, dims := [], reset := 0x0, impl := 0xFF, w1c := 0xFF }
  | .BOOT_ALARM_EN => { base := 0x20074, dims := [], reset := 0x0, impl := 0xFF, rw := 0xFF }
  | .BOOT_CNT_PIECE_OK => { base := 0x20080, dims := [], reset := 0x0, impl := 0xFFFFFFFF }
  | .BOOT_CNT_PIECE_BAD => { base := 0x20084, dims := [], reset := 0x0, impl := 0xFFFFFFFF }
  | .BOOT_CNT_PIECE_DUP => { base := 0x20088, dims := [], reset := 0x0, impl := 0xFFFFFFFF }
  | .BOOT_CNT_PIECE_OTHER => { base := 0x2008C, dims := [], reset := 0x0, impl := 0xFFFFFFFF }
  | .BOOT_CNT_FLASH_ERR => { base := 0x20090, dims := [], reset := 0x0, impl := 0xFFFFFFFF }
  | .BOOT_CNT_RESTORE_DROP => { base := 0x20094, dims := [], reset := 0x0, impl := 0xFFFFFFFF }
  | .BOOT_CNT_MRAM_CRC => { base := 0x20098, dims := [], reset := 0x0, impl := 0xFFFFFFFF }
  | .BOOT_CNT_CLEAR => { base := 0x2009C, dims := [], reset := 0x0, impl := 0x0, wo := 0x1 }
  | .PWR_CTRL => { base := 0x10000, dims := [], reset := 0x3, impl := 0x70000, fw := 0x70000 }
  | .PWR_FSTATE => { base := 0x10004, dims := [], reset := 0x2, impl := 0xFF0C0387 }
  | .PWR_STATUS => { base := 0x10008, dims := [], reset := 0x0, impl := 0x71F0310 }
  | .PWR_ALARM => { base := 0x1000C, dims := [], reset := 0x0, impl := 0x7FF, w1c := 0x7FF }
  | .PWR_ALARM_EN => { base := 0x10010, dims := [], reset := 0x0, impl := 0x7FF, rw := 0x7FF }
  | .PWR_AVS_WINDOW => { base := 0x10014, dims := [], reset := 0x352029E, impl := 0x3FF03FF, rw := 0x3FF03FF }
  | .PWR_AVS_STATUS => { base := 0x10018, dims := [], reset := 0x2EE, impl := 0x3FF03FF }
  | .PWR_VCORE => { base := 0x1001C, dims := [], reset := 0x0, impl := 0xFFFF03FF }
  | .PWR_WDOG => { base := 0x10020, dims := [], reset := 0x7D0, impl := 0x1FFFF, rw := 0x1FFFF }
  | .PWR_REPLACE => { base := 0x10024, dims := [], reset := 0x0, impl := 0x3FFF }
  | .PWR_REPLACE_FIRST => { base := 0x10028, dims := [], reset := 0x0, impl := 0xFF }
  | .PWR_THERM_CTRL => { base := 0x1002C, dims := [], reset := 0x64, impl := 0xFF, rw := 0xFF }
  | .PWR_TEMP_MAX => { base := 0x10030, dims := [], reset := 0x0, impl := 0xFFFF00FF }
  | .PWR_TOTAL => { base := 0x10034, dims := [], reset := 0x0, impl := 0xFFFF }
  | .PWR_LIMIT => { base := 0x10038, dims := [], reset := 0x122, impl := 0x1FF, rw := 0x1FF }
  | .PWR_EN_STATUS => { base := 0x1003C, dims := [], reset := 0x0, impl := 0xFFFF }
  | .PWR_DEBUG => { base := 0x10040, dims := [], reset := 0x0, impl := 0x103, rw := 0x100 }
  | .PWR_TELEM_CTRL => { base := 0x10044, dims := [], reset := 0x3E8, impl := 0xFFFF, fw := 0xFFFF }
  | .PWR_TELEM_SEQ => { base := 0x10048, dims := [], reset := 0x0, impl := 0xFFFFFFFF }
  | .PWR_CNT_SHED => { base := 0x10060, dims := [], reset := 0x0, impl := 0xFFFFFFFF }
  | .PWR_CNT_OVERRIDE => { base := 0x10064, dims := [], reset := 0x0, impl := 0xFFFFFFFF }
  | .PWR_CNT_PMBUS_ERR => { base := 0x10068, dims := [], reset := 0x0, impl := 0xFFFFFFFF }
  | .PWR_CNT_WDOG => { base := 0x1006C, dims := [], reset := 0x0, impl := 0xFFFFFFFF }
  | .PWR_CNT_UV_RESET => { base := 0x10070, dims := [], reset := 0x0, impl := 0xFFFFFFFF }
  | .PWR_CNT_CLEAR => { base := 0x10074, dims := [], reset := 0x0, impl := 0x0, wo := 0x1 }
  | .PWR_PMBUS_DEV => { base := 0x10100, dims := [(9, 0x10)], reset := 0x0, impl := 0xFF117F, fw := 0xFF117F }
  | .PWR_RAIL_V => { base := 0x10104, dims := [(9, 0x10)], reset := 0x0, impl := 0xFFFF }
  | .PWR_RAIL_P => { base := 0x10108, dims := [(9, 0x10)], reset := 0x0, impl := 0xFFFF }
  | .PWR_RAIL_STATUS => { base := 0x1010C, dims := [(9, 0x10)], reset := 0x0, impl := 0xFFFF }
  | .PWR_TELEM_W => { base := 0x10400, dims := [(32, 0x4)], reset := 0x0, impl := 0xFFFFFFFF }
  | .XPT_VIDEO => { base := 0x1000000, dims := [(1024, 0x10)], reset := 0xFFF, impl := 0x10FFF, view := true }
  | .XPT_ROUTES => { base := 0x1000004, dims := [(1024, 0x10)], reset := 0x3FFF0FFF, impl := 0x3FFF0FFF, view := true }
  | .XPT_HOLD => { base := 0x1000008, dims := [(1024, 0x10)], reset := 0x0, impl := 0x3FFFF, view := true }
  | .XPT_LANDED => { base := 0x100000C, dims := [(1024, 0x10)], reset := 0x0, impl := 0xFFFFFFFF, view := true }
  | .SURF_STATE => { base := 0x1004000, dims := [(256, 0x10)], reset := 0x0, impl := 0x1FFF7 }
  | .SURF_REFS => { base := 0x1004004, dims := [(256, 0x10)], reset := 0x0, impl := 0xFFFF }
  | .SURF_SIZE => { base := 0x1004008, dims := [(256, 0x10)], reset := 0x0, impl := 0xFFFFFFFF }
  | .PAT_KIND => { base := 0x1008000, dims := [(16, 0x10)], reset := 0x0, impl := 0xF, fw := 0xF }
  | .PAT_Y => { base := 0x1008004, dims := [(16, 0x10)], reset := 0x100, impl := 0xFFF, fw := 0xFFF }
  | .PAT_C => { base := 0x1008008, dims := [(16, 0x10)], reset := 0x800800, impl := 0xFFFFFF, fw := 0xFFFFFF }
  | .LUT3D_STATE => { base := 0x1010000, dims := [(64, 0x10)], reset := 0x0, impl := 0x3 }
  | .LUT3D_REFS => { base := 0x1010004, dims := [(64, 0x10)], reset := 0x0, impl := 0x3FF }
  | .LUT3D_LOADED => { base := 0x1010008, dims := [(64, 0x10)], reset := 0x0, impl := 0xFFFF }
  | .PRC_VIEW => { base := 0x1010400, dims := [], reset := 0x0, impl := 0x1FF003F, fw := 0x1FF003F }
  | .GLYPH_ID => { base := 0x1200000, dims := [(8192, 0x8)], reset := 0x0, impl := 0x807FFFFF }
  | .GLYPH_WIDTH => { base := 0x1200004, dims := [(8192, 0x8)], reset := 0x0, impl := 0x7F }
  | .FONT_HDR => { base := 0x1210000, dims := [(4, 0x10)], reset := 0x0, impl := 0x7F007F }
  | .FONT_DEFAULT_CP => { base := 0x1210004, dims := [(4, 0x10)], reset := 0x0, impl := 0x1FFFFF }
  | .FONT_GLYPHS => { base := 0x1210008, dims := [(4, 0x10)], reset := 0x0, impl := 0x3FFF }
  | .FADDR_IP => { base := 0x1300000, dims := [(16384, 0x20), (4, 0x4)], reset := 0x0, impl := 0xFFFFFFFF, fw := 0xFFFFFFFF }
  | .FADDR_UDP => { base := 0x1300010, dims := [(16384, 0x20)], reset := 0x0, impl := 0xFFFFFFFF, fw := 0xFFFFFFFF }
  | .FADDR_MAC_LO => { base := 0x1300014, dims := [(16384, 0x20)], reset := 0x0, impl := 0xFFFFFFFF, fw := 0xFFFFFFFF }
  | .FADDR_MAC_HI => { base := 0x1300018, dims := [(16384, 0x20)], reset := 0x0, impl := 0x8001FFFF, fw := 0x8001FFFF }
  | .AOUT_ROUTE => { base := 0x1400000, dims := [(32768, 0x8)], reset := 0x40000000, impl := 0xF0007FFF }
  | .AOUT_GAIN => { base := 0x1400004, dims := [(32768, 0x8)], reset := 0x0, impl := 0x77FFFFF }
  | .AIN_BIND => { base := 0x1440000, dims := [(32768, 0x4)], reset := 0x0, impl := 0xFDFFF03F }
  | .AIN_STATE => { base := 0x1460000, dims := [(32768, 0x4)], reset := 0x0, impl := 0x87FF0007 }
  | .AOUT_METER => { base := 0x1480000, dims := [(32768, 0x4)], reset := 0x5A0, impl := 0x107FF }
  | .ATX_DESC => { base := 0x14A0000, dims := [(8192, 0x8)], reset := 0x0, impl := 0x83107F00, fw := 0x83107F00 }
  | .ATX_FIRST => { base := 0x14A0004, dims := [(8192, 0x8)], reset := 0x0, impl := 0x7FFF, fw := 0x7FFF }
  | .ARX_DESC => { base := 0x14B0000, dims := [(8192, 0x8)], reset := 0x0, impl := 0x83107F00, fw := 0x83107F00 }

/-- The register kinds between 0x0 and 0xFFFF (R447, R448). -/
def glbKinds : List RK :=
  [.GLB_ID, .GLB_DIE_ID_LO, .GLB_DIE_ID_HI, .GLB_FW_VERSION, .GLB_STATUS, .GLB_HEARTBEAT, .GLB_SCRATCH,
    .GLB_IRQ_STATUS, .GLB_IRQ_PIN_EN, .GLB_IRQ_MSI_EN, .GLB_IRQ_EOI, .GLB_FAULT_STATUS, .GLB_ALARM,
    .GLB_ALARM_EN, .GLB_IRQ_MAP, .GLB_AFL_STATUS, .GLB_AFL_POP, .GLB_AFL_E, .GLB_CNT_AFL, .GLB_CNT_AFL_DROP,
    .GLB_CNT_CLEAR, .GLB_SUM]
/-- The register kinds between 0x10000 and 0x1FFFF (R447, R448). -/
def pwrKinds : List RK :=
  [.PWR_CTRL, .PWR_FSTATE, .PWR_STATUS, .PWR_ALARM, .PWR_ALARM_EN, .PWR_AVS_WINDOW, .PWR_AVS_STATUS, .PWR_VCORE,
    .PWR_WDOG, .PWR_REPLACE, .PWR_REPLACE_FIRST, .PWR_THERM_CTRL, .PWR_TEMP_MAX, .PWR_TOTAL, .PWR_LIMIT,
    .PWR_EN_STATUS, .PWR_DEBUG, .PWR_TELEM_CTRL, .PWR_TELEM_SEQ, .PWR_CNT_SHED, .PWR_CNT_OVERRIDE,
    .PWR_CNT_PMBUS_ERR, .PWR_CNT_WDOG, .PWR_CNT_UV_RESET, .PWR_CNT_CLEAR, .PWR_PMBUS_DEV, .PWR_RAIL_V,
    .PWR_RAIL_P, .PWR_RAIL_STATUS, .PWR_TELEM_W]
/-- The register kinds between 0x20000 and 0x2FFFF (R447, R448). -/
def bootKinds : List RK :=
  [.BOOT_STATUS, .BOOT_FSTATE, .BOOT_START_MS, .BOOT_RESET_CAUSE, .BOOT_SLOT_A_VER, .BOOT_SLOT_B_VER,
    .BOOT_RECOVERY_VER, .BOOT_SECVER, .BOOT_KEYS, .BOOT_FORMATS, .BOOT_CFG_INFO, .BOOT_UPD_STATE, .BOOT_UPD_LEN,
    .BOOT_UPD_RECEIVED, .BOOT_UPD_IMAGE_ID, .BOOT_UPD_FAIL, .BOOT_UPD_TIME_LO, .BOOT_UPD_TIME_HI,
    .BOOT_TRICKLE_CTRL, .BOOT_TRICKLE_COUNT, .BOOT_TRICKLE_TOTAL, .BOOT_MRAM_STATUS, .BOOT_MRAM_RATE,
    .BOOT_MRAM_WEAR, .BOOT_ALARM, .BOOT_ALARM_EN, .BOOT_CNT_PIECE_OK, .BOOT_CNT_PIECE_BAD, .BOOT_CNT_PIECE_DUP,
    .BOOT_CNT_PIECE_OTHER, .BOOT_CNT_FLASH_ERR, .BOOT_CNT_RESTORE_DROP, .BOOT_CNT_MRAM_CRC, .BOOT_CNT_CLEAR]
/-- The register kinds between 0x30000 and 0x3FFFF (R447, R448). -/
def twinKinds : List RK :=
  [.TWIN_CTRL, .TWIN_FSTATE, .TWIN_STATUS, .TWIN_PECK, .TWIN_TIMING, .TWIN_ADMIT, .TWIN_ADMIT_COUNT,
    .TWIN_SIG_CTRL, .TWIN_FAR_INFO, .TWIN_CFG_GEN, .TWIN_COMPAT, .TWIN_COMMIT_CNT, .TWIN_SWAP_FRAME_LO,
    .TWIN_SWAP_FRAME_HI, .TWIN_LVDS_STATUS, .TWIN_ALARM, .TWIN_ALARM_EN, .TWIN_CNT_FAILOVER, .TWIN_CNT_SWAP,
    .TWIN_CNT_LANE_MISS, .TWIN_CNT_LVDS_MISS, .TWIN_CNT_SIG_MISMATCH, .TWIN_CNT_DECISION_LOCAL,
    .TWIN_CNT_DECISION_DIFFER, .TWIN_CNT_COMMIT_LATE, .TWIN_CNT_RESYNC, .TWIN_CNT_CLEAR, .TWIN_SIG,
    .TWIN_SIG_FAR]
/-- The register kinds between 0x40000 and 0x40FFF (R447, R448). -/
def timeGlobalKinds : List RK :=
  [.TIME_SNAP, .TIME_STATUS, .TIME_UTC, .TIME_SNAP_FRAC, .TIME_SNAP_NS, .TIME_SNAP_SEC_LO, .TIME_SNAP_SEC_HI,
    .TIME_IRQ_STATUS, .TIME_IRQ_ENABLE]
/-- The register kinds between 0x41000 and 0x41FFF (R447, R448). -/
def timeBaseKinds : List RK :=
  [.TB_CTRL, .TB_FSTATE, .TB_LOCK, .TB_OFFSET, .TB_FREQ_ADJ, .TB_ADJ_VALUE, .TB_ADJ_CMD, .TB_SLEW,
    .TB_SET_SEC_HI, .TB_SET_SEC_LO, .TB_SET_NS, .TB_SET_CMD, .TB_ADJ_STATUS]
/-- The register kinds between 0x42000 and 0x42FFF (R447, R448). -/
def timeDpllKinds : List RK :=
  [.DPLL_CTRL, .DPLL_FSTATE, .DPLL_STATE, .DPLL_BW, .DPLL_SLEW, .DPLL_HOLDOVER, .DPLL_REALIGN,
    .DPLL_REALIGN_STATUS, .DPLL_BUILDOUT, .DPLL_CW, .DPLL_HO_VALUE, .DPLL_HO_SPAN]
/-- The register kinds between 0x43000 and 0x43FFF (R447, R448). -/
def timeRefKinds : List RK :=
  [.REF_CTRL, .REF_STATE, .REF_WTR, .REF_WTR_LEFT, .REF_DRIFT, .REF_FREQ, .REF_DRIFT_MEAN, .REF_ANA_FMT]
/-- The register kinds between 0x44000 and 0x44FFF (R447, R448). -/
def timeOtgKinds : List RK :=
  [.OTG_CTRL, .OTG_FSTATE, .OTG_OFFSET, .OTG_STATUS, .OTG_FRAME_LO, .OTG_FRAME_HI, .OTG_LAST_ADJ]
/-- The register kinds between 0x45000 and 0x45FFF (R447, R448). -/
def timePulseKinds : List RK :=
  [.PPS_OUT_CTRL, .FRAME_OUT_CTRL, .WCLK_OUT_CTRL]
/-- The register kinds between 0x46000 and 0x47FFF (R447, R448). -/
def timeEvtKinds : List RK :=
  [.EVT_CTRL, .EVT_SEC_HI, .EVT_SEC_LO, .EVT_NS, .EVT_STATUS]
/-- The register kinds between 0x48000 and 0x48FFF (R447, R448). -/
def timePortKinds : List RK :=
  [.PORT_PTP_CTRL, .PORT_RX_LAT, .PORT_TX_LAT, .PORT_ASYM]
/-- The register kinds between 0x80000 and 0x8FFFF (R447, R448). -/
def mtxKinds : List RK :=
  [.MTX_CTRL, .MTX_FSTATE, .MTX_WATCHDOG, .MTX_POOL, .MTX_STATUS, .MTX_ALARM, .MTX_ALARM_EN, .MTX_LOG_STATUS,
    .MTX_LOG_POP, .MTX_CNT_DECODE, .MTX_CNT_TIMEOUT, .MTX_CNT_LOG_DROP, .MTX_CNT_CLEAR, .MTX_LOG_E, .MTX_SQ_SEL,
    .MTX_SQ_STATE, .MTX_P_STATUS, .MTX_P_HELD, .MTX_P_CNT_RD, .MTX_P_CNT_WR, .MTX_P_CNT_POOL_WAIT, .MTX_P_PRIO]
/-- The register kinds between 0x100000 and 0x12FFFF (R447, R448). -/
def hbmKinds : List RK :=
  [.HBM_CTRL, .HBM_FSTATE, .HBM_INFO, .HBM_APERTURE, .HBM_SCRUB, .HBM_PNR, .HBM_REPAIR, .HBM_STATUS, .HBM_ALARM,
    .HBM_ALARM_EN, .HBM_BW_RD, .HBM_BW_WR, .HBM_PLAN, .HBM_PLAN_LIMIT, .HBM_CNT_CE, .HBM_CNT_UE,
    .HBM_CNT_POISON_READ, .HBM_CNT_SPARED, .HBM_CNT_PNR_DROP, .HBM_CNT_CLEAR, .HBM_ELOG_CTRL, .HBM_ELOG_STATUS,
    .HBM_ELOG_POP, .HBM_ELOG_E, .HBM_QOS_CTRL, .HBM_QOS_TARGET, .HBM_QOS_STATUS, .HBM_QOS_LATE, .HBM_FK_STATUS,
    .HBM_FK_CNT_CE, .HBM_FK_CNT_UE, .HBM_CH_CTRL, .HBM_CH_FSTATE, .HBM_CH_STATUS, .HBM_CH_REPAIR,
    .HBM_CH_CNT_CE, .HBM_CH_CNT_UE, .HBM_CH_CNT_DROP, .HBM_CH_BW]
/-- The register kinds between 0x200000 and 0x25FFFF (R447, R448). -/
def laneKinds : List RK :=
  [.LANE_CTRL, .LANE_FSTATE, .LANE_POL, .LANE_STATUS, .LANE_EQ_MODE, .LANE_EQ_BOUND, .LANE_EQ_BOUND2,
    .LANE_EQ_FIX, .LANE_EQ_STATE, .LANE_TX, .LANE_TXFFE_BOUND, .LANE_DFE, .LANE_TXFFE, .LANE_DFFE, .LANE_EYE_H,
    .LANE_EYE_W, .LANE_SNR, .LANE_MARGIN, .LANE_SCAN_CTRL, .LANE_SCAN_RESULT, .LANE_ALARM, .LANE_ALARM_EN,
    .LANE_CNT_SIGNAL_LOSS, .LANE_CNT_CDR_LOSS, .LANE_CNT_ADAPT, .LANE_CNT_MON_ERR, .LANE_CNT_CLEAR]
/-- The register kinds between 0x260000 and 0x26FFFF (R447, R448). -/
def quadKinds : List RK :=
  [.QUAD_CTRL, .QUAD_FSTATE, .QUAD_SWAP, .QUAD_STATUS, .QUAD_REFCLK_FREQ, .QUAD_ALARM, .QUAD_ALARM_EN,
    .QUAD_POWER]
/-- The register kinds between 0x300000 and 0x35FFFF (R447, R448). -/
def hlkKinds : List RK :=
  [.HLK_CTRL, .HLK_FSTATE, .HLK_STATE, .HLK_FAR_ID, .HLK_FAR_EPOCH, .HLK_PAIR_ID, .HLK_TIME_CTRL, .HLK_ASYM,
    .HLK_DELAY, .HLK_FAR_OFFSET, .HLK_FEC_COUNTER, .HLK_BUF_FILL, .HLK_ALARM, .HLK_ALARM_EN, .HLK_PLAN,
    .HLK_CNT_FEC_CORR, .HLK_CNT_FEC_UNCORR, .HLK_CNT_FRAME_GAP, .HLK_CNT_BLOCK_LOSS, .HLK_CNT_RETRAIN,
    .HLK_CNT_BAD_BLOCK, .HLK_CNT_SEG_RX, .HLK_CNT_SEG_TX, .HLK_CNT_SEG_BAD, .HLK_CNT_SEG_LOST,
    .HLK_CNT_BAD_KIND, .HLK_CNT_FILL_DEL, .HLK_CNT_FILL_INS, .HLK_CNT_PECK_RX, .HLK_CNT_CLEAR, .HLK_RXF_STATUS,
    .HLK_RXF_SEGS, .HLK_RXF_LOST, .HLK_RXF_BAD, .HLK_TXF_STATUS, .HLK_TXF_SEGS, .HLK_TXF_PLAN]
/-- The register kinds between 0x400000 and 0x45FFFF (R447, R448). -/
def sdiKinds : List RK :=
  [.SDI_CTRL, .SDI_FSTATE, .SDI_RX_CTRL, .SDI_RX_STATE, .SDI_RX_VPID, .SDI_RX_LAT, .SDI_RX_TWIN_DIFF,
    .SDI_RX_SKEW, .SDI_TX_CTRL, .SDI_TX_LAT, .SDI_STATUS, .SDI_ALARM, .SDI_ALARM_EN, .SDI_RX_EDH, .SDI_CNT_CRC,
    .SDI_CNT_LN, .SDI_CNT_TRS, .SDI_CNT_EDH_AP, .SDI_CNT_EDH_FF, .SDI_CNT_ERR_FRAMES, .SDI_CNT_ANC_CSUM,
    .SDI_CNT_AUD_ERR, .SDI_CNT_ANC_DROP, .SDI_CNT_LOS, .SDI_CNT_CLEAR]
/-- The register kinds between 0x500000 and 0x560FFF (R447, R448). -/
def macKinds : List RK :=
  [.MAC_CTRL, .MAC_FSTATE, .MAC_ADDR_LO, .MAC_ADDR_HI, .MAC_IPV4, .MAC_IPV6, .MAC_MAX_FRAME, .MAC_TX_THRESH,
    .MAC_STATUS, .MAC_ALARM, .MAC_ALARM_EN, .MAC_TC, .MAC_HASH, .MAC_GATE_CTRL, .MAC_GATE_BASE_SEC_LO,
    .MAC_GATE_BASE_SEC_HI, .MAC_GATE_BASE_NS, .MAC_GATE_CYCLE, .MAC_GATE_CMD, .MAC_GATE_STATUS,
    .MAC_CNT_RX_FRAMES, .MAC_CNT_RX_FCS, .MAC_CNT_RX_LEN, .MAC_CNT_RX_NOMATCH, .MAC_CNT_RX_FULL,
    .MAC_CNT_TX_FRAMES, .MAC_CNT_TX_UNDERRUN, .MAC_CNT_TX_LATE, .MAC_CNT_FEC_CORR, .MAC_CNT_FEC_UNCORR,
    .MAC_CNT_CLEAR, .MAC_GCL_ADMIN, .MAC_GCL_OPER]
/-- The register kinds between 0x570000 and 0x57FFFF (R447, R448). -/
def tsqKinds : List RK :=
  [.MAC_TSQ_STATUS, .MAC_TSQ_POP, .MAC_TSQ_NEXT_TAG, .MAC_TSQ_E, .MAC_CNT_TSQ_DROP, .MAC_TSQ_CNT_CLEAR]
/-- The register kinds between 0x600000 and 0x60FFFF (R447, R448). -/
def flowGlobalKinds : List RK :=
  [.FLOW_TABLE_USED, .FLOW_RX_ON, .FLOW_TX_ON, .FLOW_OPAQUE_USED, .FLOW_CNT_CLEAR, .FLOW_STAGE_FILL]
/-- The register kinds between 0x610000 and 0x6FFFFF (R447, R448). -/
def flowRxKinds : List RK :=
  [.FLOW_RX_CTRL, .FLOW_RX_FSTATE, .FLOW_RX_LEG, .FLOW_RX_ADDR, .FLOW_RX_MERGE, .FLOW_RX_STATUS, .FLOW_RX_ALARM,
    .FLOW_RX_ALARM_EN, .FLOW_RX_SSRC, .FLOW_RX_CNT_PKTS, .FLOW_RX_CNT_LOST, .FLOW_RX_CNT_ERR, .FLOW_RX_CNT_LATE,
    .FLOW_RX_CNT_DUP]
/-- The register kinds between 0x700000 and 0x7FFFFF (R447, R448). -/
def flowTxKinds : List RK :=
  [.FLOW_TX_CTRL, .FLOW_TX_FSTATE, .FLOW_TX_LEG, .FLOW_TX_ADDR, .FLOW_TX_SSRC, .FLOW_TX_TRO, .FLOW_TX_PKT,
    .FLOW_TX_TRS, .FLOW_TX_STATUS, .FLOW_TX_ALARM, .FLOW_TX_ALARM_EN, .FLOW_TX_SEQ, .FLOW_TX_CNT_PKTS,
    .FLOW_TX_CNT_LATE]
/-- The register kinds between 0x800000 and 0x8FFFFF (R447, R448). -/
def srcKinds : List RK :=
  [.SRC_CTRL, .SRC_FSTATE, .SRC_INPUT, .SRC_FMT, .SRC_FMT_DET, .SRC_GUARD, .SRC_TS, .SRC_STATUS, .SRC_ALARM,
    .SRC_ALARM_EN, .SRC_PHASE, .SRC_ARRIVAL_LAT, .SRC_SEQ, .SRC_HOG_BASE_LO, .SRC_HOG_BASE_HI, .SRC_HOG_SIZE,
    .SRC_MON_CTRL, .SRC_DIGEST, .SRC_COMPACT_RATIO, .SRC_CNT_FRAMES, .SRC_CNT_SKIPPED, .SRC_CNT_ABANDONED,
    .SRC_CNT_LATE, .SRC_CNT_CONCEAL, .SRC_CNT_UE, .SRC_CNT_OVERTAKE, .SRC_CNT_ANC_DROP, .SRC_CNT_LOCAL,
    .SRC_CNT_DIGEST_MISMATCH, .SRC_CNT_RAW_TILES, .SRC_CNT_CLEAR]
/-- The register kinds between 0x900000 and 0x9FFFFF (R447, R448). -/
def dstKinds : List RK :=
  [.DST_CTRL, .DST_FSTATE, .DST_OUTPUT, .DST_TAKE, .DST_BREAK, .DST_CUR_VIDEO, .DST_CUR_BREAK, .DST_LANDED_LO,
    .DST_LANDED_HI, .DST_HOLD, .DST_FILL_Y, .DST_FILL_C, .DST_OPQ, .DST_OVL_CTRL, .DST_OVL_POS,
    .DST_CUR_OVL_CTRL, .DST_CUR_OVL_POS, .DST_STATUS, .DST_ALARM, .DST_ALARM_EN, .DST_SHOWN_SEQ, .DST_CNT_TAKES,
    .DST_CNT_SUPERSEDED, .DST_CNT_NOT_READY, .DST_CNT_UNDERRUN, .DST_CNT_REPEAT, .DST_CNT_DROP, .DST_CNT_UE,
    .DST_CNT_OPQ_GAP, .DST_CNT_CLEAR]
/-- The register kinds between 0xA00000 and 0xAFFFFF (R447, R448). -/
def prcKinds : List RK :=
  [.PRC_CTRL, .PRC_FSTATE, .PRC_INPUT, .PRC_OUT_FMT, .PRC_OUT, .PRC_FUNC, .PRC_CROP_X, .PRC_CROP_Y, .PRC_SCALE,
    .PRC_FRC, .PRC_DEINT, .PRC_STATUS, .PRC_ALARM, .PRC_ALARM_EN, .PRC_ELLS, .PRC_LOAD, .PRC_ENG, .PRC_SEQ,
    .PRC_CNT_FRAMES, .PRC_CNT_LATE, .PRC_CNT_NO_FRAME, .PRC_CNT_UE, .PRC_CNT_REDUCED, .PRC_CNT_CLEAR,
    .PRC_MTX_COEF, .PRC_MTX_PRE, .PRC_MTX_POST]
/-- The register kinds between 0xB00000 and 0xB7FFFF (R447, R448). -/
def mvhKinds : List RK :=
  [.MVH_CTRL, .MVH_FSTATE, .MVH_OUT, .MVH_BG_Y, .MVH_BG_C, .MVH_MON, .MVH_METER, .MVH_TILES, .MVH_LOAD,
    .MVH_STATUS, .MVH_ALARM, .MVH_ALARM_EN, .MVH_SEQ, .MVH_CNT_FRAMES, .MVH_CNT_LATE, .MVH_CNT_TILE_LATE,
    .MVH_CNT_TILE_NOT_READY, .MVH_CNT_UE, .MVH_CNT_SCRUPLE_MISMATCH, .MVH_CNT_CLEAR, .MVH_T_SRC, .MVH_T_RECT_X,
    .MVH_T_RECT_Y, .MVH_T_DECO, .MVH_T_METER, .MVH_T_STATUS, .MVH_T_SHOWN_SEQ, .MVH_T_TEXT, .MVH_GR_CTRL,
    .MVH_GR_X, .MVH_GR_Y, .MVH_GR_EXPECT, .MVH_GR_PRED, .MVH_GR_MEAS, .MVH_GR_STATUS, .MVH_GR_CNT,
    .MVH_CLK_CTRL, .MVH_CLK_POS, .MVH_CLK_OFFSET, .MVH_PAL_Y, .MVH_PAL_C]
/-- The register kinds between 0xB80000 and 0xB8FFFF (R447, R448). -/
def dmonKinds : List RK :=
  [.DMON_CTRL, .DMON_THRESH, .DMON_DIGEST, .DMON_LUMA, .DMON_STATUS, .DMON_ALARM, .DMON_ALARM_EN, .DMON_SEQ]
/-- The register kinds between 0xC00000 and 0xCFFFFF (R447, R448). -/
def audKinds : List RK :=
  [.AUD_CTRL, .AUD_FSTATE, .AUD_STATUS, .AUD_ALARM, .AUD_ALARM_EN, .AUD_BLOCK_LO, .AUD_BLOCK_HI, .AUD_ASRC,
    .AUD_CNT_LOST, .AUD_CNT_SLIP, .AUD_CNT_LATE, .AUD_CNT_CLIP, .AUD_CNT_LOCAL, .AUD_CNT_SUPERSEDED,
    .AUD_CNT_UE, .AUD_CNT_CLEAR, .AUD_SGRP, .AUD_SGRP_DELAY, .AUD_DGRP, .AUD_DGRP_DELAY, .AUD_TONE,
    .AUD_TONE_LEVEL, .AUD_SIL_CTRL, .AUD_SIL_STATUS, .AUD_LG_CTRL, .AUD_LG_M, .AUD_LG_S, .AUD_LG_CH]
/-- The register kinds between 0xD00000 and 0xD0FFFF (R447, R448). -/
def sapKinds : List RK :=
  [.SAP_CTRL, .SAP_FSTATE, .SAP_FRAME, .SAP_RX_MASK, .SAP_TX_MASK, .SAP_TX, .SAP_QUAL, .SAP_CLK_STATE,
    .SAP_STATUS, .SAP_ALARM, .SAP_ALARM_EN, .SAP_FREQ, .SAP_QUAL_COUNT, .SAP_BUF_FILL, .SAP_CNT_DISCARD,
    .SAP_CNT_REQUAL, .SAP_CNT_CLOCK_LOST, .SAP_CNT_SLIP, .SAP_CNT_CLEAR]
/-- The register kinds between 0xE00000 and 0xE0FFFF (R447, R448). -/
def cmdKinds : List RK :=
  [.CMD_CTRL, .CMD_STATUS, .CMD_ALARM, .CMD_ALARM_EN, .CMD_CNT_RX, .CMD_CNT_REJECTED, .CMD_CNT_AUTH_FAIL,
    .CMD_CNT_REPLAY, .CMD_CNT_DUP, .CMD_CNT_DROP_CPL, .CMD_COMMIT_LAT_MAX, .CMD_CNT_CLEAR, .CMD_RING_CTRL,
    .CMD_RING_FSTATE, .CMD_RING_SQ_BASE_LO, .CMD_RING_SQ_BASE_HI, .CMD_RING_CQ_BASE_LO, .CMD_RING_CQ_BASE_HI,
    .CMD_RING_SQ_HEAD, .CMD_RING_CQ_TAIL, .CMD_RING_COAL, .CMD_RING_CNT_CMD, .CMD_RING_CNT_CPL, .CMD_SESS_STATE,
    .CMD_SESS_ID, .CMD_SESS_PEER_PORT, .CMD_SESS_PEER_ADDR, .CMD_SESS_IDLE_MS, .CMD_SESS_CNT_CMD]
/-- The register kinds between 0x1000000 and 0x1003FFF (R447, R448). -/
def xptKinds : List RK :=
  [.XPT_VIDEO, .XPT_ROUTES, .XPT_HOLD, .XPT_LANDED]
/-- The register kinds between 0x1004000 and 0x1004FFF (R447, R448). -/
def surfKinds : List RK :=
  [.SURF_STATE, .SURF_REFS, .SURF_SIZE]
/-- The register kinds between 0x1008000 and 0x10080FF (R447, R448). -/
def patternKinds : List RK :=
  [.PAT_KIND, .PAT_Y, .PAT_C]
/-- The register kinds between 0x1010000 and 0x1010403 (R447, R448). -/
def lut3dKinds : List RK :=
  [.LUT3D_STATE, .LUT3D_REFS, .LUT3D_LOADED, .PRC_VIEW]
/-- The register kinds between 0x1200000 and 0x121003F (R447, R448). -/
def fontKinds : List RK :=
  [.GLYPH_ID, .GLYPH_WIDTH, .FONT_HDR, .FONT_DEFAULT_CP, .FONT_GLYPHS]
/-- The register kinds between 0x1300000 and 0x137FFFF (R447, R448). -/
def flowAddrKinds : List RK :=
  [.FADDR_IP, .FADDR_UDP, .FADDR_MAC_LO, .FADDR_MAC_HI]
/-- The register kinds between 0x1400000 and 0x14BFFFF (R447, R448). -/
def audioTabKinds : List RK :=
  [.AOUT_ROUTE, .AOUT_GAIN, .AIN_BIND, .AIN_STATE, .AOUT_METER, .ATX_DESC, .ATX_FIRST, .ARX_DESC]

/-- The parts of the address map (R447, R448): first address, last address, register kinds. -/
def regGroups : List (Nat × Nat × List RK) :=
  [(0x0, 0xFFFF, glbKinds),
   (0x10000, 0x1FFFF, pwrKinds),
   (0x20000, 0x2FFFF, bootKinds),
   (0x30000, 0x3FFFF, twinKinds),
   (0x40000, 0x40FFF, timeGlobalKinds),
   (0x41000, 0x41FFF, timeBaseKinds),
   (0x42000, 0x42FFF, timeDpllKinds),
   (0x43000, 0x43FFF, timeRefKinds),
   (0x44000, 0x44FFF, timeOtgKinds),
   (0x45000, 0x45FFF, timePulseKinds),
   (0x46000, 0x47FFF, timeEvtKinds),
   (0x48000, 0x48FFF, timePortKinds),
   (0x80000, 0x8FFFF, mtxKinds),
   (0x100000, 0x12FFFF, hbmKinds),
   (0x200000, 0x25FFFF, laneKinds),
   (0x260000, 0x26FFFF, quadKinds),
   (0x300000, 0x35FFFF, hlkKinds),
   (0x400000, 0x45FFFF, sdiKinds),
   (0x500000, 0x560FFF, macKinds),
   (0x570000, 0x57FFFF, tsqKinds),
   (0x600000, 0x60FFFF, flowGlobalKinds),
   (0x610000, 0x6FFFFF, flowRxKinds),
   (0x700000, 0x7FFFFF, flowTxKinds),
   (0x800000, 0x8FFFFF, srcKinds),
   (0x900000, 0x9FFFFF, dstKinds),
   (0xA00000, 0xAFFFFF, prcKinds),
   (0xB00000, 0xB7FFFF, mvhKinds),
   (0xB80000, 0xB8FFFF, dmonKinds),
   (0xC00000, 0xCFFFFF, audKinds),
   (0xD00000, 0xD0FFFF, sapKinds),
   (0xE00000, 0xE0FFFF, cmdKinds),
   (0x1000000, 0x1003FFF, xptKinds),
   (0x1004000, 0x1004FFF, surfKinds),
   (0x1008000, 0x10080FF, patternKinds),
   (0x1010000, 0x1010403, lut3dKinds),
   (0x1200000, 0x121003F, fontKinds),
   (0x1300000, 0x137FFFF, flowAddrKinds),
   (0x1400000, 0x14BFFFF, audioTabKinds)]

end Sys2Proof.Machine

namespace Sys2Proof.Machine.R

abbrev TIME_SNAP : Reg := ⟨.TIME_SNAP, 0, 0, 0⟩
abbrev TIME_STATUS : Reg := ⟨.TIME_STATUS, 0, 0, 0⟩
abbrev TIME_UTC : Reg := ⟨.TIME_UTC, 0, 0, 0⟩
abbrev TIME_SNAP_FRAC (s : Nat) : Reg := ⟨.TIME_SNAP_FRAC, s, 0, 0⟩
abbrev TIME_SNAP_NS (s : Nat) : Reg := ⟨.TIME_SNAP_NS, s, 0, 0⟩
abbrev TIME_SNAP_SEC_LO (s : Nat) : Reg := ⟨.TIME_SNAP_SEC_LO, s, 0, 0⟩
abbrev TIME_SNAP_SEC_HI (s : Nat) : Reg := ⟨.TIME_SNAP_SEC_HI, s, 0, 0⟩
abbrev TIME_IRQ_STATUS : Reg := ⟨.TIME_IRQ_STATUS, 0, 0, 0⟩
abbrev TIME_IRQ_ENABLE : Reg := ⟨.TIME_IRQ_ENABLE, 0, 0, 0⟩
abbrev TB_CTRL (n : Nat) : Reg := ⟨.TB_CTRL, n, 0, 0⟩
abbrev TB_FSTATE (n : Nat) : Reg := ⟨.TB_FSTATE, n, 0, 0⟩
abbrev TB_LOCK (n : Nat) : Reg := ⟨.TB_LOCK, n, 0, 0⟩
abbrev TB_OFFSET (n : Nat) : Reg := ⟨.TB_OFFSET, n, 0, 0⟩
abbrev TB_FREQ_ADJ (n : Nat) : Reg := ⟨.TB_FREQ_ADJ, n, 0, 0⟩
abbrev TB_ADJ_VALUE (n : Nat) : Reg := ⟨.TB_ADJ_VALUE, n, 0, 0⟩
abbrev TB_ADJ_CMD (n : Nat) : Reg := ⟨.TB_ADJ_CMD, n, 0, 0⟩
abbrev TB_SLEW (n : Nat) : Reg := ⟨.TB_SLEW, n, 0, 0⟩
abbrev TB_SET_SEC_HI (n : Nat) : Reg := ⟨.TB_SET_SEC_HI, n, 0, 0⟩
abbrev TB_SET_SEC_LO (n : Nat) : Reg := ⟨.TB_SET_SEC_LO, n, 0, 0⟩
abbrev TB_SET_NS (n : Nat) : Reg := ⟨.TB_SET_NS, n, 0, 0⟩
abbrev TB_SET_CMD (n : Nat) : Reg := ⟨.TB_SET_CMD, n, 0, 0⟩
abbrev TB_ADJ_STATUS (n : Nat) : Reg := ⟨.TB_ADJ_STATUS, n, 0, 0⟩
abbrev DPLL_CTRL : Reg := ⟨.DPLL_CTRL, 0, 0, 0⟩
abbrev DPLL_FSTATE : Reg := ⟨.DPLL_FSTATE, 0, 0, 0⟩
abbrev DPLL_STATE : Reg := ⟨.DPLL_STATE, 0, 0, 0⟩
abbrev DPLL_BW : Reg := ⟨.DPLL_BW, 0, 0, 0⟩
abbrev DPLL_SLEW : Reg := ⟨.DPLL_SLEW, 0, 0, 0⟩
abbrev DPLL_HOLDOVER : Reg := ⟨.DPLL_HOLDOVER, 0, 0, 0⟩
abbrev DPLL_REALIGN : Reg := ⟨.DPLL_REALIGN, 0, 0, 0⟩
abbrev DPLL_REALIGN_STATUS : Reg := ⟨.DPLL_REALIGN_STATUS, 0, 0, 0⟩
abbrev DPLL_BUILDOUT : Reg := ⟨.DPLL_BUILDOUT, 0, 0, 0⟩
abbrev DPLL_CW : Reg := ⟨.DPLL_CW, 0, 0, 0⟩
abbrev DPLL_HO_VALUE : Reg := ⟨.DPLL_HO_VALUE, 0, 0, 0⟩
abbrev DPLL_HO_SPAN : Reg := ⟨.DPLL_HO_SPAN, 0, 0, 0⟩
abbrev REF_CTRL (n : Nat) : Reg := ⟨.REF_CTRL, n, 0, 0⟩
abbrev REF_STATE (n : Nat) : Reg := ⟨.REF_STATE, n, 0, 0⟩
abbrev REF_WTR (n : Nat) : Reg := ⟨.REF_WTR, n, 0, 0⟩
abbrev REF_WTR_LEFT (n : Nat) : Reg := ⟨.REF_WTR_LEFT, n, 0, 0⟩
abbrev REF_DRIFT (n : Nat) : Reg := ⟨.REF_DRIFT, n, 0, 0⟩
abbrev REF_FREQ (n : Nat) : Reg := ⟨.REF_FREQ, n, 0, 0⟩
abbrev REF_DRIFT_MEAN (n : Nat) : Reg := ⟨.REF_DRIFT_MEAN, n, 0, 0⟩
abbrev REF_ANA_FMT (n : Nat) : Reg := ⟨.REF_ANA_FMT, n, 0, 0⟩
abbrev OTG_CTRL (n : Nat) : Reg := ⟨.OTG_CTRL, n, 0, 0⟩
abbrev OTG_FSTATE (n : Nat) : Reg := ⟨.OTG_FSTATE, n, 0, 0⟩
abbrev OTG_OFFSET (n : Nat) : Reg := ⟨.OTG_OFFSET, n, 0, 0⟩
abbrev OTG_STATUS (n : Nat) : Reg := ⟨.OTG_STATUS, n, 0, 0⟩
abbrev OTG_FRAME_LO (n : Nat) : Reg := ⟨.OTG_FRAME_LO, n, 0, 0⟩
abbrev OTG_FRAME_HI (n : Nat) : Reg := ⟨.OTG_FRAME_HI, n, 0, 0⟩
abbrev OTG_LAST_ADJ (n : Nat) : Reg := ⟨.OTG_LAST_ADJ, n, 0, 0⟩
abbrev PPS_OUT_CTRL : Reg := ⟨.PPS_OUT_CTRL, 0, 0, 0⟩
abbrev FRAME_OUT_CTRL (n : Nat) : Reg := ⟨.FRAME_OUT_CTRL, n, 0, 0⟩
abbrev WCLK_OUT_CTRL (n : Nat) : Reg := ⟨.WCLK_OUT_CTRL, n, 0, 0⟩
abbrev EVT_CTRL (n : Nat) : Reg := ⟨.EVT_CTRL, n, 0, 0⟩
abbrev EVT_SEC_HI (n : Nat) : Reg := ⟨.EVT_SEC_HI, n, 0, 0⟩
abbrev EVT_SEC_LO (n : Nat) : Reg := ⟨.EVT_SEC_LO, n, 0, 0⟩
abbrev EVT_NS (n : Nat) : Reg := ⟨.EVT_NS, n, 0, 0⟩
abbrev EVT_STATUS (n : Nat) : Reg := ⟨.EVT_STATUS, n, 0, 0⟩
abbrev PORT_PTP_CTRL (n : Nat) : Reg := ⟨.PORT_PTP_CTRL, n, 0, 0⟩
abbrev PORT_RX_LAT (n : Nat) : Reg := ⟨.PORT_RX_LAT, n, 0, 0⟩
abbrev PORT_TX_LAT (n : Nat) : Reg := ⟨.PORT_TX_LAT, n, 0, 0⟩
abbrev PORT_ASYM (n : Nat) : Reg := ⟨.PORT_ASYM, n, 0, 0⟩
abbrev SRC_CTRL (n : Nat) : Reg := ⟨.SRC_CTRL, n, 0, 0⟩
abbrev SRC_FSTATE (n : Nat) : Reg := ⟨.SRC_FSTATE, n, 0, 0⟩
abbrev SRC_INPUT (n : Nat) : Reg := ⟨.SRC_INPUT, n, 0, 0⟩
abbrev SRC_FMT (n : Nat) : Reg := ⟨.SRC_FMT, n, 0, 0⟩
abbrev SRC_FMT_DET (n : Nat) : Reg := ⟨.SRC_FMT_DET, n, 0, 0⟩
abbrev SRC_GUARD (n : Nat) : Reg := ⟨.SRC_GUARD, n, 0, 0⟩
abbrev SRC_TS (n : Nat) : Reg := ⟨.SRC_TS, n, 0, 0⟩
abbrev SRC_STATUS (n : Nat) : Reg := ⟨.SRC_STATUS, n, 0, 0⟩
abbrev SRC_ALARM (n : Nat) : Reg := ⟨.SRC_ALARM, n, 0, 0⟩
abbrev SRC_ALARM_EN (n : Nat) : Reg := ⟨.SRC_ALARM_EN, n, 0, 0⟩
abbrev SRC_PHASE (n : Nat) : Reg := ⟨.SRC_PHASE, n, 0, 0⟩
abbrev SRC_ARRIVAL_LAT (n : Nat) : Reg := ⟨.SRC_ARRIVAL_LAT, n, 0, 0⟩
abbrev SRC_SEQ (n : Nat) : Reg := ⟨.SRC_SEQ, n, 0, 0⟩
abbrev SRC_HOG_BASE_LO (n : Nat) : Reg := ⟨.SRC_HOG_BASE_LO, n, 0, 0⟩
abbrev SRC_HOG_BASE_HI (n : Nat) : Reg := ⟨.SRC_HOG_BASE_HI, n, 0, 0⟩
abbrev SRC_HOG_SIZE (n : Nat) : Reg := ⟨.SRC_HOG_SIZE, n, 0, 0⟩
abbrev SRC_MON_CTRL (n : Nat) : Reg := ⟨.SRC_MON_CTRL, n, 0, 0⟩
abbrev SRC_DIGEST (n : Nat) : Reg := ⟨.SRC_DIGEST, n, 0, 0⟩
abbrev SRC_COMPACT_RATIO (n : Nat) : Reg := ⟨.SRC_COMPACT_RATIO, n, 0, 0⟩
abbrev SRC_CNT_FRAMES (n : Nat) : Reg := ⟨.SRC_CNT_FRAMES, n, 0, 0⟩
abbrev SRC_CNT_SKIPPED (n : Nat) : Reg := ⟨.SRC_CNT_SKIPPED, n, 0, 0⟩
abbrev SRC_CNT_ABANDONED (n : Nat) : Reg := ⟨.SRC_CNT_ABANDONED, n, 0, 0⟩
abbrev SRC_CNT_LATE (n : Nat) : Reg := ⟨.SRC_CNT_LATE, n, 0, 0⟩
abbrev SRC_CNT_CONCEAL (n : Nat) : Reg := ⟨.SRC_CNT_CONCEAL, n, 0, 0⟩
abbrev SRC_CNT_UE (n : Nat) : Reg := ⟨.SRC_CNT_UE, n, 0, 0⟩
abbrev SRC_CNT_OVERTAKE (n : Nat) : Reg := ⟨.SRC_CNT_OVERTAKE, n, 0, 0⟩
abbrev SRC_CNT_ANC_DROP (n : Nat) : Reg := ⟨.SRC_CNT_ANC_DROP, n, 0, 0⟩
abbrev SRC_CNT_LOCAL (n : Nat) : Reg := ⟨.SRC_CNT_LOCAL, n, 0, 0⟩
abbrev SRC_CNT_DIGEST_MISMATCH (n : Nat) : Reg := ⟨.SRC_CNT_DIGEST_MISMATCH, n, 0, 0⟩
abbrev SRC_CNT_RAW_TILES (n : Nat) : Reg := ⟨.SRC_CNT_RAW_TILES, n, 0, 0⟩
abbrev SRC_CNT_CLEAR (n : Nat) : Reg := ⟨.SRC_CNT_CLEAR, n, 0, 0⟩
abbrev DST_CTRL (n : Nat) : Reg := ⟨.DST_CTRL, n, 0, 0⟩
abbrev DST_FSTATE (n : Nat) : Reg := ⟨.DST_FSTATE, n, 0, 0⟩
abbrev DST_OUTPUT (n : Nat) : Reg := ⟨.DST_OUTPUT, n, 0, 0⟩
abbrev DST_TAKE (n : Nat) : Reg := ⟨.DST_TAKE, n, 0, 0⟩
abbrev DST_BREAK (n : Nat) : Reg := ⟨.DST_BREAK, n, 0, 0⟩
abbrev DST_CUR_VIDEO (n : Nat) : Reg := ⟨.DST_CUR_VIDEO, n, 0, 0⟩
abbrev DST_CUR_BREAK (n : Nat) : Reg := ⟨.DST_CUR_BREAK, n, 0, 0⟩
abbrev DST_LANDED_LO (n : Nat) : Reg := ⟨.DST_LANDED_LO, n, 0, 0⟩
abbrev DST_LANDED_HI (n : Nat) : Reg := ⟨.DST_LANDED_HI, n, 0, 0⟩
abbrev DST_HOLD (n : Nat) : Reg := ⟨.DST_HOLD, n, 0, 0⟩
abbrev DST_FILL_Y (n : Nat) : Reg := ⟨.DST_FILL_Y, n, 0, 0⟩
abbrev DST_FILL_C (n : Nat) : Reg := ⟨.DST_FILL_C, n, 0, 0⟩
abbrev DST_OPQ (n : Nat) : Reg := ⟨.DST_OPQ, n, 0, 0⟩
abbrev DST_OVL_CTRL (n n' : Nat) : Reg := ⟨.DST_OVL_CTRL, n, n', 0⟩
abbrev DST_OVL_POS (n n' : Nat) : Reg := ⟨.DST_OVL_POS, n, n', 0⟩
abbrev DST_CUR_OVL_CTRL (n n' : Nat) : Reg := ⟨.DST_CUR_OVL_CTRL, n, n', 0⟩
abbrev DST_CUR_OVL_POS (n n' : Nat) : Reg := ⟨.DST_CUR_OVL_POS, n, n', 0⟩
abbrev DST_STATUS (n : Nat) : Reg := ⟨.DST_STATUS, n, 0, 0⟩
abbrev DST_ALARM (n : Nat) : Reg := ⟨.DST_ALARM, n, 0, 0⟩
abbrev DST_ALARM_EN (n : Nat) : Reg := ⟨.DST_ALARM_EN, n, 0, 0⟩
abbrev DST_SHOWN_SEQ (n : Nat) : Reg := ⟨.DST_SHOWN_SEQ, n, 0, 0⟩
abbrev DST_CNT_TAKES (n : Nat) : Reg := ⟨.DST_CNT_TAKES, n, 0, 0⟩
abbrev DST_CNT_SUPERSEDED (n : Nat) : Reg := ⟨.DST_CNT_SUPERSEDED, n, 0, 0⟩
abbrev DST_CNT_NOT_READY (n : Nat) : Reg := ⟨.DST_CNT_NOT_READY, n, 0, 0⟩
abbrev DST_CNT_UNDERRUN (n : Nat) : Reg := ⟨.DST_CNT_UNDERRUN, n, 0, 0⟩
abbrev DST_CNT_REPEAT (n : Nat) : Reg := ⟨.DST_CNT_REPEAT, n, 0, 0⟩
abbrev DST_CNT_DROP (n : Nat) : Reg := ⟨.DST_CNT_DROP, n, 0, 0⟩
abbrev DST_CNT_UE (n : Nat) : Reg := ⟨.DST_CNT_UE, n, 0, 0⟩
abbrev DST_CNT_OPQ_GAP (n : Nat) : Reg := ⟨.DST_CNT_OPQ_GAP, n, 0, 0⟩
abbrev DST_CNT_CLEAR (n : Nat) : Reg := ⟨.DST_CNT_CLEAR, n, 0, 0⟩
abbrev PRC_CTRL (p : Nat) : Reg := ⟨.PRC_CTRL, p, 0, 0⟩
abbrev PRC_FSTATE (p : Nat) : Reg := ⟨.PRC_FSTATE, p, 0, 0⟩
abbrev PRC_INPUT (p : Nat) : Reg := ⟨.PRC_INPUT, p, 0, 0⟩
abbrev PRC_OUT_FMT (p : Nat) : Reg := ⟨.PRC_OUT_FMT, p, 0, 0⟩
abbrev PRC_OUT (p : Nat) : Reg := ⟨.PRC_OUT, p, 0, 0⟩
abbrev PRC_FUNC (p : Nat) : Reg := ⟨.PRC_FUNC, p, 0, 0⟩
abbrev PRC_CROP_X (p : Nat) : Reg := ⟨.PRC_CROP_X, p, 0, 0⟩
abbrev PRC_CROP_Y (p : Nat) : Reg := ⟨.PRC_CROP_Y, p, 0, 0⟩
abbrev PRC_SCALE (p : Nat) : Reg := ⟨.PRC_SCALE, p, 0, 0⟩
abbrev PRC_FRC (p : Nat) : Reg := ⟨.PRC_FRC, p, 0, 0⟩
abbrev PRC_DEINT (p : Nat) : Reg := ⟨.PRC_DEINT, p, 0, 0⟩
abbrev PRC_STATUS (p : Nat) : Reg := ⟨.PRC_STATUS, p, 0, 0⟩
abbrev PRC_ALARM (p : Nat) : Reg := ⟨.PRC_ALARM, p, 0, 0⟩
abbrev PRC_ALARM_EN (p : Nat) : Reg := ⟨.PRC_ALARM_EN, p, 0, 0⟩
abbrev PRC_ELLS (p : Nat) : Reg := ⟨.PRC_ELLS, p, 0, 0⟩
abbrev PRC_LOAD (p : Nat) : Reg := ⟨.PRC_LOAD, p, 0, 0⟩
abbrev PRC_ENG (p : Nat) : Reg := ⟨.PRC_ENG, p, 0, 0⟩
abbrev PRC_SEQ (p : Nat) : Reg := ⟨.PRC_SEQ, p, 0, 0⟩
abbrev PRC_CNT_FRAMES (p : Nat) : Reg := ⟨.PRC_CNT_FRAMES, p, 0, 0⟩
abbrev PRC_CNT_LATE (p : Nat) : Reg := ⟨.PRC_CNT_LATE, p, 0, 0⟩
abbrev PRC_CNT_NO_FRAME (p : Nat) : Reg := ⟨.PRC_CNT_NO_FRAME, p, 0, 0⟩
abbrev PRC_CNT_UE (p : Nat) : Reg := ⟨.PRC_CNT_UE, p, 0, 0⟩
abbrev PRC_CNT_REDUCED (p : Nat) : Reg := ⟨.PRC_CNT_REDUCED, p, 0, 0⟩
abbrev PRC_CNT_CLEAR (p : Nat) : Reg := ⟨.PRC_CNT_CLEAR, p, 0, 0⟩
abbrev PRC_MTX_COEF (p m i : Nat) : Reg := ⟨.PRC_MTX_COEF, p, m, i⟩
abbrev PRC_MTX_PRE (p m c : Nat) : Reg := ⟨.PRC_MTX_PRE, p, m, c⟩
abbrev PRC_MTX_POST (p m r : Nat) : Reg := ⟨.PRC_MTX_POST, p, m, r⟩
abbrev MVH_CTRL (h : Nat) : Reg := ⟨.MVH_CTRL, h, 0, 0⟩
abbrev MVH_FSTATE (h : Nat) : Reg := ⟨.MVH_FSTATE, h, 0, 0⟩
abbrev MVH_OUT (h : Nat) : Reg := ⟨.MVH_OUT, h, 0, 0⟩
abbrev MVH_BG_Y (h : Nat) : Reg := ⟨.MVH_BG_Y, h, 0, 0⟩
abbrev MVH_BG_C (h : Nat) : Reg := ⟨.MVH_BG_C, h, 0, 0⟩
abbrev MVH_MON (h : Nat) : Reg := ⟨.MVH_MON, h, 0, 0⟩
abbrev MVH_METER (h : Nat) : Reg := ⟨.MVH_METER, h, 0, 0⟩
abbrev MVH_TILES (h : Nat) : Reg := ⟨.MVH_TILES, h, 0, 0⟩
abbrev MVH_LOAD (h : Nat) : Reg := ⟨.MVH_LOAD, h, 0, 0⟩
abbrev MVH_STATUS (h : Nat) : Reg := ⟨.MVH_STATUS, h, 0, 0⟩
abbrev MVH_ALARM (h : Nat) : Reg := ⟨.MVH_ALARM, h, 0, 0⟩
abbrev MVH_ALARM_EN (h : Nat) : Reg := ⟨.MVH_ALARM_EN, h, 0, 0⟩
abbrev MVH_SEQ (h : Nat) : Reg := ⟨.MVH_SEQ, h, 0, 0⟩
abbrev MVH_CNT_FRAMES (h : Nat) : Reg := ⟨.MVH_CNT_FRAMES, h, 0, 0⟩
abbrev MVH_CNT_LATE (h : Nat) : Reg := ⟨.MVH_CNT_LATE, h, 0, 0⟩
abbrev MVH_CNT_TILE_LATE (h : Nat) : Reg := ⟨.MVH_CNT_TILE_LATE, h, 0, 0⟩
abbrev MVH_CNT_TILE_NOT_READY (h : Nat) : Reg := ⟨.MVH_CNT_TILE_NOT_READY, h, 0, 0⟩
abbrev MVH_CNT_UE (h : Nat) : Reg := ⟨.MVH_CNT_UE, h, 0, 0⟩
abbrev MVH_CNT_SCRUPLE_MISMATCH (h : Nat) : Reg := ⟨.MVH_CNT_SCRUPLE_MISMATCH, h, 0, 0⟩
abbrev MVH_CNT_CLEAR (h : Nat) : Reg := ⟨.MVH_CNT_CLEAR, h, 0, 0⟩
abbrev MVH_T_SRC (h t : Nat) : Reg := ⟨.MVH_T_SRC, h, t, 0⟩
abbrev MVH_T_RECT_X (h t : Nat) : Reg := ⟨.MVH_T_RECT_X, h, t, 0⟩
abbrev MVH_T_RECT_Y (h t : Nat) : Reg := ⟨.MVH_T_RECT_Y, h, t, 0⟩
abbrev MVH_T_DECO (h t : Nat) : Reg := ⟨.MVH_T_DECO, h, t, 0⟩
abbrev MVH_T_METER (h t : Nat) : Reg := ⟨.MVH_T_METER, h, t, 0⟩
abbrev MVH_T_STATUS (h t : Nat) : Reg := ⟨.MVH_T_STATUS, h, t, 0⟩
abbrev MVH_T_SHOWN_SEQ (h t : Nat) : Reg := ⟨.MVH_T_SHOWN_SEQ, h, t, 0⟩
abbrev MVH_T_TEXT (h t i : Nat) : Reg := ⟨.MVH_T_TEXT, h, t, i⟩
abbrev MVH_GR_CTRL (h r : Nat) : Reg := ⟨.MVH_GR_CTRL, h, r, 0⟩
abbrev MVH_GR_X (h r : Nat) : Reg := ⟨.MVH_GR_X, h, r, 0⟩
abbrev MVH_GR_Y (h r : Nat) : Reg := ⟨.MVH_GR_Y, h, r, 0⟩
abbrev MVH_GR_EXPECT (h r : Nat) : Reg := ⟨.MVH_GR_EXPECT, h, r, 0⟩
abbrev MVH_GR_PRED (h r : Nat) : Reg := ⟨.MVH_GR_PRED, h, r, 0⟩
abbrev MVH_GR_MEAS (h r : Nat) : Reg := ⟨.MVH_GR_MEAS, h, r, 0⟩
abbrev MVH_GR_STATUS (h r : Nat) : Reg := ⟨.MVH_GR_STATUS, h, r, 0⟩
abbrev MVH_GR_CNT (h r : Nat) : Reg := ⟨.MVH_GR_CNT, h, r, 0⟩
abbrev MVH_CLK_CTRL (h c : Nat) : Reg := ⟨.MVH_CLK_CTRL, h, c, 0⟩
abbrev MVH_CLK_POS (h c : Nat) : Reg := ⟨.MVH_CLK_POS, h, c, 0⟩
abbrev MVH_CLK_OFFSET (h c : Nat) : Reg := ⟨.MVH_CLK_OFFSET, h, c, 0⟩
abbrev MVH_PAL_Y (h n : Nat) : Reg := ⟨.MVH_PAL_Y, h, n, 0⟩
abbrev MVH_PAL_C (h n : Nat) : Reg := ⟨.MVH_PAL_C, h, n, 0⟩
abbrev DMON_CTRL (n : Nat) : Reg := ⟨.DMON_CTRL, n, 0, 0⟩
abbrev DMON_THRESH (n : Nat) : Reg := ⟨.DMON_THRESH, n, 0, 0⟩
abbrev DMON_DIGEST (n : Nat) : Reg := ⟨.DMON_DIGEST, n, 0, 0⟩
abbrev DMON_LUMA (n : Nat) : Reg := ⟨.DMON_LUMA, n, 0, 0⟩
abbrev DMON_STATUS (n : Nat) : Reg := ⟨.DMON_STATUS, n, 0, 0⟩
abbrev DMON_ALARM (n : Nat) : Reg := ⟨.DMON_ALARM, n, 0, 0⟩
abbrev DMON_ALARM_EN (n : Nat) : Reg := ⟨.DMON_ALARM_EN, n, 0, 0⟩
abbrev DMON_SEQ (n : Nat) : Reg := ⟨.DMON_SEQ, n, 0, 0⟩
abbrev AUD_CTRL : Reg := ⟨.AUD_CTRL, 0, 0, 0⟩
abbrev AUD_FSTATE : Reg := ⟨.AUD_FSTATE, 0, 0, 0⟩
abbrev AUD_STATUS : Reg := ⟨.AUD_STATUS, 0, 0, 0⟩
abbrev AUD_ALARM : Reg := ⟨.AUD_ALARM, 0, 0, 0⟩
abbrev AUD_ALARM_EN : Reg := ⟨.AUD_ALARM_EN, 0, 0, 0⟩
abbrev AUD_BLOCK_LO : Reg := ⟨.AUD_BLOCK_LO, 0, 0, 0⟩
abbrev AUD_BLOCK_HI : Reg := ⟨.AUD_BLOCK_HI, 0, 0, 0⟩
abbrev AUD_ASRC : Reg := ⟨.AUD_ASRC, 0, 0, 0⟩
abbrev AUD_CNT_LOST : Reg := ⟨.AUD_CNT_LOST, 0, 0, 0⟩
abbrev AUD_CNT_SLIP : Reg := ⟨.AUD_CNT_SLIP, 0, 0, 0⟩
abbrev AUD_CNT_LATE : Reg := ⟨.AUD_CNT_LATE, 0, 0, 0⟩
abbrev AUD_CNT_CLIP : Reg := ⟨.AUD_CNT_CLIP, 0, 0, 0⟩
abbrev AUD_CNT_LOCAL : Reg := ⟨.AUD_CNT_LOCAL, 0, 0, 0⟩
abbrev AUD_CNT_SUPERSEDED : Reg := ⟨.AUD_CNT_SUPERSEDED, 0, 0, 0⟩
abbrev AUD_CNT_UE : Reg := ⟨.AUD_CNT_UE, 0, 0, 0⟩
abbrev AUD_CNT_CLEAR : Reg := ⟨.AUD_CNT_CLEAR, 0, 0, 0⟩
abbrev AUD_SGRP (n : Nat) : Reg := ⟨.AUD_SGRP, n, 0, 0⟩
abbrev AUD_SGRP_DELAY (n : Nat) : Reg := ⟨.AUD_SGRP_DELAY, n, 0, 0⟩
abbrev AUD_DGRP (n : Nat) : Reg := ⟨.AUD_DGRP, n, 0, 0⟩
abbrev AUD_DGRP_DELAY (n : Nat) : Reg := ⟨.AUD_DGRP_DELAY, n, 0, 0⟩
abbrev AUD_TONE (g : Nat) : Reg := ⟨.AUD_TONE, g, 0, 0⟩
abbrev AUD_TONE_LEVEL (g : Nat) : Reg := ⟨.AUD_TONE_LEVEL, g, 0, 0⟩
abbrev AUD_SIL_CTRL (d : Nat) : Reg := ⟨.AUD_SIL_CTRL, d, 0, 0⟩
abbrev AUD_SIL_STATUS (d : Nat) : Reg := ⟨.AUD_SIL_STATUS, d, 0, 0⟩
abbrev AUD_LG_CTRL (g : Nat) : Reg := ⟨.AUD_LG_CTRL, g, 0, 0⟩
abbrev AUD_LG_M (g : Nat) : Reg := ⟨.AUD_LG_M, g, 0, 0⟩
abbrev AUD_LG_S (g : Nat) : Reg := ⟨.AUD_LG_S, g, 0, 0⟩
abbrev AUD_LG_CH (g i : Nat) : Reg := ⟨.AUD_LG_CH, g, i, 0⟩
abbrev SAP_CTRL (p : Nat) : Reg := ⟨.SAP_CTRL, p, 0, 0⟩
abbrev SAP_FSTATE (p : Nat) : Reg := ⟨.SAP_FSTATE, p, 0, 0⟩
abbrev SAP_FRAME (p : Nat) : Reg := ⟨.SAP_FRAME, p, 0, 0⟩
abbrev SAP_RX_MASK (p : Nat) : Reg := ⟨.SAP_RX_MASK, p, 0, 0⟩
abbrev SAP_TX_MASK (p : Nat) : Reg := ⟨.SAP_TX_MASK, p, 0, 0⟩
abbrev SAP_TX (p : Nat) : Reg := ⟨.SAP_TX, p, 0, 0⟩
abbrev SAP_QUAL (p : Nat) : Reg := ⟨.SAP_QUAL, p, 0, 0⟩
abbrev SAP_CLK_STATE (p : Nat) : Reg := ⟨.SAP_CLK_STATE, p, 0, 0⟩
abbrev SAP_STATUS (p : Nat) : Reg := ⟨.SAP_STATUS, p, 0, 0⟩
abbrev SAP_ALARM (p : Nat) : Reg := ⟨.SAP_ALARM, p, 0, 0⟩
abbrev SAP_ALARM_EN (p : Nat) : Reg := ⟨.SAP_ALARM_EN, p, 0, 0⟩
abbrev SAP_FREQ (p : Nat) : Reg := ⟨.SAP_FREQ, p, 0, 0⟩
abbrev SAP_QUAL_COUNT (p : Nat) : Reg := ⟨.SAP_QUAL_COUNT, p, 0, 0⟩
abbrev SAP_BUF_FILL (p : Nat) : Reg := ⟨.SAP_BUF_FILL, p, 0, 0⟩
abbrev SAP_CNT_DISCARD (p : Nat) : Reg := ⟨.SAP_CNT_DISCARD, p, 0, 0⟩
abbrev SAP_CNT_REQUAL (p : Nat) : Reg := ⟨.SAP_CNT_REQUAL, p, 0, 0⟩
abbrev SAP_CNT_CLOCK_LOST (p : Nat) : Reg := ⟨.SAP_CNT_CLOCK_LOST, p, 0, 0⟩
abbrev SAP_CNT_SLIP (p : Nat) : Reg := ⟨.SAP_CNT_SLIP, p, 0, 0⟩
abbrev SAP_CNT_CLEAR (p : Nat) : Reg := ⟨.SAP_CNT_CLEAR, p, 0, 0⟩
abbrev HLK_CTRL (l : Nat) : Reg := ⟨.HLK_CTRL, l, 0, 0⟩
abbrev HLK_FSTATE (l : Nat) : Reg := ⟨.HLK_FSTATE, l, 0, 0⟩
abbrev HLK_STATE (l : Nat) : Reg := ⟨.HLK_STATE, l, 0, 0⟩
abbrev HLK_FAR_ID (l : Nat) : Reg := ⟨.HLK_FAR_ID, l, 0, 0⟩
abbrev HLK_FAR_EPOCH (l : Nat) : Reg := ⟨.HLK_FAR_EPOCH, l, 0, 0⟩
abbrev HLK_PAIR_ID (l : Nat) : Reg := ⟨.HLK_PAIR_ID, l, 0, 0⟩
abbrev HLK_TIME_CTRL (l : Nat) : Reg := ⟨.HLK_TIME_CTRL, l, 0, 0⟩
abbrev HLK_ASYM (l : Nat) : Reg := ⟨.HLK_ASYM, l, 0, 0⟩
abbrev HLK_DELAY (l : Nat) : Reg := ⟨.HLK_DELAY, l, 0, 0⟩
abbrev HLK_FAR_OFFSET (l : Nat) : Reg := ⟨.HLK_FAR_OFFSET, l, 0, 0⟩
abbrev HLK_FEC_COUNTER (l : Nat) : Reg := ⟨.HLK_FEC_COUNTER, l, 0, 0⟩
abbrev HLK_BUF_FILL (l : Nat) : Reg := ⟨.HLK_BUF_FILL, l, 0, 0⟩
abbrev HLK_ALARM (l : Nat) : Reg := ⟨.HLK_ALARM, l, 0, 0⟩
abbrev HLK_ALARM_EN (l : Nat) : Reg := ⟨.HLK_ALARM_EN, l, 0, 0⟩
abbrev HLK_PLAN (l : Nat) : Reg := ⟨.HLK_PLAN, l, 0, 0⟩
abbrev HLK_CNT_FEC_CORR (l : Nat) : Reg := ⟨.HLK_CNT_FEC_CORR, l, 0, 0⟩
abbrev HLK_CNT_FEC_UNCORR (l : Nat) : Reg := ⟨.HLK_CNT_FEC_UNCORR, l, 0, 0⟩
abbrev HLK_CNT_FRAME_GAP (l : Nat) : Reg := ⟨.HLK_CNT_FRAME_GAP, l, 0, 0⟩
abbrev HLK_CNT_BLOCK_LOSS (l : Nat) : Reg := ⟨.HLK_CNT_BLOCK_LOSS, l, 0, 0⟩
abbrev HLK_CNT_RETRAIN (l : Nat) : Reg := ⟨.HLK_CNT_RETRAIN, l, 0, 0⟩
abbrev HLK_CNT_BAD_BLOCK (l : Nat) : Reg := ⟨.HLK_CNT_BAD_BLOCK, l, 0, 0⟩
abbrev HLK_CNT_SEG_RX (l : Nat) : Reg := ⟨.HLK_CNT_SEG_RX, l, 0, 0⟩
abbrev HLK_CNT_SEG_TX (l : Nat) : Reg := ⟨.HLK_CNT_SEG_TX, l, 0, 0⟩
abbrev HLK_CNT_SEG_BAD (l : Nat) : Reg := ⟨.HLK_CNT_SEG_BAD, l, 0, 0⟩
abbrev HLK_CNT_SEG_LOST (l : Nat) : Reg := ⟨.HLK_CNT_SEG_LOST, l, 0, 0⟩
abbrev HLK_CNT_BAD_KIND (l : Nat) : Reg := ⟨.HLK_CNT_BAD_KIND, l, 0, 0⟩
abbrev HLK_CNT_FILL_DEL (l : Nat) : Reg := ⟨.HLK_CNT_FILL_DEL, l, 0, 0⟩
abbrev HLK_CNT_FILL_INS (l : Nat) : Reg := ⟨.HLK_CNT_FILL_INS, l, 0, 0⟩
abbrev HLK_CNT_PECK_RX (l : Nat) : Reg := ⟨.HLK_CNT_PECK_RX, l, 0, 0⟩
abbrev HLK_CNT_CLEAR (l : Nat) : Reg := ⟨.HLK_CNT_CLEAR, l, 0, 0⟩
abbrev HLK_RXF_STATUS (l f : Nat) : Reg := ⟨.HLK_RXF_STATUS, l, f, 0⟩
abbrev HLK_RXF_SEGS (l f : Nat) : Reg := ⟨.HLK_RXF_SEGS, l, f, 0⟩
abbrev HLK_RXF_LOST (l f : Nat) : Reg := ⟨.HLK_RXF_LOST, l, f, 0⟩
abbrev HLK_RXF_BAD (l f : Nat) : Reg := ⟨.HLK_RXF_BAD, l, f, 0⟩
abbrev HLK_TXF_STATUS (l f : Nat) : Reg := ⟨.HLK_TXF_STATUS, l, f, 0⟩
abbrev HLK_TXF_SEGS (l f : Nat) : Reg := ⟨.HLK_TXF_SEGS, l, f, 0⟩
abbrev HLK_TXF_PLAN (l f : Nat) : Reg := ⟨.HLK_TXF_PLAN, l, f, 0⟩
abbrev LANE_CTRL (l : Nat) : Reg := ⟨.LANE_CTRL, l, 0, 0⟩
abbrev LANE_FSTATE (l : Nat) : Reg := ⟨.LANE_FSTATE, l, 0, 0⟩
abbrev LANE_POL (l : Nat) : Reg := ⟨.LANE_POL, l, 0, 0⟩
abbrev LANE_STATUS (l : Nat) : Reg := ⟨.LANE_STATUS, l, 0, 0⟩
abbrev LANE_EQ_MODE (l : Nat) : Reg := ⟨.LANE_EQ_MODE, l, 0, 0⟩
abbrev LANE_EQ_BOUND (l : Nat) : Reg := ⟨.LANE_EQ_BOUND, l, 0, 0⟩
abbrev LANE_EQ_BOUND2 (l : Nat) : Reg := ⟨.LANE_EQ_BOUND2, l, 0, 0⟩
abbrev LANE_EQ_FIX (l : Nat) : Reg := ⟨.LANE_EQ_FIX, l, 0, 0⟩
abbrev LANE_EQ_STATE (l : Nat) : Reg := ⟨.LANE_EQ_STATE, l, 0, 0⟩
abbrev LANE_TX (l : Nat) : Reg := ⟨.LANE_TX, l, 0, 0⟩
abbrev LANE_TXFFE_BOUND (l : Nat) : Reg := ⟨.LANE_TXFFE_BOUND, l, 0, 0⟩
abbrev LANE_DFE (l i : Nat) : Reg := ⟨.LANE_DFE, l, i, 0⟩
abbrev LANE_TXFFE (l i : Nat) : Reg := ⟨.LANE_TXFFE, l, i, 0⟩
abbrev LANE_DFFE (l i : Nat) : Reg := ⟨.LANE_DFFE, l, i, 0⟩
abbrev LANE_EYE_H (l : Nat) : Reg := ⟨.LANE_EYE_H, l, 0, 0⟩
abbrev LANE_EYE_W (l : Nat) : Reg := ⟨.LANE_EYE_W, l, 0, 0⟩
abbrev LANE_SNR (l : Nat) : Reg := ⟨.LANE_SNR, l, 0, 0⟩
abbrev LANE_MARGIN (l : Nat) : Reg := ⟨.LANE_MARGIN, l, 0, 0⟩
abbrev LANE_SCAN_CTRL (l : Nat) : Reg := ⟨.LANE_SCAN_CTRL, l, 0, 0⟩
abbrev LANE_SCAN_RESULT (l : Nat) : Reg := ⟨.LANE_SCAN_RESULT, l, 0, 0⟩
abbrev LANE_ALARM (l : Nat) : Reg := ⟨.LANE_ALARM, l, 0, 0⟩
abbrev LANE_ALARM_EN (l : Nat) : Reg := ⟨.LANE_ALARM_EN, l, 0, 0⟩
abbrev LANE_CNT_SIGNAL_LOSS (l : Nat) : Reg := ⟨.LANE_CNT_SIGNAL_LOSS, l, 0, 0⟩
abbrev LANE_CNT_CDR_LOSS (l : Nat) : Reg := ⟨.LANE_CNT_CDR_LOSS, l, 0, 0⟩
abbrev LANE_CNT_ADAPT (l : Nat) : Reg := ⟨.LANE_CNT_ADAPT, l, 0, 0⟩
abbrev LANE_CNT_MON_ERR (l : Nat) : Reg := ⟨.LANE_CNT_MON_ERR, l, 0, 0⟩
abbrev LANE_CNT_CLEAR (l : Nat) : Reg := ⟨.LANE_CNT_CLEAR, l, 0, 0⟩
abbrev QUAD_CTRL (q : Nat) : Reg := ⟨.QUAD_CTRL, q, 0, 0⟩
abbrev QUAD_FSTATE (q : Nat) : Reg := ⟨.QUAD_FSTATE, q, 0, 0⟩
abbrev QUAD_SWAP (q : Nat) : Reg := ⟨.QUAD_SWAP, q, 0, 0⟩
abbrev QUAD_STATUS (q : Nat) : Reg := ⟨.QUAD_STATUS, q, 0, 0⟩
abbrev QUAD_REFCLK_FREQ (q : Nat) : Reg := ⟨.QUAD_REFCLK_FREQ, q, 0, 0⟩
abbrev QUAD_ALARM (q : Nat) : Reg := ⟨.QUAD_ALARM, q, 0, 0⟩
abbrev QUAD_ALARM_EN (q : Nat) : Reg := ⟨.QUAD_ALARM_EN, q, 0, 0⟩
abbrev QUAD_POWER (q : Nat) : Reg := ⟨.QUAD_POWER, q, 0, 0⟩
abbrev SDI_CTRL (l : Nat) : Reg := ⟨.SDI_CTRL, l, 0, 0⟩
abbrev SDI_FSTATE (l : Nat) : Reg := ⟨.SDI_FSTATE, l, 0, 0⟩
abbrev SDI_RX_CTRL (l : Nat) : Reg := ⟨.SDI_RX_CTRL, l, 0, 0⟩
abbrev SDI_RX_STATE (l : Nat) : Reg := ⟨.SDI_RX_STATE, l, 0, 0⟩
abbrev SDI_RX_VPID (l : Nat) : Reg := ⟨.SDI_RX_VPID, l, 0, 0⟩
abbrev SDI_RX_LAT (l : Nat) : Reg := ⟨.SDI_RX_LAT, l, 0, 0⟩
abbrev SDI_RX_TWIN_DIFF (l : Nat) : Reg := ⟨.SDI_RX_TWIN_DIFF, l, 0, 0⟩
abbrev SDI_RX_SKEW (l : Nat) : Reg := ⟨.SDI_RX_SKEW, l, 0, 0⟩
abbrev SDI_TX_CTRL (l : Nat) : Reg := ⟨.SDI_TX_CTRL, l, 0, 0⟩
abbrev SDI_TX_LAT (l : Nat) : Reg := ⟨.SDI_TX_LAT, l, 0, 0⟩
abbrev SDI_STATUS (l : Nat) : Reg := ⟨.SDI_STATUS, l, 0, 0⟩
abbrev SDI_ALARM (l : Nat) : Reg := ⟨.SDI_ALARM, l, 0, 0⟩
abbrev SDI_ALARM_EN (l : Nat) : Reg := ⟨.SDI_ALARM_EN, l, 0, 0⟩
abbrev SDI_RX_EDH (l : Nat) : Reg := ⟨.SDI_RX_EDH, l, 0, 0⟩
abbrev SDI_CNT_CRC (l : Nat) : Reg := ⟨.SDI_CNT_CRC, l, 0, 0⟩
abbrev SDI_CNT_LN (l : Nat) : Reg := ⟨.SDI_CNT_LN, l, 0, 0⟩
abbrev SDI_CNT_TRS (l : Nat) : Reg := ⟨.SDI_CNT_TRS, l, 0, 0⟩
abbrev SDI_CNT_EDH_AP (l : Nat) : Reg := ⟨.SDI_CNT_EDH_AP, l, 0, 0⟩
abbrev SDI_CNT_EDH_FF (l : Nat) : Reg := ⟨.SDI_CNT_EDH_FF, l, 0, 0⟩
abbrev SDI_CNT_ERR_FRAMES (l : Nat) : Reg := ⟨.SDI_CNT_ERR_FRAMES, l, 0, 0⟩
abbrev SDI_CNT_ANC_CSUM (l : Nat) : Reg := ⟨.SDI_CNT_ANC_CSUM, l, 0, 0⟩
abbrev SDI_CNT_AUD_ERR (l : Nat) : Reg := ⟨.SDI_CNT_AUD_ERR, l, 0, 0⟩
abbrev SDI_CNT_ANC_DROP (l : Nat) : Reg := ⟨.SDI_CNT_ANC_DROP, l, 0, 0⟩
abbrev SDI_CNT_LOS (l : Nat) : Reg := ⟨.SDI_CNT_LOS, l, 0, 0⟩
abbrev SDI_CNT_CLEAR (l : Nat) : Reg := ⟨.SDI_CNT_CLEAR, l, 0, 0⟩
abbrev MAC_CTRL (m : Nat) : Reg := ⟨.MAC_CTRL, m, 0, 0⟩
abbrev MAC_FSTATE (m : Nat) : Reg := ⟨.MAC_FSTATE, m, 0, 0⟩
abbrev MAC_ADDR_LO (m : Nat) : Reg := ⟨.MAC_ADDR_LO, m, 0, 0⟩
abbrev MAC_ADDR_HI (m : Nat) : Reg := ⟨.MAC_ADDR_HI, m, 0, 0⟩
abbrev MAC_IPV4 (m : Nat) : Reg := ⟨.MAC_IPV4, m, 0, 0⟩
abbrev MAC_IPV6 (m i : Nat) : Reg := ⟨.MAC_IPV6, m, i, 0⟩
abbrev MAC_MAX_FRAME (m : Nat) : Reg := ⟨.MAC_MAX_FRAME, m, 0, 0⟩
abbrev MAC_TX_THRESH (m : Nat) : Reg := ⟨.MAC_TX_THRESH, m, 0, 0⟩
abbrev MAC_STATUS (m : Nat) : Reg := ⟨.MAC_STATUS, m, 0, 0⟩
abbrev MAC_ALARM (m : Nat) : Reg := ⟨.MAC_ALARM, m, 0, 0⟩
abbrev MAC_ALARM_EN (m : Nat) : Reg := ⟨.MAC_ALARM_EN, m, 0, 0⟩
abbrev MAC_TC (m : Nat) : Reg := ⟨.MAC_TC, m, 0, 0⟩
abbrev MAC_HASH (m i : Nat) : Reg := ⟨.MAC_HASH, m, i, 0⟩
abbrev MAC_GATE_CTRL (m : Nat) : Reg := ⟨.MAC_GATE_CTRL, m, 0, 0⟩
abbrev MAC_GATE_BASE_SEC_LO (m : Nat) : Reg := ⟨.MAC_GATE_BASE_SEC_LO, m, 0, 0⟩
abbrev MAC_GATE_BASE_SEC_HI (m : Nat) : Reg := ⟨.MAC_GATE_BASE_SEC_HI, m, 0, 0⟩
abbrev MAC_GATE_BASE_NS (m : Nat) : Reg := ⟨.MAC_GATE_BASE_NS, m, 0, 0⟩
abbrev MAC_GATE_CYCLE (m : Nat) : Reg := ⟨.MAC_GATE_CYCLE, m, 0, 0⟩
abbrev MAC_GATE_CMD (m : Nat) : Reg := ⟨.MAC_GATE_CMD, m, 0, 0⟩
abbrev MAC_GATE_STATUS (m : Nat) : Reg := ⟨.MAC_GATE_STATUS, m, 0, 0⟩
abbrev MAC_CNT_RX_FRAMES (m : Nat) : Reg := ⟨.MAC_CNT_RX_FRAMES, m, 0, 0⟩
abbrev MAC_CNT_RX_FCS (m : Nat) : Reg := ⟨.MAC_CNT_RX_FCS, m, 0, 0⟩
abbrev MAC_CNT_RX_LEN (m : Nat) : Reg := ⟨.MAC_CNT_RX_LEN, m, 0, 0⟩
abbrev MAC_CNT_RX_NOMATCH (m : Nat) : Reg := ⟨.MAC_CNT_RX_NOMATCH, m, 0, 0⟩
abbrev MAC_CNT_RX_FULL (m : Nat) : Reg := ⟨.MAC_CNT_RX_FULL, m, 0, 0⟩
abbrev MAC_CNT_TX_FRAMES (m : Nat) : Reg := ⟨.MAC_CNT_TX_FRAMES, m, 0, 0⟩
abbrev MAC_CNT_TX_UNDERRUN (m : Nat) : Reg := ⟨.MAC_CNT_TX_UNDERRUN, m, 0, 0⟩
abbrev MAC_CNT_TX_LATE (m : Nat) : Reg := ⟨.MAC_CNT_TX_LATE, m, 0, 0⟩
abbrev MAC_CNT_FEC_CORR (m : Nat) : Reg := ⟨.MAC_CNT_FEC_CORR, m, 0, 0⟩
abbrev MAC_CNT_FEC_UNCORR (m : Nat) : Reg := ⟨.MAC_CNT_FEC_UNCORR, m, 0, 0⟩
abbrev MAC_CNT_CLEAR (m : Nat) : Reg := ⟨.MAC_CNT_CLEAR, m, 0, 0⟩
abbrev MAC_GCL_ADMIN (m e : Nat) : Reg := ⟨.MAC_GCL_ADMIN, m, e, 0⟩
abbrev MAC_GCL_OPER (m e : Nat) : Reg := ⟨.MAC_GCL_OPER, m, e, 0⟩
abbrev MAC_TSQ_STATUS : Reg := ⟨.MAC_TSQ_STATUS, 0, 0, 0⟩
abbrev MAC_TSQ_POP : Reg := ⟨.MAC_TSQ_POP, 0, 0, 0⟩
abbrev MAC_TSQ_NEXT_TAG : Reg := ⟨.MAC_TSQ_NEXT_TAG, 0, 0, 0⟩
abbrev MAC_TSQ_E (w : Nat) : Reg := ⟨.MAC_TSQ_E, w, 0, 0⟩
abbrev MAC_CNT_TSQ_DROP : Reg := ⟨.MAC_CNT_TSQ_DROP, 0, 0, 0⟩
abbrev MAC_TSQ_CNT_CLEAR : Reg := ⟨.MAC_TSQ_CNT_CLEAR, 0, 0, 0⟩
abbrev FLOW_TABLE_USED : Reg := ⟨.FLOW_TABLE_USED, 0, 0, 0⟩
abbrev FLOW_RX_ON : Reg := ⟨.FLOW_RX_ON, 0, 0, 0⟩
abbrev FLOW_TX_ON : Reg := ⟨.FLOW_TX_ON, 0, 0, 0⟩
abbrev FLOW_OPAQUE_USED : Reg := ⟨.FLOW_OPAQUE_USED, 0, 0, 0⟩
abbrev FLOW_CNT_CLEAR : Reg := ⟨.FLOW_CNT_CLEAR, 0, 0, 0⟩
abbrev FLOW_STAGE_FILL : Reg := ⟨.FLOW_STAGE_FILL, 0, 0, 0⟩
abbrev FLOW_RX_CTRL (q : Nat) : Reg := ⟨.FLOW_RX_CTRL, q, 0, 0⟩
abbrev FLOW_RX_FSTATE (q : Nat) : Reg := ⟨.FLOW_RX_FSTATE, q, 0, 0⟩
abbrev FLOW_RX_LEG (q n : Nat) : Reg := ⟨.FLOW_RX_LEG, q, n, 0⟩
abbrev FLOW_RX_ADDR (q n : Nat) : Reg := ⟨.FLOW_RX_ADDR, q, n, 0⟩
abbrev FLOW_RX_MERGE (q : Nat) : Reg := ⟨.FLOW_RX_MERGE, q, 0, 0⟩
abbrev FLOW_RX_STATUS (q : Nat) : Reg := ⟨.FLOW_RX_STATUS, q, 0, 0⟩
abbrev FLOW_RX_ALARM (q : Nat) : Reg := ⟨.FLOW_RX_ALARM, q, 0, 0⟩
abbrev FLOW_RX_ALARM_EN (q : Nat) : Reg := ⟨.FLOW_RX_ALARM_EN, q, 0, 0⟩
abbrev FLOW_RX_SSRC (q : Nat) : Reg := ⟨.FLOW_RX_SSRC, q, 0, 0⟩
abbrev FLOW_RX_CNT_PKTS (q : Nat) : Reg := ⟨.FLOW_RX_CNT_PKTS, q, 0, 0⟩
abbrev FLOW_RX_CNT_LOST (q : Nat) : Reg := ⟨.FLOW_RX_CNT_LOST, q, 0, 0⟩
abbrev FLOW_RX_CNT_ERR (q : Nat) : Reg := ⟨.FLOW_RX_CNT_ERR, q, 0, 0⟩
abbrev FLOW_RX_CNT_LATE (q : Nat) : Reg := ⟨.FLOW_RX_CNT_LATE, q, 0, 0⟩
abbrev FLOW_RX_CNT_DUP (q : Nat) : Reg := ⟨.FLOW_RX_CNT_DUP, q, 0, 0⟩
abbrev FLOW_TX_CTRL (q : Nat) : Reg := ⟨.FLOW_TX_CTRL, q, 0, 0⟩
abbrev FLOW_TX_FSTATE (q : Nat) : Reg := ⟨.FLOW_TX_FSTATE, q, 0, 0⟩
abbrev FLOW_TX_LEG (q n : Nat) : Reg := ⟨.FLOW_TX_LEG, q, n, 0⟩
abbrev FLOW_TX_ADDR (q n : Nat) : Reg := ⟨.FLOW_TX_ADDR, q, n, 0⟩
abbrev FLOW_TX_SSRC (q : Nat) : Reg := ⟨.FLOW_TX_SSRC, q, 0, 0⟩
abbrev FLOW_TX_TRO (q : Nat) : Reg := ⟨.FLOW_TX_TRO, q, 0, 0⟩
abbrev FLOW_TX_PKT (q : Nat) : Reg := ⟨.FLOW_TX_PKT, q, 0, 0⟩
abbrev FLOW_TX_TRS (q : Nat) : Reg := ⟨.FLOW_TX_TRS, q, 0, 0⟩
abbrev FLOW_TX_STATUS (q : Nat) : Reg := ⟨.FLOW_TX_STATUS, q, 0, 0⟩
abbrev FLOW_TX_ALARM (q : Nat) : Reg := ⟨.FLOW_TX_ALARM, q, 0, 0⟩
abbrev FLOW_TX_ALARM_EN (q : Nat) : Reg := ⟨.FLOW_TX_ALARM_EN, q, 0, 0⟩
abbrev FLOW_TX_SEQ (q : Nat) : Reg := ⟨.FLOW_TX_SEQ, q, 0, 0⟩
abbrev FLOW_TX_CNT_PKTS (q : Nat) : Reg := ⟨.FLOW_TX_CNT_PKTS, q, 0, 0⟩
abbrev FLOW_TX_CNT_LATE (q : Nat) : Reg := ⟨.FLOW_TX_CNT_LATE, q, 0, 0⟩
abbrev HBM_CTRL : Reg := ⟨.HBM_CTRL, 0, 0, 0⟩
abbrev HBM_FSTATE : Reg := ⟨.HBM_FSTATE, 0, 0, 0⟩
abbrev HBM_INFO : Reg := ⟨.HBM_INFO, 0, 0, 0⟩
abbrev HBM_APERTURE : Reg := ⟨.HBM_APERTURE, 0, 0, 0⟩
abbrev HBM_SCRUB : Reg := ⟨.HBM_SCRUB, 0, 0, 0⟩
abbrev HBM_PNR : Reg := ⟨.HBM_PNR, 0, 0, 0⟩
abbrev HBM_REPAIR : Reg := ⟨.HBM_REPAIR, 0, 0, 0⟩
abbrev HBM_STATUS : Reg := ⟨.HBM_STATUS, 0, 0, 0⟩
abbrev HBM_ALARM : Reg := ⟨.HBM_ALARM, 0, 0, 0⟩
abbrev HBM_ALARM_EN : Reg := ⟨.HBM_ALARM_EN, 0, 0, 0⟩
abbrev HBM_BW_RD : Reg := ⟨.HBM_BW_RD, 0, 0, 0⟩
abbrev HBM_BW_WR : Reg := ⟨.HBM_BW_WR, 0, 0, 0⟩
abbrev HBM_PLAN : Reg := ⟨.HBM_PLAN, 0, 0, 0⟩
abbrev HBM_PLAN_LIMIT : Reg := ⟨.HBM_PLAN_LIMIT, 0, 0, 0⟩
abbrev HBM_CNT_CE : Reg := ⟨.HBM_CNT_CE, 0, 0, 0⟩
abbrev HBM_CNT_UE : Reg := ⟨.HBM_CNT_UE, 0, 0, 0⟩
abbrev HBM_CNT_POISON_READ : Reg := ⟨.HBM_CNT_POISON_READ, 0, 0, 0⟩
abbrev HBM_CNT_SPARED : Reg := ⟨.HBM_CNT_SPARED, 0, 0, 0⟩
abbrev HBM_CNT_PNR_DROP : Reg := ⟨.HBM_CNT_PNR_DROP, 0, 0, 0⟩
abbrev HBM_CNT_CLEAR : Reg := ⟨.HBM_CNT_CLEAR, 0, 0, 0⟩
abbrev HBM_ELOG_CTRL : Reg := ⟨.HBM_ELOG_CTRL, 0, 0, 0⟩
abbrev HBM_ELOG_STATUS : Reg := ⟨.HBM_ELOG_STATUS, 0, 0, 0⟩
abbrev HBM_ELOG_POP : Reg := ⟨.HBM_ELOG_POP, 0, 0, 0⟩
abbrev HBM_ELOG_E (w : Nat) : Reg := ⟨.HBM_ELOG_E, w, 0, 0⟩
abbrev HBM_QOS_CTRL (m : Nat) : Reg := ⟨.HBM_QOS_CTRL, m, 0, 0⟩
abbrev HBM_QOS_TARGET (m : Nat) : Reg := ⟨.HBM_QOS_TARGET, m, 0, 0⟩
abbrev HBM_QOS_STATUS (m : Nat) : Reg := ⟨.HBM_QOS_STATUS, m, 0, 0⟩
abbrev HBM_QOS_LATE (m : Nat) : Reg := ⟨.HBM_QOS_LATE, m, 0, 0⟩
abbrev HBM_FK_STATUS (f : Nat) : Reg := ⟨.HBM_FK_STATUS, f, 0, 0⟩
abbrev HBM_FK_CNT_CE (f : Nat) : Reg := ⟨.HBM_FK_CNT_CE, f, 0, 0⟩
abbrev HBM_FK_CNT_UE (f : Nat) : Reg := ⟨.HBM_FK_CNT_UE, f, 0, 0⟩
abbrev HBM_CH_CTRL (c : Nat) : Reg := ⟨.HBM_CH_CTRL, c, 0, 0⟩
abbrev HBM_CH_FSTATE (c : Nat) : Reg := ⟨.HBM_CH_FSTATE, c, 0, 0⟩
abbrev HBM_CH_STATUS (c : Nat) : Reg := ⟨.HBM_CH_STATUS, c, 0, 0⟩
abbrev HBM_CH_REPAIR (c : Nat) : Reg := ⟨.HBM_CH_REPAIR, c, 0, 0⟩
abbrev HBM_CH_CNT_CE (c : Nat) : Reg := ⟨.HBM_CH_CNT_CE, c, 0, 0⟩
abbrev HBM_CH_CNT_UE (c : Nat) : Reg := ⟨.HBM_CH_CNT_UE, c, 0, 0⟩
abbrev HBM_CH_CNT_DROP (c : Nat) : Reg := ⟨.HBM_CH_CNT_DROP, c, 0, 0⟩
abbrev HBM_CH_BW (c : Nat) : Reg := ⟨.HBM_CH_BW, c, 0, 0⟩
abbrev MTX_CTRL : Reg := ⟨.MTX_CTRL, 0, 0, 0⟩
abbrev MTX_FSTATE : Reg := ⟨.MTX_FSTATE, 0, 0, 0⟩
abbrev MTX_WATCHDOG : Reg := ⟨.MTX_WATCHDOG, 0, 0, 0⟩
abbrev MTX_POOL : Reg := ⟨.MTX_POOL, 0, 0, 0⟩
abbrev MTX_STATUS : Reg := ⟨.MTX_STATUS, 0, 0, 0⟩
abbrev MTX_ALARM : Reg := ⟨.MTX_ALARM, 0, 0, 0⟩
abbrev MTX_ALARM_EN : Reg := ⟨.MTX_ALARM_EN, 0, 0, 0⟩
abbrev MTX_LOG_STATUS : Reg := ⟨.MTX_LOG_STATUS, 0, 0, 0⟩
abbrev MTX_LOG_POP : Reg := ⟨.MTX_LOG_POP, 0, 0, 0⟩
abbrev MTX_CNT_DECODE : Reg := ⟨.MTX_CNT_DECODE, 0, 0, 0⟩
abbrev MTX_CNT_TIMEOUT : Reg := ⟨.MTX_CNT_TIMEOUT, 0, 0, 0⟩
abbrev MTX_CNT_LOG_DROP : Reg := ⟨.MTX_CNT_LOG_DROP, 0, 0, 0⟩
abbrev MTX_CNT_CLEAR : Reg := ⟨.MTX_CNT_CLEAR, 0, 0, 0⟩
abbrev MTX_LOG_E (w : Nat) : Reg := ⟨.MTX_LOG_E, w, 0, 0⟩
abbrev MTX_SQ_SEL : Reg := ⟨.MTX_SQ_SEL, 0, 0, 0⟩
abbrev MTX_SQ_STATE : Reg := ⟨.MTX_SQ_STATE, 0, 0, 0⟩
abbrev MTX_P_STATUS (m : Nat) : Reg := ⟨.MTX_P_STATUS, m, 0, 0⟩
abbrev MTX_P_HELD (m : Nat) : Reg := ⟨.MTX_P_HELD, m, 0, 0⟩
abbrev MTX_P_CNT_RD (m : Nat) : Reg := ⟨.MTX_P_CNT_RD, m, 0, 0⟩
abbrev MTX_P_CNT_WR (m : Nat) : Reg := ⟨.MTX_P_CNT_WR, m, 0, 0⟩
abbrev MTX_P_CNT_POOL_WAIT (m : Nat) : Reg := ⟨.MTX_P_CNT_POOL_WAIT, m, 0, 0⟩
abbrev MTX_P_PRIO (m i : Nat) : Reg := ⟨.MTX_P_PRIO, m, i, 0⟩
abbrev TWIN_CTRL : Reg := ⟨.TWIN_CTRL, 0, 0, 0⟩
abbrev TWIN_FSTATE : Reg := ⟨.TWIN_FSTATE, 0, 0, 0⟩
abbrev TWIN_STATUS : Reg := ⟨.TWIN_STATUS, 0, 0, 0⟩
abbrev TWIN_PECK : Reg := ⟨.TWIN_PECK, 0, 0, 0⟩
abbrev TWIN_TIMING : Reg := ⟨.TWIN_TIMING, 0, 0, 0⟩
abbrev TWIN_ADMIT : Reg := ⟨.TWIN_ADMIT, 0, 0, 0⟩
abbrev TWIN_ADMIT_COUNT : Reg := ⟨.TWIN_ADMIT_COUNT, 0, 0, 0⟩
abbrev TWIN_SIG_CTRL : Reg := ⟨.TWIN_SIG_CTRL, 0, 0, 0⟩
abbrev TWIN_FAR_INFO : Reg := ⟨.TWIN_FAR_INFO, 0, 0, 0⟩
abbrev TWIN_CFG_GEN : Reg := ⟨.TWIN_CFG_GEN, 0, 0, 0⟩
abbrev TWIN_COMPAT : Reg := ⟨.TWIN_COMPAT, 0, 0, 0⟩
abbrev TWIN_COMMIT_CNT : Reg := ⟨.TWIN_COMMIT_CNT, 0, 0, 0⟩
abbrev TWIN_SWAP_FRAME_LO : Reg := ⟨.TWIN_SWAP_FRAME_LO, 0, 0, 0⟩
abbrev TWIN_SWAP_FRAME_HI : Reg := ⟨.TWIN_SWAP_FRAME_HI, 0, 0, 0⟩
abbrev TWIN_LVDS_STATUS : Reg := ⟨.TWIN_LVDS_STATUS, 0, 0, 0⟩
abbrev TWIN_ALARM : Reg := ⟨.TWIN_ALARM, 0, 0, 0⟩
abbrev TWIN_ALARM_EN : Reg := ⟨.TWIN_ALARM_EN, 0, 0, 0⟩
abbrev TWIN_CNT_FAILOVER : Reg := ⟨.TWIN_CNT_FAILOVER, 0, 0, 0⟩
abbrev TWIN_CNT_SWAP : Reg := ⟨.TWIN_CNT_SWAP, 0, 0, 0⟩
abbrev TWIN_CNT_LANE_MISS : Reg := ⟨.TWIN_CNT_LANE_MISS, 0, 0, 0⟩
abbrev TWIN_CNT_LVDS_MISS : Reg := ⟨.TWIN_CNT_LVDS_MISS, 0, 0, 0⟩
abbrev TWIN_CNT_SIG_MISMATCH : Reg := ⟨.TWIN_CNT_SIG_MISMATCH, 0, 0, 0⟩
abbrev TWIN_CNT_DECISION_LOCAL : Reg := ⟨.TWIN_CNT_DECISION_LOCAL, 0, 0, 0⟩
abbrev TWIN_CNT_DECISION_DIFFER : Reg := ⟨.TWIN_CNT_DECISION_DIFFER, 0, 0, 0⟩
abbrev TWIN_CNT_COMMIT_LATE : Reg := ⟨.TWIN_CNT_COMMIT_LATE, 0, 0, 0⟩
abbrev TWIN_CNT_RESYNC : Reg := ⟨.TWIN_CNT_RESYNC, 0, 0, 0⟩
abbrev TWIN_CNT_CLEAR : Reg := ⟨.TWIN_CNT_CLEAR, 0, 0, 0⟩
abbrev TWIN_SIG (n : Nat) : Reg := ⟨.TWIN_SIG, n, 0, 0⟩
abbrev TWIN_SIG_FAR (n : Nat) : Reg := ⟨.TWIN_SIG_FAR, n, 0, 0⟩
abbrev GLB_ID : Reg := ⟨.GLB_ID, 0, 0, 0⟩
abbrev GLB_DIE_ID_LO : Reg := ⟨.GLB_DIE_ID_LO, 0, 0, 0⟩
abbrev GLB_DIE_ID_HI : Reg := ⟨.GLB_DIE_ID_HI, 0, 0, 0⟩
abbrev GLB_FW_VERSION : Reg := ⟨.GLB_FW_VERSION, 0, 0, 0⟩
abbrev GLB_STATUS : Reg := ⟨.GLB_STATUS, 0, 0, 0⟩
abbrev GLB_HEARTBEAT : Reg := ⟨.GLB_HEARTBEAT, 0, 0, 0⟩
abbrev GLB_SCRATCH : Reg := ⟨.GLB_SCRATCH, 0, 0, 0⟩
abbrev GLB_IRQ_STATUS : Reg := ⟨.GLB_IRQ_STATUS, 0, 0, 0⟩
abbrev GLB_IRQ_PIN_EN : Reg := ⟨.GLB_IRQ_PIN_EN, 0, 0, 0⟩
abbrev GLB_IRQ_MSI_EN : Reg := ⟨.GLB_IRQ_MSI_EN, 0, 0, 0⟩
abbrev GLB_IRQ_EOI : Reg := ⟨.GLB_IRQ_EOI, 0, 0, 0⟩
abbrev GLB_FAULT_STATUS : Reg := ⟨.GLB_FAULT_STATUS, 0, 0, 0⟩
abbrev GLB_ALARM : Reg := ⟨.GLB_ALARM, 0, 0, 0⟩
abbrev GLB_ALARM_EN : Reg := ⟨.GLB_ALARM_EN, 0, 0, 0⟩
abbrev GLB_IRQ_MAP (b : Nat) : Reg := ⟨.GLB_IRQ_MAP, b, 0, 0⟩
abbrev GLB_AFL_STATUS : Reg := ⟨.GLB_AFL_STATUS, 0, 0, 0⟩
abbrev GLB_AFL_POP : Reg := ⟨.GLB_AFL_POP, 0, 0, 0⟩
abbrev GLB_AFL_E (w : Nat) : Reg := ⟨.GLB_AFL_E, w, 0, 0⟩
abbrev GLB_CNT_AFL : Reg := ⟨.GLB_CNT_AFL, 0, 0, 0⟩
abbrev GLB_CNT_AFL_DROP : Reg := ⟨.GLB_CNT_AFL_DROP, 0, 0, 0⟩
abbrev GLB_CNT_CLEAR : Reg := ⟨.GLB_CNT_CLEAR, 0, 0, 0⟩
abbrev GLB_SUM (b i : Nat) : Reg := ⟨.GLB_SUM, b, i, 0⟩
abbrev CMD_CTRL : Reg := ⟨.CMD_CTRL, 0, 0, 0⟩
abbrev CMD_STATUS : Reg := ⟨.CMD_STATUS, 0, 0, 0⟩
abbrev CMD_ALARM : Reg := ⟨.CMD_ALARM, 0, 0, 0⟩
abbrev CMD_ALARM_EN : Reg := ⟨.CMD_ALARM_EN, 0, 0, 0⟩
abbrev CMD_CNT_RX : Reg := ⟨.CMD_CNT_RX, 0, 0, 0⟩
abbrev CMD_CNT_REJECTED : Reg := ⟨.CMD_CNT_REJECTED, 0, 0, 0⟩
abbrev CMD_CNT_AUTH_FAIL : Reg := ⟨.CMD_CNT_AUTH_FAIL, 0, 0, 0⟩
abbrev CMD_CNT_REPLAY : Reg := ⟨.CMD_CNT_REPLAY, 0, 0, 0⟩
abbrev CMD_CNT_DUP : Reg := ⟨.CMD_CNT_DUP, 0, 0, 0⟩
abbrev CMD_CNT_DROP_CPL : Reg := ⟨.CMD_CNT_DROP_CPL, 0, 0, 0⟩
abbrev CMD_COMMIT_LAT_MAX : Reg := ⟨.CMD_COMMIT_LAT_MAX, 0, 0, 0⟩
abbrev CMD_CNT_CLEAR : Reg := ⟨.CMD_CNT_CLEAR, 0, 0, 0⟩
abbrev CMD_RING_CTRL (r : Nat) : Reg := ⟨.CMD_RING_CTRL, r, 0, 0⟩
abbrev CMD_RING_FSTATE (r : Nat) : Reg := ⟨.CMD_RING_FSTATE, r, 0, 0⟩
abbrev CMD_RING_SQ_BASE_LO (r : Nat) : Reg := ⟨.CMD_RING_SQ_BASE_LO, r, 0, 0⟩
abbrev CMD_RING_SQ_BASE_HI (r : Nat) : Reg := ⟨.CMD_RING_SQ_BASE_HI, r, 0, 0⟩
abbrev CMD_RING_CQ_BASE_LO (r : Nat) : Reg := ⟨.CMD_RING_CQ_BASE_LO, r, 0, 0⟩
abbrev CMD_RING_CQ_BASE_HI (r : Nat) : Reg := ⟨.CMD_RING_CQ_BASE_HI, r, 0, 0⟩
abbrev CMD_RING_SQ_HEAD (r : Nat) : Reg := ⟨.CMD_RING_SQ_HEAD, r, 0, 0⟩
abbrev CMD_RING_CQ_TAIL (r : Nat) : Reg := ⟨.CMD_RING_CQ_TAIL, r, 0, 0⟩
abbrev CMD_RING_COAL (r : Nat) : Reg := ⟨.CMD_RING_COAL, r, 0, 0⟩
abbrev CMD_RING_CNT_CMD (r : Nat) : Reg := ⟨.CMD_RING_CNT_CMD, r, 0, 0⟩
abbrev CMD_RING_CNT_CPL (r : Nat) : Reg := ⟨.CMD_RING_CNT_CPL, r, 0, 0⟩
abbrev CMD_SESS_STATE (s : Nat) : Reg := ⟨.CMD_SESS_STATE, s, 0, 0⟩
abbrev CMD_SESS_ID (s : Nat) : Reg := ⟨.CMD_SESS_ID, s, 0, 0⟩
abbrev CMD_SESS_PEER_PORT (s : Nat) : Reg := ⟨.CMD_SESS_PEER_PORT, s, 0, 0⟩
abbrev CMD_SESS_PEER_ADDR (s i : Nat) : Reg := ⟨.CMD_SESS_PEER_ADDR, s, i, 0⟩
abbrev CMD_SESS_IDLE_MS (s : Nat) : Reg := ⟨.CMD_SESS_IDLE_MS, s, 0, 0⟩
abbrev CMD_SESS_CNT_CMD (s : Nat) : Reg := ⟨.CMD_SESS_CNT_CMD, s, 0, 0⟩
abbrev BOOT_STATUS : Reg := ⟨.BOOT_STATUS, 0, 0, 0⟩
abbrev BOOT_FSTATE : Reg := ⟨.BOOT_FSTATE, 0, 0, 0⟩
abbrev BOOT_START_MS : Reg := ⟨.BOOT_START_MS, 0, 0, 0⟩
abbrev BOOT_RESET_CAUSE : Reg := ⟨.BOOT_RESET_CAUSE, 0, 0, 0⟩
abbrev BOOT_SLOT_A_VER : Reg := ⟨.BOOT_SLOT_A_VER, 0, 0, 0⟩
abbrev BOOT_SLOT_B_VER : Reg := ⟨.BOOT_SLOT_B_VER, 0, 0, 0⟩
abbrev BOOT_RECOVERY_VER : Reg := ⟨.BOOT_RECOVERY_VER, 0, 0, 0⟩
abbrev BOOT_SECVER : Reg := ⟨.BOOT_SECVER, 0, 0, 0⟩
abbrev BOOT_KEYS : Reg := ⟨.BOOT_KEYS, 0, 0, 0⟩
abbrev BOOT_FORMATS : Reg := ⟨.BOOT_FORMATS, 0, 0, 0⟩
abbrev BOOT_CFG_INFO : Reg := ⟨.BOOT_CFG_INFO, 0, 0, 0⟩
abbrev BOOT_UPD_STATE : Reg := ⟨.BOOT_UPD_STATE, 0, 0, 0⟩
abbrev BOOT_UPD_LEN : Reg := ⟨.BOOT_UPD_LEN, 0, 0, 0⟩
abbrev BOOT_UPD_RECEIVED : Reg := ⟨.BOOT_UPD_RECEIVED, 0, 0, 0⟩
abbrev BOOT_UPD_IMAGE_ID : Reg := ⟨.BOOT_UPD_IMAGE_ID, 0, 0, 0⟩
abbrev BOOT_UPD_FAIL : Reg := ⟨.BOOT_UPD_FAIL, 0, 0, 0⟩
abbrev BOOT_UPD_TIME_LO : Reg := ⟨.BOOT_UPD_TIME_LO, 0, 0, 0⟩
abbrev BOOT_UPD_TIME_HI : Reg := ⟨.BOOT_UPD_TIME_HI, 0, 0, 0⟩
abbrev BOOT_TRICKLE_CTRL : Reg := ⟨.BOOT_TRICKLE_CTRL, 0, 0, 0⟩
abbrev BOOT_TRICKLE_COUNT : Reg := ⟨.BOOT_TRICKLE_COUNT, 0, 0, 0⟩
abbrev BOOT_TRICKLE_TOTAL : Reg := ⟨.BOOT_TRICKLE_TOTAL, 0, 0, 0⟩
abbrev BOOT_MRAM_STATUS : Reg := ⟨.BOOT_MRAM_STATUS, 0, 0, 0⟩
abbrev BOOT_MRAM_RATE : Reg := ⟨.BOOT_MRAM_RATE, 0, 0, 0⟩
abbrev BOOT_MRAM_WEAR : Reg := ⟨.BOOT_MRAM_WEAR, 0, 0, 0⟩
abbrev BOOT_ALARM : Reg := ⟨.BOOT_ALARM, 0, 0, 0⟩
abbrev BOOT_ALARM_EN : Reg := ⟨.BOOT_ALARM_EN, 0, 0, 0⟩
abbrev BOOT_CNT_PIECE_OK : Reg := ⟨.BOOT_CNT_PIECE_OK, 0, 0, 0⟩
abbrev BOOT_CNT_PIECE_BAD : Reg := ⟨.BOOT_CNT_PIECE_BAD, 0, 0, 0⟩
abbrev BOOT_CNT_PIECE_DUP : Reg := ⟨.BOOT_CNT_PIECE_DUP, 0, 0, 0⟩
abbrev BOOT_CNT_PIECE_OTHER : Reg := ⟨.BOOT_CNT_PIECE_OTHER, 0, 0, 0⟩
abbrev BOOT_CNT_FLASH_ERR : Reg := ⟨.BOOT_CNT_FLASH_ERR, 0, 0, 0⟩
abbrev BOOT_CNT_RESTORE_DROP : Reg := ⟨.BOOT_CNT_RESTORE_DROP, 0, 0, 0⟩
abbrev BOOT_CNT_MRAM_CRC : Reg := ⟨.BOOT_CNT_MRAM_CRC, 0, 0, 0⟩
abbrev BOOT_CNT_CLEAR : Reg := ⟨.BOOT_CNT_CLEAR, 0, 0, 0⟩
abbrev PWR_CTRL : Reg := ⟨.PWR_CTRL, 0, 0, 0⟩
abbrev PWR_FSTATE : Reg := ⟨.PWR_FSTATE, 0, 0, 0⟩
abbrev PWR_STATUS : Reg := ⟨.PWR_STATUS, 0, 0, 0⟩
abbrev PWR_ALARM : Reg := ⟨.PWR_ALARM, 0, 0, 0⟩
abbrev PWR_ALARM_EN : Reg := ⟨.PWR_ALARM_EN, 0, 0, 0⟩
abbrev PWR_AVS_WINDOW : Reg := ⟨.PWR_AVS_WINDOW, 0, 0, 0⟩
abbrev PWR_AVS_STATUS : Reg := ⟨.PWR_AVS_STATUS, 0, 0, 0⟩
abbrev PWR_VCORE : Reg := ⟨.PWR_VCORE, 0, 0, 0⟩
abbrev PWR_WDOG : Reg := ⟨.PWR_WDOG, 0, 0, 0⟩
abbrev PWR_REPLACE : Reg := ⟨.PWR_REPLACE, 0, 0, 0⟩
abbrev PWR_REPLACE_FIRST : Reg := ⟨.PWR_REPLACE_FIRST, 0, 0, 0⟩
abbrev PWR_THERM_CTRL : Reg := ⟨.PWR_THERM_CTRL, 0, 0, 0⟩
abbrev PWR_TEMP_MAX : Reg := ⟨.PWR_TEMP_MAX, 0, 0, 0⟩
abbrev PWR_TOTAL : Reg := ⟨.PWR_TOTAL, 0, 0, 0⟩
abbrev PWR_LIMIT : Reg := ⟨.PWR_LIMIT, 0, 0, 0⟩
abbrev PWR_EN_STATUS : Reg := ⟨.PWR_EN_STATUS, 0, 0, 0⟩
abbrev PWR_DEBUG : Reg := ⟨.PWR_DEBUG, 0, 0, 0⟩
abbrev PWR_TELEM_CTRL : Reg := ⟨.PWR_TELEM_CTRL, 0, 0, 0⟩
abbrev PWR_TELEM_SEQ : Reg := ⟨.PWR_TELEM_SEQ, 0, 0, 0⟩
abbrev PWR_CNT_SHED : Reg := ⟨.PWR_CNT_SHED, 0, 0, 0⟩
abbrev PWR_CNT_OVERRIDE : Reg := ⟨.PWR_CNT_OVERRIDE, 0, 0, 0⟩
abbrev PWR_CNT_PMBUS_ERR : Reg := ⟨.PWR_CNT_PMBUS_ERR, 0, 0, 0⟩
abbrev PWR_CNT_WDOG : Reg := ⟨.PWR_CNT_WDOG, 0, 0, 0⟩
abbrev PWR_CNT_UV_RESET : Reg := ⟨.PWR_CNT_UV_RESET, 0, 0, 0⟩
abbrev PWR_CNT_CLEAR : Reg := ⟨.PWR_CNT_CLEAR, 0, 0, 0⟩
abbrev PWR_PMBUS_DEV (d : Nat) : Reg := ⟨.PWR_PMBUS_DEV, d, 0, 0⟩
abbrev PWR_RAIL_V (d : Nat) : Reg := ⟨.PWR_RAIL_V, d, 0, 0⟩
abbrev PWR_RAIL_P (d : Nat) : Reg := ⟨.PWR_RAIL_P, d, 0, 0⟩
abbrev PWR_RAIL_STATUS (d : Nat) : Reg := ⟨.PWR_RAIL_STATUS, d, 0, 0⟩
abbrev PWR_TELEM_W (w : Nat) : Reg := ⟨.PWR_TELEM_W, w, 0, 0⟩
abbrev XPT_VIDEO (n : Nat) : Reg := ⟨.XPT_VIDEO, n, 0, 0⟩
abbrev XPT_ROUTES (n : Nat) : Reg := ⟨.XPT_ROUTES, n, 0, 0⟩
abbrev XPT_HOLD (n : Nat) : Reg := ⟨.XPT_HOLD, n, 0, 0⟩
abbrev XPT_LANDED (n : Nat) : Reg := ⟨.XPT_LANDED, n, 0, 0⟩
abbrev SURF_STATE (s : Nat) : Reg := ⟨.SURF_STATE, s, 0, 0⟩
abbrev SURF_REFS (s : Nat) : Reg := ⟨.SURF_REFS, s, 0, 0⟩
abbrev SURF_SIZE (s : Nat) : Reg := ⟨.SURF_SIZE, s, 0, 0⟩
abbrev PAT_KIND (p : Nat) : Reg := ⟨.PAT_KIND, p, 0, 0⟩
abbrev PAT_Y (p : Nat) : Reg := ⟨.PAT_Y, p, 0, 0⟩
abbrev PAT_C (p : Nat) : Reg := ⟨.PAT_C, p, 0, 0⟩
abbrev LUT3D_STATE (s : Nat) : Reg := ⟨.LUT3D_STATE, s, 0, 0⟩
abbrev LUT3D_REFS (s : Nat) : Reg := ⟨.LUT3D_REFS, s, 0, 0⟩
abbrev LUT3D_LOADED (s : Nat) : Reg := ⟨.LUT3D_LOADED, s, 0, 0⟩
abbrev PRC_VIEW : Reg := ⟨.PRC_VIEW, 0, 0, 0⟩
abbrev GLYPH_ID (g : Nat) : Reg := ⟨.GLYPH_ID, g, 0, 0⟩
abbrev GLYPH_WIDTH (g : Nat) : Reg := ⟨.GLYPH_WIDTH, g, 0, 0⟩
abbrev FONT_HDR (f : Nat) : Reg := ⟨.FONT_HDR, f, 0, 0⟩
abbrev FONT_DEFAULT_CP (f : Nat) : Reg := ⟨.FONT_DEFAULT_CP, f, 0, 0⟩
abbrev FONT_GLYPHS (f : Nat) : Reg := ⟨.FONT_GLYPHS, f, 0, 0⟩
abbrev FADDR_IP (a i : Nat) : Reg := ⟨.FADDR_IP, a, i, 0⟩
abbrev FADDR_UDP (a : Nat) : Reg := ⟨.FADDR_UDP, a, 0, 0⟩
abbrev FADDR_MAC_LO (a : Nat) : Reg := ⟨.FADDR_MAC_LO, a, 0, 0⟩
abbrev FADDR_MAC_HI (a : Nat) : Reg := ⟨.FADDR_MAC_HI, a, 0, 0⟩
abbrev AOUT_ROUTE (o : Nat) : Reg := ⟨.AOUT_ROUTE, o, 0, 0⟩
abbrev AOUT_GAIN (o : Nat) : Reg := ⟨.AOUT_GAIN, o, 0, 0⟩
abbrev AIN_BIND (i : Nat) : Reg := ⟨.AIN_BIND, i, 0, 0⟩
abbrev AIN_STATE (i : Nat) : Reg := ⟨.AIN_STATE, i, 0, 0⟩
abbrev AOUT_METER (o : Nat) : Reg := ⟨.AOUT_METER, o, 0, 0⟩
abbrev ATX_DESC (q : Nat) : Reg := ⟨.ATX_DESC, q, 0, 0⟩
abbrev ATX_FIRST (q : Nat) : Reg := ⟨.ATX_FIRST, q, 0, 0⟩
abbrev ARX_DESC (q : Nat) : Reg := ⟨.ARX_DESC, q, 0, 0⟩

end Sys2Proof.Machine.R

namespace Sys2Proof.Machine.F

abbrev TIME_SNAP_go : Field := ⟨⟨.TIME_SNAP, 0, 0, 0⟩, 0, 1⟩
abbrev TIME_STATUS_ht_traceable : Field := ⟨⟨.TIME_STATUS, 0, 0, 0⟩, 2, 1⟩
abbrev TIME_STATUS_acq_done : Field := ⟨⟨.TIME_STATUS, 0, 0, 0⟩, 1, 1⟩
abbrev TIME_STATUS_snap_valid : Field := ⟨⟨.TIME_STATUS, 0, 0, 0⟩, 0, 1⟩
abbrev TIME_UTC_utc_valid : Field := ⟨⟨.TIME_UTC, 0, 0, 0⟩, 17, 1⟩
abbrev TIME_UTC_leap61 : Field := ⟨⟨.TIME_UTC, 0, 0, 0⟩, 16, 1⟩
abbrev TIME_UTC_leap59 : Field := ⟨⟨.TIME_UTC, 0, 0, 0⟩, 15, 1⟩
abbrev TIME_UTC_utc_offset : Field := ⟨⟨.TIME_UTC, 0, 0, 0⟩, 0, 15⟩
abbrev TIME_SNAP_FRAC (s : Nat) : Field := ⟨⟨.TIME_SNAP_FRAC, s, 0, 0⟩, 0, 4⟩
abbrev TIME_SNAP_NS (s : Nat) : Field := ⟨⟨.TIME_SNAP_NS, s, 0, 0⟩, 0, 30⟩
abbrev TIME_SNAP_SEC_LO (s : Nat) : Field := ⟨⟨.TIME_SNAP_SEC_LO, s, 0, 0⟩, 0, 32⟩
abbrev TIME_SNAP_SEC_HI (s : Nat) : Field := ⟨⟨.TIME_SNAP_SEC_HI, s, 0, 0⟩, 0, 16⟩
abbrev TIME_IRQ_STATUS : Field := ⟨⟨.TIME_IRQ_STATUS, 0, 0, 0⟩, 0, 9⟩
abbrev TIME_IRQ_STATUS_otg_fault : Field := ⟨⟨.TIME_IRQ_STATUS, 0, 0, 0⟩, 8, 1⟩
abbrev TIME_IRQ_STATUS_realign_done : Field := ⟨⟨.TIME_IRQ_STATUS, 0, 0, 0⟩, 7, 1⟩
abbrev TIME_IRQ_STATUS_evt_fired : Field := ⟨⟨.TIME_IRQ_STATUS, 0, 0, 0⟩, 6, 1⟩
abbrev TIME_IRQ_STATUS_force_refused : Field := ⟨⟨.TIME_IRQ_STATUS, 0, 0, 0⟩, 5, 1⟩
abbrev TIME_IRQ_STATUS_holdover_entered : Field := ⟨⟨.TIME_IRQ_STATUS, 0, 0, 0⟩, 4, 1⟩
abbrev TIME_IRQ_STATUS_freerun_entered : Field := ⟨⟨.TIME_IRQ_STATUS, 0, 0, 0⟩, 3, 1⟩
abbrev TIME_IRQ_STATUS_dpll_state : Field := ⟨⟨.TIME_IRQ_STATUS, 0, 0, 0⟩, 2, 1⟩
abbrev TIME_IRQ_STATUS_ref_state : Field := ⟨⟨.TIME_IRQ_STATUS, 0, 0, 0⟩, 1, 1⟩
abbrev TIME_IRQ_STATUS_tb_lock : Field := ⟨⟨.TIME_IRQ_STATUS, 0, 0, 0⟩, 0, 1⟩
abbrev TIME_IRQ_ENABLE : Field := ⟨⟨.TIME_IRQ_ENABLE, 0, 0, 0⟩, 0, 9⟩
abbrev TB_CTRL_one_step (n : Nat) : Field := ⟨⟨.TB_CTRL, n, 0, 0⟩, 16, 1⟩
abbrev TB_CTRL_domain (n : Nat) : Field := ⟨⟨.TB_CTRL, n, 0, 0⟩, 8, 8⟩
abbrev TB_CTRL_mode (n : Nat) : Field := ⟨⟨.TB_CTRL, n, 0, 0⟩, 2, 2⟩
abbrev TB_CTRL_enable (n : Nat) : Field := ⟨⟨.TB_CTRL, n, 0, 0⟩, 0, 1⟩
abbrev TB_LOCK_servo_locked (n : Nat) : Field := ⟨⟨.TB_LOCK, n, 0, 0⟩, 0, 1⟩
abbrev TB_OFFSET (n : Nat) : Field := ⟨⟨.TB_OFFSET, n, 0, 0⟩, 0, 32⟩
abbrev TB_FREQ_ADJ (n : Nat) : Field := ⟨⟨.TB_FREQ_ADJ, n, 0, 0⟩, 0, 32⟩
abbrev TB_ADJ_VALUE (n : Nat) : Field := ⟨⟨.TB_ADJ_VALUE, n, 0, 0⟩, 0, 32⟩
abbrev TB_ADJ_CMD_op (n : Nat) : Field := ⟨⟨.TB_ADJ_CMD, n, 0, 0⟩, 0, 2⟩
abbrev TB_SLEW (n : Nat) : Field := ⟨⟨.TB_SLEW, n, 0, 0⟩, 0, 16⟩
abbrev TB_SET_SEC_HI (n : Nat) : Field := ⟨⟨.TB_SET_SEC_HI, n, 0, 0⟩, 0, 16⟩
abbrev TB_SET_SEC_LO (n : Nat) : Field := ⟨⟨.TB_SET_SEC_LO, n, 0, 0⟩, 0, 32⟩
abbrev TB_SET_NS (n : Nat) : Field := ⟨⟨.TB_SET_NS, n, 0, 0⟩, 0, 30⟩
abbrev TB_SET_CMD_go (n : Nat) : Field := ⟨⟨.TB_SET_CMD, n, 0, 0⟩, 0, 1⟩
abbrev TB_ADJ_STATUS_slew_active (n : Nat) : Field := ⟨⟨.TB_ADJ_STATUS, n, 0, 0⟩, 0, 1⟩
abbrev DPLL_CTRL_forced_ref : Field := ⟨⟨.DPLL_CTRL, 0, 0, 0⟩, 8, 4⟩
abbrev DPLL_CTRL_revertive : Field := ⟨⟨.DPLL_CTRL, 0, 0, 0⟩, 5, 1⟩
abbrev DPLL_CTRL_mode : Field := ⟨⟨.DPLL_CTRL, 0, 0, 0⟩, 0, 3⟩
abbrev DPLL_STATE_force_lost : Field := ⟨⟨.DPLL_STATE, 0, 0, 0⟩, 30, 1⟩
abbrev DPLL_STATE_force_refused : Field := ⟨⟨.DPLL_STATE, 0, 0, 0⟩, 29, 1⟩
abbrev DPLL_STATE_holdover_valid : Field := ⟨⟨.DPLL_STATE, 0, 0, 0⟩, 28, 1⟩
abbrev DPLL_STATE_bw_eff : Field := ⟨⟨.DPLL_STATE, 0, 0, 0⟩, 24, 4⟩
abbrev DPLL_STATE_target_ref : Field := ⟨⟨.DPLL_STATE, 0, 0, 0⟩, 16, 4⟩
abbrev DPLL_STATE_selected_ref : Field := ⟨⟨.DPLL_STATE, 0, 0, 0⟩, 12, 4⟩
abbrev DPLL_STATE_tphase : Field := ⟨⟨.DPLL_STATE, 0, 0, 0⟩, 8, 2⟩
abbrev DPLL_STATE_state : Field := ⟨⟨.DPLL_STATE, 0, 0, 0⟩, 0, 3⟩
abbrev DPLL_BW_acq_bw : Field := ⟨⟨.DPLL_BW, 0, 0, 0⟩, 8, 4⟩
abbrev DPLL_BW_lock_bw : Field := ⟨⟨.DPLL_BW, 0, 0, 0⟩, 0, 4⟩
abbrev DPLL_SLEW_rate : Field := ⟨⟨.DPLL_SLEW, 0, 0, 0⟩, 0, 16⟩
abbrev DPLL_HOLDOVER_window : Field := ⟨⟨.DPLL_HOLDOVER, 0, 0, 0⟩, 16, 16⟩
abbrev DPLL_HOLDOVER_guard : Field := ⟨⟨.DPLL_HOLDOVER, 0, 0, 0⟩, 0, 12⟩
abbrev DPLL_REALIGN_go : Field := ⟨⟨.DPLL_REALIGN, 0, 0, 0⟩, 0, 1⟩
abbrev DPLL_REALIGN_STATUS : Field := ⟨⟨.DPLL_REALIGN_STATUS, 0, 0, 0⟩, 0, 2⟩
abbrev DPLL_REALIGN_STATUS_ht_stepped : Field := ⟨⟨.DPLL_REALIGN_STATUS, 0, 0, 0⟩, 1, 1⟩
abbrev DPLL_REALIGN_STATUS_pending : Field := ⟨⟨.DPLL_REALIGN_STATUS, 0, 0, 0⟩, 0, 1⟩
abbrev DPLL_BUILDOUT : Field := ⟨⟨.DPLL_BUILDOUT, 0, 0, 0⟩, 0, 32⟩
abbrev DPLL_CW : Field := ⟨⟨.DPLL_CW, 0, 0, 0⟩, 0, 32⟩
abbrev DPLL_HO_VALUE : Field := ⟨⟨.DPLL_HO_VALUE, 0, 0, 0⟩, 0, 32⟩
abbrev DPLL_HO_SPAN : Field := ⟨⟨.DPLL_HO_SPAN, 0, 0, 0⟩, 0, 16⟩
abbrev REF_CTRL_lane (n : Nat) : Field := ⟨⟨.REF_CTRL, n, 0, 0⟩, 16, 7⟩
abbrev REF_CTRL_input_use (n : Nat) : Field := ⟨⟨.REF_CTRL, n, 0, 0⟩, 12, 2⟩
abbrev REF_CTRL_priority (n : Nat) : Field := ⟨⟨.REF_CTRL, n, 0, 0⟩, 8, 4⟩
abbrev REF_CTRL_lockout (n : Nat) : Field := ⟨⟨.REF_CTRL, n, 0, 0⟩, 1, 1⟩
abbrev REF_CTRL_enable (n : Nat) : Field := ⟨⟨.REF_CTRL, n, 0, 0⟩, 0, 1⟩
abbrev REF_STATE_wtr_owed (n : Nat) : Field := ⟨⟨.REF_STATE, n, 0, 0⟩, 15, 1⟩
abbrev REF_STATE_last_disq (n : Nat) : Field := ⟨⟨.REF_STATE, n, 0, 0⟩, 12, 3⟩
abbrev REF_STATE_qstate (n : Nat) : Field := ⟨⟨.REF_STATE, n, 0, 0⟩, 0, 3⟩
abbrev REF_WTR (n : Nat) : Field := ⟨⟨.REF_WTR, n, 0, 0⟩, 0, 12⟩
abbrev REF_WTR_LEFT (n : Nat) : Field := ⟨⟨.REF_WTR_LEFT, n, 0, 0⟩, 0, 12⟩
abbrev REF_DRIFT_window (n : Nat) : Field := ⟨⟨.REF_DRIFT, n, 0, 0⟩, 16, 16⟩
abbrev REF_DRIFT_tolerance (n : Nat) : Field := ⟨⟨.REF_DRIFT, n, 0, 0⟩, 0, 16⟩
abbrev REF_FREQ (n : Nat) : Field := ⟨⟨.REF_FREQ, n, 0, 0⟩, 0, 32⟩
abbrev REF_DRIFT_MEAN (n : Nat) : Field := ⟨⟨.REF_DRIFT_MEAN, n, 0, 0⟩, 0, 32⟩
abbrev REF_ANA_FMT_format (n : Nat) : Field := ⟨⟨.REF_ANA_FMT, n, 0, 0⟩, 0, 8⟩
abbrev OTG_CTRL_time_src (n : Nat) : Field := ⟨⟨.OTG_CTRL, n, 0, 0⟩, 12, 3⟩
abbrev OTG_CTRL_format (n : Nat) : Field := ⟨⟨.OTG_CTRL, n, 0, 0⟩, 4, 8⟩
abbrev OTG_CTRL_enable (n : Nat) : Field := ⟨⟨.OTG_CTRL, n, 0, 0⟩, 0, 1⟩
abbrev OTG_OFFSET (n : Nat) : Field := ⟨⟨.OTG_OFFSET, n, 0, 0⟩, 0, 32⟩
abbrev OTG_STATUS (n : Nat) : Field := ⟨⟨.OTG_STATUS, n, 0, 0⟩, 0, 19⟩
abbrev OTG_STATUS_time_src (n : Nat) : Field := ⟨⟨.OTG_STATUS, n, 0, 0⟩, 16, 3⟩
abbrev OTG_STATUS_format (n : Nat) : Field := ⟨⟨.OTG_STATUS, n, 0, 0⟩, 8, 8⟩
abbrev OTG_STATUS_misaligned (n : Nat) : Field := ⟨⟨.OTG_STATUS, n, 0, 0⟩, 2, 1⟩
abbrev OTG_STATUS_realign_pending (n : Nat) : Field := ⟨⟨.OTG_STATUS, n, 0, 0⟩, 1, 1⟩
abbrev OTG_STATUS_realigned_last (n : Nat) : Field := ⟨⟨.OTG_STATUS, n, 0, 0⟩, 0, 1⟩
abbrev OTG_FRAME_LO (n : Nat) : Field := ⟨⟨.OTG_FRAME_LO, n, 0, 0⟩, 0, 32⟩
abbrev OTG_FRAME_HI (n : Nat) : Field := ⟨⟨.OTG_FRAME_HI, n, 0, 0⟩, 0, 32⟩
abbrev OTG_LAST_ADJ (n : Nat) : Field := ⟨⟨.OTG_LAST_ADJ, n, 0, 0⟩, 0, 32⟩
abbrev PPS_OUT_CTRL_width : Field := ⟨⟨.PPS_OUT_CTRL, 0, 0, 0⟩, 16, 16⟩
abbrev PPS_OUT_CTRL_scale : Field := ⟨⟨.PPS_OUT_CTRL, 0, 0, 0⟩, 4, 3⟩
abbrev PPS_OUT_CTRL_polarity : Field := ⟨⟨.PPS_OUT_CTRL, 0, 0, 0⟩, 1, 1⟩
abbrev PPS_OUT_CTRL_enable : Field := ⟨⟨.PPS_OUT_CTRL, 0, 0, 0⟩, 0, 1⟩
abbrev FRAME_OUT_CTRL_width (n : Nat) : Field := ⟨⟨.FRAME_OUT_CTRL, n, 0, 0⟩, 16, 16⟩
abbrev FRAME_OUT_CTRL_otg (n : Nat) : Field := ⟨⟨.FRAME_OUT_CTRL, n, 0, 0⟩, 8, 5⟩
abbrev FRAME_OUT_CTRL_kind (n : Nat) : Field := ⟨⟨.FRAME_OUT_CTRL, n, 0, 0⟩, 4, 2⟩
abbrev FRAME_OUT_CTRL_polarity (n : Nat) : Field := ⟨⟨.FRAME_OUT_CTRL, n, 0, 0⟩, 1, 1⟩
abbrev FRAME_OUT_CTRL_enable (n : Nat) : Field := ⟨⟨.FRAME_OUT_CTRL, n, 0, 0⟩, 0, 1⟩
abbrev WCLK_OUT_CTRL_scale (n : Nat) : Field := ⟨⟨.WCLK_OUT_CTRL, n, 0, 0⟩, 8, 3⟩
abbrev WCLK_OUT_CTRL_rate (n : Nat) : Field := ⟨⟨.WCLK_OUT_CTRL, n, 0, 0⟩, 4, 2⟩
abbrev WCLK_OUT_CTRL_polarity (n : Nat) : Field := ⟨⟨.WCLK_OUT_CTRL, n, 0, 0⟩, 1, 1⟩
abbrev WCLK_OUT_CTRL_enable (n : Nat) : Field := ⟨⟨.WCLK_OUT_CTRL, n, 0, 0⟩, 0, 1⟩
abbrev EVT_CTRL_target (n : Nat) : Field := ⟨⟨.EVT_CTRL, n, 0, 0⟩, 24, 8⟩
abbrev EVT_CTRL_scale (n : Nat) : Field := ⟨⟨.EVT_CTRL, n, 0, 0⟩, 16, 3⟩
abbrev EVT_CTRL_action (n : Nat) : Field := ⟨⟨.EVT_CTRL, n, 0, 0⟩, 8, 4⟩
abbrev EVT_CTRL_disarm (n : Nat) : Field := ⟨⟨.EVT_CTRL, n, 0, 0⟩, 1, 1⟩
abbrev EVT_CTRL_arm (n : Nat) : Field := ⟨⟨.EVT_CTRL, n, 0, 0⟩, 0, 1⟩
abbrev EVT_SEC_HI (n : Nat) : Field := ⟨⟨.EVT_SEC_HI, n, 0, 0⟩, 0, 16⟩
abbrev EVT_SEC_LO (n : Nat) : Field := ⟨⟨.EVT_SEC_LO, n, 0, 0⟩, 0, 32⟩
abbrev EVT_NS (n : Nat) : Field := ⟨⟨.EVT_NS, n, 0, 0⟩, 0, 30⟩
abbrev EVT_STATUS_stepped (n : Nat) : Field := ⟨⟨.EVT_STATUS, n, 0, 0⟩, 2, 1⟩
abbrev EVT_STATUS_state (n : Nat) : Field := ⟨⟨.EVT_STATUS, n, 0, 0⟩, 0, 2⟩
abbrev PORT_PTP_CTRL_tb (n : Nat) : Field := ⟨⟨.PORT_PTP_CTRL, n, 0, 0⟩, 0, 3⟩
abbrev PORT_RX_LAT (n : Nat) : Field := ⟨⟨.PORT_RX_LAT, n, 0, 0⟩, 0, 24⟩
abbrev PORT_TX_LAT (n : Nat) : Field := ⟨⟨.PORT_TX_LAT, n, 0, 0⟩, 0, 24⟩
abbrev PORT_ASYM (n : Nat) : Field := ⟨⟨.PORT_ASYM, n, 0, 0⟩, 0, 32⟩
abbrev SRC_CTRL_ratio (n : Nat) : Field := ⟨⟨.SRC_CTRL, n, 0, 0⟩, 28, 4⟩
abbrev SRC_CTRL_delay (n : Nat) : Field := ⟨⟨.SRC_CTRL, n, 0, 0⟩, 24, 4⟩
abbrev SRC_CTRL_depth (n : Nat) : Field := ⟨⟨.SRC_CTRL, n, 0, 0⟩, 16, 5⟩
abbrev SRC_CTRL_quad_pos (n : Nat) : Field := ⟨⟨.SRC_CTRL, n, 0, 0⟩, 10, 2⟩
abbrev SRC_CTRL_quad_member (n : Nat) : Field := ⟨⟨.SRC_CTRL, n, 0, 0⟩, 9, 1⟩
abbrev SRC_CTRL_compact (n : Nat) : Field := ⟨⟨.SRC_CTRL, n, 0, 0⟩, 5, 1⟩
abbrev SRC_CTRL_fmt_mode (n : Nat) : Field := ⟨⟨.SRC_CTRL, n, 0, 0⟩, 4, 1⟩
abbrev SRC_CTRL_transport (n : Nat) : Field := ⟨⟨.SRC_CTRL, n, 0, 0⟩, 2, 2⟩
abbrev SRC_CTRL_enable (n : Nat) : Field := ⟨⟨.SRC_CTRL, n, 0, 0⟩, 0, 1⟩
abbrev SRC_INPUT_id (n : Nat) : Field := ⟨⟨.SRC_INPUT, n, 0, 0⟩, 0, 13⟩
abbrev SRC_FMT_bit_depth (n : Nat) : Field := ⟨⟨.SRC_FMT, n, 0, 0⟩, 24, 2⟩
abbrev SRC_FMT_max_sampling (n : Nat) : Field := ⟨⟨.SRC_FMT, n, 0, 0⟩, 20, 4⟩
abbrev SRC_FMT_exp_sampling (n : Nat) : Field := ⟨⟨.SRC_FMT, n, 0, 0⟩, 16, 4⟩
abbrev SRC_FMT_max_format (n : Nat) : Field := ⟨⟨.SRC_FMT, n, 0, 0⟩, 8, 8⟩
abbrev SRC_FMT_expected (n : Nat) : Field := ⟨⟨.SRC_FMT, n, 0, 0⟩, 0, 8⟩
abbrev SRC_FMT_DET_valid (n : Nat) : Field := ⟨⟨.SRC_FMT_DET, n, 0, 0⟩, 31, 1⟩
abbrev SRC_FMT_DET_depth (n : Nat) : Field := ⟨⟨.SRC_FMT_DET, n, 0, 0⟩, 24, 2⟩
abbrev SRC_FMT_DET_transfer (n : Nat) : Field := ⟨⟨.SRC_FMT_DET, n, 0, 0⟩, 20, 4⟩
abbrev SRC_FMT_DET_colorimetry (n : Nat) : Field := ⟨⟨.SRC_FMT_DET, n, 0, 0⟩, 16, 4⟩
abbrev SRC_FMT_DET_sampling (n : Nat) : Field := ⟨⟨.SRC_FMT_DET, n, 0, 0⟩, 8, 4⟩
abbrev SRC_FMT_DET_format (n : Nat) : Field := ⟨⟨.SRC_FMT_DET, n, 0, 0⟩, 0, 8⟩
abbrev SRC_GUARD_guard_us (n : Nat) : Field := ⟨⟨.SRC_GUARD, n, 0, 0⟩, 0, 14⟩
abbrev SRC_TS_force_local (n : Nat) : Field := ⟨⟨.SRC_TS, n, 0, 0⟩, 4, 1⟩
abbrev SRC_TS_scale (n : Nat) : Field := ⟨⟨.SRC_TS, n, 0, 0⟩, 0, 3⟩
abbrev SRC_STATUS (n : Nat) : Field := ⟨⟨.SRC_STATUS, n, 0, 0⟩, 0, 9⟩
abbrev SRC_STATUS_source_stopped (n : Nat) : Field := ⟨⟨.SRC_STATUS, n, 0, 0⟩, 8, 1⟩
abbrev SRC_STATUS_decision_local (n : Nat) : Field := ⟨⟨.SRC_STATUS, n, 0, 0⟩, 7, 1⟩
abbrev SRC_STATUS_proxy_paused (n : Nat) : Field := ⟨⟨.SRC_STATUS, n, 0, 0⟩, 6, 1⟩
abbrev SRC_STATUS_format_too_large (n : Nat) : Field := ⟨⟨.SRC_STATUS, n, 0, 0⟩, 5, 1⟩
abbrev SRC_STATUS_format_mismatch (n : Nat) : Field := ⟨⟨.SRC_STATUS, n, 0, 0⟩, 4, 1⟩
abbrev SRC_STATUS_no_input (n : Nat) : Field := ⟨⟨.SRC_STATUS, n, 0, 0⟩, 3, 1⟩
abbrev SRC_STATUS_ts_local (n : Nat) : Field := ⟨⟨.SRC_STATUS, n, 0, 0⟩, 2, 1⟩
abbrev SRC_STATUS_stamp_kind_local (n : Nat) : Field := ⟨⟨.SRC_STATUS, n, 0, 0⟩, 1, 1⟩
abbrev SRC_STATUS_locked (n : Nat) : Field := ⟨⟨.SRC_STATUS, n, 0, 0⟩, 0, 1⟩
abbrev SRC_ALARM (n : Nat) : Field := ⟨⟨.SRC_ALARM, n, 0, 0⟩, 0, 15⟩
abbrev SRC_ALARM_source_stopped (n : Nat) : Field := ⟨⟨.SRC_ALARM, n, 0, 0⟩, 14, 1⟩
abbrev SRC_ALARM_digest_mismatch (n : Nat) : Field := ⟨⟨.SRC_ALARM, n, 0, 0⟩, 13, 1⟩
abbrev SRC_ALARM_decision_local (n : Nat) : Field := ⟨⟨.SRC_ALARM, n, 0, 0⟩, 12, 1⟩
abbrev SRC_ALARM_anc_drop (n : Nat) : Field := ⟨⟨.SRC_ALARM, n, 0, 0⟩, 11, 1⟩
abbrev SRC_ALARM_line_overtake (n : Nat) : Field := ⟨⟨.SRC_ALARM, n, 0, 0⟩, 10, 1⟩
abbrev SRC_ALARM_late_arrival (n : Nat) : Field := ⟨⟨.SRC_ALARM, n, 0, 0⟩, 9, 1⟩
abbrev SRC_ALARM_frame_abandoned (n : Nat) : Field := ⟨⟨.SRC_ALARM, n, 0, 0⟩, 8, 1⟩
abbrev SRC_ALARM_ingress_skip (n : Nat) : Field := ⟨⟨.SRC_ALARM, n, 0, 0⟩, 7, 1⟩
abbrev SRC_ALARM_concealed (n : Nat) : Field := ⟨⟨.SRC_ALARM, n, 0, 0⟩, 6, 1⟩
abbrev SRC_ALARM_lock_lost (n : Nat) : Field := ⟨⟨.SRC_ALARM, n, 0, 0⟩, 5, 1⟩
abbrev SRC_ALARM_black (n : Nat) : Field := ⟨⟨.SRC_ALARM, n, 0, 0⟩, 4, 1⟩
abbrev SRC_ALARM_frozen (n : Nat) : Field := ⟨⟨.SRC_ALARM, n, 0, 0⟩, 3, 1⟩
abbrev SRC_ALARM_format_too_large (n : Nat) : Field := ⟨⟨.SRC_ALARM, n, 0, 0⟩, 2, 1⟩
abbrev SRC_ALARM_format_mismatch (n : Nat) : Field := ⟨⟨.SRC_ALARM, n, 0, 0⟩, 1, 1⟩
abbrev SRC_ALARM_no_input (n : Nat) : Field := ⟨⟨.SRC_ALARM, n, 0, 0⟩, 0, 1⟩
abbrev SRC_ALARM_EN (n : Nat) : Field := ⟨⟨.SRC_ALARM_EN, n, 0, 0⟩, 0, 15⟩
abbrev SRC_PHASE (n : Nat) : Field := ⟨⟨.SRC_PHASE, n, 0, 0⟩, 0, 32⟩
abbrev SRC_ARRIVAL_LAT (n : Nat) : Field := ⟨⟨.SRC_ARRIVAL_LAT, n, 0, 0⟩, 0, 32⟩
abbrev SRC_SEQ (n : Nat) : Field := ⟨⟨.SRC_SEQ, n, 0, 0⟩, 0, 32⟩
abbrev SRC_HOG_BASE_LO (n : Nat) : Field := ⟨⟨.SRC_HOG_BASE_LO, n, 0, 0⟩, 0, 32⟩
abbrev SRC_HOG_BASE_HI (n : Nat) : Field := ⟨⟨.SRC_HOG_BASE_HI, n, 0, 0⟩, 0, 32⟩
abbrev SRC_HOG_SIZE (n : Nat) : Field := ⟨⟨.SRC_HOG_SIZE, n, 0, 0⟩, 0, 32⟩
abbrev SRC_MON_CTRL_black_frames (n : Nat) : Field := ⟨⟨.SRC_MON_CTRL, n, 0, 0⟩, 24, 8⟩
abbrev SRC_MON_CTRL_freeze_frames (n : Nat) : Field := ⟨⟨.SRC_MON_CTRL, n, 0, 0⟩, 16, 8⟩
abbrev SRC_MON_CTRL_black_thresh (n : Nat) : Field := ⟨⟨.SRC_MON_CTRL, n, 0, 0⟩, 0, 12⟩
abbrev SRC_DIGEST (n : Nat) : Field := ⟨⟨.SRC_DIGEST, n, 0, 0⟩, 0, 32⟩
abbrev SRC_COMPACT_RATIO (n : Nat) : Field := ⟨⟨.SRC_COMPACT_RATIO, n, 0, 0⟩, 0, 11⟩
abbrev SRC_CNT_FRAMES (n : Nat) : Field := ⟨⟨.SRC_CNT_FRAMES, n, 0, 0⟩, 0, 32⟩
abbrev SRC_CNT_SKIPPED (n : Nat) : Field := ⟨⟨.SRC_CNT_SKIPPED, n, 0, 0⟩, 0, 32⟩
abbrev SRC_CNT_ABANDONED (n : Nat) : Field := ⟨⟨.SRC_CNT_ABANDONED, n, 0, 0⟩, 0, 32⟩
abbrev SRC_CNT_LATE (n : Nat) : Field := ⟨⟨.SRC_CNT_LATE, n, 0, 0⟩, 0, 32⟩
abbrev SRC_CNT_CONCEAL (n : Nat) : Field := ⟨⟨.SRC_CNT_CONCEAL, n, 0, 0⟩, 0, 32⟩
abbrev SRC_CNT_UE (n : Nat) : Field := ⟨⟨.SRC_CNT_UE, n, 0, 0⟩, 0, 32⟩
abbrev SRC_CNT_OVERTAKE (n : Nat) : Field := ⟨⟨.SRC_CNT_OVERTAKE, n, 0, 0⟩, 0, 32⟩
abbrev SRC_CNT_ANC_DROP (n : Nat) : Field := ⟨⟨.SRC_CNT_ANC_DROP, n, 0, 0⟩, 0, 32⟩
abbrev SRC_CNT_LOCAL (n : Nat) : Field := ⟨⟨.SRC_CNT_LOCAL, n, 0, 0⟩, 0, 32⟩
abbrev SRC_CNT_DIGEST_MISMATCH (n : Nat) : Field := ⟨⟨.SRC_CNT_DIGEST_MISMATCH, n, 0, 0⟩, 0, 32⟩
abbrev SRC_CNT_RAW_TILES (n : Nat) : Field := ⟨⟨.SRC_CNT_RAW_TILES, n, 0, 0⟩, 0, 32⟩
abbrev SRC_CNT_CLEAR (n : Nat) : Field := ⟨⟨.SRC_CNT_CLEAR, n, 0, 0⟩, 0, 1⟩
abbrev DST_CTRL_colorimetry (n : Nat) : Field := ⟨⟨.DST_CTRL, n, 0, 0⟩, 24, 4⟩
abbrev DST_CTRL_out_depth (n : Nat) : Field := ⟨⟨.DST_CTRL, n, 0, 0⟩, 20, 2⟩
abbrev DST_CTRL_out_sampling (n : Nat) : Field := ⟨⟨.DST_CTRL, n, 0, 0⟩, 16, 4⟩
abbrev DST_CTRL_field_take (n : Nat) : Field := ⟨⟨.DST_CTRL, n, 0, 0⟩, 14, 1⟩
abbrev DST_CTRL_opaque (n : Nat) : Field := ⟨⟨.DST_CTRL, n, 0, 0⟩, 13, 1⟩
abbrev DST_CTRL_quad_pos (n : Nat) : Field := ⟨⟨.DST_CTRL, n, 0, 0⟩, 10, 2⟩
abbrev DST_CTRL_quad_member (n : Nat) : Field := ⟨⟨.DST_CTRL, n, 0, 0⟩, 9, 1⟩
abbrev DST_CTRL_otg (n : Nat) : Field := ⟨⟨.DST_CTRL, n, 0, 0⟩, 4, 5⟩
abbrev DST_CTRL_transport (n : Nat) : Field := ⟨⟨.DST_CTRL, n, 0, 0⟩, 2, 2⟩
abbrev DST_CTRL_enable (n : Nat) : Field := ⟨⟨.DST_CTRL, n, 0, 0⟩, 0, 1⟩
abbrev DST_OUTPUT_id (n : Nat) : Field := ⟨⟨.DST_OUTPUT, n, 0, 0⟩, 0, 13⟩
abbrev DST_TAKE_line_mode (n : Nat) : Field := ⟨⟨.DST_TAKE, n, 0, 0⟩, 16, 1⟩
abbrev DST_TAKE_source (n : Nat) : Field := ⟨⟨.DST_TAKE, n, 0, 0⟩, 0, 12⟩
abbrev DST_BREAK_audio_follow (n : Nat) : Field := ⟨⟨.DST_BREAK, n, 0, 0⟩, 29, 1⟩
abbrev DST_BREAK_anc_follow (n : Nat) : Field := ⟨⟨.DST_BREAK, n, 0, 0⟩, 28, 1⟩
abbrev DST_BREAK_audio_src (n : Nat) : Field := ⟨⟨.DST_BREAK, n, 0, 0⟩, 16, 12⟩
abbrev DST_BREAK_anc_src (n : Nat) : Field := ⟨⟨.DST_BREAK, n, 0, 0⟩, 0, 12⟩
abbrev DST_CUR_VIDEO (n : Nat) : Field := ⟨⟨.DST_CUR_VIDEO, n, 0, 0⟩, 0, 32⟩
abbrev DST_CUR_VIDEO_line_mode (n : Nat) : Field := ⟨⟨.DST_CUR_VIDEO, n, 0, 0⟩, 16, 1⟩
abbrev DST_CUR_VIDEO_source (n : Nat) : Field := ⟨⟨.DST_CUR_VIDEO, n, 0, 0⟩, 0, 12⟩
abbrev DST_CUR_BREAK (n : Nat) : Field := ⟨⟨.DST_CUR_BREAK, n, 0, 0⟩, 0, 32⟩
abbrev DST_CUR_BREAK_audio_follow (n : Nat) : Field := ⟨⟨.DST_CUR_BREAK, n, 0, 0⟩, 29, 1⟩
abbrev DST_CUR_BREAK_anc_follow (n : Nat) : Field := ⟨⟨.DST_CUR_BREAK, n, 0, 0⟩, 28, 1⟩
abbrev DST_CUR_BREAK_audio_src (n : Nat) : Field := ⟨⟨.DST_CUR_BREAK, n, 0, 0⟩, 16, 12⟩
abbrev DST_CUR_BREAK_anc_src (n : Nat) : Field := ⟨⟨.DST_CUR_BREAK, n, 0, 0⟩, 0, 12⟩
abbrev DST_LANDED_LO (n : Nat) : Field := ⟨⟨.DST_LANDED_LO, n, 0, 0⟩, 0, 32⟩
abbrev DST_LANDED_HI (n : Nat) : Field := ⟨⟨.DST_LANDED_HI, n, 0, 0⟩, 0, 32⟩
abbrev DST_HOLD_state (n : Nat) : Field := ⟨⟨.DST_HOLD, n, 0, 0⟩, 16, 2⟩
abbrev DST_HOLD_owner (n : Nat) : Field := ⟨⟨.DST_HOLD, n, 0, 0⟩, 0, 16⟩
abbrev DST_FILL_Y (n : Nat) : Field := ⟨⟨.DST_FILL_Y, n, 0, 0⟩, 0, 12⟩
abbrev DST_FILL_C_cb (n : Nat) : Field := ⟨⟨.DST_FILL_C, n, 0, 0⟩, 12, 12⟩
abbrev DST_FILL_C_cr (n : Nat) : Field := ⟨⟨.DST_FILL_C, n, 0, 0⟩, 0, 12⟩
abbrev DST_OPQ_lead_us (n : Nat) : Field := ⟨⟨.DST_OPQ, n, 0, 0⟩, 0, 14⟩
abbrev DST_OVL_CTRL_key_mode (n n' : Nat) : Field := ⟨⟨.DST_OVL_CTRL, n, n', 0⟩, 24, 2⟩
abbrev DST_OVL_CTRL_global_alpha (n n' : Nat) : Field := ⟨⟨.DST_OVL_CTRL, n, n', 0⟩, 16, 8⟩
abbrev DST_OVL_CTRL_source (n n' : Nat) : Field := ⟨⟨.DST_OVL_CTRL, n, n', 0⟩, 0, 12⟩
abbrev DST_OVL_POS_x (n n' : Nat) : Field := ⟨⟨.DST_OVL_POS, n, n', 0⟩, 16, 16⟩
abbrev DST_OVL_POS_y (n n' : Nat) : Field := ⟨⟨.DST_OVL_POS, n, n', 0⟩, 0, 16⟩
abbrev DST_CUR_OVL_CTRL (n n' : Nat) : Field := ⟨⟨.DST_CUR_OVL_CTRL, n, n', 0⟩, 0, 32⟩
abbrev DST_CUR_OVL_CTRL_key_mode (n n' : Nat) : Field := ⟨⟨.DST_CUR_OVL_CTRL, n, n', 0⟩, 24, 2⟩
abbrev DST_CUR_OVL_CTRL_global_alpha (n n' : Nat) : Field := ⟨⟨.DST_CUR_OVL_CTRL, n, n', 0⟩, 16, 8⟩
abbrev DST_CUR_OVL_CTRL_source (n n' : Nat) : Field := ⟨⟨.DST_CUR_OVL_CTRL, n, n', 0⟩, 0, 12⟩
abbrev DST_CUR_OVL_POS (n n' : Nat) : Field := ⟨⟨.DST_CUR_OVL_POS, n, n', 0⟩, 0, 32⟩
abbrev DST_CUR_OVL_POS_x (n n' : Nat) : Field := ⟨⟨.DST_CUR_OVL_POS, n, n', 0⟩, 16, 16⟩
abbrev DST_CUR_OVL_POS_y (n n' : Nat) : Field := ⟨⟨.DST_CUR_OVL_POS, n, n', 0⟩, 0, 16⟩
abbrev DST_STATUS (n : Nat) : Field := ⟨⟨.DST_STATUS, n, 0, 0⟩, 0, 8⟩
abbrev DST_STATUS_otg_flywheel (n : Nat) : Field := ⟨⟨.DST_STATUS, n, 0, 0⟩, 7, 1⟩
abbrev DST_STATUS_format_conflict (n : Nat) : Field := ⟨⟨.DST_STATUS, n, 0, 0⟩, 6, 1⟩
abbrev DST_STATUS_line_mode_fallback (n : Nat) : Field := ⟨⟨.DST_STATUS, n, 0, 0⟩, 5, 1⟩
abbrev DST_STATUS_parked (n : Nat) : Field := ⟨⟨.DST_STATUS, n, 0, 0⟩, 4, 1⟩
abbrev DST_STATUS_not_ready (n : Nat) : Field := ⟨⟨.DST_STATUS, n, 0, 0⟩, 0, 3⟩
abbrev DST_ALARM (n : Nat) : Field := ⟨⟨.DST_ALARM, n, 0, 0⟩, 0, 13⟩
abbrev DST_ALARM_opq_gap (n : Nat) : Field := ⟨⟨.DST_ALARM, n, 0, 0⟩, 12, 1⟩
abbrev DST_ALARM_opq_rate (n : Nat) : Field := ⟨⟨.DST_ALARM, n, 0, 0⟩, 11, 1⟩
abbrev DST_ALARM_otg_flywheel (n : Nat) : Field := ⟨⟨.DST_ALARM, n, 0, 0⟩, 10, 1⟩
abbrev DST_ALARM_format_conflict (n : Nat) : Field := ⟨⟨.DST_ALARM, n, 0, 0⟩, 9, 1⟩
abbrev DST_ALARM_line_mode_fallback (n : Nat) : Field := ⟨⟨.DST_ALARM, n, 0, 0⟩, 8, 1⟩
abbrev DST_ALARM_ue_substitute (n : Nat) : Field := ⟨⟨.DST_ALARM, n, 0, 0⟩, 7, 1⟩
abbrev DST_ALARM_superseded (n : Nat) : Field := ⟨⟨.DST_ALARM, n, 0, 0⟩, 6, 1⟩
abbrev DST_ALARM_underrun (n : Nat) : Field := ⟨⟨.DST_ALARM, n, 0, 0⟩, 3, 3⟩
abbrev DST_ALARM_not_ready (n : Nat) : Field := ⟨⟨.DST_ALARM, n, 0, 0⟩, 0, 3⟩
abbrev DST_ALARM_EN (n : Nat) : Field := ⟨⟨.DST_ALARM_EN, n, 0, 0⟩, 0, 13⟩
abbrev DST_SHOWN_SEQ (n : Nat) : Field := ⟨⟨.DST_SHOWN_SEQ, n, 0, 0⟩, 0, 32⟩
abbrev DST_CNT_TAKES (n : Nat) : Field := ⟨⟨.DST_CNT_TAKES, n, 0, 0⟩, 0, 32⟩
abbrev DST_CNT_SUPERSEDED (n : Nat) : Field := ⟨⟨.DST_CNT_SUPERSEDED, n, 0, 0⟩, 0, 32⟩
abbrev DST_CNT_NOT_READY (n : Nat) : Field := ⟨⟨.DST_CNT_NOT_READY, n, 0, 0⟩, 0, 32⟩
abbrev DST_CNT_UNDERRUN (n : Nat) : Field := ⟨⟨.DST_CNT_UNDERRUN, n, 0, 0⟩, 0, 32⟩
abbrev DST_CNT_REPEAT (n : Nat) : Field := ⟨⟨.DST_CNT_REPEAT, n, 0, 0⟩, 0, 32⟩
abbrev DST_CNT_DROP (n : Nat) : Field := ⟨⟨.DST_CNT_DROP, n, 0, 0⟩, 0, 32⟩
abbrev DST_CNT_UE (n : Nat) : Field := ⟨⟨.DST_CNT_UE, n, 0, 0⟩, 0, 32⟩
abbrev DST_CNT_OPQ_GAP (n : Nat) : Field := ⟨⟨.DST_CNT_OPQ_GAP, n, 0, 0⟩, 0, 32⟩
abbrev DST_CNT_CLEAR (n : Nat) : Field := ⟨⟨.DST_CNT_CLEAR, n, 0, 0⟩, 0, 1⟩
abbrev PRC_CTRL_dest (p : Nat) : Field := ⟨⟨.PRC_CTRL, p, 0, 0⟩, 16, 10⟩
abbrev PRC_CTRL_quad_pos (p : Nat) : Field := ⟨⟨.PRC_CTRL, p, 0, 0⟩, 12, 2⟩
abbrev PRC_CTRL_quad_member (p : Nat) : Field := ⟨⟨.PRC_CTRL, p, 0, 0⟩, 11, 1⟩
abbrev PRC_CTRL_gang (p : Nat) : Field := ⟨⟨.PRC_CTRL, p, 0, 0⟩, 8, 2⟩
abbrev PRC_CTRL_place (p : Nat) : Field := ⟨⟨.PRC_CTRL, p, 0, 0⟩, 4, 1⟩
abbrev PRC_CTRL_enable (p : Nat) : Field := ⟨⟨.PRC_CTRL, p, 0, 0⟩, 0, 1⟩
abbrev PRC_INPUT_otg (p : Nat) : Field := ⟨⟨.PRC_INPUT, p, 0, 0⟩, 16, 5⟩
abbrev PRC_INPUT_source (p : Nat) : Field := ⟨⟨.PRC_INPUT, p, 0, 0⟩, 0, 12⟩
abbrev PRC_OUT_FMT_transfer (p : Nat) : Field := ⟨⟨.PRC_OUT_FMT, p, 0, 0⟩, 24, 4⟩
abbrev PRC_OUT_FMT_colorimetry (p : Nat) : Field := ⟨⟨.PRC_OUT_FMT, p, 0, 0⟩, 20, 4⟩
abbrev PRC_OUT_FMT_depth (p : Nat) : Field := ⟨⟨.PRC_OUT_FMT, p, 0, 0⟩, 16, 2⟩
abbrev PRC_OUT_FMT_sampling (p : Nat) : Field := ⟨⟨.PRC_OUT_FMT, p, 0, 0⟩, 8, 4⟩
abbrev PRC_OUT_FMT_format (p : Nat) : Field := ⟨⟨.PRC_OUT_FMT, p, 0, 0⟩, 0, 8⟩
abbrev PRC_OUT_ratio (p : Nat) : Field := ⟨⟨.PRC_OUT, p, 0, 0⟩, 28, 4⟩
abbrev PRC_OUT_compact (p : Nat) : Field := ⟨⟨.PRC_OUT, p, 0, 0⟩, 24, 1⟩
abbrev PRC_OUT_guard_us (p : Nat) : Field := ⟨⟨.PRC_OUT, p, 0, 0⟩, 8, 14⟩
abbrev PRC_OUT_depth (p : Nat) : Field := ⟨⟨.PRC_OUT, p, 0, 0⟩, 0, 5⟩
abbrev PRC_FUNC_lut_slot (p : Nat) : Field := ⟨⟨.PRC_FUNC, p, 0, 0⟩, 16, 6⟩
abbrev PRC_FUNC_enables (p : Nat) : Field := ⟨⟨.PRC_FUNC, p, 0, 0⟩, 0, 9⟩
abbrev PRC_FUNC_out_curve (p : Nat) : Field := ⟨⟨.PRC_FUNC, p, 0, 0⟩, 8, 1⟩
abbrev PRC_FUNC_out_matrix (p : Nat) : Field := ⟨⟨.PRC_FUNC, p, 0, 0⟩, 7, 1⟩
abbrev PRC_FUNC_lut3d (p : Nat) : Field := ⟨⟨.PRC_FUNC, p, 0, 0⟩, 6, 1⟩
abbrev PRC_FUNC_in_matrix (p : Nat) : Field := ⟨⟨.PRC_FUNC, p, 0, 0⟩, 5, 1⟩
abbrev PRC_FUNC_in_curve (p : Nat) : Field := ⟨⟨.PRC_FUNC, p, 0, 0⟩, 4, 1⟩
abbrev PRC_FUNC_deint (p : Nat) : Field := ⟨⟨.PRC_FUNC, p, 0, 0⟩, 3, 1⟩
abbrev PRC_FUNC_frc (p : Nat) : Field := ⟨⟨.PRC_FUNC, p, 0, 0⟩, 2, 1⟩
abbrev PRC_FUNC_scale (p : Nat) : Field := ⟨⟨.PRC_FUNC, p, 0, 0⟩, 1, 1⟩
abbrev PRC_FUNC_crop (p : Nat) : Field := ⟨⟨.PRC_FUNC, p, 0, 0⟩, 0, 1⟩
abbrev PRC_CROP_X_x (p : Nat) : Field := ⟨⟨.PRC_CROP_X, p, 0, 0⟩, 16, 16⟩
abbrev PRC_CROP_X_w (p : Nat) : Field := ⟨⟨.PRC_CROP_X, p, 0, 0⟩, 0, 16⟩
abbrev PRC_CROP_Y_y (p : Nat) : Field := ⟨⟨.PRC_CROP_Y, p, 0, 0⟩, 16, 16⟩
abbrev PRC_CROP_Y_h (p : Nat) : Field := ⟨⟨.PRC_CROP_Y, p, 0, 0⟩, 0, 16⟩
abbrev PRC_SCALE_kernel (p : Nat) : Field := ⟨⟨.PRC_SCALE, p, 0, 0⟩, 16, 2⟩
abbrev PRC_SCALE_htaps (p : Nat) : Field := ⟨⟨.PRC_SCALE, p, 0, 0⟩, 8, 5⟩
abbrev PRC_SCALE_vtaps (p : Nat) : Field := ⟨⟨.PRC_SCALE, p, 0, 0⟩, 0, 4⟩
abbrev PRC_FRC_snap (p : Nat) : Field := ⟨⟨.PRC_FRC, p, 0, 0⟩, 0, 4⟩
abbrev PRC_DEINT_gain (p : Nat) : Field := ⟨⟨.PRC_DEINT, p, 0, 0⟩, 16, 4⟩
abbrev PRC_DEINT_threshold (p : Nat) : Field := ⟨⟨.PRC_DEINT, p, 0, 0⟩, 0, 12⟩
abbrev PRC_STATUS (p : Nat) : Field := ⟨⟨.PRC_STATUS, p, 0, 0⟩, 0, 8⟩
abbrev PRC_STATUS_content_missing (p : Nat) : Field := ⟨⟨.PRC_STATUS, p, 0, 0⟩, 7, 1⟩
abbrev PRC_STATUS_over_budget (p : Nat) : Field := ⟨⟨.PRC_STATUS, p, 0, 0⟩, 6, 1⟩
abbrev PRC_STATUS_ell_short (p : Nat) : Field := ⟨⟨.PRC_STATUS, p, 0, 0⟩, 5, 1⟩
abbrev PRC_STATUS_reduced_taps (p : Nat) : Field := ⟨⟨.PRC_STATUS, p, 0, 0⟩, 4, 1⟩
abbrev PRC_STATUS_shed_bypass (p : Nat) : Field := ⟨⟨.PRC_STATUS, p, 0, 0⟩, 3, 1⟩
abbrev PRC_STATUS_crop_clipped (p : Nat) : Field := ⟨⟨.PRC_STATUS, p, 0, 0⟩, 2, 1⟩
abbrev PRC_STATUS_history_short (p : Nat) : Field := ⟨⟨.PRC_STATUS, p, 0, 0⟩, 1, 1⟩
abbrev PRC_STATUS_producing (p : Nat) : Field := ⟨⟨.PRC_STATUS, p, 0, 0⟩, 0, 1⟩
abbrev PRC_ALARM (p : Nat) : Field := ⟨⟨.PRC_ALARM, p, 0, 0⟩, 0, 9⟩
abbrev PRC_ALARM_ue_substitute (p : Nat) : Field := ⟨⟨.PRC_ALARM, p, 0, 0⟩, 8, 1⟩
abbrev PRC_ALARM_late (p : Nat) : Field := ⟨⟨.PRC_ALARM, p, 0, 0⟩, 7, 1⟩
abbrev PRC_ALARM_no_frame (p : Nat) : Field := ⟨⟨.PRC_ALARM, p, 0, 0⟩, 6, 1⟩
abbrev PRC_ALARM_content_missing (p : Nat) : Field := ⟨⟨.PRC_ALARM, p, 0, 0⟩, 5, 1⟩
abbrev PRC_ALARM_over_budget (p : Nat) : Field := ⟨⟨.PRC_ALARM, p, 0, 0⟩, 4, 1⟩
abbrev PRC_ALARM_ell_short (p : Nat) : Field := ⟨⟨.PRC_ALARM, p, 0, 0⟩, 3, 1⟩
abbrev PRC_ALARM_reduced_taps (p : Nat) : Field := ⟨⟨.PRC_ALARM, p, 0, 0⟩, 2, 1⟩
abbrev PRC_ALARM_crop_clipped (p : Nat) : Field := ⟨⟨.PRC_ALARM, p, 0, 0⟩, 1, 1⟩
abbrev PRC_ALARM_history_short (p : Nat) : Field := ⟨⟨.PRC_ALARM, p, 0, 0⟩, 0, 1⟩
abbrev PRC_ALARM_EN (p : Nat) : Field := ⟨⟨.PRC_ALARM_EN, p, 0, 0⟩, 0, 9⟩
abbrev PRC_ELLS_vtaps_eff (p : Nat) : Field := ⟨⟨.PRC_ELLS, p, 0, 0⟩, 24, 4⟩
abbrev PRC_ELLS_need (p : Nat) : Field := ⟨⟨.PRC_ELLS, p, 0, 0⟩, 16, 7⟩
abbrev PRC_ELLS_grant (p : Nat) : Field := ⟨⟨.PRC_ELLS, p, 0, 0⟩, 0, 7⟩
abbrev PRC_LOAD (p : Nat) : Field := ⟨⟨.PRC_LOAD, p, 0, 0⟩, 0, 18⟩
abbrev PRC_ENG_active (p : Nat) : Field := ⟨⟨.PRC_ENG, p, 0, 0⟩, 16, 4⟩
abbrev PRC_ENG_free (p : Nat) : Field := ⟨⟨.PRC_ENG, p, 0, 0⟩, 0, 7⟩
abbrev PRC_SEQ (p : Nat) : Field := ⟨⟨.PRC_SEQ, p, 0, 0⟩, 0, 32⟩
abbrev PRC_CNT_FRAMES (p : Nat) : Field := ⟨⟨.PRC_CNT_FRAMES, p, 0, 0⟩, 0, 32⟩
abbrev PRC_CNT_LATE (p : Nat) : Field := ⟨⟨.PRC_CNT_LATE, p, 0, 0⟩, 0, 32⟩
abbrev PRC_CNT_NO_FRAME (p : Nat) : Field := ⟨⟨.PRC_CNT_NO_FRAME, p, 0, 0⟩, 0, 32⟩
abbrev PRC_CNT_UE (p : Nat) : Field := ⟨⟨.PRC_CNT_UE, p, 0, 0⟩, 0, 32⟩
abbrev PRC_CNT_REDUCED (p : Nat) : Field := ⟨⟨.PRC_CNT_REDUCED, p, 0, 0⟩, 0, 32⟩
abbrev PRC_CNT_CLEAR (p : Nat) : Field := ⟨⟨.PRC_CNT_CLEAR, p, 0, 0⟩, 0, 1⟩
abbrev PRC_MTX_COEF (p m i : Nat) : Field := ⟨⟨.PRC_MTX_COEF, p, m, i⟩, 0, 18⟩
abbrev PRC_MTX_PRE (p m c : Nat) : Field := ⟨⟨.PRC_MTX_PRE, p, m, c⟩, 0, 18⟩
abbrev PRC_MTX_POST (p m r : Nat) : Field := ⟨⟨.PRC_MTX_POST, p, m, r⟩, 0, 18⟩
abbrev MVH_CTRL_out_dest (h : Nat) : Field := ⟨⟨.MVH_CTRL, h, 0, 0⟩, 16, 10⟩
abbrev MVH_CTRL_direct_en (h : Nat) : Field := ⟨⟨.MVH_CTRL, h, 0, 0⟩, 12, 1⟩
abbrev MVH_CTRL_otg (h : Nat) : Field := ⟨⟨.MVH_CTRL, h, 0, 0⟩, 4, 5⟩
abbrev MVH_CTRL_enable (h : Nat) : Field := ⟨⟨.MVH_CTRL, h, 0, 0⟩, 0, 1⟩
abbrev MVH_OUT_ratio (h : Nat) : Field := ⟨⟨.MVH_OUT, h, 0, 0⟩, 28, 4⟩
abbrev MVH_OUT_colorimetry (h : Nat) : Field := ⟨⟨.MVH_OUT, h, 0, 0⟩, 24, 4⟩
abbrev MVH_OUT_compact (h : Nat) : Field := ⟨⟨.MVH_OUT, h, 0, 0⟩, 23, 1⟩
abbrev MVH_OUT_guard_us (h : Nat) : Field := ⟨⟨.MVH_OUT, h, 0, 0⟩, 8, 14⟩
abbrev MVH_OUT_depth (h : Nat) : Field := ⟨⟨.MVH_OUT, h, 0, 0⟩, 0, 5⟩
abbrev MVH_BG_Y (h : Nat) : Field := ⟨⟨.MVH_BG_Y, h, 0, 0⟩, 0, 12⟩
abbrev MVH_BG_C_cb (h : Nat) : Field := ⟨⟨.MVH_BG_C, h, 0, 0⟩, 12, 12⟩
abbrev MVH_BG_C_cr (h : Nat) : Field := ⟨⟨.MVH_BG_C, h, 0, 0⟩, 0, 12⟩
abbrev MVH_MON_flat_range (h : Nat) : Field := ⟨⟨.MVH_MON, h, 0, 0⟩, 16, 12⟩
abbrev MVH_MON_black_frames (h : Nat) : Field := ⟨⟨.MVH_MON, h, 0, 0⟩, 12, 4⟩
abbrev MVH_MON_black_thresh (h : Nat) : Field := ⟨⟨.MVH_MON, h, 0, 0⟩, 0, 12⟩
abbrev MVH_METER_yellow (h : Nat) : Field := ⟨⟨.MVH_METER, h, 0, 0⟩, 8, 8⟩
abbrev MVH_METER_red (h : Nat) : Field := ⟨⟨.MVH_METER, h, 0, 0⟩, 0, 8⟩
abbrev MVH_TILES_count (h : Nat) : Field := ⟨⟨.MVH_TILES, h, 0, 0⟩, 0, 11⟩
abbrev MVH_LOAD (h : Nat) : Field := ⟨⟨.MVH_LOAD, h, 0, 0⟩, 0, 16⟩
abbrev MVH_STATUS (h : Nat) : Field := ⟨⟨.MVH_STATUS, h, 0, 0⟩, 0, 5⟩
abbrev MVH_STATUS_over_budget (h : Nat) : Field := ⟨⟨.MVH_STATUS, h, 0, 0⟩, 4, 1⟩
abbrev MVH_STATUS_shed_repeat (h : Nat) : Field := ⟨⟨.MVH_STATUS, h, 0, 0⟩, 3, 1⟩
abbrev MVH_STATUS_font_missing (h : Nat) : Field := ⟨⟨.MVH_STATUS, h, 0, 0⟩, 2, 1⟩
abbrev MVH_STATUS_direct_active (h : Nat) : Field := ⟨⟨.MVH_STATUS, h, 0, 0⟩, 1, 1⟩
abbrev MVH_STATUS_producing (h : Nat) : Field := ⟨⟨.MVH_STATUS, h, 0, 0⟩, 0, 1⟩
abbrev MVH_ALARM (h : Nat) : Field := ⟨⟨.MVH_ALARM, h, 0, 0⟩, 0, 7⟩
abbrev MVH_ALARM_expect_mismatch (h : Nat) : Field := ⟨⟨.MVH_ALARM, h, 0, 0⟩, 6, 1⟩
abbrev MVH_ALARM_scruple_mismatch (h : Nat) : Field := ⟨⟨.MVH_ALARM, h, 0, 0⟩, 5, 1⟩
abbrev MVH_ALARM_tile_late (h : Nat) : Field := ⟨⟨.MVH_ALARM, h, 0, 0⟩, 4, 1⟩
abbrev MVH_ALARM_late (h : Nat) : Field := ⟨⟨.MVH_ALARM, h, 0, 0⟩, 3, 1⟩
abbrev MVH_ALARM_font_missing (h : Nat) : Field := ⟨⟨.MVH_ALARM, h, 0, 0⟩, 2, 1⟩
abbrev MVH_ALARM_tile_not_ready (h : Nat) : Field := ⟨⟨.MVH_ALARM, h, 0, 0⟩, 1, 1⟩
abbrev MVH_ALARM_ue_substitute (h : Nat) : Field := ⟨⟨.MVH_ALARM, h, 0, 0⟩, 0, 1⟩
abbrev MVH_ALARM_EN (h : Nat) : Field := ⟨⟨.MVH_ALARM_EN, h, 0, 0⟩, 0, 7⟩
abbrev MVH_SEQ (h : Nat) : Field := ⟨⟨.MVH_SEQ, h, 0, 0⟩, 0, 32⟩
abbrev MVH_CNT_FRAMES (h : Nat) : Field := ⟨⟨.MVH_CNT_FRAMES, h, 0, 0⟩, 0, 32⟩
abbrev MVH_CNT_LATE (h : Nat) : Field := ⟨⟨.MVH_CNT_LATE, h, 0, 0⟩, 0, 32⟩
abbrev MVH_CNT_TILE_LATE (h : Nat) : Field := ⟨⟨.MVH_CNT_TILE_LATE, h, 0, 0⟩, 0, 32⟩
abbrev MVH_CNT_TILE_NOT_READY (h : Nat) : Field := ⟨⟨.MVH_CNT_TILE_NOT_READY, h, 0, 0⟩, 0, 32⟩
abbrev MVH_CNT_UE (h : Nat) : Field := ⟨⟨.MVH_CNT_UE, h, 0, 0⟩, 0, 32⟩
abbrev MVH_CNT_SCRUPLE_MISMATCH (h : Nat) : Field := ⟨⟨.MVH_CNT_SCRUPLE_MISMATCH, h, 0, 0⟩, 0, 32⟩
abbrev MVH_CNT_CLEAR (h : Nat) : Field := ⟨⟨.MVH_CNT_CLEAR, h, 0, 0⟩, 0, 1⟩
abbrev MVH_T_SRC_enable (h t : Nat) : Field := ⟨⟨.MVH_T_SRC, h, t, 0⟩, 31, 1⟩
abbrev MVH_T_SRC_mode (h t : Nat) : Field := ⟨⟨.MVH_T_SRC, h, t, 0⟩, 28, 1⟩
abbrev MVH_T_SRC_source (h t : Nat) : Field := ⟨⟨.MVH_T_SRC, h, t, 0⟩, 0, 12⟩
abbrev MVH_T_RECT_X_x (h t : Nat) : Field := ⟨⟨.MVH_T_RECT_X, h, t, 0⟩, 16, 16⟩
abbrev MVH_T_RECT_X_w (h t : Nat) : Field := ⟨⟨.MVH_T_RECT_X, h, t, 0⟩, 0, 16⟩
abbrev MVH_T_RECT_Y_y (h t : Nat) : Field := ⟨⟨.MVH_T_RECT_Y, h, t, 0⟩, 16, 16⟩
abbrev MVH_T_RECT_Y_h (h t : Nat) : Field := ⟨⟨.MVH_T_RECT_Y, h, t, 0⟩, 0, 16⟩
abbrev MVH_T_DECO_border_w (h t : Nat) : Field := ⟨⟨.MVH_T_DECO, h, t, 0⟩, 28, 4⟩
abbrev MVH_T_DECO_tally (h t : Nat) : Field := ⟨⟨.MVH_T_DECO, h, t, 0⟩, 24, 2⟩
abbrev MVH_T_DECO_alarm_mask (h t : Nat) : Field := ⟨⟨.MVH_T_DECO, h, t, 0⟩, 20, 4⟩
abbrev MVH_T_DECO_umd_pos (h t : Nat) : Field := ⟨⟨.MVH_T_DECO, h, t, 0⟩, 16, 2⟩
abbrev MVH_T_DECO_umd_font (h t : Nat) : Field := ⟨⟨.MVH_T_DECO, h, t, 0⟩, 12, 2⟩
abbrev MVH_T_DECO_umd_fg (h t : Nat) : Field := ⟨⟨.MVH_T_DECO, h, t, 0⟩, 8, 3⟩
abbrev MVH_T_DECO_umd_bg (h t : Nat) : Field := ⟨⟨.MVH_T_DECO, h, t, 0⟩, 4, 3⟩
abbrev MVH_T_DECO_umd_bg_clear (h t : Nat) : Field := ⟨⟨.MVH_T_DECO, h, t, 0⟩, 3, 1⟩
abbrev MVH_T_METER_count (h t : Nat) : Field := ⟨⟨.MVH_T_METER, h, t, 0⟩, 16, 5⟩
abbrev MVH_T_METER_side (h t : Nat) : Field := ⟨⟨.MVH_T_METER, h, t, 0⟩, 15, 1⟩
abbrev MVH_T_METER_base (h t : Nat) : Field := ⟨⟨.MVH_T_METER, h, t, 0⟩, 0, 15⟩
abbrev MVH_T_STATUS (h t : Nat) : Field := ⟨⟨.MVH_T_STATUS, h, t, 0⟩, 0, 5⟩
abbrev MVH_T_STATUS_not_ready (h t : Nat) : Field := ⟨⟨.MVH_T_STATUS, h, t, 0⟩, 4, 1⟩
abbrev MVH_T_STATUS_late (h t : Nat) : Field := ⟨⟨.MVH_T_STATUS, h, t, 0⟩, 3, 1⟩
abbrev MVH_T_STATUS_flat (h t : Nat) : Field := ⟨⟨.MVH_T_STATUS, h, t, 0⟩, 2, 1⟩
abbrev MVH_T_STATUS_black (h t : Nat) : Field := ⟨⟨.MVH_T_STATUS, h, t, 0⟩, 1, 1⟩
abbrev MVH_T_STATUS_frozen (h t : Nat) : Field := ⟨⟨.MVH_T_STATUS, h, t, 0⟩, 0, 1⟩
abbrev MVH_T_SHOWN_SEQ (h t : Nat) : Field := ⟨⟨.MVH_T_SHOWN_SEQ, h, t, 0⟩, 0, 32⟩
abbrev MVH_T_TEXT (h t i : Nat) : Field := ⟨⟨.MVH_T_TEXT, h, t, i⟩, 0, 32⟩
abbrev MVH_GR_CTRL_mode (h r : Nat) : Field := ⟨⟨.MVH_GR_CTRL, h, r, 0⟩, 0, 2⟩
abbrev MVH_GR_X_x (h r : Nat) : Field := ⟨⟨.MVH_GR_X, h, r, 0⟩, 16, 16⟩
abbrev MVH_GR_X_w (h r : Nat) : Field := ⟨⟨.MVH_GR_X, h, r, 0⟩, 0, 16⟩
abbrev MVH_GR_Y_y (h r : Nat) : Field := ⟨⟨.MVH_GR_Y, h, r, 0⟩, 16, 16⟩
abbrev MVH_GR_Y_h (h r : Nat) : Field := ⟨⟨.MVH_GR_Y, h, r, 0⟩, 0, 16⟩
abbrev MVH_GR_EXPECT (h r : Nat) : Field := ⟨⟨.MVH_GR_EXPECT, h, r, 0⟩, 0, 32⟩
abbrev MVH_GR_PRED (h r : Nat) : Field := ⟨⟨.MVH_GR_PRED, h, r, 0⟩, 0, 32⟩
abbrev MVH_GR_MEAS (h r : Nat) : Field := ⟨⟨.MVH_GR_MEAS, h, r, 0⟩, 0, 32⟩
abbrev MVH_GR_STATUS_dest (h r : Nat) : Field := ⟨⟨.MVH_GR_STATUS, h, r, 0⟩, 16, 10⟩
abbrev MVH_GR_STATUS_result (h r : Nat) : Field := ⟨⟨.MVH_GR_STATUS, h, r, 0⟩, 0, 3⟩
abbrev MVH_GR_CNT (h r : Nat) : Field := ⟨⟨.MVH_GR_CNT, h, r, 0⟩, 0, 32⟩
abbrev MVH_CLK_CTRL_font (h c : Nat) : Field := ⟨⟨.MVH_CLK_CTRL, h, c, 0⟩, 20, 2⟩
abbrev MVH_CLK_CTRL_scale (h c : Nat) : Field := ⟨⟨.MVH_CLK_CTRL, h, c, 0⟩, 16, 3⟩
abbrev MVH_CLK_CTRL_kind (h c : Nat) : Field := ⟨⟨.MVH_CLK_CTRL, h, c, 0⟩, 4, 2⟩
abbrev MVH_CLK_CTRL_enable (h c : Nat) : Field := ⟨⟨.MVH_CLK_CTRL, h, c, 0⟩, 0, 1⟩
abbrev MVH_CLK_POS_x (h c : Nat) : Field := ⟨⟨.MVH_CLK_POS, h, c, 0⟩, 16, 16⟩
abbrev MVH_CLK_POS_y (h c : Nat) : Field := ⟨⟨.MVH_CLK_POS, h, c, 0⟩, 0, 16⟩
abbrev MVH_CLK_OFFSET (h c : Nat) : Field := ⟨⟨.MVH_CLK_OFFSET, h, c, 0⟩, 0, 16⟩
abbrev MVH_PAL_Y (h n : Nat) : Field := ⟨⟨.MVH_PAL_Y, h, n, 0⟩, 0, 12⟩
abbrev MVH_PAL_C_cb (h n : Nat) : Field := ⟨⟨.MVH_PAL_C, h, n, 0⟩, 12, 12⟩
abbrev MVH_PAL_C_cr (h n : Nat) : Field := ⟨⟨.MVH_PAL_C, h, n, 0⟩, 0, 12⟩
abbrev DMON_CTRL_black_frames (n : Nat) : Field := ⟨⟨.DMON_CTRL, n, 0, 0⟩, 24, 8⟩
abbrev DMON_CTRL_freeze_frames (n : Nat) : Field := ⟨⟨.DMON_CTRL, n, 0, 0⟩, 16, 8⟩
abbrev DMON_THRESH_flat_range (n : Nat) : Field := ⟨⟨.DMON_THRESH, n, 0, 0⟩, 16, 12⟩
abbrev DMON_THRESH_black_thresh (n : Nat) : Field := ⟨⟨.DMON_THRESH, n, 0, 0⟩, 0, 12⟩
abbrev DMON_DIGEST (n : Nat) : Field := ⟨⟨.DMON_DIGEST, n, 0, 0⟩, 0, 32⟩
abbrev DMON_LUMA_min (n : Nat) : Field := ⟨⟨.DMON_LUMA, n, 0, 0⟩, 12, 12⟩
abbrev DMON_LUMA_max (n : Nat) : Field := ⟨⟨.DMON_LUMA, n, 0, 0⟩, 0, 12⟩
abbrev DMON_STATUS (n : Nat) : Field := ⟨⟨.DMON_STATUS, n, 0, 0⟩, 0, 11⟩
abbrev DMON_STATUS_freeze_cause (n : Nat) : Field := ⟨⟨.DMON_STATUS, n, 0, 0⟩, 8, 3⟩
abbrev DMON_STATUS_flat (n : Nat) : Field := ⟨⟨.DMON_STATUS, n, 0, 0⟩, 3, 1⟩
abbrev DMON_STATUS_black (n : Nat) : Field := ⟨⟨.DMON_STATUS, n, 0, 0⟩, 2, 1⟩
abbrev DMON_STATUS_frozen_out (n : Nat) : Field := ⟨⟨.DMON_STATUS, n, 0, 0⟩, 1, 1⟩
abbrev DMON_STATUS_monitoring (n : Nat) : Field := ⟨⟨.DMON_STATUS, n, 0, 0⟩, 0, 1⟩
abbrev DMON_ALARM (n : Nat) : Field := ⟨⟨.DMON_ALARM, n, 0, 0⟩, 0, 4⟩
abbrev DMON_ALARM_dest_frozen (n : Nat) : Field := ⟨⟨.DMON_ALARM, n, 0, 0⟩, 3, 1⟩
abbrev DMON_ALARM_flat (n : Nat) : Field := ⟨⟨.DMON_ALARM, n, 0, 0⟩, 2, 1⟩
abbrev DMON_ALARM_black (n : Nat) : Field := ⟨⟨.DMON_ALARM, n, 0, 0⟩, 1, 1⟩
abbrev DMON_ALARM_frozen_out (n : Nat) : Field := ⟨⟨.DMON_ALARM, n, 0, 0⟩, 0, 1⟩
abbrev DMON_ALARM_EN (n : Nat) : Field := ⟨⟨.DMON_ALARM_EN, n, 0, 0⟩, 0, 4⟩
abbrev DMON_SEQ (n : Nat) : Field := ⟨⟨.DMON_SEQ, n, 0, 0⟩, 0, 32⟩
abbrev AUD_CTRL_ramp_ms : Field := ⟨⟨.AUD_CTRL, 0, 0, 0⟩, 16, 7⟩
abbrev AUD_CTRL_rate : Field := ⟨⟨.AUD_CTRL, 0, 0, 0⟩, 4, 1⟩
abbrev AUD_CTRL_enable : Field := ⟨⟨.AUD_CTRL, 0, 0, 0⟩, 0, 1⟩
abbrev AUD_STATUS : Field := ⟨⟨.AUD_STATUS, 0, 0, 0⟩, 0, 4⟩
abbrev AUD_STATUS_audio_rate : Field := ⟨⟨.AUD_STATUS, 0, 0, 0⟩, 3, 1⟩
abbrev AUD_STATUS_decision_local : Field := ⟨⟨.AUD_STATUS, 0, 0, 0⟩, 2, 1⟩
abbrev AUD_STATUS_asrc_exhausted : Field := ⟨⟨.AUD_STATUS, 0, 0, 0⟩, 1, 1⟩
abbrev AUD_STATUS_running : Field := ⟨⟨.AUD_STATUS, 0, 0, 0⟩, 0, 1⟩
abbrev AUD_ALARM : Field := ⟨⟨.AUD_ALARM, 0, 0, 0⟩, 0, 11⟩
abbrev AUD_ALARM_audio_rate : Field := ⟨⟨.AUD_ALARM, 0, 0, 0⟩, 10, 1⟩
abbrev AUD_ALARM_asrc_range : Field := ⟨⟨.AUD_ALARM, 0, 0, 0⟩, 9, 1⟩
abbrev AUD_ALARM_late_block : Field := ⟨⟨.AUD_ALARM, 0, 0, 0⟩, 8, 1⟩
abbrev AUD_ALARM_clip : Field := ⟨⟨.AUD_ALARM, 0, 0, 0⟩, 7, 1⟩
abbrev AUD_ALARM_silence : Field := ⟨⟨.AUD_ALARM, 0, 0, 0⟩, 6, 1⟩
abbrev AUD_ALARM_non_pcm : Field := ⟨⟨.AUD_ALARM, 0, 0, 0⟩, 5, 1⟩
abbrev AUD_ALARM_audio_slip : Field := ⟨⟨.AUD_ALARM, 0, 0, 0⟩, 4, 1⟩
abbrev AUD_ALARM_input_lost : Field := ⟨⟨.AUD_ALARM, 0, 0, 0⟩, 3, 1⟩
abbrev AUD_ALARM_asrc_exhausted : Field := ⟨⟨.AUD_ALARM, 0, 0, 0⟩, 2, 1⟩
abbrev AUD_ALARM_decision_local : Field := ⟨⟨.AUD_ALARM, 0, 0, 0⟩, 1, 1⟩
abbrev AUD_ALARM_ue : Field := ⟨⟨.AUD_ALARM, 0, 0, 0⟩, 0, 1⟩
abbrev AUD_ALARM_EN : Field := ⟨⟨.AUD_ALARM_EN, 0, 0, 0⟩, 0, 11⟩
abbrev AUD_BLOCK_LO : Field := ⟨⟨.AUD_BLOCK_LO, 0, 0, 0⟩, 0, 32⟩
abbrev AUD_BLOCK_HI : Field := ⟨⟨.AUD_BLOCK_HI, 0, 0, 0⟩, 0, 32⟩
abbrev AUD_ASRC_used : Field := ⟨⟨.AUD_ASRC, 0, 0, 0⟩, 0, 12⟩
abbrev AUD_CNT_LOST : Field := ⟨⟨.AUD_CNT_LOST, 0, 0, 0⟩, 0, 32⟩
abbrev AUD_CNT_SLIP : Field := ⟨⟨.AUD_CNT_SLIP, 0, 0, 0⟩, 0, 32⟩
abbrev AUD_CNT_LATE : Field := ⟨⟨.AUD_CNT_LATE, 0, 0, 0⟩, 0, 32⟩
abbrev AUD_CNT_CLIP : Field := ⟨⟨.AUD_CNT_CLIP, 0, 0, 0⟩, 0, 32⟩
abbrev AUD_CNT_LOCAL : Field := ⟨⟨.AUD_CNT_LOCAL, 0, 0, 0⟩, 0, 32⟩
abbrev AUD_CNT_SUPERSEDED : Field := ⟨⟨.AUD_CNT_SUPERSEDED, 0, 0, 0⟩, 0, 32⟩
abbrev AUD_CNT_UE : Field := ⟨⟨.AUD_CNT_UE, 0, 0, 0⟩, 0, 32⟩
abbrev AUD_CNT_CLEAR : Field := ⟨⟨.AUD_CNT_CLEAR, 0, 0, 0⟩, 0, 1⟩
abbrev AUD_SGRP_base (n : Nat) : Field := ⟨⟨.AUD_SGRP, n, 0, 0⟩, 0, 15⟩
abbrev AUD_SGRP_DELAY_delay (n : Nat) : Field := ⟨⟨.AUD_SGRP_DELAY, n, 0, 0⟩, 0, 16⟩
abbrev AUD_DGRP_count (n : Nat) : Field := ⟨⟨.AUD_DGRP, n, 0, 0⟩, 16, 6⟩
abbrev AUD_DGRP_base (n : Nat) : Field := ⟨⟨.AUD_DGRP, n, 0, 0⟩, 0, 15⟩
abbrev AUD_DGRP_DELAY_delay (n : Nat) : Field := ⟨⟨.AUD_DGRP_DELAY, n, 0, 0⟩, 0, 16⟩
abbrev AUD_TONE_enable (g : Nat) : Field := ⟨⟨.AUD_TONE, g, 0, 0⟩, 31, 1⟩
abbrev AUD_TONE_freq (g : Nat) : Field := ⟨⟨.AUD_TONE, g, 0, 0⟩, 0, 15⟩
abbrev AUD_TONE_LEVEL_level (g : Nat) : Field := ⟨⟨.AUD_TONE_LEVEL, g, 0, 0⟩, 0, 10⟩
abbrev AUD_SIL_CTRL_enable (d : Nat) : Field := ⟨⟨.AUD_SIL_CTRL, d, 0, 0⟩, 31, 1⟩
abbrev AUD_SIL_CTRL_thresh (d : Nat) : Field := ⟨⟨.AUD_SIL_CTRL, d, 0, 0⟩, 24, 7⟩
abbrev AUD_SIL_CTRL_duration (d : Nat) : Field := ⟨⟨.AUD_SIL_CTRL, d, 0, 0⟩, 16, 8⟩
abbrev AUD_SIL_CTRL_output (d : Nat) : Field := ⟨⟨.AUD_SIL_CTRL, d, 0, 0⟩, 0, 15⟩
abbrev AUD_SIL_STATUS_silent (d : Nat) : Field := ⟨⟨.AUD_SIL_STATUS, d, 0, 0⟩, 0, 1⟩
abbrev AUD_LG_CTRL_enable (g : Nat) : Field := ⟨⟨.AUD_LG_CTRL, g, 0, 0⟩, 31, 1⟩
abbrev AUD_LG_CTRL_count (g : Nat) : Field := ⟨⟨.AUD_LG_CTRL, g, 0, 0⟩, 0, 5⟩
abbrev AUD_LG_M (g : Nat) : Field := ⟨⟨.AUD_LG_M, g, 0, 0⟩, 0, 16⟩
abbrev AUD_LG_S (g : Nat) : Field := ⟨⟨.AUD_LG_S, g, 0, 0⟩, 0, 16⟩
abbrev AUD_LG_CH_weight (g i : Nat) : Field := ⟨⟨.AUD_LG_CH, g, i, 0⟩, 16, 2⟩
abbrev AUD_LG_CH_output (g i : Nat) : Field := ⟨⟨.AUD_LG_CH, g, i, 0⟩, 0, 15⟩
abbrev SAP_CTRL_allowed (p : Nat) : Field := ⟨⟨.SAP_CTRL, p, 0, 0⟩, 24, 2⟩
abbrev SAP_CTRL_tx_asrc (p : Nat) : Field := ⟨⟨.SAP_CTRL, p, 0, 0⟩, 19, 1⟩
abbrev SAP_CTRL_tx_idle (p : Nat) : Field := ⟨⟨.SAP_CTRL, p, 0, 0⟩, 18, 1⟩
abbrev SAP_CTRL_rx_en (p : Nat) : Field := ⟨⟨.SAP_CTRL, p, 0, 0⟩, 17, 1⟩
abbrev SAP_CTRL_tx_en (p : Nat) : Field := ⟨⟨.SAP_CTRL, p, 0, 0⟩, 16, 1⟩
abbrev SAP_CTRL_fsync_inv (p : Nat) : Field := ⟨⟨.SAP_CTRL, p, 0, 0⟩, 13, 1⟩
abbrev SAP_CTRL_bclk_inv (p : Nat) : Field := ⟨⟨.SAP_CTRL, p, 0, 0⟩, 12, 1⟩
abbrev SAP_CTRL_format (p : Nat) : Field := ⟨⟨.SAP_CTRL, p, 0, 0⟩, 8, 2⟩
abbrev SAP_CTRL_mode (p : Nat) : Field := ⟨⟨.SAP_CTRL, p, 0, 0⟩, 4, 1⟩
abbrev SAP_CTRL_enable (p : Nat) : Field := ⟨⟨.SAP_CTRL, p, 0, 0⟩, 0, 1⟩
abbrev SAP_FRAME_slots (p : Nat) : Field := ⟨⟨.SAP_FRAME, p, 0, 0⟩, 16, 6⟩
abbrev SAP_FRAME_slot_width (p : Nat) : Field := ⟨⟨.SAP_FRAME, p, 0, 0⟩, 8, 2⟩
abbrev SAP_FRAME_word_len (p : Nat) : Field := ⟨⟨.SAP_FRAME, p, 0, 0⟩, 4, 2⟩
abbrev SAP_FRAME_bclk_delay (p : Nat) : Field := ⟨⟨.SAP_FRAME, p, 0, 0⟩, 0, 1⟩
abbrev SAP_RX_MASK (p : Nat) : Field := ⟨⟨.SAP_RX_MASK, p, 0, 0⟩, 0, 32⟩
abbrev SAP_TX_MASK (p : Nat) : Field := ⟨⟨.SAP_TX_MASK, p, 0, 0⟩, 0, 32⟩
abbrev SAP_TX_first_output (p : Nat) : Field := ⟨⟨.SAP_TX, p, 0, 0⟩, 0, 15⟩
abbrev SAP_QUAL_tol (p : Nat) : Field := ⟨⟨.SAP_QUAL, p, 0, 0⟩, 16, 8⟩
abbrev SAP_QUAL_qual_frames (p : Nat) : Field := ⟨⟨.SAP_QUAL, p, 0, 0⟩, 0, 16⟩
abbrev SAP_CLK_STATE_bad_run (p : Nat) : Field := ⟨⟨.SAP_CLK_STATE, p, 0, 0⟩, 8, 2⟩
abbrev SAP_CLK_STATE_rate (p : Nat) : Field := ⟨⟨.SAP_CLK_STATE, p, 0, 0⟩, 4, 2⟩
abbrev SAP_CLK_STATE_cstate (p : Nat) : Field := ⟨⟨.SAP_CLK_STATE, p, 0, 0⟩, 0, 2⟩
abbrev SAP_STATUS (p : Nat) : Field := ⟨⟨.SAP_STATUS, p, 0, 0⟩, 0, 4⟩
abbrev SAP_STATUS_requal (p : Nat) : Field := ⟨⟨.SAP_STATUS, p, 0, 0⟩, 3, 1⟩
abbrev SAP_STATUS_clock_lost (p : Nat) : Field := ⟨⟨.SAP_STATUS, p, 0, 0⟩, 2, 1⟩
abbrev SAP_STATUS_rate_unsupported (p : Nat) : Field := ⟨⟨.SAP_STATUS, p, 0, 0⟩, 1, 1⟩
abbrev SAP_STATUS_data_released (p : Nat) : Field := ⟨⟨.SAP_STATUS, p, 0, 0⟩, 0, 1⟩
abbrev SAP_ALARM (p : Nat) : Field := ⟨⟨.SAP_ALARM, p, 0, 0⟩, 0, 6⟩
abbrev SAP_ALARM_ue (p : Nat) : Field := ⟨⟨.SAP_ALARM, p, 0, 0⟩, 5, 1⟩
abbrev SAP_ALARM_lock_slip (p : Nat) : Field := ⟨⟨.SAP_ALARM, p, 0, 0⟩, 4, 1⟩
abbrev SAP_ALARM_rate_unsupported (p : Nat) : Field := ⟨⟨.SAP_ALARM, p, 0, 0⟩, 3, 1⟩
abbrev SAP_ALARM_requal (p : Nat) : Field := ⟨⟨.SAP_ALARM, p, 0, 0⟩, 2, 1⟩
abbrev SAP_ALARM_frame_discard (p : Nat) : Field := ⟨⟨.SAP_ALARM, p, 0, 0⟩, 1, 1⟩
abbrev SAP_ALARM_clock_lost (p : Nat) : Field := ⟨⟨.SAP_ALARM, p, 0, 0⟩, 0, 1⟩
abbrev SAP_ALARM_EN (p : Nat) : Field := ⟨⟨.SAP_ALARM_EN, p, 0, 0⟩, 0, 6⟩
abbrev SAP_FREQ (p : Nat) : Field := ⟨⟨.SAP_FREQ, p, 0, 0⟩, 0, 32⟩
abbrev SAP_QUAL_COUNT (p : Nat) : Field := ⟨⟨.SAP_QUAL_COUNT, p, 0, 0⟩, 0, 16⟩
abbrev SAP_BUF_FILL (p : Nat) : Field := ⟨⟨.SAP_BUF_FILL, p, 0, 0⟩, 0, 5⟩
abbrev SAP_CNT_DISCARD (p : Nat) : Field := ⟨⟨.SAP_CNT_DISCARD, p, 0, 0⟩, 0, 32⟩
abbrev SAP_CNT_REQUAL (p : Nat) : Field := ⟨⟨.SAP_CNT_REQUAL, p, 0, 0⟩, 0, 32⟩
abbrev SAP_CNT_CLOCK_LOST (p : Nat) : Field := ⟨⟨.SAP_CNT_CLOCK_LOST, p, 0, 0⟩, 0, 32⟩
abbrev SAP_CNT_SLIP (p : Nat) : Field := ⟨⟨.SAP_CNT_SLIP, p, 0, 0⟩, 0, 32⟩
abbrev SAP_CNT_CLEAR (p : Nat) : Field := ⟨⟨.SAP_CNT_CLEAR, p, 0, 0⟩, 0, 1⟩
abbrev HLK_CTRL_idle_en (l : Nat) : Field := ⟨⟨.HLK_CTRL, l, 0, 0⟩, 12, 1⟩
abbrev HLK_CTRL_time_role (l : Nat) : Field := ⟨⟨.HLK_CTRL, l, 0, 0⟩, 9, 2⟩
abbrev HLK_CTRL_fec (l : Nat) : Field := ⟨⟨.HLK_CTRL, l, 0, 0⟩, 6, 1⟩
abbrev HLK_CTRL_rate (l : Nat) : Field := ⟨⟨.HLK_CTRL, l, 0, 0⟩, 4, 2⟩
abbrev HLK_CTRL_role (l : Nat) : Field := ⟨⟨.HLK_CTRL, l, 0, 0⟩, 1, 2⟩
abbrev HLK_CTRL_enable (l : Nat) : Field := ⟨⟨.HLK_CTRL, l, 0, 0⟩, 0, 1⟩
abbrev HLK_STATE (l : Nat) : Field := ⟨⟨.HLK_STATE, l, 0, 0⟩, 0, 32⟩
abbrev HLK_STATE_link_up (l : Nat) : Field := ⟨⟨.HLK_STATE, l, 0, 0⟩, 31, 1⟩
abbrev HLK_STATE_far_rx_up (l : Nat) : Field := ⟨⟨.HLK_STATE, l, 0, 0⟩, 30, 1⟩
abbrev HLK_STATE_far_select (l : Nat) : Field := ⟨⟨.HLK_STATE, l, 0, 0⟩, 29, 1⟩
abbrev HLK_STATE_far_role (l : Nat) : Field := ⟨⟨.HLK_STATE, l, 0, 0⟩, 27, 2⟩
abbrev HLK_STATE_far_lockstep (l : Nat) : Field := ⟨⟨.HLK_STATE, l, 0, 0⟩, 26, 1⟩
abbrev HLK_STATE_tx_state (l : Nat) : Field := ⟨⟨.HLK_STATE, l, 0, 0⟩, 16, 2⟩
abbrev HLK_STATE_rx_state (l : Nat) : Field := ⟨⟨.HLK_STATE, l, 0, 0⟩, 0, 3⟩
abbrev HLK_FAR_ID (l : Nat) : Field := ⟨⟨.HLK_FAR_ID, l, 0, 0⟩, 0, 32⟩
abbrev HLK_FAR_EPOCH (l : Nat) : Field := ⟨⟨.HLK_FAR_EPOCH, l, 0, 0⟩, 0, 8⟩
abbrev HLK_PAIR_ID (l : Nat) : Field := ⟨⟨.HLK_PAIR_ID, l, 0, 0⟩, 0, 32⟩
abbrev HLK_TIME_CTRL_interval (l : Nat) : Field := ⟨⟨.HLK_TIME_CTRL, l, 0, 0⟩, 0, 3⟩
abbrev HLK_ASYM (l : Nat) : Field := ⟨⟨.HLK_ASYM, l, 0, 0⟩, 0, 32⟩
abbrev HLK_DELAY (l : Nat) : Field := ⟨⟨.HLK_DELAY, l, 0, 0⟩, 0, 32⟩
abbrev HLK_FAR_OFFSET (l : Nat) : Field := ⟨⟨.HLK_FAR_OFFSET, l, 0, 0⟩, 0, 32⟩
abbrev HLK_FEC_COUNTER (l : Nat) : Field := ⟨⟨.HLK_FEC_COUNTER, l, 0, 0⟩, 0, 8⟩
abbrev HLK_BUF_FILL (l : Nat) : Field := ⟨⟨.HLK_BUF_FILL, l, 0, 0⟩, 0, 7⟩
abbrev HLK_ALARM (l : Nat) : Field := ⟨⟨.HLK_ALARM, l, 0, 0⟩, 0, 12⟩
abbrev HLK_ALARM_wake_fail (l : Nat) : Field := ⟨⟨.HLK_ALARM, l, 0, 0⟩, 11, 1⟩
abbrev HLK_ALARM_rate_match (l : Nat) : Field := ⟨⟨.HLK_ALARM, l, 0, 0⟩, 10, 1⟩
abbrev HLK_ALARM_no_state (l : Nat) : Field := ⟨⟨.HLK_ALARM, l, 0, 0⟩, 9, 1⟩
abbrev HLK_ALARM_far_time (l : Nat) : Field := ⟨⟨.HLK_ALARM, l, 0, 0⟩, 8, 1⟩
abbrev HLK_ALARM_bad_kind (l : Nat) : Field := ⟨⟨.HLK_ALARM, l, 0, 0⟩, 7, 1⟩
abbrev HLK_ALARM_seg_lost (l : Nat) : Field := ⟨⟨.HLK_ALARM, l, 0, 0⟩, 6, 1⟩
abbrev HLK_ALARM_seg_bad (l : Nat) : Field := ⟨⟨.HLK_ALARM, l, 0, 0⟩, 5, 1⟩
abbrev HLK_ALARM_fec_uncorr (l : Nat) : Field := ⟨⟨.HLK_ALARM, l, 0, 0⟩, 4, 1⟩
abbrev HLK_ALARM_fec_lock_lost (l : Nat) : Field := ⟨⟨.HLK_ALARM, l, 0, 0⟩, 3, 1⟩
abbrev HLK_ALARM_block_lock_lost (l : Nat) : Field := ⟨⟨.HLK_ALARM, l, 0, 0⟩, 2, 1⟩
abbrev HLK_ALARM_link_down (l : Nat) : Field := ⟨⟨.HLK_ALARM, l, 0, 0⟩, 1, 1⟩
abbrev HLK_ALARM_retrain (l : Nat) : Field := ⟨⟨.HLK_ALARM, l, 0, 0⟩, 0, 1⟩
abbrev HLK_ALARM_EN (l : Nat) : Field := ⟨⟨.HLK_ALARM_EN, l, 0, 0⟩, 0, 12⟩
abbrev HLK_PLAN (l : Nat) : Field := ⟨⟨.HLK_PLAN, l, 0, 0⟩, 0, 32⟩
abbrev HLK_CNT_FEC_CORR (l : Nat) : Field := ⟨⟨.HLK_CNT_FEC_CORR, l, 0, 0⟩, 0, 32⟩
abbrev HLK_CNT_FEC_UNCORR (l : Nat) : Field := ⟨⟨.HLK_CNT_FEC_UNCORR, l, 0, 0⟩, 0, 32⟩
abbrev HLK_CNT_FRAME_GAP (l : Nat) : Field := ⟨⟨.HLK_CNT_FRAME_GAP, l, 0, 0⟩, 0, 32⟩
abbrev HLK_CNT_BLOCK_LOSS (l : Nat) : Field := ⟨⟨.HLK_CNT_BLOCK_LOSS, l, 0, 0⟩, 0, 32⟩
abbrev HLK_CNT_RETRAIN (l : Nat) : Field := ⟨⟨.HLK_CNT_RETRAIN, l, 0, 0⟩, 0, 32⟩
abbrev HLK_CNT_BAD_BLOCK (l : Nat) : Field := ⟨⟨.HLK_CNT_BAD_BLOCK, l, 0, 0⟩, 0, 32⟩
abbrev HLK_CNT_SEG_RX (l : Nat) : Field := ⟨⟨.HLK_CNT_SEG_RX, l, 0, 0⟩, 0, 32⟩
abbrev HLK_CNT_SEG_TX (l : Nat) : Field := ⟨⟨.HLK_CNT_SEG_TX, l, 0, 0⟩, 0, 32⟩
abbrev HLK_CNT_SEG_BAD (l : Nat) : Field := ⟨⟨.HLK_CNT_SEG_BAD, l, 0, 0⟩, 0, 32⟩
abbrev HLK_CNT_SEG_LOST (l : Nat) : Field := ⟨⟨.HLK_CNT_SEG_LOST, l, 0, 0⟩, 0, 32⟩
abbrev HLK_CNT_BAD_KIND (l : Nat) : Field := ⟨⟨.HLK_CNT_BAD_KIND, l, 0, 0⟩, 0, 32⟩
abbrev HLK_CNT_FILL_DEL (l : Nat) : Field := ⟨⟨.HLK_CNT_FILL_DEL, l, 0, 0⟩, 0, 32⟩
abbrev HLK_CNT_FILL_INS (l : Nat) : Field := ⟨⟨.HLK_CNT_FILL_INS, l, 0, 0⟩, 0, 32⟩
abbrev HLK_CNT_PECK_RX (l : Nat) : Field := ⟨⟨.HLK_CNT_PECK_RX, l, 0, 0⟩, 0, 32⟩
abbrev HLK_CNT_CLEAR (l : Nat) : Field := ⟨⟨.HLK_CNT_CLEAR, l, 0, 0⟩, 0, 1⟩
abbrev HLK_RXF_STATUS (l f : Nat) : Field := ⟨⟨.HLK_RXF_STATUS, l, f, 0⟩, 0, 32⟩
abbrev HLK_RXF_STATUS_format (l f : Nat) : Field := ⟨⟨.HLK_RXF_STATUS, l, f, 0⟩, 24, 8⟩
abbrev HLK_RXF_STATUS_kinds (l f : Nat) : Field := ⟨⟨.HLK_RXF_STATUS, l, f, 0⟩, 4, 4⟩
abbrev HLK_RXF_STATUS_active (l f : Nat) : Field := ⟨⟨.HLK_RXF_STATUS, l, f, 0⟩, 0, 1⟩
abbrev HLK_RXF_SEGS (l f : Nat) : Field := ⟨⟨.HLK_RXF_SEGS, l, f, 0⟩, 0, 32⟩
abbrev HLK_RXF_LOST (l f : Nat) : Field := ⟨⟨.HLK_RXF_LOST, l, f, 0⟩, 0, 32⟩
abbrev HLK_RXF_BAD (l f : Nat) : Field := ⟨⟨.HLK_RXF_BAD, l, f, 0⟩, 0, 32⟩
abbrev HLK_TXF_STATUS (l f : Nat) : Field := ⟨⟨.HLK_TXF_STATUS, l, f, 0⟩, 0, 32⟩
abbrev HLK_TXF_STATUS_bound (l f : Nat) : Field := ⟨⟨.HLK_TXF_STATUS, l, f, 0⟩, 31, 1⟩
abbrev HLK_TXF_STATUS_owner_kind (l f : Nat) : Field := ⟨⟨.HLK_TXF_STATUS, l, f, 0⟩, 30, 1⟩
abbrev HLK_TXF_STATUS_owner (l f : Nat) : Field := ⟨⟨.HLK_TXF_STATUS, l, f, 0⟩, 0, 13⟩
abbrev HLK_TXF_SEGS (l f : Nat) : Field := ⟨⟨.HLK_TXF_SEGS, l, f, 0⟩, 0, 32⟩
abbrev HLK_TXF_PLAN (l f : Nat) : Field := ⟨⟨.HLK_TXF_PLAN, l, f, 0⟩, 0, 32⟩
abbrev LANE_CTRL_sleep_ok (l : Nat) : Field := ⟨⟨.LANE_CTRL, l, 0, 0⟩, 20, 1⟩
abbrev LANE_CTRL_rx_en (l : Nat) : Field := ⟨⟨.LANE_CTRL, l, 0, 0⟩, 17, 1⟩
abbrev LANE_CTRL_tx_en (l : Nat) : Field := ⟨⟨.LANE_CTRL, l, 0, 0⟩, 16, 1⟩
abbrev LANE_CTRL_rate (l : Nat) : Field := ⟨⟨.LANE_CTRL, l, 0, 0⟩, 8, 4⟩
abbrev LANE_CTRL_personality (l : Nat) : Field := ⟨⟨.LANE_CTRL, l, 0, 0⟩, 4, 2⟩
abbrev LANE_CTRL_enable (l : Nat) : Field := ⟨⟨.LANE_CTRL, l, 0, 0⟩, 0, 1⟩
abbrev LANE_POL_rx_inv (l : Nat) : Field := ⟨⟨.LANE_POL, l, 0, 0⟩, 1, 1⟩
abbrev LANE_POL_tx_inv (l : Nat) : Field := ⟨⟨.LANE_POL, l, 0, 0⟩, 0, 1⟩
abbrev LANE_STATUS (l : Nat) : Field := ⟨⟨.LANE_STATUS, l, 0, 0⟩, 0, 32⟩
abbrev LANE_STATUS_rx_rate (l : Nat) : Field := ⟨⟨.LANE_STATUS, l, 0, 0⟩, 28, 4⟩
abbrev LANE_STATUS_low_margin (l : Nat) : Field := ⟨⟨.LANE_STATUS, l, 0, 0⟩, 7, 1⟩
abbrev LANE_STATUS_cdr_lock (l : Nat) : Field := ⟨⟨.LANE_STATUS, l, 0, 0⟩, 6, 1⟩
abbrev LANE_STATUS_signal (l : Nat) : Field := ⟨⟨.LANE_STATUS, l, 0, 0⟩, 5, 1⟩
abbrev LANE_STATUS_asleep (l : Nat) : Field := ⟨⟨.LANE_STATUS, l, 0, 0⟩, 1, 1⟩
abbrev LANE_STATUS_tx_pll_lock (l : Nat) : Field := ⟨⟨.LANE_STATUS, l, 0, 0⟩, 0, 1⟩
abbrev LANE_EQ_MODE_lt_en (l : Nat) : Field := ⟨⟨.LANE_EQ_MODE, l, 0, 0⟩, 8, 1⟩
abbrev LANE_EQ_MODE_mode (l : Nat) : Field := ⟨⟨.LANE_EQ_MODE, l, 0, 0⟩, 0, 2⟩
abbrev LANE_EQ_BOUND (l : Nat) : Field := ⟨⟨.LANE_EQ_BOUND, l, 0, 0⟩, 0, 30⟩
abbrev LANE_EQ_BOUND_vga_max (l : Nat) : Field := ⟨⟨.LANE_EQ_BOUND, l, 0, 0⟩, 24, 6⟩
abbrev LANE_EQ_BOUND_vga_min (l : Nat) : Field := ⟨⟨.LANE_EQ_BOUND, l, 0, 0⟩, 16, 6⟩
abbrev LANE_EQ_BOUND_ctle_max (l : Nat) : Field := ⟨⟨.LANE_EQ_BOUND, l, 0, 0⟩, 8, 5⟩
abbrev LANE_EQ_BOUND_ctle_min (l : Nat) : Field := ⟨⟨.LANE_EQ_BOUND, l, 0, 0⟩, 0, 5⟩
abbrev LANE_EQ_BOUND2_dfe1_max (l : Nat) : Field := ⟨⟨.LANE_EQ_BOUND2, l, 0, 0⟩, 0, 8⟩
abbrev LANE_EQ_FIX (l : Nat) : Field := ⟨⟨.LANE_EQ_FIX, l, 0, 0⟩, 0, 14⟩
abbrev LANE_EQ_FIX_vga (l : Nat) : Field := ⟨⟨.LANE_EQ_FIX, l, 0, 0⟩, 8, 6⟩
abbrev LANE_EQ_FIX_ctle (l : Nat) : Field := ⟨⟨.LANE_EQ_FIX, l, 0, 0⟩, 0, 5⟩
abbrev LANE_EQ_STATE (l : Nat) : Field := ⟨⟨.LANE_EQ_STATE, l, 0, 0⟩, 0, 32⟩
abbrev LANE_EQ_STATE_at_bound (l : Nat) : Field := ⟨⟨.LANE_EQ_STATE, l, 0, 0⟩, 24, 3⟩
abbrev LANE_EQ_STATE_vga_cur (l : Nat) : Field := ⟨⟨.LANE_EQ_STATE, l, 0, 0⟩, 16, 6⟩
abbrev LANE_EQ_STATE_ctle_cur (l : Nat) : Field := ⟨⟨.LANE_EQ_STATE, l, 0, 0⟩, 8, 5⟩
abbrev LANE_EQ_STATE_adapt (l : Nat) : Field := ⟨⟨.LANE_EQ_STATE, l, 0, 0⟩, 0, 2⟩
abbrev LANE_TX_swing (l : Nat) : Field := ⟨⟨.LANE_TX, l, 0, 0⟩, 0, 4⟩
abbrev LANE_TXFFE_BOUND (l : Nat) : Field := ⟨⟨.LANE_TXFFE_BOUND, l, 0, 0⟩, 0, 6⟩
abbrev LANE_DFE (l i : Nat) : Field := ⟨⟨.LANE_DFE, l, i, 0⟩, 0, 8⟩
abbrev LANE_TXFFE (l i : Nat) : Field := ⟨⟨.LANE_TXFFE, l, i, 0⟩, 0, 7⟩
abbrev LANE_DFFE (l i : Nat) : Field := ⟨⟨.LANE_DFFE, l, i, 0⟩, 0, 10⟩
abbrev LANE_EYE_H (l : Nat) : Field := ⟨⟨.LANE_EYE_H, l, 0, 0⟩, 0, 24⟩
abbrev LANE_EYE_H_upper (l : Nat) : Field := ⟨⟨.LANE_EYE_H, l, 0, 0⟩, 16, 8⟩
abbrev LANE_EYE_H_middle (l : Nat) : Field := ⟨⟨.LANE_EYE_H, l, 0, 0⟩, 8, 8⟩
abbrev LANE_EYE_H_lower (l : Nat) : Field := ⟨⟨.LANE_EYE_H, l, 0, 0⟩, 0, 8⟩
abbrev LANE_EYE_W (l : Nat) : Field := ⟨⟨.LANE_EYE_W, l, 0, 0⟩, 0, 24⟩
abbrev LANE_SNR (l : Nat) : Field := ⟨⟨.LANE_SNR, l, 0, 0⟩, 0, 10⟩
abbrev LANE_MARGIN_snr_min (l : Nat) : Field := ⟨⟨.LANE_MARGIN, l, 0, 0⟩, 0, 10⟩
abbrev LANE_SCAN_CTRL_go (l : Nat) : Field := ⟨⟨.LANE_SCAN_CTRL, l, 0, 0⟩, 31, 1⟩
abbrev LANE_SCAN_CTRL_dwell (l : Nat) : Field := ⟨⟨.LANE_SCAN_CTRL, l, 0, 0⟩, 16, 4⟩
abbrev LANE_SCAN_CTRL_y (l : Nat) : Field := ⟨⟨.LANE_SCAN_CTRL, l, 0, 0⟩, 8, 8⟩
abbrev LANE_SCAN_CTRL_x (l : Nat) : Field := ⟨⟨.LANE_SCAN_CTRL, l, 0, 0⟩, 0, 7⟩
abbrev LANE_SCAN_RESULT (l : Nat) : Field := ⟨⟨.LANE_SCAN_RESULT, l, 0, 0⟩, 0, 32⟩
abbrev LANE_SCAN_RESULT_status (l : Nat) : Field := ⟨⟨.LANE_SCAN_RESULT, l, 0, 0⟩, 30, 2⟩
abbrev LANE_SCAN_RESULT_errors (l : Nat) : Field := ⟨⟨.LANE_SCAN_RESULT, l, 0, 0⟩, 0, 24⟩
abbrev LANE_ALARM (l : Nat) : Field := ⟨⟨.LANE_ALARM, l, 0, 0⟩, 0, 7⟩
abbrev LANE_ALARM_txffe_scaled (l : Nat) : Field := ⟨⟨.LANE_ALARM, l, 0, 0⟩, 6, 1⟩
abbrev LANE_ALARM_pll_unlock (l : Nat) : Field := ⟨⟨.LANE_ALARM, l, 0, 0⟩, 5, 1⟩
abbrev LANE_ALARM_cdr_lock_lost (l : Nat) : Field := ⟨⟨.LANE_ALARM, l, 0, 0⟩, 4, 1⟩
abbrev LANE_ALARM_signal_lost (l : Nat) : Field := ⟨⟨.LANE_ALARM, l, 0, 0⟩, 3, 1⟩
abbrev LANE_ALARM_at_bound (l : Nat) : Field := ⟨⟨.LANE_ALARM, l, 0, 0⟩, 2, 1⟩
abbrev LANE_ALARM_low_margin (l : Nat) : Field := ⟨⟨.LANE_ALARM, l, 0, 0⟩, 1, 1⟩
abbrev LANE_ALARM_scan_done (l : Nat) : Field := ⟨⟨.LANE_ALARM, l, 0, 0⟩, 0, 1⟩
abbrev LANE_ALARM_EN (l : Nat) : Field := ⟨⟨.LANE_ALARM_EN, l, 0, 0⟩, 0, 7⟩
abbrev LANE_CNT_SIGNAL_LOSS (l : Nat) : Field := ⟨⟨.LANE_CNT_SIGNAL_LOSS, l, 0, 0⟩, 0, 32⟩
abbrev LANE_CNT_CDR_LOSS (l : Nat) : Field := ⟨⟨.LANE_CNT_CDR_LOSS, l, 0, 0⟩, 0, 32⟩
abbrev LANE_CNT_ADAPT (l : Nat) : Field := ⟨⟨.LANE_CNT_ADAPT, l, 0, 0⟩, 0, 32⟩
abbrev LANE_CNT_MON_ERR (l : Nat) : Field := ⟨⟨.LANE_CNT_MON_ERR, l, 0, 0⟩, 0, 32⟩
abbrev LANE_CNT_CLEAR (l : Nat) : Field := ⟨⟨.LANE_CNT_CLEAR, l, 0, 0⟩, 0, 1⟩
abbrev QUAD_CTRL_sdi_family (q : Nat) : Field := ⟨⟨.QUAD_CTRL, q, 0, 0⟩, 12, 1⟩
abbrev QUAD_CTRL_pll_b_src (q : Nat) : Field := ⟨⟨.QUAD_CTRL, q, 0, 0⟩, 8, 2⟩
abbrev QUAD_CTRL_pll_a_group (q : Nat) : Field := ⟨⟨.QUAD_CTRL, q, 0, 0⟩, 4, 2⟩
abbrev QUAD_CTRL_enable (q : Nat) : Field := ⟨⟨.QUAD_CTRL, q, 0, 0⟩, 0, 1⟩
abbrev QUAD_SWAP_rx_map (q : Nat) : Field := ⟨⟨.QUAD_SWAP, q, 0, 0⟩, 8, 8⟩
abbrev QUAD_SWAP_tx_map (q : Nat) : Field := ⟨⟨.QUAD_SWAP, q, 0, 0⟩, 0, 8⟩
abbrev QUAD_STATUS (q : Nat) : Field := ⟨⟨.QUAD_STATUS, q, 0, 0⟩, 0, 3⟩
abbrev QUAD_STATUS_refclk_ok (q : Nat) : Field := ⟨⟨.QUAD_STATUS, q, 0, 0⟩, 2, 1⟩
abbrev QUAD_STATUS_pll_b_lock (q : Nat) : Field := ⟨⟨.QUAD_STATUS, q, 0, 0⟩, 1, 1⟩
abbrev QUAD_STATUS_pll_a_lock (q : Nat) : Field := ⟨⟨.QUAD_STATUS, q, 0, 0⟩, 0, 1⟩
abbrev QUAD_REFCLK_FREQ (q : Nat) : Field := ⟨⟨.QUAD_REFCLK_FREQ, q, 0, 0⟩, 0, 32⟩
abbrev QUAD_ALARM (q : Nat) : Field := ⟨⟨.QUAD_ALARM, q, 0, 0⟩, 0, 3⟩
abbrev QUAD_ALARM_refclk_lost (q : Nat) : Field := ⟨⟨.QUAD_ALARM, q, 0, 0⟩, 2, 1⟩
abbrev QUAD_ALARM_pll_b_unlock (q : Nat) : Field := ⟨⟨.QUAD_ALARM, q, 0, 0⟩, 1, 1⟩
abbrev QUAD_ALARM_pll_a_unlock (q : Nat) : Field := ⟨⟨.QUAD_ALARM, q, 0, 0⟩, 0, 1⟩
abbrev QUAD_ALARM_EN (q : Nat) : Field := ⟨⟨.QUAD_ALARM_EN, q, 0, 0⟩, 0, 3⟩
abbrev QUAD_POWER (q : Nat) : Field := ⟨⟨.QUAD_POWER, q, 0, 0⟩, 0, 16⟩
abbrev SDI_CTRL_quad_div (l : Nat) : Field := ⟨⟨.SDI_CTRL, l, 0, 0⟩, 13, 1⟩
abbrev SDI_CTRL_quad_link (l : Nat) : Field := ⟨⟨.SDI_CTRL, l, 0, 0⟩, 12, 1⟩
abbrev SDI_CTRL_tx_mapping (l : Nat) : Field := ⟨⟨.SDI_CTRL, l, 0, 0⟩, 8, 2⟩
abbrev SDI_CTRL_enable (l : Nat) : Field := ⟨⟨.SDI_CTRL, l, 0, 0⟩, 0, 1⟩
abbrev SDI_RX_CTRL_rate_mask (l : Nat) : Field := ⟨⟨.SDI_RX_CTRL, l, 0, 0⟩, 16, 9⟩
abbrev SDI_RX_CTRL_anc_keep_bad (l : Nat) : Field := ⟨⟨.SDI_RX_CTRL, l, 0, 0⟩, 4, 1⟩
abbrev SDI_RX_STATE (l : Nat) : Field := ⟨⟨.SDI_RX_STATE, l, 0, 0⟩, 0, 32⟩
abbrev SDI_RX_STATE_rate (l : Nat) : Field := ⟨⟨.SDI_RX_STATE, l, 0, 0⟩, 28, 4⟩
abbrev SDI_RX_STATE_level_b (l : Nat) : Field := ⟨⟨.SDI_RX_STATE, l, 0, 0⟩, 24, 1⟩
abbrev SDI_RX_STATE_link_number (l : Nat) : Field := ⟨⟨.SDI_RX_STATE, l, 0, 0⟩, 20, 4⟩
abbrev SDI_RX_STATE_edh_present (l : Nat) : Field := ⟨⟨.SDI_RX_STATE, l, 0, 0⟩, 9, 1⟩
abbrev SDI_RX_STATE_vpid_valid (l : Nat) : Field := ⟨⟨.SDI_RX_STATE, l, 0, 0⟩, 8, 1⟩
abbrev SDI_RX_STATE_rx_state (l : Nat) : Field := ⟨⟨.SDI_RX_STATE, l, 0, 0⟩, 0, 3⟩
abbrev SDI_RX_VPID (l : Nat) : Field := ⟨⟨.SDI_RX_VPID, l, 0, 0⟩, 0, 32⟩
abbrev SDI_RX_LAT (l : Nat) : Field := ⟨⟨.SDI_RX_LAT, l, 0, 0⟩, 0, 24⟩
abbrev SDI_RX_TWIN_DIFF (l : Nat) : Field := ⟨⟨.SDI_RX_TWIN_DIFF, l, 0, 0⟩, 0, 32⟩
abbrev SDI_RX_SKEW (l : Nat) : Field := ⟨⟨.SDI_RX_SKEW, l, 0, 0⟩, 0, 16⟩
abbrev SDI_TX_CTRL_standby (l : Nat) : Field := ⟨⟨.SDI_TX_CTRL, l, 0, 0⟩, 4, 1⟩
abbrev SDI_TX_CTRL_edh_en (l : Nat) : Field := ⟨⟨.SDI_TX_CTRL, l, 0, 0⟩, 0, 1⟩
abbrev SDI_TX_LAT (l : Nat) : Field := ⟨⟨.SDI_TX_LAT, l, 0, 0⟩, 0, 24⟩
abbrev SDI_STATUS (l : Nat) : Field := ⟨⟨.SDI_STATUS, l, 0, 0⟩, 0, 6⟩
abbrev SDI_STATUS_tx_muted (l : Nat) : Field := ⟨⟨.SDI_STATUS, l, 0, 0⟩, 5, 1⟩
abbrev SDI_STATUS_link_skew (l : Nat) : Field := ⟨⟨.SDI_STATUS, l, 0, 0⟩, 4, 1⟩
abbrev SDI_STATUS_vpid_missing (l : Nat) : Field := ⟨⟨.SDI_STATUS, l, 0, 0⟩, 3, 1⟩
abbrev SDI_STATUS_edh_absent (l : Nat) : Field := ⟨⟨.SDI_STATUS, l, 0, 0⟩, 2, 1⟩
abbrev SDI_STATUS_crc_errored (l : Nat) : Field := ⟨⟨.SDI_STATUS, l, 0, 0⟩, 1, 1⟩
abbrev SDI_STATUS_rx_running (l : Nat) : Field := ⟨⟨.SDI_STATUS, l, 0, 0⟩, 0, 1⟩
abbrev SDI_ALARM (l : Nat) : Field := ⟨⟨.SDI_ALARM, l, 0, 0⟩, 0, 11⟩
abbrev SDI_ALARM_audio_rate (l : Nat) : Field := ⟨⟨.SDI_ALARM, l, 0, 0⟩, 10, 1⟩
abbrev SDI_ALARM_anc_drop (l : Nat) : Field := ⟨⟨.SDI_ALARM, l, 0, 0⟩, 9, 1⟩
abbrev SDI_ALARM_aud_err (l : Nat) : Field := ⟨⟨.SDI_ALARM, l, 0, 0⟩, 8, 1⟩
abbrev SDI_ALARM_anc_csum (l : Nat) : Field := ⟨⟨.SDI_ALARM, l, 0, 0⟩, 7, 1⟩
abbrev SDI_ALARM_link_skew (l : Nat) : Field := ⟨⟨.SDI_ALARM, l, 0, 0⟩, 6, 1⟩
abbrev SDI_ALARM_vpid_missing (l : Nat) : Field := ⟨⟨.SDI_ALARM, l, 0, 0⟩, 5, 1⟩
abbrev SDI_ALARM_edh_err (l : Nat) : Field := ⟨⟨.SDI_ALARM, l, 0, 0⟩, 4, 1⟩
abbrev SDI_ALARM_trs_err (l : Nat) : Field := ⟨⟨.SDI_ALARM, l, 0, 0⟩, 3, 1⟩
abbrev SDI_ALARM_ln_err (l : Nat) : Field := ⟨⟨.SDI_ALARM, l, 0, 0⟩, 2, 1⟩
abbrev SDI_ALARM_crc_err (l : Nat) : Field := ⟨⟨.SDI_ALARM, l, 0, 0⟩, 1, 1⟩
abbrev SDI_ALARM_los (l : Nat) : Field := ⟨⟨.SDI_ALARM, l, 0, 0⟩, 0, 1⟩
abbrev SDI_ALARM_EN (l : Nat) : Field := ⟨⟨.SDI_ALARM_EN, l, 0, 0⟩, 0, 11⟩
abbrev SDI_RX_EDH (l : Nat) : Field := ⟨⟨.SDI_RX_EDH, l, 0, 0⟩, 0, 16⟩
abbrev SDI_CNT_CRC (l : Nat) : Field := ⟨⟨.SDI_CNT_CRC, l, 0, 0⟩, 0, 32⟩
abbrev SDI_CNT_LN (l : Nat) : Field := ⟨⟨.SDI_CNT_LN, l, 0, 0⟩, 0, 32⟩
abbrev SDI_CNT_TRS (l : Nat) : Field := ⟨⟨.SDI_CNT_TRS, l, 0, 0⟩, 0, 32⟩
abbrev SDI_CNT_EDH_AP (l : Nat) : Field := ⟨⟨.SDI_CNT_EDH_AP, l, 0, 0⟩, 0, 32⟩
abbrev SDI_CNT_EDH_FF (l : Nat) : Field := ⟨⟨.SDI_CNT_EDH_FF, l, 0, 0⟩, 0, 32⟩
abbrev SDI_CNT_ERR_FRAMES (l : Nat) : Field := ⟨⟨.SDI_CNT_ERR_FRAMES, l, 0, 0⟩, 0, 32⟩
abbrev SDI_CNT_ANC_CSUM (l : Nat) : Field := ⟨⟨.SDI_CNT_ANC_CSUM, l, 0, 0⟩, 0, 32⟩
abbrev SDI_CNT_AUD_ERR (l : Nat) : Field := ⟨⟨.SDI_CNT_AUD_ERR, l, 0, 0⟩, 0, 32⟩
abbrev SDI_CNT_ANC_DROP (l : Nat) : Field := ⟨⟨.SDI_CNT_ANC_DROP, l, 0, 0⟩, 0, 32⟩
abbrev SDI_CNT_LOS (l : Nat) : Field := ⟨⟨.SDI_CNT_LOS, l, 0, 0⟩, 0, 32⟩
abbrev SDI_CNT_CLEAR (l : Nat) : Field := ⟨⟨.SDI_CNT_CLEAR, l, 0, 0⟩, 0, 1⟩
abbrev MAC_CTRL_deliver_bad (m : Nat) : Field := ⟨⟨.MAC_CTRL, m, 0, 0⟩, 12, 1⟩
abbrev MAC_CTRL_speed (m : Nat) : Field := ⟨⟨.MAC_CTRL, m, 0, 0⟩, 8, 4⟩
abbrev MAC_CTRL_fec (m : Nat) : Field := ⟨⟨.MAC_CTRL, m, 0, 0⟩, 4, 2⟩
abbrev MAC_CTRL_enable (m : Nat) : Field := ⟨⟨.MAC_CTRL, m, 0, 0⟩, 0, 1⟩
abbrev MAC_ADDR_LO (m : Nat) : Field := ⟨⟨.MAC_ADDR_LO, m, 0, 0⟩, 0, 32⟩
abbrev MAC_ADDR_HI (m : Nat) : Field := ⟨⟨.MAC_ADDR_HI, m, 0, 0⟩, 0, 16⟩
abbrev MAC_IPV4 (m : Nat) : Field := ⟨⟨.MAC_IPV4, m, 0, 0⟩, 0, 32⟩
abbrev MAC_IPV6 (m i : Nat) : Field := ⟨⟨.MAC_IPV6, m, i, 0⟩, 0, 32⟩
abbrev MAC_MAX_FRAME (m : Nat) : Field := ⟨⟨.MAC_MAX_FRAME, m, 0, 0⟩, 0, 14⟩
abbrev MAC_TX_THRESH_bytes (m : Nat) : Field := ⟨⟨.MAC_TX_THRESH, m, 0, 0⟩, 0, 14⟩
abbrev MAC_STATUS (m : Nat) : Field := ⟨⟨.MAC_STATUS, m, 0, 0⟩, 0, 5⟩
abbrev MAC_STATUS_gates_active (m : Nat) : Field := ⟨⟨.MAC_STATUS, m, 0, 0⟩, 4, 1⟩
abbrev MAC_STATUS_remote_fault (m : Nat) : Field := ⟨⟨.MAC_STATUS, m, 0, 0⟩, 3, 1⟩
abbrev MAC_STATUS_local_fault (m : Nat) : Field := ⟨⟨.MAC_STATUS, m, 0, 0⟩, 2, 1⟩
abbrev MAC_STATUS_pcs_lock (m : Nat) : Field := ⟨⟨.MAC_STATUS, m, 0, 0⟩, 1, 1⟩
abbrev MAC_STATUS_link_up (m : Nat) : Field := ⟨⟨.MAC_STATUS, m, 0, 0⟩, 0, 1⟩
abbrev MAC_ALARM (m : Nat) : Field := ⟨⟨.MAC_ALARM, m, 0, 0⟩, 0, 7⟩
abbrev MAC_ALARM_tx_late (m : Nat) : Field := ⟨⟨.MAC_ALARM, m, 0, 0⟩, 6, 1⟩
abbrev MAC_ALARM_tx_underrun (m : Nat) : Field := ⟨⟨.MAC_ALARM, m, 0, 0⟩, 5, 1⟩
abbrev MAC_ALARM_rx_full (m : Nat) : Field := ⟨⟨.MAC_ALARM, m, 0, 0⟩, 4, 1⟩
abbrev MAC_ALARM_fec_uncorr (m : Nat) : Field := ⟨⟨.MAC_ALARM, m, 0, 0⟩, 3, 1⟩
abbrev MAC_ALARM_remote_fault (m : Nat) : Field := ⟨⟨.MAC_ALARM, m, 0, 0⟩, 2, 1⟩
abbrev MAC_ALARM_local_fault (m : Nat) : Field := ⟨⟨.MAC_ALARM, m, 0, 0⟩, 1, 1⟩
abbrev MAC_ALARM_link_down (m : Nat) : Field := ⟨⟨.MAC_ALARM, m, 0, 0⟩, 0, 1⟩
abbrev MAC_ALARM_EN (m : Nat) : Field := ⟨⟨.MAC_ALARM_EN, m, 0, 0⟩, 0, 7⟩
abbrev MAC_TC_ptp (m : Nat) : Field := ⟨⟨.MAC_TC, m, 0, 0⟩, 8, 3⟩
abbrev MAC_TC_other (m : Nat) : Field := ⟨⟨.MAC_TC, m, 0, 0⟩, 0, 3⟩
abbrev MAC_HASH (m i : Nat) : Field := ⟨⟨.MAC_HASH, m, i, 0⟩, 0, 32⟩
abbrev MAC_GATE_CTRL_len (m : Nat) : Field := ⟨⟨.MAC_GATE_CTRL, m, 0, 0⟩, 16, 9⟩
abbrev MAC_GATE_CTRL_scale (m : Nat) : Field := ⟨⟨.MAC_GATE_CTRL, m, 0, 0⟩, 4, 3⟩
abbrev MAC_GATE_CTRL_enable (m : Nat) : Field := ⟨⟨.MAC_GATE_CTRL, m, 0, 0⟩, 0, 1⟩
abbrev MAC_GATE_BASE_SEC_LO (m : Nat) : Field := ⟨⟨.MAC_GATE_BASE_SEC_LO, m, 0, 0⟩, 0, 32⟩
abbrev MAC_GATE_BASE_SEC_HI (m : Nat) : Field := ⟨⟨.MAC_GATE_BASE_SEC_HI, m, 0, 0⟩, 0, 16⟩
abbrev MAC_GATE_BASE_NS (m : Nat) : Field := ⟨⟨.MAC_GATE_BASE_NS, m, 0, 0⟩, 0, 30⟩
abbrev MAC_GATE_CYCLE (m : Nat) : Field := ⟨⟨.MAC_GATE_CYCLE, m, 0, 0⟩, 0, 32⟩
abbrev MAC_GATE_CMD_apply (m : Nat) : Field := ⟨⟨.MAC_GATE_CMD, m, 0, 0⟩, 0, 1⟩
abbrev MAC_GATE_STATUS (m : Nat) : Field := ⟨⟨.MAC_GATE_STATUS, m, 0, 0⟩, 0, 32⟩
abbrev MAC_GATE_STATUS_pending (m : Nat) : Field := ⟨⟨.MAC_GATE_STATUS, m, 0, 0⟩, 31, 1⟩
abbrev MAC_GATE_STATUS_oper_len (m : Nat) : Field := ⟨⟨.MAC_GATE_STATUS, m, 0, 0⟩, 16, 9⟩
abbrev MAC_GATE_STATUS_current (m : Nat) : Field := ⟨⟨.MAC_GATE_STATUS, m, 0, 0⟩, 0, 8⟩
abbrev MAC_CNT_RX_FRAMES (m : Nat) : Field := ⟨⟨.MAC_CNT_RX_FRAMES, m, 0, 0⟩, 0, 32⟩
abbrev MAC_CNT_RX_FCS (m : Nat) : Field := ⟨⟨.MAC_CNT_RX_FCS, m, 0, 0⟩, 0, 32⟩
abbrev MAC_CNT_RX_LEN (m : Nat) : Field := ⟨⟨.MAC_CNT_RX_LEN, m, 0, 0⟩, 0, 32⟩
abbrev MAC_CNT_RX_NOMATCH (m : Nat) : Field := ⟨⟨.MAC_CNT_RX_NOMATCH, m, 0, 0⟩, 0, 32⟩
abbrev MAC_CNT_RX_FULL (m : Nat) : Field := ⟨⟨.MAC_CNT_RX_FULL, m, 0, 0⟩, 0, 32⟩
abbrev MAC_CNT_TX_FRAMES (m : Nat) : Field := ⟨⟨.MAC_CNT_TX_FRAMES, m, 0, 0⟩, 0, 32⟩
abbrev MAC_CNT_TX_UNDERRUN (m : Nat) : Field := ⟨⟨.MAC_CNT_TX_UNDERRUN, m, 0, 0⟩, 0, 32⟩
abbrev MAC_CNT_TX_LATE (m : Nat) : Field := ⟨⟨.MAC_CNT_TX_LATE, m, 0, 0⟩, 0, 32⟩
abbrev MAC_CNT_FEC_CORR (m : Nat) : Field := ⟨⟨.MAC_CNT_FEC_CORR, m, 0, 0⟩, 0, 32⟩
abbrev MAC_CNT_FEC_UNCORR (m : Nat) : Field := ⟨⟨.MAC_CNT_FEC_UNCORR, m, 0, 0⟩, 0, 32⟩
abbrev MAC_CNT_CLEAR (m : Nat) : Field := ⟨⟨.MAC_CNT_CLEAR, m, 0, 0⟩, 0, 1⟩
abbrev MAC_GCL_ADMIN (m e : Nat) : Field := ⟨⟨.MAC_GCL_ADMIN, m, e, 0⟩, 0, 32⟩
abbrev MAC_GCL_ADMIN_gates (m e : Nat) : Field := ⟨⟨.MAC_GCL_ADMIN, m, e, 0⟩, 24, 8⟩
abbrev MAC_GCL_ADMIN_interval (m e : Nat) : Field := ⟨⟨.MAC_GCL_ADMIN, m, e, 0⟩, 0, 24⟩
abbrev MAC_GCL_OPER (m e : Nat) : Field := ⟨⟨.MAC_GCL_OPER, m, e, 0⟩, 0, 32⟩
abbrev MAC_TSQ_STATUS_overflow : Field := ⟨⟨.MAC_TSQ_STATUS, 0, 0, 0⟩, 24, 1⟩
abbrev MAC_TSQ_STATUS_entries : Field := ⟨⟨.MAC_TSQ_STATUS, 0, 0, 0⟩, 0, 10⟩
abbrev MAC_TSQ_POP : Field := ⟨⟨.MAC_TSQ_POP, 0, 0, 0⟩, 0, 1⟩
abbrev MAC_TSQ_NEXT_TAG : Field := ⟨⟨.MAC_TSQ_NEXT_TAG, 0, 0, 0⟩, 0, 16⟩
abbrev MAC_TSQ_E (w : Nat) : Field := ⟨⟨.MAC_TSQ_E, w, 0, 0⟩, 0, 32⟩
abbrev MAC_CNT_TSQ_DROP : Field := ⟨⟨.MAC_CNT_TSQ_DROP, 0, 0, 0⟩, 0, 32⟩
abbrev MAC_TSQ_CNT_CLEAR : Field := ⟨⟨.MAC_TSQ_CNT_CLEAR, 0, 0, 0⟩, 0, 1⟩
abbrev FLOW_TABLE_USED : Field := ⟨⟨.FLOW_TABLE_USED, 0, 0, 0⟩, 0, 14⟩
abbrev FLOW_RX_ON : Field := ⟨⟨.FLOW_RX_ON, 0, 0, 0⟩, 0, 14⟩
abbrev FLOW_TX_ON : Field := ⟨⟨.FLOW_TX_ON, 0, 0, 0⟩, 0, 14⟩
abbrev FLOW_OPAQUE_USED_tx : Field := ⟨⟨.FLOW_OPAQUE_USED, 0, 0, 0⟩, 16, 11⟩
abbrev FLOW_OPAQUE_USED_rx : Field := ⟨⟨.FLOW_OPAQUE_USED, 0, 0, 0⟩, 0, 11⟩
abbrev FLOW_CNT_CLEAR_dir : Field := ⟨⟨.FLOW_CNT_CLEAR, 0, 0, 0⟩, 16, 1⟩
abbrev FLOW_CNT_CLEAR_ctx : Field := ⟨⟨.FLOW_CNT_CLEAR, 0, 0, 0⟩, 0, 13⟩
abbrev FLOW_STAGE_FILL : Field := ⟨⟨.FLOW_STAGE_FILL, 0, 0, 0⟩, 0, 13⟩
abbrev FLOW_RX_CTRL_target (q : Nat) : Field := ⟨⟨.FLOW_RX_CTRL, q, 0, 0⟩, 16, 10⟩
abbrev FLOW_RX_CTRL_pt (q : Nat) : Field := ⟨⟨.FLOW_RX_CTRL, q, 0, 0⟩, 8, 7⟩
abbrev FLOW_RX_CTRL_ssrc_check (q : Nat) : Field := ⟨⟨.FLOW_RX_CTRL, q, 0, 0⟩, 6, 1⟩
abbrev FLOW_RX_CTRL_merge (q : Nat) : Field := ⟨⟨.FLOW_RX_CTRL, q, 0, 0⟩, 5, 1⟩
abbrev FLOW_RX_CTRL_kind (q : Nat) : Field := ⟨⟨.FLOW_RX_CTRL, q, 0, 0⟩, 1, 3⟩
abbrev FLOW_RX_CTRL_enable (q : Nat) : Field := ⟨⟨.FLOW_RX_CTRL, q, 0, 0⟩, 0, 1⟩
abbrev FLOW_RX_LEG (q n : Nat) : Field := ⟨⟨.FLOW_RX_LEG, q, n, 0⟩, 0, 28⟩
abbrev FLOW_RX_LEG_vlan (q n : Nat) : Field := ⟨⟨.FLOW_RX_LEG, q, n, 0⟩, 16, 12⟩
abbrev FLOW_RX_LEG_vlan_en (q n : Nat) : Field := ⟨⟨.FLOW_RX_LEG, q, n, 0⟩, 9, 1⟩
abbrev FLOW_RX_LEG_src_en (q n : Nat) : Field := ⟨⟨.FLOW_RX_LEG, q, n, 0⟩, 8, 1⟩
abbrev FLOW_RX_LEG_leg_en (q n : Nat) : Field := ⟨⟨.FLOW_RX_LEG, q, n, 0⟩, 7, 1⟩
abbrev FLOW_RX_LEG_port (q n : Nat) : Field := ⟨⟨.FLOW_RX_LEG, q, n, 0⟩, 0, 7⟩
abbrev FLOW_RX_ADDR (q n : Nat) : Field := ⟨⟨.FLOW_RX_ADDR, q, n, 0⟩, 0, 30⟩
abbrev FLOW_RX_ADDR_src (q n : Nat) : Field := ⟨⟨.FLOW_RX_ADDR, q, n, 0⟩, 16, 14⟩
abbrev FLOW_RX_ADDR_dst (q n : Nat) : Field := ⟨⟨.FLOW_RX_ADDR, q, n, 0⟩, 0, 14⟩
abbrev FLOW_RX_MERGE_skew_us (q : Nat) : Field := ⟨⟨.FLOW_RX_MERGE, q, 0, 0⟩, 0, 14⟩
abbrev FLOW_RX_STATUS (q : Nat) : Field := ⟨⟨.FLOW_RX_STATUS, q, 0, 0⟩, 0, 32⟩
abbrev FLOW_RX_STATUS_skew (q : Nat) : Field := ⟨⟨.FLOW_RX_STATUS, q, 0, 0⟩, 16, 16⟩
abbrev FLOW_RX_STATUS_leg_b_lost (q : Nat) : Field := ⟨⟨.FLOW_RX_STATUS, q, 0, 0⟩, 4, 1⟩
abbrev FLOW_RX_STATUS_leg_a_lost (q : Nat) : Field := ⟨⟨.FLOW_RX_STATUS, q, 0, 0⟩, 3, 1⟩
abbrev FLOW_RX_STATUS_skew_exceeded (q : Nat) : Field := ⟨⟨.FLOW_RX_STATUS, q, 0, 0⟩, 2, 1⟩
abbrev FLOW_RX_STATUS_ssrc_locked (q : Nat) : Field := ⟨⟨.FLOW_RX_STATUS, q, 0, 0⟩, 1, 1⟩
abbrev FLOW_RX_STATUS_receiving (q : Nat) : Field := ⟨⟨.FLOW_RX_STATUS, q, 0, 0⟩, 0, 1⟩
abbrev FLOW_RX_ALARM (q : Nat) : Field := ⟨⟨.FLOW_RX_ALARM, q, 0, 0⟩, 0, 6⟩
abbrev FLOW_RX_ALARM_ssrc_mismatch (q : Nat) : Field := ⟨⟨.FLOW_RX_ALARM, q, 0, 0⟩, 5, 1⟩
abbrev FLOW_RX_ALARM_pkt_err (q : Nat) : Field := ⟨⟨.FLOW_RX_ALARM, q, 0, 0⟩, 4, 1⟩
abbrev FLOW_RX_ALARM_lost (q : Nat) : Field := ⟨⟨.FLOW_RX_ALARM, q, 0, 0⟩, 3, 1⟩
abbrev FLOW_RX_ALARM_skew_exceeded (q : Nat) : Field := ⟨⟨.FLOW_RX_ALARM, q, 0, 0⟩, 2, 1⟩
abbrev FLOW_RX_ALARM_leg_b_lost (q : Nat) : Field := ⟨⟨.FLOW_RX_ALARM, q, 0, 0⟩, 1, 1⟩
abbrev FLOW_RX_ALARM_leg_a_lost (q : Nat) : Field := ⟨⟨.FLOW_RX_ALARM, q, 0, 0⟩, 0, 1⟩
abbrev FLOW_RX_ALARM_EN (q : Nat) : Field := ⟨⟨.FLOW_RX_ALARM_EN, q, 0, 0⟩, 0, 6⟩
abbrev FLOW_RX_SSRC (q : Nat) : Field := ⟨⟨.FLOW_RX_SSRC, q, 0, 0⟩, 0, 32⟩
abbrev FLOW_RX_CNT_PKTS (q : Nat) : Field := ⟨⟨.FLOW_RX_CNT_PKTS, q, 0, 0⟩, 0, 32⟩
abbrev FLOW_RX_CNT_LOST (q : Nat) : Field := ⟨⟨.FLOW_RX_CNT_LOST, q, 0, 0⟩, 0, 32⟩
abbrev FLOW_RX_CNT_ERR (q : Nat) : Field := ⟨⟨.FLOW_RX_CNT_ERR, q, 0, 0⟩, 0, 32⟩
abbrev FLOW_RX_CNT_LATE (q : Nat) : Field := ⟨⟨.FLOW_RX_CNT_LATE, q, 0, 0⟩, 0, 32⟩
abbrev FLOW_RX_CNT_DUP (q : Nat) : Field := ⟨⟨.FLOW_RX_CNT_DUP, q, 0, 0⟩, 0, 32⟩
abbrev FLOW_TX_CTRL_dest (q : Nat) : Field := ⟨⟨.FLOW_TX_CTRL, q, 0, 0⟩, 20, 10⟩
abbrev FLOW_TX_CTRL_tc (q : Nat) : Field := ⟨⟨.FLOW_TX_CTRL, q, 0, 0⟩, 16, 3⟩
abbrev FLOW_TX_CTRL_pt (q : Nat) : Field := ⟨⟨.FLOW_TX_CTRL, q, 0, 0⟩, 8, 7⟩
abbrev FLOW_TX_CTRL_pacing (q : Nat) : Field := ⟨⟨.FLOW_TX_CTRL, q, 0, 0⟩, 5, 2⟩
abbrev FLOW_TX_CTRL_standby (q : Nat) : Field := ⟨⟨.FLOW_TX_CTRL, q, 0, 0⟩, 4, 1⟩
abbrev FLOW_TX_CTRL_kind (q : Nat) : Field := ⟨⟨.FLOW_TX_CTRL, q, 0, 0⟩, 1, 3⟩
abbrev FLOW_TX_CTRL_enable (q : Nat) : Field := ⟨⟨.FLOW_TX_CTRL, q, 0, 0⟩, 0, 1⟩
abbrev FLOW_TX_LEG (q n : Nat) : Field := ⟨⟨.FLOW_TX_LEG, q, n, 0⟩, 0, 32⟩
abbrev FLOW_TX_LEG_pcp (q n : Nat) : Field := ⟨⟨.FLOW_TX_LEG, q, n, 0⟩, 29, 3⟩
abbrev FLOW_TX_LEG_vlan (q n : Nat) : Field := ⟨⟨.FLOW_TX_LEG, q, n, 0⟩, 16, 12⟩
abbrev FLOW_TX_LEG_vlan_en (q n : Nat) : Field := ⟨⟨.FLOW_TX_LEG, q, n, 0⟩, 9, 1⟩
abbrev FLOW_TX_LEG_leg_en (q n : Nat) : Field := ⟨⟨.FLOW_TX_LEG, q, n, 0⟩, 7, 1⟩
abbrev FLOW_TX_LEG_port (q n : Nat) : Field := ⟨⟨.FLOW_TX_LEG, q, n, 0⟩, 0, 7⟩
abbrev FLOW_TX_ADDR (q n : Nat) : Field := ⟨⟨.FLOW_TX_ADDR, q, n, 0⟩, 0, 32⟩
abbrev FLOW_TX_ADDR_ttl (q n : Nat) : Field := ⟨⟨.FLOW_TX_ADDR, q, n, 0⟩, 24, 8⟩
abbrev FLOW_TX_ADDR_dscp (q n : Nat) : Field := ⟨⟨.FLOW_TX_ADDR, q, n, 0⟩, 16, 6⟩
abbrev FLOW_TX_ADDR_dst (q n : Nat) : Field := ⟨⟨.FLOW_TX_ADDR, q, n, 0⟩, 0, 14⟩
abbrev FLOW_TX_SSRC (q : Nat) : Field := ⟨⟨.FLOW_TX_SSRC, q, 0, 0⟩, 0, 32⟩
abbrev FLOW_TX_TRO (q : Nat) : Field := ⟨⟨.FLOW_TX_TRO, q, 0, 0⟩, 0, 32⟩
abbrev FLOW_TX_PKT_late_us (q : Nat) : Field := ⟨⟨.FLOW_TX_PKT, q, 0, 0⟩, 16, 14⟩
abbrev FLOW_TX_PKT_payload (q : Nat) : Field := ⟨⟨.FLOW_TX_PKT, q, 0, 0⟩, 0, 14⟩
abbrev FLOW_TX_TRS (q : Nat) : Field := ⟨⟨.FLOW_TX_TRS, q, 0, 0⟩, 0, 32⟩
abbrev FLOW_TX_STATUS (q : Nat) : Field := ⟨⟨.FLOW_TX_STATUS, q, 0, 0⟩, 0, 32⟩
abbrev FLOW_TX_STATUS_bound (q : Nat) : Field := ⟨⟨.FLOW_TX_STATUS, q, 0, 0⟩, 31, 1⟩
abbrev FLOW_TX_STATUS_owner_kind (q : Nat) : Field := ⟨⟨.FLOW_TX_STATUS, q, 0, 0⟩, 29, 2⟩
abbrev FLOW_TX_STATUS_owner (q : Nat) : Field := ⟨⟨.FLOW_TX_STATUS, q, 0, 0⟩, 14, 15⟩
abbrev FLOW_TX_STATUS_parked (q : Nat) : Field := ⟨⟨.FLOW_TX_STATUS, q, 0, 0⟩, 2, 1⟩
abbrev FLOW_TX_STATUS_muted (q : Nat) : Field := ⟨⟨.FLOW_TX_STATUS, q, 0, 0⟩, 1, 1⟩
abbrev FLOW_TX_STATUS_sending (q : Nat) : Field := ⟨⟨.FLOW_TX_STATUS, q, 0, 0⟩, 0, 1⟩
abbrev FLOW_TX_ALARM (q : Nat) : Field := ⟨⟨.FLOW_TX_ALARM, q, 0, 0⟩, 0, 2⟩
abbrev FLOW_TX_ALARM_underrun (q : Nat) : Field := ⟨⟨.FLOW_TX_ALARM, q, 0, 0⟩, 1, 1⟩
abbrev FLOW_TX_ALARM_late (q : Nat) : Field := ⟨⟨.FLOW_TX_ALARM, q, 0, 0⟩, 0, 1⟩
abbrev FLOW_TX_ALARM_EN (q : Nat) : Field := ⟨⟨.FLOW_TX_ALARM_EN, q, 0, 0⟩, 0, 2⟩
abbrev FLOW_TX_SEQ (q : Nat) : Field := ⟨⟨.FLOW_TX_SEQ, q, 0, 0⟩, 0, 32⟩
abbrev FLOW_TX_CNT_PKTS (q : Nat) : Field := ⟨⟨.FLOW_TX_CNT_PKTS, q, 0, 0⟩, 0, 32⟩
abbrev FLOW_TX_CNT_LATE (q : Nat) : Field := ⟨⟨.FLOW_TX_CNT_LATE, q, 0, 0⟩, 0, 32⟩
abbrev HBM_CTRL_grain_log2 : Field := ⟨⟨.HBM_CTRL, 0, 0, 0⟩, 8, 4⟩
abbrev HBM_CTRL_hash_en : Field := ⟨⟨.HBM_CTRL, 0, 0, 0⟩, 4, 1⟩
abbrev HBM_CTRL_enable : Field := ⟨⟨.HBM_CTRL, 0, 0, 0⟩, 0, 1⟩
abbrev HBM_INFO_stacks : Field := ⟨⟨.HBM_INFO, 0, 0, 0⟩, 16, 4⟩
abbrev HBM_INFO_capacity_mib : Field := ⟨⟨.HBM_INFO, 0, 0, 0⟩, 0, 16⟩
abbrev HBM_APERTURE_write_en : Field := ⟨⟨.HBM_APERTURE, 0, 0, 0⟩, 31, 1⟩
abbrev HBM_APERTURE_base : Field := ⟨⟨.HBM_APERTURE, 0, 0, 0⟩, 0, 12⟩
abbrev HBM_SCRUB_enable : Field := ⟨⟨.HBM_SCRUB, 0, 0, 0⟩, 31, 1⟩
abbrev HBM_SCRUB_sram_min : Field := ⟨⟨.HBM_SCRUB, 0, 0, 0⟩, 16, 8⟩
abbrev HBM_SCRUB_period_h : Field := ⟨⟨.HBM_SCRUB, 0, 0, 0⟩, 0, 8⟩
abbrev HBM_PNR_enable : Field := ⟨⟨.HBM_PNR, 0, 0, 0⟩, 8, 1⟩
abbrev HBM_PNR_distance : Field := ⟨⟨.HBM_PNR, 0, 0, 0⟩, 4, 2⟩
abbrev HBM_PNR_rate_log2 : Field := ⟨⟨.HBM_PNR, 0, 0, 0⟩, 0, 4⟩
abbrev HBM_REPAIR_ce_rate : Field := ⟨⟨.HBM_REPAIR, 0, 0, 0⟩, 16, 16⟩
abbrev HBM_REPAIR_window_h : Field := ⟨⟨.HBM_REPAIR, 0, 0, 0⟩, 8, 8⟩
abbrev HBM_REPAIR_row_ce : Field := ⟨⟨.HBM_REPAIR, 0, 0, 0⟩, 0, 8⟩
abbrev HBM_STATUS : Field := ⟨⟨.HBM_STATUS, 0, 0, 0⟩, 0, 5⟩
abbrev HBM_STATUS_plan_exceeded : Field := ⟨⟨.HBM_STATUS, 0, 0, 0⟩, 4, 1⟩
abbrev HBM_STATUS_repair_exhausted : Field := ⟨⟨.HBM_STATUS, 0, 0, 0⟩, 3, 1⟩
abbrev HBM_STATUS_scrub_behind : Field := ⟨⟨.HBM_STATUS, 0, 0, 0⟩, 2, 1⟩
abbrev HBM_STATUS_scrub_paused : Field := ⟨⟨.HBM_STATUS, 0, 0, 0⟩, 1, 1⟩
abbrev HBM_STATUS_trained : Field := ⟨⟨.HBM_STATUS, 0, 0, 0⟩, 0, 1⟩
abbrev HBM_ALARM : Field := ⟨⟨.HBM_ALARM, 0, 0, 0⟩, 0, 8⟩
abbrev HBM_ALARM_plan_exceeded : Field := ⟨⟨.HBM_ALARM, 0, 0, 0⟩, 7, 1⟩
abbrev HBM_ALARM_repair_exhausted : Field := ⟨⟨.HBM_ALARM, 0, 0, 0⟩, 6, 1⟩
abbrev HBM_ALARM_repair_done : Field := ⟨⟨.HBM_ALARM, 0, 0, 0⟩, 5, 1⟩
abbrev HBM_ALARM_ce_rate : Field := ⟨⟨.HBM_ALARM, 0, 0, 0⟩, 4, 1⟩
abbrev HBM_ALARM_poison_read : Field := ⟨⟨.HBM_ALARM, 0, 0, 0⟩, 3, 1⟩
abbrev HBM_ALARM_ue : Field := ⟨⟨.HBM_ALARM, 0, 0, 0⟩, 2, 1⟩
abbrev HBM_ALARM_elog_full : Field := ⟨⟨.HBM_ALARM, 0, 0, 0⟩, 1, 1⟩
abbrev HBM_ALARM_ce : Field := ⟨⟨.HBM_ALARM, 0, 0, 0⟩, 0, 1⟩
abbrev HBM_ALARM_EN : Field := ⟨⟨.HBM_ALARM_EN, 0, 0, 0⟩, 0, 8⟩
abbrev HBM_BW_RD : Field := ⟨⟨.HBM_BW_RD, 0, 0, 0⟩, 0, 32⟩
abbrev HBM_BW_WR : Field := ⟨⟨.HBM_BW_WR, 0, 0, 0⟩, 0, 32⟩
abbrev HBM_PLAN : Field := ⟨⟨.HBM_PLAN, 0, 0, 0⟩, 0, 32⟩
abbrev HBM_PLAN_LIMIT : Field := ⟨⟨.HBM_PLAN_LIMIT, 0, 0, 0⟩, 0, 32⟩
abbrev HBM_CNT_CE : Field := ⟨⟨.HBM_CNT_CE, 0, 0, 0⟩, 0, 32⟩
abbrev HBM_CNT_UE : Field := ⟨⟨.HBM_CNT_UE, 0, 0, 0⟩, 0, 32⟩
abbrev HBM_CNT_POISON_READ : Field := ⟨⟨.HBM_CNT_POISON_READ, 0, 0, 0⟩, 0, 32⟩
abbrev HBM_CNT_SPARED : Field := ⟨⟨.HBM_CNT_SPARED, 0, 0, 0⟩, 0, 32⟩
abbrev HBM_CNT_PNR_DROP : Field := ⟨⟨.HBM_CNT_PNR_DROP, 0, 0, 0⟩, 0, 32⟩
abbrev HBM_CNT_CLEAR : Field := ⟨⟨.HBM_CNT_CLEAR, 0, 0, 0⟩, 0, 1⟩
abbrev HBM_ELOG_CTRL_log_ce : Field := ⟨⟨.HBM_ELOG_CTRL, 0, 0, 0⟩, 0, 1⟩
abbrev HBM_ELOG_STATUS_full : Field := ⟨⟨.HBM_ELOG_STATUS, 0, 0, 0⟩, 31, 1⟩
abbrev HBM_ELOG_STATUS_entries : Field := ⟨⟨.HBM_ELOG_STATUS, 0, 0, 0⟩, 0, 7⟩
abbrev HBM_ELOG_POP : Field := ⟨⟨.HBM_ELOG_POP, 0, 0, 0⟩, 0, 1⟩
abbrev HBM_ELOG_E (w : Nat) : Field := ⟨⟨.HBM_ELOG_E, w, 0, 0⟩, 0, 32⟩
abbrev HBM_QOS_CTRL_source (m : Nat) : Field := ⟨⟨.HBM_QOS_CTRL, m, 0, 0⟩, 0, 1⟩
abbrev HBM_QOS_TARGET (m : Nat) : Field := ⟨⟨.HBM_QOS_TARGET, m, 0, 0⟩, 0, 16⟩
abbrev HBM_QOS_STATUS_u (m : Nat) : Field := ⟨⟨.HBM_QOS_STATUS, m, 0, 0⟩, 0, 2⟩
abbrev HBM_QOS_LATE (m : Nat) : Field := ⟨⟨.HBM_QOS_LATE, m, 0, 0⟩, 0, 32⟩
abbrev HBM_FK_STATUS (f : Nat) : Field := ⟨⟨.HBM_FK_STATUS, f, 0, 0⟩, 0, 12⟩
abbrev HBM_FK_STATUS_spares (f : Nat) : Field := ⟨⟨.HBM_FK_STATUS, f, 0, 0⟩, 8, 4⟩
abbrev HBM_FK_STATUS_use (f : Nat) : Field := ⟨⟨.HBM_FK_STATUS, f, 0, 0⟩, 0, 3⟩
abbrev HBM_FK_CNT_CE (f : Nat) : Field := ⟨⟨.HBM_FK_CNT_CE, f, 0, 0⟩, 0, 32⟩
abbrev HBM_FK_CNT_UE (f : Nat) : Field := ⟨⟨.HBM_FK_CNT_UE, f, 0, 0⟩, 0, 32⟩
abbrev HBM_CH_CTRL_enable (c : Nat) : Field := ⟨⟨.HBM_CH_CTRL, c, 0, 0⟩, 0, 1⟩
abbrev HBM_CH_STATUS (c : Nat) : Field := ⟨⟨.HBM_CH_STATUS, c, 0, 0⟩, 0, 32⟩
abbrev HBM_CH_STATUS_temperature (c : Nat) : Field := ⟨⟨.HBM_CH_STATUS, c, 0, 0⟩, 24, 8⟩
abbrev HBM_CH_STATUS_hot (c : Nat) : Field := ⟨⟨.HBM_CH_STATUS, c, 0, 0⟩, 16, 1⟩
abbrev HBM_CH_STATUS_remap1 (c : Nat) : Field := ⟨⟨.HBM_CH_STATUS, c, 0, 0⟩, 8, 7⟩
abbrev HBM_CH_STATUS_remap0 (c : Nat) : Field := ⟨⟨.HBM_CH_STATUS, c, 0, 0⟩, 0, 7⟩
abbrev HBM_CH_REPAIR (c : Nat) : Field := ⟨⟨.HBM_CH_REPAIR, c, 0, 0⟩, 0, 16⟩
abbrev HBM_CH_REPAIR_lanes (c : Nat) : Field := ⟨⟨.HBM_CH_REPAIR, c, 0, 0⟩, 8, 8⟩
abbrev HBM_CH_REPAIR_hard (c : Nat) : Field := ⟨⟨.HBM_CH_REPAIR, c, 0, 0⟩, 0, 8⟩
abbrev HBM_CH_CNT_CE (c : Nat) : Field := ⟨⟨.HBM_CH_CNT_CE, c, 0, 0⟩, 0, 32⟩
abbrev HBM_CH_CNT_UE (c : Nat) : Field := ⟨⟨.HBM_CH_CNT_UE, c, 0, 0⟩, 0, 32⟩
abbrev HBM_CH_CNT_DROP (c : Nat) : Field := ⟨⟨.HBM_CH_CNT_DROP, c, 0, 0⟩, 0, 32⟩
abbrev HBM_CH_BW (c : Nat) : Field := ⟨⟨.HBM_CH_BW, c, 0, 0⟩, 0, 32⟩
abbrev MTX_CTRL_wd_en : Field := ⟨⟨.MTX_CTRL, 0, 0, 0⟩, 8, 1⟩
abbrev MTX_WATCHDOG : Field := ⟨⟨.MTX_WATCHDOG, 0, 0, 0⟩, 0, 24⟩
abbrev MTX_POOL_peak : Field := ⟨⟨.MTX_POOL, 0, 0, 0⟩, 16, 12⟩
abbrev MTX_POOL_in_flight : Field := ⟨⟨.MTX_POOL, 0, 0, 0⟩, 0, 12⟩
abbrev MTX_STATUS : Field := ⟨⟨.MTX_STATUS, 0, 0, 0⟩, 0, 2⟩
abbrev MTX_STATUS_log_full : Field := ⟨⟨.MTX_STATUS, 0, 0, 0⟩, 1, 1⟩
abbrev MTX_STATUS_hold_active : Field := ⟨⟨.MTX_STATUS, 0, 0, 0⟩, 0, 1⟩
abbrev MTX_ALARM : Field := ⟨⟨.MTX_ALARM, 0, 0, 0⟩, 0, 3⟩
abbrev MTX_ALARM_timeout : Field := ⟨⟨.MTX_ALARM, 0, 0, 0⟩, 2, 1⟩
abbrev MTX_ALARM_log_overflow : Field := ⟨⟨.MTX_ALARM, 0, 0, 0⟩, 1, 1⟩
abbrev MTX_ALARM_decode_fault : Field := ⟨⟨.MTX_ALARM, 0, 0, 0⟩, 0, 1⟩
abbrev MTX_ALARM_EN : Field := ⟨⟨.MTX_ALARM_EN, 0, 0, 0⟩, 0, 3⟩
abbrev MTX_LOG_STATUS_full : Field := ⟨⟨.MTX_LOG_STATUS, 0, 0, 0⟩, 31, 1⟩
abbrev MTX_LOG_STATUS_entries : Field := ⟨⟨.MTX_LOG_STATUS, 0, 0, 0⟩, 0, 5⟩
abbrev MTX_LOG_POP : Field := ⟨⟨.MTX_LOG_POP, 0, 0, 0⟩, 0, 1⟩
abbrev MTX_CNT_DECODE : Field := ⟨⟨.MTX_CNT_DECODE, 0, 0, 0⟩, 0, 32⟩
abbrev MTX_CNT_TIMEOUT : Field := ⟨⟨.MTX_CNT_TIMEOUT, 0, 0, 0⟩, 0, 32⟩
abbrev MTX_CNT_LOG_DROP : Field := ⟨⟨.MTX_CNT_LOG_DROP, 0, 0, 0⟩, 0, 32⟩
abbrev MTX_CNT_CLEAR : Field := ⟨⟨.MTX_CNT_CLEAR, 0, 0, 0⟩, 0, 1⟩
abbrev MTX_LOG_E (w : Nat) : Field := ⟨⟨.MTX_LOG_E, w, 0, 0⟩, 0, 32⟩
abbrev MTX_SQ_SEL_port : Field := ⟨⟨.MTX_SQ_SEL, 0, 0, 0⟩, 16, 6⟩
abbrev MTX_SQ_SEL_stream : Field := ⟨⟨.MTX_SQ_SEL, 0, 0, 0⟩, 0, 14⟩
abbrev MTX_SQ_STATE : Field := ⟨⟨.MTX_SQ_STATE, 0, 0, 0⟩, 0, 26⟩
abbrev MTX_SQ_STATE_state : Field := ⟨⟨.MTX_SQ_STATE, 0, 0, 0⟩, 24, 2⟩
abbrev MTX_SQ_STATE_reads : Field := ⟨⟨.MTX_SQ_STATE, 0, 0, 0⟩, 16, 7⟩
abbrev MTX_SQ_STATE_writes : Field := ⟨⟨.MTX_SQ_STATE, 0, 0, 0⟩, 8, 6⟩
abbrev MTX_SQ_STATE_held : Field := ⟨⟨.MTX_SQ_STATE, 0, 0, 0⟩, 0, 1⟩
abbrev MTX_P_STATUS (m : Nat) : Field := ⟨⟨.MTX_P_STATUS, m, 0, 0⟩, 0, 23⟩
abbrev MTX_P_STATUS_reads (m : Nat) : Field := ⟨⟨.MTX_P_STATUS, m, 0, 0⟩, 16, 7⟩
abbrev MTX_P_STATUS_writes (m : Nat) : Field := ⟨⟨.MTX_P_STATUS, m, 0, 0⟩, 8, 6⟩
abbrev MTX_P_STATUS_reserve_free (m : Nat) : Field := ⟨⟨.MTX_P_STATUS, m, 0, 0⟩, 0, 3⟩
abbrev MTX_P_HELD (m : Nat) : Field := ⟨⟨.MTX_P_HELD, m, 0, 0⟩, 0, 14⟩
abbrev MTX_P_CNT_RD (m : Nat) : Field := ⟨⟨.MTX_P_CNT_RD, m, 0, 0⟩, 0, 32⟩
abbrev MTX_P_CNT_WR (m : Nat) : Field := ⟨⟨.MTX_P_CNT_WR, m, 0, 0⟩, 0, 32⟩
abbrev MTX_P_CNT_POOL_WAIT (m : Nat) : Field := ⟨⟨.MTX_P_CNT_POOL_WAIT, m, 0, 0⟩, 0, 32⟩
abbrev MTX_P_PRIO (m i : Nat) : Field := ⟨⟨.MTX_P_PRIO, m, i, 0⟩, 0, 32⟩
abbrev TWIN_CTRL_auto_offer : Field := ⟨⟨.TWIN_CTRL, 0, 0, 0⟩, 8, 1⟩
abbrev TWIN_CTRL_unit : Field := ⟨⟨.TWIN_CTRL, 0, 0, 0⟩, 4, 1⟩
abbrev TWIN_CTRL_enable : Field := ⟨⟨.TWIN_CTRL, 0, 0, 0⟩, 0, 1⟩
abbrev TWIN_STATUS : Field := ⟨⟨.TWIN_STATUS, 0, 0, 0⟩, 0, 32⟩
abbrev TWIN_STATUS_swap_pending : Field := ⟨⟨.TWIN_STATUS, 0, 0, 0⟩, 29, 1⟩
abbrev TWIN_STATUS_far_lockstep : Field := ⟨⟨.TWIN_STATUS, 0, 0, 0⟩, 28, 1⟩
abbrev TWIN_STATUS_lvds_path_ok : Field := ⟨⟨.TWIN_STATUS, 0, 0, 0⟩, 27, 1⟩
abbrev TWIN_STATUS_lane_path_ok : Field := ⟨⟨.TWIN_STATUS, 0, 0, 0⟩, 26, 1⟩
abbrev TWIN_STATUS_role_active : Field := ⟨⟨.TWIN_STATUS, 0, 0, 0⟩, 25, 1⟩
abbrev TWIN_STATUS_role_grant : Field := ⟨⟨.TWIN_STATUS, 0, 0, 0⟩, 24, 1⟩
abbrev TWIN_STATUS_refuse_reason : Field := ⟨⟨.TWIN_STATUS, 0, 0, 0⟩, 16, 8⟩
abbrev TWIN_STATUS_epoch : Field := ⟨⟨.TWIN_STATUS, 0, 0, 0⟩, 8, 8⟩
abbrev TWIN_STATUS_tstate : Field := ⟨⟨.TWIN_STATUS, 0, 0, 0⟩, 0, 4⟩
abbrev TWIN_PECK : Field := ⟨⟨.TWIN_PECK, 0, 0, 0⟩, 0, 32⟩
abbrev TWIN_PECK_far_stage : Field := ⟨⟨.TWIN_PECK, 0, 0, 0⟩, 24, 3⟩
abbrev TWIN_PECK_last_seq : Field := ⟨⟨.TWIN_PECK, 0, 0, 0⟩, 16, 8⟩
abbrev TWIN_PECK_lvds_miss : Field := ⟨⟨.TWIN_PECK, 0, 0, 0⟩, 8, 4⟩
abbrev TWIN_PECK_lane_miss : Field := ⟨⟨.TWIN_PECK, 0, 0, 0⟩, 0, 4⟩
abbrev TWIN_TIMING_miss_limit : Field := ⟨⟨.TWIN_TIMING, 0, 0, 0⟩, 16, 4⟩
abbrev TWIN_TIMING_seek_s : Field := ⟨⟨.TWIN_TIMING, 0, 0, 0⟩, 0, 8⟩
abbrev TWIN_ADMIT_time_tol : Field := ⟨⟨.TWIN_ADMIT, 0, 0, 0⟩, 16, 16⟩
abbrev TWIN_ADMIT_frames : Field := ⟨⟨.TWIN_ADMIT, 0, 0, 0⟩, 0, 16⟩
abbrev TWIN_ADMIT_COUNT : Field := ⟨⟨.TWIN_ADMIT_COUNT, 0, 0, 0⟩, 0, 16⟩
abbrev TWIN_SIG_CTRL_div_frames : Field := ⟨⟨.TWIN_SIG_CTRL, 0, 0, 0⟩, 16, 4⟩
abbrev TWIN_SIG_CTRL_drop_frames : Field := ⟨⟨.TWIN_SIG_CTRL, 0, 0, 0⟩, 8, 8⟩
abbrev TWIN_SIG_CTRL_ref_otg : Field := ⟨⟨.TWIN_SIG_CTRL, 0, 0, 0⟩, 0, 5⟩
abbrev TWIN_FAR_INFO : Field := ⟨⟨.TWIN_FAR_INFO, 0, 0, 0⟩, 0, 32⟩
abbrev TWIN_FAR_INFO_far_lockstep : Field := ⟨⟨.TWIN_FAR_INFO, 0, 0, 0⟩, 22, 1⟩
abbrev TWIN_FAR_INFO_far_role : Field := ⟨⟨.TWIN_FAR_INFO, 0, 0, 0⟩, 20, 2⟩
abbrev TWIN_FAR_INFO_far_es : Field := ⟨⟨.TWIN_FAR_INFO, 0, 0, 0⟩, 17, 1⟩
abbrev TWIN_FAR_INFO_far_unit : Field := ⟨⟨.TWIN_FAR_INFO, 0, 0, 0⟩, 16, 1⟩
abbrev TWIN_FAR_INFO_far_gen : Field := ⟨⟨.TWIN_FAR_INFO, 0, 0, 0⟩, 0, 16⟩
abbrev TWIN_CFG_GEN : Field := ⟨⟨.TWIN_CFG_GEN, 0, 0, 0⟩, 0, 16⟩
abbrev TWIN_COMPAT : Field := ⟨⟨.TWIN_COMPAT, 0, 0, 0⟩, 0, 16⟩
abbrev TWIN_COMMIT_CNT : Field := ⟨⟨.TWIN_COMMIT_CNT, 0, 0, 0⟩, 0, 32⟩
abbrev TWIN_SWAP_FRAME_LO : Field := ⟨⟨.TWIN_SWAP_FRAME_LO, 0, 0, 0⟩, 0, 32⟩
abbrev TWIN_SWAP_FRAME_HI : Field := ⟨⟨.TWIN_SWAP_FRAME_HI, 0, 0, 0⟩, 0, 32⟩
abbrev TWIN_LVDS_STATUS : Field := ⟨⟨.TWIN_LVDS_STATUS, 0, 0, 0⟩, 0, 32⟩
abbrev TWIN_LVDS_STATUS_cdr_lock : Field := ⟨⟨.TWIN_LVDS_STATUS, 0, 0, 0⟩, 31, 1⟩
abbrev TWIN_LVDS_STATUS_errors : Field := ⟨⟨.TWIN_LVDS_STATUS, 0, 0, 0⟩, 0, 16⟩
abbrev TWIN_ALARM : Field := ⟨⟨.TWIN_ALARM, 0, 0, 0⟩, 0, 12⟩
abbrev TWIN_ALARM_lvds_fault : Field := ⟨⟨.TWIN_ALARM, 0, 0, 0⟩, 11, 1⟩
abbrev TWIN_ALARM_swap_done : Field := ⟨⟨.TWIN_ALARM, 0, 0, 0⟩, 10, 1⟩
abbrev TWIN_ALARM_lockstep_lost : Field := ⟨⟨.TWIN_ALARM, 0, 0, 0⟩, 9, 1⟩
abbrev TWIN_ALARM_contention : Field := ⟨⟨.TWIN_ALARM, 0, 0, 0⟩, 8, 1⟩
abbrev TWIN_ALARM_admit_refused : Field := ⟨⟨.TWIN_ALARM, 0, 0, 0⟩, 7, 1⟩
abbrev TWIN_ALARM_commit_late : Field := ⟨⟨.TWIN_ALARM, 0, 0, 0⟩, 6, 1⟩
abbrev TWIN_ALARM_decision_local : Field := ⟨⟨.TWIN_ALARM, 0, 0, 0⟩, 5, 1⟩
abbrev TWIN_ALARM_input_diverged : Field := ⟨⟨.TWIN_ALARM, 0, 0, 0⟩, 4, 1⟩
abbrev TWIN_ALARM_diverged : Field := ⟨⟨.TWIN_ALARM, 0, 0, 0⟩, 3, 1⟩
abbrev TWIN_ALARM_path_lvds_lost : Field := ⟨⟨.TWIN_ALARM, 0, 0, 0⟩, 2, 1⟩
abbrev TWIN_ALARM_path_lane_lost : Field := ⟨⟨.TWIN_ALARM, 0, 0, 0⟩, 1, 1⟩
abbrev TWIN_ALARM_failover : Field := ⟨⟨.TWIN_ALARM, 0, 0, 0⟩, 0, 1⟩
abbrev TWIN_ALARM_EN : Field := ⟨⟨.TWIN_ALARM_EN, 0, 0, 0⟩, 0, 12⟩
abbrev TWIN_CNT_FAILOVER : Field := ⟨⟨.TWIN_CNT_FAILOVER, 0, 0, 0⟩, 0, 32⟩
abbrev TWIN_CNT_SWAP : Field := ⟨⟨.TWIN_CNT_SWAP, 0, 0, 0⟩, 0, 32⟩
abbrev TWIN_CNT_LANE_MISS : Field := ⟨⟨.TWIN_CNT_LANE_MISS, 0, 0, 0⟩, 0, 32⟩
abbrev TWIN_CNT_LVDS_MISS : Field := ⟨⟨.TWIN_CNT_LVDS_MISS, 0, 0, 0⟩, 0, 32⟩
abbrev TWIN_CNT_SIG_MISMATCH : Field := ⟨⟨.TWIN_CNT_SIG_MISMATCH, 0, 0, 0⟩, 0, 32⟩
abbrev TWIN_CNT_DECISION_LOCAL : Field := ⟨⟨.TWIN_CNT_DECISION_LOCAL, 0, 0, 0⟩, 0, 32⟩
abbrev TWIN_CNT_DECISION_DIFFER : Field := ⟨⟨.TWIN_CNT_DECISION_DIFFER, 0, 0, 0⟩, 0, 32⟩
abbrev TWIN_CNT_COMMIT_LATE : Field := ⟨⟨.TWIN_CNT_COMMIT_LATE, 0, 0, 0⟩, 0, 32⟩
abbrev TWIN_CNT_RESYNC : Field := ⟨⟨.TWIN_CNT_RESYNC, 0, 0, 0⟩, 0, 32⟩
abbrev TWIN_CNT_CLEAR : Field := ⟨⟨.TWIN_CNT_CLEAR, 0, 0, 0⟩, 0, 1⟩
abbrev TWIN_SIG_cause (n : Nat) : Field := ⟨⟨.TWIN_SIG, n, 0, 0⟩, 30, 2⟩
abbrev TWIN_SIG_diverged (n : Nat) : Field := ⟨⟨.TWIN_SIG, n, 0, 0⟩, 29, 1⟩
abbrev TWIN_SIG_exclude (n : Nat) : Field := ⟨⟨.TWIN_SIG, n, 0, 0⟩, 28, 1⟩
abbrev TWIN_SIG_run (n : Nat) : Field := ⟨⟨.TWIN_SIG, n, 0, 0⟩, 0, 16⟩
abbrev TWIN_SIG_FAR (n : Nat) : Field := ⟨⟨.TWIN_SIG_FAR, n, 0, 0⟩, 0, 32⟩
abbrev GLB_ID_device : Field := ⟨⟨.GLB_ID, 0, 0, 0⟩, 16, 16⟩
abbrev GLB_ID_grade : Field := ⟨⟨.GLB_ID, 0, 0, 0⟩, 8, 8⟩
abbrev GLB_ID_stepping : Field := ⟨⟨.GLB_ID, 0, 0, 0⟩, 0, 8⟩
abbrev GLB_DIE_ID_LO : Field := ⟨⟨.GLB_DIE_ID_LO, 0, 0, 0⟩, 0, 32⟩
abbrev GLB_DIE_ID_HI : Field := ⟨⟨.GLB_DIE_ID_HI, 0, 0, 0⟩, 0, 32⟩
abbrev GLB_FW_VERSION : Field := ⟨⟨.GLB_FW_VERSION, 0, 0, 0⟩, 0, 32⟩
abbrev GLB_FW_VERSION_major : Field := ⟨⟨.GLB_FW_VERSION, 0, 0, 0⟩, 24, 8⟩
abbrev GLB_FW_VERSION_minor : Field := ⟨⟨.GLB_FW_VERSION, 0, 0, 0⟩, 16, 8⟩
abbrev GLB_FW_VERSION_build : Field := ⟨⟨.GLB_FW_VERSION, 0, 0, 0⟩, 0, 16⟩
abbrev GLB_STATUS : Field := ⟨⟨.GLB_STATUS, 0, 0, 0⟩, 0, 9⟩
abbrev GLB_STATUS_routing : Field := ⟨⟨.GLB_STATUS, 0, 0, 0⟩, 8, 1⟩
abbrev GLB_STATUS_config_defaulted : Field := ⟨⟨.GLB_STATUS, 0, 0, 0⟩, 4, 1⟩
abbrev GLB_STATUS_host_link_up : Field := ⟨⟨.GLB_STATUS, 0, 0, 0⟩, 1, 1⟩
abbrev GLB_STATUS_debug_unlocked : Field := ⟨⟨.GLB_STATUS, 0, 0, 0⟩, 0, 1⟩
abbrev GLB_HEARTBEAT : Field := ⟨⟨.GLB_HEARTBEAT, 0, 0, 0⟩, 0, 32⟩
abbrev GLB_SCRATCH : Field := ⟨⟨.GLB_SCRATCH, 0, 0, 0⟩, 0, 32⟩
abbrev GLB_IRQ_STATUS : Field := ⟨⟨.GLB_IRQ_STATUS, 0, 0, 0⟩, 0, 20⟩
abbrev GLB_IRQ_PIN_EN : Field := ⟨⟨.GLB_IRQ_PIN_EN, 0, 0, 0⟩, 0, 20⟩
abbrev GLB_IRQ_MSI_EN : Field := ⟨⟨.GLB_IRQ_MSI_EN, 0, 0, 0⟩, 0, 20⟩
abbrev GLB_IRQ_EOI_vector : Field := ⟨⟨.GLB_IRQ_EOI, 0, 0, 0⟩, 0, 6⟩
abbrev GLB_FAULT_STATUS : Field := ⟨⟨.GLB_FAULT_STATUS, 0, 0, 0⟩, 0, 19⟩
abbrev GLB_ALARM : Field := ⟨⟨.GLB_ALARM, 0, 0, 0⟩, 0, 2⟩
abbrev GLB_ALARM_afl_overflow : Field := ⟨⟨.GLB_ALARM, 0, 0, 0⟩, 1, 1⟩
abbrev GLB_ALARM_access_fault : Field := ⟨⟨.GLB_ALARM, 0, 0, 0⟩, 0, 1⟩
abbrev GLB_ALARM_EN : Field := ⟨⟨.GLB_ALARM_EN, 0, 0, 0⟩, 0, 2⟩
abbrev GLB_IRQ_MAP_vector (b : Nat) : Field := ⟨⟨.GLB_IRQ_MAP, b, 0, 0⟩, 0, 6⟩
abbrev GLB_AFL_STATUS_full : Field := ⟨⟨.GLB_AFL_STATUS, 0, 0, 0⟩, 31, 1⟩
abbrev GLB_AFL_STATUS_entries : Field := ⟨⟨.GLB_AFL_STATUS, 0, 0, 0⟩, 0, 6⟩
abbrev GLB_AFL_POP : Field := ⟨⟨.GLB_AFL_POP, 0, 0, 0⟩, 0, 1⟩
abbrev GLB_AFL_E (w : Nat) : Field := ⟨⟨.GLB_AFL_E, w, 0, 0⟩, 0, 32⟩
abbrev GLB_CNT_AFL : Field := ⟨⟨.GLB_CNT_AFL, 0, 0, 0⟩, 0, 32⟩
abbrev GLB_CNT_AFL_DROP : Field := ⟨⟨.GLB_CNT_AFL_DROP, 0, 0, 0⟩, 0, 32⟩
abbrev GLB_CNT_CLEAR : Field := ⟨⟨.GLB_CNT_CLEAR, 0, 0, 0⟩, 0, 1⟩
abbrev GLB_SUM (b i : Nat) : Field := ⟨⟨.GLB_SUM, b, i, 0⟩, 0, 32⟩
abbrev CMD_CTRL_udp_port : Field := ⟨⟨.CMD_CTRL, 0, 0, 0⟩, 16, 16⟩
abbrev CMD_CTRL_mgmt_en : Field := ⟨⟨.CMD_CTRL, 0, 0, 0⟩, 0, 1⟩
abbrev CMD_STATUS : Field := ⟨⟨.CMD_STATUS, 0, 0, 0⟩, 0, 24⟩
abbrev CMD_STATUS_sessions : Field := ⟨⟨.CMD_STATUS, 0, 0, 0⟩, 16, 8⟩
abbrev CMD_STATUS_commands : Field := ⟨⟨.CMD_STATUS, 0, 0, 0⟩, 0, 16⟩
abbrev CMD_ALARM : Field := ⟨⟨.CMD_ALARM, 0, 0, 0⟩, 0, 4⟩
abbrev CMD_ALARM_replay : Field := ⟨⟨.CMD_ALARM, 0, 0, 0⟩, 3, 1⟩
abbrev CMD_ALARM_auth_fail : Field := ⟨⟨.CMD_ALARM, 0, 0, 0⟩, 2, 1⟩
abbrev CMD_ALARM_session_timeout : Field := ⟨⟨.CMD_ALARM, 0, 0, 0⟩, 1, 1⟩
abbrev CMD_ALARM_ring_fault : Field := ⟨⟨.CMD_ALARM, 0, 0, 0⟩, 0, 1⟩
abbrev CMD_ALARM_EN : Field := ⟨⟨.CMD_ALARM_EN, 0, 0, 0⟩, 0, 4⟩
abbrev CMD_CNT_RX : Field := ⟨⟨.CMD_CNT_RX, 0, 0, 0⟩, 0, 32⟩
abbrev CMD_CNT_REJECTED : Field := ⟨⟨.CMD_CNT_REJECTED, 0, 0, 0⟩, 0, 32⟩
abbrev CMD_CNT_AUTH_FAIL : Field := ⟨⟨.CMD_CNT_AUTH_FAIL, 0, 0, 0⟩, 0, 32⟩
abbrev CMD_CNT_REPLAY : Field := ⟨⟨.CMD_CNT_REPLAY, 0, 0, 0⟩, 0, 32⟩
abbrev CMD_CNT_DUP : Field := ⟨⟨.CMD_CNT_DUP, 0, 0, 0⟩, 0, 32⟩
abbrev CMD_CNT_DROP_CPL : Field := ⟨⟨.CMD_CNT_DROP_CPL, 0, 0, 0⟩, 0, 32⟩
abbrev CMD_COMMIT_LAT_MAX : Field := ⟨⟨.CMD_COMMIT_LAT_MAX, 0, 0, 0⟩, 0, 16⟩
abbrev CMD_CNT_CLEAR : Field := ⟨⟨.CMD_CNT_CLEAR, 0, 0, 0⟩, 0, 1⟩
abbrev CMD_RING_CTRL_controller (r : Nat) : Field := ⟨⟨.CMD_RING_CTRL, r, 0, 0⟩, 16, 16⟩
abbrev CMD_RING_CTRL_vector (r : Nat) : Field := ⟨⟨.CMD_RING_CTRL, r, 0, 0⟩, 8, 6⟩
abbrev CMD_RING_CTRL_size_log2 (r : Nat) : Field := ⟨⟨.CMD_RING_CTRL, r, 0, 0⟩, 4, 4⟩
abbrev CMD_RING_CTRL_enable (r : Nat) : Field := ⟨⟨.CMD_RING_CTRL, r, 0, 0⟩, 0, 1⟩
abbrev CMD_RING_SQ_BASE_LO (r : Nat) : Field := ⟨⟨.CMD_RING_SQ_BASE_LO, r, 0, 0⟩, 0, 32⟩
abbrev CMD_RING_SQ_BASE_HI (r : Nat) : Field := ⟨⟨.CMD_RING_SQ_BASE_HI, r, 0, 0⟩, 0, 32⟩
abbrev CMD_RING_CQ_BASE_LO (r : Nat) : Field := ⟨⟨.CMD_RING_CQ_BASE_LO, r, 0, 0⟩, 0, 32⟩
abbrev CMD_RING_CQ_BASE_HI (r : Nat) : Field := ⟨⟨.CMD_RING_CQ_BASE_HI, r, 0, 0⟩, 0, 32⟩
abbrev CMD_RING_SQ_HEAD (r : Nat) : Field := ⟨⟨.CMD_RING_SQ_HEAD, r, 0, 0⟩, 0, 12⟩
abbrev CMD_RING_CQ_TAIL_phase (r : Nat) : Field := ⟨⟨.CMD_RING_CQ_TAIL, r, 0, 0⟩, 31, 1⟩
abbrev CMD_RING_CQ_TAIL_next (r : Nat) : Field := ⟨⟨.CMD_RING_CQ_TAIL, r, 0, 0⟩, 0, 12⟩
abbrev CMD_RING_COAL_time_us (r : Nat) : Field := ⟨⟨.CMD_RING_COAL, r, 0, 0⟩, 16, 16⟩
abbrev CMD_RING_COAL_count (r : Nat) : Field := ⟨⟨.CMD_RING_COAL, r, 0, 0⟩, 0, 8⟩
abbrev CMD_RING_CNT_CMD (r : Nat) : Field := ⟨⟨.CMD_RING_CNT_CMD, r, 0, 0⟩, 0, 32⟩
abbrev CMD_RING_CNT_CPL (r : Nat) : Field := ⟨⟨.CMD_RING_CNT_CPL, r, 0, 0⟩, 0, 32⟩
abbrev CMD_SESS_STATE_controller (s : Nat) : Field := ⟨⟨.CMD_SESS_STATE, s, 0, 0⟩, 16, 16⟩
abbrev CMD_SESS_STATE_open (s : Nat) : Field := ⟨⟨.CMD_SESS_STATE, s, 0, 0⟩, 0, 1⟩
abbrev CMD_SESS_ID (s : Nat) : Field := ⟨⟨.CMD_SESS_ID, s, 0, 0⟩, 0, 32⟩
abbrev CMD_SESS_PEER_PORT (s : Nat) : Field := ⟨⟨.CMD_SESS_PEER_PORT, s, 0, 0⟩, 0, 16⟩
abbrev CMD_SESS_PEER_ADDR (s i : Nat) : Field := ⟨⟨.CMD_SESS_PEER_ADDR, s, i, 0⟩, 0, 32⟩
abbrev CMD_SESS_IDLE_MS (s : Nat) : Field := ⟨⟨.CMD_SESS_IDLE_MS, s, 0, 0⟩, 0, 32⟩
abbrev CMD_SESS_CNT_CMD (s : Nat) : Field := ⟨⟨.CMD_SESS_CNT_CMD, s, 0, 0⟩, 0, 32⟩
abbrev BOOT_STATUS : Field := ⟨⟨.BOOT_STATUS, 0, 0, 0⟩, 0, 32⟩
abbrev BOOT_STATUS_default_reason : Field := ⟨⟨.BOOT_STATUS, 0, 0, 0⟩, 28, 4⟩
abbrev BOOT_STATUS_recovery_cause : Field := ⟨⟨.BOOT_STATUS, 0, 0, 0⟩, 24, 4⟩
abbrev BOOT_STATUS_phase : Field := ⟨⟨.BOOT_STATUS, 0, 0, 0⟩, 16, 4⟩
abbrev BOOT_STATUS_cfg_signed : Field := ⟨⟨.BOOT_STATUS, 0, 0, 0⟩, 13, 1⟩
abbrev BOOT_STATUS_cfg_slot : Field := ⟨⟨.BOOT_STATUS, 0, 0, 0⟩, 12, 1⟩
abbrev BOOT_STATUS_reverted : Field := ⟨⟨.BOOT_STATUS, 0, 0, 0⟩, 9, 1⟩
abbrev BOOT_STATUS_trial : Field := ⟨⟨.BOOT_STATUS, 0, 0, 0⟩, 8, 1⟩
abbrev BOOT_STATUS_fw_slot : Field := ⟨⟨.BOOT_STATUS, 0, 0, 0⟩, 4, 2⟩
abbrev BOOT_START_MS : Field := ⟨⟨.BOOT_START_MS, 0, 0, 0⟩, 0, 32⟩
abbrev BOOT_RESET_CAUSE : Field := ⟨⟨.BOOT_RESET_CAUSE, 0, 0, 0⟩, 0, 3⟩
abbrev BOOT_SLOT_A_VER : Field := ⟨⟨.BOOT_SLOT_A_VER, 0, 0, 0⟩, 0, 32⟩
abbrev BOOT_SLOT_B_VER : Field := ⟨⟨.BOOT_SLOT_B_VER, 0, 0, 0⟩, 0, 32⟩
abbrev BOOT_RECOVERY_VER : Field := ⟨⟨.BOOT_RECOVERY_VER, 0, 0, 0⟩, 0, 32⟩
abbrev BOOT_SECVER_secver : Field := ⟨⟨.BOOT_SECVER, 0, 0, 0⟩, 8, 8⟩
abbrev BOOT_SECVER_v_f : Field := ⟨⟨.BOOT_SECVER, 0, 0, 0⟩, 0, 7⟩
abbrev BOOT_KEYS : Field := ⟨⟨.BOOT_KEYS, 0, 0, 0⟩, 0, 9⟩
abbrev BOOT_KEYS_cfg_sig_required : Field := ⟨⟨.BOOT_KEYS, 0, 0, 0⟩, 8, 1⟩
abbrev BOOT_KEYS_revoked : Field := ⟨⟨.BOOT_KEYS, 0, 0, 0⟩, 4, 4⟩
abbrev BOOT_KEYS_programmed : Field := ⟨⟨.BOOT_KEYS, 0, 0, 0⟩, 0, 4⟩
abbrev BOOT_FORMATS : Field := ⟨⟨.BOOT_FORMATS, 0, 0, 0⟩, 0, 32⟩
abbrev BOOT_CFG_INFO_generation : Field := ⟨⟨.BOOT_CFG_INFO, 0, 0, 0⟩, 16, 16⟩
abbrev BOOT_CFG_INFO_format : Field := ⟨⟨.BOOT_CFG_INFO, 0, 0, 0⟩, 0, 8⟩
abbrev BOOT_UPD_STATE : Field := ⟨⟨.BOOT_UPD_STATE, 0, 0, 0⟩, 0, 32⟩
abbrev BOOT_UPD_STATE_kind : Field := ⟨⟨.BOOT_UPD_STATE, 0, 0, 0⟩, 28, 4⟩
abbrev BOOT_UPD_STATE_method : Field := ⟨⟨.BOOT_UPD_STATE, 0, 0, 0⟩, 24, 3⟩
abbrev BOOT_UPD_STATE_source : Field := ⟨⟨.BOOT_UPD_STATE, 0, 0, 0⟩, 4, 4⟩
abbrev BOOT_UPD_STATE_state : Field := ⟨⟨.BOOT_UPD_STATE, 0, 0, 0⟩, 0, 4⟩
abbrev BOOT_UPD_LEN : Field := ⟨⟨.BOOT_UPD_LEN, 0, 0, 0⟩, 0, 32⟩
abbrev BOOT_UPD_RECEIVED : Field := ⟨⟨.BOOT_UPD_RECEIVED, 0, 0, 0⟩, 0, 32⟩
abbrev BOOT_UPD_IMAGE_ID : Field := ⟨⟨.BOOT_UPD_IMAGE_ID, 0, 0, 0⟩, 0, 32⟩
abbrev BOOT_UPD_FAIL : Field := ⟨⟨.BOOT_UPD_FAIL, 0, 0, 0⟩, 0, 16⟩
abbrev BOOT_UPD_TIME_LO : Field := ⟨⟨.BOOT_UPD_TIME_LO, 0, 0, 0⟩, 0, 32⟩
abbrev BOOT_UPD_TIME_HI : Field := ⟨⟨.BOOT_UPD_TIME_HI, 0, 0, 0⟩, 0, 16⟩
abbrev BOOT_TRICKLE_CTRL : Field := ⟨⟨.BOOT_TRICKLE_CTRL, 0, 0, 0⟩, 0, 32⟩
abbrev BOOT_TRICKLE_CTRL_enable : Field := ⟨⟨.BOOT_TRICKLE_CTRL, 0, 0, 0⟩, 31, 1⟩
abbrev BOOT_TRICKLE_CTRL_auto_activate : Field := ⟨⟨.BOOT_TRICKLE_CTRL, 0, 0, 0⟩, 30, 1⟩
abbrev BOOT_TRICKLE_CTRL_follow_new : Field := ⟨⟨.BOOT_TRICKLE_CTRL, 0, 0, 0⟩, 29, 1⟩
abbrev BOOT_TRICKLE_CTRL_source : Field := ⟨⟨.BOOT_TRICKLE_CTRL, 0, 0, 0⟩, 16, 10⟩
abbrev BOOT_TRICKLE_CTRL_did : Field := ⟨⟨.BOOT_TRICKLE_CTRL, 0, 0, 0⟩, 8, 8⟩
abbrev BOOT_TRICKLE_CTRL_sdid : Field := ⟨⟨.BOOT_TRICKLE_CTRL, 0, 0, 0⟩, 0, 8⟩
abbrev BOOT_TRICKLE_COUNT : Field := ⟨⟨.BOOT_TRICKLE_COUNT, 0, 0, 0⟩, 0, 32⟩
abbrev BOOT_TRICKLE_TOTAL : Field := ⟨⟨.BOOT_TRICKLE_TOTAL, 0, 0, 0⟩, 0, 32⟩
abbrev BOOT_MRAM_STATUS : Field := ⟨⟨.BOOT_MRAM_STATUS, 0, 0, 0⟩, 0, 32⟩
abbrev BOOT_MRAM_STATUS_store_format : Field := ⟨⟨.BOOT_MRAM_STATUS, 0, 0, 0⟩, 24, 8⟩
abbrev BOOT_MRAM_STATUS_w_ms : Field := ⟨⟨.BOOT_MRAM_STATUS, 0, 0, 0⟩, 16, 8⟩
abbrev BOOT_MRAM_STATUS_free_pages : Field := ⟨⟨.BOOT_MRAM_STATUS, 0, 0, 0⟩, 0, 15⟩
abbrev BOOT_MRAM_RATE : Field := ⟨⟨.BOOT_MRAM_RATE, 0, 0, 0⟩, 0, 16⟩
abbrev BOOT_MRAM_WEAR : Field := ⟨⟨.BOOT_MRAM_WEAR, 0, 0, 0⟩, 0, 32⟩
abbrev BOOT_ALARM : Field := ⟨⟨.BOOT_ALARM, 0, 0, 0⟩, 0, 8⟩
abbrev BOOT_ALARM_restore_drop : Field := ⟨⟨.BOOT_ALARM, 0, 0, 0⟩, 7, 1⟩
abbrev BOOT_ALARM_update_diverged : Field := ⟨⟨.BOOT_ALARM, 0, 0, 0⟩, 6, 1⟩
abbrev BOOT_ALARM_trickle_done : Field := ⟨⟨.BOOT_ALARM, 0, 0, 0⟩, 5, 1⟩
abbrev BOOT_ALARM_update_failed : Field := ⟨⟨.BOOT_ALARM, 0, 0, 0⟩, 4, 1⟩
abbrev BOOT_ALARM_reverted : Field := ⟨⟨.BOOT_ALARM, 0, 0, 0⟩, 3, 1⟩
abbrev BOOT_ALARM_config_defaulted : Field := ⟨⟨.BOOT_ALARM, 0, 0, 0⟩, 2, 1⟩
abbrev BOOT_ALARM_mram_window : Field := ⟨⟨.BOOT_ALARM, 0, 0, 0⟩, 1, 1⟩
abbrev BOOT_ALARM_flash_error : Field := ⟨⟨.BOOT_ALARM, 0, 0, 0⟩, 0, 1⟩
abbrev BOOT_ALARM_EN : Field := ⟨⟨.BOOT_ALARM_EN, 0, 0, 0⟩, 0, 8⟩
abbrev BOOT_CNT_PIECE_OK : Field := ⟨⟨.BOOT_CNT_PIECE_OK, 0, 0, 0⟩, 0, 32⟩
abbrev BOOT_CNT_PIECE_BAD : Field := ⟨⟨.BOOT_CNT_PIECE_BAD, 0, 0, 0⟩, 0, 32⟩
abbrev BOOT_CNT_PIECE_DUP : Field := ⟨⟨.BOOT_CNT_PIECE_DUP, 0, 0, 0⟩, 0, 32⟩
abbrev BOOT_CNT_PIECE_OTHER : Field := ⟨⟨.BOOT_CNT_PIECE_OTHER, 0, 0, 0⟩, 0, 32⟩
abbrev BOOT_CNT_FLASH_ERR : Field := ⟨⟨.BOOT_CNT_FLASH_ERR, 0, 0, 0⟩, 0, 32⟩
abbrev BOOT_CNT_RESTORE_DROP : Field := ⟨⟨.BOOT_CNT_RESTORE_DROP, 0, 0, 0⟩, 0, 32⟩
abbrev BOOT_CNT_MRAM_CRC : Field := ⟨⟨.BOOT_CNT_MRAM_CRC, 0, 0, 0⟩, 0, 32⟩
abbrev BOOT_CNT_CLEAR : Field := ⟨⟨.BOOT_CNT_CLEAR, 0, 0, 0⟩, 0, 1⟩
abbrev PWR_CTRL_warn_stage : Field := ⟨⟨.PWR_CTRL, 0, 0, 0⟩, 16, 3⟩
abbrev PWR_STATUS : Field := ⟨⟨.PWR_STATUS, 0, 0, 0⟩, 0, 32⟩
abbrev PWR_STATUS_stage : Field := ⟨⟨.PWR_STATUS, 0, 0, 0⟩, 24, 3⟩
abbrev PWR_STATUS_supply_warn : Field := ⟨⟨.PWR_STATUS, 0, 0, 0⟩, 20, 1⟩
abbrev PWR_STATUS_policy_overridden : Field := ⟨⟨.PWR_STATUS, 0, 0, 0⟩, 19, 1⟩
abbrev PWR_STATUS_avs_at_ceiling : Field := ⟨⟨.PWR_STATUS, 0, 0, 0⟩, 18, 1⟩
abbrev PWR_STATUS_therm_warn : Field := ⟨⟨.PWR_STATUS, 0, 0, 0⟩, 17, 1⟩
abbrev PWR_STATUS_replace_req : Field := ⟨⟨.PWR_STATUS, 0, 0, 0⟩, 16, 1⟩
abbrev PWR_STATUS_stage_by_warn : Field := ⟨⟨.PWR_STATUS, 0, 0, 0⟩, 9, 1⟩
abbrev PWR_STATUS_stage_by_droop : Field := ⟨⟨.PWR_STATUS, 0, 0, 0⟩, 8, 1⟩
abbrev PWR_STATUS_trip_seen : Field := ⟨⟨.PWR_STATUS, 0, 0, 0⟩, 4, 1⟩
abbrev PWR_ALARM : Field := ⟨⟨.PWR_ALARM, 0, 0, 0⟩, 0, 11⟩
abbrev PWR_ALARM_freeze_ignored : Field := ⟨⟨.PWR_ALARM, 0, 0, 0⟩, 10, 1⟩
abbrev PWR_ALARM_power_high : Field := ⟨⟨.PWR_ALARM, 0, 0, 0⟩, 9, 1⟩
abbrev PWR_ALARM_wdog : Field := ⟨⟨.PWR_ALARM, 0, 0, 0⟩, 8, 1⟩
abbrev PWR_ALARM_replace_req : Field := ⟨⟨.PWR_ALARM, 0, 0, 0⟩, 7, 1⟩
abbrev PWR_ALARM_pmbus_alert : Field := ⟨⟨.PWR_ALARM, 0, 0, 0⟩, 6, 1⟩
abbrev PWR_ALARM_pmbus_err : Field := ⟨⟨.PWR_ALARM, 0, 0, 0⟩, 5, 1⟩
abbrev PWR_ALARM_supply_warn : Field := ⟨⟨.PWR_ALARM, 0, 0, 0⟩, 4, 1⟩
abbrev PWR_ALARM_therm_warn : Field := ⟨⟨.PWR_ALARM, 0, 0, 0⟩, 3, 1⟩
abbrev PWR_ALARM_avs_ceiling : Field := ⟨⟨.PWR_ALARM, 0, 0, 0⟩, 2, 1⟩
abbrev PWR_ALARM_policy_overridden : Field := ⟨⟨.PWR_ALARM, 0, 0, 0⟩, 1, 1⟩
abbrev PWR_ALARM_shed_change : Field := ⟨⟨.PWR_ALARM, 0, 0, 0⟩, 0, 1⟩
abbrev PWR_ALARM_EN : Field := ⟨⟨.PWR_ALARM_EN, 0, 0, 0⟩, 0, 11⟩
abbrev PWR_AVS_WINDOW_max : Field := ⟨⟨.PWR_AVS_WINDOW, 0, 0, 0⟩, 16, 10⟩
abbrev PWR_AVS_WINDOW_min : Field := ⟨⟨.PWR_AVS_WINDOW, 0, 0, 0⟩, 0, 10⟩
abbrev PWR_AVS_STATUS_v_req : Field := ⟨⟨.PWR_AVS_STATUS, 0, 0, 0⟩, 16, 10⟩
abbrev PWR_AVS_STATUS_v_t : Field := ⟨⟨.PWR_AVS_STATUS, 0, 0, 0⟩, 0, 10⟩
abbrev PWR_VCORE_deficit : Field := ⟨⟨.PWR_VCORE, 0, 0, 0⟩, 16, 16⟩
abbrev PWR_VCORE_v_meas : Field := ⟨⟨.PWR_VCORE, 0, 0, 0⟩, 0, 10⟩
abbrev PWR_WDOG_alone_reset : Field := ⟨⟨.PWR_WDOG, 0, 0, 0⟩, 16, 1⟩
abbrev PWR_WDOG_timeout_ms : Field := ⟨⟨.PWR_WDOG, 0, 0, 0⟩, 0, 16⟩
abbrev PWR_REPLACE : Field := ⟨⟨.PWR_REPLACE, 0, 0, 0⟩, 0, 14⟩
abbrev PWR_REPLACE_FIRST : Field := ⟨⟨.PWR_REPLACE_FIRST, 0, 0, 0⟩, 0, 8⟩
abbrev PWR_THERM_CTRL_warn_c : Field := ⟨⟨.PWR_THERM_CTRL, 0, 0, 0⟩, 0, 8⟩
abbrev PWR_TEMP_MAX_die : Field := ⟨⟨.PWR_TEMP_MAX, 0, 0, 0⟩, 16, 16⟩
abbrev PWR_TEMP_MAX_stack : Field := ⟨⟨.PWR_TEMP_MAX, 0, 0, 0⟩, 0, 8⟩
abbrev PWR_TOTAL : Field := ⟨⟨.PWR_TOTAL, 0, 0, 0⟩, 0, 16⟩
abbrev PWR_LIMIT_power_w : Field := ⟨⟨.PWR_LIMIT, 0, 0, 0⟩, 0, 9⟩
abbrev PWR_EN_STATUS_failed : Field := ⟨⟨.PWR_EN_STATUS, 0, 0, 0⟩, 8, 8⟩
abbrev PWR_EN_STATUS_asserted : Field := ⟨⟨.PWR_EN_STATUS, 0, 0, 0⟩, 0, 8⟩
abbrev PWR_DEBUG_freeze_en : Field := ⟨⟨.PWR_DEBUG, 0, 0, 0⟩, 8, 1⟩
abbrev PWR_DEBUG_level : Field := ⟨⟨.PWR_DEBUG, 0, 0, 0⟩, 0, 2⟩
abbrev PWR_TELEM_CTRL_period_ms : Field := ⟨⟨.PWR_TELEM_CTRL, 0, 0, 0⟩, 0, 16⟩
abbrev PWR_TELEM_SEQ : Field := ⟨⟨.PWR_TELEM_SEQ, 0, 0, 0⟩, 0, 32⟩
abbrev PWR_CNT_SHED : Field := ⟨⟨.PWR_CNT_SHED, 0, 0, 0⟩, 0, 32⟩
abbrev PWR_CNT_OVERRIDE : Field := ⟨⟨.PWR_CNT_OVERRIDE, 0, 0, 0⟩, 0, 32⟩
abbrev PWR_CNT_PMBUS_ERR : Field := ⟨⟨.PWR_CNT_PMBUS_ERR, 0, 0, 0⟩, 0, 32⟩
abbrev PWR_CNT_WDOG : Field := ⟨⟨.PWR_CNT_WDOG, 0, 0, 0⟩, 0, 32⟩
abbrev PWR_CNT_UV_RESET : Field := ⟨⟨.PWR_CNT_UV_RESET, 0, 0, 0⟩, 0, 32⟩
abbrev PWR_CNT_CLEAR : Field := ⟨⟨.PWR_CNT_CLEAR, 0, 0, 0⟩, 0, 1⟩
abbrev PWR_PMBUS_DEV_page (d : Nat) : Field := ⟨⟨.PWR_PMBUS_DEV, d, 0, 0⟩, 16, 8⟩
abbrev PWR_PMBUS_DEV_avs (d : Nat) : Field := ⟨⟨.PWR_PMBUS_DEV, d, 0, 0⟩, 12, 1⟩
abbrev PWR_PMBUS_DEV_pec (d : Nat) : Field := ⟨⟨.PWR_PMBUS_DEV, d, 0, 0⟩, 8, 1⟩
abbrev PWR_PMBUS_DEV_address (d : Nat) : Field := ⟨⟨.PWR_PMBUS_DEV, d, 0, 0⟩, 0, 7⟩
abbrev PWR_RAIL_V (d : Nat) : Field := ⟨⟨.PWR_RAIL_V, d, 0, 0⟩, 0, 16⟩
abbrev PWR_RAIL_P (d : Nat) : Field := ⟨⟨.PWR_RAIL_P, d, 0, 0⟩, 0, 16⟩
abbrev PWR_RAIL_STATUS (d : Nat) : Field := ⟨⟨.PWR_RAIL_STATUS, d, 0, 0⟩, 0, 16⟩
abbrev PWR_TELEM_W (w : Nat) : Field := ⟨⟨.PWR_TELEM_W, w, 0, 0⟩, 0, 32⟩
abbrev XPT_VIDEO_line_mode (n : Nat) : Field := ⟨⟨.XPT_VIDEO, n, 0, 0⟩, 16, 1⟩
abbrev XPT_VIDEO_video (n : Nat) : Field := ⟨⟨.XPT_VIDEO, n, 0, 0⟩, 0, 12⟩
abbrev XPT_ROUTES_audio_follow (n : Nat) : Field := ⟨⟨.XPT_ROUTES, n, 0, 0⟩, 29, 1⟩
abbrev XPT_ROUTES_anc_follow (n : Nat) : Field := ⟨⟨.XPT_ROUTES, n, 0, 0⟩, 28, 1⟩
abbrev XPT_ROUTES_audio (n : Nat) : Field := ⟨⟨.XPT_ROUTES, n, 0, 0⟩, 16, 12⟩
abbrev XPT_ROUTES_anc (n : Nat) : Field := ⟨⟨.XPT_ROUTES, n, 0, 0⟩, 0, 12⟩
abbrev XPT_HOLD_hold (n : Nat) : Field := ⟨⟨.XPT_HOLD, n, 0, 0⟩, 16, 2⟩
abbrev XPT_HOLD_owner (n : Nat) : Field := ⟨⟨.XPT_HOLD, n, 0, 0⟩, 0, 16⟩
abbrev XPT_LANDED (n : Nat) : Field := ⟨⟨.XPT_LANDED, n, 0, 0⟩, 0, 32⟩
abbrev SURF_STATE_double (s : Nat) : Field := ⟨⟨.SURF_STATE, s, 0, 0⟩, 16, 1⟩
abbrev SURF_STATE_format (s : Nat) : Field := ⟨⟨.SURF_STATE, s, 0, 0⟩, 8, 8⟩
abbrev SURF_STATE_sampling (s : Nat) : Field := ⟨⟨.SURF_STATE, s, 0, 0⟩, 4, 4⟩
abbrev SURF_STATE_state (s : Nat) : Field := ⟨⟨.SURF_STATE, s, 0, 0⟩, 0, 3⟩
abbrev SURF_REFS (s : Nat) : Field := ⟨⟨.SURF_REFS, s, 0, 0⟩, 0, 16⟩
abbrev SURF_SIZE (s : Nat) : Field := ⟨⟨.SURF_SIZE, s, 0, 0⟩, 0, 32⟩
abbrev PAT_KIND_kind (p : Nat) : Field := ⟨⟨.PAT_KIND, p, 0, 0⟩, 0, 4⟩
abbrev PAT_Y_y (p : Nat) : Field := ⟨⟨.PAT_Y, p, 0, 0⟩, 0, 12⟩
abbrev PAT_C_cb (p : Nat) : Field := ⟨⟨.PAT_C, p, 0, 0⟩, 12, 12⟩
abbrev PAT_C_cr (p : Nat) : Field := ⟨⟨.PAT_C, p, 0, 0⟩, 0, 12⟩
abbrev LUT3D_STATE_state (s : Nat) : Field := ⟨⟨.LUT3D_STATE, s, 0, 0⟩, 0, 2⟩
abbrev LUT3D_REFS (s : Nat) : Field := ⟨⟨.LUT3D_REFS, s, 0, 0⟩, 0, 10⟩
abbrev LUT3D_LOADED (s : Nat) : Field := ⟨⟨.LUT3D_LOADED, s, 0, 0⟩, 0, 16⟩
abbrev PRC_VIEW_proc : Field := ⟨⟨.PRC_VIEW, 0, 0, 0⟩, 16, 9⟩
abbrev PRC_VIEW_slot : Field := ⟨⟨.PRC_VIEW, 0, 0, 0⟩, 0, 6⟩
abbrev GLYPH_ID_valid (g : Nat) : Field := ⟨⟨.GLYPH_ID, g, 0, 0⟩, 31, 1⟩
abbrev GLYPH_ID_font (g : Nat) : Field := ⟨⟨.GLYPH_ID, g, 0, 0⟩, 21, 2⟩
abbrev GLYPH_ID_code_point (g : Nat) : Field := ⟨⟨.GLYPH_ID, g, 0, 0⟩, 0, 21⟩
abbrev GLYPH_WIDTH (g : Nat) : Field := ⟨⟨.GLYPH_WIDTH, g, 0, 0⟩, 0, 7⟩
abbrev FONT_HDR_baseline (f : Nat) : Field := ⟨⟨.FONT_HDR, f, 0, 0⟩, 16, 7⟩
abbrev FONT_HDR_height (f : Nat) : Field := ⟨⟨.FONT_HDR, f, 0, 0⟩, 0, 7⟩
abbrev FONT_DEFAULT_CP (f : Nat) : Field := ⟨⟨.FONT_DEFAULT_CP, f, 0, 0⟩, 0, 21⟩
abbrev FONT_GLYPHS (f : Nat) : Field := ⟨⟨.FONT_GLYPHS, f, 0, 0⟩, 0, 14⟩
abbrev FADDR_IP (a i : Nat) : Field := ⟨⟨.FADDR_IP, a, i, 0⟩, 0, 32⟩
abbrev FADDR_UDP_src_udp (a : Nat) : Field := ⟨⟨.FADDR_UDP, a, 0, 0⟩, 16, 16⟩
abbrev FADDR_UDP_dst_udp (a : Nat) : Field := ⟨⟨.FADDR_UDP, a, 0, 0⟩, 0, 16⟩
abbrev FADDR_MAC_LO (a : Nat) : Field := ⟨⟨.FADDR_MAC_LO, a, 0, 0⟩, 0, 32⟩
abbrev FADDR_MAC_HI_valid (a : Nat) : Field := ⟨⟨.FADDR_MAC_HI, a, 0, 0⟩, 31, 1⟩
abbrev FADDR_MAC_HI_ipv4 (a : Nat) : Field := ⟨⟨.FADDR_MAC_HI, a, 0, 0⟩, 16, 1⟩
abbrev FADDR_MAC_HI_mac_hi (a : Nat) : Field := ⟨⟨.FADDR_MAC_HI, a, 0, 0⟩, 0, 16⟩
abbrev AOUT_ROUTE_mode (o : Nat) : Field := ⟨⟨.AOUT_ROUTE, o, 0, 0⟩, 30, 2⟩
abbrev AOUT_ROUTE_invert (o : Nat) : Field := ⟨⟨.AOUT_ROUTE, o, 0, 0⟩, 29, 1⟩
abbrev AOUT_ROUTE_mute (o : Nat) : Field := ⟨⟨.AOUT_ROUTE, o, 0, 0⟩, 28, 1⟩
abbrev AOUT_ROUTE_input (o : Nat) : Field := ⟨⟨.AOUT_ROUTE, o, 0, 0⟩, 0, 15⟩
abbrev AOUT_GAIN_meter (o : Nat) : Field := ⟨⟨.AOUT_GAIN, o, 0, 0⟩, 24, 3⟩
abbrev AOUT_GAIN_ramp_ms (o : Nat) : Field := ⟨⟨.AOUT_GAIN, o, 0, 0⟩, 16, 7⟩
abbrev AOUT_GAIN_gain (o : Nat) : Field := ⟨⟨.AOUT_GAIN, o, 0, 0⟩, 0, 16⟩
abbrev AIN_BIND_kind (i : Nat) : Field := ⟨⟨.AIN_BIND, i, 0, 0⟩, 28, 4⟩
abbrev AIN_BIND_asrc (i : Nat) : Field := ⟨⟨.AIN_BIND, i, 0, 0⟩, 26, 2⟩
abbrev AIN_BIND_id (i : Nat) : Field := ⟨⟨.AIN_BIND, i, 0, 0⟩, 12, 13⟩
abbrev AIN_BIND_chan (i : Nat) : Field := ⟨⟨.AIN_BIND, i, 0, 0⟩, 0, 6⟩
abbrev AIN_STATE_non_pcm (i : Nat) : Field := ⟨⟨.AIN_STATE, i, 0, 0⟩, 31, 1⟩
abbrev AIN_STATE_asrc_chan (i : Nat) : Field := ⟨⟨.AIN_STATE, i, 0, 0⟩, 16, 11⟩
abbrev AIN_STATE_state (i : Nat) : Field := ⟨⟨.AIN_STATE, i, 0, 0⟩, 0, 3⟩
abbrev AOUT_METER_clipped (o : Nat) : Field := ⟨⟨.AOUT_METER, o, 0, 0⟩, 16, 1⟩
abbrev AOUT_METER_reading (o : Nat) : Field := ⟨⟨.AOUT_METER, o, 0, 0⟩, 0, 11⟩
abbrev ATX_DESC_enable (q : Nat) : Field := ⟨⟨.ATX_DESC, q, 0, 0⟩, 31, 1⟩
abbrev ATX_DESC_encoding (q : Nat) : Field := ⟨⟨.ATX_DESC, q, 0, 0⟩, 24, 2⟩
abbrev ATX_DESC_ptime (q : Nat) : Field := ⟨⟨.ATX_DESC, q, 0, 0⟩, 20, 1⟩
abbrev ATX_DESC_count (q : Nat) : Field := ⟨⟨.ATX_DESC, q, 0, 0⟩, 8, 7⟩
abbrev ATX_FIRST_first (q : Nat) : Field := ⟨⟨.ATX_FIRST, q, 0, 0⟩, 0, 15⟩
abbrev ARX_DESC_enable (q : Nat) : Field := ⟨⟨.ARX_DESC, q, 0, 0⟩, 31, 1⟩
abbrev ARX_DESC_encoding (q : Nat) : Field := ⟨⟨.ARX_DESC, q, 0, 0⟩, 24, 2⟩
abbrev ARX_DESC_ptime (q : Nat) : Field := ⟨⟨.ARX_DESC, q, 0, 0⟩, 20, 1⟩
abbrev ARX_DESC_count (q : Nat) : Field := ⟨⟨.ARX_DESC, q, 0, 0⟩, 8, 7⟩

end Sys2Proof.Machine.F
end

