-- ==== Sys2Proof/Machine/State.lean ====
section
/-!
DEFINITION. The machine's state as plain data: every register word of the register map (sparse, each at its reset
value until written), the bytes of the 48-bit matrix address space (HBM and SRAM), and the typed state that the
chapters of spec/ give the block beside its registers; the queue of waiting commands; and the reset state.
-/

namespace Sys2Proof.Machine

/-- The written register words: keys strictly rising, no entry equal to its reset value. -/
abbrev RegFile := List (Reg × Word)

/-- The bytes of the matrix address space that are not 0: addresses strictly rising (R371: initialisation writes
zeros; assumption 6). -/
abbrev Memory := List Host.Cell


/-! ### Functions and recovery (01_routing_model.md) -/

/-- What a function holds beside its common state word: a recorded sleep request (R32), whether a recovery is under
way (R540), whether it has reached ON since the last reset (R540), whether its WAKING initialisation is done and it waits for
another function (R136), the instants (house clock) of its failed
retries and of the faults its re-initialisations answered (R34, R508), and that of its last entry to FAULT. -/
structure FnMem where
  sleepReq : Bool := false
  recovering : Bool := false
  seenOn : Bool := false
  waits : Bool := false
  retries : List Nat := []
  reinits : List Nat := []
  faultAt : Nat := 0
  deriving DecidableEq, Repr

/-- An escalation firmware has decided on and not yet carried out (R34, R35). -/
inductive Escalation where
  | rung3 (block inst : Nat)
  | rung4
  deriving DecidableEq, Repr

/-! ### Control complex and host interfaces (16_control_host.md) -/

/-- One access-fault log entry, its five words (R450). -/
abbrev LogWords := List Nat

/-- A completion as it is sent: the completion's header fields and body words (R438 to R440). -/
structure Completion where
  opcode : Nat
  flags : Nat
  seq : Nat
  status : Nat
  body : List Nat := []
  deriving DecidableEq, Repr

/-- The state of an accepted command (R440, R441 QUERY_COMMAND). -/
inductive CmdState where
  | accepted | armed | committed | done | rejected | deferred
  deriving DecidableEq, Repr

/-- An accepted command that has not yet sent its final completion: its number, its intake and sequence (none for a
command mirrored from the twin, R405), the controller it acts for, its state, when it was received, and the CQ entries
still reserved for it (R430), and whether its ring or session has ended since (R451). -/
structure CmdRec where
  id : Nat
  hdr : Option Hdr
  controller : Nat
  seq : Nat
  opcode : Nat
  state : CmdState
  received : Nat
  reserved : Nat
  lost : Bool := false
  deriving DecidableEq, Repr

/-- What a command ring holds beside its registers: the host's doorbells, the CQ entries written and not yet passed by
the host's head, the CQ entries reserved (R430), the unsignalled entries and whether the coalescing time has passed
(R445), and the descriptor whose message is being read, with the sequence of its header. -/
structure RingMem where
  sqTail : Nat := 0
  cqHead : Nat := 0
  cqUsed : Nat := 0
  reserved : Nat := 0
  unsignalled : Nat := 0
  coalDue : Bool := false
  fetching : Option RingSlot := none
  deriving DecidableEq, Repr

/-- What a session holds beside its registers (R434 to R436): its key, the counters of both directions, the counters
seen, the final completions remembered by sequence, newest first, and when the last datagram was accepted. -/
structure SessMem where
  key : List Byte := []
  txCounter : Nat := 1
  rxHigh : Nat := 0
  rxSeen : List Nat := []
  remembered : List (Nat × Completion) := []
  lastAt : Nat := 0
  deriving DecidableEq, Repr

/-- The control complex: commands in progress (oldest first), the last states of finished commands by intake and
sequence, the logs, rings, sessions, subscriptions, and the MSI-X state (R445): the vectors whose condition was true,
masks and pending bits; whether the endpoint is enabled (R454); and the registers CONFIG_SET has written since start-up (R412). -/
structure CtlState where
  nextId : Nat := 1
  cmds : List CmdRec := []
  finished : List (Intake × Nat × CmdState) := []
  afl : List LogWords := []
  latch : List (Reg × Word) := []
  rings : KV RingMem := []
  sess : KV SessMem := []
  opens : List Nat := []
  subs : List Hdr := []
  vecCond : Nat := 0
  vecMask : Nat := 0xFFFFFFFFFFFFFFFF
  vecPend : Nat := 0
  endpoint : Bool := false
  cfgWritten : List Reg := []
  deriving DecidableEq, Repr

/-! ### Start-up, stores and power: what every chapter writes (17_boot_update.md, 18_power_health.md) -/

/-- One event of the alarm history (R476, R491): kind 0 alarm, 1 FAULT, 2 reset, 3 failover; the clock of its rise. -/
structure HistRec where
  kind : Nat
  block : Nat
  inst : Nat
  code : Nat
  sec : Nat
  ns : Nat
  seq : Nat
  clk : Nat
  deriving DecidableEq, Repr


/-! ### House timing (02_house_timing.md) -/

/-- What a time base holds beside its registers: its time in units of 1/3024 ns (R36, R44), the remainders of its
trim and of a running slew, and the part of a commanded slew not yet absorbed. -/
structure TbClock where
  t : Nat := 0
  trimAcc : Int := 0
  slewLeft : Int := 0
  slewAcc : Int := 0
  deriving DecidableEq, Repr

/-- What a candidate reference holds beside its registers (R47 to R49): the causes that have disqualified it since
the last tick, its last pulse edge, the intervals of its last PPS edges, the one-second offsets of its drift
window (newest first) and the seconds a TIME_SET gave its PPS (R39). -/
structure RefCand where
  causes : List Nat := []
  lastEdge : Option Nat := none
  hitSince : Bool := false
  intervals : List Nat := []
  drift : List Int := []
  driftLost : Bool := false
  secondsSet : Option Nat := none
  deriving DecidableEq, Repr

/-- What the DPLL holds beside its registers: the count of 1 ms ticks, the control word's LOCKED history as
(tick, control word), newest first (R57), the remainder of the slew limit, the frequency it moves toward, whether it
is leaving a lost candidate, whether a forced candidate was lost, and the synthesiser's lock (R69). -/
structure DpllMem where
  ticks : Nat := 0
  hist : List (Nat × Int) := []
  slewAcc : Nat := 0
  target : Int := 0
  hoOk : Bool := false
  hoLast : Option Int := none
  lossMove : Bool := false
  synthLock : Bool := true
  realignLeft : List Nat := []
  stepPending : Bool := false
  deriving DecidableEq, Repr

/-- What an OTG holds beside its registers (R61 to R64): the format and time source in force, the start of its
current frame and the length of that frame on its time source in units of 1/3024 ns, the offset in force in ns, and
whether a realignment waits for its next boundary. -/
structure OtgMem where
  format : Nat := 0
  src : Nat := 0
  start : Int := 0
  length : Nat := 0
  offset : Int := 0
  started : Bool := false
  realign : Bool := false
  deriving DecidableEq, Repr

/-- An event timer's armed copy (R67): the values in force since the last write of 1 to arm. -/
structure EvtMem where
  due : Nat := 0
  scale : Nat := 0
  action : Nat := 0
  target : Nat := 0
  late : Bool := false
  deriving DecidableEq, Repr

/-- What firmware does when one of its event timers fires (R66): fire a chain, or start an armed update (R481). -/
inductive FwAction where
  | chain (n : Nat) | activate
  deriving DecidableEq, Repr

/-- The time state: the house clock's count and the five scales in units of 1/3024 ns (R36, R37), the control
complex's own snapshot set (R38), and what the candidates, the DPLL, the OTGs and the event timers hold. -/
structure TimeState where
  clk : Nat := 0
  ht : Nat := 0
  tb : KV TbClock := []
  ccSnap : List Nat := []
  ref : KV RefCand := []
  dpll : DpllMem := {}
  otg : KV OtgMem := []
  evt : KV EvtMem := []
  evtFw : KV (Option FwAction) := []
  pulseSkew : KV Int := []
  pulseRealign : List Nat := []
  deriving DecidableEq, Repr

/-! ### Frame stores (03_frame_stores.md) -/

/-- A decision record (R90); `t` is T_j in house time, in units of 1/3024 ns. -/
structure FrameRec where
  source : Nat
  format : Nat
  slot : Nat
  sampling : Nat
  seq : Nat
  t : Int
  kind : Nat := 0
  locked : Bool := false
  lockScale : Nat := 0
  tsLocal : Bool := false
  concealed : Bool := false
  compact : Bool := false
  colorimetry : Nat := 0
  transfer : Nat := 0
  depth : Nat := 0
  tilesRaw : Nat := 0
  tilesConcealed : Nat := 0
  sectors : Nat := 0
  digest : Nat := 0
  minLuma : Nat := 0
  maxLuma : Nat := 0
  deriving DecidableEq, Repr

/-- How far a frame has come: its writer is writing it, its tiles are written and its record is not (R89, R91, R92),
it is complete, or it was abandoned. -/
inductive FramePhase where
  | writing | tiled | complete | abandoned
  deriving DecidableEq, Repr

/-- A frame of a hogshead: its record, its decision time D_j in house time (R88), its phase, the tile rows already
written (R93), whether a standby decided it locally or matched it with the active's record (R91), the active's
digest until it has been compared, and whether its
digest differed from the twin's (R407), and the proxy slot it was written to. -/
structure Frame where
  rcd : FrameRec
  due : Int
  phase : FramePhase := .writing
  rows : List Nat := []
  own : Bool := false
  matched : Bool := false
  far : Option Nat := none
  diff : Bool := false
  proxy : Option Nat := none
  deriving DecidableEq, Repr

/-- A reader that holds a slot (R78): a destination's layer, a processor's input, a multiviewer tile. -/
inductive Holder where
  | dst (n layer : Nat) | prc (n input : Nat) | tile (h t : Nat)
  deriving DecidableEq, Repr

/-- A hogshead or a surface's buffers in HBM (R76, R129): the allocation and the geometry it was reserved for, its
depth, its frames (oldest first), its holders with the slots they hold, the holders of proxy slots (R173), its complete proxy frames (newest first, each
with its proxy slot), and the values in force of delay, guard (µs), planning ratio code and compact storage. -/
structure Store where
  alloc : Bool := false
  base : Nat := 0
  size : Nat := 0
  format : Nat := 0
  sampling : Nat := 0
  depth : Nat := 0
  proxied : Bool := false
  frames : List Frame := []
  holds : List (Holder × Nat) := []
  pholds : List (Holder × Nat) := []
  proxies : List (Nat × FrameRec) := []
  delay : Nat := 0
  guard : Nat := 0
  ratio : Nat := 8
  compact : Bool := false
  producing : Bool := false
  deriving DecidableEq, Repr

/-- What an ingress channel holds beside its registers (R71, R82, R86, R87, R91, R92, R95): format adoption, timestamp
judgement, lock judgement, the last sequence, monitoring runs, the runs and packets received of the frame in progress,
mirrored records not yet matched, the T_j of frames that a quadrant's skip makes it skip,
and its own stamps less the active's of the last 64 matched frames (R310). -/
structure IngMem where
  adopted : Option VideoFmt := none
  cand : Option (VideoFmt × Nat) := none
  prevT : Option Int := none
  invalid : Nat := 0
  valid : Nat := 0
  tsLocal : Bool := false
  kind : Option Nat := none
  phase : Option Int := none
  lockRun : Nat := 0
  seq : Option Nat := none
  turn : Nat := 0
  lastDigest : Option Nat := none
  freezeRun : Nat := 0
  blackRun : Nat := 0
  rx : KV (List PelRun) := []
  anc : KV (List AncPacket) := []
  mirrors : List DecisionRec := []
  quadSkip : List Int := []
  twinDiffs : List Int := []
  deriving DecidableEq, Repr

/-! ### Takes, chains, destinations and surfaces (04_takes_and_destinations.md) -/

/-- A take that has been accepted: its command, its body, and the controller whose command it is (R105, R106). -/
structure ArmedTake where
  id : Nat
  dest : Nat
  body : Cmd
  controller : Nat
  seq : Nat
  deriving DecidableEq, Repr

/-- A change committed to a destination's pending state (R105, R108, R124): its command (or its chain), the levels it
names, its source code, its mode (0 keep, 1 frame, 2 line), the overlay layer with its control and position words, and
its landing: the OTG frame and whether it lands at the field-2 switch line (R110). -/
structure PendTake where
  id : Nat
  chain : Option Nat := none
  video : Bool := false
  audio : Bool := false
  anc : Bool := false
  source : Nat := 0xFFF
  mode : Nat := 0
  layer : Option Nat := none
  ctrl : Nat := 0
  pos : Nat := 0
  frame : Nat
  field2 : Bool := false
  deriving DecidableEq, Repr

/-- What a layer of a destination shows in this frame: the code, the frame of its store (slot and sequence), whether it
was ready (R127), whether it has been switched off for the rest of the frame, whether it reads a frame that is still
being written, and the tile rows fetched (R128). -/
structure LayerSel where
  code : Nat := 0xFFF
  slot : Option Nat := none
  seq : Nat := 0
  ready : Bool := true
  off : Bool := false
  live : Bool := false
  fetched : List Nat := []
  deriving DecidableEq, Repr

/-- What a destination holds beside its registers: its pending state and what its last switch point resolved, what its
layers show and what they will show from the switch line, the copy of its OTG while it flywheels with its frame count
(R136), its line-mode fallback count with the last record judged (R21), a mode change due at the switch line, the lines
emitted of the current frame, its selection for opaque flows, the fill and pattern values latched (R126, R139), the
sequence of the last frame shown, the frame of the ancillary route (code, sequence, slot; R121) with whether its packets
have not been sent yet, the opaque frames sent in this period (R134), and the code before the last opaque landing with the
boundary it landed at (R133). -/
structure DstMem where
  pend : List PendTake := []
  resolved : List PendTake := []
  sel : KV LayerSel := []
  next : KV LayerSel := []
  fly : Option (OtgMem × Nat) := none
  fbCount : Nat := 0
  fbSeq : Option Nat := none
  modeDue : Option Bool := none
  point : Option Nat := none
  point2 : Option Nat := none
  lines : KV (List Nat) := []
  fillY : Nat := 0x100
  fillC : Nat := 0x800800
  patterns : List (Nat × Nat × Nat) := []
  lastSeq : Option Nat := none
  anc : Option (Nat × Nat × Nat) := none
  ancFresh : Bool := false
  opqSent : Nat := 0
  opqOld : Option (Nat × Int) := none
  deriving DecidableEq, Repr

/-- A chain (R116 to R120). -/
structure ChainMem where
  state : Nat := 0
  entries : List TakeBody := []
  trig : Option ChainTrig := none
  controller : Nat := 0
  late : Bool := false
  missed : Bool := false
  cmd : Option Nat := none
  timer : Option Nat := none
  firedAt : Option Int := none
  outstanding : Nat := 0
  landed : List (Nat × Nat) := []
  skipped : List (Nat × Nat) := []
  deriving DecidableEq, Repr

/-- What a surface holds beside its window words (R129 to R131): the buffer that loads, the current buffer, the bytes
written to the loading buffer since the last PUBLISH, and whether any were. -/
structure SurfMem where
  loading : Nat := 0
  front : Option Nat := none
  written : Nat := 0
  dirty : Bool := false
  seq : Nat := 0
  deriving DecidableEq, Repr

/-- A holder of a reference to a surface (R131). -/
inductive RefHolder where
  | layer (dest layer : Nat) | take (id dest : Nat) | entry (chain i : Nat) | prc (p : Nat) | tile (h t : Nat)
  deriving DecidableEq, Repr

/-- The kinds of state the MRAM store keeps (R470). -/
inductive MramKind where
  | xpt | chain | config | htSeconds | training | history | bitmap | update
  deriving DecidableEq, Repr

/-- A key of the MRAM store (R470): the kind of state and its index. -/
structure MramKey where
  kind : MramKind
  index : Nat
  deriving DecidableEq, Repr

/-- A record of the MRAM store (R470): words, a chain, or configuration words. -/
inductive MramVal where
  | words (l : List Nat)
  | chain (c : ChainMem)
  | regs (l : List (Reg × Word))
  deriving DecidableEq, Repr

/-! ### Video processors (05_processors.md) -/

/-- A processor configuration as PROC_SET gives it: the words 0x000 to 0x028 and both matrices (R165). -/
structure PrcCfg where
  words : List Nat
  mtx : List Nat
  deriving DecidableEq, Repr

/-- A frame a processor is producing (R153, R154, R159): its number and boundary, the code, the sequences of the input
frames it reads (the current one, the second of a blended pair, and those of fields c − 1 and c − 3), the blend weight,
the current field, the output slot, the taps in effect and whether everything is bypassed. -/
structure PrcJob where
  frame : Nat
  b : Int
  code : Nat
  seqA : Nat
  seqB : Option Nat := none
  w16 : Nat := 0
  parity : Nat := 1
  c1 : Option Nat := none
  c3 : Option Nat := none
  slot : Nat := 0
  taps : Nat := 4
  bypass : Bool := false
  deriving DecidableEq, Repr

/-- What a processor holds beside its registers: the configuration in force, the configurations committed and not yet
landed (with their command and, on a path, their landing frame), curves and coefficient banks in force and their
shadows, the frame in production, the first input frame of its temporal history, the last frame and field used, and the motion
store. -/
structure PrcMem where
  cfg : Option PrcCfg := none
  pend : List (Nat × Nat × PrcCfg) := []
  curves : KV (List Nat) := []
  shadowCurves : KV (List Nat) := []
  banks : KV (List Nat) := []
  shadowBanks : KV (List Nat) := []
  job : Option PrcJob := none
  histFrom : Option Nat := none
  histCode : Nat := 0xFFF
  histFormat : Nat := 0
  lastSeq : Option Nat := none
  lastT : Int := 0
  lastParity : Nat := 1
  motion : KV Nat := []
  deriving DecidableEq, Repr

/-! ### Multiviewer heads and destination monitors (06_multiviewer.md) -/

/-- A drawn element: its rectangle, its coverage in raster order (255 everywhere where none is given) and its colour
(R179). -/
structure Draw where
  x : Nat
  y : Nat
  w : Nat
  h : Nat
  cov : List Nat := []
  fg : Nat × Nat × Nat
  deriving DecidableEq, Repr

/-- A tile in a frame that is being composed: its code, the sequence it shows (none where it shows the background),
whether it reads the proxy, the slot it holds, the output row from which its picture was late (R185), and its
decorations. -/
structure TileJob where
  t : Nat
  code : Nat
  shown : Option Nat := none
  proxy : Bool := false
  slot : Nat := 0
  late : Option Nat := none
  draws : List Draw := []
  deriving DecidableEq, Repr

/-- A frame a head is composing (R171, R177). -/
structure MvhJob where
  frame : Nat
  b : Int
  slot : Nat
  tiles : List TileJob
  clocks : List Draw
  rows : List Nat := []
  deriving DecidableEq, Repr

/-- What a head holds beside its registers: the configuration words in force, whether an MV_SET has configured it, the
commands committed and not yet landed, its own copy of its OTG with the frame count while the OTG is not ON (R193), the
frame in composition, the scruples predicted for its last frames (sequence; region; at 12, 10 and 8 bits; R188), and the
runs of black and flat frames of its tiles (R190). -/
structure MvhMem where
  cfg : RegFile := []
  configured : Bool := false
  pend : List Nat := []
  fly : Option (OtgMem × Nat) := none
  job : Option MvhJob := none
  preds : List (Nat × List (Nat × Nat × Nat × Nat)) := []
  blackRun : KV Nat := []
  flatRun : KV Nat := []
  deriving DecidableEq, Repr

/-- What a destination's monitor holds beside its registers (R190, R191): the last digest, the runs of frames with an
unchanged digest, black and flat, whether the run's sources stood still, what the shown sequence and record digest were,
whether either has changed during the run, and
whether the frame was shown from one whose digest differed from the twin's (R407). -/
structure DmonMem where
  digest : Option Nat := none
  run : Nat := 0
  blackRun : Nat := 0
  flatRun : Nat := 0
  still : Bool := true
  seq : Option Nat := none
  rec_ : Option Nat := none
  seqMoved : Bool := false
  recMoved : Bool := false
  diff : Bool := false
  deriving DecidableEq, Repr
/-! ### Audio (07_audio_matrix.md, 08_serial_audio_ports.md) -/

/-- What an input channel holds beside its window words (R204 to R209): the samples received and not yet taken, the 64
samples of the processing delay (newest first), the samples after it (newest first, for group delays and heads), the
complete blocks counted while it qualifies, the running raised-cosine ramp of its level (from, to, position, length),
the ratio and its timing points (instant, samples received), the slip or resampling remainder in units of 2^-32 sample,
its ASRC channel, since when it has been synchronous, its treatment in the last block, and whether its supplier's
samples belong to a non-PCM pair and carry valid timestamps. -/
structure AudIn where
  live : Bool := false
  q : List Int := []
  line : List Int := []
  hist : List Int := []
  complete : Nat := 0
  from_ : Nat := 0
  to_ : Nat := 0
  pos : Nat := 0
  len : Nat := 0
  ratio : Nat := 4294967296
  points : List (Nat × Nat) := []
  got : Nat := 0
  stamp : Nat := 0
  acc : Int := 0
  chan : Option Nat := none
  syncAt : Option Nat := none
  last : Nat := 0
  nonPcm : Bool := false
  stampOk : Bool := true
  deriving DecidableEq, Repr

/-- What an output takes (R210, R211, R216, R219): its input (none for silence), whether the input passes bit for bit, the
input's group delay, the gain factor, and the destination group's delay. -/
structure AudSel where
  inp : Option Nat := none
  bits : Bool := false
  sdelay : Nat := 0
  g : Int := 0
  odelay : Nat := 0
  deriving DecidableEq, Repr

/-- What an output channel holds beside its entry: what it takes, what it ramps from with the ramp's position and
length, its samples after gain (newest first), the samples of the block being emitted and of the one before, its meter in 1/2975 of 1/16 dB,
and whether its last block was late. -/
structure AudOut where
  cur : AudSel := {}
  old : AudSel := {}
  pos : Nat := 0
  len : Nat := 0
  hist : List Int := []
  blk : List Int := []
  prev : List Int := []
  meter : Nat := 4284000
  late : Bool := false
  deriving DecidableEq, Repr

/-- A committed audio change (R212): an output entry, a binding, a group, a tone generator, a detector or a loudness
group. -/
inductive AudChange where
  | entry (o w0 w1 : Nat)
  | bind (i w : Nat)
  | group (kind n base count delay : Nat)
  | tone (g freq level : Nat)
  | monitor (kind n : Nat) (values : List Nat)
  deriving DecidableEq, Repr

/-- A committed audio change with its command and its landing block. -/
structure AudPend where
  id : Nat
  land : Nat
  change : AudChange
  deriving DecidableEq, Repr

/-- The audio matrix beside its registers: inputs, outputs, committed changes, the commands of which some change took
effect, mirrored treatments by block (R206), silent blocks of the detectors (R223), the loudness groups' filter states
and block powers by channel (R222), and the SAP slots that ask for ASRC channels with those they hold (R234). -/
structure AudState where
  ins : KV AudIn := []
  outs : KV AudOut := []
  pend : List AudPend := []
  took : List Nat := []
  mirrors : List AudioMsg := []
  silent : KV Nat := []
  loud : KV (List (Nat × List Nat)) := []
  sapChans : KV (Option Nat) := []
  deriving DecidableEq, Repr

/-- What a serial audio port holds beside its registers (R233 to R240): the masks in force, the last frame's samples, the
instant of the release with the frames received and the slips made since, the samples that wait for its transmit slots,
the transmit slots' 64-sample ramps (from, to, position), the remainder and the timing points of its own ratio, the
frames and their total period since SAP_FREQ was last measured, and the samples its conversion by two holds. -/
structure SapMem where
  rxMask : Nat := 0
  txMask : Nat := 0
  prev : List Int := []
  released : Nat := 0
  frames : Nat := 0
  slips : Int := 0
  tx : KV (List Int) := []
  ramps : KV (Option (Nat × Nat × Nat)) := []
  acc : Nat := 0
  ratio : Nat := 4294967296
  points : List (Nat × Nat) := []
  pcount : Nat := 0
  psum : Nat := 0
  half : KV (List Int) := []
  deriving DecidableEq, Repr

/-! ### Lanes and Holtut links (10_lanes.md, 09_holtut_link.md) -/

/-- What a lane holds beside its registers (R288, R291, R294): the DFE and digital FFE values kept for FIXED mode, a scan
that waits for INITIAL to end, the polarity in force, and whether the lane has been woken from sleep (R295). -/
structure LaneMem where
  dfeSet : KV (Option Int) := []
  dffeSet : KV (Option Int) := []
  scanWait : Bool := false
  txInv : Bool := false
  rxInv : Bool := false
  woke : Bool := false
  deriving DecidableEq, Repr

/-- The frame a Holtut video flow is carrying (R264, R268): its number, time and format word, and whether its last segment
has arrived. -/
structure HlkFrame where
  count : Nat
  time : Nat
  format : Nat
  done : Bool := false
  deriving DecidableEq, Repr

/-- What a link holds beside its registers: whether the hunt began in RX_IDLE (R256), the instants of its last SLEEP block
and of the last STATE with rx_up 1, the descrambler's 58 bits (R247), the data blocks the segment in progress still
expects, whether a FEC-frame counter has been seen (R255), the instants of uncorrectable frames (R279), the sequences of
the last segments received and sent by 16 × flow + kind (R259), when each flow last carried each kind, the flows' video
frames, ancillary entries that arrived before their frame, the stamps of time transfer (R270: the last t_tx received with
its arrival) and the run of exchanges beyond 1 µs (R271). -/
structure HlkMem where
  fromIdle : Bool := false
  sleepAt : Option Nat := none
  upAt : Option Nat := none
  scram : Nat := 0
  segLeft : Option Nat := none
  counted : Bool := false
  uncorr : List Nat := []
  rxSeq : KV (Option Nat) := []
  txSeq : KV Nat := []
  seen : KV Nat := []
  video : KV (Option HlkFrame) := []
  anc : KV (List (Nat × Nat × List AncPacket)) := []
  echo : Option (Nat × Nat) := none
  farRun : Nat := 0
  nearRun : Nat := 0
  deriving DecidableEq, Repr

/-- A twin message in assembly (R272): its sequence, type and length, its fragments by index as (offset, bytes), and
whether the lane that lost it has been charged. -/
structure TwinPart where
  seq : Nat
  type : Nat
  total : Nat
  frags : KV (Option (Nat × List Byte)) := []
  deriving DecidableEq, Repr

/-- A twin message that has arrived and waits for its receiver (R272). -/
structure TwinIn where
  type : Nat
  seq : Nat
  body : List Byte
  deriving DecidableEq, Repr

/-! ### Direct SDI (11_sdi.md) -/

/-- What an SDI function holds beside its registers: the rate tried in SEARCH (an index of R304's order), consecutive lines
without TRS, how many rows of R300 the structure fits, CRC errors and SD packets of the frame in progress, frames without
an SD packet and without ST 352, the audio groups' rates (0 neither, 1 48 kHz, 2 96 kHz), the stamp of the last frame
(R309), the frames whose spread has stayed within 10 µs since it was beyond (R302), and whether the transmitter is muted. -/
structure SdiMem where
  try_ : Nat := 0
  badTrs : Nat := 0
  rows : Nat := 1
  frameErr : Bool := false
  edhSeen : Bool := false
  noEdh : Nat := 0
  vpidSeen : Bool := false
  noVpid : Nat := 0
  rates : KV Nat := []
  stamp : Int := 0
  skewed : Option Nat := none
  deriving DecidableEq, Repr


/-! ### Ethernet and flows (12_packet_media.md) -/

/-- The headers of a transmitted packet below RTP (R330): addresses, UDP ports, the 802.1Q tag (pcp × 2^13 + vlan), DSCP
and TTL. -/
structure TxHdr where
  srcMac : Nat
  dstMac : Nat
  v4 : Bool
  src : Nat
  dst : Nat
  srcUdp : Nat
  dstUdp : Nat
  tag : Option Nat := none
  dscp : Nat := 0
  ttl : Nat := 0
  deriving DecidableEq, Repr

/-- What a transmitted frame carries: a packet of a context's leg, or a PTP message with the time that one-step insertion
writes into it as it leaves (R43), in units of 1/16 ns. -/
inductive TxBody where
  | media (flow leg : Nat) (hdr : TxHdr) (p : RtpPacket)
  | ptp (k : PtpTx) (origin : Option Nat)
  deriving DecidableEq, Repr

/-- A frame that waits for its launch (R337): its class, its slot on the house clock, its late window (R338), its length
and the tag of a two-step report (R344). -/
structure TxFrame where
  body : TxBody
  tc : Nat
  slot : Int
  late : Option Nat := none
  length : Nat
  tag : Option Nat := none
  deriving DecidableEq, Repr

/-- A gate control list (R340): its base and cycle time in units of 1/3024 ns, and its entries. -/
structure GateList where
  base : Nat
  cycle : Nat
  entries : List Nat
  deriving DecidableEq, Repr

/-- What a MAC holds beside its registers: the frames that wait, the frame on the wire with the instant it left, the gate
list in force and the one that waits (R342), and the exception queue's frames of the last second (R321). -/
structure MacMem where
  queue : List TxFrame := []
  sending : Option (TxFrame × Nat) := none
  gate : Option GateList := none
  pend : Option GateList := none
  excFrom : Nat := 0
  excCount : Nat := 0
  deriving DecidableEq, Repr

/-- What a receive context holds beside its registers (R324, R327 to R329): the next sequence to release, the packets
accepted and not released with their arrivals, the sequences accepted in the last second with leg and arrival, the
differences of arrival in the last second, the last valid packet of each leg, the run of packets of one new SSRC, and the
RTP timestamp of the frame in progress with whether its marker has come; for an ANC context, entries that wait for their
frame, by timestamp. -/
structure FlowRxMem where
  next : Option Nat := none
  waiting : List (Nat × RtpPacket × Nat) := []
  seen : List (Nat × Nat × Nat) := []
  skews : List (Nat × Int) := []
  last : KV Nat := []
  newSsrc : Nat := 0
  newRun : Nat := 0
  stamp : Option Nat := none
  done : Bool := false
  anc : List (Nat × List AncPacket) := []
  deriving DecidableEq, Repr

/-- What an opaque slot holds (R133, R326): the RTP timestamp of its newest frame, and the arrival of its first packet. -/
structure OpqSlot where
  stamp : Option Nat := none
  first : Nat := 0
  deriving DecidableEq, Repr

/-- The timestamp report queue (R344, R345): its entries' words, and the tags lost since it overflowed. -/
structure TsQueue where
  entries : List (List Nat) := []
  lost : Option (Nat × Nat) := none
  deriving DecidableEq, Repr

/-! ### Memory system and bus matrix (13_memory.md, 14_matrix.md) -/

/-- A transaction in the matrix (R381): the port's request and when it was issued. -/
structure MtxTx where
  port : Nat
  req : MtxReq
  issued : Nat
  deriving DecidableEq, Repr

/-- A transaction granted at a target and not yet returned (R382): when it was granted, and its answer once the target
has served it: the data of a read, and whether it is poisoned. -/
structure MtxFlight where
  tx : MtxTx
  target : Nat
  granted : Nat
  answer : Option (List Byte × Bool) := none
  deriving DecidableEq, Repr

/-- The bus matrix beside its registers: requests waiting for a grant (oldest first), transactions outstanding, held
transactions (R388), the streams that are not IDLE (1 ACTIVE, 2 HELD, 3 DRAINING; by 16,384 × port + stream), the
targets' rotating pointers (R384), and the fault log (R395). -/
structure MtxState where
  waiting : List MtxTx := []
  flight : List MtxFlight := []
  held : List MtxTx := []
  streams : KV Nat := []
  pointer : KV Nat := []
  log : List LogWords := []
  deriving DecidableEq, Repr

/-- A request queued at a pseudo-channel controller (R361). -/
structure HbmEntry where
  tx : MtxTx
  arrived : Nat
  deriving DecidableEq, Repr

/-- A row of a bank of a pseudo-channel. -/
structure HbmRow where
  pc : Nat
  bank : Nat
  row : Nat
  deriving DecidableEq, Repr

/-- The memory system beside its registers: the controllers' queues, open rows and cached check bursts (R358, R361), refresh
postponements and pending neighbour refreshes by bank (R362, R363), the error log (R377) with when each channel last
logged a correctable error, the instants of errors by channel (R370, R375) and of correctable errors by row and column
(R368), rows being copied and the remap table, the scrubbers' places (R367), stack temperatures at the last full
training and now, the runs of R27, and the SRAM's rows with correctable errors, rows to spare and poisoned words
(R374). -/
structure HbmMem where
  reads : KV (List HbmEntry) := []
  writes : KV (List HbmEntry) := []
  open_ : KV (Option Nat) := []
  cache : KV (List Nat) := []
  owed : KV Nat := []
  pnr : KV (List Nat) := []
  elog : List LogWords := []
  ceLogged : KV Nat := []
  ceTimes : KV (List Nat) := []
  ueTimes : KV (List Nat) := []
  rowCe : List (HbmRow × Nat × Nat) := []
  copying : List HbmRow := []
  remap : List (HbmRow × Nat) := []
  scrub : KV Nat := []
  sramScrub : KV Nat := []
  trainedTemp : KV Nat := []
  temp : KV Nat := []
  overRun : Nat := 0
  underRun : Nat := 0
  sramCe : List (Nat × Nat) := []
  spareDue : List Nat := []
  sramPoison : List Nat := []
  deriving DecidableEq, Repr

/-! ### Twins (15_twin.md) -/

/-- A signature entry that waits for its partner (R409). -/
structure SigMem where
  otg : Nat
  frame : Nat
  e : SigEntry
  deriving DecidableEq, Repr

/-- A planned swap (R417, R418): its frame count, the HEALTH_SWAP command that asked for it, whether this unit proposed it,
and whether it is agreed. -/
structure SwapMem where
  frame : Nat
  id : Option Nat := none
  mine : Bool := false
  agreed : Bool := false
  deriving DecidableEq, Repr

/-- The twin state beside the TWIN registers: the shedding stage in force of the functions R160 and R187 govern, and the
change a SHED message has announced with its frame count (R408); the sequence of the last message delivered (R272); whether
the active's snapshot has been applied, a snapshot that waits for its frame with the commits that follow it, and whether
ADMIT has been sent (R411, R412); the last peck, which paths have carried one in this interval, whether one showed role 1,
and the intervals without (R398, R402); a contention lost (R404); the own pecks' sequence and whether they have stopped
(R399); the own messages' sequence; signature entries of both units that wait (R409); the runs of matching frames by
destination and the frames it has stayed diverged (R410); whether the reference frame has had a disagreement (R414); the
twin's last ADMIT; the planned swap and the last swap's instant; whether a twin follows this unit's commits
after its snapshot (R412). -/
structure TwinState where
  shedEff : Nat := 0
  shedNext : Option (Nat × Nat) := none
  delivered : Option Nat := none
  applied : Bool := false
  snap : Option SnapMsg := none
  heldCommits : List CommitMsg := []
  admitSent : Bool := false
  far : Option Peck := none
  laneGot : Bool := false
  lvdsGot : Bool := false
  gotActive : Bool := false
  roleRun : Nat := 0
  contend : Bool := false
  peckSeq : Nat := 0
  peckStale : Bool := false
  txSeq : Nat := 0
  ownSigs : List SigMem := []
  farSigs : List SigMem := []
  good : KV Nat := []
  badFor : KV Nat := []
  disagree : Bool := false
  farAdmit : Option AdmitMsg := none
  swap : Option SwapMem := none
  swapAt : Int := 0
  follows : Bool := false
  deriving DecidableEq, Repr

/-! ### What leaves the device -/

/-- What leaves the device, in order. -/
inductive Output where
  | cq (ring index : Nat) (c : Completion) (respWritten : Nat) (phase truncated : Bool) (sqIndex : Nat)
  | resp (addr bytes : Nat) (c : Completion)
  | datagram (session counter : Nat) (c : Completion)
  | twinCommit (m : CommitMsg)
  | msix (vector : Nat)
  | pulse (o : PulseOut) (instant : Int) (width : Nat) (activeHigh : Bool)
  | decision (src : Nat) (r : DecisionRec)
  | gpio (pin : Nat) (level : Bool)
  | gpioPulse (pin : Nat)
  | twinAudio (m : AudioMsg)
  | ltAnswer (lane : Nat) (a : LtAnswer)
  | hlkBlock (lane : Nat) (b : Block66)
  | hlkBurst (lane : Nat)
  | hlkSegment (lane : Nat) (s : Segment)
  | sdiLine (lane : Nat) (v : SdiOut)
  | fwFrame (port : Nat) (ptp : Bool) (stamp err : Nat)
  | ethFrame (port : Nat) (f : TxFrame) (badFcs : Bool) (egress : Nat)
  | hostRead (value : Nat)
  | peck (lvds : Bool) (p : Peck)
  | snapshot (m : SnapMsg)
  | openReply (session controller status : Nat) (nonce tag : List Byte)
  | tdo (value width : Nat)
  | vout (microvolts : Nat)
  | mtxResp (port stream tag : Nat) (data : List Byte) (poison : Bool)
  | sapOut (port : Nat) (slots : List (Option Nat))
  deriving DecidableEq, Repr

/-! ### Start-up, stores and updates (17_boot_update.md) -/

/-- What the header of a firmware image in the flash says (R464), as the boot ROM read it. -/
structure ImageInfo where
  version : Nat := 0
  secver : Nat := 0
  compat : Nat := 0
  formats : Nat := 0
  deriving DecidableEq, Repr

/-- The update in progress (R477 to R487): the registers' values that survive resets (BOOT_UPD_*), its target partition, the
blocks held (of 256 bytes, or of 224 for a trickle), a trickle's first pieces until its header decides the target, the run
of pieces of another image, the commands that wait for the erase, the verification and the activation, the event timer
armed, the activation's progress (0 none, 1 and 2 a HANDOVER whose standby has not, and has, left lockstep, 3 its swap, 4 and
5 a STAGGERED activation whose standby has not, and has, left), program failures of this update, when the bitmap was last
recorded, and whether this unit has to verify without a command. -/
structure UpdMem where
  state : Nat := 0
  kind : Nat := 0
  source : Nat := 0
  method : Nat := 0
  length : Nat := 0
  image : Nat := 0
  fail : Nat := 0
  target : Nat := 0
  got : List Nat := []
  first : KV (List Byte) := []
  other : Nat × Nat := (0, 0)
  beginId : Option Nat := none
  verifyId : Option Nat := none
  actId : Option Nat := none
  timer : Option Nat := none
  stage : Nat := 0
  failures : Nat := 0
  recorded : Nat := 0
  recAt : Nat := 0
  sec : Nat := 0
  deriving DecidableEq, Repr

/-- The start-up, store and update state beside the BOOT registers: the alarm history (R476); the stored HT seconds (R39);
the MRAM records and those each replaced (R470, R471), the open window's records (R473), the superblock's store format and
configuration generation, the pages free and ever written, the page writes of the last seconds with their instants, and
since when they have been few (R472, R473); the flash's bytes, once read (R460), and the fuses (R465, R466, R469); what the
boot ROM chose: the firmware slot (0 A, 1 B, 2 recovery), its image, the configuration slot; the sections of the
configuration in force; when start-up, the reference wait and routing began, when lockstep was first reached, the instants
of warm resets (R34), the DPLL mode that routing will set (R456), whether a start-up has stopped (R493), and the update. -/
structure BootState where
  hist : List HistRec := []
  histSeq : Nat := 0
  htStored : Option Nat := none
  mram : List (MramKey × MramVal) := []
  mramOld : List (MramKey × MramVal) := []
  window : List (MramKey × MramVal) := []
  superblock : Option (Nat × Nat) := none
  pagesFree : Nat := 32760
  pagesEver : Nat := 0
  pageWrites : List (Nat × Nat) := []
  fewSince : Option Nat := none
  flash : Option (KV Nat) := none
  fuses : Fuses := {}
  slot : Option Nat := none
  image : ImageInfo := {}
  cfg : Option CfgSections := none
  cfgReset : Bool := false
  startAt : Nat := 0
  lockAt : Option Nat := none
  warmResets : List Nat := []
  dpllMode : Option Nat := none
  upd : UpdMem := {}
  deriving DecidableEq, Repr

/-! ### Power and test (18_power_health.md) -/

/-- The JTAG TAP (R513): the instruction in force, the boundary register, and what drives the pins (0 the device, 1 EXTEST,
2 CLAMP, 3 HIGHZ). -/
structure JtagMem where
  instr : Nat := 0xFF
  boundary : Nat := 0
  drive : Nat := 0
  deriving DecidableEq, Repr

/-- The power state beside the PWR registers: power-on reset has been released and the island runs, the core domain runs,
the clocks are frozen (R515), the device is tripped (R504); rails in regulation (bit n for PWR_ENn), a start-up that has
stopped (R493), the SUPPLY_WARN_N pin is low, the ROLE_ACTIVE pin, the PWR_CYCLE_REQ_N pin is low (R507); V_t and the
commanded voltage in µV, since when V_req has stayed within the window and V_t below 840 mV (R497, R499);
the last change of stage, since when it may be left, and the last V_meas in µV (R500, R501); failed polls in a
row by regulator (R496); resets that have been asked for (R508); the functions that hold FAULT_NO_TWIN (R35); an open
challenge's nonce (R514); the HBM errors at the last telemetry record; and the TAP. -/
structure PwrState where
  awake : Bool := false
  up : Bool := false
  frozen : Bool := false
  tripped : Bool := false
  regulated : Nat := 0
  stopped : Bool := false
  warnPin : Bool := false
  roleActive : Bool := false
  cycleReq : Bool := false
  vt : Nat := 750000
  vout : Nat := 750000
  inWindow : Option Nat := none
  below : Option Nat := none
  shedAt : Nat := 0
  shedOk : Option Nat := none
  vMeas : Option Nat := none
  polls : KV Nat := []
  resetAsked : Bool := false
  cycleAsked : Bool := false
  noTwin : List (Nat × Nat) := []
  nonce : Option Nat := none
  overPower : Option Nat := none
  telemCe : Nat := 0
  telemUe : Nat := 0
  jtag : JtagMem := {}
  deriving DecidableEq, Repr

/-! ### The whole state -/

/-- The typed state beside registers and memory. -/
structure Ext where
  out : List Output := []
  freeCtr : Nat := 0
  fns : KV FnMem := []
  escal : List Escalation := []
  ctl : CtlState := {}
  time : TimeState := {}
  gpio : Nat := 0
  chainDue : List (Nat × Nat × Nat) := []
  activateDue : Bool := false
  boot : BootState := {}
  pwr : PwrState := {}
  poison : List Nat := []
  stores : KV Store := []
  ing : KV IngMem := []
  areas : List (Nat × (Nat × Nat)) := []
  armed : List ArmedTake := []
  dst : KV DstMem := []
  chains : KV ChainMem := []
  surf : KV SurfMem := []
  surfRefs : List (Nat × RefHolder) := []
  prc : KV PrcMem := []
  luts : KV (KV Nat) := []
  twin : TwinState := {}
  mvh : KV MvhMem := []
  dmon : KV DmonMem := []
  opqPeriod : KV Nat := []
  aud : AudState := {}
  sap : KV SapMem := []
  lane : KV LaneMem := []
  hlk : KV HlkMem := []
  twinAsm : List TwinPart := []
  twinIn : List TwinIn := []
  opqRx : KV (Option Nat) := []
  opqTx : KV (Option Nat) := []
  sdi : KV SdiMem := []
  mac : KV MacMem := []
  flowRx : KV FlowRxMem := []
  flowTx : KV Bool := []
  opqSlots : KV OpqSlot := []
  tsq : TsQueue := {}
  mtx : MtxState := {}
  hbm : HbmMem := {}
  deriving DecidableEq, Repr

/-- The device. -/
structure Dev where
  regs : RegFile := []
  mem : Memory := []
  x : Ext := {}
  deriving DecidableEq, Repr

/-- The machine: the device and the queue of commands that wait, first in, first out. -/
structure State where
  dev : Dev
  pending : List Instr
  deriving DecidableEq, Repr

/-- Why a command could stop the machine. -/
inductive Fault where
  /-- Raised by no command: in this block every error of the spec is an effect on the state (safe). -/
  | none
  deriving DecidableEq, Repr

/-- Why a command could have no meaning. -/
inductive Refusal where
  /-- Raised by an arm of `exec` whose command has no meaning yet (safe). -/
  | notModelled (mnemonic : String)
  deriving DecidableEq, Repr

/-- The machine right after power-on reset: every register at its reset value (R9), memory zero, nothing waiting. -/
def State.reset : State := { dev := {}, pending := [] }

end Sys2Proof.Machine
end

