-- ==== Sys2Proof/Machine/Cells.lean ====
section
/-!
DEFINITION. Reset values, and the reads and writes of the register file and of memory, which keep both in canonical
form: keys strictly rising, and no entry equal to what an absent key reads as.
-/

namespace Sys2Proof.Machine

/-- The order of register words: by kind, then by indices. -/
def Reg.lt (a b : Reg) : Bool :=
  decide (a.kind.ctorIdx < b.kind.ctorIdx) ||
  (decide (a.kind.ctorIdx = b.kind.ctorIdx) && (decide (a.i < b.i) ||
    (decide (a.i = b.i) && (decide (a.j < b.j) ||
      (decide (a.j = b.j) && decide (a.k < b.k))))))

/-- The reset value of a register word (R9): the table's constant, or the value its description gives by index;
values from fuses and MRAM are 0 (DESIGN CHOICE, assumption 5). -/
def resetNat (r : Reg) : Nat :=
  match r.kind with
  | .PRC_MTX_COEF => if r.k = 0 ∨ r.k = 4 ∨ r.k = 8 then 0x4000 else 0
  | .MVH_PAL_Y =>
    match r.j with
    | 0 => 0x100 | 1 => 0xEB0 | 2 => 0x3E9 | 3 => 0xACA | 4 => 0xB41 | 5 => 0x7D8 | 6 => 0x1FD | _ => 0xDB3
  | .MVH_PAL_C =>
    match r.j with
    | 0 => 0x800800 | 1 => 0x800800 | 2 => 0x665F00 | 3 => 0x29B1A4 | 4 => 0x259A3B | 5 => 0x800800
    | 6 => 0xF0075C | _ => 0x1008A4
  | .AUD_SGRP => r.i * 32
  | .AUD_DGRP => r.i * 32
  | .GLB_IRQ_MAP => 16 + r.i
  | .CMD_RING_CTRL => 0xFFFF0040 + r.i * 0x100
  | .LANE_TXFFE => if r.j = 3 then 0x3F else 0
  | .LANE_DFFE => if r.j = 3 then 0x100 else 0
  | .AOUT_ROUTE => 0x40000000 + r.i % 32
  | k => (regInfo k).reset

/-- The reset value of a register word as a word. -/
def resetWord (r : Reg) : Word := BitVec.ofNat 32 (resetNat r)

/-- The word a register holds. -/
def RegFile.get : RegFile → Reg → Word
  | [], r => resetWord r
  | (k, v) :: t, r => if r = k then v else RegFile.get t r

/-- The register file with an entry put in its place. -/
def RegFile.put : RegFile → Reg → Word → RegFile
  | [], r, v => [(r, v)]
  | (k, w) :: t, r, v => if r.lt k then (r, v) :: (k, w) :: t else (k, w) :: RegFile.put t r v

/-- The register file with one word set; setting the reset value removes the entry. -/
def RegFile.set (m : RegFile) (r : Reg) (v : Word) : RegFile :=
  if v = resetWord r then m.filter (fun e => e.1 ≠ r) else RegFile.put (m.filter fun e => e.1 ≠ r) r v

/-- The byte at an address; a byte nothing has written reads 0. -/
def Memory.get : Memory → Nat → Byte
  | [], _ => 0
  | (k, v) :: t, a => if a = k then v else Memory.get t a

/-- Memory with an entry put in its place. -/
def Memory.put : Memory → Nat → Byte → Memory
  | [], a, v => [(a, v)]
  | (k, w) :: t, a, v => if a < k then (a, v) :: (k, w) :: t else (k, w) :: Memory.put t a v

/-- Memory with one byte set; writing 0 removes the entry. -/
def Memory.set (m : Memory) (a : Nat) (v : Byte) : Memory :=
  if v = 0 then m.filter (fun e => e.1 ≠ a) else Memory.put (m.filter fun e => e.1 ≠ a) a v

/-- The n bytes from an address. -/
def Memory.getBytes (m : Memory) (a : Nat) : Nat → List Byte
  | 0 => []
  | n + 1 => Memory.get m a :: Memory.getBytes m (a + 1) n

/-- Keys strictly rising and no zero byte: the canonical form. -/
def Memory.wf : Memory → Bool
  | [] => true
  | [(_, v)] => decide (v ≠ 0)
  | (k, v) :: (k', v') :: t => decide (v ≠ 0) && decide (k < k') && Memory.wf ((k', v') :: t)

/-- Keys strictly rising and no entry at its reset value: the canonical form. -/
def RegFile.wf : RegFile → Bool
  | [] => true
  | [(k, v)] => decide (v ≠ resetWord k)
  | (k, v) :: (k', v') :: t => decide (v ≠ resetWord k) && k.lt k' && RegFile.wf ((k', v') :: t)

end Sys2Proof.Machine
end

