-- ==== Sys2Proof/Machine/Ops.lean ====
section
/-!
DEFINITION. The named operations every meaning is written with: reads and writes of register words and fields,
reads and writes of memory, and `Prog`, the small language of primitive actions in which the meanings are scripts.
A `Prog` can change a register word only through `Prim.wr` and `Prim.fstate`, memory only through `Prim.mem` and
`Prim.memZero`; what those primitives keep, every meaning keeps.
-/

namespace Sys2Proof.Machine

/-! ### Register words and fields -/

/-- The register word exists: its indices are within the map's dimensions (R447, R448). -/
def Reg.valid (r : Reg) : Bool :=
  match (regInfo r.kind).dims with
  | [] => r.i == 0 && r.j == 0 && r.k == 0
  | [(a, _)] => decide (r.i < a) && r.j == 0 && r.k == 0
  | [(a, _), (b, _)] => decide (r.i < a) && decide (r.j < b) && r.k == 0
  | (a, _) :: (b, _) :: (c, _) :: _ => decide (r.i < a) && decide (r.j < b) && decide (r.k < c)

/-- The BAR0 address of a register word. -/
def Reg.addr (r : Reg) : Nat :=
  match (regInfo r.kind).dims with
  | [] => (regInfo r.kind).base
  | [(_, s)] => (regInfo r.kind).base + r.i * s
  | [(_, s), (_, t)] => (regInfo r.kind).base + r.i * s + r.j * t
  | (_, s) :: (_, t) :: (_, u) :: _ => (regInfo r.kind).base + r.i * s + r.j * t + r.k * u

/-- The word is a common state word (R29). -/
def isFstate (k : RK) : Bool := (regInfo k).impl == 0xFF0C0387

/-- The bits of a word that read (R8). -/
def implMask (r : Reg) : Word := BitVec.ofNat 32 (regInfo r.kind).impl

/-- The word a register holds. -/
def Dev.reg (d : Dev) (r : Reg) : Word := d.regs.get r

/-- The word a register holds, as a number. -/
def Dev.rd (d : Dev) (r : Reg) : Nat := (d.reg r).toNat

/-- The value of a field. -/
def Dev.fld (d : Dev) (f : Field) : Nat := bitsOf (d.rd f.reg) f.lo f.width

/-- A one-bit field as a truth value. -/
def Dev.flag (d : Dev) (f : Field) : Bool := d.fld f == 1

/-- A field read as a signed number. -/
def Dev.sfld (d : Dev) (f : Field) : Int := signedOf f.width (d.fld f)

/-- A 64-bit value held in two registers (R5). -/
def Dev.rd64 (d : Dev) (lo hi : Reg) : Nat := d.rd lo + d.rd hi * 2 ^ 32

/-! ### The common state word -/

/-- The states of a function (R28). -/
inductive FState where
  | off | waking | on | stopping | fault
  deriving DecidableEq, Repr

/-- The code of a state (R28). -/
def FState.code : FState → Nat
  | .off => 0 | .waking => 1 | .on => 2 | .stopping => 3 | .fault => 4

/-- The common state word (R29). -/
structure FWord where
  state : FState
  pendOn : Bool := false
  pendOff : Bool := false
  asleep : Bool := false
  rung : Nat := 0
  code : Nat := 0
  deriving DecidableEq, Repr

/-- The word R29 lays out. -/
def FWord.encode (w : FWord) : Nat :=
  w.state.code + boolBit w.pendOn * 2 ^ 7 + boolBit w.pendOff * 2 ^ 8 + boolBit w.asleep * 2 ^ 9 +
    (w.rung % 4) * 2 ^ 18 + (w.code % 256) * 2 ^ 24

/-- The common state word a register holds. -/
def FWord.decode (x : Nat) : FWord :=
  { state :=
      match bitsOf x 0 3 with
      | 0 => .off | 1 => .waking | 2 => .on | 3 => .stopping | _ => .fault
    pendOn := bitOf x 7, pendOff := bitOf x 8, asleep := bitOf x 9, rung := bitsOf x 18 2, code := bitsOf x 24 8 }

/-! ### Memory of the bus matrix -/

/-- The address holds a byte of HBM (84 GiB from 0, R353 to R355) or of SRAM (64 MiB at 0x0100_0000_0000, R379). -/
def memAddr (a : Nat) : Bool :=
  decide (a < 84 * 2 ^ 30) || (decide (0x010000000000 ≤ a) && decide (a < 0x010004000000))

/-- The HBM channel (0 to 63) that holds a data address, for a grain of 2^g bytes (R353, R355). -/
def hbmChan (g a : Nat) : Nat := a / 2 ^ g % 4 * 16 + a / 2 ^ g / 4 % 16

/-- The HBM channels in FAULT (R375). -/
def Dev.faultChans (d : Dev) : List Nat :=
  d.regs.filterMap fun e =>
    if e.1.kind = .HBM_CH_FSTATE ∧ (FWord.decode e.2.toNat).state = .fault then some e.1.i else none

/-- A data address lies on a channel of a list. -/
def Dev.memLost (d : Dev) (l : List Nat) (a : Nat) : Bool :=
  !l.isEmpty && decide (a < 84 * 2 ^ 30) && l.contains (hbmChan (clampN 8 16 (d.fld F.HBM_CTRL_grain_log2)) a)

/-- Memory with bytes set at those of consecutive addresses that exist and are not lost. -/
def memPut (lost : Nat → Bool) : Memory → Nat → List Byte → Memory
  | m, _, [] => m
  | m, a, b :: r => memPut lost (if memAddr a && !lost a then Memory.set m a b else m) (a + 1) r

/-! ### Programs -/

/-- A primitive action. -/
inductive Prim where
  | wr (r : Reg) (v : Nat)
  | fstate (r : Reg) (w : FWord)
  | regReset (p : Reg → Bool)
  | mem (a : Nat) (bs : List Byte)
  | memZero (p : Nat → Bool)
  | ext (f : Ext → Ext)

/-- What a primitive action does. A write of a register keeps only the bits the register has (R8); a write of a
word that does not exist does nothing; a common state word changes only through `fstate`. A write to a channel in FAULT is
dropped (R375), and a write of a whole burst clears its poison (R365). -/
def Prim.apply : Prim → Dev → Dev
  | .wr r v, d =>
    if r.valid && !isFstate r.kind then { d with regs := d.regs.set r (BitVec.ofNat 32 v &&& implMask r) } else d
  | .fstate r w, d =>
    if r.valid && isFstate r.kind then { d with regs := d.regs.set r (BitVec.ofNat 32 w.encode) } else d
  | .regReset p, d => { d with regs := d.regs.filter fun e => !p e.1 }
  | .mem a bs, d =>
    let lost := d.memLost d.faultChans
    let whole := fun (q : Nat) => decide (a ≤ 64 * q) && decide (64 * q + 64 ≤ a + bs.length) && !lost (64 * q)
    { d with mem := memPut lost d.mem a bs, x := { d.x with poison := d.x.poison.filter fun q => !whole q } }
  | .memZero p, d => { d with mem := d.mem.filter fun e => !p e.1 }
  | .ext f, d => { d with x := f d.x }

/-- A script of primitive actions; `read` lets the rest of a script depend on the state reached. -/
inductive Prog where
  | nop
  | act (p : Prim)
  | andThen (a b : Prog)
  | read (k : Dev → Prog)

/-- What a script does. -/
def Prog.run : Prog → Dev → Dev
  | .nop, d => d
  | .act p, d => p.apply d
  | .andThen a b, d => b.run (a.run d)
  | .read k, d => (k d).run d

/-- Scripts one after the other. -/
def seq : List Prog → Prog
  | [] => .nop
  | [p] => p
  | p :: q :: r => .andThen p (seq (q :: r))

/-- A script for each element, in order. -/
def each {α : Type} (l : List α) (f : α → Prog) : Prog := seq (l.map f)

/-- A script only if a condition holds. -/
def doIf (b : Bool) (p : Prog) : Prog := if b then p else .nop

/-- A script only if a condition on the state reached holds. -/
def doWhen (c : Dev → Bool) (p : Prog) : Prog := .read fun d => if c d then p else .nop

/-- Sets a register word. -/
def wr (r : Reg) (v : Nat) : Prog := .act (.wr r v)

/-- Sets a field, leaving the word's other bits. -/
def setF (f : Field) (v : Nat) : Prog := .read fun d => wr f.reg (putBits (d.rd f.reg) f.lo f.width v)

/-- Sets a one-bit field. -/
def setB (f : Field) (b : Bool) : Prog := setF f (boolBit b)

/-- Sets a 64-bit value held in two registers (R5). -/
def set64 (lo hi : Reg) (v : Nat) : Prog := seq [wr lo (v % 2 ^ 32), wr hi (v / 2 ^ 32 % 2 ^ 32)]

/-- Adds to a counter of 32 bits, which saturates. -/
def addCnt (r : Reg) (n : Nat) : Prog := .read fun d => wr r (min (d.rd r + n) 0xFFFFFFFF)

/-- Adds 1 to a counter of 32 bits, which saturates. -/
def inc (r : Reg) : Prog := addCnt r 1

/-- Clears registers to 0. -/
def clearRegs (l : List Reg) : Prog := each l fun r => wr r 0

/-- Changes the typed state. -/
def ext (f : Ext → Ext) : Prog := .act (.ext f)

/-- Writes bytes of memory. -/
def memWrite (a : Nat) (bs : List Byte) : Prog := .act (.mem a bs)

/-- Records something that leaves the device. -/
def emit (o : Output) : Prog := ext fun x => { x with out := x.out ++ [o] }

end Sys2Proof.Machine
end

