-- ==== Sys2Proof/Machine/Flags.lean ====
section
/-!
DEFINITION. Every alarm and interrupt computation: rising alarm bits and the alarm history (R476), the three
interrupt levels (R444), MSI-X conditions (R445), IRQ_N (R446), the access-fault log (R449, R450), and the gates that
say when the device, its firmware and its host interface can act at all.
-/

namespace Sys2Proof.Machine

/-! ### Time readings -/

/-- House time units in a nanosecond: one unit is 1/3024 ns, in which every period of spec/ is whole. -/
def nsU : Nat := 3024

/-- Units in a second. -/
def secU : Nat := 3024000000000

/-- The seconds of house time (R36). -/
def Dev.htSec (d : Dev) : Nat := d.x.time.ht / secU

/-- The nanoseconds of house time (R36). -/
def Dev.htNs (d : Dev) : Nat := d.x.time.ht % secU / nsU

/-! ### Alarms (R444, R476) -/

/-- For an alarm register: its block b, the first instance number of its kind, and its enable register (R444). -/
def alarmInfo : RK → Option (Nat × Nat × RK)
  | .CMD_ALARM => some (0, 0, .CMD_ALARM_EN)
  | .GLB_ALARM => some (1, 0, .GLB_ALARM_EN)
  | .TIME_IRQ_STATUS => some (2, 0, .TIME_IRQ_ENABLE)
  | .SRC_ALARM => some (3, 0, .SRC_ALARM_EN)
  | .DST_ALARM => some (4, 0, .DST_ALARM_EN)
  | .PRC_ALARM => some (5, 0, .PRC_ALARM_EN)
  | .MVH_ALARM => some (6, 0, .MVH_ALARM_EN)
  | .DMON_ALARM => some (6, 32, .DMON_ALARM_EN)
  | .AUD_ALARM => some (7, 0, .AUD_ALARM_EN)
  | .SAP_ALARM => some (8, 0, .SAP_ALARM_EN)
  | .HLK_ALARM => some (9, 0, .HLK_ALARM_EN)
  | .LANE_ALARM => some (10, 0, .LANE_ALARM_EN)
  | .QUAD_ALARM => some (10, 96, .QUAD_ALARM_EN)
  | .SDI_ALARM => some (11, 0, .SDI_ALARM_EN)
  | .MAC_ALARM => some (12, 0, .MAC_ALARM_EN)
  | .FLOW_RX_ALARM => some (13, 0, .FLOW_RX_ALARM_EN)
  | .FLOW_TX_ALARM => some (13, 8192, .FLOW_TX_ALARM_EN)
  | .HBM_ALARM => some (14, 0, .HBM_ALARM_EN)
  | .MTX_ALARM => some (15, 0, .MTX_ALARM_EN)
  | .TWIN_ALARM => some (16, 0, .TWIN_ALARM_EN)
  | .PWR_ALARM => some (17, 0, .PWR_ALARM_EN)
  | .BOOT_ALARM => some (18, 0, .BOOT_ALARM_EN)
  | _ => none

/-- Adds an event to the alarm history, which keeps the newest 2,048 (R476, R491). -/
def histAdd (kind block inst code : Nat) : Prog :=
  .read fun d => ext fun x =>
    { x with boot := { x.boot with
        histSeq := x.boot.histSeq + 1
        hist := ({ kind, block, inst, code, sec := d.htSec % 2 ^ 32, ns := d.htNs, seq := x.boot.histSeq % 2 ^ 32,
                   clk := x.time.clk } :: x.boot.hist).take 2048 } }

/-- An alarm bit has been recorded within the last second (R476). -/
def Dev.histRecent (d : Dev) (block inst bit : Nat) : Bool :=
  d.x.boot.hist.any fun h =>
    h.kind == 0 && h.block == block && h.inst == inst && h.code == bit && decide (d.x.time.clk < h.clk + secU)

/-- Raises one alarm bit: the bit is set, and a rising bit enters the alarm history at most once a second (R476). -/
def raise (f : Field) : Prog :=
  .read fun d =>
    if d.flag f then .nop
    else seq [setF f 1,
      match alarmInfo f.reg.kind with
      | some (b, base, _) =>
        doIf (!d.histRecent b (base + f.reg.i) f.lo) (histAdd 0 b (base + f.reg.i) f.lo)
      | none => .nop]

/-- Raises bit `bit` of an alarm register whose field holds several. -/
def raiseBit (r : Reg) (bit : Nat) : Prog := raise ⟨r, bit, 1⟩

/-! ### The access-fault log (R449, R450) -/

/-- The kinds of access-fault log entries (R450). -/
inductive AflKind where
  | unmappedRead | unmappedWrite | partialWrite | fwOwned | windowWrite | fwTimer | apertureWrite | fwPop
  deriving DecidableEq, Repr

/-- The code of a kind (R450). -/
def AflKind.code : AflKind → Nat
  | .unmappedRead => 0 | .unmappedWrite => 1 | .partialWrite => 2 | .fwOwned => 3 | .windowWrite => 4
  | .fwTimer => 5 | .apertureWrite => 6 | .fwPop => 7

/-- Logs an access (R449, R450): ACCESS_FAULT, the counter, and an entry while the log has room. `master` is 0 for the
PCIe host, 1 for debug access, 2 for QUERY_REGS. -/
def aflPush (master : Nat) (kind : AflKind) (be controller offset data : Nat) : Prog :=
  seq [raise F.GLB_ALARM_access_fault, inc R.GLB_CNT_AFL,
    .read fun d =>
      if d.x.ctl.afl.length < 32 then
        ext fun x => { x with ctl := { x.ctl with afl := x.ctl.afl ++ [
          [2 ^ 31 + master % 4 * 2 ^ 28 + kind.code * 2 ^ 24 + be % 16 * 2 ^ 16 + controller % 2 ^ 16,
           offset % 2 ^ 26, data % 2 ^ 32, d.htSec % 2 ^ 32, d.htNs]] } }
      else seq [inc R.GLB_CNT_AFL_DROP, raise F.GLB_ALARM_afl_overflow]]

/-! ### Interrupts (R444 to R446) -/

/-- Level 1 of a stored alarm word: its block, its instance, and whether it is nonzero under its enables. -/
def Dev.level1 (d : Dev) (e : Reg × Word) : Option (Nat × Nat) :=
  match alarmInfo e.1.kind with
  | some (b, base, en) =>
    if e.2 &&& d.reg { e.1 with kind := en } = 0 then none else some (b, base + e.1.i)
  | none => none

/-- Every block and instance whose level 1 is nonzero; an alarm word that is not stored is 0. -/
def Dev.active (d : Dev) : List (Nat × Nat) := d.regs.filterMap d.level1

/-- The number with the bits of a list set. -/
def bitMask (l : List Nat) : Nat := l.foldl (fun m b => m ||| 2 ^ b) 0

/-- Word `i` of the summary window of block `b` (R444). -/
def Dev.summary (d : Dev) (b i : Nat) : Nat :=
  bitMask ((d.active.filter fun e => e.1 == b && e.2 / 32 == i).map fun e => e.2 % 32)

/-- GLB_IRQ_STATUS (R444). -/
def Dev.irqStatus (d : Dev) : Nat :=
  bitMask (d.active.map (·.1)) ||| (if d.rd R.GLB_FAULT_STATUS = 0 then 0 else 2 ^ 19)

/-- IRQ_N is driven low (R446). -/
def Dev.irqN (d : Dev) : Bool := d.irqStatus &&& d.rd R.GLB_IRQ_PIN_EN ≠ 0

/-- The vectors whose condition is true (R445). -/
def Dev.vecTrue (d : Dev) : Nat :=
  bitMask (
    ((List.range 20).filter fun b => bitOf (d.irqStatus &&& d.rd R.GLB_IRQ_MSI_EN) b).map
      (fun b => d.fld (F.GLB_IRQ_MAP_vector b)) ++
    (d.x.ctl.rings.filter fun e =>
        decide (0 < e.2.unsignalled) &&
        (decide (max 1 (d.fld (F.CMD_RING_COAL_count e.1)) ≤ e.2.unsignalled) ||
          (e.2.coalDue && decide (0 < d.fld (F.CMD_RING_COAL_time_us e.1))))).map
      fun e => d.fld (F.CMD_RING_CTRL_vector e.1))

/-- Sends the message of a vector: a masked vector sets its pending bit (R445). -/
def sendVector (v : Nat) : Prog :=
  .read fun d =>
    if bitOf d.x.ctl.vecMask v then
      ext fun x => { x with ctl := { x.ctl with vecPend := x.ctl.vecPend ||| 2 ^ v } }
    else emit (.msix v)

/-- After every command the messages of the vectors whose condition has become true are sent (R445). -/
def settle : Prog :=
  .read fun d =>
    let now := d.vecTrue
    if now = d.x.ctl.vecCond then .nop
    else seq [
      each ((List.range 64).filter fun v => bitOf now v && !bitOf d.x.ctl.vecCond v) sendVector,
      ext fun x => { x with ctl := { x.ctl with vecCond := now } }]

/-! ### When a command can act -/

/-- The core domain runs: it is out of reset, its clocks run and the device has not tripped (R492, R504, R515). -/
def Dev.live (d : Dev) : Bool := d.x.pwr.awake && d.x.pwr.up && !d.x.pwr.frozen && !d.x.pwr.tripped

/-- The parts of the device a command needs (R492): the core domain, the always-on island, or the pins only, which act
also while power-on reset holds everything. -/
inductive Domain where
  | core | island | pins
  deriving DecidableEq, Repr

/-- Whether a domain acts. -/
def Dev.acts (d : Dev) : Domain → Bool
  | .core => d.live
  | .island => d.x.pwr.awake
  | .pins => true

/-- A command's meaning: its script runs if its domain acts, then the interrupt conditions are brought up to date; the
queue is untouched. A command of a domain that does not act has no effect (assumption 4). -/
def perform (dom : Domain) (p : Prog) (s : State) : Host.Outcome State Fault Refusal :=
  .next (if s.dev.acts dom then { s with dev := (seq [p, settle]).run s.dev } else s)

end Sys2Proof.Machine
end

