-- ==== Sys2Proof/Machine/Fn.lean ====
section
/-!
DEFINITION. The function machine every function of the device follows (R28 to R35, R540, R541): its transitions, the
record of its last recovery rung, the entry to FAULT, and the escalation of the recovery ladder.
-/

namespace Sys2Proof.Machine

/-- The register that holds a function's common state word (R29). -/
def fnReg : Fn → Reg
  | .tb n => R.TB_FSTATE n
  | .dpll => R.DPLL_FSTATE
  | .otg n => R.OTG_FSTATE n
  | .src n => R.SRC_FSTATE n
  | .dst n => R.DST_FSTATE n
  | .prc n => R.PRC_FSTATE n
  | .mvh n => R.MVH_FSTATE n
  | .aud => R.AUD_FSTATE
  | .sap n => R.SAP_FSTATE n
  | .hlk n => R.HLK_FSTATE n
  | .lane n => R.LANE_FSTATE n
  | .quad n => R.QUAD_FSTATE n
  | .sdi n => R.SDI_FSTATE n
  | .mac n => R.MAC_FSTATE n
  | .flowRx n => R.FLOW_RX_FSTATE n
  | .flowTx n => R.FLOW_TX_FSTATE n
  | .hbm => R.HBM_FSTATE
  | .hbmCh n => R.HBM_CH_FSTATE n
  | .mtx => R.MTX_FSTATE
  | .twin => R.TWIN_FSTATE
  | .ring n => R.CMD_RING_FSTATE n
  | .boot => R.BOOT_FSTATE
  | .pwr => R.PWR_FSTATE

/-- The enable field of a function that has one (each chapter's register map). -/
def fnEnableField : Fn → Option Field
  | .tb n => some (F.TB_CTRL_enable n)
  | .dpll => none
  | .otg n => some (F.OTG_CTRL_enable n)
  | .src n => some (F.SRC_CTRL_enable n)
  | .dst n => some (F.DST_CTRL_enable n)
  | .prc n => some (F.PRC_CTRL_enable n)
  | .mvh n => some (F.MVH_CTRL_enable n)
  | .aud => some F.AUD_CTRL_enable
  | .sap n => some (F.SAP_CTRL_enable n)
  | .hlk n => some (F.HLK_CTRL_enable n)
  | .lane n => some (F.LANE_CTRL_enable n)
  | .quad n => some (F.QUAD_CTRL_enable n)
  | .sdi n => some (F.SDI_CTRL_enable n)
  | .mac n => some (F.MAC_CTRL_enable n)
  | .flowRx n => some (F.FLOW_RX_CTRL_enable n)
  | .flowTx n => some (F.FLOW_TX_CTRL_enable n)
  | .hbm => some F.HBM_CTRL_enable
  | .hbmCh n => some (F.HBM_CH_CTRL_enable n)
  | .mtx => none
  | .twin => some F.TWIN_CTRL_enable
  | .ring n => some (F.CMD_RING_CTRL_enable n)
  | .boot => none
  | .pwr => none

/-- A function's block b (R444). -/
def fnBlock : Fn → Nat
  | .ring _ => 0
  | .tb _ | .dpll | .otg _ => 2
  | .src _ => 3
  | .dst _ => 4
  | .prc _ => 5
  | .mvh _ => 6
  | .aud => 7
  | .sap _ => 8
  | .hlk _ => 9
  | .lane _ | .quad _ => 10
  | .sdi _ => 11
  | .mac _ => 12
  | .flowRx _ | .flowTx _ => 13
  | .hbm | .hbmCh _ => 14
  | .mtx => 15
  | .twin => 16
  | .pwr => 17
  | .boot => 18

/-- A function's instance within its block (R542). -/
def fnInst : Fn → Nat
  | .ring n => 1 + n.val
  | .tb n => 1 + n.val
  | .dpll => 5
  | .otg n => 22 + n.val
  | .src n => n.val
  | .dst n => n.val
  | .prc n => n.val
  | .mvh n => n.val
  | .aud => 0
  | .sap n => n.val
  | .hlk n => n.val
  | .lane n => n.val
  | .quad n => 96 + n.val
  | .sdi n => n.val
  | .mac n => n.val
  | .flowRx n => n.val
  | .flowTx n => 8192 + n.val
  | .hbm => 0
  | .hbmCh n => 1 + n.val
  | .mtx => 0
  | .twin => 0
  | .pwr => 0
  | .boot => 0

/-- The function of a block's instance whose common state word lies in it (R542). -/
def fnOf (block inst : Nat) : Option Fn :=
  match block with
  | 0 => if h : 1 ≤ inst ∧ inst ≤ 16 then some (.ring ⟨inst - 1, by omega⟩) else none
  | 2 =>
    if h : 1 ≤ inst ∧ inst ≤ 4 then some (.tb ⟨inst - 1, by omega⟩)
    else if inst = 5 then some .dpll
    else if h : 22 ≤ inst ∧ inst ≤ 53 then some (.otg ⟨inst - 22, by omega⟩) else none
  | 3 => if h : inst < 1024 then some (.src ⟨inst, h⟩) else none
  | 4 => if h : inst < 1024 then some (.dst ⟨inst, h⟩) else none
  | 5 => if h : inst < 512 then some (.prc ⟨inst, h⟩) else none
  | 6 => if h : inst < 32 then some (.mvh ⟨inst, h⟩) else none
  | 7 => if inst = 0 then some .aud else none
  | 8 => if h : inst < 16 then some (.sap ⟨inst, h⟩) else none
  | 9 => if h : inst < 96 then some (.hlk ⟨inst, h⟩) else none
  | 10 =>
    if h : inst < 96 then some (.lane ⟨inst, h⟩)
    else if h : 96 ≤ inst ∧ inst < 120 then some (.quad ⟨inst - 96, by omega⟩) else none
  | 11 => if h : inst < 96 then some (.sdi ⟨inst, h⟩) else none
  | 12 => if h : inst < 97 then some (.mac ⟨inst, h⟩) else none
  | 13 =>
    if h : inst < 8192 then some (.flowRx ⟨inst, h⟩)
    else if h : 8192 ≤ inst ∧ inst < 16384 then some (.flowTx ⟨inst - 8192, by omega⟩) else none
  | 14 =>
    if inst = 0 then some .hbm
    else if h : 1 ≤ inst ∧ inst ≤ 64 then some (.hbmCh ⟨inst - 1, by omega⟩) else none
  | 15 => if inst = 0 then some .mtx else none
  | 16 => if inst = 0 then some .twin else none
  | 17 => if inst = 0 then some .pwr else none
  | 18 => if inst = 0 then some .boot else none
  | _ => none

/-- The routing core of R34: ingress, scan-out, the memory system, the bus matrix, house timing and the twin link. -/
def fnRoutingCore : Fn → Bool
  | .src _ | .dst _ | .hbm | .hbmCh _ | .mtx | .tb _ | .dpll | .otg _ | .twin => true
  | _ => false

/-- The key of a function in the sparse maps. -/
def fnKey (f : Fn) : Nat := fnBlock f * 65536 + fnInst f

/-- A function's common state word. -/
def Dev.fw (d : Dev) (f : Fn) : FWord := FWord.decode (d.rd (fnReg f))

/-- A function's state. -/
def Dev.fst (d : Dev) (f : Fn) : FState := (d.fw f).state

/-- A function is ON. -/
def Dev.on (d : Dev) (f : Fn) : Bool := d.fst f == .on

/-- A function's enable; a function without an enable field counts as enabled. -/
def Dev.enabled (d : Dev) (f : Fn) : Bool :=
  match fnEnableField f with
  | some e => d.flag e
  | none => true

/-- What a function holds beside its common state word. -/
def Dev.fnm (d : Dev) (f : Fn) : FnMem := KV.get {} d.x.fns (fnKey f)

/-- Changes what a function holds beside its common state word. -/
def fnMem (f : Fn) (g : FnMem → FnMem) : Prog := ext fun x => { x with fns := KV.upd {} x.fns (fnKey f) g }

/-- Sets a function's common state word. -/
def fnPut (f : Fn) (w : FWord) : Prog := .act (.fstate (fnReg f) w)

/-- Changes a function's common state word. -/
def fnUpd (f : Fn) (g : FWord → FWord) : Prog := .read fun d => fnPut f (g (d.fw f))

/-! ### Enable and disable (R30, R31) -/

/-- An enable: OFF begins to wake; WAKING forgets a recorded disable; STOPPING records the enable. A recovery counts
from the last enable (R540). -/
def fnEnable (f : Fn) : Prog :=
  seq [fnMem f fun m => { m with recovering := false },
    .read fun d =>
      match d.fst f with
      | .off => fnUpd f fun w => { w with state := .waking, asleep := false, pendOn := false, pendOff := false }
      | .waking => fnUpd f fun w => { w with pendOff := false }
      | .stopping => fnUpd f fun w => { w with pendOn := true, pendOff := false }
      | .on => .nop
      | .fault => .nop]

/-- A disable: WAKING records it, unless it waits for another function, when the wait ends at once; ON and FAULT stop;
STOPPING forgets a recorded enable and a recorded sleep request; a sleeping function is no longer asleep. -/
def fnDisable (f : Fn) : Prog :=
  .read fun d =>
    match d.fst f with
    | .off => fnUpd f fun w => { w with asleep := false }
    | .waking =>
      if (d.fnm f).waits then
        seq [fnMem f fun m => { m with waits := false },
          fnUpd f fun w => { w with state := .stopping, pendOn := false, pendOff := false }]
      else fnUpd f fun w => { w with pendOff := true, pendOn := false }
    | .on => fnUpd f fun w => { w with state := .stopping, pendOn := false, pendOff := false }
    | .stopping =>
      seq [fnMem f fun m => { m with sleepReq := false }, fnUpd f fun w => { w with pendOn := false }]
    | .fault => fnUpd f fun w => { w with state := .stopping, pendOn := false, pendOff := false }

/-- The last reset was a warm reset that last_rung shows as rung 3 (R540). -/
def Dev.warmReset (d : Dev) : Bool :=
  let c := d.rd R.BOOT_RESET_CAUSE
  decide (1 ≤ c) && decide (c ≤ 3)

/-- Reaching ON: rung 3 is shown where the function first reaches ON after a warm reset (R540), and the recovery has ended. -/
def fnReachOn (f : Fn) : Prog :=
  .read fun d =>
    seq [fnUpd f fun w =>
        { w with state := .on, pendOn := false, pendOff := false, rung := if !(d.fnm f).seenOn && d.warmReset then 3 else w.rung },
      fnMem f fun m => { m with recovering := false, seenOn := true, waits := false }]

/-- The end of WAKING for a function that waits for nothing: STOPPING if a disable was recorded, ON otherwise. -/
def fnWoken (f : Fn) : Prog :=
  .read fun d =>
    if (d.fw f).pendOff then
      seq [fnMem f fun m => { m with waits := false }, fnUpd f fun w => { w with state := .stopping, pendOff := false }]
    else fnReachOn f

/-- The end of STOPPING (R30): WAKING if an enable was recorded, OFF otherwise, asleep if a sleep was requested. -/
def fnDrained (f : Fn) : Prog :=
  .read fun d =>
    seq [
      if (d.fw f).pendOn then
        fnUpd f fun w => { w with state := .waking, pendOn := false, asleep := false }
      else fnUpd f fun w => { w with state := .off, asleep := (d.fnm f).sleepReq },
      fnMem f fun m => { m with sleepReq := false }]

/-- A sleep request (R32): an ON function stops, with the request recorded. -/
def fnSleep (f : Fn) : Prog :=
  doWhen (fun d => d.on f) (seq [fnMem f fun m => { m with sleepReq := true }, fnUpd f fun w => { w with state := .stopping }])

/-- The wake of a sleeping function (R32, R295). -/
def fnWake (f : Fn) : Prog :=
  doWhen (fun d => d.fst f == .off && (d.fw f).asleep) (fnUpd f fun w => { w with state := .waking, asleep := false })

/-! ### Faults and recovery (R33 to R35, R540, R541) -/

/-- A fault retry did not clear: WAKING and ON pass to FAULT with the code, the entry is recorded in the alarm history
and in GLB_FAULT_STATUS (R444, R476); in any other state only the cause is recorded (R541). -/
def fnFault (f : Fn) (code : Nat) : Prog :=
  .read fun d =>
    let enter := d.fst f == .waking || d.fst f == .on
    seq [histAdd 1 (fnBlock f) (fnInst f) (code % 256),
      doIf enter (seq [
        fnMem f fun m => { m with waits := false, faultAt := d.x.time.clk },
        fnUpd f fun w => { w with state := .fault, code := code % 256, pendOn := false, pendOff := false },
        setF ⟨R.GLB_FAULT_STATUS, fnBlock f, 1⟩ 1])]

/-- Records a rung in the alarm history and in last_rung (R508, R540): the first rung of a recovery sets it, a higher one
raises it. -/
def fnRung (f : Fn) (rung : Nat) : Prog :=
  .read fun d =>
    seq [fnUpd f fun w => { w with rung := if (d.fnm f).recovering then max w.rung rung else rung },
      fnMem f fun m => { m with recovering := true }, histAdd 2 (fnBlock f) (fnInst f) rung]

/-- Re-initialisation, rung 2 (R30, R33): it has no effect in OFF and WAKING. -/
def fnReinit (f : Fn) : Prog :=
  .read fun d =>
    match d.fst f with
    | .off => .nop
    | .waking => .nop
    | .on => seq [fnRung f 2, fnUpd f fun w => { w with state := .stopping, pendOn := true, pendOff := false }]
    | .stopping => seq [fnRung f 2, fnUpd f fun w => { w with pendOn := w.pendOn || d.enabled f }]
    | .fault => seq [fnRung f 2, fnUpd f fun w => { w with state := .stopping, pendOn := d.enabled f, pendOff := false }]

/-- The instants of a list that lie within a window before now. -/
def within (now window : Nat) (l : List Nat) : List Nat := l.filter fun t => decide (now < t + window)

/-- An escalation count (R508): it starts at its first instant, and lapses at the end of its window. -/
def counted (now window : Nat) (l : List Nat) : List Nat :=
  match l with
  | [] => []
  | t :: _ => if now < t + window then l else []

/-- A failed retry (rung 1): its instant is kept for 10 s (R34, R508). -/
def fnRetryFailed (f : Fn) : Prog :=
  .read fun d => fnMem f fun m =>
    { m with retries := (counted d.x.time.clk (10 * secU) m.retries ++ [d.x.time.clk]) }

/-- Firmware's automatic rung 2, or the escalation to rung 3 after three re-initialisations within 60 s, for a function
of the routing core; any other function then stays in FAULT (R34). -/
def fnEscalate (f : Fn) : Prog :=
  .read fun d =>
    let now := d.x.time.clk
    let at_ := if d.fst f == .fault then (d.fnm f).faultAt else now
    let r := counted now (60 * secU) (d.fnm f).reinits
    if 3 ≤ r.length then
      doIf (fnRoutingCore f) (ext fun x => { x with escal := x.escal ++ [.rung3 (fnBlock f) (fnInst f)] })
    else seq [fnMem f fun m => { m with reinits := r ++ [at_], retries := [] }, fnReinit f]

/-! ### The twin's state (R401) -/

/-- TWIN_STATUS.tstate (R401). -/
def Dev.tstate (d : Dev) : Nat := d.fld F.TWIN_STATUS_tstate

/-- The unit is a standby in lockstep (R401). -/
def Dev.lockstep (d : Dev) : Bool := d.tstate == 6

/-- The unit is the active of a pair (R401). -/
def Dev.pairedActive (d : Dev) : Bool := d.tstate == 3

/-- The unit mirrors what it commits and decides: it is the active of a pair, or a standby follows its snapshot (R405, R412). -/
def Dev.mirrors (d : Dev) : Bool := d.pairedActive || (d.tstate == 2 && d.x.twin.follows)

/-! ### Arrived twin messages (R272) -/

/-- The oldest arrived message of a type passes to its receiver. -/
def twinTake (type : Nat) : Prog :=
  ext fun x => { x with twinIn := match x.twinIn.find? (·.type == type) with
    | some m => x.twinIn.erase m
    | none => x.twinIn }

/-- A status bit follows a condition, and its alarm rises with it. -/
def statusAlarm (status alarm : Field) (b : Bool) : Prog :=
  .read fun d =>
    if b == d.flag status then .nop else seq [setB status b, doIf b (raise alarm)]

/-! ### Write-through to MRAM (R470, R473) -/

/-- A record is gathered in the open window (R473); a later record of its key replaces it. -/
def mramPut (k : MramKey) (v : MramVal) : Prog :=
  ext fun x => { x with boot := { x.boot with window := x.boot.window.filter (fun e => e.1 ≠ k) ++ [(k, v)] } }

end Sys2Proof.Machine
end

