-- ==== Sys2Proof/Machine/Formats.lean ====
section
/-!
DEFINITION. Format codes, rates and rasters (R59 to R61, R75) and the arithmetic of frame periods in house time units.
-/

namespace Sys2Proof.Machine

/-- The raster part of a format code (R59). -/
def fmtRaster (f : Nat) : Nat := bitsOf f 4 4

/-- The rate part of a format code (R59). -/
def fmtRate (f : Nat) : Nat := bitsOf f 0 4

/-- The legal combinations of raster and rate (R59). -/
def fmtLegal (f : Nat) : Bool :=
  decide (f < 256) &&
  match fmtRaster f with
  | 0 => fmtRate f == 3
  | 1 => fmtRate f == 2
  | 2 => fmtRate f == 7 || fmtRate f == 8 || fmtRate f == 9
  | 3 => fmtRate f == 2 || fmtRate f == 3 || fmtRate f == 4
  | 4 => decide (fmtRate f ≤ 4)
  | 5 => decide (fmtRate f ≤ 12)
  | 6 => decide (fmtRate f ≤ 9)
  | 7 => decide (fmtRate f ≤ 9)
  | _ => false

/-- Frames per second of a rate code as a fraction (R59). -/
def rateFrac : Nat → Nat × Nat
  | 0 => (24000, 1001) | 1 => (24, 1) | 2 => (25, 1) | 3 => (30000, 1001) | 4 => (30, 1)
  | 5 => (48000, 1001) | 6 => (48, 1) | 7 => (50, 1) | 8 => (60000, 1001) | 9 => (60, 1)
  | 10 => (100, 1) | 11 => (120000, 1001) | 12 => (120, 1) | _ => (1, 1)

/-- The frame period of a rate code in units of 1/3024 ns: exact for every rate code (R61). -/
def ratePeriod (r : Nat) : Nat := secU * (rateFrac r).2 / (rateFrac r).1

/-- The frame period of a format. -/
def fmtPeriod (f : Nat) : Nat := ratePeriod (fmtRate f)

/-- The rate families (R60): 0 F50, 1 F60, 2 F59. -/
def rateFamily : Nat → Nat
  | 2 | 7 | 10 => 0
  | 1 | 4 | 6 | 9 | 12 => 1
  | _ => 2

/-- The alignment period of a family in units of 1/3024 ns (R60). -/
def familyPeriod : Nat → Nat
  | 0 => secU / 25
  | 1 => secU / 6
  | _ => secU * 1001 / 6000

/-- Scan structure: 0 progressive, 1 interlaced, 2 PsF (R59). -/
def fmtScan (f : Nat) : Nat :=
  match fmtRaster f with
  | 0 | 1 | 3 => 1
  | 4 => 2
  | _ => 0

/-- The lines of a whole frame (the raster standards R59 names): 525, 625, 750, 1125, and 2250 for 2160p and for each
quadrant of 4320p. -/
def fmtTotalLines (f : Nat) : Nat :=
  match fmtRaster f with
  | 0 => 525 | 1 => 625 | 2 => 750 | 3 | 4 | 5 => 1125 | _ => 2250

/-- The active width in pixels (R75); a quadrant of 4320p is a 2160p picture. -/
def fmtWidth (f : Nat) : Nat :=
  match fmtRaster f with
  | 0 | 1 => 720 | 2 => 1280 | 3 | 4 | 5 => 1920 | _ => 3840

/-- The active lines of a frame (R75). -/
def fmtLines (f : Nat) : Nat :=
  match fmtRaster f with
  | 0 => 486 | 1 => 576 | 2 => 720 | 3 | 4 | 5 => 1080 | _ => 2160

/-- The length of a line in units of 1/3024 ns. -/
def fmtLine (f : Nat) : Nat := fmtPeriod f / fmtTotalLines f

end Sys2Proof.Machine
end

