-- ==== Sys2Proof/Machine/SdiFmt.lean ====
section
/-!
DEFINITION. The SDI interfaces and mappings of R300, which several chapters ask for.
-/

namespace Sys2Proof.Machine

/-- The rows of R300. -/
inductive SdiIf where
  | st259 | st292 | levelA | levelB | st2081 | st2082 | quad3g | quad12g
  deriving DecidableEq, Repr

/-- 720p at 0x7 to 0x9, 1080i at 0x2 to 0x4, 1080PsF and 1080p at 0x0 to 0x4 (R300). -/
def sdiLow (f : Nat) : Bool :=
  let r := fmtRate f
  match fmtRaster f with
  | 2 => decide (7 ≤ r) && decide (r ≤ 9)
  | 3 => decide (2 ≤ r) && decide (r ≤ 4)
  | 4 | 5 => decide (r ≤ 4)
  | _ => false

/-- The rows of R300 that a format code, a sampling and a depth code (0 8, 1 10, 2 12 bits) fit, in their order. -/
def sdiRows (f s dep : Nat) : List SdiIf :=
  let ra := fmtRaster f
  let r := fmtRate f
  let d10 := dep == 1
  let d1012 := dep == 1 || dep == 2
  let d810 := decide (dep ≤ 1)
  let c444 := s == 1 || s == 2
  let c4444 := s == 3 || s == 4
  let fast := decide (7 ≤ r) && decide (r ≤ 9)
  if !fmtLegal f then [] else
  (if decide (ra ≤ 1) && s == 0 && d810 then [.st259] else []) ++
  (if sdiLow f && s == 0 && d810 then [.st292] else []) ++
  (if (ra == 5 && decide (5 ≤ r) && decide (r ≤ 9) && s == 0 && d10) ||
      (sdiLow f && ((c444 && d1012) || (c4444 && d10))) then [.levelA] else []) ++
  (if ra == 5 && fast && s == 0 && d10 then [.levelB] else []) ++
  (if (ra == 6 && decide (r ≤ 4) && s == 0 && d10) || (ra == 5 && fast && c444 && d1012) then [.st2081] else []) ++
  (if (ra == 6 && decide (5 ≤ r) && decide (r ≤ 9) && s == 0 && d10) || (ra == 6 && decide (r ≤ 4) && c444 && d1012)
    then [.st2082] else []) ++
  (if ra == 6 && fast && s == 0 && d10 then [.quad3g] else []) ++
  (if ra == 7 && decide (r ≤ 9) && s == 0 && d10 then [.quad12g] else [])

/-- The lane rate code of a row for a frame-rate code (R300): even codes for the integer rates, odd ones for /1.001. -/
def SdiIf.lane (i : SdiIf) (rate : Nat) : Nat :=
  let odd := boolBit (rate == 0 || rate == 3 || rate == 5 || rate == 8)
  match i with
  | .st259 => 0xC
  | .st292 => 0xA + odd
  | .levelA | .levelB | .quad3g => 8 + odd
  | .st2081 => 6 + odd
  | .st2082 | .quad12g => 4 + odd

/-- The row a destination or a lane transmits with (R301, R302): `quad` is SDI_CTRL.quad_link, `b` tx_mapping. -/
def sdiRow (f s dep : Nat) (quad b : Bool) : Option SdiIf :=
  let rows := (sdiRows f s dep).filter fun i => (i == .quad3g) == quad
  match rows.filter fun i => if b then i == .levelB else i ≠ .levelB with
  | i :: _ => some i
  | [] => rows.head?

/-- The audio channels an SDI row embeds (R218). -/
def SdiIf.channels (i : SdiIf) (rate96 : Bool) : Nat :=
  match i with
  | .st259 => if rate96 then 0 else 16
  | .st292 => if rate96 then 8 else 16
  | _ => if rate96 then 16 else 32

end Sys2Proof.Machine
end

