-- ==== Sys2Proof/Machine/House.lean ====
section
/-!
DEFINITION. House timing: the five scales (R36 to R40), snapshots, steps, sets and slews of time bases (R44), output
timing generators and realignment (R59 to R64), pulse outputs (R65) and event timers (R66, R67).
-/

namespace Sys2Proof.Machine

/-! ### Scales -/

/-- Changes the time state. -/
def timeUpd (f : TimeState → TimeState) : Prog := ext fun x => { x with time := f x.time }

/-- What a time base holds. -/
def Dev.tbm (d : Dev) (n : Nat) : TbClock := KV.get {} d.x.time.tb n

/-- Changes what a time base holds. -/
def tbUpd (n : Nat) (f : TbClock → TbClock) : Prog := timeUpd fun t => { t with tb := KV.upd {} t.tb n f }

/-- A time base runs on its own count only in PTP_SLAVE; in HOUSE and PTP_MASTER it equals HT (R40). -/
def Dev.tbOwn (d : Dev) (n : Nat) : Bool := d.fld (F.TB_CTRL_mode n) == 1

/-- A scale's time in units of 1/3024 ns: 0 is HT, 1 to 4 are TB0 to TB3. -/
def Dev.scale (d : Dev) (s : Nat) : Nat :=
  if s = 0 then d.x.time.ht else if d.tbOwn (s - 1) then (d.tbm (s - 1)).t else d.x.time.ht

/-- The units of a time given as seconds and nanoseconds. -/
def timeOf (sec ns : Nat) : Nat := sec % 2 ^ 48 * secU + ns * nsU

/-- The scales that read HT: HT itself and every time base that does not run on its own count. -/
def Dev.htScales (d : Dev) : List Nat := 0 :: ((List.range 4).filter fun n => !d.tbOwn n).map (· + 1)

/-- What an OTG holds. -/
def Dev.otgm (d : Dev) (n : Nat) : OtgMem := KV.get {} d.x.time.otg n

/-- Changes what an OTG holds. -/
def otgUpd (n : Nat) (f : OtgMem → OtgMem) : Prog := timeUpd fun t => { t with otg := KV.upd {} t.otg n f }

/-- What an event timer holds. -/
def Dev.evtm (d : Dev) (n : Nat) : EvtMem := KV.get {} d.x.time.evt n

/-- A number reduced modulo a period into −P/2 < s ≤ P/2 (R64). -/
def centred (p : Nat) (x : Int) : Int :=
  let r := x % (p : Int)
  if 2 * r ≤ p then r else r - p

/-- The phase of an OTG's current frame against the rule of R61, in units of 1/3024 ns. -/
def OtgMem.phase (o : OtgMem) : Int := centred (fmtPeriod o.format) (o.start - o.offset * nsU)

/-- OTG_STATUS.misaligned: the phase differs from the rule by more than 1 ns (R64). -/
def otgMisaligned (n : Nat) : Prog :=
  .read fun d =>
    let o := d.otgm n
    setB (F.OTG_STATUS_misaligned n) (o.started && decide ((nsU : Int) < o.phase.natAbs))

/-- The outputs of a scale that has stepped by `by_` keep their phase: an OTG's frame start and a pulse output's skew
move with the scale's reading (R44, R65), and misaligned is brought up to date. -/
def scaleShift (scales : List Nat) (by_ : Int) : Prog :=
  .read fun d =>
    let hit := (List.range 32).filter fun n => (d.otgm n).started && scales.contains (d.otgm n).src
    seq [
      each hit fun n => otgUpd n fun o => { o with start := o.start + by_ },
      each hit otgMisaligned,
      doIf (scales.contains (d.fld F.PPS_OUT_CTRL_scale))
        (timeUpd fun t => { t with pulseSkew := KV.upd 0 t.pulseSkew 0 (· + by_) }),
      each ((List.range 4).filter fun n => scales.contains (d.fld (F.WCLK_OUT_CTRL_scale n))) fun n =>
        timeUpd fun t => { t with pulseSkew := KV.upd 0 t.pulseSkew (16 + n) (· + by_) }]

/-! ### Event timers (R66, R67) -/

/-- Sets or clears a GPIO pin. -/
def gpioSet (pin : Nat) (level : Bool) : Prog :=
  seq [ext fun x => { x with gpio := putBits x.gpio pin 1 (boolBit level) }, emit (.gpio pin level)]

/-- What a timer does when it fires; `stepped` says that a step of its scale crossed its time (R67). A firmware timer
fires the chain or starts the update it was armed for. -/
def evtFire (n : Nat) (stepped : Bool) : Prog :=
  .read fun d =>
    let e := d.evtm n
    seq [
      setF (F.EVT_CTRL_arm n) 0,
      setF (F.EVT_STATUS_state n) (if e.late then 3 else 2),
      setB (F.EVT_STATUS_stepped n) stepped,
      match e.action with
      | 1 => raise F.TIME_IRQ_STATUS_evt_fired
      | 2 => doIf (decide (e.target < 32)) (gpioSet e.target true)
      | 3 => doIf (decide (e.target < 32)) (gpioSet e.target false)
      | 4 => doIf (decide (e.target < 32)) (emit (.gpioPulse e.target))
      | 5 => doIf (decide (n < 48)) (ext fun x => { x with chainDue := x.chainDue ++ [(e.target, e.due, e.scale)] })
      | _ => .nop,
      match KV.get none d.x.time.evtFw n with
      | some .activate => ext fun x => { x with activateDue := true }
      | some (.chain c) => ext fun x => { x with chainDue := x.chainDue ++ [(c, e.due, e.scale)] }
      | none => .nop,
      timeUpd fun t => { t with evtFw := KV.set none t.evtFw n none }]

/-- A scale was set or stepped from `old` to `now`: armed timers whose time it crossed fire at the step (R67). -/
def scaleCross (scales : List Nat) (old now : Nat) : Prog :=
  .read fun d =>
    each ((List.range 64).filter fun n =>
        d.fld (F.EVT_STATUS_state n) == 1 && scales.contains (d.evtm n).scale &&
        decide (old < (d.evtm n).due) && decide ((d.evtm n).due ≤ now)) fun n => evtFire n true

/-- Arms or re-arms a timer with the values its registers hold (R67). -/
def evtArm (n : Nat) : Prog :=
  .read fun d =>
    let due := timeOf (d.fld (F.EVT_SEC_LO n) + d.fld (F.EVT_SEC_HI n) * 2 ^ 32) (d.fld (F.EVT_NS n))
    let scale := d.fld (F.EVT_CTRL_scale n)
    let m : EvtMem :=
      { due := due, scale := scale, action := d.fld (F.EVT_CTRL_action n), target := d.fld (F.EVT_CTRL_target n)
        late := decide (due < d.scale scale) }
    seq [
      timeUpd fun t => { t with evt := KV.set {} t.evt n m },
      setF (F.EVT_CTRL_arm n) 1, setF (F.EVT_STATUS_state n) 1, setF (F.EVT_STATUS_stepped n) 0]

/-- Disarms a timer. -/
def evtDisarm (n : Nat) : Prog :=
  seq [setF (F.EVT_CTRL_arm n) 0,
    doWhen (fun d => d.fld (F.EVT_STATUS_state n) == 1) (setF (F.EVT_STATUS_state n) 0),
    timeUpd fun t => { t with evtFw := KV.set none t.evtFw n none }]

/-! ### Steps and sets -/

/-- Moves HT, and with it every scale that equals it, by a signed number of units. -/
def htMove (by_ : Int) : Prog :=
  .read fun d =>
    let old := d.x.time.ht
    let new := ((old : Int) + by_).toNat
    seq [timeUpd fun t => { t with ht := new },
      scaleShift d.htScales ((new : Int) - old), scaleCross d.htScales old new]

/-- Moves a time base that runs on its own count by a signed number of units. -/
def tbMove (n : Nat) (by_ : Int) : Prog :=
  .read fun d =>
    let old := (d.tbm n).t
    let new := ((old : Int) + by_).toNat
    seq [tbUpd n fun b => { b with t := new },
      scaleShift [n + 1] ((new : Int) - old), scaleCross [n + 1] old new]

/-- A step of a time base by TB_ADJ_VALUE (R44): it replaces a running slew; it has no effect unless the time base runs
on its own count (R40). -/
def tbStep (n : Nat) : Prog :=
  doWhen (fun d => d.tbOwn n) (.read fun d => seq [
    tbUpd n fun b => { b with slewLeft := 0, slewAcc := 0 },
    setF (F.TB_ADJ_STATUS_slew_active n) 0,
    tbMove n (d.sfld (F.TB_ADJ_VALUE n) * 189)])

/-- Starts or replaces a slew by TB_ADJ_VALUE (R44). -/
def tbSlew (n : Nat) : Prog :=
  doWhen (fun d => d.tbOwn n) (.read fun d => seq [
    tbUpd n fun b => { b with slewLeft := d.sfld (F.TB_ADJ_VALUE n) * 189, slewAcc := 0 },
    setB (F.TB_ADJ_STATUS_slew_active n) (d.sfld (F.TB_ADJ_VALUE n) ≠ 0)])

/-- Sets a time base that runs on its own count (R44). -/
def tbSetTo (n : Nat) (to_ : Nat) : Prog :=
  doWhen (fun d => d.tbOwn n) (.read fun d => tbMove n ((to_ : Int) - (d.tbm n).t))

/-- The servo's lock changes (R41), raising tb_lock. -/
def servoLock (n : Nat) (locked : Bool) : Prog :=
  doWhen (fun d => d.flag (F.TB_LOCK_servo_locked n) ≠ locked)
    (seq [setB (F.TB_LOCK_servo_locked n) locked, raise F.TIME_IRQ_STATUS_tb_lock])

/-- Writes TB_CTRL.mode and the fields beside it: a time base that leaves HT for its own count starts it at HT; one that
goes back to HT has no servo and no slew, and its scale steps to HT (R40, R67). -/
def tbWriteCtrl (n : Nat) (v : Nat) : Prog :=
  .read fun d =>
    let own := bitsOf v 2 2 == 1
    let old := (d.tbm n).t
    seq [
      doIf (own && !d.tbOwn n) (tbUpd n fun b => { b with t := d.x.time.ht, slewLeft := 0, slewAcc := 0 }),
      wr (R.TB_CTRL n) (putBits v 0 1 (d.fld (F.TB_CTRL_enable n))),
      doIf (!own && d.tbOwn n) (seq [
        servoLock n false,
        tbUpd n fun b => { b with slewLeft := 0, slewAcc := 0 }, setF (F.TB_ADJ_STATUS_slew_active n) 0,
        scaleShift [n + 1] ((d.x.time.ht : Int) - old), scaleCross [n + 1] old d.x.time.ht])]

/-- The words of one snapshot of a scale: sixteenths, nanoseconds, seconds low and high (R36, R38). -/
def snapWords (t : Nat) : List Nat :=
  [t % nsU / 189, t % secU / nsU, t / secU % 2 ^ 32, t / secU / 2 ^ 32 % 2 ^ 16]

/-- Captures all five scales at one instant into the writer's snapshot set (R38). -/
def timeSnap (who : Writer) : Prog :=
  .read fun d =>
    match who with
    | .firmware => timeUpd fun t => { t with ccSnap := (List.range 5).flatMap fun s => snapWords (d.scale s) }
    | .host =>
      seq [each (List.range 5) fun s =>
          let w := snapWords (d.scale s)
          seq [wr (R.TIME_SNAP_FRAC s) (w.getD 0 0), wr (R.TIME_SNAP_NS s) (w.getD 1 0),
            wr (R.TIME_SNAP_SEC_LO s) (w.getD 2 0), wr (R.TIME_SNAP_SEC_HI s) (w.getD 3 0)],
        setF F.TIME_STATUS_snap_valid 1]

/-! ### Output timing generators (R59 to R64) -/

/-- The OTG's frame count k (R61). -/
def Dev.otgFrame (d : Dev) (n : Nat) : Nat := d.rd64 (R.OTG_FRAME_LO n) (R.OTG_FRAME_HI n)

/-- The realignment that waits is done for one OTG; when the last has realigned, pending clears and realign_done is
raised (R63). -/
def otgRealigned (n : Nat) : Prog :=
  .read fun d =>
    doIf (d.x.time.dpll.realignLeft.contains n) (seq [
      timeUpd fun t => { t with dpll := { t.dpll with realignLeft := t.dpll.realignLeft.filter (· ≠ n) } },
      doWhen (fun e => e.x.time.dpll.realignLeft.isEmpty) (seq [
        setF F.DPLL_REALIGN_STATUS_pending 0, raise F.TIME_IRQ_STATUS_realign_done])])

/-- The offset that governs an OTG's rule: OTG_OFFSET as written (R62). -/
def Dev.otgOffset (d : Dev) (n : Nat) : Int := d.sfld (F.OTG_OFFSET n)

/-- An OTG begins its next frame (R61, R62, R64). The first frame after WAKING begins at the first instant of the rule
at or after now; a later frame begins one frame length after the last. A waiting realignment or a latched offset sets
this frame's length so that the next frame begins by the rule. -/
def otgBoundary (n : Nat) : Prog :=
  .read fun d =>
    let o := d.otgm n
    let p := fmtPeriod o.format
    let off := d.otgOffset n
    let first : Int := off * nsU + ((((d.scale o.src : Int) - off * nsU) + p - 1) / p) * p
    let start : Int := if o.started then o.start + o.length else first
    let realignedLast := d.flag (F.OTG_STATUS_realigned_last n)
    let kRule := ((start - o.offset * nsU) / p).toNat
    let k := if o.started && !realignedLast then d.otgFrame n + 1 else if o.started then kRule
      else ((start - off * nsU) / p).toNat
    let move := o.started && (o.realign || off ≠ o.offset)
    let s : Int := if move then centred p (off * nsU - start) else 0
    seq [
      otgUpd n fun m => { m with start, started := true, realign := false, offset := off
                                 length := ((p : Int) + s).toNat },
      set64 (R.OTG_FRAME_LO n) (R.OTG_FRAME_HI n) k,
      doIf move (wr (R.OTG_LAST_ADJ n) (codeOf 32 (s.tdiv nsU))),
      setB (F.OTG_STATUS_realigned_last n) move,
      setF (F.OTG_STATUS_realign_pending n) 0,
      otgMisaligned n,
      doIf (move && o.realign) (otgRealigned n)]

/-- What an OTG latches when it enters WAKING (R62). -/
def otgLatch (n : Nat) : Prog :=
  .read fun d => seq [
    otgUpd n fun _ => { format := d.fld (F.OTG_CTRL_format n), src := d.fld (F.OTG_CTRL_time_src n)
                        offset := d.otgOffset n },
    setF (F.OTG_STATUS_format n) (d.fld (F.OTG_CTRL_format n)),
    setF (F.OTG_STATUS_time_src n) (d.fld (F.OTG_CTRL_time_src n))]

/-- The fault an OTG's configuration gives when it enters WAKING (R59, R62, R69). -/
def Dev.otgConfigFault (d : Dev) (n : Nat) : Option Nat :=
  let o := d.otgm n
  if !fmtLegal o.format then some 0x01
  else if 5 ≤ o.src then some 0x02
  else if h : 1 ≤ o.src ∧ o.src ≤ 4 then
    if d.on (.tb ⟨o.src - 1, by omega⟩) then none else some 0x02
  else none

/-! ### Realignment (R63) -/

/-- Arms a realignment; a second one while it is pending has no further effect. -/
def realignArm : Prog :=
  doWhen (fun d => !d.flag F.DPLL_REALIGN_STATUS_pending) (seq [
    setF F.DPLL_REALIGN_STATUS_pending 1, setF F.DPLL_REALIGN_STATUS_ht_stepped 0,
    timeUpd fun t => { t with dpll := { t.dpll with stepPending := true } }])

/-- A candidate bears time: a time base in PTP_SLAVE, or a PPS reference whose seconds have been set (R39). -/
def Dev.timeBearing (d : Dev) (c : Nat) : Bool :=
  if c < 4 then d.tbOwn c
  else if c = 6 ∨ c = 7 then
    (KV.get {} d.x.time.ref c).secondsSet.isSome && d.fld (F.REF_CTRL_input_use c) != 2
  else false

/-- The DPLL is LOCKED to a time-bearing candidate (R39). -/
def Dev.timeLocked (d : Dev) : Bool :=
  d.fld F.DPLL_STATE_state == 2 && d.timeBearing (d.fld F.DPLL_STATE_selected_ref)

/-- At the next whole second of HT the build-out is taken out of HT, and every enabled OTG and every pulse output
realigns at its next boundary or pulse (R63). -/
def realignStep : Prog :=
  doWhen (fun d => d.x.time.dpll.stepPending) (.read fun d =>
    let left := (List.range 32).filter fun n => d.fst (.otg (Fin.ofNat 32 n)) == .on && (d.otgm n).started
    seq [
      htMove (-(d.sfld F.DPLL_BUILDOUT) * nsU),
      wr R.DPLL_BUILDOUT 0,
      setF F.DPLL_REALIGN_STATUS_ht_stepped 1,
      doIf d.timeLocked (setF F.TIME_STATUS_ht_traceable 1),
      timeUpd fun t => { t with
        dpll := { t.dpll with stepPending := false, realignLeft := left }
        pulseRealign := [0, 16, 17, 18, 19] },
      each left fun n => seq [otgUpd n fun o => { o with realign := true }, setF (F.OTG_STATUS_realign_pending n) 1],
      doIf left.isEmpty (seq [setF F.DPLL_REALIGN_STATUS_pending 0, raise F.TIME_IRQ_STATUS_realign_done])])

/-! ### Pulse outputs (R65) -/

/-- The next instant at or after `t` of a pulse train of period `p` and skew `skew`. -/
def nextInstant (p : Nat) (skew : Int) (t : Nat) : Int := skew + (((t : Int) - skew + p - 1) / p) * p

/-- The instant of a frame output's edge within its OTG's frame: the frame start, the start of the field in progress,
the family alignment point last passed, or the start of the line in progress (R65). -/
def Dev.frameOutInstant (d : Dev) (n : Nat) : Int :=
  let g := d.fld (F.FRAME_OUT_CTRL_otg n)
  let o := d.otgm g
  let into := ((d.scale o.src : Int) - o.start).toNat
  match d.fld (F.FRAME_OUT_CTRL_kind n) with
  | 0 => o.start
  | 1 => if 0 < fmtScan o.format ∧ fmtPeriod o.format ≤ 2 * into then o.start + fmtPeriod o.format / 2 else o.start
  | 2 => o.start - (o.start - o.offset * nsU) % familyPeriod (rateFamily (fmtRate o.format))
  | _ => o.start + (into / fmtLine o.format) * fmtLine o.format

/-- A pulse output emits its edge: its instant on its scale, its width in units of 10 ns and its polarity. -/
def pulseEdge (o : PulseOut) : Prog :=
  match o with
  | .pps =>
    doWhen (fun d => d.flag F.PPS_OUT_CTRL_enable) (.read fun d =>
      let skew := if d.x.time.pulseRealign.contains 0 then 0 else KV.get 0 d.x.time.pulseSkew 0
      seq [
        timeUpd fun t => { t with pulseSkew := KV.set 0 t.pulseSkew 0 skew
                                  pulseRealign := t.pulseRealign.filter (· ≠ 0) },
        emit (.pulse .pps (nextInstant secU skew (d.scale (d.fld F.PPS_OUT_CTRL_scale)))
          (d.fld F.PPS_OUT_CTRL_width) (!d.flag F.PPS_OUT_CTRL_polarity))])
  | .frame n =>
    doWhen (fun d => d.flag (F.FRAME_OUT_CTRL_enable n) && (d.otgm (d.fld (F.FRAME_OUT_CTRL_otg n))).started)
      (.read fun d => emit (.pulse (.frame n) (d.frameOutInstant n) (d.fld (F.FRAME_OUT_CTRL_width n))
        (!d.flag (F.FRAME_OUT_CTRL_polarity n))))
  | .wclk n =>
    doWhen (fun d => d.flag (F.WCLK_OUT_CTRL_enable n) && decide (d.fld (F.WCLK_OUT_CTRL_rate n) ≤ 1)) (.read fun d =>
      let skew := if d.x.time.pulseRealign.contains (16 + n.val) then 0 else KV.get 0 d.x.time.pulseSkew (16 + n)
      let p := if d.fld (F.WCLK_OUT_CTRL_rate n) = 0 then secU / 48000 else secU / 96000
      seq [
        timeUpd fun t => { t with pulseSkew := KV.set 0 t.pulseSkew (16 + n) skew
                                  pulseRealign := t.pulseRealign.filter (· ≠ 16 + n.val) },
        emit (.pulse (.wclk n) (nextInstant p skew (d.scale (d.fld (F.WCLK_OUT_CTRL_scale n)))) (p / (20 * nsU))
          (!d.flag (F.WCLK_OUT_CTRL_polarity n)))])

/-! ### One house clock cycle -/

/-- How far a time base's own count moves in `u` units of the house clock: the cycle itself, its trim in units of
2^-40, and a running slew at TB_SLEW units of 0.01 ppm until it is absorbed (R37, R40, R44). -/
def tbAdvance (u : Nat) (trim : Int) (rate : Nat) (b : TbClock) : TbClock :=
  let ta := b.trimAcc + u * clampI (-549755814) 549755814 trim
  let tstep := ta / 2 ^ 40
  let sgn : Int := if b.slewLeft < 0 then -1 else if b.slewLeft = 0 then 0 else 1
  let sa := b.slewAcc + sgn * (u * clampN 1 50000 rate : Nat)
  let want := sa.tdiv 100000000
  let sstep := if b.slewLeft.natAbs ≤ want.natAbs then b.slewLeft else want
  { t := ((b.t : Int) + u + tstep + sstep).toNat
    trimAcc := ta % 2 ^ 40
    slewLeft := b.slewLeft - sstep
    slewAcc := if b.slewLeft = sstep then 0 else sa - want * 100000000 }

/-- One cycle of the 1.5 GHz house clock is 2/3 ns (R37). -/
def cycleU : Nat := 2016

/-- One house clock cycle: the house clock and HT advance, and so does each time base on its own count (R37). -/
def houseCycle : Prog :=
  .read fun d => timeUpd fun t => { t with
    clk := t.clk + cycleU
    ht := t.ht + cycleU
    tb := (List.range 4).foldl (fun m n =>
      if d.tbOwn n then
        KV.upd {} m n (tbAdvance cycleU (d.sfld (F.TB_FREQ_ADJ n)) (d.fld (F.TB_SLEW n)))
      else m) t.tb }

/-! ### Meanings: time bases, snapshots, OTGs, pulses and timers -/

/-- TIME_SNAP (R38). -/
def execTimeSnap (who : Writer) (s : State) : Host.Outcome State Fault Refusal := perform .core (timeSnap who) s

/-- TB_ADJ_STEP (R44, R67). -/
def execTbAdjStep (n : TbId) (s : State) : Host.Outcome State Fault Refusal := perform .core (tbStep n) s

/-- TB_ADJ_SLEW (R44). -/
def execTbAdjSlew (n : TbId) (s : State) : Host.Outcome State Fault Refusal := perform .core (tbSlew n) s

/-- TB_SLEW_COMPLETE (R44): what is left of the slew is absorbed, and slew_active clears. -/
def execTbSlewComplete (n : TbId) (s : State) : Host.Outcome State Fault Refusal :=
  perform .core (doWhen (fun d => d.flag (F.TB_ADJ_STATUS_slew_active n)) (seq [
    tbUpd n fun b => { b with t := ((b.t : Int) + b.slewLeft).toNat, slewLeft := 0, slewAcc := 0 },
    setF (F.TB_ADJ_STATUS_slew_active n) 0])) s

/-- TB_SET (R44, R67): the time base takes the TB_SET value at the cycle of the write. -/
def execTbSet (n : TbId) (s : State) : Host.Outcome State Fault Refusal :=
  perform .core (.read fun d => tbSetTo n
    (timeOf (d.fld (F.TB_SET_SEC_LO n) + d.fld (F.TB_SET_SEC_HI n) * 2 ^ 32) (d.fld (F.TB_SET_NS n)))) s

/-- HT_SECONDS_STORE (R39): firmware stores the whole seconds of HT in the MRAM store. -/
def execHtSecondsStore (s : State) : Host.Outcome State Fault Refusal :=
  perform .core (.read fun d => ext fun x => { x with boot := { x.boot with htStored := some d.htSec } }) s

/-- DPLL_REALIGN (R63). -/
def execDpllRealign (s : State) : Host.Outcome State Fault Refusal := perform .core realignArm s

/-- HT_REALIGN_STEP (R63, R39). -/
def execHtRealignStep (s : State) : Host.Outcome State Fault Refusal := perform .core realignStep s

/-- PULSE_OUTPUT_EDGE (R65). -/
def execPulseOutputEdge (o : PulseOut) (s : State) : Host.Outcome State Fault Refusal := perform .core (pulseEdge o) s

/-- Firmware's timers refuse the host's writes, which are logged (R66, R449). -/
def evtOwned (n : EvtId) (who : Writer) (data : Nat) (p : Prog) : Prog :=
  if n.val < 48 ∧ who = .host then aflPush 0 .fwTimer 15 0 (R.EVT_CTRL n).addr data else p

/-- EVT_ARM (R67). -/
def execEvtArm (n : EvtId) (who : Writer) (s : State) : Host.Outcome State Fault Refusal :=
  perform .core (.read fun d => evtOwned n who (putBits (d.rd (R.EVT_CTRL n)) 0 1 1) (evtArm n)) s

/-- EVT_DISARM (R67). -/
def execEvtDisarm (n : EvtId) (who : Writer) (s : State) : Host.Outcome State Fault Refusal :=
  perform .core (.read fun d => evtOwned n who (putBits (d.rd (R.EVT_CTRL n)) 0 2 2) (evtDisarm n)) s

/-- EVT_FIRE (R66, R67): an armed timer whose scale has reached its time fires. -/
def execEvtFire (n : EvtId) (s : State) : Host.Outcome State Fault Refusal :=
  perform .core (doWhen (fun d => d.fld (F.EVT_STATUS_state n) == 1 &&
    decide ((d.evtm n).due ≤ d.scale (d.evtm n).scale)) (evtFire n false)) s

end Sys2Proof.Machine
end

