-- ==== Sys2Proof/Machine/Dpll.lean ====
section
/-!
DEFINITION. Candidate references and their qualification (R45 to R49), the DPLL's selection and states (R50 to R56),
holdover (R57, R58), the PTP servo's lock (R41) and the faults of house timing (R69).
-/

namespace Sys2Proof.Machine

/-- What a candidate holds. -/
def Dev.refm (d : Dev) (n : Nat) : RefCand := KV.get {} d.x.time.ref n

/-- Changes what a candidate holds. -/
def refUpd (n : Nat) (f : RefCand → RefCand) : Prog := timeUpd fun t => { t with ref := KV.upd {} t.ref n f }

/-- Changes what the DPLL holds. -/
def dpllUpd (f : DpllMem → DpllMem) : Prog := timeUpd fun t => { t with dpll := f t.dpll }

/-- A candidate's qualification state (R49). -/
def Dev.qstate (d : Dev) (n : Nat) : Nat := d.fld (F.REF_STATE_qstate n)

/-- Changes a candidate's qualification state, raising ref_state. -/
def refPut (n q : Nat) : Prog :=
  doWhen (fun d => d.qstate n ≠ q) (seq [setF (F.REF_STATE_qstate n) q, raise F.TIME_IRQ_STATUS_ref_state])

/-- A cause that disqualifies a candidate, kept until the next tick applies it (R47, R52). -/
def refCause (n cause : Nat) : Prog :=
  refUpd n fun c => { c with causes := c.causes ++ [cause] }

/-! ### Measurements (R46 to R48) -/

/-- The analogue formats R46 permits. -/
def anaFormat (f : Nat) : Bool := fmtLegal f && decide (fmtRaster f ≤ 5) && decide (fmtRate f ≤ 9)

/-- Every criterion of the candidate's type holds (R47): `m` is what this tick measured. -/
def Dev.refCrit (d : Dev) (n : Nat) (m : RefMeas) : Bool :=
  let c := d.refm n
  let inRange := decide (m.freq.natAbs ≤ 10000)
  if n < 4 then
    d.on (.tb (Fin.ofNat 4 n)) && d.tbOwn n && d.flag (F.TB_LOCK_servo_locked n)
  else if n < 6 then m.present && inRange && anaFormat (d.fld (F.REF_ANA_FMT_format n)) && !c.causes.contains 6
  else if n < 8 then m.present && inRange && !c.hitSince
  else d.flag (F.LANE_STATUS_cdr_lock (d.fld (F.REF_CTRL_lane n))) && inRange

/-- The disqualifying causes this tick finds, beside those kept since the last one (R47). -/
def Dev.refCauses (d : Dev) (n : Nat) (m : RefMeas) : List Nat :=
  let loss :=
    if n < 4 then (if d.refCrit n m then [] else [5])
    else if n < 8 then (if m.present then [] else [1])
    else if d.flag (F.LANE_STATUS_cdr_lock (d.fld (F.REF_CTRL_lane n))) then [] else [1]
  (d.refm n).causes ++ loss ++ (if 10000 < m.freq.natAbs then [3] else [])

/-- An edge on a reference input is judged against its expected instant (R46, R47). -/
def refPulse (n : Nat) (e : RefEdge) : Prog :=
  .read fun d =>
    match e with
    | .frame onLine lines =>
      doIf ((n == 4 || n == 5) && (!onLine || lines ≠ fmtTotalLines (d.fld (F.REF_ANA_FMT_format n)))) (refCause n 6)
    | .pps t freqSecond =>
      let c := d.refm n
      let second :=
        if d.fld (F.REF_CTRL_input_use n) = 0 then freqSecond
        else if c.intervals.isEmpty then secU else c.intervals.sum / c.intervals.length
      let hit := match c.lastEdge with
        | some p => decide (100 * (nsU : Int) < (((t : Int) - p - second).natAbs : Nat))
        | none => false
      doIf ((n == 6 || n == 7) && d.fld (F.REF_CTRL_input_use n) ≠ 2) (seq [
        refUpd n fun c => { c with
          lastEdge := some t
          hitSince := hit
          intervals := match c.lastEdge with
            | some p => ((t - p) :: c.intervals).take 10
            | none => c.intervals },
        doIf hit (refCause n 2)])

/-- The window of the drift monitor in seconds, 10 to 10,000 (R48). -/
def Dev.driftWindow (d : Dev) (n : Nat) : Nat := clampN 10 10000 (d.fld (F.REF_DRIFT_window n))

/-- The drift monitor's computation once a second (R48): REF_DRIFT is in units of 0.01 ppm, the offsets in 0.001 ppm. -/
def refDrift (n : Nat) (freq : Int) : Prog :=
  .read fun d =>
    let l := (freq :: (d.refm n).drift).take (d.driftWindow n)
    let mean := l.sum / (l.length : Int)
    seq [
      refUpd n fun c => { c with drift := l },
      wr (R.REF_FREQ n) (codeOf 32 freq),
      wr (R.REF_DRIFT_MEAN n) (codeOf 32 mean),
      doIf (l.length == d.driftWindow n &&
          decide ((10 * d.fld (F.REF_DRIFT_tolerance n) * l.length : Nat) < l.sum.natAbs)) (refCause n 4)]

/-! ### Holdover (R57) -/

/-- The LOCKED control words within the averaging window that ends the guard before tick `ref`. -/
def Dev.holdoverSamples (d : Dev) (ref : Nat) : List Int :=
  let w := 1000 * max 60 (d.fld F.DPLL_HOLDOVER_window)
  let g := 1000 * d.fld F.DPLL_HOLDOVER_guard
  (d.x.time.dpll.hist.filter fun e => decide (e.1 + g ≤ ref) && decide (ref < e.1 + g + w)).map (·.2)

/-- Computes the holdover value for a reference instant: sufficient if at least 60 s of LOCKED time lie in the window;
without, what remains is nominal frequency. -/
def holdover (ref : Nat) : Prog :=
  .read fun d =>
    let l := d.holdoverSamples ref
    let ok := decide (60000 ≤ l.length)
    let v := l.sum / (max 1 l.length : Int)
    seq [
      setB F.DPLL_STATE_holdover_valid ok,
      doIf ok (seq [wr R.DPLL_HO_VALUE (codeOf 32 v), setF F.DPLL_HO_SPAN (l.length / 1000)]),
      dpllUpd fun m => { m with hoOk := ok, target := if ok then v else 0, hoLast := if ok then some v else m.hoLast }]

/-! ### Selection (R50, R51) -/

/-- The lower of two candidates by priority, then by index. -/
def Dev.refBetter (d : Dev) (a b : Nat) : Bool :=
  decide (d.fld (F.REF_CTRL_priority a) < d.fld (F.REF_CTRL_priority b)) ||
  (d.fld (F.REF_CTRL_priority a) == d.fld (F.REF_CTRL_priority b) && decide (a < b))

/-- The best eligible candidate (R50). -/
def Dev.refBest (d : Dev) : Option Nat :=
  ((List.range 16).filter fun n => d.qstate n == 5).foldl
    (fun b n => match b with
      | none => some n
      | some c => if d.refBetter n c then some n else some c) none

/-- The DPLL's mode (R53). -/
def Dev.dpllMode (d : Dev) : Nat := d.fld F.DPLL_CTRL_mode

/-- The candidate the DPLL is on or moving to: ACQUIRING and LOCKED select it, TRANSITION targets it. -/
def Dev.dpllCurrent (d : Dev) : Option Nat :=
  match d.fld F.DPLL_STATE_state with
  | 1 => some (d.fld F.DPLL_STATE_selected_ref)
  | 2 => some (d.fld F.DPLL_STATE_selected_ref)
  | 3 => some (d.fld F.DPLL_STATE_target_ref)
  | _ => none

/-- The forced candidate stands: FORCED mode, not refused, not lost and not yet back (R51). -/
def Dev.forcedStands (d : Dev) : Bool :=
  d.dpllMode == 1 && !d.flag F.DPLL_STATE_force_refused

/-- A candidate the DPLL may hold: ELIGIBLE, or the forced one in WAIT_RESTORE (R51). -/
def Dev.refUsable (d : Dev) (n : Nat) : Bool :=
  d.qstate n == 5 ||
  (d.qstate n == 4 && d.forcedStands && !d.flag F.DPLL_STATE_force_lost && n == d.fld F.DPLL_CTRL_forced_ref)

/-- The candidate the DPLL selects (R50, R51): the forced one while it stands; otherwise the best eligible one, which
displaces a usable selection only in revertive operation. -/
def Dev.dpllWant (d : Dev) : Option Nat :=
  let f := d.fld F.DPLL_CTRL_forced_ref
  if d.forcedStands && (d.qstate f == 5 || (d.qstate f == 4 && !d.flag F.DPLL_STATE_force_lost)) then some f
  else match d.dpllCurrent with
    | some c =>
      if d.refUsable c && (!d.flag F.DPLL_CTRL_revertive || d.flag F.DPLL_STATE_force_refused) then some c
      else d.refBest
    | none => d.refBest

/-- The largest loop bandwidth code of a candidate (R45, R56). -/
def Dev.refMaxBw (d : Dev) (n : Nat) : Nat :=
  if n < 4 then 4 else if n < 6 then 14
  else if n < 8 then (if d.fld (F.REF_CTRL_input_use n) = 2 then 10 else 4) else 12

/-- A bandwidth code as it acts: 15 reads as 14 (R56). -/
def bwCode (c : Nat) : Nat := min c 14

/-- The loop bandwidth in effect (R56): the programmed code, limited by the maximum of the candidate the DPLL is on or
moving to, where there is one. -/
def dpllBw : Prog :=
  .read fun d =>
    let prog := bwCode (if d.fld F.DPLL_STATE_state = 1 then d.fld F.DPLL_BW_acq_bw else d.fld F.DPLL_BW_lock_bw)
    setF F.DPLL_STATE_bw_eff (match d.dpllCurrent with | some c => min prog (d.refMaxBw c) | none => prog)

/-- Enters a DPLL state (R53), raising the interrupts that report it; outside TRANSITION there is no target, in FREE_RUN
and HOLDOVER no candidate is tracked, and bw_eff is brought up to date (R56). -/
def dpllEnter (st : Nat) : Prog :=
  .read fun d =>
    seq [
      doIf (d.fld F.DPLL_STATE_state ≠ st) (raise F.TIME_IRQ_STATUS_dpll_state),
      doIf (st == 4 && d.fld F.DPLL_STATE_state ≠ 4) (raise F.TIME_IRQ_STATUS_holdover_entered),
      doIf (st == 0 && d.fld F.DPLL_STATE_state ≠ 0) (raise F.TIME_IRQ_STATUS_freerun_entered),
      setF F.DPLL_STATE_state st,
      doIf (st ≠ 3) (seq [setF F.DPLL_STATE_tphase 0, setF F.DPLL_STATE_target_ref 0]),
      doIf (st == 0 || st == 4) (setF F.DPLL_STATE_selected_ref 0),
      dpllBw]

/-- A re-initialisation of the DPLL, rung 2 (R58): the house clock moves to the last holdover value, or to nominal if
there is none, and the DPLL goes on as though leaving HOLDOVER. -/
def dpllReinit : Prog :=
  .read fun d => seq [
    dpllUpd fun m => { m with target := m.hoLast.getD 0, lossMove := false },
    dpllEnter (if d.x.time.dpll.hoLast.isSome then 4 else 0)]

/-- Starts a transition toward a candidate (R54, R55): `lost` says that it leaves a lost candidate, in which case the
house clock moves to the holdover value, or to nominal when there is none; otherwise it holds. -/
def dpllTransition (c : Nat) (lost : Bool) (ref : Nat) : Prog :=
  seq [
    doIf lost (holdover ref),
    dpllUpd fun m => { m with lossMove := lost },
    setF F.DPLL_STATE_target_ref c, dpllEnter 3, setF F.DPLL_STATE_tphase 1]

/-- HOLDOVER if the history is sufficient, FREE_RUN otherwise (R53, R57). -/
def dpllHold (ref : Nat) : Prog :=
  seq [holdover ref, .read fun d => dpllEnter (if d.x.time.dpll.hoOk then 4 else 0)]

/-- Selection and the state changes it makes (R50 to R53, R55). `ref` is the tick of the reference instant of a loss
(R57). -/
def dpllSelect (ref : Nat) : Prog :=
  .read fun d =>
    let st := d.fld F.DPLL_STATE_state
    let cur := d.dpllCurrent
    let lost := match cur with
      | some c => !d.refUsable c
      | none => false
    let forcedGone := lost && d.dpllMode == 1 && cur == some (d.fld F.DPLL_CTRL_forced_ref) && d.forcedStands
    seq [
      doIf forcedGone (setF F.DPLL_STATE_force_lost 1),
      if d.dpllMode = 2 ∨ d.dpllMode = 3 then .nop
      else .read fun d =>
        match d.dpllWant, st with
        | some c, 0 =>
          if d.flag F.GLB_STATUS_routing then dpllTransition c false ref
          else seq [setF F.DPLL_STATE_selected_ref c, dpllEnter 1]
        | some c, 1 => doIf (cur ≠ some c) (seq [setF F.DPLL_STATE_selected_ref c, dpllEnter 1])
        | some c, 2 => doIf (cur ≠ some c) (dpllTransition c lost ref)
        | some c, 3 => doIf (cur ≠ some c) (dpllTransition c lost ref)
        | some c, _ => dpllTransition c false ref
        | none, 1 => doIf lost (dpllEnter 0)
        | none, 2 => doIf lost (dpllHold ref)
        | none, 3 => doIf lost (dpllHold ref)
        | none, _ => .nop]

/-! ### The 1 ms tick (R52) -/

/-- The control word's limit of ±100 ppm in units of 2^-40 (R69). -/
def cwMax : Int := 109951162

/-- The house frequency's change in one tick (R54 to R57): ACQUIRING aligns directly; LOCKED follows the loop, PULL the
target's frequency, a CAPTURE after a loss and HOLDOVER the holdover value, FREE_RUN nominal; a CAPTURE that is no loss
holds, and so does a DPLL in FAULT (R69). No change exceeds DPLL_SLEW.rate, in units of 0.001 ppm/s. `want` is the control word the loop filter or the
target's frequency asks for. -/
def dpllFreq (want : Int) : Prog :=
  .read fun d =>
    let cw := d.sfld F.DPLL_CW
    let st := d.fld F.DPLL_STATE_state
    let m := d.x.time.dpll
    let goal :=
      if d.fst .dpll == .fault then cw else if st = 0 then 0 else if st = 1 ∨ st = 2 then want else if st = 4 then m.target
      else if d.fld F.DPLL_STATE_tphase = 2 then want else if m.lossMove then m.target else cw
    let acc : Nat := m.slewAcc + clampN 1 10000 (d.fld F.DPLL_SLEW_rate) * 2 ^ 40
    let lim : Int := ((acc / 1000000000000 : Nat) : Int)
    let step := if st = 1 then goal - cw else clampI (-lim) lim (goal - cw)
    let new := clampI (-cwMax) cwMax (cw + step)
    seq [
      wr R.DPLL_CW (codeOf 32 new),
      dpllUpd fun m => { m with
        ticks := m.ticks + 1
        slewAcc := acc % 1000000000000
        hist := if st = 2 then (m.ticks + 1, new) :: m.hist else m.hist }]

/-- One candidate's disqualification at a tick (R47, R49). -/
def refDisqualify (n : Nat) (m : RefMeas) : Prog :=
  .read fun d =>
    let causes := d.refCauses n m
    let q := d.qstate n
    seq [
      match causes with
      | [] => doIf ((q == 3 || q == 4) && !d.refCrit n m) (refPut n 2)
      | c :: _ =>
        doIf (3 ≤ q) (seq [setF (F.REF_STATE_last_disq n) c, doIf (q == 5) (setF (F.REF_STATE_wtr_owed n) 1), refPut n 2]),
      refUpd n fun r => { r with causes := [], driftLost := causes.contains 4 }]

/-- An unqualified candidate whose every criterion holds enters QUALIFYING, where its drift window restarts (R47, R48). -/
def refQualify (n : Nat) (m : RefMeas) : Prog :=
  .read fun d => doIf (d.qstate n == 2 && (d.refCauses n m).isEmpty && d.refCrit n m)
    (seq [refPut n 3, refUpd n fun r => { r with drift := [] }])

/-- The tick of the reference instant of a loss of the selected candidate (R57): the start of the failing drift window
for DRIFT, this tick otherwise. -/
def Dev.lossTick (d : Dev) : Nat :=
  match d.dpllCurrent with
  | some c =>
    if (d.refm c).driftLost then d.x.time.dpll.ticks - 1000 * d.driftWindow c else d.x.time.dpll.ticks
  | none => d.x.time.dpll.ticks

/-- The 1 ms tick (R52): all disqualifications, then qualifications, then selection, which a DPLL that is not ON does not
make; then the house frequency moves. -/
def refTick (meas : List RefMeas) (cw : Int) : Prog :=
  seq [
    each meas fun m => refDisqualify m.cand m,
    each meas fun m => refQualify m.cand m,
    doWhen (fun d => d.on .dpll) (.read fun d => dpllSelect d.lossTick),
    dpllFreq cw, dpllBw]

/-! ### Configuration writes (R49, R51, R53) -/

/-- REF_CTRL.enable and lockout as they move a candidate (R49); a write that takes the selected candidate away counts as
its loss, which the next tick's selection applies with this write as its instant (R51, R52). -/
def refWriteCtrl (n : Nat) (v : Nat) : Prog :=
  .read fun d =>
    let en := bitOf v 0
    let lock := bitOf v 1
    let q := d.qstate n
    let q' := if !en then 0 else if lock then 1 else if q ≤ 1 then 2 else q
    seq [
      wr (R.REF_CTRL n) v,
      doIf (q' ≠ q) (refPut n q'),
      doIf (q' ≠ q && q' ≤ 1) (refUpd n fun c => { c with causes := [], driftLost := false })]

/-- A write of DPLL_CTRL (R51, R53): a reserved mode leaves the mode in force; both force flags clear; FORCED is refused
unless the candidate is ELIGIBLE or WAIT_RESTORE. The modes that force a state act at the write; selection follows at the
next tick (R52). -/
def dpllWriteCtrl (v : Nat) : Prog :=
  .read fun d =>
    let m := if 4 ≤ bitsOf v 0 3 then d.dpllMode else bitsOf v 0 3
    let f := bitsOf v 8 4
    seq [
      wr R.DPLL_CTRL (putBits v 0 3 m),
      setF F.DPLL_STATE_force_lost 0, setF F.DPLL_STATE_force_refused 0,
      match m with
      | 1 =>
        if d.qstate f = 5 ∨ d.qstate f = 4 then .nop
        else seq [setF F.DPLL_STATE_force_refused 1, raise F.TIME_IRQ_STATUS_force_refused]
      | 2 => .read fun e => dpllHold e.x.time.dpll.ticks
      | 3 => seq [dpllUpd fun x => { x with target := 0, hoOk := false }, dpllEnter 0]
      | _ => .nop]

/-! ### PTP lock (R41) -/

/-- The servo acts only for a time base ON in PTP_SLAVE. -/
def Dev.servoRuns (d : Dev) (n : TbId) : Bool := d.on (.tb n) && d.tbOwn n

/-- A measured offset from the master reaches the servo (R41): beyond 1 ms it steps the time base, otherwise it steers
the trim to what its loop asks for, within ±500 ppm. -/
def servoOffset (n : TbId) (offsetNs : Int) (trim : Int) : Prog :=
  doWhen (fun d => d.servoRuns n) (seq [
    wr (R.TB_OFFSET n) (satCode 32 offsetNs),
    if 1000000 < offsetNs.natAbs then tbMove n (-offsetNs * nsU)
    else wr (R.TB_FREQ_ADJ n) (codeOf 32 (clampI (-549755814) 549755814 trim))])

/-! ### Meanings -/

/-- PTP_ANNOUNCE_TIMEOUT (R41). -/
def execPtpAnnounceTimeout (n : TbId) (s : State) : Host.Outcome State Fault Refusal :=
  perform .core (doWhen (fun d => d.servoRuns n) (servoLock n false)) s

/-- PTP_SERVO_LOCK (R41). -/
def execPtpServoLock (n : TbId) (s : State) : Host.Outcome State Fault Refusal :=
  perform .core (doWhen (fun d => d.servoRuns n) (servoLock n true)) s

/-- PTP_OFFSET_UNLOCK (R41). -/
def execPtpOffsetUnlock (n : TbId) (s : State) : Host.Outcome State Fault Refusal :=
  perform .core (doWhen (fun d => d.servoRuns n) (servoLock n false)) s

/-- REF_ENABLE_WRITE (R49, R51). -/
def execRefEnableWrite (n : RefId) (on : Bool) (s : State) : Host.Outcome State Fault Refusal :=
  perform .core (.read fun d => refWriteCtrl n (putBits (d.rd (R.REF_CTRL n)) 0 1 (boolBit on))) s

/-- REF_LOCKOUT_WRITE (R49, R51). -/
def execRefLockoutWrite (n : RefId) (on : Bool) (s : State) : Host.Outcome State Fault Refusal :=
  perform .core (.read fun d => refWriteCtrl n (putBits (d.rd (R.REF_CTRL n)) 1 1 (boolBit on))) s

/-- REF_PULSE_EDGE (R46, R47). -/
def execRefPulseEdge (n : RefId) (e : RefEdge) (s : State) : Host.Outcome State Fault Refusal :=
  perform .core (refPulse n e) s

/-- REF_TICK (R47, R50 to R53, R55, R57). -/
def execRefTick (meas : List RefMeas) (cw : Int) (s : State) : Host.Outcome State Fault Refusal :=
  perform .core (refTick meas cw) s

/-- REF_QUAL_COMPLETE (R49): ELIGIBLE, or WAIT_RESTORE when a wait is owed. -/
def execRefQualComplete (n : RefId) (s : State) : Host.Outcome State Fault Refusal :=
  perform .core (doWhen (fun d => d.qstate n == 3 && (d.refm n).causes.isEmpty) (.read fun d =>
    if d.flag (F.REF_STATE_wtr_owed n) then
      seq [refPut n 4, setF (F.REF_WTR_LEFT n) (min 3600 (d.fld (F.REF_WTR n)))]
    else refPut n 5)) s

/-- REF_WTR_COMPLETE (R49): ELIGIBLE, and wtr_owed clears. -/
def execRefWtrComplete (n : RefId) (s : State) : Host.Outcome State Fault Refusal :=
  perform .core (doWhen (fun d => d.qstate n == 4 && (d.refm n).causes.isEmpty)
    (seq [setF (F.REF_STATE_wtr_owed n) 0, setF (F.REF_WTR_LEFT n) 0, refPut n 5])) s

/-- REF_DRIFT_SAMPLE (R48). -/
def execRefDriftSample (n : RefId) (freq : Int) (s : State) : Host.Outcome State Fault Refusal :=
  perform .core (refDrift n freq) s

/-- DPLL_MODE_AUTO (R53). -/
def execDpllModeAuto (s : State) : Host.Outcome State Fault Refusal :=
  perform .core (.read fun d => dpllWriteCtrl (putBits (d.rd R.DPLL_CTRL) 0 3 0)) s

/-- DPLL_MODE_FORCED (R51, R53). -/
def execDpllModeForced (ref : RefId) (s : State) : Host.Outcome State Fault Refusal :=
  perform .core (.read fun d => dpllWriteCtrl (putBits (putBits (d.rd R.DPLL_CTRL) 0 3 1) 8 4 ref)) s

/-- HOLDOVER_FORCE (R53, R57). -/
def execHoldoverForce (s : State) : Host.Outcome State Fault Refusal :=
  perform .core (.read fun d => dpllWriteCtrl (putBits (d.rd R.DPLL_CTRL) 0 3 2)) s

/-- FREE_RUN_FORCE (R53). -/
def execFreeRunForce (s : State) : Host.Outcome State Fault Refusal :=
  perform .core (.read fun d => dpllWriteCtrl (putBits (d.rd R.DPLL_CTRL) 0 3 3)) s

/-- DPLL_ACQ_LOCKED (R53, R39): the phase was aligned directly, HT having moved by `adj` units. -/
def execDpllAcqLocked (adj : Int) (s : State) : Host.Outcome State Fault Refusal :=
  perform .core (doWhen (fun d => d.fld F.DPLL_STATE_state == 1) (seq [
    htMove adj, dpllEnter 2, setF F.TIME_STATUS_acq_done 1,
    doWhen (fun d => d.timeLocked) (setF F.TIME_STATUS_ht_traceable 1)])) s

/-- DPLL_CAPTURE_COMPLETE (R54): the build-out is recorded (a frequency-only target has none), and PULL begins. -/
def execDpllCaptureComplete (offset : Int) (s : State) : Host.Outcome State Fault Refusal :=
  perform .core (doWhen (fun d => d.fld F.DPLL_STATE_state == 3 && d.fld F.DPLL_STATE_tphase == 1) (.read fun d =>
    let t := d.fld F.DPLL_STATE_target_ref
    let freqOnly := decide (8 ≤ t) || ((t == 6 || t == 7) && d.fld (F.REF_CTRL_input_use t) == 2)
    seq [wr R.DPLL_BUILDOUT (if freqOnly then 0 else satCode 32 offset), setF F.DPLL_STATE_tphase 2])) s

/-- DPLL_PULL_COMPLETE (R54): LOCKED to the target. -/
def execDpllPullComplete (s : State) : Host.Outcome State Fault Refusal :=
  perform .core (doWhen (fun d => d.fld F.DPLL_STATE_state == 3 && d.fld F.DPLL_STATE_tphase == 2) (.read fun d =>
    seq [setF F.DPLL_STATE_selected_ref (d.fld F.DPLL_STATE_target_ref), dpllEnter 2,
      setF F.TIME_STATUS_acq_done 1])) s

/-- DPLL_CW_LIMIT (R69). -/
def execDpllCwLimit (s : State) : Host.Outcome State Fault Refusal :=
  perform .core (doWhen (fun d => d.fld F.DPLL_STATE_state == 2) (fnFault .dpll 0x01)) s

/-- SYNTH_LOCK_LOSS (R69): rung 1 is the automatic relock; if it fails, FAULT 0x02. -/
def execSynthLockLoss (relocked : Bool) (s : State) : Host.Outcome State Fault Refusal :=
  perform .core (seq [fnRung .dpll 1, dpllUpd fun m => { m with synthLock := relocked },
    doIf (!relocked) (fnFault .dpll 0x02)]) s

end Sys2Proof.Machine
end

