-- ==== Sys2Proof/Machine/Codec.lean ====
section
/-!
DEFINITION. Pel words and their samplings (R74), stored geometry (R75), tiles and compact storage (R79, R80), the proxy
arithmetic (R83), CRC-32C, and the exchange of sampling structures in the scan-out engine (R123).
-/

namespace Sys2Proof.Machine

/-! ### Samplings and geometry (R74, R75, R90) -/

/-- Pel words of an active line of `w` pixels (R74): sampling codes as in R90. -/
def pelWords (sampling w : Nat) : Nat :=
  match sampling with
  | 1 | 2 => (3 * w + 1) / 2
  | 3 | 4 => 2 * w
  | _ => w

/-- A sampling carries RGB. -/
def isRgb (sampling : Nat) : Bool := sampling == 2 || sampling == 4

/-- A sampling carries alpha. -/
def hasAlpha (sampling : Nat) : Bool := sampling == 3 || sampling == 4

/-- A raster is stored as two fields (R75). -/
def fmtFielded (f : Nat) : Bool := fmtScan f ≠ 0

/-- Tile rows of one field, or of a progressive frame (R75). -/
def fieldRows (f : Nat) : Nat := if fmtFielded f then ceilDiv (fmtLines f / 2) 16 else ceilDiv (fmtLines f) 16

/-- Tile rows of a stored frame (R75). -/
def tileRows (f : Nat) : Nat := if fmtFielded f then 2 * fieldRows f else fieldRows f

/-- Tile columns of a stored frame (R75). -/
def tileCols (f sampling : Nat) : Nat := ceilDiv (pelWords sampling (fmtWidth f)) 64

/-- Tiles of a stored frame. -/
def tileCount (f sampling : Nat) : Nat := tileCols f sampling * tileRows f

/-- The raw frame size F (R24). -/
def frameBytes (f sampling : Nat) : Nat := tileCount f sampling * 3072

/-- Proxy pel words in a line (R83). -/
def proxyWidth (f : Nat) : Nat := ceilDiv (fmtWidth f) 4

/-- Proxy lines (R83). -/
def proxyLines (f : Nat) : Nat :=
  if fmtFielded f then ceilDiv (fmtLines f / 2) 2 else ceilDiv (fmtLines f) 4

/-- The raw size of a proxy (R24, R83). -/
def proxyBytes (f : Nat) : Nat := ceilDiv (proxyWidth f) 64 * ceilDiv (proxyLines f) 16 * 3072

/-- The active line, counted in stored order, whose words a tile row's line `y` holds; none for padding. For
interlaced and PsF frames lines 0 to h/2 − 1 are field 1 and the rest are field 2 (R75). -/
def storedLine (f row y : Nat) : Option Nat :=
  if fmtFielded f then
    let h := fmtLines f / 2
    let r := fieldRows f
    if row < r then (if row * 16 + y < h then some (row * 16 + y) else none)
    else if (row - r) * 16 + y < h then some (h + (row - r) * 16 + y) else none
  else if row * 16 + y < fmtLines f then some (row * 16 + y) else none

/-- The tile row and the line within it of a stored line. -/
def lineRow (f line : Nat) : Nat × Nat :=
  if fmtFielded f ∧ fmtLines f / 2 ≤ line then
    (fieldRows f + (line - fmtLines f / 2) / 16, (line - fmtLines f / 2) % 16)
  else (line / 16, line % 16)

/-- A pel word from its fields H and L. -/
def pelOf (h l : Nat) : Nat := h % 4096 * 4096 + l % 4096

/-- The black pel word at position `i` of a line (R74). -/
def blackWord (sampling i : Nat) : Nat :=
  match sampling with
  | 1 => if i % 3 = 2 then pelOf 0x800 0x800 else pelOf 0x800 0x100
  | 2 => pelOf 0x100 0x100
  | 3 => if i % 2 = 1 then pelOf 0x800 0xFFF else pelOf 0x800 0x100
  | 4 => if i % 2 = 1 then pelOf 0x100 0xFFF else pelOf 0x100 0x100
  | _ => pelOf 0x800 0x100

/-! ### Pixels of a line -/

/-- One pixel's components: (Y or G, Cb or B, Cr or R, alpha). In 4:2:2 the colour difference of pixel 2m is that of its
pair, and so is that of pixel 2m + 1 (R74). -/
structure Pixel where
  y : Nat
  cb : Nat
  cr : Nat
  a : Nat := 0xFFF
  deriving DecidableEq, Repr

/-- The pixel at `x` of a line of pel words (R74). -/
def pixelAt (sampling : Nat) (ws : List Nat) (x : Nat) : Pixel :=
  let h := fun i => ws.getD i 0 / 4096 % 4096
  let l := fun i => ws.getD i 0 % 4096
  match sampling with
  | 1 | 2 =>
    let m := x / 2
    if x % 2 = 0 then ⟨l (3 * m), h (3 * m), h (3 * m + 1), 0xFFF⟩
    else ⟨l (3 * m + 1), l (3 * m + 2), h (3 * m + 2), 0xFFF⟩
  | 3 | 4 => ⟨l (2 * x), h (2 * x), h (2 * x + 1), l (2 * x + 1)⟩
  | _ => let m := x / 2; ⟨l x, h (2 * m), h (2 * m + 1), 0xFFF⟩

/-- The pixels of a line. -/
def linePixels (sampling w : Nat) (ws : List Nat) : List Pixel := (List.range w).map (pixelAt sampling ws)

/-- The pel words of a line of pixels (R74); in 4:2:2 the colour difference is that of the even pixels. -/
def pixelWords (sampling : Nat) (ps : List Pixel) : List Nat :=
  let p := fun i => ps.getD i ⟨0x100, 0x800, 0x800, 0xFFF⟩
  (List.range (pelWords sampling ps.length)).map fun i =>
    match sampling with
    | 1 | 2 =>
      let m := i / 3
      match i % 3 with
      | 0 => pelOf (p (2 * m)).cb (p (2 * m)).y
      | 1 => pelOf (p (2 * m)).cr (p (2 * m + 1)).y
      | _ => pelOf (p (2 * m + 1)).cr (p (2 * m + 1)).cb
    | 3 | 4 => if i % 2 = 0 then pelOf (p (i / 2)).cb (p (i / 2)).y else pelOf (p (i / 2)).cr (p (i / 2)).a
    | _ => if i % 2 = 0 then pelOf (p i).cb (p i).y else pelOf (p (i - 1)).cr (p i).y

/-- Converts the sampling of a line within one colour model (R123): 4:4:4 to 4:2:2 filters co-sited chroma with edge
samples repeated; 4:2:2 to 4:4:4 takes odd chroma as the rounded mean of its neighbours, the last one repeated. -/
def convertSampling (from_ to_ : Nat) (ps : List Pixel) : List Pixel :=
  let dec := from_ == 0 || from_ == 5
  let toDec := to_ == 0 || to_ == 5
  let n := ps.length
  let p := fun i => ps.getD i ⟨0x100, 0x800, 0x800, 0xFFF⟩
  if dec && !toDec then
    (List.range n).map fun i =>
      if i % 2 = 0 then p i
      else
        let nx := if i + 1 < n then i + 1 else i - 1
        { p i with cb := ((p (i - 1)).cb + (p nx).cb + 1) / 2, cr := ((p (i - 1)).cr + (p nx).cr + 1) / 2 }
  else if !dec && toDec then
    (List.range n).map fun i =>
      let e := i - i % 2
      let l := p (e - 1)
      let r := p (min (e + 1) (n - 1))
      { p i with cb := (l.cb + 2 * (p e).cb + r.cb + 2) / 4, cr := (l.cr + 2 * (p e).cr + r.cr + 2) / 4 }
  else ps

/-! ### CRC-32C -/

/-- One byte of a reflected CRC with polynomial 0x82F63B78. -/
def crc32cByte (c : Nat) (b : Byte) : Nat :=
  (List.range 8).foldl (fun c _ => if c % 2 = 1 then (c / 2) ^^^ 0x82F63B78 else c / 2) (c ^^^ b.toNat)

/-- CRC-32C of a byte string. -/
def crc32c (l : List Byte) : Nat := (l.foldl crc32cByte 0xFFFFFFFF) ^^^ 0xFFFFFFFF

/-- Pel words as bytes: 3 bytes each, little-endian (R79, R90). -/
def pelBytes (ws : List Nat) : List Byte := ws.flatMap (leBytes 3)

/-- The pel words of bytes. -/
def bytesPels : List Byte → List Nat
  | a :: b :: c :: r => ofLeBytes [a, b, c] :: bytesPels r
  | _ => []

/-! ### Tiles (R79, R80) -/

/-- The prediction distance k of a plane (R80). -/
def tileK (sampling : Nat) (planeH : Bool) : Nat :=
  match sampling with
  | 1 | 2 => 3
  | 3 | 4 => 2
  | _ => if planeH then 2 else 1

/-- The predictor of the sample at line y, position x, from the plane's samples so far (R80). -/
def predict (k : Nat) (s : Nat → Nat → Nat) (y x : Nat) : Nat :=
  let a := s y (x - k)
  let b := s (y - 1) x
  let c := s (y - 1) (x - k)
  if y = 0 then (if x < k then 0x800 else a)
  else if x < k then b
  else if max a b ≤ c then min a b
  else if c ≤ min a b then max a b
  else a + b - c

/-- The coded value of a residual (R80). -/
def residual (s p : Nat) : Nat :=
  let r := (s + 4096 - p % 4096) % 4096
  if r < 2048 then 2 * r else 2 * (4096 - r) - 1

/-- The sample a coded value and its prediction give. -/
def unresidual (v p : Nat) : Nat :=
  if v % 2 = 0 then (p + v / 2) % 4096 else (p + 4096 - (v + 1) / 2 % 4096) % 4096

/-- The bit length of a number. -/
def bitLen (x : Nat) : Nat := if x = 0 then 0 else Nat.log2 x + 1

/-- The fields (value, width) of one plane of 1,024 samples in raster order: 64 groups of a 4-bit width and 16 values. -/
def planeFields (k : Nat) (ws : List Nat) : List (Nat × Nat) :=
  let s := fun y x => ws.getD (y * 64 + x) 0
  let v := (List.range 1024).map fun i => residual (s (i / 64) (i % 64)) (predict k s (i / 64) (i % 64))
  (List.range 64).flatMap fun g =>
    let grp := (v.drop (16 * g)).take 16
    let w := bitLen (grp.foldl max 0)
    (w, 4) :: grp.map fun x => (x, w)

/-- Fields packed least significant first: the number of their bits, and their count (R80). -/
def packFields (l : List (Nat × Nat)) : Nat × Nat :=
  l.foldr (fun f acc => (f.1 % 2 ^ f.2 + acc.1 * 2 ^ f.2, f.2 + acc.2)) (0, 0)

/-- The modes of a tile descriptor (R79). -/
inductive TileMode where
  | compact | raw | flat | never
  deriving DecidableEq, Repr

/-- A coded tile. -/
structure Tile where
  mode : TileMode
  sectors : Nat
  bytes : List Byte
  deriving DecidableEq, Repr

/-- The tile written RAW. -/
def rawTile (ws : List Nat) : Tile := ⟨.raw, 96, pelBytes ws⟩

/-- The tile of one word, written FLAT. -/
def flatTile (w : Nat) : Tile := ⟨.flat, 1, leBytes 32 (w % 2 ^ 24)⟩

/-- Codes a tile of 1,024 pel words (R79, R80). -/
def encodeTile (compact : Bool) (sampling : Nat) (ws : List Nat) : Tile :=
  if !compact then rawTile ws
  else if ws.all (· == ws.headD 0) then flatTile (ws.headD 0)
  else
    let (bits, n) := packFields (planeFields (tileK sampling false) (ws.map (· % 4096)) ++
      planeFields (tileK sampling true) (ws.map (· / 4096 % 4096)))
    let sectors := ceilDiv (ceilDiv n 8) 32
    if 95 < sectors then rawTile ws else ⟨.compact, sectors, leBytes (sectors * 32) bits⟩

/-- A tile's descriptor (R79). -/
def Tile.desc (t : Tile) (concealed : Bool) : Nat :=
  (match t.mode with
    | .compact => 0 | .raw => 1 | .flat => 2 | .never => 3) * 2 ^ 14 +
  (t.sectors - 1) % 128 * 2 ^ 7 + boolBit concealed * 2 ^ 6

/-- One plane decoded from a bit position: its samples newest first, and the position after it. -/
def unplane (k bits pos : Nat) : List Nat × Nat :=
  (List.range 64).foldl (fun (acc : List Nat × Nat) _ =>
    let w := bitsOf bits acc.2 4
    (List.range 16).foldl (fun (a : List Nat × Nat) _ =>
      let i := a.1.length
      let s := fun y x => a.1.getD (i - 1 - (y * 64 + x)) 0
      (unresidual (bitsOf bits a.2 w) (predict k s (i / 64) (i % 64)) :: a.1, a.2 + w)) (acc.1, acc.2 + 4)) ([], pos)

/-- The 1,024 pel words of a stored tile (R79, R80); a tile never written has none. -/
def decodeTile (sampling desc : Nat) (bytes : List Byte) : List Nat :=
  match bitsOf desc 14 2 with
  | 0 =>
    let bits := ofLeBytes bytes
    let l := unplane (tileK sampling false) bits 0
    let h := unplane (tileK sampling true) bits l.2
    List.zipWith pelOf h.1.reverse l.1.reverse
  | 1 => bytesPels bytes
  | 2 => List.replicate 1024 (ofLeBytes (bytes.take 3))
  | _ => []

/-! ### Colour (R83) -/

/-- The luma coefficients (Kr, Kb) of a colorimetry code in units of 1/10,000 (R90; the standards it names). -/
def lumaCoef : Nat → Nat × Nat
  | 0 => (2990, 1140) | 1 => (2126, 722) | _ => (2627, 593)

/-- Division of an integer by a positive number, with halves rounded up. -/
def roundDiv (x : Int) (n : Nat) : Int := (2 * x + n) / (2 * n)

/-- An RGB pixel as YCbCr by its colorimetry, narrow range at 12 bits (R83). -/
def rgbToYcc (colorimetry : Nat) (p : Pixel) : Pixel :=
  let (kr, kb) := lumaCoef colorimetry
  let kg := 10000 - kr - kb
  let yN : Int := kr * p.cr + kg * p.y + kb * p.cb
  let cb := roundDiv ((10000 * (p.cb : Int) - yN) * 3584) (2 * (10000 - kb) * 3504)
  let cr := roundDiv ((10000 * (p.cr : Int) - yN) * 3584) (2 * (10000 - kr) * 3504)
  { y := (clampI 0 4095 (roundDiv yN 10000)).toNat
    cb := (clampI 0 4095 (2048 + cb)).toNat
    cr := (clampI 0 4095 (2048 + cr)).toNat
    a := p.a }

/-- The rounded mean of a list, halves up. -/
def meanUp (l : List Nat) : Nat := (2 * l.sum + l.length) / (2 * max 1 l.length)

/-- The source lines that a proxy line covers, as stored lines (R83). -/
def proxySpan (f line : Nat) : List Nat :=
  if fmtFielded f then ((List.range 2).map fun i => 2 * line + i).filter fun n => decide (n < fmtLines f / 2)
  else ((List.range 4).map fun i => 4 * line + i).filter fun n => decide (n < fmtLines f)

/-- The pel words of one proxy line, from the pixels of the lines it covers (R83). -/
def proxyLine (w : Nat) (lines : List (List Pixel)) : List Nat :=
  (List.range (ceilDiv w 4)).map fun i =>
    let span := fun (a n : Nat) => lines.flatMap fun l => (l.drop a).take n
    let y := meanUp ((span (4 * i) 4).map (·.y))
    let m := i / 2
    let c := if i % 2 = 0 then (span (8 * m) 8).map (·.cb) else (span (8 * m) 8).map (·.cr)
    pelOf (meanUp c) y

end Sys2Proof.Machine
end

