-- ==== Sys2Proof/Machine/Store.lean ====
section
/-!
DEFINITION. Hogsheads and their frames: layout (R76), allocation (R355), decision records (R90), the writer's slot
(R78), the reader's choice (R77, R88, R89, R93), holds, and tiles read with the substitution of R96.
-/

namespace Sys2Proof.Machine

/-! ### Stores -/

/-- The store of a source code (R13). -/
def Dev.store (d : Dev) (code : Nat) : Store := KV.get {} d.x.stores code

/-- Changes a store. -/
def storeUpd (code : Nat) (f : Store → Store) : Prog := ext fun x => { x with stores := KV.upd {} x.stores code f }

/-- The grain in bytes (R355). -/
def Dev.grain (d : Dev) : Nat := 2 ^ clampN 8 16 (d.fld F.HBM_CTRL_grain_log2)

/-- A size rounded up to whole grains. -/
def roundUp (g n : Nat) : Nat := ceilDiv n g * g

/-- The bytes of a frame slot's tile map (R76). -/
def tileMapBytes (f s : Nat) : Nat := roundUp 4096 (2 * tileCount f s)

/-- The bytes of a frame slot (R76). -/
def slotBytes (g f s : Nat) : Nat := roundUp g (tileMapBytes f s + frameBytes f s + 16384)

/-- The bytes of a proxy slot (R76). -/
def proxySlotBytes (g f : Nat) : Nat := roundUp g (proxyBytes f)

/-- The bytes of a hogshead (R76). -/
def hogBytes (g f s depth : Nat) (proxied : Bool) : Nat :=
  2 * roundUp g 4096 + depth * slotBytes g f s + (if proxied then 3 * proxySlotBytes g f else 0)

/-- The address of a decision record (R76). -/
def Store.recAddr (st : Store) (g slot : Nat) : Nat := st.base + roundUp g 4096 + slot * 64

/-- The address of a frame slot (R76). -/
def Store.slotAddr (st : Store) (g slot : Nat) : Nat :=
  st.base + 2 * roundUp g 4096 + slot * slotBytes g st.format st.sampling

/-- The address of a tile's descriptor. -/
def Store.descAddr (st : Store) (g slot tile : Nat) : Nat := st.slotAddr g slot + 2 * tile

/-- The address of a tile. -/
def Store.tileAddr (st : Store) (g slot tile : Nat) : Nat :=
  st.slotAddr g slot + tileMapBytes st.format st.sampling + 3072 * tile

/-- The address of a slot's ancillary store. -/
def Store.ancAddr (st : Store) (g slot : Nat) : Nat :=
  st.slotAddr g slot + tileMapBytes st.format st.sampling + frameBytes st.format st.sampling

/-- The address of a proxy slot. -/
def Store.proxyAddr (st : Store) (g slot : Nat) : Nat :=
  st.base + 2 * roundUp g 4096 + st.depth * slotBytes g st.format st.sampling + slot * proxySlotBytes g st.format

/-! ### Allocation -/

/-- The HBM capacity (R354). -/
def hbmBytes : Nat := 84 * 2 ^ 30

/-- The allocations in force: hogsheads, surfaces, and the areas other functions hold. -/
def Dev.allocs (d : Dev) : List (Nat × Nat) :=
  (d.x.stores.filter fun e => e.2.alloc).map (fun e => (e.2.base, e.2.size)) ++ d.x.areas.map (·.2)

/-- A range of HBM is free and begins on a grain. -/
def rangeFree (used : List (Nat × Nat)) (g base size : Nat) : Bool :=
  base % g == 0 && decide (base + size ≤ hbmBytes) &&
  used.all fun u => decide (base + size ≤ u.1) || decide (u.1 + u.2 ≤ base)

/-- Where an allocation goes: firmware's choice where that is free; otherwise the lowest end of an allocation, or 0,
that leaves room; none where there is none (assumption 20). -/
def Dev.place (d : Dev) (size : Nat) : Option Nat :=
  let used := d.allocs
  let g := d.grain
  let c := Config.hbmBase used size g
  if rangeFree used g c size then some c
  else ((0 :: used.map fun u => roundUp g (u.1 + u.2)).filter fun b => rangeFree used g b size).head?

/-! ### Decision records (R90) -/

/-- The bytes of a decision record, with `complete` set. -/
def FrameRec.bytes (r : FrameRec) : List Byte :=
  let t := r.t.toNat
  let w := [
    0x10000000 + r.source % 4096 * 2 ^ 16 + r.format % 256 * 2 ^ 8 + r.slot % 16 * 2 ^ 4 + r.sampling % 16,
    r.seq % 2 ^ 32,
    t / secU % 2 ^ 32,
    t % nsU / 189 * 2 ^ 28 + t / secU / 2 ^ 32 % 2 ^ 16,
    r.kind % 4 * 2 ^ 30 + t % secU / nsU,
    2 ^ 31 + boolBit r.locked * 2 ^ 30 + r.lockScale % 8 * 2 ^ 27 + boolBit r.tsLocal * 2 ^ 26 +
      boolBit r.concealed * 2 ^ 25 + boolBit r.compact * 2 ^ 24 + r.colorimetry % 16 * 2 ^ 20 +
      r.transfer % 16 * 2 ^ 16 + r.depth % 4 * 2 ^ 14,
    r.tilesRaw % 2 ^ 16 * 2 ^ 16 + r.tilesConcealed % 2 ^ 16,
    r.sectors % 2 ^ 21,
    r.digest % 2 ^ 32,
    r.minLuma % 2 ^ 12 * 2 ^ 12 + r.maxLuma % 2 ^ 12]
  let b := w.flatMap (leBytes 4) ++ List.replicate 20 0
  b ++ leBytes 4 (crc32c b)

/-! ### Poison: uncorrectable errors found on reading (R96) -/

/-- A granule of 64 bytes from an address holds an uncorrectable error (R365), or lies on a channel in FAULT (R375). -/
def Dev.poisoned (d : Dev) (addr n : Nat) : Bool :=
  (d.x.poison.any fun q => decide (addr / 64 ≤ q) && decide (q ≤ (addr + n - 1) / 64)) ||
  (let l := d.faultChans
   !l.isEmpty && ((List.range ((addr + n - 1) / d.grain - addr / d.grain + 1)).any fun i => d.memLost l (addr + i * d.grain)))

/-- A frame is complete for a reader: its phase is complete and its record can be read (R89, R96). -/
def Dev.readable (d : Dev) (st : Store) (f : Frame) : Bool :=
  f.phase == .complete && !d.poisoned (st.recAddr d.grain f.rcd.slot) 64

/-! ### The writer's slot (R78) -/

/-- The newest complete frame. -/
def Dev.newest (d : Dev) (st : Store) : Option Frame := (st.frames.filter (d.readable st)).getLast?

/-- The slots in use: frames that have not been abandoned. -/
def Store.used (st : Store) : List Nat := (st.frames.filter fun f => f.phase ≠ .abandoned).map (·.rcd.slot)

/-- The slot for a new frame, none where every slot is held or newest (R78). Rings of 1 or 2 use their slots in turn. -/
def Dev.chooseSlot (d : Dev) (st : Store) (turn : Nat) : Option Nat :=
  if st.depth < 3 then some (turn % max 1 st.depth)
  else
    let newest := (d.newest st).map (·.rcd.slot)
    let free := (List.range st.depth).filter fun s =>
      !(st.holds.any fun h => h.2 == s) && newest ≠ some s
    match free.filter fun s => !st.used.contains s with
    | s :: _ => some s
    | [] => (st.used.filter fun s => free.contains s).head?

/-- The proxy slot for a new proxy frame, none where every slot is held or newest (R173). -/
def Store.chooseProxy (st : Store) : Option Nat :=
  let free := (List.range 3).filter fun s =>
    !(st.pholds.any fun h => h.2 == s) && (st.proxies.head?.map (·.1)) ≠ some s
  match free.filter fun s => !(st.proxies.any fun e => e.1 == s) with
  | s :: _ => some s
  | [] => ((st.proxies.map (·.1)).filter fun s => free.contains s).getLast?

/-- Adds a frame: it takes its slot from whatever frame held it; abandoned frames are forgotten with time. -/
def Store.push (st : Store) (f : Frame) : Store :=
  let keep := st.frames.filter fun e => e.phase == .abandoned || e.rcd.slot ≠ f.rcd.slot
  { st with frames := (keep ++ [f]).drop (keep.length + 1 - 32) }

/-- Changes the frame of a sequence number. -/
def Store.updFrame (st : Store) (seq : Nat) (g : Frame → Frame) : Store :=
  { st with frames := st.frames.map fun f => if f.rcd.seq = seq then g f else f }

/-! ### The reader's choice (R77, R88, R89, R93) -/

/-- The frame a frame-mode reader chooses at a boundary B: the newest frame decided by then, and the delay rule. -/
def Dev.choose (d : Dev) (st : Store) (b : Int) (delayed : Bool) : Option Frame :=
  match (st.frames.filter fun f => decide (f.due ≤ b)).getLast? with
  | none => none
  | some j =>
    if !delayed || st.delay = 0 then some j
    else
      let want := (j.rcd.seq + 2 ^ 32 - st.delay) % 2 ^ 32
      match (st.frames.filter fun f => f.rcd.seq == want && d.readable st f).getLast? with
      | some f => some f
      | none =>
        match st.frames.filter fun f =>
            decide ((f.rcd.seq + 2 ^ 32 - want) % 2 ^ 32 ≤ st.delay) && f.rcd.seq ≠ want && d.readable st f with
        | f :: _ => some f
        | [] => some j

/-- What a reader shows at a boundary: the frame, and whether its layer is ready (R89, R127). -/
def Dev.shown (d : Dev) (st : Store) (b : Int) : Option Frame × Bool :=
  match d.choose st b true with
  | none => (d.newest st, false)
  | some f => if d.readable st f then (some f, true) else (d.newest st, false)

/-- The frame a line-mode reader chooses at a boundary (R93): 32 lines and the guard behind its timestamp. -/
def Store.chooseLine (st : Store) (b : Int) : Option Frame :=
  (st.frames.filter fun f => f.phase ≠ .abandoned &&
    decide (f.rcd.t + 32 * fmtLine f.rcd.format + st.guard * 1000 * nsU ≤ b)).getLast?

/-- A reader holds a slot, or holds none (R78). -/
def hold (code : Nat) (h : Holder) (slot : Option Nat) : Prog :=
  storeUpd code fun st => { st with
    holds := st.holds.filter (fun e => e.1 ≠ h) ++ (match slot with | some s => [(h, s)] | none => []) }

/-- A tile holds a proxy slot, or holds none (R173). -/
def holdProxy (code : Nat) (h : Holder) (slot : Option Nat) : Prog :=
  storeUpd code fun st => { st with
    pholds := st.pholds.filter (fun e => e.1 ≠ h) ++ (match slot with | some s => [(h, s)] | none => []) }

/-! ### Reading tiles (R81, R96) -/

/-- The words of a tile as stored, none where it cannot be read (R96). -/
def Dev.rawRead (d : Dev) (st : Store) (slot tile : Nat) : Option (List Nat) :=
  let g := d.grain
  let da := st.descAddr g slot tile
  let ta := st.tileAddr g slot tile
  if d.poisoned da 2 then none
  else
    let desc := ofLeBytes (Memory.getBytes d.mem da 2)
    let n := (bitsOf desc 7 7 + 1) * 32
    if d.poisoned ta n then none
    else some (decodeTile st.sampling desc (Memory.getBytes d.mem ta n))

/-- The complete frame before a frame, of the same format. -/
def Dev.previous (d : Dev) (st : Store) (f : Frame) : Option Frame :=
  ((st.frames.takeWhile fun e => e.rcd.seq ≠ f.rcd.seq).filter fun e =>
    d.readable st e && e.rcd.format == f.rcd.format && e.rcd.sampling == f.rcd.sampling &&
    e.rcd.slot ≠ f.rcd.slot).getLast?

/-- The black tile of a sampling. -/
def blackTile (sampling : Nat) : List Nat := List.replicate 1024 (blackWord sampling 0)

/-- The words of a tile as a reader gets them, and whether they are a substitute: the same tile of the previous
complete frame, or black (R96). -/
def Dev.readTile (d : Dev) (st : Store) (f : Frame) (tile : Nat) : List Nat × Bool :=
  let st' := { st with sampling := f.rcd.sampling, format := st.format }
  match d.rawRead st' f.rcd.slot tile with
  | some ws => (ws, false)
  | none =>
    match d.previous st f with
    | some p =>
      match d.rawRead st' p.rcd.slot tile with
      | some ws => (ws, true)
      | none => (blackTile f.rcd.sampling, true)
    | none => (blackTile f.rcd.sampling, true)

/-- One active line of a frame, counted in stored order, as pel words; and how many of its tiles were substituted. -/
def Dev.readLine (d : Dev) (st : Store) (f : Frame) (line : Nat) : List Nat × Nat :=
  let cols := tileCols f.rcd.format f.rcd.sampling
  let (row, y) := lineRow f.rcd.format line
  let ts := (List.range cols).map fun c => d.readTile st f (row * cols + c)
  ((ts.flatMap fun t => (t.1.drop (y * 64)).take 64).take (pelWords f.rcd.sampling (fmtWidth f.rcd.format)),
    (ts.filter (·.2)).length)

/-- The substituted tiles of a tile row. -/
def Dev.rowErrors (d : Dev) (st : Store) (f : Frame) (row : Nat) : Nat :=
  let cols := tileCols f.rcd.format f.rcd.sampling
  ((List.range cols).filter fun c => (d.readTile st f (row * cols + c)).2).length

/-- Uncorrectable errors a reader finds in a source's hogshead (R96). -/
def countSrcUe (code n : Nat) : Prog := doIf (decide (code < 1024) && decide (0 < n)) (addCnt (R.SRC_CNT_UE code) n)

/-! ### Writing frames (R76, R79) -/

/-- Writes one tile row of a frame from its words: `word line i` is the word at a stored line and position; lines and
positions outside the active picture are black (R75). Gives the script and, per tile, (raw, sectors). -/
def tileRowProg (st : Store) (g slot f s : Nat) (compact : Bool) (row : Nat) (word : Nat → Nat → Nat)
    (conceal : Nat → Option Tile) : Prog × List (Bool × Nat) :=
  let cols := tileCols f s
  let pw := pelWords s (fmtWidth f)
  let st' := { st with format := st.format }
  let ts := (List.range cols).map fun c =>
    match conceal (row * cols + c) with
    | some t => (row * cols + c, t, true)
    | none =>
      (row * cols + c, encodeTile compact s ((List.range 1024).map fun i =>
        let x := c * 64 + i % 64
        match storedLine f row (i / 64) with
        | some line => if x < pw then word line x else blackWord s x
        | none => blackWord s x), false)
  (each ts fun (i, t, con) => seq [
      memWrite (st'.descAddr g slot i) (leBytes 2 (t.desc con)), memWrite (st'.tileAddr g slot i) (t.bytes ++ List.replicate (roundUp 64 t.bytes.length - t.bytes.length) 0)],
    ts.map fun (_, t, _) => (t.mode == .raw, t.sectors))

/-- A word carries luma (or G) in its field L (R74). -/
def lumaWord (s i : Nat) : Bool :=
  match s with | 1 | 2 => i % 3 ≠ 2 | 3 | 4 => i % 2 = 0 | _ => true

/-- The decision record of a frame whose words are given, with what its tiles, digest and luma figures come to (R90). -/
def FrameRec.measured (r : FrameRec) (info : List (Bool × Nat)) (words : List (Nat × Nat)) : FrameRec :=
  let lumas := (words.filter fun e => lumaWord r.sampling e.1).map fun e => e.2 % 4096
  { r with
    tilesRaw := (info.filter (·.1)).length, sectors := (info.map (·.2)).sum
    digest := crc32c (pelBytes (words.map (·.2)))
    minLuma := lumas.foldl min 4095, maxLuma := lumas.foldl max 0 }

/-- The device writes a whole frame of its own into its slot, without ancillary packets, and completes it (R76, R89,
R90). -/
def frameWrite (code : Nat) (fr : Frame) (word : Nat → Nat → Nat) : Prog :=
  .read fun d =>
    let st := d.store code
    let g := d.grain
    let r := fr.rcd
    let rows := (List.range (tileRows r.format)).map fun row =>
      tileRowProg st g r.slot r.format r.sampling r.compact row word fun _ => none
    let pw := pelWords r.sampling (fmtWidth r.format)
    let words := (List.range (fmtLines r.format)).flatMap fun line => (List.range pw).map fun i => (i, word line i)
    let r' := r.measured (rows.flatMap (·.2)) words
    seq [
      each rows (·.1),
      memWrite (st.ancAddr g r.slot) (List.replicate 16384 0),
      memWrite (st.recAddr g r.slot) r'.bytes,
      storeUpd code fun st => st.updFrame r.seq fun e => { e with
        phase := .complete, rows := List.range (tileRows r.format), rcd := r' }]

end Sys2Proof.Machine
end

