-- ==== Sys2Proof/Machine/Pixel.lean ====
section
/-!
DEFINITION. The picture arithmetic of video processors: crop (R148), scaling (R149, R150), frame-rate conversion (R153),
deinterlacing (R154) and the colour stage (R156 to R158).
-/

namespace Sys2Proof.Machine

/-! ### Pictures -/

/-- A picture as component planes: lines in frame order (the lines of field 1 and field 2 interleaved); `dec` says that
the colour difference has half the samples of a line. -/
structure Pic where
  w : Nat
  h : Nat
  dec : Bool
  y : List (List Nat)
  cb : List (List Nat)
  cr : List (List Nat)
  a : List (List Nat)
  deriving DecidableEq, Repr

/-- The stored line of a frame line (R75). -/
def frameLine (f line : Nat) : Nat :=
  if fmtFielded f then line / 2 + (if line % 2 = 1 then fmtLines f / 2 else 0) else line

/-- Every second element, from the first. -/
def evens {α : Type} : List α → List α
  | a :: _ :: r => a :: evens r
  | [a] => [a]
  | [] => []

/-- A picture from its lines of pixels. -/
def Pic.ofLines (dec : Bool) (w : Nat) (ls : List (List Pixel)) : Pic :=
  let c := fun (l : List Nat) => if dec then evens l else l
  { w := w, h := ls.length, dec := dec, y := ls.map (·.map (·.y)), cb := ls.map fun l => c (l.map (·.cb))
    cr := ls.map fun l => c (l.map (·.cr)), a := ls.map (·.map (·.a)) }

/-- One line of a picture as pixels. -/
def Pic.line (p : Pic) (n : Nat) : List Pixel :=
  let y := p.y.getD n []
  let cb := p.cb.getD n []
  let cr := p.cr.getD n []
  let a := p.a.getD n []
  (List.range p.w).map fun x =>
    let c := if p.dec then x / 2 else x
    ⟨y.getD x 0x100, cb.getD c 0x800, cr.getD c 0x800, a.getD x 0xFFF⟩

/-- The colour difference of a sampling has half the samples of a line (R74). -/
def decimated (sampling : Nat) : Bool := sampling == 0 || sampling == 5

/-- A stored frame as a picture, and how many tiles had to be substituted (R96). -/
def Dev.readPic (d : Dev) (st : Store) (f : Frame) : Pic × Nat :=
  let fm := f.rcd.format
  let s := f.rcd.sampling
  let ls := (List.range (fmtLines fm)).map fun n => (linePixels s (fmtWidth fm) (d.readLine st f (frameLine fm n)).1)
  (Pic.ofLines (decimated s) (fmtWidth fm) ls, ((List.range (tileRows fm)).map fun r => d.rowErrors st f r).sum)

/-! ### Crop (R148) -/

/-- A window clipped to a picture. -/
def clipWindow (x w full : Nat) : Nat × Nat := if full ≤ x then (0, full) else (x, min w (full - x))

/-- The window of a picture. -/
def Pic.crop (p : Pic) (x w y h : Nat) : Pic :=
  let ls := fun (l : List (List Nat)) => (l.drop y).take h
  let cx := if p.dec then x / 2 else x
  let cw := if p.dec then (w + 1) / 2 else w
  { p with
    w := w, h := h
    y := (ls p.y).map fun l => (l.drop x).take w, a := (ls p.a).map fun l => (l.drop x).take w
    cb := (ls p.cb).map fun l => (l.drop cx).take cw, cr := (ls p.cr).map fun l => (l.drop cx).take cw }

/-! ### Scaling (R149, R150) -/

/-- Coefficients of one filter: phase and tap to a signed value. -/
abbrev Bank := Nat → Nat → Int

/-- The BILINEAR bank of T taps (R150). -/
def bilinear (t : Nat) : Bank := fun phase i =>
  if i = t / 2 - 1 then ((64 - phase) * 16 : Nat) else if i = t / 2 then (phase * 16 : Nat) else 0

/-- One output sample: the filter at a position in 1/64 of a sample, edges repeated (R149). -/
def filterAt (t : Nat) (coef : Bank) (l : List Nat) (pos64 : Int) : Nat :=
  let i := pos64 / 64
  let ph := (pos64 % 64).toNat
  let last : Int := l.length - 1
  let s := ((List.range t).map fun k =>
    coef ph k * (l.getD (clampI 0 last (i - t / 2 + 1 + k)).toNat 0 : Int)).sum
  (clampI 0 4095 ((s + 512) / 1024)).toNat

/-- The positions of an axis (R149): luma, or the co-sited chroma of 4:2:2. -/
def axisPos (cosited : Bool) (win wout x : Nat) : Int :=
  if cosited then ((x * win * 64 / wout : Nat) : Int) else (((2 * x + 1) * win * 64 / (2 * wout) : Nat) : Int) - 32

/-- One line resampled. -/
def scaleLine (t : Nat) (coef : Bank) (cosited : Bool) (wout : Nat) (l : List Nat) : List Nat :=
  (List.range wout).map fun x => filterAt t coef l (axisPos cosited l.length wout x)

/-- The columns of a plane as lines. -/
def columns (w : Nat) (ls : List (List Nat)) : List (List Nat) := (List.range w).map fun x => ls.map fun l => l.getD x 0

/-- The positions of the lines of one field of an interlaced output: field 2 lies half an output frame line lower. -/
def fieldPos (second : Bool) (win wout y : Nat) : Int :=
  (((4 * y + (if second then 3 else 2)) * win * 64 / (4 * wout) : Nat) : Int) - 32

/-- How lines map on the vertical axis: a progressive output, or two fields from a progressive or an interlaced
picture (R149). -/
inductive VMode where
  | progressive | fieldsOfFrame | fieldsOfFields
  deriving DecidableEq, Repr

/-- One column resampled. -/
def scaleColumn (m : VMode) (t : Nat) (coef : Bank) (hout : Nat) (l : List Nat) : List Nat :=
  match m with
  | .progressive => scaleLine t coef false hout l
  | .fieldsOfFrame => (List.range hout).map fun n =>
      filterAt t coef l (fieldPos (n % 2 == 1) l.length (hout / 2) (n / 2))
  | .fieldsOfFields => (List.range hout).map fun n =>
      let f := if n % 2 = 1 then evens (l.drop 1) else evens l
      filterAt t coef f (fieldPos (n % 2 == 1) f.length (hout / 2) (n / 2))

/-- The four banks of a scaler (R150): luma and chroma on each axis. -/
structure Banks where
  hl : Bank
  hc : Bank
  vl : Bank
  vc : Bank

/-- A plane resampled on both axes: horizontal first when the output is narrower than the crop (R149). -/
def scalePlane (m : VMode) (ht vt : Nat) (hb vb : Bank) (cosited : Bool) (wout hout : Nat) (ls : List (List Nat)) :
    List (List Nat) :=
  let hor := fun (l : List (List Nat)) => l.map (scaleLine ht hb cosited wout)
  let ver := fun (w : Nat) (l : List (List Nat)) =>
    columns hout ((columns w l).map (scaleColumn m vt vb hout))
  let win := (ls.headD []).length
  if wout < win then ver wout (hor ls) else hor (ver win ls)

/-- A picture resampled (R149). -/
def Pic.scale (p : Pic) (m : VMode) (ht vt : Nat) (b : Banks) (wout hout : Nat) : Pic :=
  let cw := if p.dec then (wout + 1) / 2 else wout
  { p with
    w := wout, h := hout
    y := scalePlane m ht vt b.hl b.vl false wout hout p.y, a := scalePlane m ht vt b.hl b.vl false wout hout p.a
    cb := scalePlane m ht vt b.hc b.vc p.dec cw hout p.cb, cr := scalePlane m ht vt b.hc b.vc p.dec cw hout p.cr }

/-! ### Frame-rate conversion (R153) -/

/-- Two planes combined sample by sample. -/
def zipPlanes (f : Nat → Nat → Nat) (a b : List (List Nat)) : List (List Nat) := List.zipWith (List.zipWith f) a b

/-- The blend of two pictures by w16 sixteenths. -/
def Pic.blend (a b : Pic) (w16 : Nat) : Pic :=
  let f := fun x y => ((16 - w16) * x + w16 * y + 8) / 16
  { a with y := zipPlanes f a.y b.y, cb := zipPlanes f a.cb b.cb, cr := zipPlanes f a.cr b.cr, a := zipPlanes f a.a b.a }

/-- The weight of the second frame (R153). -/
def blendWeight (snap : Nat) (t a b : Int) : Nat :=
  let w := (clampI 0 16 ((32 * (t - a) + (b - a)) / (2 * max 1 (b - a)))).toNat
  if w ≤ snap then 0 else if 16 - snap ≤ w then 16 else w

/-! ### Deinterlacing (R154) -/

/-- The absolute difference. -/
def absDiff (a b : Nat) : Nat := max a b - min a b

/-- The value of S for a missing luma sample, from the fields c − 1 and c − 3 and the motion store (R154). -/
def motionS (threshold gain : Nat) (c1 c3 : Option Nat) (prev : Nat) : Nat :=
  match c1, c3 with
  | some a, some b =>
    let q := (clampI 0 16 ((((absDiff a b : Nat) : Int) - threshold) * gain / 16)).toNat
    max q (prev - 1)
  | _, _ => 16

/-- The spatial interpolation of a missing sample (R154). -/
def spatial (above below : List Nat) (x : Nat) : Nat :=
  let last := above.length - 1
  let at_ := fun (l : List Nat) (i : Int) => l.getD (clampI 0 last i).toNat 0
  let cost := fun (e : Int) => absDiff (at_ above (x + e)) (at_ below (x - e))
  let d : Int := if cost (-1) < cost 0 ∧ cost (-1) ≤ cost 1 then -1
    else if cost 1 < cost 0 then 1 else 0
  (at_ above (x + d) + at_ below (x - d) + 1) / 2

/-- The fields a deinterlaced frame is built from: the current frame, its current field (0 or 1), and the pictures that
hold fields c − 1 and c − 3. -/
structure DeintIn where
  cur : Pic
  parity : Nat
  c1 : Option Pic
  c3 : Option Pic

/-- The S of every missing luma sample of a line, in order. -/
def DeintIn.sLine (i : DeintIn) (threshold gain : Nat) (motion : Nat → Nat → Nat) (n : Nat) : List Nat :=
  (List.range i.cur.w).map fun x =>
    let s := fun (p : Option Pic) => p.map fun q => (q.y.getD n []).getD x 0
    motionS threshold gain (s i.c1) (s i.c3) (motion n x)

/-- One plane deinterlaced; `sOf` gives S at a line and a luma position, `c` the luma positions of a sample. -/
def deintPlane (parity h : Nat) (cur : List (List Nat)) (c1 : Option (List (List Nat))) (sOf : Nat → Nat → Nat)
    (lumaOf : Nat → Nat) : List (List Nat) :=
  (List.range h).map fun n =>
    let line := fun k => cur.getD k []
    if n % 2 = parity then line n
    else
      let above := line (if n = 0 then n + 1 else n - 1)
      let below := line (if n + 1 < h then n + 1 else n - 1)
      (List.range above.length).map fun x =>
        let s := sOf n (lumaOf x)
        let sp := spatial above below x
        let t := match c1 with | some p => (p.getD n []).getD x sp | none => sp
        (s * sp + (16 - s) * t + 8) / 16

/-- The deinterlaced picture (R154). Chroma uses the S of the luma sample of its pel word. -/
def DeintIn.picture (i : DeintIn) (sOf : Nat → Nat → Nat) : Pic :=
  let p := fun (f : Pic → List (List Nat)) (l : Nat → Nat) =>
    deintPlane i.parity i.cur.h (f i.cur) (i.c1.map f) sOf l
  { i.cur with y := p (·.y) id, a := p (·.a) id
               cb := p (·.cb) (fun x => if i.cur.dec then 2 * x else x)
               cr := p (·.cr) (fun x => if i.cur.dec then 2 * x + 1 else x) }

/-! ### Colour (R156 to R158) -/

/-- A curve applied to a 16-bit value (R156). -/
def applyCurve (curve : List Nat) (v : Nat) : Nat :=
  let i := v / 64
  let f := v % 64
  (curve.getD i 0 * (64 - f) + curve.getD (i + 1) 0 * f + 32) / 64

/-- A matrix of R157: coefficients row by row, pre-offsets and post-offsets. -/
structure Matrix3 where
  k : List Int
  pre : List Int
  post : List Int
  deriving DecidableEq, Repr

/-- A matrix applied to three 16-bit values (R157). -/
def Matrix3.apply (m : Matrix3) (v : List Nat) : List Nat :=
  (List.range 3).map fun r =>
    let s := ((List.range 3).map fun c => m.k.getD (3 * r + c) 0 * ((v.getD c 0 : Int) + m.pre.getD c 0)).sum
    (clampI 0 65535 ((s + 8192) / 16384 + m.post.getD r 0)).toNat

/-- The components in falling order of their fractions, ties by ascending index (R158). -/
def lutOrder (f : List Nat) : List Nat :=
  let (a, b, c) := (f.getD 0 0, f.getD 1 0, f.getD 2 0)
  if b ≤ a ∧ c ≤ b then [0, 1, 2]
  else if c ≤ a ∧ b ≤ c then [0, 2, 1]
  else if a < b ∧ c ≤ a then [1, 0, 2]
  else if c ≤ b ∧ a < c then [1, 2, 0]
  else if b ≤ a then [2, 0, 1]
  else [2, 1, 0]

/-- A 3D LUT applied to three 16-bit values by tetrahedral interpolation (R158); an entry holds c0, c1 and c2 in 12 bits
each. -/
def applyLut (entry : Nat → Nat) (v : List Nat) : List Nat :=
  let i := v.map (· / 2048)
  let f := v.map (· % 2048)
  let o := lutOrder f
  let bump := fun (l : List Nat) (c : Nat) => l.zipIdx.map fun e => if e.2 = c then min (e.1 + 1) 32 else e.1
  let p1 := bump i (o.getD 0 0)
  let p2 := bump p1 (o.getD 1 0)
  let p3 := bump p2 (o.getD 2 0)
  let at_ := fun (l : List Nat) => entry ((l.getD 2 0 * 33 + l.getD 1 0) * 33 + l.getD 0 0)
  let fo := fun k => f.getD (o.getD k 0) 0
  (List.range 3).map fun c =>
    let e := fun l => bitsOf (at_ l) (12 * c) 12
    ((((2048 - fo 0) * e i + (fo 0 - fo 1) * e p1 + (fo 1 - fo 2) * e p2 + fo 2 * e p3) * 16 + 1024) / 2048)

/-- What the colour stage of a processor holds: which steps run, curves, matrices and the LUT. -/
structure Colour where
  inCurve : Bool
  inMatrix : Bool
  lut : Bool
  outMatrix : Bool
  outCurve : Bool
  curves : Nat → List Nat
  m0 : Matrix3
  m1 : Matrix3
  entry : Nat → Nat

/-- The colour stage on one pixel of 4:4:4 (R156). -/
def Colour.apply (c : Colour) (p : Pixel) : Pixel :=
  let v := [p.y * 16, p.cb * 16, p.cr * 16]
  let curve := fun (base : Nat) (l : List Nat) => l.zipIdx.map fun e => applyCurve (c.curves (base + e.2)) e.1
  let v := if c.inCurve then curve 0 v else v
  let v := if c.inMatrix then c.m0.apply v else v
  let v := if c.lut then applyLut c.entry v else v
  let v := if c.outMatrix then c.m1.apply v else v
  let v := if c.outCurve then curve 3 v else v
  let o := v.map fun x => min 4095 ((x + 8) / 16)
  ⟨o.getD 0 0, o.getD 1 0, o.getD 2 0, p.a⟩

/-- The colour stage has something to do. -/
def Colour.any (c : Colour) : Bool := c.inCurve || c.inMatrix || c.lut || c.outMatrix || c.outCurve

/-- The colour stage and the conversion to the output sampling, on the lines of a picture (R147, R156, R158): the stage
works at 4:4:4; alpha bypasses it, is dropped without alpha in the output, and is opaque without alpha in the input. -/
def colourLine (c : Colour) (sIn sOut : Nat) (ps : List Pixel) : List Pixel :=
  let ps := if c.any then (convertSampling sIn 1 ps).map c.apply else ps
  let from_ := if c.any then 1 else sIn
  let ps := convertSampling from_ (if decimated sOut then 0 else 1) ps
  if hasAlpha sOut && hasAlpha sIn then ps else ps.map fun p => { p with a := 0xFFF }

end Sys2Proof.Machine
end

