-- ==== Sys2Proof/Machine/Bandwidth.lean ====
section
/-!
DEFINITION. The HBM bandwidth budget: planned demand D and its admission (R23 to R27). Demand is counted in units of
1/40,040 byte per second, in which every term of R24 is whole.
-/

namespace Sys2Proof.Machine

/-- The instances whose word of a register kind is written with bit 0 (the function's enable) set. -/
def Dev.enabledOf (d : Dev) (k : RK) : List Nat :=
  d.regs.filterMap fun e => if e.1.kind = k ∧ bitOf e.2.toNat 0 then some e.1.i else none

/-- Units of demand in a byte per second. -/
def demandUnit : Nat := 40040

/-- One term of demand: bytes of a frame, its rate code, and the planning ratio in steps of 0.05 (R24, R25). -/
def demandTerm (bytes rate ratio20 : Nat) : Nat :=
  bytes * (rateFrac rate).1 * (1001 / (rateFrac rate).2) * ratio20 * 2

/-- The planning ratio of a store in steps of 0.05: 20 for a raw store (R25). -/
def ratio20 (compact : Bool) (code : Nat) : Nat := if compact then 12 + min code 8 else 20

/-- The ratio of a source's hogshead. -/
def Dev.srcRatio (d : Dev) (n : Nat) : Nat := ratio20 (d.flag (F.SRC_CTRL_compact n)) (d.fld (F.SRC_CTRL_ratio n))

/-- The ratio of a derived source's hogshead. -/
def Dev.prcRatio (d : Dev) (n : Nat) : Nat := ratio20 (d.flag (F.PRC_OUT_compact n)) (d.fld (F.PRC_OUT_ratio n))

/-- The ratio of a head's output hogshead. -/
def Dev.mvhRatio (d : Dev) (n : Nat) : Nat := ratio20 (d.flag (F.MVH_OUT_compact n)) (d.fld (F.MVH_OUT_ratio n))

/-- The stored geometry of a format (R123): active width, active lines, progressive or field-stored. -/
def geometry (f : Nat) : Nat × Nat × Bool := (fmtWidth f, fmtLines f, fmtFielded f)

/-- The format of an OTG: the one in force, or the one it is configured for while it is OFF (R62). -/
def Dev.otgFormat (d : Dev) (n : Nat) : Nat :=
  if d.fst (.otg (Fin.ofNat 32 n)) == .off then d.fld (F.OTG_CTRL_format n) else (d.otgm n).format

/-- The format of a head: that of its OTG. -/
def Dev.mvhFormat (d : Dev) (h : Nat) : Nat := d.otgFormat (d.fld (F.MVH_CTRL_otg h))

/-- The format of a head that its planned demand counts: the one its OTG is configured for (R26). -/
def Dev.mvhPlan (d : Dev) (h : Nat) : Nat := d.fld (F.OTG_CTRL_format (d.fld (F.MVH_CTRL_otg h)))

/-- The format a destination runs on: its own copy while it flywheels, otherwise its OTG's (R24, R136). -/
def Dev.dstFormat (d : Dev) (n : Nat) : Nat :=
  match (KV.get {} d.x.dst n).fly with
  | some f => f.1.format
  | none => d.otgFormat (d.fld (F.DST_CTRL_otg n))

/-- The format of a destination that its planned demand counts: the one it runs on while it flywheels, otherwise the one
its OTG is configured for (R24, R26). -/
def Dev.dstPlan (d : Dev) (n : Nat) : Nat :=
  match (KV.get {} d.x.dst n).fly with
  | some f => f.1.format
  | none => d.fld (F.OTG_CTRL_format (d.fld (F.DST_CTRL_otg n)))

/-- A processor publishes a derived source: it is not on a destination path (R24). -/
def Dev.prcPublishes (d : Dev) (p : Nat) : Bool := d.fld (F.PRC_CTRL_place p) == 1

/-- The processor whose gang produces derived code 0x400 + p: itself, or the leader of a gang of an 8K group (R142). -/
def Dev.producer (d : Dev) (p : Nat) : Nat :=
  if p % 16 < 4 ∧ d.flag (F.PRC_CTRL_quad_member (p - p % 16)) then p - p % 16 + 4 * (p % 16) else p

/-- The code a publishing processor reads: in an 8K group, its quadrant of the input (R142, R144). -/
def Dev.prcSource (d : Dev) (p : Nat) : Nat :=
  d.fld (F.PRC_INPUT_source p) +
    (if d.flag (F.PRC_CTRL_quad_member p) then d.fld (F.PRC_CTRL_quad_pos p) else 0)

/-- What a source code's store reads as for planning: its raw frame bytes and its ratio (R24). -/
def Dev.planStore (d : Dev) (code : Nat) : Option (Nat × Nat) :=
  if code < 0x400 then
    if d.flag (F.SRC_CTRL_enable code) then
      some (frameBytes (d.fld (F.SRC_FMT_max_format code)) (d.fld (F.SRC_FMT_max_sampling code)), d.srcRatio code)
    else none
  else if code < 0x600 then
    let p := d.producer (code - 0x400)
    if d.flag (F.PRC_CTRL_enable p) then
      some (frameBytes (d.fld (F.PRC_OUT_FMT_format p)) (d.fld (F.PRC_OUT_FMT_sampling p)), d.prcRatio p)
    else none
  else if code < 0x700 then
    if d.fld (F.SURF_STATE_state (code - 0x600)) ≠ 0 then
      some (frameBytes (d.fld (F.SURF_STATE_format (code - 0x600))) (d.fld (F.SURF_STATE_sampling (code - 0x600))), 20)
    else none
  else if 0x710 ≤ code ∧ code < 0x730 then
    if d.flag (F.MVH_CTRL_enable (code - 0x710)) then
      some (frameBytes (d.mvhPlan (code - 0x710)) 0, d.mvhRatio (code - 0x710))
    else none
  else none

/-- The geometries and ratios of the configured stores (R24, the scan-out term). -/
def Dev.storeRatios (d : Dev) : List ((Nat × Nat × Bool) × Nat) :=
  ((d.enabledOf .SRC_CTRL).map fun n => (geometry (d.fld (F.SRC_FMT_max_format n)), d.srcRatio n)) ++
  (((d.enabledOf .PRC_CTRL).filter d.prcPublishes).map fun p => (geometry (d.fld (F.PRC_OUT_FMT_format p)), d.prcRatio p)) ++
  ((d.enabledOf .MVH_CTRL).map fun h => (geometry (d.mvhPlan h), d.mvhRatio h)) ++
  (((List.range 256).filter fun s => d.fld (F.SURF_STATE_state s) ≠ 0).map fun s =>
    (geometry (d.fld (F.SURF_STATE_format s)), 20))

/-- The planned demand D (R24). -/
def Dev.demand (d : Dev) : Nat :=
  let ratios := d.storeRatios
  let largest := fun f =>
    let l := (ratios.filter fun e => e.1 == geometry f).map (·.2)
    if l.isEmpty then 20 else l.foldl max 0
  let ingress := (d.enabledOf .SRC_CTRL).map fun n =>
    let f := d.fld (F.SRC_FMT_max_format n)
    if fmtLegal f then
      demandTerm (frameBytes f (d.fld (F.SRC_FMT_max_sampling n))) (fmtRate f) (d.srcRatio n) +
        demandTerm (proxyBytes f) (fmtRate f) 20
    else 0
  let scan := ((d.enabledOf .DST_CTRL).filter fun n => !d.flag (F.DST_CTRL_opaque n)).map fun n =>
    let f := d.dstPlan n
    if fmtLegal f then demandTerm (frameBytes f (d.fld (F.DST_CTRL_out_sampling n))) (fmtRate f) (largest f) else 0
  let proc := (d.enabledOf .PRC_CTRL).map fun p =>
    let f := d.fld (F.PRC_OUT_FMT_format p)
    let out := frameBytes f (d.fld (F.PRC_OUT_FMT_sampling p))
    let a2 := if d.flag (F.PRC_FUNC_frc p) then 4 else if d.flag (F.PRC_FUNC_deint p) then 3 else 2
    if !fmtLegal f then 0
    else if d.prcPublishes p then
      (match d.planStore (d.prcSource p) with
        | some (b, c) => demandTerm b (fmtRate f) c * a2 / 2
        | none => 0) + demandTerm out (fmtRate f) (d.prcRatio p)
    else demandTerm out (fmtRate f) 20 * a2 / 2
  let heads := (d.enabledOf .MVH_CTRL).map fun h =>
    let f := d.mvhPlan h
    if !fmtLegal f then 0
    else
      demandTerm (frameBytes f 0) (fmtRate f) (d.mvhRatio h) +
      ((List.range 64).map fun t =>
        if !d.flag (F.MVH_T_SRC_enable h t) then 0
        else
          let code := d.fld (F.MVH_T_SRC_source h t)
          if d.fld (F.MVH_T_SRC_mode h t) = 0 ∧ code < 0x400 then
            demandTerm (proxyBytes (d.fld (F.SRC_FMT_max_format code))) (fmtRate f) 20
          else match d.planStore code with
            | some (b, c) => demandTerm b (fmtRate f) c
            | none => 0).sum
  ingress.sum + scan.sum + proc.sum + heads.sum

/-- The limit of R23: 4,915.2 GB/s × 8/9 × 0.78 × 0.90 = 3,067,084,800,000 bytes per second. -/
def demandLimit : Nat := 3067084800000 * demandUnit

/-- A change is refused when it raises D and D then exceeds the limit (R26). -/
def overBudget (before after : Dev) : Bool :=
  decide (before.demand < after.demand) && decide (demandLimit < after.demand)

/-- HBM_PLAN follows D, in MB/s (R376). -/
def planUpdate : Prog := .read fun d => wr R.HBM_PLAN (min (d.demand / (demandUnit * 1000000)) 0xFFFFFFFF)

end Sys2Proof.Machine
end

