-- ==== Sys2Proof/Machine/Ctrl.lean ====
section
/-!
DEFINITION. The Rygus command intake every command row goes through: the checks of R442, permission (R431), completions
and their delivery (R427 to R430, R436 to R440), and mirroring to the twin (R405).
-/

namespace Sys2Proof.Machine

/-! ### Reason codes (R443) -/

namespace Reason

def badOpcode : Nat := 0x0001
def badLength : Nat := 0x0002
def badField : Nat := 0x0003
def notPermitted : Nat := 0x0004
def notActive : Nat := 0x0005
def notOff : Nat := 0x0006
def badDest : Nat := 0x0101
def badSource : Nat := 0x0102
def badLevel : Nat := 0x0103
def quadMismatch : Nat := 0x0104
def locked : Nat := 0x0105
def isProtected : Nat := 0x0106
def heldByOther : Nat := 0x0107
def hogsheadShort : Nat := 0x0108
def lineModeIneligible : Nat := 0x0109
def badPlacement : Nat := 0x010A
def duplicateDest : Nat := 0x010B
def chainBusy : Nat := 0x010C
def chainFired : Nat := 0x010D
def badDelay : Nat := 0x010E
def bandwidth : Nat := 0x0201
def noMemory : Nat := 0x0202
def surfaceBusy : Nat := 0x0203
def badProc : Nat := 0x0301
def gangBusy : Nat := 0x0302
def badFormat : Nat := 0x0303
def badRatio : Nat := 0x0304
def badTaps : Nat := 0x0305
def badCoef : Nat := 0x0306
def lutNotReady : Nat := 0x0307
def lutBusy : Nat := 0x0308
def budget : Nat := 0x0309
def ells : Nat := 0x030A
def badHead : Nat := 0x0401
def tileLimit : Nat := 0x0402
def badGlyph : Nat := 0x0403
def duplicateGlyph : Nat := 0x0404
def badChannel : Nat := 0x0501
def badBinding : Nat := 0x0502
def badTone : Nat := 0x0503
def badFraming : Nat := 0x0504
def badPort : Nat := 0x0505
def badFlow : Nat := 0x0601
def flowBusy : Nat := 0x0602
def linkCapacity : Nat := 0x0603
def tableFull : Nat := 0x0604
def opaqueLimit : Nat := 0x0605
def badPacing : Nat := 0x0606
def noStandby : Nat := 0x0701
def swapPending : Nat := 0x0702
def swapRefused : Nat := 0x0703

end Reason

/-! ### Intakes -/

/-- The number of the next command: above that of every command in progress. -/
def CtlState.fresh (c : CtlState) : Nat := c.cmds.foldl (fun n e => max n (e.id + 1)) c.nextId

/-- Changes the control complex's state. -/
def ctlUpd (f : CtlState → CtlState) : Prog := ext fun x => { x with ctl := f x.ctl }

/-- What a ring holds. -/
def Dev.ringm (d : Dev) (r : Nat) : RingMem := KV.get {} d.x.ctl.rings r

/-- Changes what a ring holds. -/
def ringUpd (r : Nat) (f : RingMem → RingMem) : Prog :=
  ctlUpd fun c => { c with rings := KV.upd {} c.rings r f }

/-- What a session holds. -/
def Dev.sessm (d : Dev) (s : Nat) : SessMem := KV.get {} d.x.ctl.sess s

/-- Changes what a session holds. -/
def sessUpd (s : Nat) (f : SessMem → SessMem) : Prog :=
  ctlUpd fun c => { c with sess := KV.upd {} c.sess s f }

/-- The key of an intake: its number among rings and sessions, whatever the ring's slot. -/
def intakeKey : Intake → Nat
  | .ring r _ => r
  | .session s => 16 + s

/-- An intake can receive: its ring is ON, or its session is open (R427, R434). -/
def Dev.intakeOpen (d : Dev) : Intake → Bool
  | .ring r _ => d.on (.ring r)
  | .session s => d.flag (F.CMD_SESS_STATE_open s)

/-- An intake's controller ID (R431). -/
def Dev.controller (d : Dev) : Intake → Nat
  | .ring r _ => d.fld (F.CMD_RING_CTRL_controller r)
  | .session s => d.fld (F.CMD_SESS_STATE_controller s)

/-- The entries of a ring (R427). -/
def Dev.ringSize (d : Dev) (r : Nat) : Nat := 2 ^ clampN 4 12 (d.fld (F.CMD_RING_CTRL_size_log2 r))

/-! ### Completions (R428 to R430, R436, R439, R440) -/

/-- The status word of a completion (R440). -/
def statusWord (st : CmdState) (reason : Nat) : Nat :=
  (match st with
    | .accepted => 1 | .armed => 2 | .committed => 3 | .done => 4 | .rejected => 5 | .deferred => 6) * 2 ^ 28 +
  reason % 2 ^ 16

/-- A completion is discarded (R451). -/
def dropCpl : Prog := inc R.CMD_CNT_DROP_CPL

/-- Writes a completion to a ring's CQ (R429): a ring in ON or STOPPING (R427), or in FAULT with its CQ base set (R432). -/
def cqWrite (r : RingId) (slot : RingSlot) (c : Completion) : Prog :=
  .read fun d =>
    let ok := d.on (.ring r) || d.fst (.ring r) == .stopping || (d.fst (.ring r) == .fault && d.rd64 (R.CMD_RING_CQ_BASE_LO r) (R.CMD_RING_CQ_BASE_HI r) ≠ 0)
    let bytes := 16 + 4 * c.body.length
    let long := decide (56 < bytes)
    let written := if long then min bytes slot.respLen else 0
    let tail := d.fld (F.CMD_RING_CQ_TAIL_next r)
    let phase := d.flag (F.CMD_RING_CQ_TAIL_phase r)
    let next := (tail + 1) % d.ringSize r
    if !ok then dropCpl
    else seq [
      doIf (decide (0 < written)) (emit (.resp slot.respAddr written c)),
      emit (.cq r tail c written phase (long && decide (slot.respLen < bytes)) slot.sqIndex),
      setF (F.CMD_RING_CQ_TAIL_next r) next,
      setB (F.CMD_RING_CQ_TAIL_phase r) (if next = 0 then !phase else phase),
      inc (R.CMD_RING_CNT_CPL r),
      ringUpd r fun m => { m with cqUsed := m.cqUsed + 1, unsignalled := m.unsignalled + 1 }]

/-- Sends a completion in a datagram of a session (R433, R436); a final one is remembered, the last 256 of them. -/
def sessSend (s : SessId) (final : Bool) (c : Completion) : Prog :=
  .read fun d =>
    if !d.flag (F.CMD_SESS_STATE_open s) then dropCpl
    else seq [
      emit (.datagram (d.rd (R.CMD_SESS_ID s)) (d.sessm s).txCounter c),
      sessUpd s fun m => { m with
        txCounter := m.txCounter + 1
        remembered := if final then ((c.seq, c) :: m.remembered).take 256 else m.remembered }]

/-- Delivers a completion to an intake. -/
def deliver (i : Intake) (final : Bool) (c : Completion) : Prog :=
  match i with
  | .ring r slot => cqWrite r slot c
  | .session s => sessSend s final c

/-- Delivers a completion of a mirrored command on the new active: to every ring and session of its controller
(R416, R451). -/
def deliverHandover (controller : Nat) (final : Bool) (c : Completion) : Prog :=
  .read fun d =>
    let rings := (List.finRange 16).filter fun r => d.on (.ring r) && d.fld (F.CMD_RING_CTRL_controller r) == controller
    let sess := (List.finRange 32).filter fun (s : SessId) =>
      d.flag (F.CMD_SESS_STATE_open s) && d.fld (F.CMD_SESS_STATE_controller s) == controller
    if rings.isEmpty && sess.isEmpty then dropCpl
    else seq [each rings fun r => cqWrite r {} c, each sess fun s => sessSend s final c]

/-- CMD_STATUS follows the commands in progress and the open sessions (R453). -/
def cmdStatus : Prog :=
  .read fun d => seq [
    setF F.CMD_STATUS_commands (min d.x.ctl.cmds.length 0xFFFF),
    setF F.CMD_STATUS_sessions ((List.range 32).filter fun s => d.flag (F.CMD_SESS_STATE_open s)).length]

/-- Sends a completion of a command in progress; a final one ends the command (R437). `flags` holds the bits above
final of R439. -/
def sendCompletion (id : Nat) (final : Bool) (st : CmdState) (reason flags : Nat) (body : List Nat) : Prog :=
  .read fun d =>
    match d.x.ctl.cmds.find? fun c => c.id == id with
    | none => .nop
    | some c =>
      let cpl : Completion :=
        { opcode := c.opcode, seq := c.seq, status := statusWord st reason, body := body
          flags := 1 + boolBit final * 2 + flags }
      seq [
        match c.hdr with
        | some h => if c.lost then dropCpl else deliver h.intake final cpl
        | none =>
          if d.tstate = 2 ∨ d.tstate = 3 then deliverHandover c.controller final { cpl with flags := cpl.flags + 4 }
          else .nop,
        if final then
          seq [ctlUpd fun x => { x with
              cmds := x.cmds.filter fun e => e.id ≠ id
              finished := match c.hdr with
                | some h => if c.lost then x.finished else (h.intake, c.seq, st) :: x.finished
                | none => x.finished },
            match c.hdr with
            | some { intake := .ring r _, .. } => ringUpd r fun m => { m with reserved := m.reserved - c.reserved }
            | _ => .nop,
            doIf (st == .rejected) (inc R.CMD_CNT_REJECTED), cmdStatus]
        else
          seq [ctlUpd fun x => { x with cmds := x.cmds.map fun e =>
              if e.id = id then { e with state := st, reserved := e.reserved - 1 } else e },
            match c.hdr with
            | some { intake := .ring r _, .. } => ringUpd r fun m => { m with reserved := m.reserved - 1 }
            | _ => .nop]]

/-- The final completion at DONE. -/
def finish (id flags : Nat) (body : List Nat) : Prog := sendCompletion id true .done 0 flags body

/-- The final completion at REJECTED. -/
def reject (id reason : Nat) : Prog := sendCompletion id true .rejected reason 0 []

/-- A command in progress has reached a state that sends no completion (R105, R440). -/
def setCmdState (id : Nat) (st : CmdState) : Prog :=
  ctlUpd fun x => { x with cmds := x.cmds.map fun e => if e.id = id then { e with state := st } else e }

/-! ### The intake pipeline (R437, R442) -/

/-- Who a command's effect comes from: its number, the controller it acts for, the sender's sequence, whether it is
mirrored from the active, the command itself, and its commit instant in house time (R405). -/
structure Orig where
  id : Nat
  controller : Nat
  seq : Nat
  mirrored : Bool
  cmd : Cmd
  instant : Int

/-- What the intake needs to know of a command: its opcode (R441), the controller field of its body (R431), whether
its body's reserved fields and ranges are right (R442), and its effect. -/
structure CmdSpec where
  opcode : Nat
  controller : Option Nat := none
  ok : Bool := true
  prog : Orig → Prog

/-- The command is a QUERY_* or a HEALTH_* command. -/
def isQuery (opcode : Nat) : Bool := opcode / 256 == 4
def isHealth (opcode : Nat) : Bool := opcode / 256 == 0x0B

/-- The first check of R442 that fails, from permission on; before ROUTING only queries are accepted (R455). -/
def Dev.intakeCheck (d : Dev) (i : Intake) (sp : CmdSpec) : Option Nat :=
  let c := d.controller i
  let t := d.tstate
  if (c = 0xFFFF ∧ !isQuery sp.opcode) ∨ (c ≠ 0 ∧ sp.controller.isSome ∧ sp.controller ≠ some c) then
    some Reason.notPermitted
  else if d.fld F.BOOT_STATUS_phase < 8 && !isQuery sp.opcode then some Reason.notActive
  else if !(t == 0 || t == 2 || t == 3) && !isQuery sp.opcode && !isHealth sp.opcode then some Reason.notActive
  else if !sp.ok then some Reason.badField
  else none

/-- A message is completely received: the counters count it (R453). -/
def countRx (i : Intake) : Prog :=
  seq [inc R.CMD_CNT_RX,
    match i with
    | .ring r _ => inc (R.CMD_RING_CNT_CMD r)
    | .session s => inc (R.CMD_SESS_CNT_CMD s)]

/-- A repeated sequence of a session (R436): the remembered completion is sent again, or the message is discarded while
its command is in progress. -/
def Dev.duplicate (d : Dev) (h : Hdr) : Option (Option Completion) :=
  match h.intake with
  | .ring _ _ => none
  | .session s =>
    match (d.sessm s).remembered.find? fun e => e.1 == h.seq with
    | some e => some (some e.2)
    | none =>
      if d.x.ctl.cmds.any fun c => match c.hdr with
          | some g => intakeKey g.intake == intakeKey h.intake && g.seq == h.seq && !c.lost
          | none => false
      then some none else none

/-- Opens the record of a received command. -/
def openCmd (h : Hdr) (controller opcode : Nat) : Prog :=
  .read fun d => seq [
    ctlUpd fun x => { x with
      nextId := x.fresh + 1
      cmds := x.cmds ++ [{ id := x.fresh, hdr := some h, controller := controller, seq := h.seq, opcode := opcode
                           state := .accepted, received := d.x.time.clk, reserved := 2 }] },
    match h.intake with
    | .ring r _ => ringUpd r fun m => { m with reserved := m.reserved + 2 }
    | .session _ => .nop,
    cmdStatus]

/-- A message is completely received on an open intake (R436, R437): it is counted, and a new command is opened with its
number and controller. -/
def received (h : Hdr) (controller : Option Nat) (opcode : Nat) (act : Nat → Nat → Prog) : Prog :=
  .read fun d =>
    if !d.intakeOpen h.intake then .nop
    else seq [
      countRx h.intake,
      match d.duplicate h with
      | some (some c) => seq [inc R.CMD_CNT_DUP,
          match h.intake with | .session s => sessSend s false c | .ring _ _ => .nop]
      | some none => inc R.CMD_CNT_DUP
      | none =>
        let ctl := controller.getD (d.controller h.intake)
        seq [openCmd h ctl opcode, act d.x.ctl.fresh ctl]]

/-- A command row: the message is completely received, checked in the order of R442, and has its effect. -/
def rygus (h : Hdr) (cmd : Cmd) (sp : CmdSpec) : Prog :=
  received h sp.controller sp.opcode fun id ctl => .read fun d =>
    match d.intakeCheck h.intake sp with
    | some r => reject id r
    | none => sp.prog { id := id, controller := ctl, seq := h.seq, mirrored := false, cmd := cmd, instant := d.x.time.ht }

/-- A command mirrored by the active (R405): it has its effect without a check. -/
def rygusMirrored (m : CommitMsg) (sp : CmdSpec) : Prog :=
  .read fun d =>
    let id := d.x.ctl.fresh
    seq [
      ctlUpd fun x => { x with
        nextId := x.fresh + 1
        cmds := x.cmds ++ [{ id := id, hdr := none, controller := m.controller, seq := m.seq, opcode := sp.opcode
                             state := .accepted, received := d.x.time.clk, reserved := 0 }] },
      cmdStatus,
      sp.prog { id := id, controller := m.controller, seq := m.seq, mirrored := true, cmd := m.cmd, instant := m.instant }]

/-! ### Committing (R105, R405) -/

/-- The active of a pair sends a COMMIT message for a command that changes state (R405). -/
def mirrorCommit (o : Orig) : Prog :=
  .read fun d =>
    doIf (!o.mirrored && d.mirrors) (seq [
      wr R.TWIN_COMMIT_CNT ((d.rd R.TWIN_COMMIT_CNT + 1) % 2 ^ 32),
      emit (.twinCommit { counter := (d.rd R.TWIN_COMMIT_CNT + 1) % 2 ^ 32, controller := o.controller, seq := o.seq
                          cmd := o.cmd, instant := d.x.time.ht })])

/-- The longest reception-to-commit time, in 0.1 µs (R453). -/
def noteLatency (id : Nat) : Prog :=
  .read fun d =>
    match d.x.ctl.cmds.find? fun c => c.id == id with
    | some c =>
      let t := min ((d.x.time.clk - c.received) / (100 * nsU)) 0xFFFF
      doIf (c.hdr.isSome && decide (d.rd R.CMD_COMMIT_LAT_MAX < t)) (wr R.CMD_COMMIT_LAT_MAX t)
    | none => .nop

/-- A command with its chapter's checks: the first failure rejects it; otherwise it is committed and has its effect. A
mirrored command repeats no check (R405). -/
def checked (o : Orig) (chk : Dev → Option Nat) (p : Prog) : Prog :=
  .read fun d =>
    match (if o.mirrored then none else chk d) with
    | some r => reject o.id r
    | none => seq [mirrorCommit o, noteLatency o.id, p]

/-- The first of several checks that fails; each is a failure's condition and its reason. -/
def firstOf : List (Bool × Nat) → Option Nat
  | [] => none
  | (true, r) :: _ => some r
  | (false, _) :: l => firstOf l

/-- Discards a finished mirrored command's record without a completion. -/
def dropCmd (id : Nat) : Prog :=
  seq [ctlUpd fun x => { x with cmds := x.cmds.filter fun e => e.id ≠ id }, cmdStatus]

/-- The open subscriptions whose intake a test names end with their final completion (R510). -/
def subsEnd (p : Intake → Bool) : Prog :=
  .read fun d => seq [
    each ((d.x.ctl.subs.filter fun h => p h.intake).filterMap fun h =>
        d.x.ctl.cmds.find? fun c => c.hdr == some h && c.opcode == 0x0B04) fun c => finish c.id 0 [],
    ctlUpd fun c => { c with subs := c.subs.filter fun h => !p h.intake }]

/-- A ring or a session ends (R451, R510): its subscription ends, and its commands in progress go on without completions. -/
def intakeEnd (key : Nat) : Prog :=
  seq [
    subsEnd fun i => intakeKey i == key,
    ctlUpd fun c => { c with
      cmds := c.cmds.map fun e => match e.hdr with
        | some h => if intakeKey h.intake = key then { e with lost := true, reserved := 0 } else e
        | none => e
      finished := c.finished.filter fun e => intakeKey e.1 ≠ key },
    doIf (decide (key < 16)) (ringUpd key fun m => { m with reserved := 0, fetching := none })]

end Sys2Proof.Machine
end

