-- ==== Sys2Proof/Machine/Takes.lean ====
section
/-!
DEFINITION. The crosspoint: takes (R99 to R113), overlays (R124), lock and protect (R114, R115), chains (R116 to R120),
and the references to surfaces (R131).
-/

namespace Sys2Proof.Machine

/-! ### Rasters (R107) -/

/-- Switch line, field-2 switch line, and the first active lines of field 1 (or the frame) and field 2 (R107). -/
def switchTable (f : Nat) : Nat × Option Nat × Nat × Nat :=
  match fmtRaster f with
  | 0 => (10, some 273, 21, 283)
  | 1 => (6, some 319, 23, 336)
  | 2 => (7, none, 26, 0)
  | 3 => (7, some 569, 21, 584)
  | 4 => (7, none, 21, 584)
  | 5 => (7, none, 42, 0)
  | _ => (7, none, 84, 0)

/-- The output line on which a stored line is emitted (R107). -/
def emitLine (f line : Nat) : Nat :=
  let (_, _, a1, a2) := switchTable f
  if fmtFielded f ∧ fmtLines f / 2 ≤ line then a2 + (line - fmtLines f / 2) else a1 + line

/-- The stored line that an output line emits, none where the line is blanking (R107). -/
def activeLine (f out : Nat) : Option Nat :=
  let (_, _, a1, a2) := switchTable f
  if fmtFielded f then
    let h := fmtLines f / 2
    if a1 ≤ out ∧ out < a1 + h then some (out - a1)
    else if a2 ≤ out ∧ out < a2 + h then some (h + (out - a2)) else none
  else if a1 ≤ out ∧ out < a1 + fmtLines f then some (out - a1) else none

/-! ### A destination's timing (R61, R107, R132, R136) -/

/-- What a destination holds. -/
def Dev.dstm (d : Dev) (n : Nat) : DstMem := KV.get {} d.x.dst n

/-- Changes what a destination holds. -/
def dstUpd (n : Nat) (f : DstMem → DstMem) : Prog := ext fun x => { x with dst := KV.upd {} x.dst n f }

/-- The frame generator a destination runs on, with its frame count: its own copy while it flywheels. -/
def Dev.dstTiming (d : Dev) (n : Nat) : OtgMem × Nat :=
  match (d.dstm n).fly with
  | some f => f
  | none => (d.otgm (d.fld (F.DST_CTRL_otg n)), d.otgFrame (d.fld (F.DST_CTRL_otg n)))

/-- A copy of a frame generator goes on to its next frame by the rule of R61 (R136). -/
def flyNext (f : OtgMem × Nat) : OtgMem × Nat := ({ f.1 with start := f.1.start + f.1.length, length := fmtPeriod f.1.format }, f.2 + 1)

/-- An instant of a scale in house time. -/
def Dev.toHt (d : Dev) (scale : Nat) (t : Int) : Int := t + ((d.x.time.ht : Int) - d.scale scale)

/-- The start B_k of the destination's current frame, in house time. -/
def Dev.boundary (d : Dev) (n : Nat) : Int :=
  let o := (d.dstTiming n).1
  d.toHt o.src o.start

/-- DST_OPQ.lead_us as it acts (R132, R139). -/
def Dev.opqLead (d : Dev) (n : Nat) : Nat := clampN 100 10000 (d.fld (F.DST_OPQ_lead_us n)) * 1000 * nsU

/-- Whether the destination takes field-2 landings (R110). -/
def Dev.fieldTakes (d : Dev) (n : Nat) : Bool :=
  d.flag (F.DST_CTRL_field_take n) && (switchTable (d.dstTiming n).1.format).2.1.isSome

/-- The landing of a change committed at instant `c`: the frame, and whether at its field-2 switch line (R108, R110,
R132). A change never lands at a switch point already passed. -/
def Dev.landing (d : Dev) (n : Nat) (c : Int) (field2 : Bool) : Nat × Bool :=
  let (o, k) := d.dstTiming n
  let b := d.boundary n
  let m := d.dstm n
  if d.flag (F.DST_CTRL_opaque n) then
    (if c < b + o.length - d.opqLead n ∧ m.point ≠ some (k + 1) then k + 1 else k + 2, false)
  else
    let (sw, sw2, _, _) := switchTable o.format
    let l := fmtLine o.format
    if field2 && d.fieldTakes n then
      (if c < b + (sw2.getD 0 - 3) * l ∧ m.point2 ≠ some k then k else k + 1, true)
    else (if c < b + (sw - 3) * l ∧ m.point ≠ some k then k else k + 1, false)

/-! ### Source codes (R13) -/

/-- The classes of source codes (R13). -/
inductive CodeClass where
  | source | derived | surface | pattern | head | unassigned | black | park
  deriving DecidableEq, Repr

/-- The class of a source code. -/
def codeClass (c : Nat) : CodeClass :=
  if c < 0x400 then .source else if c < 0x600 then .derived else if c < 0x700 then .surface
  else if c < 0x710 then .pattern else if c < 0x730 then .head
  else if c = 0xFFE then .black else if c = 0xFFF then .park else .unassigned

/-- A code that has a hogshead (R104). -/
def hogCode (c : Nat) : Bool :=
  match codeClass c with | .source | .derived | .head => true | _ => false

/-- A code is a quadrant member (R92, R111, R142); four surfaces of one quadrant format form a group (R129). -/
def Dev.quadCode (d : Dev) (c : Nat) : Bool :=
  match codeClass c with
  | .source => d.flag (F.SRC_CTRL_quad_member c)
  | .derived => let p := c - 0x400; decide (p % 16 < 4) && d.flag (F.PRC_CTRL_quad_member (p - p % 16))
  | .surface => fmtRaster (d.fld (F.SURF_STATE_format (c - 0x600))) == 7 && d.fld (F.SURF_STATE_state (c - 0x600)) ≠ 0
  | _ => false

/-- A code is the base of a quadrant group (R111). -/
def Dev.quadBase (d : Dev) (c : Nat) : Bool :=
  c % 4 == 0 && codeClass c == codeClass (c + 3) && (List.range 4).all fun q => d.quadCode (c + q)

/-- The destinations a take on a destination acts on, each with its quadrant (R111). -/
def Dev.dstGroup (d : Dev) (n : Nat) : List (Nat × Nat) :=
  if d.flag (F.DST_CTRL_quad_member n) then (List.range 4).map fun q => (4 * (n / 4) + q, q) else [(n, 0)]

/-- The code quadrant q reads (R111). -/
def quadRead (c q : Nat) : Nat :=
  match codeClass c with | .black | .park => c | _ => c + q

/-! ### Line mode (R19) -/

/-- A scale equals HT: HT itself, or a time base in HOUSE or PTP_MASTER mode (R19, R40). -/
def Dev.isHouse (d : Dev) (s : Nat) : Bool := s == 0 || (decide (s ≤ 4) && !d.tbOwn (s - 1))

/-- What a processor holds. -/
def Dev.prcm (d : Dev) (p : Nat) : PrcMem := KV.get {} d.x.prc p

/-- A field of a configuration in force: the word number (its offset over 4), lowest bit and width. -/
def PrcCfg.get (c : PrcCfg) (w lo n : Nat) : Nat := bitsOf (c.words.getD w 0) lo n

/-- The path processor of a destination with its configuration in force: the enabled processor whose place is PATH and
whose dest is the destination (R143). -/
def Dev.pathProc (d : Dev) (n : Nat) : Option (Nat × PrcCfg) :=
  d.x.prc.findSome? fun e =>
    match e.2.cfg with
    | some c => if c.get 0 0 1 = 1 ∧ c.get 0 4 1 = 0 ∧ c.get 0 16 10 = n then some (e.1, c) else none
    | none => none

/-- The crop window of a configuration is the whole picture of a format (R146, R148). -/
def PrcCfg.wholePicture (c : PrcCfg) (f : Nat) : Bool :=
  c.get 5 0 1 == 0 ||
    (c.get 6 16 16 == 0 && c.get 6 0 16 == fmtWidth f && c.get 7 16 16 == 0 && c.get 7 0 16 == fmtLines f)

/-- A decision record meets the conditions of R19 for a destination. -/
def Dev.lineMeets (d : Dev) (n : Nat) (r : FrameRec) : Bool :=
  let o := (d.dstTiming n).1
  fmtLegal r.format && fmtLegal o.format && r.locked &&
  (r.lockScale == o.src || (d.isHouse r.lockScale && d.isHouse o.src)) &&
  fmtRate r.format == fmtRate o.format && fmtScan r.format == fmtScan o.format &&
  fmtWidth r.format == fmtWidth o.format && fmtLines r.format == fmtLines o.format &&
  (match d.pathProc n with
    | some (_, c) => c.get 5 2 1 == 0 && c.get 5 3 1 == 0 && c.wholePicture r.format
    | none => true)

/-- The conditions of R19 for a code, judged from the newest decision record of its source. -/
def Dev.lineOk (d : Dev) (n code : Nat) : Bool :=
  match codeClass code with
  | .black | .park => true
  | .source =>
    match d.newest (d.store code) with
    | some f => d.lineMeets n f.rcd
    | none => false
  | _ => false

/-! ### The checks of R104 -/

/-- Video route and mode after the changes already committed to a destination. -/
def Dev.projected (d : Dev) (n : Nat) : Nat × Bool :=
  let m := d.dstm n
  (m.resolved ++ m.pend).foldl (fun s t =>
    (if t.video then t.source else s.1, if t.mode = 0 then s.2 else t.mode == 2))
    (d.fld (F.DST_CUR_VIDEO_source n), d.flag (F.DST_CUR_VIDEO_line_mode n))

/-- A hogshead of 1 or 2 frames (R17). -/
def Dev.short (d : Dev) (code : Nat) : Bool :=
  match codeClass code with
  | .source =>
    let n := if (d.store code).alloc then (d.store code).depth else d.fld (F.SRC_CTRL_depth code)
    decide (n < 3)
  | _ => false

/-- What a take leads to on one member: its video code and whether line mode. -/
def Dev.takeResult (d : Dev) (b : TakeBody) (m : Nat × Nat) : Nat × Bool :=
  let (v, line) := d.projected m.1
  (if b.video then quadRead b.source m.2 else v, if b.mode = 0 then line else b.mode == 2)

/-- A destination is in line-mode fallback (R21). -/
def Dev.fallback (d : Dev) (n : Nat) : Bool := d.flag (F.DST_STATUS_line_mode_fallback n)

/-- Checks 1 to 4 of R104, in order (R111, R121, R132). -/
def Dev.takeStatic (d : Dev) (b : TakeBody) (controller : Nat) : Option Nat :=
  let c := codeClass b.source
  let opq := d.flag (F.DST_CTRL_opaque b.dest)
  let av := b.audio || b.anc
  firstOf [
    (decide (1024 ≤ b.dest) || controller == 0xFFFF, Reason.badDest),
    (c == .unassigned || (opq && c ≠ .source && c ≠ .park), Reason.badSource),
    ((!b.video && !av && b.mode == 0) || (av && !hogCode b.source && c ≠ .black) || (opq && (av || b.mode == 2)),
      Reason.badLevel),
    (!opq && (b.video || av) && c ≠ .black && c ≠ .park &&
      (if d.flag (F.DST_CTRL_quad_member b.dest) then !d.quadBase b.source else d.quadCode b.source),
      Reason.quadMismatch)]

/-- Checks 5 to 7 of R104, in order: the lock state of every member, short hogsheads, line-mode conditions. -/
def Dev.takeDynamic (d : Dev) (b : TakeBody) (controller : Nat) : Option Nat :=
  let ms := d.dstGroup b.dest
  let opq := d.flag (F.DST_CTRL_opaque b.dest)
  let vm := (b.video || b.mode ≠ 0) && !opq
  let frameMode := fun m => let r := d.takeResult b m; !r.2 || (b.autoFrame && !d.lineOk m.1 r.1)
  firstOf [
    (ms.any fun m => d.fld (F.DST_HOLD_state m.1) == 2, Reason.locked),
    (ms.any fun m => d.fld (F.DST_HOLD_state m.1) == 1 && d.fld (F.DST_HOLD_owner m.1) ≠ controller, Reason.isProtected),
    (vm && ms.any fun m => frameMode m && d.short (d.takeResult b m).1, Reason.hogsheadShort),
    (vm && !b.autoFrame && ms.any fun m =>
      let r := d.takeResult b m
      r.2 && !(b.mode == 0 && d.fallback m.1) && !d.lineOk m.1 r.1, Reason.lineModeIneligible)]

/-! ### References to surfaces (R131) -/

/-- The holders of references that the state names: layers by route or by a slot they hold, committed takes, entries of
ARMED chains, processors and tiles. -/
def Dev.refHolders (d : Dev) : List (Nat × RefHolder) :=
  let surf := fun (c : Nat) (h : RefHolder) => if codeClass c = .surface then [(c - 0x600, h)] else []
  let routes := d.regs.flatMap fun e =>
    match e.1.kind with
    | .DST_CUR_VIDEO => surf (bitsOf e.2.toNat 0 12) (.layer e.1.i 0)
    | .DST_CUR_OVL_CTRL => surf (bitsOf e.2.toNat 0 12) (.layer e.1.i (1 + e.1.j))
    | .PRC_INPUT => if d.flag (F.PRC_CTRL_enable e.1.i) ∧ d.prcPublishes e.1.i then
        surf (d.prcSource e.1.i) (.prc e.1.i) else []
    | .MVH_T_SRC => if d.flag (F.MVH_T_SRC_enable e.1.i e.1.j) then
        surf (d.fld (F.MVH_T_SRC_source e.1.i e.1.j)) (.tile e.1.i e.1.j) else []
    | _ => []
  let held := d.x.stores.flatMap fun e => e.2.holds.flatMap fun h =>
    match h.1 with
    | .dst n l => surf e.1 (.layer n l)
    | .prc p _ => surf e.1 (.prc p)
    | .tile a t => surf e.1 (.tile a t)
  let takes := d.x.dst.flatMap fun e => (e.2.pend ++ e.2.resolved).flatMap fun t =>
    if t.video ∨ t.layer.isSome then surf t.source (.take t.id e.1) else []
  let entries := d.x.chains.flatMap fun e =>
    if e.2.state = 3 then (e.2.entries.zipIdx.flatMap fun b => if b.1.video then surf b.1.source (.entry e.1 b.2) else [])
    else []
  (routes ++ held ++ takes ++ entries).eraseDups

/-- Brings the references up to date: a holder gains no reference to a DEFERRED surface (R131). -/
def refSync : Prog :=
  .read fun d =>
    let l := d.refHolders.filter fun e => d.x.surfRefs.contains e || d.fld (F.SURF_STATE_state e.1) ≠ 4
    let touched := ((d.x.surfRefs ++ l).map (·.1)).eraseDups
    seq [ext fun x => { x with surfRefs := l },
      each touched fun s => setF (F.SURF_REFS s) (l.filter fun e => e.1 == s).length]

/-! ### Write-through of an entry (R99) -/

/-- The words of a destination's MRAM record: routes, mode, follow flags, overlays, lock and landing count. -/
def Dev.xptWords (d : Dev) (n : Nat) : List Nat :=
  [d.rd (R.DST_CUR_VIDEO n), d.rd (R.DST_CUR_BREAK n), d.rd (R.DST_HOLD n), d.rd (R.DST_LANDED_LO n),
    d.rd (R.DST_LANDED_HI n), d.rd (R.DST_CUR_OVL_CTRL n 0), d.rd (R.DST_CUR_OVL_POS n 0),
    d.rd (R.DST_CUR_OVL_CTRL n 1), d.rd (R.DST_CUR_OVL_POS n 1)]

/-- Writes a destination's entry through to MRAM. -/
def xptSave (n : Nat) : Prog := .read fun d => mramPut ⟨.xpt, n⟩ (.words (d.xptWords n))

/-! ### Landing: what a change does to the entry (R103, R108, R113, R124) -/

/-- A route as the levels of R103 change it. -/
structure Route where
  video : Nat
  line : Bool
  audio : Nat
  audioFollow : Bool
  anc : Nat
  ancFollow : Bool
  deriving DecidableEq, Repr

/-- The route in force. -/
def Dev.route (d : Dev) (n : Nat) : Route :=
  { video := d.fld (F.DST_CUR_VIDEO_source n), line := d.flag (F.DST_CUR_VIDEO_line_mode n)
    audio := d.fld (F.DST_CUR_BREAK_audio_src n), audioFollow := d.flag (F.DST_CUR_BREAK_audio_follow n)
    anc := d.fld (F.DST_CUR_BREAK_anc_src n), ancFollow := d.flag (F.DST_CUR_BREAK_anc_follow n) }

/-- One change applied to a route (R103). -/
def PendTake.applyTo (t : PendTake) (r : Route) : Route :=
  if t.layer.isSome then r
  else
    { video := if t.video then t.source else r.video
      line := if t.mode = 0 then r.line else t.mode == 2
      audio := if t.audio || (t.video && r.audioFollow) then t.source else r.audio
      audioFollow := if t.audio then t.video else r.audioFollow
      anc := if t.anc || (t.video && r.ancFollow) then t.source else r.anc
      ancFollow := if t.anc then t.video else r.ancFollow }

/-- The levels a change names (R113): 0 video, 1 audio, 2 ancillary, 3 mode, 4 and 5 the overlays. -/
def PendTake.names (t : PendTake) : List Nat :=
  match t.layer with
  | some l => [4 + l]
  | none => (if t.video then [0] else []) ++ (if t.audio then [1] else []) ++ (if t.anc then [2] else []) ++
      (if t.mode ≠ 0 then [3] else [])

/-- A change none of whose levels survives the later ones (R113). -/
def superseded : List PendTake → List (PendTake × Bool)
  | [] => []
  | t :: r => (t, t.names.all fun l => r.any fun u => u.names.contains l) :: superseded r

/-- The route in force is set. -/
def putRoute (n : Nat) (r : Route) : Prog :=
  seq [setF (F.DST_CUR_VIDEO_source n) r.video, setB (F.DST_CUR_VIDEO_line_mode n) r.line,
    setF (F.DST_CUR_BREAK_audio_src n) r.audio, setB (F.DST_CUR_BREAK_audio_follow n) r.audioFollow,
    setF (F.DST_CUR_BREAK_anc_src n) r.anc, setB (F.DST_CUR_BREAK_anc_follow n) r.ancFollow]

/-- The changes of a list are applied to a destination's entry, in commit order (R113). -/
def applyChanges (n : Nat) (l : List PendTake) : Prog :=
  .read fun d => seq [
    putRoute n (l.foldl (fun r t => t.applyTo r) (d.route n)),
    each l fun t =>
      match t.layer with
      | some i => seq [wr (R.DST_CUR_OVL_CTRL n i) t.ctrl, wr (R.DST_CUR_OVL_POS n i) t.pos]
      | none => .nop]

/-! ### Chains: the end of an entry (R119, R120) -/

/-- A chain. -/
def Dev.chain (d : Dev) (c : Nat) : ChainMem := KV.get {} d.x.chains c

/-- Changes a chain and writes it through (R99, R116). -/
def chainUpd (c : Nat) (f : ChainMem → ChainMem) : Prog :=
  seq [ext fun x => { x with chains := KV.upd {} x.chains c f },
    .read fun d => mramPut ⟨.chain, c⟩ (.chain (d.chain c))]

/-- The firing chain ends when its last entry is DONE or skipped: LOADED, with one completion that lists the landings
and the skipped entries (R118, R120). -/
def chainEnd (c : Nat) : Prog :=
  doWhen (fun d => (d.chain c).state == 4 && (d.chain c).outstanding == 0) (.read fun d =>
    let m := d.chain c
    seq [
      chainUpd c fun m => { m with state := 2, trig := none, cmd := none },
      match m.cmd with
      | some id => finish id ((if m.late then 2 ^ 6 else 0) + (if m.skipped.isEmpty then 0 else 2 ^ 8))
          (c :: m.landed.length :: m.skipped.length ::
            ((m.landed.flatMap fun e => [e.1, e.2 % 2 ^ 32, e.2 / 2 ^ 32]) ++ m.skipped.flatMap fun e => [e.1, e.2]))
      | none => .nop])

/-- A change has reached DONE: its command, or its chain, is told (R105, R113, R120). A take of a quadrant group is done
when its last member has landed. -/
def takeDone (n : Nat) (t : PendTake) (frame : Nat) (sup : Bool) (flags : Nat) : Prog :=
  .read fun d =>
    let others := (d.dstGroup n).any fun m =>
      m.1 ≠ n && ((d.dstm m.1).pend ++ (d.dstm m.1).resolved).any fun u => u.id == t.id && u.chain == t.chain
    let fl := flags + boolBit sup * 2 ^ 3
    seq [
      doIf sup (seq [inc (R.DST_CNT_SUPERSEDED n), raise (F.DST_ALARM_superseded n)]),
      doIf (!others) (match t.chain with
        | none => finish t.id fl [frame % 2 ^ 32, frame / 2 ^ 32]
        | some c => seq [
          chainUpd c fun m => { m with outstanding := m.outstanding - 1, landed := m.landed ++ [(n, frame)] },
          chainEnd c])]

/-! ### Commit (R105, R108, R111, R112) -/

/-- A destination that completes takes at once with DEST_IDLE (R112). -/
def Dev.dstIdle (d : Dev) (n : Nat) : Bool :=
  match (if h : n < 1024 then d.fst (.dst ⟨n, h⟩) else .off) with
  | .off | .waking | .fault => true
  | _ => false

/-- Firmware writes the destination's pending registers (R100, R139). -/
def writePending (n : Nat) (t : PendTake) : Prog :=
  match t.layer with
  | some i => seq [wr (R.DST_OVL_CTRL n i) t.ctrl, wr (R.DST_OVL_POS n i) t.pos]
  | none => seq [
      doIf t.video (setF (F.DST_TAKE_source n) t.source),
      doIf (t.mode ≠ 0) (setB (F.DST_TAKE_line_mode n) (t.mode == 2)),
      doIf t.audio (seq [setF (F.DST_BREAK_audio_src n) t.source, setB (F.DST_BREAK_audio_follow n) t.video]),
      doIf t.anc (seq [setF (F.DST_BREAK_anc_src n) t.source, setB (F.DST_BREAK_anc_follow n) t.video])]

/-- Commits a change on every member of its destination's group, at instant `c` (R105, R108, R111, R112). `make` gives
the change for a member, with its landing. -/
def commitChange (n : Nat) (members : List (Nat × Nat)) (c : Int) (field2 report : Bool)
    (make : Nat → Nat → Nat × Bool → PendTake) : Prog :=
  .read fun d =>
    let land := d.landing n c field2
    if d.dstIdle n then
      let t := make n 0 land
      let frame := d.rd64 (R.DST_LANDED_LO n) (R.DST_LANDED_HI n)
      seq [
        each members fun m => seq [
          writePending m.1 (make m.1 m.2 land), applyChanges m.1 [make m.1 m.2 land], xptSave m.1],
        refSync,
        match t.chain with
        | none => finish t.id (2 ^ 4) [frame % 2 ^ 32, frame / 2 ^ 32]
        | some ch => seq [
          chainUpd ch fun m => { m with outstanding := m.outstanding - 1, landed := m.landed ++ [(n, frame)] },
          chainEnd ch]]
    else
      seq [
        each members fun m => seq [
          writePending m.1 (make m.1 m.2 land),
          dstUpd m.1 fun x => { x with pend := x.pend ++ [make m.1 m.2 land] }],
        refSync,
        let t := make n 0 land
        match t.chain with
        | some _ => .nop
        | none => if report then sendCompletion t.id false .committed 0 0 [land.1 % 2 ^ 32, land.1 / 2 ^ 32]
          else setCmdState t.id .committed]

/-- Commits a take (R104 check 7: with auto_frame it lands in frame mode where the conditions fail). -/
def commitTake (id : Nat) (chain : Option Nat) (b : TakeBody) (c : Int) : Prog :=
  .read fun d =>
    let ms := d.dstGroup b.dest
    let bad := b.autoFrame && ms.any fun m =>
      let r := d.takeResult b m
      r.2 && !(b.mode == 0 && d.fallback m.1) && !d.lineOk m.1 r.1
    commitChange b.dest ms c b.field2 b.reportCommit fun _ q land =>
      { id := id, chain := chain, video := b.video, audio := b.audio, anc := b.anc, source := quadRead b.source q
        mode := if bad then 1 else b.mode, frame := land.1, field2 := land.2 }

/-- Commits an overlay change (R124). -/
def commitOverlay (id : Nat) (b : OverlayBody) (c : Int) : Prog :=
  commitChange b.dest [(b.dest, 0)] c false false fun _ _ land =>
    { id := id, source := b.ctrl % 4096, layer := some (b.layer % 2), ctrl := b.ctrl, pos := b.pos
      frame := land.1, field2 := land.2 }

/-! ### TAKE and TAKE_OVERLAY -/

/-- An accepted take waits for its commit (R105, R106); a mirrored one is committed at the active's instant (R405). -/
def acceptTake (o : Orig) (dest : Nat) (commit : Int → Prog) : Prog :=
  if o.mirrored then commit o.instant
  else seq [setCmdState o.id .armed,
    ext fun x => { x with armed := x.armed ++ [{ id := o.id, dest := dest, body := o.cmd, controller := o.controller
                                                 seq := o.seq }] }]

/-- TAKE (R102 to R106). -/
def takeSpec (b : TakeBody) : CmdSpec where
  opcode := 0x0100
  controller := some b.controller
  ok := decide (b.mode < 3) && decide (b.source < 4096)
  prog o := .read fun d =>
    match (if o.mirrored then none else
        match d.takeStatic b o.controller with
        | some r => some r
        | none => d.takeDynamic b o.controller) with
    | some r => reject o.id r
    | none => acceptTake o b.dest (commitTake o.id none b)

/-- The checks of an overlay change: 1, 2, 5 and 6 of R104, and its place (R124). -/
def Dev.overlayCheck (d : Dev) (b : OverlayBody) (controller : Nat) : Option Nat :=
  let code := b.ctrl % 4096
  let c := codeClass code
  firstOf [
    (decide (1024 ≤ b.dest) || controller == 0xFFFF, Reason.badDest),
    (c == .unassigned || c == .pattern, Reason.badSource),
    (bitsOf b.pos 16 16 % 2 == 1, Reason.badPlacement),
    (d.fld (F.DST_HOLD_state b.dest) == 2, Reason.locked),
    (d.fld (F.DST_HOLD_state b.dest) == 1 && d.fld (F.DST_HOLD_owner b.dest) ≠ controller, Reason.isProtected),
    (d.short code, Reason.hogsheadShort)]

/-- TAKE_OVERLAY (R124). -/
def overlaySpec (b : OverlayBody) : CmdSpec where
  opcode := 0x0101
  controller := some b.controller
  ok := decide (b.layer < 2) && decide (bitsOf b.ctrl 24 2 < 2) && decide (b.pos < 2 ^ 32) &&
    b.ctrl &&& (regInfo .DST_OVL_CTRL).impl == b.ctrl
  prog o := .read fun d =>
    match (if o.mirrored then none else d.overlayCheck b o.controller) with
    | some r => reject o.id r
    | none => acceptTake o b.dest (commitOverlay o.id b)

/-- Commits one accepted take. -/
def commitArmed (a : ArmedTake) : Prog :=
  .read fun d => seq [
    noteLatency a.id,
    mirrorCommit { id := a.id, controller := a.controller, seq := a.seq, mirrored := false, cmd := a.body
                   instant := d.x.time.ht },
    match a.body with
    | .take b => commitTake a.id none b d.x.time.ht
    | .takeOverlay b => commitOverlay a.id b d.x.time.ht
    | _ => .nop]

/-- The accepted takes up to the first one addressed to a destination, which are committed in their order (R106). -/
def upTo (n : Nat) : List ArmedTake → List ArmedTake
  | [] => []
  | a :: r => if a.dest = n then [a] else if r.any fun b => b.dest == n then a :: upTo n r else []

/-! ### LOCK and PROTECT (R114, R115) -/

/-- The check of a hold command's op (R114, R115). -/
def Dev.holdCheck (d : Dev) (op : Nat) (b : HoldBody) (controller : Nat) : Option Nat :=
  let st := d.fld (F.DST_HOLD_state b.dest)
  let owns := d.fld (F.DST_HOLD_owner b.dest) == controller
  match op with
  | 0 | 1 => firstOf [(controller == 0xFFFF, Reason.badField), (st ≠ 0 && !owns, Reason.heldByOther)]
  | 2 => firstOf [(controller == 0xFFFF, Reason.badField), (st == 0 || !owns, Reason.heldByOther)]
  | _ => firstOf [(controller ≠ 0, Reason.notPermitted)]

/-- PROTECT, LOCK, RELEASE and FORCE_RELEASE (R115), by op. -/
def holdSpec (op : Nat) (b : HoldBody) : CmdSpec where
  opcode := 0x0300
  controller := some b.controller
  ok := decide (b.dest < 1024) && decide (op < 4)
  prog o := checked o (fun d => d.holdCheck op b o.controller) (seq [
    setF (F.DST_HOLD_state b.dest) (match op with | 0 => 1 | 1 => 2 | _ => 0),
    setF (F.DST_HOLD_owner b.dest) (if op < 2 then o.controller else 0),
    xptSave b.dest, finish o.id 0 []])

/-! ### Chains (R116 to R120) -/

/-- The entries of a chain after a load (R117). -/
def loadEntries (old : List TakeBody) (b : ChainLoadBody) : List TakeBody :=
  old.take b.first ++ b.entries ++ (if b.last then [] else old.drop (b.first + b.entries.length))

/-- The checks of CHAIN_LOAD (R116, R118). -/
def Dev.chainLoadCheck (d : Dev) (b : ChainLoadBody) (controller : Nat) : Option Nat :=
  let m := d.chain b.chain
  let new := loadEntries m.entries b
  if m.state = 3 ∨ m.state = 4 then some Reason.chainBusy
  else if m.entries.length < b.first ∨ 1024 < new.length then some Reason.badField
  else match b.entries.findSome? fun e => d.takeStatic e controller with
    | some r => some r
    | none =>
      if (new.map (·.dest)).dedup.length ≠ new.length then some Reason.duplicateDest else none

/-- CHAIN_LOAD (R117, R118). -/
def chainLoadSpec (b : ChainLoadBody) : CmdSpec where
  opcode := 0x0200
  ok := decide (b.chain < 256) && decide (b.first < 1024) && b.entries.all fun e => decide (e.mode < 3)
  prog o := checked o (fun d => d.chainLoadCheck b o.controller) (.read fun d =>
    let new := loadEntries (d.chain b.chain).entries b
    seq [chainUpd b.chain fun m => { m with entries := new, state := if b.last then 2 else 1 },
      finish o.id 0 [b.chain, new.length]])

/-- A free firmware timer: one of timers 0 to 47 that is not armed (R66). -/
def Dev.freeTimer (d : Dev) : Option Nat :=
  (List.range 48).find? fun n => d.fld (F.EVT_STATUS_state n) ≠ 1 && (KV.get none d.x.time.evtFw n).isNone

/-- Arms a firmware timer for an action at a time of a scale (R66, R67). -/
def fwTimer (n scale sec ns : Nat) (a : FwAction) : Prog :=
  seq [
    wr (R.EVT_SEC_LO n) (sec % 2 ^ 32), wr (R.EVT_SEC_HI n) (sec / 2 ^ 32 % 2 ^ 16), wr (R.EVT_NS n) ns,
    setF (F.EVT_CTRL_scale n) scale, setF (F.EVT_CTRL_action n) 0,
    evtArm n,
    timeUpd fun t => { t with evtFw := KV.set none t.evtFw n (some a) }]

/-- The frames at which a FRAME trigger fires: its count has been reached (R117, R120). -/
def Dev.frameDue (d : Dev) (dest count : Nat) : Bool := decide (count ≤ (d.dstTiming dest).2)

/-- Arms a chain (R117, R120): a TIME trigger takes a firmware timer, a FRAME trigger waits for its boundary. -/
def chainArm (o : Orig) (c : Nat) (trig : ChainTrig) : Prog :=
  .read fun d =>
    let timer := match trig with | .time .. => d.freeTimer | .frame .. => none
    let late := match trig with
      | .time scale sec ns => decide (timeOf sec ns < d.scale scale)
      | .frame dest count => decide (0 < count) && d.frameDue dest count
    let trig' := match trig with
      | .frame dest _ => if late then ChainTrig.frame dest 0 else trig
      | .time .. => trig
    seq [
      chainUpd c fun m => { m with
        state := 3, trig := some trig', controller := o.controller, late := late, missed := false, cmd := some o.id
        timer := timer, firedAt := none, outstanding := 0, landed := [], skipped := [] },
      match trig, timer with
      | .time scale sec ns, some n => fwTimer n scale sec ns (.chain c)
      | _, _ => .nop,
      setCmdState o.id .armed,
      refSync]

/-- The checks of CHAIN_ARM and CHAIN_FIRE (R120): a LOADED chain, fewer than 32 ARMED, and a timer for a TIME
trigger. -/
def Dev.chainArmCheck (d : Dev) (c : Nat) (trig : ChainTrig) : Option Nat :=
  firstOf [
    ((d.chain c).state ≠ 2, Reason.chainBusy),
    (decide (32 ≤ (d.x.chains.filter fun e => e.2.state == 3).length), Reason.chainBusy),
    ((match trig with | .time .. => d.freeTimer.isNone | .frame .. => false), Reason.chainBusy)]

/-- CHAIN_ARM (R117, R120). -/
def chainArmSpec (b : ChainArmBody) : CmdSpec where
  opcode := 0x0201
  controller := some b.controller
  ok := decide (b.chain < 256) && (match b.trig with
    | .time scale sec ns => decide (scale ≤ 4) && decide (sec < 2 ^ 48) && decide (ns < 1000000000)
    | .frame dest _ => decide (dest < 1024))
  prog o := checked o (fun d => d.chainArmCheck b.chain b.trig) (chainArm o b.chain b.trig)

/-- CHAIN_FIRE (R117): fires at the first frame boundary of the destination after the commit. -/
def chainFireSpec (b : ChainFireBody) : CmdSpec where
  opcode := 0x0202
  controller := some b.controller
  ok := decide (b.chain < 256) && decide (b.dest < 1024)
  prog o := checked o (fun d => d.chainArmCheck b.chain (.frame b.dest 0)) (chainArm o b.chain (.frame b.dest 0))

/-- The fire instant of an ARMED chain has come (R120). -/
def Dev.chainFired (d : Dev) (c : Nat) : Bool :=
  (d.x.chainDue.any fun e => e.1 == c) ||
  match (d.chain c).trig with
  | some (.time scale sec ns) => decide (timeOf sec ns ≤ d.scale scale)
  | _ => false

/-- CHAIN_CANCEL (R117, R120); the armed command ends with it. A chain that is not ARMED is busy or has fired. -/
def chainCancelSpec (b : ChainCancelBody) : CmdSpec where
  opcode := 0x0203
  controller := some b.controller
  ok := decide (b.chain < 256)
  prog o := checked o (fun d => firstOf [
      ((d.chain b.chain).state == 4 || ((d.chain b.chain).state == 3 && d.chainFired b.chain), Reason.chainFired),
      ((d.chain b.chain).state ≠ 3, if (d.chain b.chain).firedAt.isSome then Reason.chainFired else Reason.chainBusy)])
    (.read fun d =>
      let m := d.chain b.chain
      seq [
        chainUpd b.chain fun m => { m with state := 2, trig := none, cmd := none, timer := none },
        match m.timer with | some n => evtDisarm n | none => .nop,
        match m.cmd with | some id => finish id 0 [b.chain] | none => .nop,
        refSync, finish o.id 0 []])

/-- The words of a trigger in a query (R117). -/
def trigWords : Option ChainTrig → List Nat
  | none => []
  | some (.time scale sec ns) => [0, scale, sec % 2 ^ 32, sec / 2 ^ 32, ns]
  | some (.frame dest count) => [1, dest, count % 2 ^ 32, count / 2 ^ 32, 0]

/-- CHAIN_QUERY (R117): state, entry count, trigger and the last firing's outcome. -/
def chainQuerySpec (c : Nat) : CmdSpec where
  opcode := 0x0204
  ok := decide (c < 256)
  prog o := .read fun d =>
    let m := d.chain c
    finish o.id (if m.missed then 2 ^ 7 else 0) ([m.state, m.entries.length] ++ trigWords m.trig ++
      [m.landed.length, m.skipped.length] ++ (m.landed.flatMap fun e => [e.1, e.2]) ++ m.skipped.flatMap fun e => [e.1, e.2])

/-- A chain fires at instant `f` (R118, R119): every entry that passes checks 5 to 7 is committed with c = F, the others
are skipped. -/
def chainFire (c : Nat) (f : Int) : Prog :=
  .read fun d =>
    let m := d.chain c
    seq [
      chainUpd c fun m => { m with state := 4, firedAt := some f, outstanding := m.entries.length + 1 },
      each m.entries fun e => .read fun d' =>
        match d'.takeDynamic e m.controller with
        | some r => chainUpd c fun m => { m with skipped := m.skipped ++ [(e.dest, r)], outstanding := m.outstanding - 1 }
        | none => commitTake c (some c) { e with reportCommit := false } f,
      chainUpd c fun m => { m with outstanding := m.outstanding - 1 },
      refSync, chainEnd c]

/-- CHAIN_TRIGGER: the fire instant of a chain that firmware has been told of (R66, R119). -/
def chainTrigger (c : Nat) : Prog :=
  .read fun d =>
    match d.x.chainDue.find? fun e => e.1 == c with
    | none => .nop
    | some (_, due, scale) => seq [
        ext fun x => { x with chainDue := x.chainDue.filter fun e => e.1 ≠ c },
        doIf ((d.chain c).state == 3)
          (chainFire c (if (d.chain c).late then d.x.time.ht else d.toHt scale due))]

/-! ### Meanings -/

/-- TAKE (R102 to R106). -/
def execTake (h : Hdr) (b : TakeBody) (s : State) : Host.Outcome State Fault Refusal :=
  perform .core (rygus h (.take b) (takeSpec b)) s

/-- TAKE_OVERLAY (R124). -/
def execTakeOverlay (h : Hdr) (b : OverlayBody) (s : State) : Host.Outcome State Fault Refusal :=
  perform .core (rygus h (.takeOverlay b) (overlaySpec b)) s

/-- TAKE_COMMIT (R105, R106, R108). -/
def execTakeCommit (n : DstId) (s : State) : Host.Outcome State Fault Refusal :=
  perform .core (.read fun d =>
    let l := upTo n d.x.armed
    seq [ext fun x => { x with armed := x.armed.drop l.length }, each l commitArmed]) s

/-- PROTECT (R115). -/
def execProtect (h : Hdr) (b : HoldBody) (s : State) : Host.Outcome State Fault Refusal :=
  perform .core (rygus h (.hold 0 b) (holdSpec 0 b)) s

/-- LOCK (R115). -/
def execLock (h : Hdr) (b : HoldBody) (s : State) : Host.Outcome State Fault Refusal :=
  perform .core (rygus h (.hold 1 b) (holdSpec 1 b)) s

/-- RELEASE (R115). -/
def execRelease (h : Hdr) (b : HoldBody) (s : State) : Host.Outcome State Fault Refusal :=
  perform .core (rygus h (.hold 2 b) (holdSpec 2 b)) s

/-- FORCE_RELEASE (R115). -/
def execForceRelease (h : Hdr) (b : HoldBody) (s : State) : Host.Outcome State Fault Refusal :=
  perform .core (rygus h (.hold 3 b) (holdSpec 3 b)) s

/-- CHAIN_LOAD (R117, R118). -/
def execChainLoad (h : Hdr) (b : ChainLoadBody) (s : State) : Host.Outcome State Fault Refusal :=
  perform .core (rygus h (.chainLoad b) (chainLoadSpec b)) s

/-- CHAIN_ARM (R117, R120). -/
def execChainArm (h : Hdr) (b : ChainArmBody) (s : State) : Host.Outcome State Fault Refusal :=
  perform .core (rygus h (.chainArm b) (chainArmSpec b)) s

/-- CHAIN_FIRE (R117). -/
def execChainFire (h : Hdr) (b : ChainFireBody) (s : State) : Host.Outcome State Fault Refusal :=
  perform .core (rygus h (.chainFire b) (chainFireSpec b)) s

/-- CHAIN_CANCEL (R117, R120). -/
def execChainCancel (h : Hdr) (b : ChainCancelBody) (s : State) : Host.Outcome State Fault Refusal :=
  perform .core (rygus h (.chainCancel b) (chainCancelSpec b)) s

/-- CHAIN_QUERY (R117). -/
def execChainQuery (h : Hdr) (chain : Nat) (s : State) : Host.Outcome State Fault Refusal :=
  perform .core (rygus h (.chainQuery chain) (chainQuerySpec chain)) s

/-- CHAIN_TRIGGER (R118, R119). -/
def execChainTrigger (chain : Fin 256) (s : State) : Host.Outcome State Fault Refusal :=
  perform .core (chainTrigger chain) s

end Sys2Proof.Machine
end

