-- ==== Sys2Proof/Machine/Surface.lean ====
section
/-!
DEFINITION. Still surfaces (R129 to R131): allocation, writes into the loading buffer, publication, freeing, reclaim.
-/

namespace Sys2Proof.Machine

/-- The store code of a surface (R13). -/
def surfCode (s : Nat) : Nat := 0x600 + s

/-- What a surface holds beside its window words. -/
def Dev.surfm (d : Dev) (s : Nat) : SurfMem := KV.get {} d.x.surf s

/-- Changes what a surface holds. -/
def surfUpd (s : Nat) (f : SurfMem → SurfMem) : Prog := ext fun x => { x with surf := KV.upd {} x.surf s f }

/-- SURF_STATE.state (R131): 0 FREE, 1 LOADING, 2 READY, 3 READY with the back buffer loading, 4 DEFERRED. -/
def Dev.surfState (d : Dev) (s : Nat) : Nat := d.fld (F.SURF_STATE_state s)

/-- The bytes of a surface's image: its active pel words, 3 bytes each (R129). -/
def imageBytes (f s : Nat) : Nat := pelWords s (fmtWidth f) * fmtLines f * 3

/-- The capacity a surface reserves (R129). -/
def Dev.surfBytes (d : Dev) (b : SurfaceAllocBody) : Nat :=
  hogBytes d.grain b.format b.sampling (if b.double then 2 else 1) false

/-- The window word of an allocated surface. -/
def surfWord (b : SurfaceAllocBody) (st : Nat) : Nat :=
  boolBit b.double * 2 ^ 16 + b.format % 256 * 2 ^ 8 + b.sampling % 16 * 2 ^ 4 + st

/-- What stops SURFACE_ALLOC: the surface is in use, there is no memory for it, or the bandwidth plan is exceeded (R129). -/
def Dev.surfAllocCheck (d : Dev) (b : SurfaceAllocBody) : Option Nat :=
  firstOf [
    (d.surfState b.id ≠ 0, Reason.surfaceBusy),
    ((d.place (d.surfBytes b)).isNone, Reason.noMemory),
    (overBudget d ((wr (R.SURF_STATE b.id) (surfWord b 1)).run d), Reason.bandwidth)]

/-- SURFACE_ALLOC (R129). -/
def surfaceAllocSpec (b : SurfaceAllocBody) : CmdSpec where
  opcode := 0x0600
  ok := decide (b.id < 256) && (b.sampling == 0 || b.sampling == 3) && fmtLegal b.format
  prog o := checked o (fun d => d.surfAllocCheck b)
    (.read fun d => seq [
      wr (R.SURF_STATE b.id) (surfWord b 1), wr (R.SURF_SIZE b.id) (d.surfBytes b / 1024),
      ext fun x => { x with surf := KV.set {} x.surf b.id {} },
      storeUpd (surfCode b.id) fun _ => {
        alloc := true, base := (d.place (d.surfBytes b)).getD 0, size := d.surfBytes b, format := b.format
        sampling := b.sampling, depth := if b.double then 2 else 1 },
      refSync, planUpdate, finish o.id 0 []])

/-- Where byte `i` of a buffer's image lies: its pel word's place in its RAW tile (R75, R79). -/
def Store.imageAddr (st : Store) (g slot i : Nat) : Nat :=
  let pw := pelWords st.sampling (fmtWidth st.format)
  let line := i / 3 / pw
  let x := i / 3 % pw
  let (row, y) := lineRow st.format line
  st.tileAddr g slot (row * tileCols st.format st.sampling + x / 64) + (y * 64 + x % 64) * 3 + i % 3

/-- What stops SURFACE_WRITE (R129, R130). -/
def Dev.surfaceWriteCheck (d : Dev) (b : SurfaceWriteBody) : Option Nat :=
  let st := d.store (surfCode b.id)
  let m := d.surfm b.id
  let n := d.surfState b.id
  firstOf [
    (n == 0, Reason.badField),
    (n == 4, Reason.surfaceBusy),
    (decide (imageBytes st.format st.sampling < b.offset + b.data.length), Reason.badField),
    (st.depth == 1 && n == 2 && decide (0 < d.rd (R.SURF_REFS b.id)), Reason.surfaceBusy),
    (st.depth == 2 && st.holds.any fun h => h.2 == m.loading, Reason.surfaceBusy)]

/-- SURFACE_WRITE (R129, R130). -/
def surfaceWriteSpec (b : SurfaceWriteBody) : CmdSpec where
  opcode := 0x0601
  ok := decide (b.id < 256) && decide (1 ≤ b.data.length) && decide (b.data.length ≤ 65508)
  prog o := checked o (fun d => d.surfaceWriteCheck b)
    (.read fun d =>
      let st := d.store (surfCode b.id)
      let m := d.surfm b.id
      let n := d.surfState b.id
      seq [
        each b.data.zipIdx fun e => memWrite (st.imageAddr d.grain m.loading (b.offset + e.2)) [e.1],
        doIf (n == 2 || n == 3) (setF (F.SURF_STATE_state b.id) (if st.depth = 2 then 3 else 1)),
        doIf (n == 2 && st.depth == 1) (storeUpd (surfCode b.id) fun st => { st with frames := [] }),
        surfUpd b.id fun m => { m with written := m.written + b.data.length, dirty := true },
        finish o.id 0 []])

/-- Writes a buffer's tile map, its padding and its decision record (R75, R129). -/
def surfSeal (s slot : Nat) (r : FrameRec) : Prog :=
  .read fun d =>
    let st := d.store (surfCode s)
    let cols := tileCols st.format st.sampling
    let pw := pelWords st.sampling (fmtWidth st.format)
    let g := d.grain
    seq [
      each (List.range (tileCount st.format st.sampling)) fun t => seq [
        memWrite (st.descAddr g slot t) (leBytes 2 ((rawTile []).desc false)),
        each ((List.range 1024).filter fun i =>
            (storedLine st.format (t / cols) (i / 64)).isNone || decide (pw ≤ t % cols * 64 + i % 64)) fun i =>
          memWrite (st.tileAddr g slot t + 3 * i) (leBytes 3 (blackWord st.sampling (t % cols * 64 + i % 64)))],
      memWrite (st.recAddr g slot) r.bytes]

/-- SURFACE_PUBLISH (R130): the loading buffer becomes current; with nothing written it changes nothing. -/
def surfacePublishSpec (s : Nat) : CmdSpec where
  opcode := 0x0602
  ok := decide (s < 256)
  prog o := checked o (fun d => firstOf [
      (d.surfState s == 0, Reason.badField), (d.surfState s == 4, Reason.surfaceBusy)])
    (.read fun d =>
      let st := d.store (surfCode s)
      let m := d.surfm s
      let r : FrameRec :=
        { source := surfCode s, format := st.format, slot := m.loading, sampling := st.sampling, seq := m.seq + 1
          t := d.x.time.ht, kind := 3, depth := 2
          tilesRaw := tileCount st.format st.sampling, sectors := 96 * tileCount st.format st.sampling }
      seq [
        doIf m.dirty (seq [
          surfSeal s m.loading r,
          storeUpd (surfCode s) fun st => { st with
            frames := [{ rcd := r, due := d.x.time.ht, phase := .complete }], producing := true },
          surfUpd s fun m => { m with
            front := some m.loading, loading := if st.depth = 2 then 1 - m.loading else 0, dirty := false
            written := 0, seq := m.seq + 1 },
          setF (F.SURF_STATE_state s) 2]),
        finish o.id 0 []])

/-- A surface becomes FREE: its memory is released (R131). -/
def surfRelease (s : Nat) : Prog :=
  seq [wr (R.SURF_STATE s) 0, wr (R.SURF_SIZE s) 0, wr (R.SURF_REFS s) 0,
    ext fun x => { x with stores := KV.set {} x.stores (surfCode s) {}, surf := KV.set {} x.surf s {}
                          surfRefs := x.surfRefs.filter fun e => e.1 ≠ s },
    planUpdate]

/-- SURFACE_FREE (R129, R131). -/
def surfaceFreeSpec (s : Nat) : CmdSpec where
  opcode := 0x0603
  ok := decide (s < 256)
  prog o := checked o (fun d => firstOf [(d.surfState s == 0, Reason.badField)])
    (.read fun d =>
      if d.surfState s = 4 then sendCompletion o.id true .deferred 0 0 []
      else if 0 < d.rd (R.SURF_REFS s) then
        seq [setF (F.SURF_STATE_state s) 4, sendCompletion o.id true .deferred 0 0 []]
      else seq [surfRelease s, finish o.id 0 []])

/-- SURFACE_QUERY (R129): state, reference count and bytes written. -/
def surfaceQuerySpec (s : Nat) : CmdSpec where
  opcode := 0x0604
  ok := decide (s < 256)
  prog o := .read fun d => finish o.id 0 [d.surfState s, d.rd (R.SURF_REFS s), (d.surfm s).written]

/-! ### Meanings -/

/-- SURFACE_ALLOC (R129). -/
def execSurfaceAlloc (h : Hdr) (b : SurfaceAllocBody) (s : State) : Host.Outcome State Fault Refusal :=
  perform .core (rygus h (.surfaceAlloc b) (surfaceAllocSpec b)) s

/-- SURFACE_WRITE (R129, R130). -/
def execSurfaceWrite (h : Hdr) (b : SurfaceWriteBody) (s : State) : Host.Outcome State Fault Refusal :=
  perform .core (rygus h (.surfaceWrite b) (surfaceWriteSpec b)) s

/-- SURFACE_PUBLISH (R130). -/
def execSurfacePublish (h : Hdr) (id : Nat) (s : State) : Host.Outcome State Fault Refusal :=
  perform .core (rygus h (.surfacePublish id) (surfacePublishSpec id)) s

/-- SURFACE_FREE (R131). -/
def execSurfaceFree (h : Hdr) (id : Nat) (s : State) : Host.Outcome State Fault Refusal :=
  perform .core (rygus h (.surfaceFree id) (surfaceFreeSpec id)) s

/-- SURFACE_QUERY (R129). -/
def execSurfaceQuery (h : Hdr) (id : Nat) (s : State) : Host.Outcome State Fault Refusal :=
  perform .core (rygus h (.surfaceQuery id) (surfaceQuerySpec id)) s

/-- SURFACE_RECLAIM (R131): a DEFERRED surface whose count has reached zero becomes FREE. -/
def execSurfaceReclaim (id : Fin 256) (s : State) : Host.Outcome State Fault Refusal :=
  perform .core (seq [refSync, doWhen (fun d => d.surfState id == 4 && d.rd (R.SURF_REFS id) == 0) (surfRelease id)]) s

end Sys2Proof.Machine
end

