-- ==== Sys2Proof/Machine/Proc.lean ====
section
/-!
DEFINITION. Video processors (R140 to R167): configurations and their checks, landing, ells, the choice of input frames,
the frames they produce, 3D LUT slots, curves and coefficient banks.
-/

namespace Sys2Proof.Machine

/-! ### Processors and their configurations -/

/-- Changes what a processor holds. -/
def prcUpd (p : Nat) (f : PrcMem → PrcMem) : Prog := ext fun x => { x with prc := KV.upd {} x.prc p f }

/-- A processor as a function. -/
def prcFn (p : Nat) : Fn := .prc (Fin.ofNat 512 p)

namespace PrcCfg

def enable (c : PrcCfg) : Bool := c.get 0 0 1 == 1
def publish (c : PrcCfg) : Bool := c.get 0 4 1 == 1
def gang (c : PrcCfg) : Nat := 2 ^ c.get 0 8 2
def quad (c : PrcCfg) : Bool := c.get 0 11 1 == 1
def quadPos (c : PrcCfg) : Nat := c.get 0 12 2
def dest (c : PrcCfg) : Nat := c.get 0 16 10
def source (c : PrcCfg) : Nat := c.get 2 0 12
def otg (c : PrcCfg) : Nat := c.get 2 16 5
def crop (c : PrcCfg) : Bool := c.get 5 0 1 == 1
def scale (c : PrcCfg) : Bool := c.get 5 1 1 == 1
def frc (c : PrcCfg) : Bool := c.get 5 2 1 == 1
def deint (c : PrcCfg) : Bool := c.get 5 3 1 == 1
def inCurve (c : PrcCfg) : Bool := c.get 5 4 1 == 1
def inMatrix (c : PrcCfg) : Bool := c.get 5 5 1 == 1
def lut3d (c : PrcCfg) : Bool := c.get 5 6 1 == 1
def outMatrix (c : PrcCfg) : Bool := c.get 5 7 1 == 1
def outCurve (c : PrcCfg) : Bool := c.get 5 8 1 == 1
def lutSlot (c : PrcCfg) : Nat := c.get 5 16 6
def kernel (c : PrcCfg) : Nat := c.get 8 16 2
def htaps (c : PrcCfg) : Nat := c.get 8 8 5
def vtaps (c : PrcCfg) : Nat := c.get 8 0 4

end PrcCfg

/-- A configuration with a field replaced. -/
def PrcCfg.put (c : PrcCfg) (w lo n v : Nat) : PrcCfg :=
  { c with words := c.words.zipIdx.map fun e => if e.2 = w then putBits e.1 lo n v else e.1 }

/-- The gangs a configuration sets up, each with its own configuration: four of an 8K group, with their quadrants of the
destination or input group (R142), or one. -/
def procLeaders (p : Nat) (c : PrcCfg) : List (Nat × PrcCfg) :=
  if c.quad ∧ p % 16 = 0 then
    (List.range 4).map fun q =>
      (p + 4 * q, ((c.put 0 12 2 q).put 0 16 10 (c.dest + q)).put 2 0 12 (c.source + q))
  else [(p, c)]

/-- The register words a configuration writes (R165), each with its value. -/
def procRegs (p : Nat) (words mtx : List Nat) : List (Reg × Nat) :=
  let w := fun i => words.getD i 0
  let m := fun i => mtx.getD i 0
  [(R.PRC_CTRL p, w 0), (R.PRC_INPUT p, w 2), (R.PRC_OUT_FMT p, w 3), (R.PRC_OUT p, w 4), (R.PRC_FUNC p, w 5),
    (R.PRC_CROP_X p, w 6), (R.PRC_CROP_Y p, w 7), (R.PRC_SCALE p, w 8), (R.PRC_FRC p, w 9), (R.PRC_DEINT p, w 10)] ++
  (List.range 2).flatMap fun k =>
    ((List.range 9).map fun i => (R.PRC_MTX_COEF p k i, m (16 * k + i))) ++
    ((List.range 3).map fun i => (R.PRC_MTX_PRE p k i, m (16 * k + 9 + i))) ++
    (List.range 3).map fun i => (R.PRC_MTX_POST p k i, m (16 * k + 12 + i))

/-- Writes the registers of the gangs of a configuration; each gang of an 8K group has its own quad_pos (R142). -/
def procWrite (p : Nat) (c : PrcCfg) : Prog :=
  each (procLeaders p c) fun (l, cl) => each (procRegs l (c.put 0 12 2 cl.quadPos).words c.mtx) fun (r, v) => wr r v

/-- The configurations planned: the last one committed, or the one in force, of every processor that has an enabled one. -/
def Dev.procPlanned (d : Dev) : List (Nat × PrcCfg) :=
  d.x.prc.filterMap fun e =>
    match (match e.2.pend.getLast? with | some t => some t.2.2 | none => e.2.cfg) with
    | some c => if c.enable then some (e.1, c) else none
    | none => none

/-- The code a gang publishes (R140, R142). -/
def procCode (p : Nat) (c : PrcCfg) : Nat :=
  0x400 + (if c.quad then p - p % 16 + c.quadPos else p)

/-- The code a processor reads: its own input, or its destination's video route (R143, R144). -/
def Dev.procInput (d : Dev) (c : PrcCfg) : Nat :=
  if c.publish then c.source else d.fld (F.DST_CUR_VIDEO_source c.dest)

/-! ### Formats -/

/-- The format of a code as last seen: its newest frame's, or what its channel has detected, or what its store is
reserved for. -/
def Dev.codeFmt (d : Dev) (code : Nat) : Option VideoFmt :=
  let st := d.store code
  match (st.frames.filter fun f => f.phase ≠ .abandoned).getLast? with
  | some f => some { format := f.rcd.format, sampling := f.rcd.sampling, depth := f.rcd.depth
                     colorimetry := f.rcd.colorimetry, transfer := f.rcd.transfer }
  | none =>
    match codeClass code with
    | .source =>
      if d.flag (F.SRC_FMT_DET_valid code) then
        some { format := d.fld (F.SRC_FMT_DET_format code), sampling := d.fld (F.SRC_FMT_DET_sampling code)
               depth := d.fld (F.SRC_FMT_DET_depth code), colorimetry := d.fld (F.SRC_FMT_DET_colorimetry code)
               transfer := d.fld (F.SRC_FMT_DET_transfer code) }
      else some { format := d.fld (F.SRC_FMT_max_format code), sampling := d.fld (F.SRC_FMT_max_sampling code) }
    | .derived | .surface | .head => if st.alloc then some { format := st.format, sampling := st.sampling } else none
    | _ => none

/-- The output format of a configuration: PRC_OUT_FMT, or the destination's (R143, R144). -/
def Dev.procOut (d : Dev) (c : PrcCfg) : VideoFmt :=
  if c.publish then
    { format := c.get 3 0 8, sampling := c.get 3 8 4, depth := c.get 3 16 2, colorimetry := c.get 3 20 4
      transfer := c.get 3 24 4 }
  else
    { format := d.dstFormat c.dest, sampling := d.fld (F.DST_CTRL_out_sampling c.dest)
      depth := d.fld (F.DST_CTRL_out_depth c.dest), colorimetry := d.fld (F.DST_CTRL_colorimetry c.dest)
      transfer := c.get 3 24 4 }

/-- The crop window of an input, clipped to its picture, and whether it was clipped (R148). -/
def PrcCfg.window (c : PrcCfg) (f : Nat) : (Nat × Nat × Nat × Nat) × Bool :=
  if !c.crop then ((0, fmtWidth f, 0, fmtLines f), false)
  else
    let (x, w, y, h) := (c.get 6 16 16, c.get 6 0 16, c.get 7 16 16, c.get 7 0 16)
    let (x', w') := clipWindow x w (fmtWidth f)
    let (y', h') := clipWindow y h (fmtLines f)
    ((x', w', y', h'), decide (x' ≠ x) || decide (w' ≠ w) || decide (y' ≠ y) || decide (h' ≠ h))

/-- Twice the pel words per pixel of a sampling (R74, R141). -/
def pelTwice (s : Nat) : Nat := match s with | 1 | 2 => 3 | 3 | 4 => 4 | _ => 2

/-- Twice the larger of Ai and Ao (R141). -/
def PrcCfg.area2 (c : PrcCfg) (i o : VideoFmt) : Nat :=
  let ((_, w, _, h), _) := c.window i.format
  max (w * pelTwice i.sampling * h) (fmtWidth o.format * pelTwice o.sampling * fmtLines o.format)

/-- The load exceeds the budget of the gang (R141). -/
def PrcCfg.overLoad (c : PrcCfg) (i o : VideoFmt) : Bool :=
  let (n, m) := rateFrac (fmtRate o.format)
  decide (2 * c.gang * 148500000 * m < c.area2 i o * n)

/-- The load in units of 0.01 Mpel/s, rounded (R166). -/
def PrcCfg.load (c : PrcCfg) (i o : VideoFmt) : Nat :=
  let (n, m) := rateFrac (fmtRate o.format)
  min 118800 ((c.area2 i o * n + 10000 * m) / (20000 * m))

/-- The ells needed with `v` vertical taps (R151). -/
def PrcCfg.need (c : PrcCfg) (i o : VideoFmt) (v : Nat) : Nat :=
  let ((_, w, _, h), _) := c.window i.format
  let pel := fun n => ceilDiv (n * pelTwice i.sampling) 2
  (if c.scale ∧ h ≠ fmtLines o.format then v * ceilDiv (pel (min w (fmtWidth o.format))) 1024 + 2 else 0) +
  (if c.deint then 4 * ceilDiv (pel w) 1024 else 0) + (if c.frc then 2 * ceilDiv (pel w) 1024 else 0)

/-! ### Engines and ells (R140, R151, R152) -/

/-- The free ells of an engine (R151). -/
def Dev.engFree (d : Dev) (e : Nat) : Nat :=
  96 - ((List.range 8).map fun i => d.fld (F.PRC_ELLS_grant (8 * e + i))).sum

/-- The processor whose registers report a processor's state: the leader of its gang (R140). -/
def Dev.gangOf (d : Dev) (p : Nat) : Nat :=
  match d.procPlanned.find? fun e => decide (e.1 ≤ p) && decide (p < e.1 + e.2.gang) with
  | some e => e.1
  | none => p

/-- PRC_ENG of an engine's processors follows its contexts (R166). -/
def engUpdate (e : Nat) : Prog :=
  .read fun d =>
    let active := ((List.range 8).filter fun i => d.on (prcFn (8 * e + i))).length
    each (List.range 8) fun i => seq [
      setF (F.PRC_ENG_active (8 * e + i)) active, setF (F.PRC_ENG_free (8 * e + i)) (d.engFree e)]

/-- Members of a gang mirror the leader's state (R140). -/
def procMirror (p : Nat) : Prog :=
  .read fun d =>
    match (d.prcm p).cfg with
    | some c => seq [each (List.range (c.gang - 1)) fun i => fnPut (prcFn (p + 1 + i)) (d.fw (prcFn p)), engUpdate (p / 8)]
    | none => engUpdate (p / 8)

/-! ### 3D LUT slots (R158, R167) -/

/-- The processors that name a slot, in force or committed. -/
def Dev.lutUsers (d : Dev) (s : Nat) : List Nat :=
  d.x.prc.filterMap fun e =>
    let names := fun (c : PrcCfg) => c.enable && c.lut3d && c.lutSlot == s
    if (match e.2.cfg with | some c => names c | none => false) || (e.2.pend.any fun t => names t.2.2) then some e.1
    else none

/-- LUT3D_REFS follow the configurations; a DEFERRED slot without references becomes FREE. -/
def lutSync (slots : List Nat) : Prog :=
  .read fun d => each slots fun s =>
    let n := (d.lutUsers s).length
    seq [wr (R.LUT3D_REFS s) n,
      doIf (d.fld (F.LUT3D_STATE_state s) == 3 && n == 0) (seq [
        setF (F.LUT3D_STATE_state s) 0, wr (R.LUT3D_LOADED s) 0,
        ext fun x => { x with luts := KV.set [] x.luts s [] }])]

/-! ### Derived hogsheads and motion stores (R144, R154) -/

/-- The area key of a processor's motion store. -/
def motionArea (p : Nat) : Nat := 0x1000 + p

/-- Reserves what a configuration needs: the derived hogshead of a publishing one, where its geometry is new, and the
motion store of a deinterlacing one; frees what it no longer needs. Without room the store stays unallocated. -/
def procAlloc (p : Nat) (c : PrcCfg) : Prog :=
  .read fun d =>
    let code := procCode p c
    let o := d.procOut c
    let depth := c.get 4 0 5
    let st := d.store code
    let same := st.alloc && st.format == o.format && st.sampling == o.sampling && st.depth == depth
    let size := hogBytes d.grain o.format o.sampling depth false
    let w := match d.codeFmt (d.procInput c) with
      | some f => fmtWidth f.format * fmtLines f.format
      | none => 0
    seq [
      if !c.publish then doIf st.alloc (storeUpd code fun _ => {})
      else if !c.enable || same then .nop
      else seq [
        storeUpd code fun _ => {},
        .read fun d' =>
          match d'.place size with
          | some b => storeUpd code fun _ => {
              alloc := true, base := b, size := size, format := o.format, sampling := o.sampling, depth := depth }
          | none => .nop],
      doIf c.publish (storeUpd code fun st => if st.alloc then { st with
        guard := min 10000 (c.get 4 8 14), ratio := min 8 (c.get 4 28 4), compact := c.get 4 24 1 == 1 } else st),
      ext fun x => { x with areas := x.areas.filter fun a => a.1 ≠ motionArea p },
      doIf (c.enable && c.deint && decide (0 < w)) (.read fun d' =>
        match d'.place (roundUp d.grain w) with
        | some b => ext fun x => { x with areas := x.areas ++ [(motionArea p, (b, roundUp d.grain w))] }
        | none => .nop)]

/-- What a configuration needs is reserved. -/
def Dev.procAllocated (d : Dev) (p : Nat) (c : PrcCfg) : Bool :=
  !c.enable ||
    ((!c.publish || (d.store (procCode p c)).alloc) &&
      (!c.deint || (d.x.areas.any fun a => a.1 == motionArea p) || (d.codeFmt (d.procInput c)).isNone))

/-! ### The checks of R164 -/

/-- Check 1: a gang leader whose members are OFF and unconfigured. -/
def Dev.procGangBusy (d : Dev) (p : Nat) (c : PrcCfg) : Bool :=
  let ls := (procLeaders p c).map (·.1)
  ls.any fun l =>
    (d.procPlanned.any fun e => !ls.contains e.1 && decide (e.1 < l + c.gang) && decide (l < e.1 + e.2.gang)) ||
    (List.range (c.gang - 1)).any fun i =>
      let m := l + 1 + i
      d.gangOf m ≠ l && d.fst (prcFn m) ≠ .off

/-- Check 4: formats, ratios and taps (R59, R73, R148, R149, R153, R154, R157). -/
def Dev.procFormat (_ : Dev) (c : PrcCfg) (inp : Option VideoFmt) (o : VideoFmt) : Option Nat :=
  let bad := Reason.badFormat
  if !fmtLegal o.format || decide (4 < o.sampling) || (fmtRaster o.format == 7 && !(c.quad && !c.publish)) then some bad
  else match inp with
    | none => none
    | some i =>
      let ((_, w, _, h), clipped) := c.window i.format
      let (x, y) := (c.get 6 16 16, c.get 7 16 16)
      let (ri, ro) := (fmtRate i.format, fmtRate o.format)
      let twice := (rateFrac ro).1 * (rateFrac ri).2 == 2 * ((rateFrac ri).1 * (rateFrac ro).2)
      firstOf [
        (c.frc && fmtScan i.format == 1 && !c.deint, bad),
        (c.deint && (fmtScan i.format ≠ 1 || fmtScan o.format ≠ 0 || (!c.frc && ri ≠ ro && !twice)), bad),
        (isRgb i.sampling ≠ isRgb o.sampling && !c.inMatrix && !c.outMatrix, bad),
        (c.crop && (clipped || w == 0 || h == 0 || (decimated i.sampling && (x % 2 == 1 || w % 2 == 1)) ||
          (fmtScan i.format == 1 && (y % 2 == 1 || h % 2 == 1))), bad),
        (!c.scale && (w ≠ fmtWidth o.format || h ≠ fmtLines o.format), bad),
        (c.scale && (decide (8 * fmtWidth o.format < w) || decide (8 * w < fmtWidth o.format) ||
          decide (8 * fmtLines o.format < h) || decide (8 * h < fmtLines o.format)), Reason.badRatio),
        (c.scale && (!([2, 4, 6, 8].contains c.vtaps) || c.htaps % 2 == 1 || decide (c.htaps < 2) ||
          decide (16 < c.htaps)), Reason.badTaps)]

/-- A user bank is loaded, in force or as a shadow. -/
def PrcMem.bankLoaded (m : PrcMem) (b : Nat) : Bool := KV.get [] m.banks b ≠ [] || KV.get [] m.shadowBanks b ≠ []

/-- The checks of R164 in their order; a disabling configuration takes the first three. -/
def Dev.procCheck (d : Dev) (p : Nat) (c : PrcCfg) (controller : Nat) : Option Nat :=
  let ls := procLeaders p c
  let mine := ls.map (·.1)
  let inp := d.codeFmt (d.procInput (ls.headD (p, c)).2)
  let o := d.procOut (ls.headD (p, c)).2
  let cls := codeClass c.source
  let path := !c.publish
  let dests := ls.map (·.2.dest)
  let head := firstOf [
    (decide (512 ≤ p) || p % c.gang ≠ 0, Reason.badProc),
    (d.procGangBusy p c, Reason.gangBusy),
    (c.enable && path && dests.any fun n => decide (1024 ≤ n) || d.flag (F.DST_CTRL_opaque n) ||
      d.procPlanned.any fun e => !mine.contains e.1 && !e.2.publish && e.2.dest == n, Reason.badPlacement),
    (c.enable && c.publish && ls.any fun l => procCode l.1 l.2 == l.2.source, Reason.badPlacement),
    (c.enable && c.publish && !(hogCode c.source || cls == .surface), Reason.badSource),
    (path && dests.any fun n => d.fld (F.DST_HOLD_state n) == 2, Reason.locked),
    (path && dests.any fun n => d.fld (F.DST_HOLD_state n) == 1 && d.fld (F.DST_HOLD_owner n) ≠ controller,
      Reason.isProtected)]
  match head with
  | some r => some r
  | none =>
    if !c.enable then none
    else match d.procFormat c inp o with
      | some r => some r
      | none =>
        let known := fun (f : VideoFmt → Bool) => match inp with | some i => f i | none => false
        let need := match inp with | some i => c.need i o c.vtaps | none => 0
        firstOf [
          (c.quad && (p % 16 ≠ 0 || c.gang ≠ 4 || c.crop || c.scale || c.deint ||
            (path && !(c.dest % 4 == 0 && d.flag (F.DST_CTRL_quad_member c.dest))) ||
            (c.publish && !d.quadBase c.source)), Reason.quadMismatch),
          (c.lut3d && d.fld (F.LUT3D_STATE_state c.lutSlot) ≠ 2, Reason.lutNotReady),
          (c.scale && c.kernel == 2 && mine.any fun l => (List.range 4).any fun b => !(d.prcm l).bankLoaded b,
            Reason.badCoef),
          (known fun i => c.overLoad i o, Reason.budget),
          (mine.any fun l =>
            let here := mine.filter fun m => m / 8 == l / 8
            decide ((here.map fun m => d.fld (F.PRC_ELLS_grant m)).sum + d.engFree (l / 8) < here.length * need),
            Reason.ells),
          (c.publish && d.short c.source, Reason.hogsheadShort),
          (path && dests.any fun n => d.flag (F.DST_CUR_VIDEO_line_mode n) &&
            (match inp with | some i => !c.wholePicture i.format | none => c.crop), Reason.lineModeIneligible),
          (overBudget d ((procWrite p c).run d), Reason.bandwidth),
          (let d' := (each ls fun l => procAlloc l.1 l.2).run d
           ls.any fun l => !d'.procAllocated l.1 l.2, Reason.noMemory)]

/-! ### Landing (R145, R155, R158) -/

/-- Temporal history starts afresh: the motion store is cleared to 16 (R155). -/
def procRestart (p : Nat) : Prog := prcUpd p fun m => { m with histFrom := none, motion := [] }

/-- A path processor's history restarts when a take lands on its destination (R155). -/
def procRouteLanded (n : Nat) : Prog :=
  .read fun d => match d.pathProc n with | some (p, _) => procRestart p | none => .nop

/-- Releases the slots a processor holds (R78). -/
def procRelease (p : Nat) : Prog :=
  ext fun x => { x with stores := x.stores.map fun e =>
    (e.1, { e.2 with holds := e.2.holds.filter fun h => match h.1 with | .prc q _ => q ≠ p | _ => true }) }

/-- The frame in production is dropped. -/
def procDrop (p : Nat) : Prog :=
  .read fun d =>
    match (d.prcm p).job, (d.prcm p).cfg with
    | some j, some c => seq [
        doIf c.publish (storeUpd (procCode p c) fun st =>
          st.updFrame (j.frame % 2 ^ 32) fun f => if f.phase = .complete then f else { f with phase := .abandoned }),
        prcUpd p fun m => { m with job := none }, procRelease p]
    | _, _ => .nop

/-! ### Leaving ON (R152, R163) -/

/-- A processor leaves ON: its work is dropped, and its readers continue with what is there. -/
def procStopped (p : Nat) : Prog :=
  seq [procDrop p, procRelease p, setF (F.PRC_STATUS_producing p) 0,
    .read fun d =>
      match (d.prcm p).cfg with
      | some c => doIf c.publish (storeUpd (procCode p c) fun st => { st with producing := false })
      | none => .nop]

/-- A processor has reached OFF: its ells go back to the engine (R152). -/
def procOff (p : Nat) : Prog := seq [setF (F.PRC_ELLS_grant p) 0, engUpdate (p / 8)]

/-- A configuration of one gang comes into force, with its shadow curves and banks (R145, R150, R165). -/
def procLand1 (p : Nat) (c : PrcCfg) : Prog :=
  .read fun d =>
    let m := d.prcm p
    let newInput := match m.cfg with
      | some old => d.procInput old ≠ d.procInput c || old.publish ≠ c.publish
      | none => true
    seq [
      procDrop p, doIf newInput (procRestart p),
      prcUpd p fun m => { m with
        cfg := some c
        curves := m.shadowCurves.foldl (fun k e => KV.set [] k e.1 e.2) m.curves, shadowCurves := []
        banks := m.shadowBanks.foldl (fun k e => KV.set [] k e.1 e.2) m.banks, shadowBanks := [] },
      procAlloc p c,
      if c.enable then fnEnable (prcFn p) else fnDisable (prcFn p),
      doIf (!d.procAllocated p c && !((procAlloc p c).run d).procAllocated p c) (fnFault (prcFn p) 0x03),
      doWhen (fun e => d.on (prcFn p) && !e.on (prcFn p)) (procStopped p),
      match d.codeFmt (d.procInput c) with
      | some i =>
        let need := c.need i (d.procOut c) c.vtaps
        doIf (c.enable && decide (need ≤ d.fld (F.PRC_ELLS_grant p) + d.engFree (p / 8))) (seq [
          setF (F.PRC_ELLS_need p) need, setF (F.PRC_ELLS_grant p) need, setF (F.PRC_ELLS_vtaps_eff p) c.vtaps])
      | none => .nop,
      procMirror p]

/-- The configurations of a processor that a test selects land, the last one staying in force; a command is DONE when
every gang of it has landed (R142, R145). -/
def procLand (p frame : Nat) (pick : Nat × Nat × PrcCfg → Bool) : Prog :=
  .read fun d =>
    let due := (d.prcm p).pend.filter pick
    match due.getLast? with
    | none => .nop
    | some (_, _, c) => seq [
        prcUpd p fun m => { m with pend := m.pend.filter fun t => !pick t },
        procLand1 p c,
        lutSync (List.range 64), refSync, planUpdate,
        .read fun d' => each due fun t =>
          doIf (!(d'.x.prc.any fun e => e.2.pend.any fun u => u.1 == t.1))
            (finish t.1 0 [frame % 2 ^ 32, frame / 2 ^ 32])]

/-- The configurations of path processors of a destination land at its switch line (R145). -/
def procLandPath (n frame : Nat) : Prog :=
  .read fun d => each (d.x.prc.map (·.1)) fun p =>
    procLand p frame fun t => !t.2.2.publish && t.2.2.dest == n && decide (t.2.1 ≤ frame)

/-- Write-through of the configurations of a command (R162). -/
def procSave (p : Nat) (c : PrcCfg) : Prog :=
  each (procLeaders p c) fun l => mramPut ⟨.config, 5 * 65536 + l.1⟩ (.words (l.2.words ++ l.2.mtx))

/-- PROC_SET (R145, R164, R165). -/
def procSetSpec (b : ProcSetBody) : CmdSpec where
  opcode := 0x0700
  controller := some b.controller
  ok := decide (b.proc < 512) && b.regs.length == 11 && b.mtx.length == 32 &&
    (procRegs b.proc b.regs b.mtx).all (fun e => decide (e.2 < 2 ^ 32) && BitVec.ofNat 32 e.2 &&& implMask e.1 == BitVec.ofNat 32 e.2) &&
    (let c : PrcCfg := ⟨b.regs, b.mtx⟩
     decide (c.kernel < 3) && decide (3 ≤ c.get 4 0 5) && decide (c.get 4 0 5 ≤ 16) && decide (c.get 4 8 14 ≤ 10000) &&
       decide (c.get 9 0 4 ≤ 7) && decide (c.get 3 16 2 < 3))
  prog o :=
    let c : PrcCfg := ⟨b.regs, b.mtx⟩
    checked o (fun d => d.procCheck b.proc c o.controller) (.read fun d =>
      let ls := procLeaders b.proc c
      let idle := !c.publish && d.dstIdle c.dest
      seq [
        procWrite b.proc c, procSave b.proc c, setCmdState o.id .committed,
        each ls fun l => prcUpd l.1 fun m => { m with
          pend := m.pend ++ [(o.id, (d.landing c.dest o.instant false).1, l.2)] },
        lutSync (List.range 64), planUpdate,
        doIf idle (each ls fun l =>
          procLand l.1 (d.rd64 (R.DST_LANDED_LO c.dest) (R.DST_LANDED_HI c.dest)) fun t => t.1 == o.id)])

/-! ### Table loads (R150, R156, R158, R165) -/

/-- PROC_LUT3D_LOAD (R158, R165). -/
def lutLoadSpec (b : LutLoadBody) : CmdSpec where
  opcode := 0x0701
  ok := decide (b.slot < 64) && decide (b.first + b.entries.length ≤ 35937) &&
    b.entries.all fun e => decide (e.1 < 4096) && decide (e.2.1 < 4096) && decide (e.2.2 < 4096)
  prog o := checked o (fun d => firstOf [
      (!(d.lutUsers b.slot).isEmpty || d.fld (F.LUT3D_STATE_state b.slot) == 3, Reason.lutBusy)])
    (.read fun d => seq [
      ext fun x => { x with luts := KV.upd [] x.luts b.slot fun k =>
        b.entries.zipIdx.foldl (fun k e =>
          KV.set 0 k (b.first + e.2) (e.1.1 + e.1.2.1 * 2 ^ 12 + e.1.2.2 * 2 ^ 24)) k },
      wr (R.LUT3D_LOADED b.slot) (max (d.rd (R.LUT3D_LOADED b.slot)) (b.first + b.entries.length)),
      setF (F.LUT3D_STATE_state b.slot) (if b.last then 2 else 1),
      finish o.id 0 []])

/-- PROC_LUT3D_FREE (R158). -/
def lutFreeSpec (s : Nat) : CmdSpec where
  opcode := 0x0702
  ok := decide (s < 64)
  prog o := checked o (fun _ => none) (.read fun d =>
    if (d.lutUsers s).isEmpty then seq [
        setF (F.LUT3D_STATE_state s) 0, wr (R.LUT3D_LOADED s) 0,
        ext fun x => { x with luts := KV.set [] x.luts s [] }, finish o.id 0 []]
    else seq [setF (F.LUT3D_STATE_state s) 3, sendCompletion o.id true .deferred 0 0 []])

/-- PROC_CURVE_LOAD (R165). -/
def curveLoadSpec (b : CurveLoadBody) : CmdSpec where
  opcode := 0x0703
  ok := decide (b.proc < 512) && decide (b.curve < 6) && b.entries.length == 1025 && b.entries.all fun e => decide (e < 65536)
  prog o := checked o (fun _ => none) (seq [
    prcUpd b.proc fun m => { m with shadowCurves := KV.set [] m.shadowCurves b.curve b.entries }, finish o.id 0 []])

/-- The taps of a bank (R165). -/
def bankTaps (b : Nat) : Nat := if b < 2 then 16 else 8

/-- A bank is valid (R150): signed 12-bit coefficients, each phase summing to 1,024. -/
def bankValid (b : Nat) (l : List Nat) : Bool :=
  let t := bankTaps b
  let v := l.map (signedOf 16)
  (v.all fun x => decide (-2048 ≤ x) && decide (x ≤ 2047)) &&
    (List.range 64).all fun ph => ((v.drop (ph * t)).take t).sum == 1024

/-- PROC_COEF_LOAD (R150, R165). -/
def coefLoadSpec (b : CoefLoadBody) : CmdSpec where
  opcode := 0x0704
  ok := decide (b.proc < 512) && decide (b.bank < 4) && b.coefs.length == 64 * bankTaps b.bank &&
    b.coefs.all fun e => decide (e < 65536)
  prog o := checked o (fun _ => firstOf [(!bankValid b.bank b.coefs, Reason.badCoef)]) (seq [
    prcUpd b.proc fun m => { m with shadowBanks := KV.set [] m.shadowBanks b.bank b.coefs }, finish o.id 0 []])

/-- PROC_QUERY (R165, R166): state, load, ells, taps in effect, alarms and the values in force. -/
def procQuerySpec (p : Nat) : CmdSpec where
  opcode := 0x0705
  ok := decide (p < 512)
  prog o := .read fun d =>
    finish o.id 0 ([d.rd (R.PRC_FSTATE p), d.rd (R.PRC_LOAD p), d.rd (R.PRC_ELLS p), d.fld (F.PRC_ELLS_vtaps_eff p),
      d.rd (R.PRC_ALARM p)] ++ (match (d.prcm p).cfg with | some c => c.words ++ c.mtx | none => []))

/-! ### Whether a frame can be produced (R148, R152, R159, R160) -/

/-- The shedding stage in force for the functions of R160 and R187: a pair's effective stage, or the unit's own
(R408). -/
def Dev.shedStage (d : Dev) : Nat :=
  if d.pairedActive || d.lockstep then
    match d.x.twin.shedNext with
    | some (s, k) => if k ≤ d.otgFrame (d.fld F.TWIN_SIG_CTRL_ref_otg) then s else d.x.twin.shedEff
    | none => d.x.twin.shedEff
  else d.fld F.PWR_STATUS_stage

/-- What a processor finds at a boundary: its status, its ells, and whether it can produce. -/
structure ProcEval where
  bypass : Bool
  clipped : Bool
  overload : Bool
  reduced : Bool
  short : Bool
  missing : Bool
  need : Nat
  grant : Nat
  taps : Nat
  load : Nat
  deriving DecidableEq, Repr

/-- The judgement at a boundary. -/
def Dev.procEval (d : Dev) (p : Nat) (c : PrcCfg) (i : VideoFmt) : ProcEval :=
  let o := d.procOut c
  let m := d.prcm p
  let full := c.need i o c.vtaps
  let red := c.need i o 2
  let g := d.fld (F.PRC_ELLS_grant p)
  let room := g + d.engFree (p / 8)
  let (grant, taps, short) :=
    if full ≤ g then (g, c.vtaps, false)
    else if full ≤ room then (full, c.vtaps, false)
    else if red ≤ room then (max g red, 2, false)
    else (g, c.vtaps, true)
  { bypass := decide (2 ≤ d.shedStage) && decide (i = o)
    clipped := (c.window i.format).2
    overload := c.overLoad i o
    reduced := decide (taps < c.vtaps)
    short := short
    missing := (c.lut3d && d.fld (F.LUT3D_STATE_state c.lutSlot) ≠ 2 && d.fld (F.LUT3D_STATE_state c.lutSlot) ≠ 3) ||
      (c.inCurve && (List.range 3).any fun k => KV.get [] m.curves k == []) ||
      (c.outCurve && (List.range 3).any fun k => KV.get [] m.curves (3 + k) == []) ||
      (c.scale && c.kernel == 2 && (List.range 4).any fun b => KV.get [] m.banks b == [])
    need := full, grant := grant, taps := taps, load := c.load i o }

/-- The status a judgement gives. -/
def procStatus (p : Nat) (e : ProcEval) : Prog :=
  seq [
    setB (F.PRC_STATUS_shed_bypass p) e.bypass,
    statusAlarm (F.PRC_STATUS_crop_clipped p) (F.PRC_ALARM_crop_clipped p) e.clipped,
    statusAlarm (F.PRC_STATUS_over_budget p) (F.PRC_ALARM_over_budget p) e.overload,
    statusAlarm (F.PRC_STATUS_reduced_taps p) (F.PRC_ALARM_reduced_taps p) e.reduced,
    statusAlarm (F.PRC_STATUS_ell_short p) (F.PRC_ALARM_ell_short p) e.short,
    statusAlarm (F.PRC_STATUS_content_missing p) (F.PRC_ALARM_content_missing p) e.missing,
    setF (F.PRC_ELLS_need p) (min 127 e.need), setF (F.PRC_ELLS_grant p) e.grant, setF (F.PRC_ELLS_vtaps_eff p) e.taps,
    wr (R.PRC_LOAD p) e.load, engUpdate (p / 8)]

/-! ### The choice of input frames (R153, R154, R155) -/

/-- The readable frame of a sequence. -/
def Dev.frameOf (d : Dev) (st : Store) (sq : Nat) : Option Frame :=
  (st.frames.filter fun f => f.rcd.seq == sq && d.readable st f).getLast?

/-- The history must restart with frame `f` (R155): another input or format, or a frame skipped or abandoned since the
last one used. -/
def Dev.histBroken (d : Dev) (m : PrcMem) (st : Store) (code : Nat) (f : Frame) : Bool :=
  m.histFrom.isNone || m.histCode ≠ code || m.histFormat ≠ f.rcd.format ||
  match m.lastSeq with
  | none => true
  | some q =>
    let n := (f.rcd.seq + 2 ^ 32 - q) % 2 ^ 32
    decide (0 < n) && (decide (32 < n) ||
      ((List.range (n - 1)).any fun i => (d.frameOf st ((q + 1 + i) % 2 ^ 32)).isNone) ||
      decide (((2 * n + 1) * fmtPeriod f.rcd.format : Nat) < 2 * (f.rcd.t - m.lastT)))

/-- The sequence `k` before another, where the history reaches it and its frame is readable. -/
def Dev.histSeq (d : Dev) (st : Store) (from_ sq k : Nat) : Option Nat :=
  let q := (sq + 2 ^ 32 - k) % 2 ^ 32
  if (q + 2 ^ 32 - from_) % 2 ^ 32 < 2 ^ 31 then (d.frameOf st q).map (·.rcd.seq) else none

/-- The frames a processor reads for a boundary B (R88, R153): one frame, or two with their weight, and whether the
conversion is short of frames. -/
def Dev.procFrames (d : Dev) (c : PrcCfg) (st : Store) (frc line : Bool) (b : Int) :
    Option (Frame × Option Frame × Nat × Bool) :=
  if frc then
    let fs := st.frames.filter (d.readable st)
    match fs.getLast? with
    | none => none
    | some top =>
      let t := b - 2 * fmtPeriod top.rcd.format - st.guard * 1000 * nsU
      match (fs.filter fun f => decide (f.rcd.t ≤ t)).getLast?, (fs.filter fun f => decide (t < f.rcd.t)).head? with
      | some a, some n =>
        if n.rcd.seq = (a.rcd.seq + 1) % 2 ^ 32 then
          some (a, some n, blendWeight (c.get 9 0 4) t a.rcd.t n.rcd.t, false)
        else some (a, none, 0, true)
      | some a, none => some (a, none, 0, true)
      | none, some n => some (n, none, 0, true)
      | none, none => none
  else if line then (st.chooseLine b).map fun f => (f, none, 0, false)
  else (d.shown st b).1.map fun f => (f, none, 0, false)

/-- Whether the output rate of a configuration is twice its input's (R154). -/
def rateTwice (i o : Nat) : Bool :=
  (rateFrac o).1 * (rateFrac i).2 == 2 * ((rateFrac i).1 * (rateFrac o).2)

/-- The frame a processor will produce at a boundary, with whether history is short and restarts; none where its input
has no frame. -/
def Dev.procJob (d : Dev) (p : Nat) (c : PrcCfg) (frame : Nat) (b : Int) (line : Bool) (ev : ProcEval) :
    Option (PrcJob × Bool × Bool) :=
  let code := d.procInput c
  let st := d.store code
  let m := d.prcm p
  match d.procFrames c st (c.frc && !ev.bypass) line b with
  | none => none
  | some (f, n, w16, few) =>
    let used := n.getD f
    let broken := d.histBroken m st code used
    let from_ := if broken then used.rcd.seq else m.histFrom.getD used.rcd.seq
    let deint := c.deint && !ev.bypass && fmtScan f.rcd.format == 1
    let twice := rateTwice (fmtRate f.rcd.format) (fmtRate (d.procOut c).format) && !c.frc
    let parity := if !twice then 1 else if m.lastSeq = some f.rcd.seq && !broken then 1 else 0
    let back := fun k => d.histSeq st from_ f.rcd.seq k
    let (c1, c3) := if parity = 1 then (some f.rcd.seq, back 1) else (back 1, back 2)
    let (w, n') := if w16 = 0 then (0, none) else (w16, n)
    some ({ frame := frame, b := b, code := code, seqA := f.rcd.seq, seqB := n'.map (·.rcd.seq), w16 := w
            parity := parity, c1 := if deint then c1 else none, c3 := if deint then c3 else none
            taps := ev.taps, bypass := ev.bypass },
      few || (deint && (c1.isNone || c3.isNone)), broken)

/-! ### The picture (R147) -/

/-- The 12-bit code of a coefficient of a user bank. -/
def userCoef (b : Nat) (l : List Nat) (ph t : Nat) : Int := signedOf 12 (l.getD (ph * bankTaps b + t) 0)

/-- The bank in force of one axis and component (R150); an axis at unity passes its samples. -/
def Dev.procBank (d : Dev) (p : Nat) (c : PrcCfg) (taps b win wout : Nat) : Bank :=
  if win = wout then fun _ i => if i = taps / 2 - 1 then 1024 else 0
  else match c.kernel with
    | 1 => bilinear taps
    | 2 => userCoef b (KV.get [] (d.prcm p).banks b)
    | _ => fun ph t => signedOf 12 (Config.autoCoef taps win wout (b % 2 == 1) ph t)

/-- A matrix of a configuration (R157). -/
def PrcCfg.matrix (c : PrcCfg) (m : Nat) : Matrix3 :=
  let v := fun i => signedOf 18 (c.mtx.getD (16 * m + i) 0)
  { k := (List.range 9).map v, pre := (List.range 3).map fun i => v (9 + i), post := (List.range 3).map fun i => v (12 + i) }

/-- The colour stage of a configuration. -/
def Dev.procColour (d : Dev) (p : Nat) (c : PrcCfg) : Colour :=
  { inCurve := c.inCurve, inMatrix := c.inMatrix, lut := c.lut3d, outMatrix := c.outMatrix, outCurve := c.outCurve
    curves := fun k => KV.get [] (d.prcm p).curves k
    m0 := c.matrix 0, m1 := c.matrix 1
    entry := fun e => KV.get 0 (KV.get [] d.x.luts c.lutSlot) e }

/-- One input frame cropped, deinterlaced where asked; with the motion store it leaves. -/
def Dev.procField (d : Dev) (p : Nat) (c : PrcCfg) (st : Store) (f : Frame) (parity : Nat) (deint : Bool)
    (c1 c3 : Option Nat) (motion : KV Nat) : Pic × KV Nat × Nat :=
  let ((x, w, y, h), _) := c.window f.rcd.format
  let pic := fun (f : Frame) => (d.readPic st f).1.crop x w y h
  let cur := pic f
  let subst := (d.readPic st f).2
  if !deint then (cur, motion, subst)
  else
    let get := fun (q : Option Nat) => (q.bind (d.frameOf st)).map pic
    let i : DeintIn := { cur := cur, parity := parity, c1 := get c1, c3 := get c3 }
    let area := (d.x.areas.find? fun a => a.1 == motionArea p).map (·.2.1)
    let lost := fun k => match area with | some b => d.poisoned (b + k) 1 | none => false
    let s := fun n x =>
      if lost (n * w + x) then 16
      else (i.sLine (c.get 10 0 12) (c.get 10 16 4) (fun n x => KV.get 16 motion (n * w + x)) n).getD x 16
    (i.picture s,
      (List.range (w * h)).filterMap fun k =>
        let v := if k / w % 2 = parity then KV.get 16 motion k else s (k / w) (k % w)
        if v = 16 then none else some (k, v),
      subst)

/-- The lines a processor produces, as pel words in frame order, with the motion store it leaves and the input tiles it
had to substitute (R147). -/
def Dev.procLines (d : Dev) (p : Nat) (c : PrcCfg) (j : PrcJob) : List (List Nat) × KV Nat × Nat :=
  let st := d.store j.code
  let o := d.procOut c
  match d.frameOf st j.seqA with
  | none => ([], (d.prcm p).motion, 0)
  | some f =>
    let s := f.rcd.sampling
    if j.bypass then
      let (pic, n) := d.readPic st f
      ((List.range pic.h).map fun y => pixelWords s (pic.line y), (d.prcm p).motion, n)
    else
      let deint := c.deint && fmtScan f.rcd.format == 1
      let (a, mo, n) := d.procField p c st f j.parity deint j.c1 j.c3 (d.prcm p).motion
      let (pic, mo, n) := match j.seqB.bind (d.frameOf st) with
        | some g =>
          let (b, mo', n') := d.procField p c st g j.parity deint (some g.rcd.seq) (some f.rcd.seq) mo
          (a.blend b j.w16, mo', n + n')
        | none => (a, mo, n)
      let (wo, ho) := (fmtWidth o.format, fmtLines o.format)
      let bank := fun b taps win wout => d.procBank p c taps b win wout
      let inFields := fmtScan f.rcd.format == 1 && !deint
      let mode : VMode := if fmtScan o.format ≠ 1 || pic.h = ho then .progressive
        else if inFields then .fieldsOfFields else .fieldsOfFrame
      let pic' := if !c.scale then pic else
        pic.scale mode c.htaps j.taps
          { hl := bank 0 c.htaps pic.w wo, hc := bank 1 c.htaps pic.w wo
            vl := bank 2 j.taps pic.h ho, vc := bank 3 j.taps pic.h ho } wo ho
      let col := d.procColour p c
      ((List.range pic'.h).map fun y => pixelWords o.sampling (colourLine col s o.sampling (pic'.line y)), mo, n)

/-- Whether a poisoned grain lies in a processor's motion store (R161). -/
def Dev.motionErrors (d : Dev) (p : Nat) : Nat :=
  match d.x.areas.find? fun a => a.1 == motionArea p with
  | some (_, b, n) => (d.x.poison.filter fun q => decide (b ≤ 64 * q) && decide (64 * q < b + n)).length
  | none => 0

/-! ### Boundaries and frames (R144, R152, R159) -/

/-- A boundary without a frame (R159). -/
def procNoFrame (p : Nat) : Prog :=
  seq [inc (R.PRC_CNT_NO_FRAME p), raise (F.PRC_ALARM_no_frame p), setF (F.PRC_STATUS_producing p) 0,
    prcUpd p fun m => { m with job := none }, procRelease p]

/-- A processor begins the frame of a boundary, where it can (R152 to R155, R159). -/
def procStart (p frame : Nat) (b : Int) (line : Bool) : Prog :=
  .read fun d =>
    match (d.prcm p).cfg with
    | none => .nop
    | some c =>
      match d.codeFmt (d.procInput c) with
      | none => procNoFrame p
      | some i =>
        let ev := d.procEval p c i
        seq [
          procStatus p ev,
          if ev.overload || (!ev.bypass && (ev.short || ev.missing)) then procNoFrame p
          else match d.procJob p c frame b line ev with
            | none => procNoFrame p
            | some (j, few, broken) =>
              let used := j.seqB.getD j.seqA
              let st := d.store j.code
              let slotOf := fun q => (d.frameOf st q).map (·.rcd.slot)
              seq [
                statusAlarm (F.PRC_STATUS_history_short p) (F.PRC_ALARM_history_short p) few,
                procRelease p,
                hold j.code (.prc p 0) (slotOf j.seqA),
                match j.seqB with | some q => hold j.code (.prc p 1) (slotOf q) | none => .nop,
                prcUpd p fun m => { m with
                  job := some j
                  histFrom := if broken then some used else m.histFrom
                  motion := if broken then [] else m.motion
                  histCode := j.code, histFormat := i.format, lastSeq := some used
                  lastT := ((d.frameOf st used).map (·.rcd.t)).getD 0, lastParity := j.parity }]]

/-- A path processor's frame for its destination's boundary (R143, R159): idle on a generated route. -/
def procPathStart (n frame : Nat) (b : Int) (line : Bool) : Prog :=
  .read fun d =>
    match d.pathProc n with
    | none => .nop
    | some (p, c) =>
      match codeClass (d.procInput c) with
      | .pattern | .black | .park => seq [prcUpd p fun m => { m with job := none }, procRelease p]
      | _ => doIf (d.on (prcFn p)) (seq [
          procStart p frame b line,
          doWhen (fun d' => (d'.prcm p).job.isSome) (seq [
            wr (R.PRC_SEQ p) (frame % 2 ^ 32), inc (R.PRC_CNT_FRAMES p), setF (F.PRC_STATUS_producing p) 1,
            doWhen (fun d' => d'.flag (F.PRC_STATUS_reduced_taps p)) (inc (R.PRC_CNT_REDUCED p))])])

/-- A boundary of a publishing processor's output OTG (R144, R145, R159): configurations land, late work is dropped, and
the frame of the boundary begins. -/
def procBoundary (p : Nat) : Prog :=
  .read fun d =>
    let land := (d.prcm p).pend.getLast?
    let otg := match land, (d.prcm p).cfg with
      | some t, _ => t.2.2.otg
      | none, some c => c.otg
      | none, none => 0
    let k := d.otgFrame otg
    let b := d.toHt (d.otgm otg).src (d.otgm otg).start
    seq [
      doIf ((d.prcm p).job.isSome && (match (d.prcm p).cfg with | some c => c.publish | none => false)) (seq [
        inc (R.PRC_CNT_LATE p), raise (F.PRC_ALARM_late p), procDrop p]),
      procLand p k fun t => t.2.2.publish,
      .read fun d' =>
        match (d'.prcm p).cfg with
        | none => .nop
        | some c =>
          doIf (c.publish && c.enable && d'.on (prcFn p)) (seq [
            procStart p k b false,
            .read fun d2 =>
              match (d2.prcm p).job with
              | none => .nop
              | some j =>
                let code := procCode p c
                let st := d2.store code
                let o := d2.procOut c
                match d2.frameOf (d2.store j.code) (j.seqB.getD j.seqA),
                    (if st.alloc then d2.chooseSlot st (k % 2 ^ 32) else none) with
                | some newest, some slot => seq [
                    prcUpd p fun m => { m with job := m.job.map fun j => { j with slot := slot } },
                    storeUpd code fun st => { st.push {
                      rcd := { source := code, format := o.format, slot := slot, sampling := o.sampling
                               seq := k % 2 ^ 32, t := b, kind := newest.rcd.kind, locked := true
                               lockScale := (d.otgm otg).src, tsLocal := newest.rcd.tsLocal
                               concealed := newest.rcd.concealed ||
                                 (match d2.frameOf (d2.store j.code) j.seqA with
                                   | some f => f.rcd.concealed | none => false)
                               compact := st.compact, colorimetry := o.colorimetry, transfer := o.transfer
                               depth := o.depth }
                      due := b + fmtPeriod o.format + st.guard * 1000 * nsU
                      diff := newest.diff || (match d2.frameOf (d2.store j.code) j.seqA with
                        | some f => f.diff | none => false) } with producing := true }]
                | _, _ => procNoFrame p])]

/-- The word of a frame at a stored line and position, from lines in frame order. -/
def storedWord (f s : Nat) (ls : List (List Nat)) (line i : Nat) : Nat :=
  let n := if fmtFielded f then
      (if line < fmtLines f / 2 then 2 * line else 2 * (line - fmtLines f / 2) + 1) else line
  (ls.getD n []).getD i (blackWord s i)

/-- A publishing processor completes its frame (R144, R159, R161). -/
def procComplete (p : Nat) : Prog :=
  .read fun d =>
    match (d.prcm p).job, (d.prcm p).cfg with
    | some j, some c =>
      let code := procCode p c
      match (d.store code).frames.find? fun f => f.rcd.seq == j.frame % 2 ^ 32 && f.phase == .writing with
      | none => .nop
      | some fr =>
        let (ls, motion, n) := d.procLines p c j
        let ue := n + (if c.deint then d.motionErrors p else 0)
        doIf c.publish (seq [
          frameWrite code { fr with rcd := { fr.rcd with concealed := fr.rcd.concealed || decide (0 < n) } }
            (storedWord fr.rcd.format fr.rcd.sampling ls),
          doIf (decide (0 < ue)) (seq [addCnt (R.PRC_CNT_UE p) ue, raise (F.PRC_ALARM_ue_substitute p)]),
          countSrcUe j.code n,
          wr (R.PRC_SEQ p) (j.frame % 2 ^ 32), inc (R.PRC_CNT_FRAMES p), setF (F.PRC_STATUS_producing p) 1,
          doWhen (fun d' => d'.flag (F.PRC_STATUS_reduced_taps p)) (inc (R.PRC_CNT_REDUCED p)),
          prcUpd p fun m => { m with job := none, motion := motion }, procRelease p])
    | _, _ => .nop

/-! ### Meanings -/

/-- PROC_SET (R164, R165). -/
def execProcSet (h : Hdr) (b : ProcSetBody) (s : State) : Host.Outcome State Fault Refusal :=
  perform .core (rygus h (.procSet b) (procSetSpec b)) s

/-- PROC_LUT3D_LOAD (R158, R165). -/
def execProcLut3dLoad (h : Hdr) (b : LutLoadBody) (s : State) : Host.Outcome State Fault Refusal :=
  perform .core (rygus h (.lutLoad b) (lutLoadSpec b)) s

/-- PROC_LUT3D_FREE (R158). -/
def execProcLut3dFree (h : Hdr) (slot : Nat) (s : State) : Host.Outcome State Fault Refusal :=
  perform .core (rygus h (.lutFree slot) (lutFreeSpec slot)) s

/-- PROC_CURVE_LOAD (R165). -/
def execProcCurveLoad (h : Hdr) (b : CurveLoadBody) (s : State) : Host.Outcome State Fault Refusal :=
  perform .core (rygus h (.curveLoad b) (curveLoadSpec b)) s

/-- PROC_COEF_LOAD (R150, R165). -/
def execProcCoefLoad (h : Hdr) (b : CoefLoadBody) (s : State) : Host.Outcome State Fault Refusal :=
  perform .core (rygus h (.coefLoad b) (coefLoadSpec b)) s

/-- PROC_QUERY (R165). -/
def execProcQuery (h : Hdr) (proc : Nat) (s : State) : Host.Outcome State Fault Refusal :=
  perform .core (rygus h (.procQuery proc) (procQuerySpec proc)) s

/-- PROC_OUTPUT_BOUNDARY (R144, R145, R159). -/
def execProcOutputBoundary (n : PrcId) (s : State) : Host.Outcome State Fault Refusal :=
  perform .core (procBoundary n) s

/-- PROC_FRAME_COMPLETE (R144, R159). -/
def execProcFrameComplete (n : PrcId) (s : State) : Host.Outcome State Fault Refusal :=
  perform .core (procComplete n) s

/-- What a write of 1 to PRC_CNT_CLEAR clears (R166). -/
def prcCntClear (n : PrcId) : Prog :=
  clearRegs [R.PRC_CNT_FRAMES n, R.PRC_CNT_LATE n, R.PRC_CNT_NO_FRAME n, R.PRC_CNT_UE n,
  R.PRC_CNT_REDUCED n]

/-- PRC_CNT_CLEAR (R166). -/
def execPrcCntClear (n : PrcId) (s : State) : Host.Outcome State Fault Refusal := perform .core (prcCntClear n) s

end Sys2Proof.Machine
end

