-- ==== Sys2Proof/Machine/Mv.lean ====
section
/-!
DEFINITION. Multiviewer heads (R168 to R198): their configuration and checks, tiles, composition, guarded regions, and the
font store.
-/

namespace Sys2Proof.Machine

/-! ### Heads -/

/-- What a head holds. -/
def Dev.mvhm (d : Dev) (h : Nat) : MvhMem := KV.get {} d.x.mvh h

/-- Changes what a head holds. -/
def mvhUpd (h : Nat) (f : MvhMem → MvhMem) : Prog := ext fun x => { x with mvh := KV.upd {} x.mvh h f }

/-- A head as a function. -/
def mvhFn (h : Nat) : Fn := .mvh (Fin.ofNat 32 h)

/-- The store code of a head (R169). -/
def headCode (h : Nat) : Nat := 0x710 + h

/-- The registers a head latches at its boundary (R171). -/
def mvhLatched : List RK :=
  [.MVH_CTRL, .MVH_OUT, .MVH_BG_Y, .MVH_BG_C, .MVH_MON, .MVH_METER, .MVH_T_SRC, .MVH_T_RECT_X, .MVH_T_RECT_Y,
    .MVH_T_DECO, .MVH_T_METER, .MVH_T_TEXT, .MVH_GR_CTRL, .MVH_GR_X, .MVH_GR_Y, .MVH_GR_EXPECT, .MVH_CLK_CTRL,
    .MVH_CLK_POS, .MVH_CLK_OFFSET, .MVH_PAL_Y, .MVH_PAL_C]

/-- The words of those registers as they are. -/
def Dev.mvhWords (d : Dev) (h : Nat) : RegFile := d.regs.filter fun e => mvhLatched.contains e.1.kind && e.1.i == h

/-- A field of a head as it is in force. -/
def Dev.mvf (d : Dev) (f : Field) : Nat := bitsOf (RegFile.get (d.mvhm f.reg.i).cfg f.reg).toNat f.lo f.width

/-- A one-bit field of a head as it is in force. -/
def Dev.mvb (d : Dev) (f : Field) : Bool := d.mvf f == 1

/-- The frame generator a head runs on, with its frame count: its own copy while its OTG is not ON (R193). -/
def Dev.mvhTiming (d : Dev) (h : Nat) : OtgMem × Nat :=
  match (d.mvhm h).fly with
  | some f => f
  | none => (d.otgm (d.mvf (F.MVH_CTRL_otg h)), d.otgFrame (d.mvf (F.MVH_CTRL_otg h)))

/-- The formats a head runs on (R168). -/
def mvhFormatOk (f : Nat) : Bool :=
  fmtLegal f && (fmtRaster f == 2 || fmtRaster f == 5 || fmtRaster f == 6) && decide (fmtRate f ≤ 9)

/-! ### The checks of R195 -/

/-- The input geometry of a tile: width, lines and twice the pel words per pixel (R174, R175). -/
def Dev.tileInput (d : Dev) (proxy : Bool) (code : Nat) : Option (Nat × Nat × Nat) :=
  (d.codeFmt code).map fun f =>
    if proxy then (proxyWidth f.format, proxyLines f.format, 2)
    else (fmtWidth f.format, fmtLines f.format, pelTwice f.sampling)

/-- Twice the larger of Ai and Ao of a tile (R175). -/
def tileArea2 (i : Nat × Nat × Nat) (w h : Nat) : Nat := max (i.1 * i.2.2 * i.2.1) (2 * w * h)

/-- The ratio of a tile is within 1/8 to 2 on both axes (R174). -/
def tileRatioOk (i : Nat × Nat × Nat) (w h : Nat) : Bool :=
  decide (i.1 ≤ 8 * w) && decide (w ≤ 2 * i.1) && decide (i.2.1 ≤ 8 * h) && decide (h ≤ 2 * i.2.1)

/-- The enabled tiles of a head by its registers: index, code, PROXY, and rectangle. -/
def Dev.mvhTiles (d : Dev) (h : Nat) : List (Nat × Nat × Bool × (Nat × Nat × Nat × Nat)) :=
  ((List.range 64).filter fun t => d.flag (F.MVH_T_SRC_enable h t)).map fun t =>
    (t, d.fld (F.MVH_T_SRC_source h t), d.fld (F.MVH_T_SRC_mode h t) == 0,
      (d.fld (F.MVH_T_RECT_X_x h t), d.fld (F.MVH_T_RECT_X_w h t), d.fld (F.MVH_T_RECT_Y_y h t),
        d.fld (F.MVH_T_RECT_Y_h h t)))

/-- The summed load, as twice the pel words of a frame (R175). -/
def Dev.mvhArea2 (d : Dev) (h : Nat) : Nat :=
  ((d.mvhTiles h).map fun e => match d.tileInput e.2.2.1 e.2.1 with
    | some i => tileArea2 i e.2.2.2.2.1 e.2.2.2.2.2.2 | none => 2 * e.2.2.2.2.1 * e.2.2.2.2.2.2).sum

/-- An area exceeds the budget of a tile scaler at a rate: 2,376 Mpel/s (R175). -/
def tileOver (area2 rate : Nat) : Bool :=
  let (n, m) := rateFrac rate
  decide (2 * 2376000000 * m < area2 * n)

/-- Reserves a head's hogshead where its geometry is new (R169); without room it stays unallocated. -/
def mvhAlloc (h : Nat) : Prog :=
  .read fun d =>
    let code := headCode h
    let st := d.store code
    let f := d.mvhFormat h
    let depth := d.fld (F.MVH_OUT_depth h)
    let size := hogBytes d.grain f 0 depth false
    seq [
      doIf (!(st.alloc && st.format == f && st.depth == depth)) (seq [
        storeUpd code fun _ => {},
        .read fun d' => match d'.place size with
          | some b => storeUpd code fun _ => { alloc := true, base := b, size := size, format := f, depth := depth }
          | none => .nop]),
      storeUpd code fun st => if st.alloc then { st with
        guard := min 10000 (d.fld (F.MVH_OUT_guard_us h)), ratio := min 8 (d.fld (F.MVH_OUT_ratio h))
        compact := d.flag (F.MVH_OUT_compact h) } else st]

/-- The checks of R195 on a head whose registers are already as the command would leave them; `d0` is the state before. -/
def Dev.mvhCheck (d d0 : Dev) (h : Nat) : Option Nat :=
  let f := d.mvhFormat h
  let (w, l) := (fmtWidth f, fmtLines f)
  let ts := d.mvhTiles h
  let out := d.fld (F.MVH_CTRL_out_dest h)
  firstOf [
    (ts.any fun e => let (_, _, _, (x, tw, y, th)) := e
      x % 2 == 1 || tw % 2 == 1 || decide (tw < 16) || decide (th < 16) || decide (w < x + tw) || decide (l < y + th),
      Reason.badPlacement),
    ((List.range 4).any fun c => d.fld (F.MVH_CLK_POS_x h c) % 2 == 1, Reason.badPlacement),
    (d.flag (F.DST_CTRL_opaque out) || (d.pathProc out).isSome ||
      (d.x.mvh.any fun e => e.1 ≠ h && e.2.configured && d.fld (F.MVH_CTRL_out_dest e.1) == out), Reason.badPlacement),
    (ts.any fun e => let (_, code, proxy, _) := e
      code == headCode h ||
      (if proxy then decide (0x400 ≤ code)
       else !(hogCode code || codeClass code == .surface || codeClass code == .black || codeClass code == .park)),
      Reason.badSource),
    (ts.any fun e => let (_, code, proxy, (_, tw, _, th)) := e
      match d.tileInput proxy code with | some i => !tileRatioOk i tw th | none => false, Reason.badRatio),
    (decide (1024 < ((List.range 32).map fun g => (d.mvhTiles g).length).sum), Reason.tileLimit),
    (tileOver (d.mvhArea2 h) (fmtRate f), Reason.budget),
    (ts.any fun e => !e.2.2.1 && d.short e.2.1, Reason.hogsheadShort),
    (overBudget d0 d, Reason.bandwidth),
    (d.flag (F.MVH_CTRL_enable h) && mvhFormatOk f && !(((mvhAlloc h).run d).store (headCode h)).alloc, Reason.noMemory)]

/-! ### Commands (R194) -/

/-- A command that changes a head: after its checks its registers are written and written through, and it lands at the
head's next boundary (R171, R193). -/
def mvChange (o : Orig) (h : Nat) (early : Option Nat) (full : Bool) (p : Prog) : Prog :=
  checked o (fun d => match early with
      | some r => some r
      | none => if full then (p.run d).mvhCheck d h else none)
    (seq [p, setCmdState o.id .committed,
      .read fun d => mramPut ⟨.config, 6 * 65536 + h⟩ (.regs (d.mvhWords h)),
      mvhUpd h fun m => { m with pend := m.pend ++ [o.id] }, refSync, planUpdate])

/-- The register words of MV_SET, in address order (R194). -/
def mvSetRegs (h : Nat) (b : MvSetBody) : List (Reg × Nat) :=
  let w := fun i => b.regs.getD i 0
  [(R.MVH_CTRL h, w 0), (R.MVH_OUT h, w 2), (R.MVH_BG_Y h, w 3), (R.MVH_BG_C h, w 4), (R.MVH_MON h, w 5),
    (R.MVH_METER h, w 6)] ++
  ((List.range 4).flatMap fun c =>
    [(R.MVH_CLK_CTRL h c, b.clocks.getD (3 * c) 0), (R.MVH_CLK_POS h c, b.clocks.getD (3 * c + 1) 0),
      (R.MVH_CLK_OFFSET h c, b.clocks.getD (3 * c + 2) 0)]) ++
  (List.range 8).flatMap fun n =>
    [(R.MVH_PAL_Y h n, b.palette.getD (2 * n) 0), (R.MVH_PAL_C h n, b.palette.getD (2 * n + 1) 0)]

/-- A word has no bit its register lacks (R442). -/
def wordFits (e : Reg × Nat) : Bool :=
  decide (e.2 < 2 ^ 32) && BitVec.ofNat 32 e.2 &&& implMask e.1 == BitVec.ofNat 32 e.2

/-- MV_SET (R194, R195). -/
def mvSetSpec (b : MvSetBody) : CmdSpec where
  opcode := 0x0800
  controller := some b.controller
  ok := b.regs.length == 7 && b.clocks.length == 12 && b.palette.length == 16 && (mvSetRegs 0 b).all wordFits &&
    (let out := b.regs.getD 2 0
     decide (3 ≤ bitsOf out 0 5) && decide (bitsOf out 0 5 ≤ 16) && decide (bitsOf out 8 14 ≤ 10000) &&
       decide (bitsOf out 24 4 < 3)) &&
    (List.range 4).all (fun c => let w := b.clocks.getD (3 * c) 0
      decide (bitsOf w 4 2 < 2) && decide (bitsOf w 16 3 ≤ 4)) && decide (1 ≤ bitsOf (b.regs.getD 5 0) 12 4)
  prog o := seq [
    mvChange o b.head (if b.head < 32 then none else some Reason.badHead) true
      (each (mvSetRegs b.head b) fun e => wr e.1 e.2)]

/-- The register words of MV_LAYOUT (R194): the tiles given, the others disabled. -/
def mvLayoutRegs (h : Nat) (l : List TileEntry) : List (Reg × Nat) :=
  l.zipIdx.flatMap fun (e, t) =>
    [(R.MVH_T_SRC h t, e.src), (R.MVH_T_RECT_X h t, e.rectX), (R.MVH_T_RECT_Y h t, e.rectY), (R.MVH_T_DECO h t, e.deco),
      (R.MVH_T_METER h t, e.meter)]

/-- MV_LAYOUT (R194, R195). -/
def mvLayoutSpec (b : MvLayoutBody) : CmdSpec where
  opcode := 0x0801
  controller := some b.controller
  ok := decide (b.tiles.length ≤ 64) && (mvLayoutRegs 0 b.tiles).all wordFits &&
    b.tiles.all fun e => decide (bitsOf e.deco 16 2 < 3) && decide (bitsOf e.meter 16 5 ≤ 16)
  prog o := mvChange o b.head (if b.head < 32 then none else some Reason.badHead) true (seq [
    each (mvLayoutRegs b.head b.tiles) fun e => wr e.1 e.2,
    each ((List.range 64).drop b.tiles.length) fun t => setF (F.MVH_T_SRC_enable b.head t) 0])

/-- MV_TEXT (R194). -/
def mvTextSpec (b : MvTextBody) : CmdSpec where
  opcode := 0x0802
  ok := decide (b.text.length ≤ 32)
  prog o := mvChange o b.head (if b.head < 32 ∧ b.tile < 64 then none else some Reason.badHead) false
    (each (List.range 8) fun i => wr (R.MVH_T_TEXT b.head b.tile i) (ofLeBytes ((b.text.drop (4 * i)).take 4)))

/-- MV_TALLY (R182, R194). -/
def mvTallySpec (b : MvTallyBody) : CmdSpec where
  opcode := 0x0803
  ok := decide (b.tally < 4)
  prog o := mvChange o b.head (if b.head < 32 ∧ b.tile < 64 then none else some Reason.badHead) false
    (setF (F.MVH_T_DECO_tally b.head b.tile) b.tally)

/-- MV_GUARD (R188, R194). -/
def mvGuardSpec (b : MvGuardBody) : CmdSpec where
  opcode := 0x0804
  ok := decide (b.ctrl < 3) && decide (b.x < 2 ^ 32) && decide (b.y < 2 ^ 32) && decide (b.expect < 2 ^ 32)
  prog o := mvChange o b.head
    (if ¬(b.head < 32 ∧ b.region < 16) then some Reason.badHead
      else if bitsOf b.x 16 16 % 2 = 1 ∨ bitsOf b.x 0 16 % 2 = 1 then some Reason.badPlacement else none) false
    (seq [wr (R.MVH_GR_CTRL b.head b.region) b.ctrl, wr (R.MVH_GR_X b.head b.region) b.x,
      wr (R.MVH_GR_Y b.head b.region) b.y, wr (R.MVH_GR_EXPECT b.head b.region) b.expect])

/-! ### Fonts (R181, R198) -/

/-- The area key of the font store. -/
def fontArea : Nat := 0x2000

/-- The font store is reserved (R181). -/
def fontReserve : Prog :=
  .read fun d =>
    let n := roundUp d.grain (16 * 2 ^ 20 + 4096)
    if d.x.areas.any fun a => a.1 == fontArea then .nop
    else match d.place n with
      | some b => ext fun x => { x with areas := x.areas ++ [(fontArea, (b, n))] }
      | none => .nop

/-- The base of the font store. -/
def Dev.fontBase (d : Dev) : Option Nat := (d.x.areas.find? fun a => a.1 == fontArea).map (·.2.1)

/-- FONT_GLYPHS follow the glyph slots. -/
def fontCount : Prog :=
  .read fun d => each (List.range 4) fun f => wr (R.FONT_GLYPHS f) ((List.range 8192).filter fun g =>
    d.flag (F.GLYPH_ID_valid g) && d.fld (F.GLYPH_ID_font g) == f).length

/-- MV_FONT_SET (R181, R194): height 0 unloads the font with its glyphs. -/
def fontSetSpec (b : FontSetBody) : CmdSpec where
  opcode := 0x0805
  prog o := checked o (fun _ => firstOf [
      (decide (4 ≤ b.font) || (b.height ≠ 0 && (decide (b.height < 8) || decide (64 < b.height))) ||
        decide (128 ≤ b.baseline) || decide (2 ^ 21 ≤ b.defaultCp), Reason.badGlyph)])
    (seq [
      setF (F.FONT_HDR_height b.font) b.height, setF (F.FONT_HDR_baseline b.font) b.baseline,
      wr (R.FONT_DEFAULT_CP b.font) b.defaultCp,
      doIf (b.height == 0) (.read fun d => each ((List.range 8192).filter fun g =>
        d.flag (F.GLYPH_ID_valid g) && d.fld (F.GLYPH_ID_font g) == b.font) fun g =>
          seq [wr (R.GLYPH_ID g) 0, wr (R.GLYPH_WIDTH g) 0]),
      fontCount, finish o.id 0 []])

/-- The bytes of a glyph's bitmap (R181). -/
def glyphBytes (height width : Nat) : Nat := height * ceilDiv width 2

/-- MV_FONT_LOAD (R181, R194). -/
def fontLoadSpec (b : FontLoadBody) : CmdSpec where
  opcode := 0x0806
  prog o := checked o (fun d => firstOf [
      (decide (4 ≤ b.font) || decide (8192 ≤ b.slot) || decide (b.width < 1) || decide (64 < b.width) ||
        decide (2 ^ 21 ≤ b.cp) || d.fld (F.FONT_HDR_height b.font) == 0 ||
        b.bitmap.length ≠ glyphBytes (d.fld (F.FONT_HDR_height b.font)) b.width, Reason.badGlyph),
      ((List.range 8192).any fun g => g ≠ b.slot && d.flag (F.GLYPH_ID_valid g) &&
        d.fld (F.GLYPH_ID_font g) == b.font && d.fld (F.GLYPH_ID_code_point g) == b.cp, Reason.duplicateGlyph)])
    (seq [
      fontReserve,
      wr (R.GLYPH_ID b.slot) (2 ^ 31 + b.font * 2 ^ 21 + b.cp), wr (R.GLYPH_WIDTH b.slot) b.width,
      .read fun d => match d.fontBase with
        | some a => memWrite (a + 2048 * b.slot) b.bitmap
        | none => .nop,
      fontCount, finish o.id 0 []])

/-- MV_QUERY (R194, R196): state, load, tile statuses, region results and the values in force. -/
def mvQuerySpec (h : Nat) : CmdSpec where
  opcode := 0x0807
  prog o := .read fun d => if 32 ≤ h then reject o.id Reason.badHead else (
    finish o.id 0 ([d.rd (R.MVH_FSTATE h), d.rd (R.MVH_LOAD h)] ++
      ((List.range 64).map fun t => d.rd (R.MVH_T_STATUS h t)) ++
      ((List.range 16).map fun r => d.rd (R.MVH_GR_STATUS h r)) ++
      (d.mvhm h).cfg.flatMap fun e => [e.1.addr, e.2.toNat]))

/-! ### Text (R180) -/

/-- The continuation bytes of a UTF-8 sequence, folded onto its first bits. -/
def utf8Tail : Nat → Nat → List Byte → Option (Nat × List Byte)
  | 0, v, l => some (v, l)
  | n + 1, v, b :: l => if b.toNat / 64 = 2 then utf8Tail n (v * 64 + b.toNat % 64) l else none
  | _ + 1, _, [] => none

/-- The next code point of a byte string, none for an invalid sequence, and the bytes after it. -/
def utf8Next (b : Byte) (l : List Byte) : Option Nat × List Byte :=
  let x := b.toNat
  let seq_ := fun (n lo v : Nat) => match utf8Tail n v l with
    | some (v, r) =>
      if lo ≤ v ∧ v < 0x110000 ∧ ¬(0xD800 ≤ v ∧ v < 0xE000) then (some v, r) else (none, l)
    | none => (none, l)
  if x < 0x80 then (some x, l)
  else if 0xC0 ≤ x ∧ x < 0xE0 then seq_ 1 0x80 (x % 32)
  else if 0xE0 ≤ x ∧ x < 0xF0 then seq_ 2 0x800 (x % 16)
  else if 0xF0 ≤ x ∧ x < 0xF8 then seq_ 3 0x10000 (x % 8)
  else (none, l)

/-- The code points of a string of at most `n` sequences; none for an invalid one. -/
def utf8 : Nat → List Byte → List (Option Nat)
  | 0, _ => []
  | _ + 1, [] => []
  | n + 1, b :: l => let (c, r) := utf8Next b l; c :: utf8 n r

/-- The bytes of a tile's string: up to the first zero byte. -/
def Dev.tileText (d : Dev) (h t : Nat) : List Byte :=
  ((List.range 8).flatMap fun i => leBytes 4 (RegFile.get (d.mvhm h).cfg (R.MVH_T_TEXT h t i)).toNat).takeWhile (· ≠ 0)

/-- The glyph slot of a code point of a font, whose bitmap can be read (R181, R192). -/
def Dev.glyph (d : Dev) (font cp : Nat) : Option Nat :=
  (List.range 8192).find? fun g =>
    d.flag (F.GLYPH_ID_valid g) && d.fld (F.GLYPH_ID_font g) == font && d.fld (F.GLYPH_ID_code_point g) == cp &&
    (match d.fontBase with | some b => !d.poisoned (b + 2048 * g) 2048 | none => false)

/-- The glyph drawn for a code point: its own, the font's default, or blank; with its advance (R180). -/
def Dev.glyphFor (d : Dev) (font : Nat) (cp : Option Nat) : Option Nat × Nat :=
  let dflt := d.glyph font (d.fld (F.FONT_DEFAULT_CP font))
  match (match cp.bind (d.glyph font) with | some g => some g | none => dflt) with
  | some g => (some g, d.rd (R.GLYPH_WIDTH g))
  | none => (none, d.fld (F.FONT_HDR_height font) / 2)

/-- The coverage of a glyph in raster order, 17 times its 4-bit values (R179, R181). -/
def Dev.glyphCov (d : Dev) (font g : Nat) : List Nat :=
  let w := d.rd (R.GLYPH_WIDTH g)
  match d.fontBase with
  | none => []
  | some b => (List.range (d.fld (F.FONT_HDR_height font))).flatMap fun y => (List.range w).map fun x =>
      let v := (Memory.get d.mem (b + 2048 * g + y * ceilDiv w 2 + x / 2)).toNat
      17 * (if x % 2 = 0 then v % 16 else v / 16)

/-- The glyphs of a run that fit a width, each with its left edge, and the width of the run (R180). -/
def fitRun (room : Nat) : Nat → List (Option Nat × Nat) → List (Option Nat × Nat) × Nat
  | x, [] => ([], x)
  | x, (g, w) :: r =>
    if room < x + w then ([], x)
    else let (l, e) := fitRun room (x + w) r; ((g, x) :: l, e)

/-- The elements of a run of glyphs at a position. -/
def Dev.runDraws (d : Dev) (font x y : Nat) (fg : Nat × Nat × Nat) (l : List (Option Nat × Nat)) : List Draw :=
  l.filterMap fun (g, dx) => g.map fun g =>
    { x := x + dx, y := y, w := d.rd (R.GLYPH_WIDTH g), h := d.fld (F.FONT_HDR_height font), cov := d.glyphCov font g
      fg := fg }

/-! ### Decorations (R182 to R184) -/

/-- A palette entry in force. -/
def Dev.palette (d : Dev) (h n : Nat) : Nat × Nat × Nat :=
  (d.mvf (F.MVH_PAL_Y h n), d.mvf (F.MVH_PAL_C_cb h n), d.mvf (F.MVH_PAL_C_cr h n))

/-- A frame of a rectangle's edge, `t` pixels wide. -/
def ring (x y w h t : Nat) (fg : Nat × Nat × Nat) : List Draw :=
  if t = 0 then []
  else [{ x := x, y := y, w := w, h := min t h, fg := fg },
    { x := x, y := y + (h - t), w := w, h := min t h, fg := fg },
    { x := x, y := y, w := min t w, h := h, fg := fg },
    { x := x + (w - t), y := y, w := min t w, h := h, fg := fg }]

/-- An alarm of a tile's mask is active (R182). -/
def Dev.tileAlarm (d : Dev) (h t : Nat) : Bool :=
  let m := d.mvf (F.MVH_T_DECO_alarm_mask h t)
  (bitOf m 3 && d.flag (F.MVH_T_STATUS_not_ready h t)) || (bitOf m 2 && d.flag (F.MVH_T_STATUS_frozen h t)) ||
  (bitOf m 1 && d.flag (F.MVH_T_STATUS_black h t)) || (bitOf m 0 && d.flag (F.MVH_T_STATUS_flat h t))

/-- The level of an output channel in half-decibels below full scale (R183, R221). -/
def Dev.meterQ (d : Dev) (ch : Nat) : Nat := min 120 (d.fld (F.AOUT_METER_reading ch) / 8)

/-- The bars of a tile's meters (R183). -/
def Dev.meterDraws (d : Dev) (h t x y w hb : Nat) : List Draw :=
  let n := d.mvf (F.MVH_T_METER_count h t)
  let red := d.mvf (F.MVH_METER_red h)
  let yellow := d.mvf (F.MVH_METER_yellow h)
  (List.range n).flatMap fun i =>
    let bx := if d.mvf (F.MVH_T_METER_side h t) = 0 then x + 8 * i else x + w - (8 * (n - 1 - i) + 6)
    let lit := hb * (120 - d.meterQ (d.mvf (F.MVH_T_METER_base h t) + i)) / 120
    let redAt := hb * (120 - red) / 120
    let yellowAt := hb * (120 - yellow) / 120
    (List.range hb).map fun r =>
      { x := bx, y := y + (hb - 1 - r), w := 6, h := 1
        fg := d.palette h (if lit ≤ r then 0 else if redAt ≤ r then 2 else if yellowAt ≤ r then 7 else 3) }

/-- The decorations of a tile, in drawing order: meters, border, under-monitor box and text (R177, R180, R182, R183). -/
def Dev.tileDraws (d : Dev) (h t : Nat) : List Draw :=
  let (x, w, y, hh) := (d.mvf (F.MVH_T_RECT_X_x h t), d.mvf (F.MVH_T_RECT_X_w h t), d.mvf (F.MVH_T_RECT_Y_y h t),
    d.mvf (F.MVH_T_RECT_Y_h h t))
  let bw := 2 * d.mvf (F.MVH_T_DECO_border_w h t)
  let (ix, iw, iy, ih) := (x + bw, w - 2 * bw, y + bw, hh - 2 * bw)
  let font := d.mvf (F.MVH_T_DECO_umd_font h t)
  let pos := d.mvf (F.MVH_T_DECO_umd_pos h t)
  let hf := d.fld (F.FONT_HDR_height font)
  let boxH := if pos = 1 ∨ pos = 2 then min ih (hf + 4) else 0
  let boxY := if pos = 2 then iy else iy + (ih - boxH)
  let alarm := d.tileAlarm h t
  let tally := d.mvf (F.MVH_T_DECO_tally h t)
  let border := match tally with
    | 0 => ring x y w hh bw (d.palette h (if alarm then 4 else 5))
    | 1 => ring x y w hh bw (d.palette h 2)
    | 2 => ring x y w hh bw (d.palette h 3)
    | _ =>
      let o := (bw + 1) / 2
      ring x y w hh o (d.palette h 2) ++ ring (x + o) (y + o) (w - 2 * o) (hh - 2 * o) (bw - o) (d.palette h 3)
  let bg := if tally ≠ 0 ∧ alarm then d.palette h 4 else d.palette h (d.mvf (F.MVH_T_DECO_umd_bg h t))
  let box := if boxH = 0 ∨ d.mvb (F.MVH_T_DECO_umd_bg_clear h t) then []
    else [{ x := ix, y := boxY, w := iw, h := boxH, fg := bg }]
  let text := if boxH = 0 ∨ hf = 0 then []
    else
      let (l, run) := fitRun (iw - 4) 0 ((utf8 32 (d.tileText h t)).map (d.glyphFor font))
      let left := ix + (iw - run) / 2
      d.runDraws font (left - left % 2) (boxY + 2) (d.palette h (d.mvf (F.MVH_T_DECO_umd_fg h t))) l
  d.meterDraws h t ix (if pos = 2 then iy + boxH else iy) iw (ih - boxH) ++ border ++ box ++ text

/-- Two decimal digits as code points. -/
def twoDigits (n : Nat) : List (Option Nat) := [some (0x30 + n / 10 % 10), some (0x30 + n % 10)]

/-- The clocks of a head at a boundary (R184). -/
def Dev.clockDraws (d : Dev) (h : Nat) (b : Int) : List Draw :=
  let f := (d.mvhTiming h).1.format
  (List.range 4).flatMap fun c =>
    if !d.mvb (F.MVH_CLK_CTRL_enable h c) then []
    else
      let s := d.mvf (F.MVH_CLK_CTRL_scale h c)
      let t : Int := (d.scale s : Int) - (d.x.time.ht - b)
      let utc : Int := if d.flag F.TIME_UTC_utc_valid then d.sfld F.TIME_UTC_utc_offset else 0
      let off : Int := signedOf 16 (d.mvf (F.MVH_CLK_OFFSET h c))
      let sec := ((t / secU - utc + off * 60) % 86400).toNat
      let ff := (t % secU / fmtPeriod f).toNat
      let font := d.mvf (F.MVH_CLK_CTRL_font h c)
      let cps := twoDigits (sec / 3600) ++ [some 0x3A] ++ twoDigits (sec / 60 % 60) ++ [some 0x3A] ++ twoDigits (sec % 60) ++
        (if d.mvf (F.MVH_CLK_CTRL_kind h c) = 1 then some 0x3A :: twoDigits ff else [])
      let (l, run) := fitRun 65536 0 (cps.map (d.glyphFor font))
      let (x, y) := (d.mvf (F.MVH_CLK_POS_x h c), d.mvf (F.MVH_CLK_POS_y h c))
      let hf := d.fld (F.FONT_HDR_height font)
      if hf = 0 then []
      else { x := x, y := y, w := run, h := hf, fg := d.palette h 0 } :: d.runDraws font x y (d.palette h 1) l

/-! ### Composition of a line (R174, R177, R179) -/

/-- A component under a drawn element (R179). -/
def drawOver (a fg below : Nat) : Nat := (a * fg + (255 - a) * below + 127) / 255

/-- The coverage of an element at a pixel. -/
def Draw.at_ (e : Draw) (x y : Nat) : Nat :=
  if e.x ≤ x ∧ x < e.x + e.w ∧ e.y ≤ y ∧ y < e.y + e.h then
    (if e.cov.isEmpty then 255 else e.cov.getD ((y - e.y) * e.w + (x - e.x)) 0)
  else 0

/-- A line of 4:2:2 pel words with an element drawn over it. -/
def Draw.line (e : Draw) (y : Nat) (ws : List Nat) : List Nat :=
  if y < e.y ∨ e.y + e.h ≤ y then ws
  else ws.zipIdx.map fun (w, x) =>
    let c := if x % 2 = 0 then e.fg.2.1 else e.fg.2.2
    pelOf (drawOver (e.at_ (x - x % 2) y) c (w / 4096)) (drawOver (e.at_ x y) e.fg.1 (w % 4096))

/-- A proxy frame as a picture in 4:2:2, and how many of its tiles could not be read. -/
def Dev.proxyPic (d : Dev) (st : Store) (slot f : Nat) : Pic × Nat :=
  let cols := ceilDiv (proxyWidth f) 64
  let base := st.proxyAddr d.grain slot
  let tile := fun i => if d.poisoned (base + 3072 * i) 3072 then blackTile 0
    else bytesPels (Memory.getBytes d.mem (base + 3072 * i) 3072)
  let ls := (List.range (proxyLines f)).map fun n =>
    let ws := ((List.range cols).flatMap fun c => ((tile (n / 16 * cols + c)).drop (n % 16 * 64)).take 64).take (proxyWidth f)
    linePixels 0 (proxyWidth f) ws
  (Pic.ofLines true (proxyWidth f) ls,
    ((List.range (cols * ceilDiv (proxyLines f) 16)).filter fun i => d.poisoned (base + 3072 * i) 3072).length)

/-- A tile's source picture in 4:2:2, and the tiles substituted in it (R174, R192). -/
def Dev.tilePic (d : Dev) (j : TileJob) : Option (Pic × Nat) :=
  let st := d.store j.code
  match j.shown with
  | none => none
  | some sq =>
    if j.proxy then
      (st.proxies.find? fun e => e.2.seq == sq && e.1 == j.slot).map fun e => d.proxyPic st e.1 e.2.format
    else
      match d.frameOf st sq with
      | none => none
      | some f =>
        let (p, n) := d.readPic st f
        some (Pic.ofLines true p.w ((List.range p.h).map fun y => convertSampling f.rcd.sampling 0 (p.line y)), n)

/-- A picture scaled to a tile (R174). -/
def tileScale (p : Pic) (w h : Nat) : Pic :=
  let bank := fun (chroma : Bool) (i o : Nat) => if i = o then (fun _ k => if k = 1 then (1024 : Int) else 0)
    else fun ph k => signedOf 12 (Config.autoCoef 4 i o chroma ph k)
  p.scale .progressive 4 4
    { hl := bank false p.w w, hc := bank true p.w w, vl := bank false p.h h, vc := bank true p.h h } w h

/-- The word of a head's background at a position. -/
def Dev.bgWord (d : Dev) (h x : Nat) : Nat :=
  pelOf (if x % 2 = 0 then d.mvf (F.MVH_BG_C_cb h) else d.mvf (F.MVH_BG_C_cr h)) (d.mvf (F.MVH_BG_Y h))

/-- A component clamped to 0x010 to 0xFE7 (R177). -/
def headClamp (w : Nat) : Nat := pelOf (clampN 0x010 0xFE7 (w / 4096)) (clampN 0x010 0xFE7 (w % 4096))

/-- The lines `rows` of a head's frame (R177): background, tiles with their decorations, clocks, clamp. -/
def Dev.composeLines (d : Dev) (h : Nat) (j : MvhJob) (rows : List Nat) : List (List Nat) :=
  let w := fmtWidth (d.mvhTiming h).1.format
  let pics := j.tiles.map fun t => (t, (d.tilePic t).map fun p =>
    tileScale p.1 (d.mvf (F.MVH_T_RECT_X_w h t.t)) (d.mvf (F.MVH_T_RECT_Y_h h t.t)))
  rows.map fun y =>
    let bg := (List.range w).map (d.bgWord h)
    let withTiles := pics.foldl (fun ws (t, p) =>
      let (x0, tw, y0, th) := (d.mvf (F.MVH_T_RECT_X_x h t.t), d.mvf (F.MVH_T_RECT_X_w h t.t),
        d.mvf (F.MVH_T_RECT_Y_y h t.t), d.mvf (F.MVH_T_RECT_Y_h h t.t))
      let inside := decide (y0 ≤ y) && decide (y < y0 + th)
      let late := match t.late with | some r => decide (16 * r ≤ y) | none => false
      let line := match p with
        | some p => if late then none else some (pixelWords 0 (p.line (y - y0)))
        | none => none
      let ws := if !inside then ws
        else ws.zipIdx.map fun (b, x) =>
          if x0 ≤ x ∧ x < x0 + tw then (match line with | some l => l.getD (x - x0) b | none => d.bgWord h x) else b
      t.draws.foldl (fun ws e => e.line y ws) ws) bg
    (j.clocks.foldl (fun ws e => e.line y ws) withTiles).map headClamp

/-! ### Guarded regions (R122 step 4, R188) -/

/-- A 12-bit component at a depth, left-justified: rounded with halves up (R122 step 4). -/
def depthConv (depth v : Nat) : Nat :=
  match depth with
  | 0 => min 255 ((v + 8) / 16) * 16
  | 1 => min 1023 ((v + 2) / 4) * 4
  | _ => v

/-- A pel word at a depth. -/
def depthWord (depth w : Nat) : Nat := pelOf (depthConv depth (w / 4096)) (depthConv depth (w % 4096))

/-- The scruple of a region of a frame's lines (R188). -/
def scruple (ls : List (List Nat)) (x w y h : Nat) : Nat :=
  crc32c (pelBytes (((ls.drop y).take h).flatMap fun l => (l.drop x).take w))

/-- The region of a head. -/
def Dev.region (d : Dev) (h r : Nat) : Nat × Nat × Nat × Nat :=
  (d.mvf (F.MVH_GR_X_x h r), d.mvf (F.MVH_GR_X_w h r), d.mvf (F.MVH_GR_Y_y h r), d.mvf (F.MVH_GR_Y_h h r))

/-- The regions in use. -/
def Dev.regions (d : Dev) (h : Nat) : List Nat := (List.range 16).filter fun r => d.mvf (F.MVH_GR_CTRL_mode h r) ≠ 0

/-- The scruples predicted for a composed frame (R188), and the comparison of EXPECT regions (R189). -/
def mvhPredict (h sq : Nat) (ls : List (List Nat)) : Prog :=
  .read fun d =>
    let at_ := fun depth r => let (x, w, y, hh) := d.region h r
      scruple (ls.map fun l => l.map (depthWord depth)) x w y hh
    let ps := (d.regions h).map fun r => (r, at_ 2 r, at_ 1 r, at_ 0 r)
    seq [
      mvhUpd h fun m => { m with preds := ((sq, ps) :: m.preds).take (d.mvf (F.MVH_OUT_depth h)) },
      each ps fun (r, p, _, _) => seq [
        wr (R.MVH_GR_PRED h r) p,
        doIf (d.mvf (F.MVH_GR_CTRL_mode h r) == 2 && p ≠ d.mvf (F.MVH_GR_EXPECT h r)) (seq [
          setF (F.MVH_GR_STATUS_result h r) 4, raise (F.MVH_ALARM_expect_mismatch h)])]]

/-! ### The boundary (R171, R173, R176, R185 to R187) -/

/-- What a tile shows at a boundary: the sequence, the slot, whether it is what was chosen (R173, R185). -/
def Dev.tileChoice (d : Dev) (code : Nat) (proxy : Bool) (b : Int) : Option (Nat × Nat) × Bool :=
  let st := d.store code
  let newestProxy := st.proxies.head?.map fun e => (e.2.seq, e.1)
  if proxy then
    match d.choose st b true with
    | some f =>
      (match st.proxies.find? fun e => e.2.seq == f.rcd.seq with
        | some e => (some (e.2.seq, e.1), true)
        | none => (newestProxy, false))
    | none => (newestProxy, false)
  else
    let (f, ready) := d.shown st b
    (f.map fun f => (f.rcd.seq, f.rcd.slot), ready)

/-- The tiles in service (R176): in ascending order, those whose ratio is legal and whose load still fits. -/
def Dev.tilesFit (d : Dev) (h : Nat) : List Nat × Bool :=
  let f := (d.mvhTiming h).1.format
  let area := fun t =>
    let (w, hh) := (d.mvf (F.MVH_T_RECT_X_w h t), d.mvf (F.MVH_T_RECT_Y_h h t))
    match d.tileInput (d.mvf (F.MVH_T_SRC_mode h t) == 0) (d.mvf (F.MVH_T_SRC_source h t)) with
    | some i => if tileRatioOk i w hh then some (tileArea2 i w hh) else none
    | none => some (2 * w * hh)
  let on := (List.range 64).filter fun t => d.mvb (F.MVH_T_SRC_enable h t)
  let ok := on.filter fun t => (area t).isSome
  let sum := fun l => (l.map fun t => (area t).getD 0).sum
  let fit := (List.range (ok.length + 1)).reverse.find? fun n => !tileOver (sum (ok.take n)) (fmtRate f)
  (ok.take (fit.getD 0), decide (fit ≠ some ok.length))

/-- One tile at a boundary: its choice, its holds, its status and its runs (R173, R185, R190). -/
def tileBoundary (h t : Nat) (b : Int) (inService : Bool) : Prog :=
  .read fun d =>
    let code := d.mvf (F.MVH_T_SRC_source h t)
    let proxy := d.mvf (F.MVH_T_SRC_mode h t) == 0
    let blank := codeClass code == .black || codeClass code == .park
    let (pick, ready) := if blank || !inService then (none, blank) else d.tileChoice code proxy b
    let st := d.store code
    let r : Option FrameRec := match pick with
      | some (sq, _) =>
        if proxy then (st.proxies.find? fun e => e.2.seq == sq).map (·.2) else (d.frameOf st sq).map (·.rcd)
      | none => none
    let m := d.mvhm h
    let black := match r with | some r => decide (r.maxLuma ≤ d.mvf (F.MVH_MON_black_thresh h)) | none => false
    let flat := match r with | some r => decide (r.maxLuma - r.minLuma ≤ d.mvf (F.MVH_MON_flat_range h)) | none => false
    let nb := if black then KV.get 0 m.blackRun t + 1 else 0
    let isBlack := decide (d.mvf (F.MVH_MON_black_frames h) ≤ nb)
    let nf := if flat && !isBlack then KV.get 0 m.flatRun t + 1 else 0
    seq [
      hold code (.tile h t) none, holdProxy code (.tile h t) none,
      match pick with
      | some (_, s) => if proxy then holdProxy code (.tile h t) (some s) else hold code (.tile h t) (some s)
      | none => .nop,
      doIf (!ready) (seq [inc (R.MVH_CNT_TILE_NOT_READY h), raise (F.MVH_ALARM_tile_not_ready h)]),
      setB (F.MVH_T_STATUS_not_ready h t) (!ready), setF (F.MVH_T_STATUS_late h t) 0,
      match pick with | some (sq, _) => wr (R.MVH_T_SHOWN_SEQ h t) sq | none => .nop,
      mvhUpd h fun m => { m with blackRun := KV.set 0 m.blackRun t nb, flatRun := KV.set 0 m.flatRun t nf },
      setB (F.MVH_T_STATUS_black h t) isBlack,
      setB (F.MVH_T_STATUS_flat h t) (decide (d.mvf (F.MVH_MON_black_frames h) ≤ nf)),
      setB (F.MVH_T_STATUS_frozen h t) (decide (code < 0x400) && d.flag (F.SRC_ALARM_frozen code)),
      mvhUpd h fun m => { m with job := m.job.map fun j => { j with tiles := j.tiles ++ [
        { t := t, code := code, shown := pick.map (·.1), proxy := proxy, slot := (pick.map (·.2)).getD 0 }] } }]

/-- A frame in composition is abandoned (R186). -/
def mvhAbandon (h : Nat) : Prog :=
  .read fun d =>
    match (d.mvhm h).job with
    | some j => seq [
        storeUpd (headCode h) fun st => st.updFrame (j.frame % 2 ^ 32) fun f =>
          if f.phase = .complete then f else { f with phase := .abandoned },
        mvhUpd h fun m => { m with job := none }]
    | none => .nop

/-- The slots a head's tiles hold are released (R173). -/
def mvhRelease (h : Nat) : Prog :=
  ext fun x => { x with stores := x.stores.map fun e =>
    let keep := fun (l : Holder × Nat) => match l.1 with | .tile g _ => g ≠ h | _ => true
    (e.1, { e.2 with holds := e.2.holds.filter keep, pholds := e.2.pholds.filter keep }) }

/-- A head leaves ON: what it was composing is dropped, and its readers keep what is there (R193). -/
def mvhStopped (h : Nat) : Prog :=
  seq [mvhAbandon h, mvhRelease h, setF (F.MVH_STATUS_producing h) 0, setF (F.MVH_STATUS_direct_active h) 0,
    storeUpd (headCode h) fun st => { st with producing := false }]

/-- A head that runs goes on with its own copy of its OTG (R193). -/
def mvhFlyStart (h : Nat) : Prog :=
  .read fun d => doIf (d.on (mvhFn h) && (d.mvhm h).fly.isNone) (mvhUpd h fun m => { m with fly := some (d.mvhTiming h) })

/-- A head's configuration comes into force (R171): its commands are DONE at this boundary. -/
def mvhLand (h frame : Nat) : Prog :=
  .read fun d =>
    let ids := (d.mvhm h).pend
    doIf (!ids.isEmpty) (seq [
      mvhUpd h fun m => { m with cfg := d.mvhWords h, pend := [], configured := true },
      doIf (d.flag (F.MVH_CTRL_enable h) && (d.fst (mvhFn h) == .off || d.fst (mvhFn h) == .stopping)) (fnEnable (mvhFn h)),
      doIf (!d.flag (F.MVH_CTRL_enable h)) (fnDisable (mvhFn h)),
      doIf (d.flag (F.MVH_CTRL_enable h)) (mvhAlloc h),
      doIf (d.on (mvhFn h) && !mvhFormatOk (d.mvhFormat h)) (fnFault (mvhFn h) 0x01),
      doWhen (fun e => d.on (mvhFn h) && !e.on (mvhFn h)) (mvhStopped h),
      .read fun d' => seq [
        setF (F.MVH_TILES_count h) (d'.mvhTiles h).length,
        wr (R.MVH_LOAD h) (let (n, m) := rateFrac (fmtRate (d'.mvhFormat h))
          min 0xFFFF ((d'.mvhArea2 h * n + 100000 * m) / (200000 * m)))],
      refSync, planUpdate,
      each ids fun id => finish id 0 [frame % 2 ^ 32, frame / 2 ^ 32]])

/-- A frame that a head's tiles show differs from the twin's (R407). -/
def Dev.tilesDiff (d : Dev) (h : Nat) : Bool :=
  match (d.mvhm h).job with
  | some j => j.tiles.any fun t => match t.shown with
    | some sq => (d.store t.code).frames.any fun f => f.rcd.seq == sq && f.diff
    | none => false
  | none => false

/-- A head boundary (R171 to R173, R176, R185 to R187). -/
def mvhBoundary (h : Nat) : Prog :=
  seq [
    .read fun d =>
      let otg := d.fld (F.MVH_CTRL_otg h)
      let onOtg := decide (otg < 32) && d.on (.otg (Fin.ofNat 32 otg))
      mvhUpd h fun m => { m with fly := if onOtg then none else m.fly.map flyNext },
    .read fun d => mvhLand h (d.mvhTiming h).2,
    doWhen (fun d => (d.mvhm h).job.isSome) (seq [
      inc (R.MVH_CNT_LATE h), raise (F.MVH_ALARM_late h), mvhAbandon h]),
    mvhRelease h,
    .read fun d =>
      let (o, k) := d.mvhTiming h
      let b := d.toHt o.src o.start
      let st := d.store (headCode h)
      doIf (d.on (mvhFn h)) (
        if 1 ≤ d.shedStage then seq [setF (F.MVH_STATUS_shed_repeat h) 1, setF (F.MVH_STATUS_producing h) 0]
        else match (if st.alloc then d.chooseSlot st (k % 2 ^ 32) else none) with
          | none => setF (F.MVH_STATUS_shed_repeat h) 0
          | some slot =>
            let (fit, tooMuch) := d.tilesFit h
            let tiles := (List.range 64).filter fun t => d.mvb (F.MVH_T_SRC_enable h t)
            let missing := tiles.any fun t => d.mvf (F.MVH_T_DECO_umd_pos h t) ≠ 0 &&
              d.fld (F.FONT_HDR_height (d.mvf (F.MVH_T_DECO_umd_font h t))) == 0
            let lost := match d.fontBase with
              | some a => (d.x.poison.filter fun q => decide (a ≤ 64 * q) && decide (64 * q < a + 16 * 2 ^ 20)).length
              | none => 0
            seq [
              setF (F.MVH_STATUS_shed_repeat h) 0, setB (F.MVH_STATUS_over_budget h) tooMuch,
              statusAlarm (F.MVH_STATUS_font_missing h) (F.MVH_ALARM_font_missing h) missing,
              doIf (decide (0 < lost)) (addCnt (R.MVH_CNT_UE h) lost),
              mvhUpd h fun m => { m with job := some { frame := k, b := b, slot := slot, tiles := [], clocks := [] } },
              each tiles fun t => tileBoundary h t b (fit.contains t),
              .read fun d' => mvhUpd h fun m => { m with job := m.job.map fun j => { j with
                tiles := j.tiles.map fun e => { e with draws := d'.tileDraws h e.t }, clocks := d'.clockDraws h b } },
              .read fun d' => storeUpd (headCode h) fun st => { st.push {
                diff := d'.tilesDiff h
                rcd := { source := headCode h, format := o.format, slot := slot, sampling := 0, seq := k % 2 ^ 32, t := b
                         locked := true, lockScale := o.src, compact := st.compact
                         colorimetry := d.mvf (F.MVH_OUT_colorimetry h), depth := 2 }
                due := b + fmtPeriod o.format + st.guard * 1000 * nsU } with producing := true }])]

/-- An output row of a head is composed and written; with the last one the frame is complete (R169, R171, R185). -/
def mvhRow (h row : Nat) (late : List Nat) : Prog :=
  .read fun d0 =>
    match (d0.mvhm h).job with
    | none => .nop
    | some j0 =>
      let newly := j0.tiles.filter fun e => late.contains e.t && e.late.isNone && e.shown.isSome
      let f := (d0.mvhTiming h).1.format
      doIf (d0.on (mvhFn h) && decide (row < tileRows f) && !j0.rows.contains row) (seq [
        each newly fun e => seq [
          inc (R.MVH_CNT_TILE_LATE h), raise (F.MVH_ALARM_tile_late h), setF (F.MVH_T_STATUS_late h e.t) 1],
        mvhUpd h fun m => { m with job := m.job.map fun j => { j with
          rows := j.rows ++ [row]
          tiles := j.tiles.map fun e => if newly.contains e then { e with late := some row } else e } },
        .read fun d =>
          match (d.mvhm h).job with
          | none => .nop
          | some j =>
            let st := d.store (headCode h)
            let ls := d.composeLines h j ((List.range 16).map (16 * row + ·))
            let word := fun line x => (ls.getD (line - 16 * row) []).getD x (blackWord 0 x)
            let sq := j.frame % 2 ^ 32
            let all := d.composeLines h j (List.range (fmtLines f))
            let ue := (j.tiles.map fun t => match d.tilePic t with | some p => p.2 | none => 0).sum
            seq [
              if j.rows.length < tileRows f then seq [
                (tileRowProg st d.grain j.slot f 0 st.compact row word fun _ => none).1,
                storeUpd (headCode h) fun st => st.updFrame sq fun e => { e with rows := e.rows ++ [row] }]
              else match st.frames.find? fun e => e.rcd.seq == sq && e.phase == .writing with
                | none => .nop
                | some fr => seq [
                  frameWrite (headCode h) fr (fun line x => (all.getD line []).getD x (blackWord 0 x)),
                  mvhPredict h sq all,
                  wr (R.MVH_SEQ h) sq, inc (R.MVH_CNT_FRAMES h), setF (F.MVH_STATUS_producing h) 1,
                  doIf (decide (0 < ue)) (seq [addCnt (R.MVH_CNT_UE h) ue, raise (F.MVH_ALARM_ue_substitute h)]),
                  each j.tiles fun t => match d.tilePic t with | some p => countSrcUe t.code p.2 | none => .nop,
                  mvhUpd h fun m => { m with job := none }, mvhRelease h]]])

/-! ### Meanings -/

/-- MV_SET (R194, R195). -/
def execMvSet (h : Hdr) (b : MvSetBody) (s : State) : Host.Outcome State Fault Refusal :=
  perform .core (rygus h (.mvSet b) (mvSetSpec b)) s

/-- MV_LAYOUT (R194, R195). -/
def execMvLayout (h : Hdr) (b : MvLayoutBody) (s : State) : Host.Outcome State Fault Refusal :=
  perform .core (rygus h (.mvLayout b) (mvLayoutSpec b)) s

/-- MV_TEXT (R194). -/
def execMvText (h : Hdr) (b : MvTextBody) (s : State) : Host.Outcome State Fault Refusal :=
  perform .core (rygus h (.mvText b) (mvTextSpec b)) s

/-- MV_TALLY (R182, R194). -/
def execMvTally (h : Hdr) (b : MvTallyBody) (s : State) : Host.Outcome State Fault Refusal :=
  perform .core (rygus h (.mvTally b) (mvTallySpec b)) s

/-- MV_GUARD (R188, R194). -/
def execMvGuard (h : Hdr) (b : MvGuardBody) (s : State) : Host.Outcome State Fault Refusal :=
  perform .core (rygus h (.mvGuard b) (mvGuardSpec b)) s

/-- MV_FONT_SET (R181, R194). -/
def execMvFontSet (h : Hdr) (b : FontSetBody) (s : State) : Host.Outcome State Fault Refusal :=
  perform .core (rygus h (.fontSet b) (fontSetSpec b)) s

/-- MV_FONT_LOAD (R181, R194). -/
def execMvFontLoad (h : Hdr) (b : FontLoadBody) (s : State) : Host.Outcome State Fault Refusal :=
  perform .core (rygus h (.fontLoad b) (fontLoadSpec b)) s

/-- MV_QUERY (R194). -/
def execMvQuery (h : Hdr) (head : Nat) (s : State) : Host.Outcome State Fault Refusal :=
  perform .core (rygus h (.mvQuery head) (mvQuerySpec head)) s

/-- MV_HEAD_BOUNDARY (R171, R173). -/
def execMvHeadBoundary (n : HeadId) (s : State) : Host.Outcome State Fault Refusal :=
  perform .core (mvhBoundary n) s

/-- MV_HEAD_ROW_COMPOSED (R169, R171, R185). -/
def execMvHeadRowComposed (n : HeadId) (row : Nat) (late : List Nat) (s : State) :
    Host.Outcome State Fault Refusal :=
  perform .core (mvhRow n row late) s

/-- What a write of 1 to MVH_CNT_CLEAR clears (R196). -/
def mvhCntClear (n : HeadId) : Prog :=
  clearRegs ([R.MVH_CNT_FRAMES n, R.MVH_CNT_LATE n, R.MVH_CNT_TILE_LATE n, R.MVH_CNT_TILE_NOT_READY n,
  R.MVH_CNT_UE n, R.MVH_CNT_SCRUPLE_MISMATCH n] ++ (List.range 16).map fun r => R.MVH_GR_CNT n r)

/-- MVH_CNT_CLEAR (R196). -/
def execMvhCntClear (n : HeadId) (s : State) : Host.Outcome State Fault Refusal := perform .core (mvhCntClear n) s

end Sys2Proof.Machine
end

