-- ==== Sys2Proof/Machine/Scanout.lean ====
section
/-!
DEFINITION. Scan-out engines: frame boundaries, line-mode fallback (R21), switch points and switch lines (R107 to R113),
fetching (R128), the construction of lines (R122 to R126), opaque destinations (R132, R134), and the destination
monitors with the scruples they check (R189 to R191).
-/

namespace Sys2Proof.Machine

/-- A destination as a function. -/
def dstFn (n : Nat) : Fn := .dst (Fin.ofNat 1024 n)

/-- A destination builds frames: it is ON. -/
def Dev.dstRuns (d : Dev) (n : Nat) : Bool := d.on (dstFn n)

/-- The store code and sampling-independent geometry of a destination's raster. -/
def Dev.dstGeometry (d : Dev) (n : Nat) : Nat × Nat × Bool := geometry (d.dstTiming n).1.format

/-! ### The choice of a layer's frame (R15, R88, R93, R109, R127, R170) -/

/-- A destination is driven directly by a head: the head and the frame it is composing (R170, R187). -/
def Dev.directHead (d : Dev) (n code : Nat) : Option (Nat × MvhJob) :=
  if codeClass code ≠ .head then none
  else
    let h := code - 0x710
    match (d.mvhm h).job with
    | some j =>
      if d.mvb (F.MVH_CTRL_direct_en h) && d.mvf (F.MVH_CTRL_out_dest h) == n && d.on (mvhFn h) &&
          d.fld (F.DST_CTRL_otg n) == d.mvf (F.MVH_CTRL_otg h) && d.fld (F.DST_CTRL_out_sampling n) == 0 &&
          j.frame == (d.dstTiming n).2 then some (h, j) else none
    | none => none

/-- A layer may show a surface: it is not DEFERRED, or the layer holds a reference to it (R131). -/
def Dev.surfShown (d : Dev) (n layer code : Nat) : Bool :=
  codeClass code ≠ .surface || d.fld (F.SURF_STATE_state (code - 0x600)) ≠ 4 ||
    d.x.surfRefs.contains (code - 0x600, .layer n layer)

/-- What a layer shows of a code at a boundary B, without a processor. -/
def Dev.layerChoice (d : Dev) (n layer code : Nat) (line : Bool) (b : Int) : LayerSel :=
  match codeClass code with
  | .black | .park | .pattern | .unassigned => { code := code }
  | _ =>
    let st := d.store code
    let of_ := fun (f : Frame) (ready live : Bool) =>
      ({ code := code, slot := some f.rcd.slot, seq := f.rcd.seq, ready := ready, live := live } : LayerSel)
    if !d.surfShown n layer code then { code := code, ready := false }
    else match (if layer = 0 then d.directHead n code else none) with
      | some (_, j) => { code := code, slot := some j.slot, seq := j.frame % 2 ^ 32, live := true }
      | none =>
        if line && decide (code < 0x400) then
          match st.chooseLine b with
          | some f => of_ f st.producing true
          | none => (match d.newest st with | some f => of_ f false false | none => { code := code, ready := false })
        else match d.shown st b with
          | (some f, ready) => of_ f (ready && st.producing) false
          | (none, _) => { code := code, ready := false }

/-- What a layer has selected. -/
def Dev.layerSel (d : Dev) (n layer : Nat) : LayerSel := KV.get {} (d.dstm n).sel layer

/-- The frame a selection names. -/
def Dev.selFrame (d : Dev) (s : LayerSel) : Option Frame :=
  ((d.store s.code).frames.filter fun f => f.rcd.seq == s.seq && s.slot == some f.rcd.slot && f.phase ≠ .abandoned).getLast?

/-- The slot a selection holds: a frame-mode reader's (R78). -/
def LayerSel.held (s : LayerSel) : Option Nat := if s.live then none else s.slot

/-- The base layer's geometry and colour model after the path processor (R123, R143, R147). -/
def Dev.baseShape (d : Dev) (n : Nat) (f : Frame) : (Nat × Nat × Bool) × Bool :=
  match d.pathProc n with
  | none => (geometry f.rcd.format, isRgb f.rcd.sampling)
  | some (_, c) =>
    let o := d.procOut c
    let ((_, w, _, h), _) := c.window f.rcd.format
    let fielded := fmtFielded f.rcd.format && !(c.deint && fmtScan f.rcd.format == 1)
    (if c.scale then geometry o.format else (w, h, fielded),
      if c.inMatrix || c.outMatrix then isRgb o.sampling else isRgb f.rcd.sampling)

/-- A base frame conflicts with its destination (R123). -/
def Dev.conflict (d : Dev) (n : Nat) (s : LayerSel) : Bool :=
  match d.selFrame s with
  | some f => d.baseShape n f ≠ (d.dstGeometry n, isRgb (d.fld (F.DST_CTRL_out_sampling n)))
  | none => false

/-- The layers of the not_ready and underrun fields (R139). -/
def notReadyField (n layer : Nat) : Field := ⟨R.DST_STATUS n, layer, 1⟩
def notReadyAlarm (n layer : Nat) : Field := ⟨R.DST_ALARM n, layer, 1⟩
def underrunAlarm (n layer : Nat) : Field := ⟨R.DST_ALARM n, 3 + layer, 1⟩

/-- A layer takes a selection into use: its hold, its ready state, its counters (R78, R127). -/
def useLayer (n layer : Nat) (s : LayerSel) : Prog :=
  .read fun d => seq [
    dstUpd n fun m => { m with sel := KV.set {} m.sel layer s },
    doIf s.slot.isSome (hold s.code (.dst n layer) s.held),
    setB (notReadyField n layer) (!s.ready),
    doIf (!s.ready) (seq [raise (notReadyAlarm n layer), inc (R.DST_CNT_NOT_READY n)]),
    doIf (layer == 0) (seq [
      statusAlarm (F.DST_STATUS_format_conflict n) (F.DST_ALARM_format_conflict n) (d.conflict n s),
      setB (F.DST_STATUS_parked n) (s.code == 0xFFF),
      doIf s.slot.isSome (wr (R.DST_SHOWN_SEQ n) s.seq)])]

/-- Releases every slot a layer of a destination holds, but of one code. -/
def releaseLayer (n layer keep : Nat) : Prog :=
  ext fun x => { x with stores := x.stores.map fun e =>
    if e.1 = keep then e else (e.1, { e.2 with holds := e.2.holds.filter fun h => h.1 ≠ .dst n layer }) }

/-- The base layer at a boundary: through the path processor where there is one (R122, R127, R143). -/
def baseLayer (n k : Nat) (b : Int) : Prog :=
  .read fun d =>
    let code := d.fld (F.DST_CUR_VIDEO_source n)
    let line := d.flag (F.DST_CUR_VIDEO_line_mode n)
    let s := d.layerChoice n 0 code line b
    match d.pathProc n with
    | none => seq [releaseLayer n 0 code, useLayer n 0 s]
    | some (p, _) => seq [
        procPathStart n k b line,
        .read fun d' =>
          match codeClass code with
          | .black | .park | .pattern | .unassigned => seq [releaseLayer n 0 code, useLayer n 0 s]
          | _ =>
            match (if d'.on (prcFn p) then (d'.prcm p).job else none) with
            | some j => useLayer n 0 { code := code, slot := (d'.frameOf (d'.store code) j.seqA).map (·.rcd.slot)
                                       seq := j.seqA, ready := true, live := line }
            | none => useLayer n 0 { code := code, ready := false }]

/-- An overlay layer at a boundary (R124). -/
def overlayLayer (n i : Nat) (b : Int) : Prog :=
  .read fun d =>
    let code := d.fld (F.DST_CUR_OVL_CTRL_source n i)
    seq [releaseLayer n (1 + i) code, useLayer n (1 + i) (d.layerChoice n (1 + i) code false b)]

/-- The frame of the ancillary route (R121): its packets are sent once. -/
def ancLayer (n : Nat) (b : Int) : Prog :=
  .read fun d =>
    let code := d.fld (F.DST_CUR_BREAK_anc_src n)
    let st := d.store code
    let new := if hogCode code then (d.shown st b).1.map fun f => (code, f.rcd.seq, f.rcd.slot) else none
    seq [
      releaseLayer n 3 code,
      match new with | some (_, _, s) => hold code (.dst n 3) (some s) | none => .nop,
      dstUpd n fun m => { m with anc := new, ancFresh := new.isSome && (m.anc.map fun a => (a.1, a.2.1)) ≠
        (new.map fun a => (a.1, a.2.1)) }]

/-- Repeats and drops of frame synchronisation between two boundaries of one route (R18). -/
def syncCount (n : Nat) (old : LayerSel) : Prog :=
  .read fun d =>
    let s := d.layerSel n 0
    let k := (s.seq + 2 ^ 32 - old.seq) % 2 ^ 32
    doIf (s.slot.isSome && old.slot.isSome && s.code == old.code && s.ready && !s.live && !old.live &&
        !d.flag (F.DST_CUR_VIDEO_line_mode n)) (
      if k = 0 then inc (R.DST_CNT_REPEAT n)
      else doIf (decide (1 < k) && decide (k < 2 ^ 31)) (addCnt (R.DST_CNT_DROP n) (k - 1)))

/-! ### Line-mode fallback (R21) -/

/-- The sequence of the newest complete frame of a code. -/
def Dev.newestSeq (d : Dev) (code : Nat) : Option Nat :=
  (((d.store code).frames.filter fun f => f.phase == .complete).getLast?).map (·.rcd.seq)

/-- The judgement of R21 at a boundary: each record complete since the boundary before is judged; a line-mode destination may fall back, a destination in fallback may return; the
change is due at the switch line of this frame. -/
def lineJudge (n : Nat) : Prog :=
  .read fun d =>
    let code := d.fld (F.DST_CUR_VIDEO_source n)
    let still := codeClass code == .black || codeClass code == .park
    let m := d.dstm n
    if d.flag (F.DST_STATUS_line_mode_fallback n) then
      if still then dstUpd n fun m => { m with modeDue := some true }
      else
        let done := (d.store code).frames.filter fun f => f.phase == .complete
        let new : List Frame := match m.fbSeq with
          | none => done
          | some q => done.filter fun f => decide (0 < (f.rcd.seq + 2 ^ 32 - q) % 2 ^ 32) &&
              decide ((f.rcd.seq + 2 ^ 32 - q) % 2 ^ 32 < 2 ^ 31)
        let count := new.foldl (fun (c : Nat) f => if d.lineMeets n f.rcd then c + 1 else 0) m.fbCount
        dstUpd n fun m => { m with
          fbCount := count
          fbSeq := match done.getLast? with | some f => some f.rcd.seq | none => m.fbSeq
          modeDue := if 50 ≤ count then some true else none }
    else if d.flag (F.DST_CUR_VIDEO_line_mode n) then
      if d.lineOk n code then dstUpd n fun m => { m with modeDue := none }
      else dstUpd n fun m => { m with modeDue := some false, fbSeq := d.newestSeq code }
    else dstUpd n fun m => { m with modeDue := none }

/-- A mode change of R21 takes effect at the switch line. -/
def modeLand (n : Nat) : Prog :=
  .read fun d =>
    match (d.dstm n).modeDue with
    | none => .nop
    | some line => seq [
        setB (F.DST_CUR_VIDEO_line_mode n) line,
        statusAlarm (F.DST_STATUS_line_mode_fallback n) (F.DST_ALARM_line_mode_fallback n) (!line),
        dstUpd n fun m => { m with modeDue := none, fbCount := 0 }, xptSave n]

/-! ### Frame boundaries (R18, R117, R126, R134, R136, R139) -/

/-- A destination's copy of its OTG goes on, or gives way to the OTG (R136). -/
def flyStep (n : Nat) : Prog :=
  .read fun d =>
    match (d.dstm n).fly with
    | none => .nop
    | some f =>
      if d.on (.otg (Fin.ofNat 32 (d.fld (F.DST_CTRL_otg n)))) then
        seq [dstUpd n fun m => { m with fly := none }, setF (F.DST_STATUS_otg_flywheel n) 0]
      else dstUpd n fun m => { m with fly := some (flyNext f) }

/-- A destination begins to run on its own copy of its OTG (R136). -/
def flyStart (n : Nat) : Prog :=
  .read fun d => doIf (d.dstRuns n && (d.dstm n).fly.isNone) (seq [
    dstUpd n fun m => { m with fly := some (d.dstTiming n) },
    statusAlarm (F.DST_STATUS_otg_flywheel n) (F.DST_ALARM_otg_flywheel n) true])

/-- The chains whose FRAME trigger this boundary fires (R117, R120). -/
def chainFrames (n : Nat) : Prog :=
  .read fun d =>
    let (o, k) := d.dstTiming n
    each (d.x.chains.filter fun e => e.2.state == 3 && !(d.x.chainDue.any fun c => c.1 == e.1) &&
        (match e.2.trig with | some (.frame dest count) => dest == n && decide (count ≤ k) | _ => false)) fun e =>
      ext fun x => { x with chainDue := x.chainDue ++ [(e.1, o.start.toNat, o.src)] }

/-- A destination's frame boundary; its OTG gives frame boundaries to the chains that name it whatever its own state
(R119). -/
def dstBoundary (n : Nat) : Prog :=
  seq [doWhen (fun d => d.dstRuns n) (flyStep n), chainFrames n, doWhen (fun d => d.dstRuns n) (seq [
    dstUpd n fun m => { m with lines := [], point2 := none },
    .read fun d => dstUpd n fun m => { m with
      fillY := d.fld (F.DST_FILL_Y n), fillC := d.rd (R.DST_FILL_C n)
      patterns := (List.range 16).map fun p => (d.fld (F.PAT_KIND_kind p), d.fld (F.PAT_Y_y p), d.rd (R.PAT_C p)) },
    .read fun d =>
      let k := (d.dstTiming n).2
      let b := d.boundary n
      if d.flag (F.DST_CTRL_opaque n) then seq [
        doIf ((d.dstm n).opqSent == 0 && d.fld (F.DST_CUR_VIDEO_source n) ≠ 0xFFF) (seq [
          inc (R.DST_CNT_OPQ_GAP n), raise (F.DST_ALARM_opq_gap n)]),
        setB (F.DST_STATUS_parked n) (d.fld (F.DST_CUR_VIDEO_source n) == 0xFFF),
        dstUpd n fun m => { m with opqSent := 0 }]
      else
        let old := d.layerSel n 0
        seq [
          lineJudge n, baseLayer n k b, syncCount n old, overlayLayer n 0 b, overlayLayer n 1 b, ancLayer n b,
          .read fun d' =>
            each ((List.range 32).filter fun h => d'.mvf (F.MVH_CTRL_out_dest h) == n && (d'.mvhm h).configured) fun h =>
              setB (F.MVH_STATUS_direct_active h) ((d'.directHead n (d'.fld (F.DST_CUR_VIDEO_source n))).any fun e => e.1 == h)]])]

/-! ### Switch points (R109, R110) -/

/-- The route a list of changes leads to. -/
def Dev.routeAfter (d : Dev) (n : Nat) (l : List PendTake) : Route := l.foldl (fun r t => t.applyTo r) (d.route n)

/-- At the switch point the engine resolves its pending state and, where it builds frames, chooses and holds the new
route's frame. -/
def switchPoint (n : Nat) (field2 : Bool) : Prog :=
  .read fun d =>
    let opq := d.flag (F.DST_CTRL_opaque n)
    let k := (d.dstTiming n).2 + (if opq then 1 else 0)
    let b := d.boundary n
    let due := (d.dstm n).pend.filter fun t => decide (t.frame ≤ k) && t.field2 == field2
    let r := d.routeAfter n due
    let old := d.route n
    let video := r.video ≠ old.video || r.line ≠ old.line || (d.dstm n).modeDue.isSome
    let line := match (d.dstm n).modeDue with | some l => if r.line = old.line then l else r.line | none => r.line
    let sel := d.layerChoice n 0 r.video line b
    seq [
      dstUpd n fun m => { m with
        point := if field2 then m.point else some k, point2 := if field2 then some k else m.point2
        pend := m.pend.filter fun t => !due.contains t, resolved := m.resolved ++ due },
      doIf (d.dstRuns n && !opq) (seq [
        doIf (video && (d.pathProc n).isNone) (seq [
          dstUpd n fun m => { m with next := KV.set {} m.next 0 sel },
          doIf sel.held.isSome (hold r.video (.dst n 0) sel.held)]),
        each (due.filterMap (·.layer)) fun i =>
          match (due.filter fun t => t.layer == some i).getLast? with
          | none => .nop
          | some t =>
            let s := d.layerChoice n (1 + i) t.source false b
            seq [dstUpd n fun m => { m with next := KV.set {} m.next (1 + i) s },
              doIf (s.held.isSome && t.source ≠ d.fld (F.DST_CUR_OVL_CTRL_source n i))
                (hold t.source (.dst n (1 + i)) s.held)]])]

/-! ### Switch lines (R21, R105, R108, R110, R113) -/

/-- A monitor's run ends (R191). -/
def dmonRestart (n : Nat) : Prog :=
  seq [ext fun x => { x with dmon := KV.upd {} x.dmon n fun m => { m with
      digest := none, run := 0, seqMoved := false, recMoved := false, still := true, seq := none, rec_ := none } },
    setF (F.DMON_STATUS_freeze_cause n) 0, setF (F.DMON_STATUS_frozen_out n) 0]

/-- The changes that the switch point resolved land: their levels are applied in commit order, and each reaches DONE. -/
def landResolved (n k : Nat) : Prog :=
  .read fun d =>
    let l := (d.dstm n).resolved
    let opq := d.flag (F.DST_CTRL_opaque n)
    let old := d.route n
    let mode := l.any fun t => t.mode ≠ 0
    let video := l.any fun t => t.video
    doIf (!l.isEmpty) (seq [
      applyChanges n l,
      set64 (R.DST_LANDED_LO n) (R.DST_LANDED_HI n) k,
      addCnt (R.DST_CNT_TAKES n) l.length,
      doIf mode (seq [setF (F.DST_STATUS_line_mode_fallback n) 0,
        dstUpd n fun m => { m with fbCount := 0, fbSeq := none }]),
      doIf ((l.any fun t => t.layer.isNone) && !mode && d.flag (F.DST_STATUS_line_mode_fallback n))
        (.read fun e => dstUpd n fun m => { m with fbCount := 0, fbSeq := e.newestSeq (e.fld (F.DST_CUR_VIDEO_source n)) }),
      dstUpd n fun m => { m with resolved := [] },
      .read fun d' =>
        let new := d'.route n
        seq [
          doIf (opq && new.video ≠ old.video && KV.get 0 d.x.opqPeriod new.video ≠ KV.get 0 d.x.opqPeriod old.video &&
              KV.get 0 d.x.opqPeriod new.video ≠ 0 && KV.get 0 d.x.opqPeriod old.video ≠ 0)
            (raise (F.DST_ALARM_opq_rate n)),
          doIf video (seq [procRouteLanded n, dmonRestart n])]])

/-- The selections made at the switch point come into use; layers that were not re-selected keep theirs. -/
def useNext (n k : Nat) (route : Bool) : Prog :=
  .read fun d =>
    let m := d.dstm n
    seq [
      if (d.pathProc n).isSome then doIf route (baseLayer n k (d.boundary n))
      else match m.next.find? fun e => e.1 == 0 with
        | some (_, s) => seq [releaseLayer n 0 s.code, useLayer n 0 s]
        | none => .nop,
      each [1, 2] fun l => match m.next.find? fun e => e.1 == l with
        | some (_, s) => seq [releaseLayer n l s.code, useLayer n l s]
        | none => .nop,
      dstUpd n fun m => { m with next := [] }]

/-- A destination's switch line; a change committed while the destination was ON lands there also where it no longer is
(R105, R108). -/
def switchLine (n : Nat) (field2 : Bool) : Prog :=
  .read fun d =>
    let k := (d.dstTiming n).2
    let l := (d.dstm n).resolved
    let opq := d.flag (F.DST_CTRL_opaque n)
    seq [
      doIf (d.dstRuns n && !field2 && !opq) (modeLand n),
      landResolved n k,
      doIf (!field2 && !opq) (procLandPath n k),
      .read fun d' => doIf (d.dstRuns n && !opq) (useNext n k (d'.route n ≠ d.route n || (d'.pathProc n) ≠ (d.pathProc n))),
      .read fun d' =>
        let fc := d.dstRuns n && d'.flag (F.DST_STATUS_format_conflict n)
        doIf (!l.isEmpty) (seq [
          xptSave n, refSync,
          each (superseded l) fun (t, sup) => takeDone n t k sup (if t.video ∧ fc ∧ !sup then 2 ^ 5 else 0)])]

/-! ### Fetching (R78, R94, R128) -/

/-- A layer underruns: it is off for the rest of the frame (R128). -/
def underrun (n layer : Nat) : Prog :=
  seq [dstUpd n fun m => { m with sel := KV.upd {} m.sel layer fun s => { s with off := true } },
    raise (underrunAlarm n layer), inc (R.DST_CNT_UNDERRUN n)]

/-- The engine fetches a tile row of a layer (R128). -/
def fetchRow (n layer row : Nat) : Prog :=
  .read fun d =>
    let s := d.layerSel n layer
    doIf (d.dstRuns n && !s.off && s.slot.isSome) (
      match d.selFrame s with
      | none => underrun n layer
      | some f =>
        let st := d.store s.code
        if s.live && f.phase ≠ .complete && !f.rows.contains row then
          seq [doIf (decide (s.code < 0x400)) (seq [
              inc (R.SRC_CNT_OVERTAKE s.code), raise (F.SRC_ALARM_line_overtake s.code)]),
            underrun n layer]
        else
          let ue := if layer = 0 ∧ (d.pathProc n).isSome then 0 else d.rowErrors st f row
          seq [
            dstUpd n fun m => { m with sel := KV.upd {} m.sel layer fun s => { s with fetched := s.fetched ++ [row] } },
            doIf (decide (0 < ue)) (seq [
              addCnt (R.DST_CNT_UE n) ue, raise (F.DST_ALARM_ue_substitute n), countSrcUe s.code ue]),
            doIf (row + 1 == tileRows f.rcd.format) (hold s.code (.dst n layer) none)])

/-! ### Lines (R122 to R126) -/

/-- The black pixel of a sampling. -/
def blackPixel (sampling : Nat) : Pixel :=
  if isRgb sampling then ⟨0x100, 0x100, 0x100, 0xFFF⟩ else ⟨0x100, 0x800, 0x800, 0xFFF⟩

/-- The pixel of a colour given as luma and a word of two chroma fields. -/
def colourPixel (y c : Nat) : Pixel := ⟨y, c / 4096 % 4096, c % 4096, 0xFFF⟩

/-- A pixel of narrow-range R, G and B in a destination's colour model (R126). -/
def rgbPixel (sampling colorimetry r g b : Nat) : Pixel :=
  let p : Pixel := ⟨g, b, r, 0xFFF⟩
  if isRgb sampling then p else { rgbToYcc colorimetry p with a := 0xFFF }

/-- A pixel of a pattern generator (R126): bars of white, yellow, cyan, green, magenta, red, blue and black. -/
def patternPixel (kind y c sampling colorimetry w x line : Nat) : Pixel :=
  let bars := fun (hi : Nat) =>
    let i := x * 8 / w
    let on := fun (l : List Nat) => if l.contains i then hi else 0x100
    rgbPixel sampling colorimetry (on [0, 1, 4, 5]) (on [0, 1, 2, 3]) (on [0, 2, 4, 6])
  match kind with
  | 1 => bars 0xEB0
  | 2 => bars 0xB44
  | 3 =>
    let v := 0x100 + (2 * 3504 * x + (w - 1)) / (2 * (w - 1))
    if isRgb sampling then ⟨v, v, v, 0xFFF⟩ else ⟨v, 0x800, 0x800, 0xFFF⟩
  | 4 => if (x / 64 + line / 64) % 2 = 0 then blackPixel sampling else colourPixel y c
  | _ => colourPixel y c

/-- The frame line of a stored line (R75). -/
def frameOfStored (f line : Nat) : Nat :=
  if fmtFielded f then (if line < fmtLines f / 2 then 2 * line else 2 * (line - fmtLines f / 2) + 1) else line

/-- The fill colour of a destination (R125). -/
def Dev.fillLine (d : Dev) (n w : Nat) : List Pixel := List.replicate w (colourPixel (d.dstm n).fillY (d.dstm n).fillC)

/-- The base layer of a stored line, in the destination's sampling (R122, R123, R125). -/
def Dev.baseLine (d : Dev) (n line : Nat) : List Pixel :=
  let f := (d.dstTiming n).1.format
  let w := fmtWidth f
  let s := d.fld (F.DST_CTRL_out_sampling n)
  let sel := d.layerSel n 0
  match codeClass sel.code with
  | .black | .park => List.replicate w (blackPixel s)
  | .pattern =>
    let (k, y, c) := (d.dstm n).patterns.getD (sel.code - 0x700) (0, 0x100, 0x800800)
    (List.range w).map fun x => patternPixel k y c s (d.fld (F.DST_CTRL_colorimetry n)) w x (frameOfStored f line)
  | _ =>
    if sel.off || d.flag (F.DST_STATUS_format_conflict n) then d.fillLine n w
    else match d.pathProc n with
      | some (p, c) =>
        (match (d.prcm p).job with
          | some j => linePixels s w ((d.procLines p c j).1.getD (frameOfStored f line) [])
          | none => d.fillLine n w)
      | none =>
        match d.selFrame sel with
        | none => d.fillLine n w
        | some fr =>
          convertSampling fr.rcd.sampling (if decimated s then 0 else 1)
            (linePixels fr.rcd.sampling w (d.readLine (d.store sel.code) fr line).1)

/-- A component of an overlay over the layer below (R124). -/
def overlayBlend (a ovl below : Nat) : Nat := (a * ovl + (1044225 - a) * below + 522112) / 1044225

/-- An overlay blended over a stored line (R124, R125). -/
def Dev.overlayLine (d : Dev) (n i line : Nat) (below : List Pixel) : List Pixel :=
  let f := (d.dstTiming n).1.format
  let s := d.fld (F.DST_CTRL_out_sampling n)
  let sel := d.layerSel n (1 + i)
  let (x0, y0) := (d.fld (F.DST_CUR_OVL_POS_x n i), d.fld (F.DST_CUR_OVL_POS_y n i))
  match codeClass sel.code, d.selFrame sel with
  | .black, _ | .park, _ => below
  | _, none => below
  | _, some fr =>
    let y := frameOfStored f line
    if sel.off || isRgb fr.rcd.sampling ≠ isRgb s || decide (y < y0) || decide (y0 + fmtLines fr.rcd.format ≤ y) then below
    else
      let src := linePixels fr.rcd.sampling (fmtWidth fr.rcd.format)
        (d.readLine (d.store sel.code) fr (frameLine fr.rcd.format (y - y0))).1
      let ps := convertSampling fr.rcd.sampling (if decimated s then 0 else 1) src
      let stored := d.fld (F.DST_CUR_OVL_CTRL_key_mode n i) == 0 && hasAlpha fr.rcd.sampling
      let g := d.fld (F.DST_CUR_OVL_CTRL_global_alpha n i)
      below.zipIdx.map fun (b, x) =>
        if x < x0 then b
        else match ps[x - x0]? with
          | none => b
          | some o =>
            let a := (if stored then o.a else 0xFFF) * g
            { b with y := overlayBlend a o.y b.y, cb := overlayBlend a o.cb b.cb, cr := overlayBlend a o.cr b.cr }

/-- A component at the output depth: rounded with halves up, and clipped on SDI (R122). -/
def outComponent (sdi : Bool) (depth v : Nat) : Nat :=
  let c := depthConv depth v
  if !sdi then c
  else match depth with
    | 0 => clampN 0x010 0xFE0 c
    | 1 => clampN 0x010 0xFEC c
    | _ => c

/-- The pel words of a stored line as they leave step 4 of R122. -/
def Dev.outLine (d : Dev) (n line : Nat) : List Nat :=
  let s := d.fld (F.DST_CTRL_out_sampling n)
  let sdi := d.fld (F.DST_CTRL_transport n) == 2
  let depth := d.fld (F.DST_CTRL_out_depth n)
  let ps := d.overlayLine n 1 line (d.overlayLine n 0 line (d.baseLine n line))
  (pixelWords s ps).map fun w => pelOf (outComponent sdi depth (w / 4096)) (outComponent sdi depth (w % 4096))

/-- The tile row of a layer's own picture that a stored line of the destination needs, where it lies in the picture. -/
def Dev.rowNeeded (d : Dev) (n layer line : Nat) (f : Frame) : Option Nat :=
  if layer = 0 then some (lineRow f.rcd.format line).1
  else
    let y := frameOfStored (d.dstTiming n).1.format line
    let y0 := d.fld (F.DST_CUR_OVL_POS_y n (layer - 1))
    if y < y0 ∨ y0 + fmtLines f.rcd.format ≤ y then none
    else some (lineRow f.rcd.format (frameLine f.rcd.format (y - y0))).1

/-- A layer's data for a line has not arrived (R128). -/
def Dev.missing (d : Dev) (n layer line : Nat) : Bool :=
  let s := d.layerSel n layer
  !s.off && s.slot.isSome && !(layer == 0 && ((d.pathProc n).isSome || d.flag (F.DST_STATUS_format_conflict n))) &&
  match d.selFrame s with
  | some f => (match d.rowNeeded n layer line f with | some r => !s.fetched.contains r | none => false)
  | none => true

/-- The engine builds and emits one output line (R107, R122, R128). -/
def emitOut (n out : Nat) : Prog :=
  doWhen (fun d => d.dstRuns n && !d.flag (F.DST_CTRL_opaque n)) (.read fun d =>
    match activeLine (d.dstTiming n).1.format out with
    | none => .nop
    | some line => seq [
        each [0, 1, 2] fun l => doWhen (fun d => d.missing n l line) (underrun n l),
        .read fun d' => dstUpd n fun m => { m with lines := KV.set [] m.lines line (d'.outLine n line) }])

/-! ### Destination monitors (R189 to R191) -/

/-- The emitted lines of the frame, in stored order. -/
def Dev.emitted (d : Dev) (n : Nat) : List (List Nat) :=
  (List.range (fmtLines (d.dstTiming n).1.format)).map fun l =>
    match KV.get [] (d.dstm n).lines l with
    | [] => d.outLine n l
    | ws => ws

/-- The scruples of a head's regions at its checking destination (R189). -/
def scrupleCheck (n h : Nat) (ls : List (List Nat)) : Prog :=
  .read fun d =>
    let s := d.layerSel n 0
    let depth := d.fld (F.DST_CTRL_out_depth n)
    let ovl := (List.range 2).any fun i =>
      match codeClass (d.fld (F.DST_CUR_OVL_CTRL_source n i)) with | .black | .park => false | _ => true
    let held := (d.mvhm h).preds.find? fun p => p.1 == s.seq
    let ok := s.code == headCode h && d.dstGeometry n == geometry (d.mvhTiming h).1.format &&
      d.fld (F.DST_CTRL_out_sampling n) == 0 && !ovl
    each (d.regions h) fun r =>
      let (x, w, y, hh) := d.region h r
      let meas := scruple ls x w y hh
      let expectBad := d.mvf (F.MVH_GR_CTRL_mode h r) == 2 && d.rd (R.MVH_GR_PRED h r) ≠ d.mvf (F.MVH_GR_EXPECT h r)
      let result := fun v => seq [setF (F.MVH_GR_STATUS_dest h r) n,
        setF (F.MVH_GR_STATUS_result h r) (if expectBad then 4 else v)]
      match (if ok then held.bind fun p => p.2.find? fun q => q.1 == r else none) with
      | none => result 3
      | some (_, p12, p10, p8) =>
        let want := match depth with | 0 => p8 | 1 => p10 | _ => p12
        seq [wr (R.MVH_GR_MEAS h r) meas,
          if meas = want then result 1
          else seq [result 2, inc (R.MVH_GR_CNT h r), inc (R.MVH_CNT_SCRUPLE_MISMATCH h),
            raise (F.MVH_ALARM_scruple_mismatch h)]]

/-- What a destination's monitor holds. -/
def Dev.dmonm (d : Dev) (n : Nat) : DmonMem := KV.get {} d.x.dmon n

/-- The freeze judgement over a run (R191): the cause. -/
def DmonMem.cause (m : DmonMem) : Nat :=
  if m.still then 4 else if !m.seqMoved then 2 else if m.recMoved then 3 else 1

/-- A frame has been emitted: the monitor measures it (R190, R191) and the heads' scruples are checked (R189). -/
def frameEmitted (n : Nat) : Prog :=
  doWhen (fun d => d.on (dstFn n) && !d.flag (F.DST_CTRL_opaque n)) (.read fun d =>
    let s := d.fld (F.DST_CTRL_out_sampling n)
    let ls := d.emitted n
    let digest := crc32c (pelBytes (ls.flatMap id))
    let lumas := ls.flatMap fun l => (l.zipIdx.filter fun e => lumaWord s e.2).map fun e => e.1 % 4096
    let (lo, hi) := (lumas.foldl min 4095, lumas.foldl max 0)
    let sel := d.layerSel n 0
    let still := match codeClass sel.code with | .surface | .pattern | .black | .park => true | _ => false
    let rec_ := (d.selFrame sel).map (·.rcd.digest)
    let m := d.dmonm n
    let same := m.digest == some digest
    let m' : DmonMem :=
      if same then { m with
        run := m.run + 1, still := m.still && still, seq := some sel.seq, rec_ := rec_
        seqMoved := m.seqMoved || m.seq ≠ some sel.seq, recMoved := m.recMoved || m.rec_ ≠ rec_ }
      else { m with digest := some digest, run := 0, still := still, seq := some sel.seq, rec_ := rec_, seqMoved := false
                    recMoved := false }
    let black := decide (hi ≤ d.fld (F.DMON_THRESH_black_thresh n))
    let nb := if black then m.blackRun + 1 else 0
    let isBlack := decide (d.fld (F.DMON_CTRL_black_frames n) ≤ nb) && black
    let flat := decide (hi - lo ≤ d.fld (F.DMON_THRESH_flat_range n)) && !isBlack
    let nf := if flat then m.flatRun + 1 else 0
    let isFlat := decide (d.fld (F.DMON_CTRL_black_frames n) ≤ nf) && flat
    let frozen := same && decide (d.fld (F.DMON_CTRL_freeze_frames n) ≤ m'.run)
    let cause := if frozen then m'.cause else if same then d.fld (F.DMON_STATUS_freeze_cause n) else 0
    let out := frozen && cause ≠ 4
    seq [
      wr (R.DMON_DIGEST n) digest, setF (F.DMON_LUMA_min n) lo, setF (F.DMON_LUMA_max n) hi,
      wr (R.DMON_SEQ n) ((d.dstTiming n).2 % 2 ^ 32), setF (F.DMON_STATUS_monitoring n) 1,
      ext fun x => { x with dmon := KV.set {} x.dmon n { m' with
        blackRun := nb, flatRun := nf
        diff := [0, 1, 2].any fun i => match d.selFrame (d.layerSel n i) with | some f => f.diff | none => false } },
      statusAlarm (F.DMON_STATUS_black n) (F.DMON_ALARM_black n) isBlack,
      statusAlarm (F.DMON_STATUS_flat n) (F.DMON_ALARM_flat n) isFlat,
      doIf (out && cause == 3 && !d.flag (F.DMON_STATUS_frozen_out n)) (raise (F.DMON_ALARM_dest_frozen n)),
      setF (F.DMON_STATUS_freeze_cause n) cause,
      statusAlarm (F.DMON_STATUS_frozen_out n) (F.DMON_ALARM_frozen_out n) out,
      each ((List.range 32).filter fun h => (d.mvhm h).configured && d.mvf (F.MVH_CTRL_out_dest h) == n) fun h =>
        scrupleCheck n h ls])

/-! ### Leaving ON -/

/-- A destination stops building frames: its slots are released and its copy of the OTG ends; changes that have not landed
keep their landing (R105). -/
def dstStopped (n : Nat) : Prog :=
  seq [
    each [0, 1, 2, 3] fun i => releaseLayer n i 0x1000,
    dstUpd n fun m => {
      pend := m.pend, resolved := m.resolved, point := m.point, point2 := m.point2, fbCount := m.fbCount, fbSeq := m.fbSeq },
    setF (F.DST_STATUS_otg_flywheel n) 0, setF (F.DMON_STATUS_monitoring n) 0, dmonRestart n]

/-! ### Meanings -/

/-- DEST_SWITCH_POINT (R109). -/
def execDestSwitchPoint (n : DstId) (field2 : Bool) (s : State) : Host.Outcome State Fault Refusal :=
  perform .core (switchPoint n field2) s

/-- SCANOUT_TILE_ROW_FETCH (R128). -/
def execScanoutTileRowFetch (n : DstId) (layer : Fin 3) (row : Nat) (s : State) : Host.Outcome State Fault Refusal :=
  perform .core (fetchRow n layer row) s

/-- DEST_FRAME_EMITTED (R190). -/
def execDestFrameEmitted (n : DstId) (s : State) : Host.Outcome State Fault Refusal := perform .core (frameEmitted n) s

/-- What a write of 1 to DST_CNT_CLEAR clears (R139). -/
def dstCntClear (n : DstId) : Prog :=
  clearRegs [R.DST_CNT_TAKES n, R.DST_CNT_SUPERSEDED n, R.DST_CNT_NOT_READY n, R.DST_CNT_UNDERRUN n,
  R.DST_CNT_REPEAT n, R.DST_CNT_DROP n, R.DST_CNT_UE n, R.DST_CNT_OPQ_GAP n]

/-- DST_CNT_CLEAR (R139). -/
def execDstCntClear (n : DstId) (s : State) : Host.Outcome State Fault Refusal := perform .core (dstCntClear n) s

end Sys2Proof.Machine
end

