-- ==== Sys2Proof/Machine/TimeCmd.lean ====
section
/-!
DEFINITION. The TIME_* commands (R441) and the waking of output timing generators.
-/

namespace Sys2Proof.Machine

/-- TIME_SET (R39, R441): HT, a time base on its own count, or the seconds of a PPS reference. -/
def timeSetSpec (b : TimeSetBody) : CmdSpec where
  opcode := 0x0900
  ok := decide (b.target ≤ 6) && decide (b.sec < 2 ^ 48) && decide (b.ns < 1000000000)
  prog o := checked o (fun _ => none) (.read fun d => seq [
    (if b.target = 0 then seq [
        htMove ((timeOf b.sec b.ns : Int) - d.x.time.ht),
        doIf (!d.timeLocked) (setF F.TIME_STATUS_ht_traceable 0)]
      else if b.target ≤ 4 then tbSetTo (b.target - 1) (timeOf b.sec b.ns)
      else refUpd (b.target + 1) fun c => { c with secondsSet := some b.sec }),
    finish o.id 0 []])

/-- TIME_REALIGN (R63). -/
def timeRealignSpec : CmdSpec where
  opcode := 0x0901
  prog o := checked o (fun _ => none) (seq [realignArm, finish o.id 0 []])

/-- The values of TIME_REF in address order, 0x000 to 0x01C: those of writable registers (R441). -/
def timeRefRegs (c : Nat) (v : List Nat) : List (Reg × Nat) :=
  [(R.REF_CTRL c, v.getD 0 0), (R.REF_WTR c, v.getD 2 0), (R.REF_DRIFT c, v.getD 4 0), (R.REF_ANA_FMT c, v.getD 7 0)]

/-- TIME_REF (R51, R441). -/
def timeRefSpec (b : TimeRefBody) : CmdSpec where
  opcode := 0x0902
  ok := decide (b.cand < 16) && b.values.length == 8 && (timeRefRegs b.cand b.values).all wordFits &&
    decide (bitsOf (b.values.getD 0 0) 12 2 < 3) && decide (bitsOf (b.values.getD 0 0) 16 7 < 96)
  prog o := checked o (fun _ => none) (seq [
    refWriteCtrl b.cand (b.values.getD 0 0),
    each ((timeRefRegs b.cand b.values).drop 1) fun e => wr e.1 e.2,
    finish o.id 0 []])

/-- TIME_DPLL (R53, R441). -/
def timeDpllSpec (b : TimeDpllBody) : CmdSpec where
  opcode := 0x0903
  ok := decide (bitsOf b.ctrl 0 3 < 4) && wordFits (R.DPLL_CTRL, b.ctrl) && wordFits (R.DPLL_BW, b.bw) &&
    wordFits (R.DPLL_SLEW, b.slew) && wordFits (R.DPLL_HOLDOVER, b.holdover)
  prog o := checked o (fun _ => none) (seq [
    wr R.DPLL_BW b.bw, wr R.DPLL_SLEW b.slew, wr R.DPLL_HOLDOVER b.holdover, dpllWriteCtrl b.ctrl, finish o.id 0 []])

/-- An OTG as a function. -/
def otgFn (n : Nat) : Fn := .otg (Fin.ofNat 32 n)

/-- An OTG leaves ON: its destinations and heads go on with their own copies of it (R136, R193), and no realignment waits
for it (R63). -/
def otgLost (n : Nat) : Prog :=
  .read fun d => seq [
    each ((List.range 1024).filter fun q => d.fld (F.DST_CTRL_otg q) == n && d.on (dstFn q)) flyStart,
    each ((List.range 32).filter fun h => d.fld (F.MVH_CTRL_otg h) == n) mvhFlyStart,
    otgUpd n fun m => { m with realign := false }, setF (F.OTG_STATUS_realign_pending n) 0, otgRealigned n]

/-- Writes an OTG's enable as firmware does; a new WAKING latches format and time source (R62). -/
def otgSwitch (n : Nat) (on : Bool) : Prog :=
  .read fun d =>
    let was := d.flag (F.OTG_CTRL_enable n)
    seq [setB (F.OTG_CTRL_enable n) on,
      doIf (on && !was) (seq [fnEnable (otgFn n), doWhen (fun d => d.fst (otgFn n) == .waking) (otgLatch n)]),
      doIf (!on && was) (seq [doIf (d.on (otgFn n)) (otgLost n), fnDisable (otgFn n)])]

/-- TIME_OTG (R26, R62, R441). -/
def timeOtgSpec (b : TimeOtgBody) : CmdSpec where
  opcode := 0x0904
  ok := decide (b.otg < 32) && wordFits (R.OTG_CTRL b.otg, b.ctrl) && decide (bitsOf b.ctrl 12 3 < 5) &&
    decide (b.offset < 2 ^ 32) && fmtLegal (bitsOf b.ctrl 4 8) &&
    decide ((signedOf 32 b.offset).natAbs * nsU < fmtPeriod (bitsOf b.ctrl 4 8))
  prog o := checked o (fun d => firstOf [
      (overBudget d ((setF (F.OTG_CTRL_format b.otg) (bitsOf b.ctrl 4 8)).run d), Reason.bandwidth)])
    (seq [
      setF (F.OTG_CTRL_format b.otg) (bitsOf b.ctrl 4 8), setF (F.OTG_CTRL_time_src b.otg) (bitsOf b.ctrl 12 3),
      wr (R.OTG_OFFSET b.otg) b.offset, otgSwitch b.otg (bitOf b.ctrl 0), planUpdate, finish o.id 0 []])

/-- TIME_SET (R39, R441). -/
def execTimeSet (h : Hdr) (b : TimeSetBody) (s : State) : Host.Outcome State Fault Refusal :=
  perform .core (rygus h (.timeSet b) (timeSetSpec b)) s

/-- TIME_REALIGN (R63). -/
def execTimeRealign (h : Hdr) (s : State) : Host.Outcome State Fault Refusal :=
  perform .core (rygus h .timeRealign timeRealignSpec) s

/-- TIME_REF (R441). -/
def execTimeRef (h : Hdr) (b : TimeRefBody) (s : State) : Host.Outcome State Fault Refusal :=
  perform .core (rygus h (.timeRef b) (timeRefSpec b)) s

/-- TIME_DPLL (R441). -/
def execTimeDpll (h : Hdr) (b : TimeDpllBody) (s : State) : Host.Outcome State Fault Refusal :=
  perform .core (rygus h (.timeDpll b) (timeDpllSpec b)) s

/-- TIME_OTG (R441). -/
def execTimeOtg (h : Hdr) (b : TimeOtgBody) (s : State) : Host.Outcome State Fault Refusal :=
  perform .core (rygus h (.timeOtg b) (timeOtgSpec b)) s

end Sys2Proof.Machine
end

