-- ==== Sys2Proof/Machine/Audio.lean ====
section
/-!
DEFINITION. The audio matrix (R199 to R229): inputs with their processing delay, conversion, slips, loss and return;
routes, gains and ramps; tones, meters, loudness and silence; the landing of audio changes; the AUDIO_* commands.
-/

namespace Sys2Proof.Machine

/-! ### Rate and state (R199, R200) -/

/-- The matrix runs at 96 kHz. -/
def Dev.aud96 (d : Dev) : Bool := d.flag F.AUD_CTRL_rate

/-- Channels of a source group (R202). -/
def Dev.audGs (d : Dev) : Nat := if d.aud96 then 16 else 32

/-- Samples of a block (R200). -/
def Dev.audN (d : Dev) : Nat := if d.aud96 then 96 else 48

/-- Input and output channels (R199). -/
def Dev.audCh (d : Dev) : Nat := 1024 * d.audGs

/-- The index of the current block: whole milliseconds of HT (R200). -/
def Dev.audBlock (d : Dev) : Nat := d.x.time.ht / (1000000 * nsU)

/-- Changes the audio state. -/
def audUpd (f : AudState → AudState) : Prog := ext fun x => { x with aud := f x.aud }

/-- What an input holds. -/
def Dev.ain (d : Dev) (i : Nat) : AudIn := KV.get {} d.x.aud.ins i

/-- Changes what an input holds. -/
def ainUpd (i : Nat) (f : AudIn → AudIn) : Prog := audUpd fun a => { a with ins := KV.upd {} a.ins i f }

/-- What an output holds. -/
def Dev.aout (d : Dev) (o : Nat) : AudOut := KV.get {} d.x.aud.outs o

/-- Changes what an output holds. -/
def aoutUpd (o : Nat) (f : AudOut → AudOut) : Prog := audUpd fun a => { a with outs := KV.upd {} a.outs o f }

/-- A restored audio record's key in the MRAM store (R470): 0 outputs, 1 inputs, 2 source groups, 3 destination groups,
4 tone generators, 5 detectors, 6 loudness groups, 7 serial audio ports. -/
def audKey (kind n : Nat) : MramKey := ⟨.config, 0x700000 + kind * 0x10000 + n⟩

/-! ### Fixed tables (R211, R217) -/

/-- π in units of 2^-62. -/
def piFix : Int := 14488038916154245684

/-- cos(π × num / den) in units of 2^-62, for 0 ≤ num ≤ den. -/
def cosFix (num den : Nat) : Int :=
  let x := piFix * num / (den : Int)
  let x2 := x * x / 2 ^ 62
  ((List.range 16).foldl (fun (p : Int × Int) k =>
    let t := -(p.2 * x2 / 2 ^ 62) / ((2 * (k : Int) + 1) * (2 * k + 2))
    (p.1 + t, t)) ((2 : Int) ^ 62, (2 : Int) ^ 62)).1

/-- The raised-cosine weight of sample n of N (R211). -/
def rcWeight (n len : Nat) : Nat := (roundDiv (32768 * (2 ^ 62 - cosFix (n + 1) len)) (2 ^ 63)).toNat

/-- The largest number of `bits` bits that a monotone condition allows; 0 if none. -/
def bitSearch (bits : Nat) (ok : Nat → Bool) : Nat :=
  (List.range bits).reverse.foldl (fun v b => if ok (v + 2 ^ b) then v + 2 ^ b else v) 0

/-- round(scale × 10^(num / den)). -/
def expTen (scale : Nat) (num : Int) (den : Nat) : Nat :=
  let g := max 1 (Nat.gcd num.natAbs den)
  let e := num.natAbs / g
  let q := den / g
  bitSearch 28 fun v =>
    decide ((2 * v - 1) ^ q * (if num < 0 then 10 ^ e else 1) ≤ (2 * scale) ^ q * (if num < 0 then 1 else 10 ^ e))

/-- A magnitude in units of 1/16 dB below full scale, to the nearest unit, 0 to 1,440 (R221). -/
def dbBelow (x : Nat) : Nat :=
  if x = 0 then 1440 else
    min 1440 (bitSearch 11 fun k => decide (x ^ 640 * 10 ^ (2 * k - 1) ≤ (2 ^ 23) ^ 640))

/-- The magnitude of a reading in units of 1/16 dB below full scale. -/
def dbLinear (m : Nat) : Nat := bitSearch 24 fun v => decide (v ^ 320 * 10 ^ m ≤ (2 ^ 23) ^ 320)

/-- A sample clipped to 24 bits (R199). -/
def clip24 (x : Int) : Int := clampI (-8388608) 8388607 x

/-- The 32-bit phase of a tone at a house sample index, from the epoch (R217). -/
def tonePhase (f s fs : Nat) : Nat := f * s % fs * 2 ^ 32 / fs

/-- sin(2π × phase / 2^32) in units of 2^-62. -/
def sinPhase (ph : Nat) : Int :=
  let n := (ph + 3 * 2 ^ 30) % 2 ^ 32
  cosFix (if n ≤ 2 ^ 31 then n else 2 ^ 32 - n) (2 ^ 31)

/-- A sample of a tone generator (R217). -/
def Dev.toneSample (d : Dev) (g s : Nat) : Int :=
  if d.flag (F.AUD_TONE_enable g) then
    roundDiv ((expTen 8388607 (-(d.fld (F.AUD_TONE_LEVEL_level g) : Int)) 200 : Int) *
      sinPhase (tonePhase (d.fld (F.AUD_TONE_freq g)) s (d.audN * 1000))) (2 ^ 62)
  else 0

/-! ### Inputs (R201 to R209) -/

/-- The input's state (R209). -/
def Dev.ainState (d : Dev) (i : Nat) : Nat := d.fld (F.AIN_STATE_state i)

/-- The inputs bound to a supplier, each with its channel or slot. -/
def Dev.audBoundTo (d : Dev) (kind id : Nat) : List (Nat × Nat) :=
  d.x.aud.ins.filterMap fun e =>
    if d.fld (F.AIN_BIND_kind e.1) = kind ∧ d.fld (F.AIN_BIND_id e.1) = id then
      some (e.1, d.fld (F.AIN_BIND_chan e.1)) else none

/-- A supplier channel delivers samples: they reach every input bound to it, with their instant on house time (that of
the sample after the last), whether they belong to a non-PCM pair, and whether their timestamps are valid (R204). -/
def audDeliver (kind id chan t : Nat) (samples : List Int) (nonPcm ok : Bool) : Prog :=
  .read fun d => each ((d.audBoundTo kind id).filter (·.2 == chan)) fun e => seq [
    ainUpd e.1 fun m => { m with
      q := m.q ++ samples, got := m.got + samples.length, stamp := t, nonPcm := nonPcm, stampOk := ok },
    setB (F.AIN_STATE_non_pcm e.1) nonPcm]

/-- The source whose group holds an input (R202): the lowest, where groups overlap. -/
def Dev.srcGroupOf (d : Dev) (i : Nat) : Option Nat :=
  (List.range 1024).find? fun n =>
    decide (d.fld (F.AUD_SGRP_base n) ≤ i) && decide (i < d.fld (F.AUD_SGRP_base n) + d.audGs)

/-- A scale is house time for R204: HT, a time base in HOUSE or PTP_MASTER mode, or the DPLL's selected candidate while
it is LOCKED. -/
def Dev.audHouse (d : Dev) (s : Nat) : Bool :=
  d.isHouse s || (d.fld F.DPLL_STATE_state == 2 && d.fld F.DPLL_STATE_selected_ref + 1 == s)

/-- An input is synchronous (R204). -/
def Dev.audSync (d : Dev) (i : Nat) : Bool :=
  match d.fld (F.AIN_BIND_kind i) with
  | 1 | 2 =>
    match d.srcGroupOf i with
    | none => false
    | some n =>
      match ((d.store n).frames.filter (·.phase == .complete)).getLast? with
      | some f => f.rcd.locked && d.audHouse f.rcd.lockScale
      | none => false
  | 3 =>
    (d.ain i).stampOk &&
      match d.srcGroupOf i with
      | none => false
      | some n => d.audHouse (d.fld (F.SRC_TS_scale n))
  | 4 => !d.flag (F.SAP_CTRL_mode (d.fld (F.AIN_BIND_id i)))
  | 5 => true
  | _ => false

/-- The level of the input's ramp `j` samples on (R211). -/
def AudIn.level (m : AudIn) (j : Nat) : Int :=
  if m.len ≤ m.pos + j then m.to_
  else (m.from_ : Int) + ((m.to_ : Int) - m.from_) * rcWeight (m.pos + j) m.len / 32768

/-- The input's level begins a ramp from where it is. -/
def AudIn.ramp (m : AudIn) (to_ len : Nat) : AudIn := { m with from_ := (m.level 0).toNat, to_ := to_, pos := 0, len := len }

/-- Samples enter the processing delay of 64 samples; those that leave it carry the level of the ramp (R204, R208). -/
def AudIn.feed (m : AudIn) (xs : List Int) : AudIn × List Int :=
  let line := m.line ++ List.replicate (64 - m.line.length) 0
  let s := line.reverse ++ xs
  let n := xs.length
  let out := (s.take n).zipIdx.map fun e => (e.1 * m.level e.2 + 16384) / 32768
  let pos := m.pos + n
  ({ m with
      line := (s.drop n).reverse, hist := (out.reverse ++ m.hist).take 48128
      pos := if m.len ≤ pos then 0 else pos, len := if m.len ≤ pos then 0 else m.len
      from_ := if m.len ≤ pos then m.to_ else m.from_ }, out)

/-- The entry to LOST (R208): what is held fades over 64 samples; it is counted and raised, unless the input had
already lost its samples. -/
def audLose (i : Nat) (count : Bool) : Prog :=
  .read fun d => seq [
    doIf (decide (2 ≤ d.ainState i) && d.ainState i ≠ 5) (ainUpd i fun m => m.ramp 0 64),
    doIf (count && d.ainState i ≠ 5) (seq [inc R.AUD_CNT_LOST, raise F.AUD_ALARM_input_lost]),
    ainUpd i fun m => { m with q := [], complete := 0 },
    setF (F.AIN_STATE_state i) 5]

/-- The channels of the ASRC bank in use, by inputs and by serial audio ports (R205, R234). -/
def Dev.asrcUsed (d : Dev) : List Nat :=
  (d.x.aud.ins.filterMap fun e => e.2.chan) ++ (d.x.aud.sapChans.filterMap fun e => e.2)

/-- A free channel of the bank of 2,048. -/
def Dev.asrcFree (d : Dev) : Option Nat := (List.range 2048).find? fun c => !d.asrcUsed.contains c

/-- AUD_ASRC follows the bank. -/
def asrcCount : Prog := .read fun d => setF F.AUD_ASRC_used d.asrcUsed.length

/-- The ratio of R206 from the timing points: the raw estimate over 1,000 blocks, smoothed over 8 s. -/
def AudIn.estimate (m : AudIn) (fs : Nat) : Nat :=
  match m.points, m.points.getLast? with
  | (t1, n1) :: _, some (t0, n0) =>
    if t0 < t1 then
      let raw := (n1 - n0) * secU * 2 ^ 32 / ((t1 - t0) * fs)
      if m.ratio = 2 ^ 32 ∧ m.points.length ≤ 2 then raw
      else ((m.ratio : Int) + ((raw : Int) - m.ratio) / 8000).toNat
    else m.ratio
  | _, _ => m.ratio

/-- The ratio can be converted: 0.999 to 1.001 (R206). -/
def ratioOk (r : Nat) : Bool := decide (999 * 2 ^ 32 ≤ 1000 * r) && decide (1000 * r ≤ 1001 * 2 ^ 32)

/-- The treatment of an input that delivers (R204 to R206), decided by this unit or mirrored from the active: its
ratio, its ASRC channel and its state. -/
def audTreat (i : Nat) (mir : Option AudMirror) : Prog :=
  .read fun d =>
    let m := d.ain i
    let asrc := d.fld (F.AIN_BIND_asrc i)
    let sync := match mir with | some e => e.state == 2 | none => d.audSync i
    let r := match mir with | some e => e.ratio | none => m.estimate (d.audN * 1000)
    let want := asrc == 1 || (asrc == 0 && (!sync || m.chan.isSome))
    let chan := if want then (match m.chan with | some c => some c | none => d.asrcFree) else none
    let slip := match mir with
      | some e => e.state == 4
      | none => asrc == 2 || !ratioOk r || chan.isNone
    let st := if sync then 2 else if slip then 4 else 3
    seq [
      ainUpd i fun m => { m with
        ratio := r, chan := chan
        syncAt := if sync then some (m.syncAt.getD d.x.time.clk) else none },
      setF (F.AIN_STATE_state i) st,
      setF (F.AIN_STATE_asrc_chan i) (if st = 3 then chan.getD 0 else 0),
      doIf (!sync && asrc ≠ 2 && !ratioOk r) (raise F.AUD_ALARM_asrc_range),
      doIf (!sync && asrc ≠ 2 && ratioOk r && chan.isNone) (seq [
        setF F.AUD_STATUS_asrc_exhausted 1, raise F.AUD_ALARM_asrc_exhausted])]

/-- A 16-sample crossfade between two treatments of one block (R205, R207). -/
def fade16 (old new : List Int) : List Int :=
  new.zipIdx.map fun e =>
    if e.2 < 16 then
      let w : Int := rcWeight e.2 16
      (old.getD e.2 0 * (32768 - w) + e.1 * w + 16384) / 32768
    else e.1

/-- The samples of a block under a treatment (R204 to R207), the samples used up, and the remainder left: `slip` is the
slip mirrored from the active, if any. -/
def AudIn.treated (m : AudIn) (st n : Nat) (slip : Option Int) : List Int × Nat × Int × Int :=
  match st with
  | 3 =>
    let p0 := m.acc.toNat
    let around := (m.line.take 32).reverse ++ m.q
    ((List.range n).map fun k =>
        let p := p0 + k * m.ratio
        clip24 (Config.asrcSample m.ratio (p % 2 ^ 32) ((around.drop (p / 2 ^ 32)).take 64)),
      (p0 + n * m.ratio) / 2 ^ 32, ((p0 + n * m.ratio) % 2 ^ 32 : Nat), 0)
  | 4 =>
    let dir : Int := match slip with
      | some s => s
      | none => if (2 : Int) ^ 32 ≤ m.acc then -1 else if m.acc ≤ -(2 : Int) ^ 32 then 1 else 0
    let acc := m.acc + dir * 2 ^ 32 + n * ((m.ratio : Int) - 2 ^ 32)
    if dir < 0 then (fade16 (m.q.take n) ((m.q.drop 1).take n), n + 1, acc, -1)
    else if 0 < dir then (fade16 (m.q.take n) ((m.line.headD 0 :: m.q).take n), n - 1, acc, 1)
    else (m.q.take n, n, acc, 0)
  | _ => (m.q.take n, n, 0, 0)

/-- An input's block (R204 to R209). `mir` is the active's treatment of this block on a standby in lockstep. -/
def audInput (b i : Nat) (mir : Option AudMirror) : Prog :=
  .read fun d =>
    let n := d.audN
    let st := d.ainState i
    let tone := d.fld (F.AIN_BIND_kind i) == 5
    seq [
      doIf tone (audUpd fun a => { a with ins := KV.upd {} a.ins i fun m =>
        { m with q := (List.range n).map fun k => d.toneSample (d.fld (F.AIN_BIND_id i)) (b * n + k) } }),
      .read fun d =>
        let m := d.ain i
        if st = 2 ∨ st = 3 ∨ st = 4 then
          seq [
            ainUpd i fun m => { m with points := if m.points.head?.map (·.2) = some m.got then m.points
                                                  else ((m.stamp, m.got) :: m.points).take 1001 },
            audTreat i mir,
            .read fun d' =>
              let m' := d'.ain i
              let st' := d'.ainState i
              let (xs, used, acc, slip) := m'.treated st' n (mir.map (·.slip))
              let changed := m'.last ≠ st' && (m'.last == 3 || m'.last == 4) && (st' == 3 || st' == 4)
              let ys := if changed then fade16 ({ m' with acc := 0 }.treated m'.last n (some 0)).1 xs else xs
              if m'.q.length < used then
                seq [
                  ainUpd i fun x => (x.feed x.q).1,
                  audLose i true,
                  ainUpd i fun x => (x.feed (List.replicate (n - m'.q.length) 0)).1,
                  ainUpd i fun x => { x with last := 0, acc := 0 }]
              else seq [
                ainUpd i fun x => { (x.feed ys).1 with q := x.q.drop used, acc := acc, last := st' },
                doIf (slip ≠ 0) (seq [inc R.AUD_CNT_SLIP, raise F.AUD_ALARM_audio_slip])]]
        else if st = 0 then ainUpd i fun x => { (x.feed (List.replicate n 0)).1 with q := [] }
        else if n ≤ m.q.length then seq [
          setF (F.AIN_STATE_state i) 1,
          ainUpd i fun x => { (x.feed (x.q.take n)).1 with q := x.q.drop n, complete := min 8 (x.complete + 1) }]
        else seq [
          doIf m.q.isEmpty (setF (F.AIN_STATE_state i) 5),
          ainUpd i fun x => { (x.feed (List.replicate n 0)).1 with complete := 0 }]]

/-- An input returns (R209, R238): it takes its treatment and ramps up over AUD_CTRL.ramp_ms. -/
def audReturn (i : Nat) : Prog :=
  .read fun d => seq [
    ainUpd i fun m => m.ramp 32768 (max 1 (d.fld F.AUD_CTRL_ramp_ms) * d.audN),
    ainUpd i fun m => { m with points := [(m.stamp, m.got)], ratio := 2 ^ 32, acc := 0, last := 0 },
    audTreat i none, asrcCount]

/-- A binding changes (R227): the input passes through LOST, and its ASRC channel goes back to the bank. -/
def audBind (i w : Nat) : Prog :=
  .read fun d =>
    doIf (d.rd (R.AIN_BIND i) ≠ w) (seq [
      audLose i (bitsOf w 28 4 ≠ 0 || d.fld (F.AIN_BIND_kind i) ≠ 0),
      wr (R.AIN_BIND i) w,
      setF (F.AIN_STATE_non_pcm i) 0,
      setF (F.AIN_STATE_state i) (if bitsOf w 28 4 = 0 then 0 else 5),
      ainUpd i fun m => { m with
        live := true, chan := none, syncAt := none, points := [], ratio := 2 ^ 32, acc := 0, last := 0, nonPcm := false,
        stampOk := true },
      mramPut (audKey 1 i) (.regs [(R.AIN_BIND i, BitVec.ofNat 32 w)]),
      asrcCount])

/-! ### Routes (R202, R210, R213, R216, R219) -/

/-- The destinations with an audio group, each with its base and count (R210). -/
def Dev.audGroups (d : Dev) : List (Nat × Nat × Nat) :=
  d.regs.filterMap fun e =>
    if e.1.kind = .AUD_DGRP ∧ d.fld (F.AUD_DGRP_count e.1.i) ≠ 0 then
      some (e.1.i, d.fld (F.AUD_DGRP_base e.1.i), d.fld (F.AUD_DGRP_count e.1.i)) else none

/-- The destination that owns an output (R210): the lowest, where groups overlap. -/
def Dev.audOwner (d : Dev) (o : Nat) : Option Nat :=
  (d.audGroups.find? fun g => decide (g.2.1 ≤ o) && decide (o < g.2.1 + g.2.2)).map (·.1)

/-- The base of the group that an audio route names (R202). -/
def Dev.audRoute (d : Dev) : Nat → Nat → Option Nat
  | 0, _ => none
  | fuel + 1, c =>
    match codeClass c with
    | .source => some (d.fld (F.AUD_SGRP_base c))
    | .derived => d.audRoute fuel (d.fld (F.PRC_INPUT_source (c - 0x400)))
    | .head =>
      if d.mvb (F.MVH_T_SRC_enable (c - 0x710) 0) then d.audRoute fuel (d.mvf (F.MVH_T_SRC_source (c - 0x710) 0)) else none
    | _ => none

/-- The input an output's entry selects (R210, R213): none where it reads silence. -/
def Dev.audSelected (d : Dev) (o : Nat) : Option Nat :=
  let idx := d.fld (F.AOUT_ROUTE_input o)
  let i : Option Nat :=
    match d.fld (F.AOUT_ROUTE_mode o), d.audOwner o with
    | 2, some n => if d.on (dstFn n) then some idx else none
    | 2, none => some idx
    | 1, some n =>
      if d.on (dstFn n) ∧ idx < d.audGs then (d.audRoute 16 (d.fld (F.XPT_ROUTES_audio n))).map (· + idx) else none
    | _, _ => none
  match i with
  | some c => if c < d.audCh then some c else none
  | none => none

/-- An output may carry its half of a non-PCM pair (R216). -/
def Dev.audPair (d : Dev) (o i : Nat) : Bool :=
  let half := fun (p j : Nat) =>
    d.fld (F.AOUT_ROUTE_mode p) == 2 && d.fld (F.AOUT_ROUTE_input p) == j && (d.ain j).nonPcm && d.ainState j == 2 &&
      !d.flag (F.AOUT_ROUTE_mute p) && !d.flag (F.AOUT_ROUTE_invert p) && d.fld (F.AOUT_GAIN_gain p) == 0
  let other := fun x => if x % 2 = 0 then x + 1 else x - 1
  o % 2 == i % 2 && half o i && half (other o) (other i)

/-- The gain factor of an entry (R211). -/
def Dev.audGain (d : Dev) (o : Nat) : Int :=
  let g : Int := if d.flag (F.AOUT_ROUTE_mute o) then 0 else expTen (2 ^ 20) (d.sfld (F.AOUT_GAIN_gain o)) 2000
  if d.flag (F.AOUT_ROUTE_invert o) then -g else g

/-- What an output's entry resolves to now, and whether a non-PCM input is silenced (R216). -/
def Dev.audResolve (d : Dev) (o : Nat) : AudSel × Bool :=
  let sel := d.audSelected o
  let np := match sel with | some i => (d.ain i).nonPcm | none => false
  let bits := match sel with | some i => np && d.audPair o i | none => false
  let inp := if np && !bits then none else sel
  ({ inp := inp, bits := bits, g := d.audGain o
     sdelay := match inp with
       | some i => (match d.srcGroupOf i with | some n => d.fld (F.AUD_SGRP_DELAY_delay n) | none => 0)
       | none => 0
     odelay := match d.audOwner o with | some n => d.fld (F.AUD_DGRP_DELAY_delay n) | none => 0 },
   np && !bits)

/-- Samples of a history (newest first) at a delay, in order: the n samples of a block. -/
def delayed (hist : List Int) (delay n : Nat) : List Int :=
  let l := (hist.drop delay).take n
  (l ++ List.replicate (n - l.length) 0).reverse

/-- One output sample (R211) and whether it clipped: `w` is the weight of a running ramp. -/
def audSample (old new : AudSel) (xo xn : Int) (w : Option Nat) : Int × Bool :=
  let raw : Int :=
    match w with
    | none => if new.bits then xn else (xn * new.g + 2 ^ 19) / 2 ^ 20
    | some w =>
      if old.inp = new.inp ∧ old.sdelay = new.sdelay then
        (xn * (old.g + (new.g - old.g) * w / 32768) + 2 ^ 19) / 2 ^ 20
      else (xo * old.g * (32768 - w) + xn * new.g * w + 2 ^ 34) / 2 ^ 35
  (clip24 raw, clip24 raw ≠ raw)

/-- The samples a selection takes in this block. -/
def Dev.audTaken (d : Dev) (s : AudSel) : List Int :=
  match s.inp with
  | some i => delayed (d.ain i).hist s.sdelay d.audN
  | none => List.replicate d.audN 0

/-- The instances of a register kind whose word is not the reset one. -/
def Dev.keysOf (d : Dev) (k : RK) : List Nat := d.regs.filterMap fun e => if e.1.kind = k then some e.1.i else none

/-- A meter after a block of a peak in 1/16 dB, in units of 1/2975 of 1/16 dB (R221). -/
def meterStep (kind m p : Nat) (peak : Nat) : Nat :=
  match kind with
  | 1 => min (p * 2975) (min (1440 * 2975) (m + 560))
  | 2 =>
    let y := dbLinear (m / 2975)
    if y < peak then min m (dbBelow (y + (peak - y) * 9619 / 65536) * 2975)
    else min (p * 2975) (min (1440 * 2975) (m + 408))
  | _ => p * 2975

/-- The silence detectors that watch an output take its block's peak (R223). -/
def audSilence (o p : Nat) : Prog :=
  .read fun d => each (d.keysOf .AUD_SIL_CTRL) fun k =>
    doIf (d.flag (F.AUD_SIL_CTRL_enable k) && d.fld (F.AUD_SIL_CTRL_output k) == o) (
      let t := d.fld (F.AUD_SIL_CTRL_thresh k)
      seq [
        audUpd fun a => { a with silent := KV.set 0 a.silent k (if 16 * t < p then KV.get 0 a.silent k + 1 else 0) },
        doIf (decide (p + 48 < 16 * t)) (setF (F.AUD_SIL_STATUS_silent k) 0)])

/-- An output's block (R211, R214, R216, R219, R221, R224): `late` says that its block was not ready. -/
def audOutput (late : Bool) (o : Nat) : Prog :=
  .read fun d =>
    let n := d.audN
    let m := d.aout o
    let fin : List Int → List Bool → AudOut → Prog := fun pre clipped m' =>
      let hist := (pre.reverse ++ m.hist).take 48128
      let ramp := decide (m'.pos < m'.len)
      let now := delayed hist m'.cur.odelay n
      let was := delayed hist m'.old.odelay n
      let blk := if ramp && m'.old.odelay ≠ m'.cur.odelay then
          now.zipIdx.map fun e =>
            if m'.pos + e.2 < m'.len then
              let w : Int := rcWeight (m'.pos + e.2) m'.len
              (was.getD e.2 0 * (32768 - w) + e.1 * w + 16384) / 32768
            else e.1
        else now
      let peak := (pre.map Int.natAbs).foldl max 0
      let p := dbBelow peak
      let mt := meterStep (d.fld (F.AOUT_GAIN_meter o)) m.meter p peak
      let clips := (clipped.filter id).length
      seq [
        aoutUpd o fun _ => { m' with
          hist := hist, blk := blk, prev := m.blk, meter := mt
          pos := if m'.len ≤ m'.pos + n then 0 else m'.pos + n, len := if m'.len ≤ m'.pos + n then 0 else m'.len },
        setF (F.AOUT_METER_reading o) (mt / 2975), setB (F.AOUT_METER_clipped o) (decide (0 < clips)),
        doIf (decide (0 < clips)) (seq [addCnt R.AUD_CNT_CLIP clips, raise F.AUD_ALARM_clip]),
        audSilence o p]
    if late then
      let held := delayed m.hist 0 64
      fin (((List.range n).map fun k =>
            if k < 64 then (held.getD k 0 * (32768 - rcWeight k 64) + 16384) / 32768 else 0)) []
        { m with cur := { odelay := m.cur.odelay }, old := {}, pos := 0, len := 0, late := true }
    else
      let (new, np) := d.audResolve o
      let r := d.fld (F.AOUT_GAIN_ramp_ms o)
      let len := max 1 (if r = 0 then d.fld F.AUD_CTRL_ramp_ms else r) * n
      let off := match d.audOwner o with | some q => !d.on (dstFn q) | none => false
      let m' : AudOut :=
        if off then { m with cur := { new with inp := none }, old := {}, pos := 0, len := 0, late := false }
        else if m.pos < m.len ∨ new = m.cur then { m with late := false }
        else if new.bits ∨ m.cur.bits then { m with cur := new, old := {}, pos := 0, len := 0, late := false }
        else { m with cur := new, old := m.cur, pos := 0, len := len, late := false }
      let xn := d.audTaken m'.cur
      let xo := d.audTaken m'.old
      let ys := (List.range n).map fun k =>
        audSample m'.old m'.cur (xo.getD k 0) (xn.getD k 0)
          (if m'.pos + k < m'.len then some (rcWeight (m'.pos + k) m'.len) else none)
      seq [doIf np (raise F.AUD_ALARM_non_pcm), fin (ys.map (·.1)) (ys.map (·.2)) m']

/-! ### The landing of changes (R212, R214) -/

/-- What a change is addressed to. -/
def AudChange.target : AudChange → Nat × Nat
  | .entry o _ _ => (0, o)
  | .bind i _ => (1, i)
  | .group k n _ _ _ => (2 + k, n)
  | .tone g _ _ => (4, g)
  | .monitor k n _ => (5 + k, n)

/-- The registers a loudness group's AUDIO_MONITOR writes: its control word and its 16 channel words (R227). -/
def loudRegs (g : Nat) : List Reg := R.AUD_LG_CTRL g :: (List.range 16).map fun i => R.AUD_LG_CH g i

/-- Writes register words and their MRAM record. -/
def audWrite (key : MramKey) (l : List (Reg × Nat)) : Prog :=
  seq [each l fun e => wr e.1 e.2, mramPut key (.regs (l.map fun e => (e.1, BitVec.ofNat 32 e.2)))]

/-- A change takes effect. -/
def audApply : AudChange → Prog
  | .entry o w0 w1 => audWrite (audKey 0 o) [(R.AOUT_ROUTE o, w0), (R.AOUT_GAIN o, w1)]
  | .bind i w => audBind i w
  | .group k n base count delay =>
    if k = 0 then audWrite (audKey 2 n) [(R.AUD_SGRP n, base), (R.AUD_SGRP_DELAY n, delay)]
    else audWrite (audKey 3 n) [(R.AUD_DGRP n, base + count * 2 ^ 16), (R.AUD_DGRP_DELAY n, delay)]
  | .tone g f l => audWrite (audKey 4 g) [(R.AUD_TONE g, 2 ^ 31 + f), (R.AUD_TONE_LEVEL g, l)]
  | .monitor k n v =>
    if k = 0 then seq [audWrite (audKey 5 n) [(R.AUD_SIL_CTRL n, v.getD 0 0)],
      audUpd fun a => { a with silent := KV.set 0 a.silent n 0 }, setF (F.AUD_SIL_STATUS_silent n) 0]
    else seq [audWrite (audKey 6 n) ((loudRegs n).zip v), audUpd fun a => { a with loud := KV.set [] a.loud n [] },
      wr (R.AUD_LG_M n) 0xFD44, wr (R.AUD_LG_S n) 0xFD44]

/-- A change lands at a block: its landing has come, and it is no entry of an output whose ramp runs (R214). -/
def Dev.audDue (d : Dev) (b : Nat) (p : AudPend) : Bool :=
  decide (p.land ≤ b) &&
  match p.change with
  | .entry o _ _ => decide ((d.aout o).len ≤ (d.aout o).pos)
  | _ => true

/-- The changes of a list in order, each with whether a later one overwrites it. -/
def audMarked : List AudPend → List (AudPend × Bool)
  | [] => []
  | p :: r => (p, r.any fun q => q.change.target == p.change.target) :: audMarked r

/-- The changes due at block `b` land, in commit order; commands with nothing left complete (R214). -/
def audLand (b : Nat) : Prog :=
  .read fun d =>
    let due := d.x.aud.pend.filter (d.audDue b)
    seq [
      each due fun p => audApply p.change,
      audUpd fun a => { a with
        pend := a.pend.filter fun p => !d.audDue b p
        took := a.took ++ ((audMarked due).filter fun e => !e.2).map (·.1.id) },
      .read fun d' => each ((due.map (·.id)).dedup.filter fun id => !d'.x.aud.pend.any fun p => p.id == id) fun id =>
        let sup := !d'.x.aud.took.contains id
        seq [
          audUpd fun a => { a with took := a.took.filter (· ≠ id) },
          doIf sup (inc R.AUD_CNT_SUPERSEDED),
          finish id (if sup then 8 else 0) []]]

/-- Commits audio changes (R212): they land at the second block boundary after the commit; while the matrix is not ON
there are no blocks, and they land at once. -/
def audCommit (o : Orig) (l : List AudChange) : Prog :=
  .read fun d =>
    let land := (o.instant.toNat) / (1000000 * nsU) + 2
    if l.isEmpty then finish o.id 0 []
    else seq [
      audUpd fun a => { a with pend := a.pend ++ l.map fun c => { id := o.id, land := land, change := c } },
      doIf (!d.on .aud) (audLand land)]

/-! ### The block boundary (R200) -/

/-- The uncorrectable errors a block meets (R225). -/
def audError (e : AudErr) : Prog :=
  seq [raise F.AUD_ALARM_ue,
    match e with
    | .samples i => seq [inc R.AUD_CNT_UE, audLose i true]
    | .entry o => seq [inc R.AUD_CNT_UE,
        .read fun d => match d.x.boot.mram.find? fun r => r.1 == audKey 0 o with
          | some (_, .regs l) => each l fun r => wr r.1 r.2.toNat
          | _ => .nop]
    | .binding i => seq [inc R.AUD_CNT_UE, audLose i true,
        .read fun d => match d.x.boot.mram.find? fun r => r.1 == audKey 1 i with
          | some (_, .regs l) => each l fun r => audBind r.1.i r.2.toNat
          | _ => .nop]
    | .global => fnFault .aud 1]

/-- The outputs that can carry something: those of the destination groups, those whose entry is not the reset one, and
those that still ramp, fade or are delayed. Every other output reads silence. -/
def Dev.audActiveOuts (d : Dev) : List Nat :=
  ((d.audGroups.flatMap fun g => (List.range g.2.2).map (g.2.1 + ·)) ++
    (d.regs.filterMap fun e => if e.1.kind = .AOUT_ROUTE then some e.1.i else none) ++
    d.x.aud.outs.map (·.1)).dedup.filter fun o => decide (o < d.audCh)

/-- The power of each channel of each loudness group in this block (R222). -/
def audLoudBlock : Prog :=
  .read fun d => each ((d.keysOf .AUD_LG_CTRL).filter fun g => d.flag (F.AUD_LG_CTRL_enable g)) fun g =>
    audUpd fun a => { a with loud := KV.upd [] a.loud g fun l =>
      (List.range (min 16 (d.fld (F.AUD_LG_CTRL_count g)))).map fun i =>
        let ch := l.getD i (0, [])
        let r := Config.kBlock d.aud96 ch.1 ((d.aout (d.fld (F.AUD_LG_CH_output g i))).hist.take d.audN).reverse
        (r.1, (r.2 :: ch.2).take 3000) }

/-- The active sends the treatment of each input in this block to the standby (R206, R400). -/
def audMirrorTx (b : Nat) (before : Dev) : Prog :=
  .read fun d =>
    doIf d.mirrors (emit (.twinAudio { block := b, entries := d.x.aud.ins.map fun e =>
      { input := e.1, state := d.ainState e.1, ratio := e.2.ratio
        slip := let a := (before.ain e.1).acc
                if d.ainState e.1 = 4 then (if (2 : Int) ^ 32 ≤ a then -1 else if a ≤ -(2 : Int) ^ 32 then 1 else 0) else 0 } }))

/-- A block begins (R200): changes land, inputs and outputs are computed, meters, detectors and loudness follow. -/
def audBlockStart (late : List Nat) (errs : List AudErr) : Prog :=
  doWhen (fun d => d.on .aud) (.read fun d =>
    let b := d.audBlock
    seq [
      set64 R.AUD_BLOCK_LO R.AUD_BLOCK_HI b,
      setF F.AUD_STATUS_running 1,
      setF F.AUD_STATUS_asrc_exhausted 0,
      each errs audError,
      doWhen (fun d => d.on .aud) (seq [
        audLand b,
        .read fun d1 =>
          let msg := d1.x.aud.mirrors.find? fun m => m.block == b
          seq [
            each (d1.x.aud.ins.map (·.1)) fun i =>
              let e := msg.bind fun m => m.entries.find? fun e => e.input == i
              let local_ := d1.lockstep && e.isNone && decide (2 ≤ d1.ainState i) && d1.ainState i ≠ 5
              seq [
                doIf local_ (seq [setF F.AUD_STATUS_decision_local 1, raise F.AUD_ALARM_decision_local, inc R.AUD_CNT_LOCAL]),
                match e with
                | some m =>
                  if !d1.lockstep then audInput b i none
                  else if m.state = 5 then seq [audLose i true, audInput b i none]
                  else seq [
                    doIf (decide (2 ≤ m.state) && (d1.ainState i == 1 || d1.ainState i == 5)) (audReturn i),
                    audInput b i (if 2 ≤ m.state then some m else none)]
                | none => audInput b i none],
            doIf (d1.lockstep && msg.isSome) (setF F.AUD_STATUS_decision_local 0),
            audUpd fun a => { a with mirrors := a.mirrors.filter fun m => decide (b < m.block) },
            asrcCount,
            audMirrorTx b d1],
        .read fun d2 =>
          let ue := errs.filterMap fun e => match e with | .entry o => some o | _ => none
          each d2.audActiveOuts fun o => audOutput (late.contains o || ue.contains o) o,
        each late fun _ => seq [inc R.AUD_CNT_LATE, raise F.AUD_ALARM_late_block],
        audLoudBlock])])

/-- The samples of the block being emitted that an output sends (R219, R220); silence where it has none. -/
def Dev.audOut (d : Dev) (o : Nat) : List Int :=
  let l := (d.aout o).blk
  if l.isEmpty ∨ !d.on .aud then List.replicate d.audN 0 else l

/-- The sample of a house sample index that an output emits: of the block being emitted or the one before it. -/
def Dev.audAt (d : Dev) (o s : Nat) : Int :=
  let b := d.rd64 R.AUD_BLOCK_LO R.AUD_BLOCK_HI
  if !d.on .aud then 0
  else if s / d.audN = b then (d.aout o).blk.getD (s % d.audN) 0
  else if s / d.audN + 1 = b then (d.aout o).prev.getD (s % d.audN) 0 else 0

/-- The mean power of a channel over its newest blocks, weighted in units of 0.01 (R222). -/
def loudMean (l : List (Nat × List Nat)) (weights : List Nat) (blocks : Nat) : Nat :=
  (l.zip weights).foldl (fun s e =>
    s + (match e.2 with | 1 => 100 | 2 => 141 | _ => 0) * (e.1.2.take blocks).sum / max 1 blocks) 0

/-- The readings of a loudness group (R222), −70.0 LUFS standing for anything lower. -/
def loudUpdate : Prog :=
  doWhen (fun d => d.on .aud) (.read fun d =>
    each ((d.keysOf .AUD_LG_CTRL).filter fun g => d.flag (F.AUD_LG_CTRL_enable g)) fun g =>
      let l := KV.get [] d.x.aud.loud g
      let ws := (List.range 16).map fun i => d.fld (F.AUD_LG_CH_weight g i)
      seq [
        wr (R.AUD_LG_M g) (codeOf 16 (max (-700) (Config.lufs (loudMean l ws 400)))),
        wr (R.AUD_LG_S g) (codeOf 16 (max (-700) (Config.lufs (loudMean l ws 3000))))])

/-- The matrix leaves ON (R226): every output is silent; on its return every input qualifies afresh and outputs ramp up. -/
def audStopped : Prog :=
  seq [
    setF F.AUD_STATUS_running 0,
    .read fun d => each (d.x.aud.ins.map (·.1)) fun i => seq [
      doIf (d.ainState i ≠ 0) (setF (F.AIN_STATE_state i) 1),
      ainUpd i fun m => { live := m.live },
      setF (F.AIN_STATE_asrc_chan i) 0],
    audUpd fun a => { a with outs := [], mirrors := [] },
    asrcCount]

/-- AUD_CTRL.rate changes (R199, R202, R210): default bases and FOLLOW entries are those of the new group size. -/
def audRate (rate96 : Bool) : Prog :=
  .read fun d =>
    let g := d.audGs
    let h := if rate96 then 16 else 32
    doIf (g ≠ h) (seq [
      setB F.AUD_CTRL_rate rate96,
      each (List.range 1024) fun n => seq [
        doIf (d.fld (F.AUD_SGRP_base n) == n * g) (setF (F.AUD_SGRP_base n) (n * h)),
        doIf (d.fld (F.AUD_DGRP_base n) == n * g) (setF (F.AUD_DGRP_base n) (n * h))],
      each (List.range 32768) fun o =>
        doIf (d.rd (R.AOUT_ROUTE o) == 0x40000000 + o % g) (setF (F.AOUT_ROUTE_input o) (o % h))])

/-! ### Commands (R227) -/

/-- The channels a destination's transport carries (R218); ST 2110 carries the group. -/
def Dev.audCarried (d : Dev) (n : Nat) : Nat :=
  if d.fld (F.DST_CTRL_transport n) = 2 then
    let l := d.fld (F.DST_OUTPUT_id n)
    match sdiRow (d.dstPlan n) (d.fld (F.DST_CTRL_out_sampling n)) (d.fld (F.DST_CTRL_out_depth n))
        (d.flag (F.SDI_CTRL_quad_link (l - l % 4))) (d.flag (F.SDI_CTRL_tx_mapping l)) with
    | some r => min d.audGs (r.channels d.aud96)
    | none => d.audGs
  else d.audGs

/-- An entry's fields are in their ranges (R210). -/
def entryOk (e : Nat × Nat) : Bool :=
  wordFits (R.AOUT_ROUTE 0, e.1) && wordFits (R.AOUT_GAIN 0, e.2) && decide (bitsOf e.1 30 2 < 3) &&
    decide (bitsOf e.2 24 3 < 3) && decide (bitsOf e.2 16 7 ≤ 100) &&
    decide (-9600 ≤ signedOf 16 (bitsOf e.2 0 16)) && decide (signedOf 16 (bitsOf e.2 0 16) ≤ 2400)

/-- AUDIO_MAP (R210, R215, R227). -/
def audioMapSpec (b : AudioMapBody) : CmdSpec where
  opcode := 0x0500
  controller := some b.controller
  ok := decide (b.first < 32768) && decide (b.entries.length < 65536) && b.entries.all entryOk
  prog o := checked o (fun d =>
      let owners := ((List.range b.entries.length).filterMap fun k => d.audOwner (b.first + k))
      firstOf [
        (b.entries.any fun e => bitsOf e.1 30 2 == 1 && decide (d.audGs ≤ bitsOf e.1 0 15), Reason.badField),
        (decide (d.audCh < b.first + b.entries.length) ||
          b.entries.any fun e => bitsOf e.1 30 2 == 2 && decide (d.audCh ≤ bitsOf e.1 0 15), Reason.badChannel),
        (owners.any fun n => d.fld (F.DST_HOLD_state n) == 2, Reason.locked),
        (owners.any fun n => d.fld (F.DST_HOLD_state n) == 1 && d.fld (F.DST_HOLD_owner n) ≠ o.controller,
          Reason.isProtected)])
    (audCommit o (b.entries.zipIdx.map fun e => .entry (b.first + e.2) e.1.1 e.1.2))

/-- A binding names a supplier that can exist (R201, R276). -/
def bindingOk (w : Nat) : Bool :=
  let id := bitsOf w 12 13
  let ch := bitsOf w 0 6
  decide (bitsOf w 26 2 < 3) &&
  match bitsOf w 28 4 with
  | 0 => true
  | 1 => decide (id < 96) && decide (ch < 32)
  | 2 => decide (id < 6144) && decide (ch < 32)
  | 3 => true
  | 4 => decide (id < 16) && decide (ch < 32)
  | 5 => decide (id < 16)
  | _ => false

/-- AUDIO_BIND (R201, R227). -/
def audioBindSpec (b : AudioBindBody) : CmdSpec where
  opcode := 0x0501
  ok := decide (b.first < 32768) && decide (b.entries.length < 65536) && b.entries.all fun w => wordFits (R.AIN_BIND 0, w)
  prog o := checked o (fun d => firstOf [
      (decide (d.audCh < b.first + b.entries.length), Reason.badChannel),
      (!b.entries.all bindingOk, Reason.badBinding)])
    (audCommit o (b.entries.zipIdx.map fun e => .bind (b.first + e.2) e.1))

/-- AUDIO_GROUP (R218, R219, R227). -/
def audioGroupSpec (b : AudioGroupBody) : CmdSpec where
  opcode := 0x0502
  ok := decide (b.kind < 2) && decide (b.index < 1024) && decide (b.base < 32768) && decide (b.count < 64) &&
    decide (b.delay < 65536)
  prog o := checked o (fun d => firstOf [
      (decide (48000 < b.delay), Reason.badChannel),
      (decide (d.audCh < b.base + (if b.kind = 0 then d.audGs else b.count)), Reason.badChannel),
      (b.kind == 1 && decide (d.audCarried b.index < b.count), Reason.badChannel),
      (b.kind == 0 && (List.range 1024).any fun m =>
        m ≠ b.index && decide (d.fld (F.AUD_SGRP_base m) < b.base + d.audGs) &&
          decide (b.base < d.fld (F.AUD_SGRP_base m) + d.audGs) && d.fld (F.AUD_SGRP_DELAY_delay m) ≠ b.delay,
        Reason.badChannel)])
    (audCommit o [.group b.kind b.index b.base b.count b.delay])

/-- AUDIO_TONE (R217, R227): it enables the generator it sets. -/
def audioToneSpec (b : AudioToneBody) : CmdSpec where
  opcode := 0x0503
  ok := decide (b.generator < 16) && decide (b.freq < 32768) && decide (b.level < 1024)
  prog o := checked o (fun _ => firstOf [
      (decide (b.freq = 0) || decide (20000 < b.freq) || decide (960 < b.level), Reason.badTone)])
    (audCommit o [.tone b.generator b.freq b.level])

/-- AUDIO_MONITOR (R222, R223, R227). -/
def audioMonitorSpec (b : AudioMonitorBody) : CmdSpec where
  opcode := 0x0504
  ok := decide (b.kind < 2) &&
    (if b.kind = 0 then
      b.values.length == 1 && wordFits (R.AUD_SIL_CTRL 0, b.values.getD 0 0) &&
        decide (30 ≤ bitsOf (b.values.getD 0 0) 24 7) && decide (bitsOf (b.values.getD 0 0) 24 7 ≤ 90) &&
        decide (1 ≤ bitsOf (b.values.getD 0 0) 16 8)
    else b.values.length == 17 && ((loudRegs 0).zip b.values).all wordFits &&
      decide (bitsOf (b.values.getD 0 0) 0 5 ≤ 16) && (b.values.drop 1).all fun w => decide (bitsOf w 16 2 < 3))
  prog o := checked o (fun d => firstOf [
      (decide ((if b.kind = 0 then 2048 else 128) ≤ b.index), Reason.badChannel),
      ((if b.kind = 0 then b.values else b.values.drop 1).any fun w => decide (d.audCh ≤ bitsOf w 0 15), Reason.badChannel)])
    (audCommit o [.monitor b.kind b.index b.values])

/-- AUDIO_QUERY (R227): entries and meters of outputs, or bindings and states of inputs. -/
def audioQuerySpec (b : AudioQueryBody) : CmdSpec where
  opcode := 0x0505
  ok := decide (b.first < 32768) && decide (b.count < 65536)
  prog o := .read fun d =>
    if d.audCh < b.first + b.count then reject o.id Reason.badChannel
    else finish o.id 0 ((List.range b.count).flatMap fun k =>
      let c := b.first + k
      if b.inputs then [d.rd (R.AIN_BIND c), d.rd (R.AIN_STATE c)]
      else [d.rd (R.AOUT_ROUTE c), d.rd (R.AOUT_GAIN c), d.rd (R.AOUT_METER c)])

/-! ### The rows -/

/-- AUDIO_MAP (R210, R227). -/
def execAudioMap (h : Hdr) (b : AudioMapBody) (s : State) : Host.Outcome State Fault Refusal :=
  perform .core (rygus h (.audioMap b) (audioMapSpec b)) s

/-- AUDIO_BIND (R201, R227). -/
def execAudioBind (h : Hdr) (b : AudioBindBody) (s : State) : Host.Outcome State Fault Refusal :=
  perform .core (rygus h (.audioBind b) (audioBindSpec b)) s

/-- AUDIO_GROUP (R219). -/
def execAudioGroup (h : Hdr) (b : AudioGroupBody) (s : State) : Host.Outcome State Fault Refusal :=
  perform .core (rygus h (.audioGroup b) (audioGroupSpec b)) s

/-- AUDIO_TONE (R217). -/
def execAudioTone (h : Hdr) (b : AudioToneBody) (s : State) : Host.Outcome State Fault Refusal :=
  perform .core (rygus h (.audioTone b) (audioToneSpec b)) s

/-- AUDIO_MONITOR (R227). -/
def execAudioMonitor (h : Hdr) (b : AudioMonitorBody) (s : State) : Host.Outcome State Fault Refusal :=
  perform .core (rygus h (.audioMonitor b) (audioMonitorSpec b)) s

/-- AUDIO_QUERY (R227). -/
def execAudioQuery (h : Hdr) (b : AudioQueryBody) (s : State) : Host.Outcome State Fault Refusal :=
  perform .core (rygus h (.audioQuery b) (audioQuerySpec b)) s

/-- AUDIO_INPUT_RETURN (R209): an input that has had 8 consecutive complete blocks returns. -/
def execAudioInputReturn (c : ChanId) (s : State) : Host.Outcome State Fault Refusal :=
  perform .core (doWhen (fun d => d.on .aud && (d.ainState c == 1 || d.ainState c == 5) && d.fld (F.AIN_BIND_kind c) ≠ 4 &&
      decide (8 ≤ (d.ain c).complete + (if d.audN ≤ (d.ain c).q.length ∨ d.fld (F.AIN_BIND_kind c) = 5 then 1 else 0)))
    (audReturn c)) s

/-- ASRC_RETURN (R205): an AUTO input that has been synchronous for 1 s returns its channel. -/
def execAsrcReturn (c : ChanId) (s : State) : Host.Outcome State Fault Refusal :=
  perform .core (doWhen (fun d => d.fld (F.AIN_BIND_asrc c) == 0 && d.ainState c == 2 && (d.ain c).chan.isSome &&
      decide (((d.ain c).syncAt.getD d.x.time.clk) + secU ≤ d.x.time.clk))
    (seq [ainUpd c fun m => { m with chan := none }, asrcCount])) s

/-- LOUDNESS_UPDATE (R222). -/
def execLoudnessUpdate (s : State) : Host.Outcome State Fault Refusal := perform .core loudUpdate s

/-- SILENCE_DETECT (R223): a detector whose output has been silent for its duration. -/
def execSilenceDetect (d : Fin 2048) (s : State) : Host.Outcome State Fault Refusal :=
  perform .core (doWhen (fun e => e.on .aud && e.flag (F.AUD_SIL_CTRL_enable d) &&
      decide (e.fld (F.AUD_SIL_CTRL_duration d) * 1000 ≤ KV.get 0 e.x.aud.silent d))
    (seq [setF (F.AUD_SIL_STATUS_silent d) 1, raise F.AUD_ALARM_silence])) s

/-- TWIN_AUDIO_MSG (R206): a standby in lockstep keeps the treatments of blocks it has not begun. -/
def execTwinAudioMsg (m : AudioMsg) (s : State) : Host.Outcome State Fault Refusal :=
  perform .core (seq [twinTake 2, doWhen (fun d => d.lockstep && decide (d.rd64 R.AUD_BLOCK_LO R.AUD_BLOCK_HI < m.block))
    (audUpd fun a => { a with mirrors := a.mirrors ++ [m] })]) s

/-- What a write of 1 to AUD_CNT_CLEAR clears (R228). -/
def audCntClear : Prog :=
  clearRegs [R.AUD_CNT_LOST, R.AUD_CNT_SLIP, R.AUD_CNT_LATE, R.AUD_CNT_CLIP, R.AUD_CNT_LOCAL,
  R.AUD_CNT_SUPERSEDED, R.AUD_CNT_UE]

/-- AUD_CNT_CLEAR (R228). -/
def execAudCntClear (s : State) : Host.Outcome State Fault Refusal := perform .core audCntClear s

end Sys2Proof.Machine
end

