-- ==== Sys2Proof/Machine/Crypto.lean ====
section
/-!
DEFINITION. The standard functions that the spec names for signatures and tags (R433, R434, R465, R514): SHA-256 and SHA-384
(FIPS 180-4), HMAC-SHA-256 (FIPS 198-1) and the verification of an ECDSA signature over P-384 (FIPS 186-4). The spec names
them and does not write them out (PRESUMED from the standards, assumption 26).
-/

namespace Sys2Proof.Machine

/-! ### SHA-2 -/

/-- What tells the members of SHA-2 apart: the word's width, the twelve shift counts of its functions (three each for a,
e, the second and the fifteenth word of the schedule), the round constants, the initial value, and the bytes answered. -/
structure ShaKind where
  w : Nat
  shifts : List Nat
  k : List Nat
  init : List Nat
  bytes : Nat
  deriving DecidableEq, Repr

/-- A word of `w` bits rotated right. -/
def rotr (w n x : Nat) : Nat := (x >>> n ||| x <<< (w - n)) % 2 ^ w

/-- The exclusive or of two rotations and, from the third count, a rotation or a shift. -/
def shaSigma (p : ShaKind) (i : Nat) (shift : Bool) (x : Nat) : Nat :=
  let n := fun j => p.shifts.getD (i + j) 0
  rotr p.w (n 0) x ^^^ rotr p.w (n 1) x ^^^ (if shift then x >>> n 2 else rotr p.w (n 2) x)

/-- One round: the eight working words and the sixteen words of the schedule to come. -/
def shaRound (p : ShaKind) (s : List Nat × List Nat) (k : Nat) : List Nat × List Nat :=
  let v := fun i => s.1.getD i 0
  let x := fun i => s.2.getD i 0
  let t1 := v 7 + shaSigma p 3 false (v 4) + ((v 4 &&& v 5) ^^^ ((2 ^ p.w - 1 - v 4) &&& v 6)) + k + x 0
  let t2 := shaSigma p 0 false (v 0) + ((v 0 &&& v 1) ^^^ (v 0 &&& v 2) ^^^ (v 1 &&& v 2))
  let y := shaSigma p 9 true (x 14) + x 9 + shaSigma p 6 true (x 1) + x 0
  ([(t1 + t2) % 2 ^ p.w, v 0, v 1, v 2, (v 3 + t1) % 2 ^ p.w, v 4, v 5, v 6], s.2.drop 1 ++ [y % 2 ^ p.w])

/-- One block of sixteen words. -/
def shaBlock (p : ShaKind) (h : List Nat) (block : List Byte) : List Nat :=
  let n := p.w / 8
  let ws := (List.range 16).map fun i => ofBeBytes ((block.drop (n * i)).take n)
  List.zipWith (fun a b => (a + b) % 2 ^ p.w) h (p.k.foldl (shaRound p) (h, ws)).1

/-- The padding after a message of some bytes: a one bit, zeros, and the length in bits. -/
def shaPad (p : ShaKind) (n : Nat) : List Byte :=
  let len := p.w / 4
  let block := 2 * p.w
  0x80#8 :: List.replicate ((2 * block - (n + 1 + len) % block) % block) 0#8 ++ beBytes len (8 * n)

/-- The blocks of a padded message. -/
def shaBlocks (p : ShaKind) (h : List Nat) (m : List Byte) : Nat → List Nat
  | 0 => h
  | n + 1 => shaBlocks p (shaBlock p h (m.take (2 * p.w))) (m.drop (2 * p.w)) n

/-- A member of SHA-2 of a message. -/
def sha2 (p : ShaKind) (m : List Byte) : List Byte :=
  let x := m ++ shaPad p m.length
  ((shaBlocks p p.init x (x.length / (2 * p.w))).flatMap (beBytes (p.w / 8))).take p.bytes

def shaK256A : List Nat :=
  [0x428a2f98, 0x71374491, 0xb5c0fbcf, 0xe9b5dba5, 0x3956c25b, 0x59f111f1, 0x923f82a4, 0xab1c5ed5,
   0xd807aa98, 0x12835b01, 0x243185be, 0x550c7dc3, 0x72be5d74, 0x80deb1fe, 0x9bdc06a7, 0xc19bf174,
   0xe49b69c1, 0xefbe4786, 0x0fc19dc6, 0x240ca1cc, 0x2de92c6f, 0x4a7484aa, 0x5cb0a9dc, 0x76f988da,
   0x983e5152, 0xa831c66d, 0xb00327c8, 0xbf597fc7, 0xc6e00bf3, 0xd5a79147, 0x06ca6351, 0x14292967]

def shaK256B : List Nat :=
  [0x27b70a85, 0x2e1b2138, 0x4d2c6dfc, 0x53380d13, 0x650a7354, 0x766a0abb, 0x81c2c92e, 0x92722c85,
   0xa2bfe8a1, 0xa81a664b, 0xc24b8b70, 0xc76c51a3, 0xd192e819, 0xd6990624, 0xf40e3585, 0x106aa070,
   0x19a4c116, 0x1e376c08, 0x2748774c, 0x34b0bcb5, 0x391c0cb3, 0x4ed8aa4a, 0x5b9cca4f, 0x682e6ff3,
   0x748f82ee, 0x78a5636f, 0x84c87814, 0x8cc70208, 0x90befffa, 0xa4506ceb, 0xbef9a3f7, 0xc67178f2]

/-- The round constants of SHA-256. -/
def shaK256 : List Nat := shaK256A ++ shaK256B

def shaK512A : List Nat :=
  [0x428a2f98d728ae22, 0x7137449123ef65cd, 0xb5c0fbcfec4d3b2f, 0xe9b5dba58189dbbc, 0x3956c25bf348b538,
   0x59f111f1b605d019, 0x923f82a4af194f9b, 0xab1c5ed5da6d8118, 0xd807aa98a3030242, 0x12835b0145706fbe,
   0x243185be4ee4b28c, 0x550c7dc3d5ffb4e2, 0x72be5d74f27b896f, 0x80deb1fe3b1696b1, 0x9bdc06a725c71235,
   0xc19bf174cf692694, 0xe49b69c19ef14ad2, 0xefbe4786384f25e3, 0x0fc19dc68b8cd5b5, 0x240ca1cc77ac9c65]

def shaK512B : List Nat :=
  [0x2de92c6f592b0275, 0x4a7484aa6ea6e483, 0x5cb0a9dcbd41fbd4, 0x76f988da831153b5, 0x983e5152ee66dfab,
   0xa831c66d2db43210, 0xb00327c898fb213f, 0xbf597fc7beef0ee4, 0xc6e00bf33da88fc2, 0xd5a79147930aa725,
   0x06ca6351e003826f, 0x142929670a0e6e70, 0x27b70a8546d22ffc, 0x2e1b21385c26c926, 0x4d2c6dfc5ac42aed,
   0x53380d139d95b3df, 0x650a73548baf63de, 0x766a0abb3c77b2a8, 0x81c2c92e47edaee6, 0x92722c851482353b]

def shaK512C : List Nat :=
  [0xa2bfe8a14cf10364, 0xa81a664bbc423001, 0xc24b8b70d0f89791, 0xc76c51a30654be30, 0xd192e819d6ef5218,
   0xd69906245565a910, 0xf40e35855771202a, 0x106aa07032bbd1b8, 0x19a4c116b8d2d0c8, 0x1e376c085141ab53,
   0x2748774cdf8eeb99, 0x34b0bcb5e19b48a8, 0x391c0cb3c5c95a63, 0x4ed8aa4ae3418acb, 0x5b9cca4f7763e373,
   0x682e6ff3d6b2b8a3, 0x748f82ee5defb2fc, 0x78a5636f43172f60, 0x84c87814a1f0ab72, 0x8cc702081a6439ec]

def shaK512D : List Nat :=
  [0x90befffa23631e28, 0xa4506cebde82bde9, 0xbef9a3f7b2c67915, 0xc67178f2e372532b, 0xca273eceea26619c,
   0xd186b8c721c0c207, 0xeada7dd6cde0eb1e, 0xf57d4f7fee6ed178, 0x06f067aa72176fba, 0x0a637dc5a2c898a6,
   0x113f9804bef90dae, 0x1b710b35131c471b, 0x28db77f523047d84, 0x32caab7b40c72493, 0x3c9ebe0a15c9bebc,
   0x431d67c49c100d4c, 0x4cc5d4becb3e42b6, 0x597f299cfc657e2a, 0x5fcb6fab3ad6faec, 0x6c44198c4a475817]

/-- The round constants of SHA-384. -/
def shaK512 : List Nat := shaK512A ++ shaK512B ++ shaK512C ++ shaK512D

/-- SHA-256. -/
def sha256Kind : ShaKind :=
  { w := 32, shifts := [2, 13, 22, 6, 11, 25, 7, 18, 3, 17, 19, 10], k := shaK256, bytes := 32,
    init := [0x6a09e667, 0xbb67ae85, 0x3c6ef372, 0xa54ff53a, 0x510e527f, 0x9b05688c, 0x1f83d9ab, 0x5be0cd19] }

/-- SHA-384. -/
def sha384Kind : ShaKind :=
  { w := 64, shifts := [28, 34, 39, 14, 18, 41, 1, 8, 7, 19, 61, 6], k := shaK512, bytes := 48,
    init := [0xcbbb9d5dc1059ed8, 0x629a292a367cd507, 0x9159015a3070dd17, 0x152fecd8f70e5939,
      0x67332667ffc00b31, 0x8eb44a8768581511, 0xdb0c2e0d64f98fa7, 0x47b5481dbefa4fa4] }

/-- SHA-256 of a message. -/
def sha256 (m : List Byte) : List Byte := sha2 sha256Kind m

/-- SHA-384 of a message (R465, R514). -/
@[irreducible] def sha384 (m : List Byte) : List Byte := sha2 sha384Kind m

/-- HMAC-SHA-256 of a message under a key (R433, R434). -/
@[irreducible] def hmacSha256 (key m : List Byte) : List Byte :=
  let k := if 64 < key.length then sha256 key else key
  let pad := fun (x : Byte) => (k ++ List.replicate (64 - k.length) 0#8).map (· ^^^ x)
  sha256 (pad 0x5C#8 ++ sha256 (pad 0x36#8 ++ m))

/-! ### P-384 -/

/-- The field's prime. -/
def p384 : Nat := 2 ^ 384 - 2 ^ 128 - 2 ^ 96 + 2 ^ 32 - 1

/-- The order of the base point. -/
def p384Order : Nat :=
  0xffffffffffffffffffffffffffffffffffffffffffffffffc7634d81f4372ddf581a0db248b0a77aecec196accc52973

/-- The curve's constant: y² = x³ − 3x + b. -/
def p384B : Nat :=
  0xb3312fa7e23ee7e4988e056be3f82d19181d9c6efe8141120314088f5013875ac656398d8a2ed19d2a85c8edd3ec2aef

/-- The base point. -/
def p384Base : Nat × Nat :=
  (0xaa87ca22be8b05378eb1c71ef320ad746e1d3b628ba79b9859f741e082542a385502f25dbf55296c3a545e3872760ab7,
   0x3617de4a96262c6f5d9e98bf9292dc29f8f41dbd289a147ce9da3113b5f0b8c00a60b1ce1d7e819d7a431d7c90ea0e5f)

/-- A difference modulo `m` of numbers below `m`. -/
def subMod (m a b : Nat) : Nat := (a + (m - b % m)) % m

/-- A power modulo `m` by the low bits of the exponent. -/
def powMod (m b e : Nat) : Nat → Nat
  | 0 => 1 % m
  | n + 1 => let h := powMod m (b * b % m) (e / 2) n; if e % 2 = 1 then h * b % m else h

/-- The inverse modulo a prime below 2^384. -/
def invMod (m a : Nat) : Nat := powMod m (a % m) (m - 2) 384

/-- A point in Jacobian coordinates; z = 0 is the point at infinity. -/
structure Jac where
  x : Nat
  y : Nat
  z : Nat
  deriving DecidableEq, Repr

/-- Twice a point. -/
def Jac.double (a : Jac) : Jac :=
  let p := p384
  let yy := a.y * a.y % p
  let zz := a.z * a.z % p
  let s := 4 * a.x * yy % p
  let m := 3 * ((a.x + zz) * subMod p a.x zz) % p
  let x := subMod p (m * m % p) (2 * s % p)
  { x := x, y := subMod p (m * subMod p s x % p) (8 * yy * yy % p), z := 2 * a.y * a.z % p }

/-- The sum of two points. -/
def Jac.add (a b : Jac) : Jac :=
  let p := p384
  if a.z = 0 then b
  else if b.z = 0 then a
  else
    let az := a.z * a.z % p
    let bz := b.z * b.z % p
    let u := a.x * bz % p
    let v := b.x * az % p
    let s := a.y * bz * b.z % p
    let t := b.y * az * a.z % p
    if u = v then if s = t then a.double else { x := 1, y := 1, z := 0 }
    else
      let h := subMod p v u
      let r := subMod p t s
      let hh := h * h % p
      let hhh := h * hh % p
      let q := u * hh % p
      let x := subMod p (subMod p (r * r % p) hhh) (2 * q % p)
      { x := x, y := subMod p (r * subMod p q x % p) (s * hhh % p), z := h * a.z * b.z % p }

/-- The sum of `m` times one point and `n` times another, from the highest of some bits. -/
def Jac.combine (a b c : Jac) (m n : Nat) : Nat → Jac → Jac
  | 0, acc => acc
  | i + 1, acc =>
    let d := acc.double
    Jac.combine a b c m n i
      (match m.testBit i, n.testBit i with
       | true, true => d.add c
       | true, false => d.add a
       | false, true => d.add b
       | false, false => d)

/-- The point lies on the curve. -/
def onCurve (x y : Nat) : Bool :=
  decide (x < p384) && decide (y < p384) && y * y % p384 == subMod p384 (x * x * x + p384B) (3 * x)

/-- The signature (r, s) holds for a digest under the public key (x, y) (R465, R514). -/
@[irreducible] def ecdsaHolds (x y : Nat) (digest : List Byte) (r s : Nat) : Bool :=
  let w := invMod p384Order s
  let a : Jac := { x := p384Base.1, y := p384Base.2, z := 1 }
  let b : Jac := { x := x, y := y, z := 1 }
  let q := Jac.combine a b (a.add b) (ofBeBytes digest * w % p384Order) (r * w % p384Order) 384 { x := 1, y := 1, z := 0 }
  onCurve x y && decide (0 < r) && decide (r < p384Order) && decide (0 < s) && decide (s < p384Order) &&
    decide (q.z ≠ 0) && decide (q.x * invMod p384 (q.z * q.z) % p384 % p384Order = r)

end Sys2Proof.Machine
end

