-- ==== Sys2Proof/Machine/Addr.lean ====
section
/-!
DEFINITION. From BAR0 offsets to register words: the word that lies at an offset (R4, R447, R448).
-/

namespace Sys2Proof.Machine

/-- The index of a dimension at a distance from the base, with what is left of the distance. -/
def dimIndex (off : Nat) : List (Nat × Nat) → Option (List Nat)
  | [] => if off = 0 then some [] else none
  | (n, s) :: r =>
    let i := off / s
    if i < n then (dimIndex (off % s) r).map (i :: ·) else none

/-- The word of a kind that lies at an offset. -/
def kindAt (off : Nat) (k : RK) : Option Reg :=
  if off < (regInfo k).base then none
  else (dimIndex (off - (regInfo k).base) (regInfo k).dims).map fun l => ⟨k, l.getD 0 0, l.getD 1 0, l.getD 2 0⟩

/-- The register word at a BAR0 offset; none at an address with no register. -/
def regAt (off : Nat) : Option Reg :=
  match regGroups.find? fun g => decide (g.1 ≤ off) && decide (off ≤ g.2.1) with
  | some (_, _, ks) => ks.findSome? (kindAt off)
  | none => none

/-- The table windows that show what no register word holds: the alarm history (R491), and the 3D LUT, curve and
coefficient views (R167). -/
def tableView (off : Nat) : Bool :=
  (decide (0x28000 ≤ off) && decide (off < 0x30000)) ||
  (decide (0x1800000 ≤ off) && decide (off < 0x1800000 + 35937 * 8)) ||
  (decide (0x1880000 ≤ off) && decide (off < 0x188C000) && decide (off % 0x2000 < 4100)) ||
  (decide (0x1890000 ≤ off) && decide (off < 0x1893000))

/-- A BAR0 offset below the aperture lies in a register or a table-window word. -/
def offsetMapped (off : Nat) : Bool :=
  off < 0x2000000 && (tableView off || (regAt (off / 4 * 4)).isSome)

/-! ### Instances (R542) -/

/-- Where the structure of a block's instance begins, and its bytes (R542). -/
def instBase (b i : Nat) : Option (Nat × Nat) :=
  let one := fun (first count base size : Nat) =>
    if first ≤ i ∧ i < first + count then some (base + (i - first) * size, size) else none
  match b with
  | 0 => one 0 1 0xE00000 0x1000 <|> one 1 16 0xE01000 0x100 <|> one 17 32 0xE02000 0x40
  | 1 => one 0 1 0 0x10000
  | 2 => one 0 1 0x40000 0x1000 <|> one 1 4 0x41000 0x400 <|> one 5 1 0x42000 0x1000 <|> one 6 16 0x43000 0x40 <|>
      one 22 32 0x44000 0x40 <|> one 54 1 0x45000 0x1000 <|> one 55 64 0x46000 0x20 <|> one 119 97 0x48000 0x10
  | 3 => one 0 1024 0x800000 0x400
  | 4 => one 0 1024 0x900000 0x400 <|> one 1024 16 0x1008000 0x10
  | 5 => one 0 512 0xA00000 0x800
  | 6 => one 0 32 0xB00000 0x4000 <|> one 32 1024 0xB80000 0x20
  | 7 => one 0 1 0xC00000 0x100000
  | 8 => one 0 16 0xD00000 0x1000
  | 9 => one 0 96 0x300000 0x1000
  | 10 => one 0 96 0x200000 0x1000 <|> one 96 24 0x260000 0x100
  | 11 => one 0 96 0x400000 0x1000
  | 12 => one 0 97 0x500000 0x1000 <|> one 97 1 0x570000 0x28
  | 13 => one 0 8192 0x610000 0x40 <|> one 8192 8192 0x700000 0x40
  | 14 => one 0 1 0x100000 0x10000 <|> one 1 64 0x110000 0x400
  | 15 => one 0 1 0x80000 0x10000
  | 16 => one 0 1 0x30000 0x1000 <|> one 1 1024 0x31000 8
  | 17 => one 0 1 0x10000 0x10000
  | 18 => one 0 1 0x20000 0x10000
  | _ => none

/-- The register word at an offset within an instance (R542); none outside its structure or off a word. The audio block's
register map (R229) includes its table windows, whose offsets also count from the block base (assumption 59). -/
def instReg (b i off : Nat) : Option Reg :=
  match instBase b i with
  | some (base, size) =>
    if (off < size ∨ (b = 7 ∧ 0x800000 ≤ off ∧ off < 0x8C0000)) ∧ off % 4 = 0 then regAt (base + off) else none
  | none => none

end Sys2Proof.Machine
end

