-- ==== Sys2Proof/Machine/Hbm.lean ====
section
/-!
DEFINITION. The memory system (R353 to R377): addresses, urgency, the pseudo-channel controllers' queues, refresh and
neighbour refresh, errors and poisoning, scrubbing, repair, training, and the sliding aperture. The device's own stores
read and write `mem` as whole transfers; the queues here serve the transactions the matrix grants (14_matrix.md).
-/

namespace Sys2Proof.Machine

/-- Changes the memory system's typed state. -/
def hbmUpd (f : HbmMem → HbmMem) : Prog := ext fun x => { x with hbm := f x.hbm }

/-- A channel as a function. -/
def hbmChFn (c : Nat) : Fn := .hbmCh (Fin.ofNat 64 c)

/-! ### REPLACE_REQ_N (R512) -/

/-- A reason asserts REPLACE_REQ_N: the first since its release is kept. -/
def replaceSet (code : Nat) : Prog :=
  .read fun d => seq [
    doIf (d.rd R.PWR_REPLACE == 0) (seq [
      wr R.PWR_REPLACE_FIRST code, setF F.PWR_STATUS_replace_req 1, raise F.PWR_ALARM_replace_req]),
    setF ⟨R.PWR_REPLACE, code, 1⟩ 1]

/-- A reason clears; the pin is released with the last. -/
def replaceClear (code : Nat) : Prog :=
  seq [setF ⟨R.PWR_REPLACE, code, 1⟩ 0,
    .read fun d => setB F.PWR_STATUS_replace_req (d.rd R.PWR_REPLACE ≠ 0)]

/-! ### Addresses (R353 to R355) -/

/-- Where a data address lies (R355): pseudo-channel, bank, data row index, physical row, check row, column burst, and the
check burst that covers it. -/
structure HbmLoc where
  pc : Nat
  bank : Nat
  index : Nat
  row : Nat
  check : Nat
  col : Nat
  checkBurst : Nat
  deriving DecidableEq, Repr

/-- The grain's exponent G (R355). -/
def Dev.grainLog (d : Dev) : Nat := clampN 8 16 (d.fld F.HBM_CTRL_grain_log2)

/-- The address of a byte within its pseudo-channel, and back. -/
def pcLocal (g a : Nat) : Nat := a / 2 ^ g / 128 * 2 ^ g + a % 2 ^ g
def pcGlobal (g p l : Nat) : Nat := (l / 2 ^ g * 128 + p) * 2 ^ g + l % 2 ^ g

/-- The decoding of a data address (R355). -/
def hbmDecode (g : Nat) (hash : Bool) (a : Nat) : HbmLoc :=
  let p := a / 2 ^ g % 128
  let b := pcLocal g a / 64
  let r := b / 512
  let bank := b / 16 % 32
  { pc := p, bank := if hash then bank ^^^ (r % 32) else bank, index := r, row := r / 8 * 9 + r % 8
    check := r / 8 * 9 + 8, col := b % 16, checkBurst := r % 8 * 2 + b % 16 / 8 }

/-- The decoding in force. -/
def Dev.hbmLoc (d : Dev) (a : Nat) : HbmLoc := hbmDecode d.grainLog (d.flag F.HBM_CTRL_hash_en) a

/-- The channel of a pseudo-channel (R353). -/
def pcChan (p : Nat) : Nat := p % 4 * 16 + p / 4 % 16

/-- The data bursts one check burst covers: the eight of an aligned 512 bytes of the pseudo-channel (R357). -/
def Dev.checkGroup (d : Dev) (burst : Nat) : List Nat :=
  let g := d.grainLog
  let a := burst * 64
  (List.range 8).map fun i => pcGlobal g (a / 2 ^ g % 128) (pcLocal g a / 512 * 512 + 64 * i) / 64

/-- The key of a bank in the sparse maps. -/
def bankKey (pc bank : Nat) : Nat := 32 * pc + bank

/-- The physical row an access uses: the spare once the row is remapped (R368). -/
def Dev.physRow (d : Dev) (r : HbmRow) : Nat :=
  match d.x.hbm.remap.find? (·.1 == r) with | some (_, s) => s | none => r.row

/-! ### The error log (R377) -/

/-- The log's registers follow it. -/
def elogSync : Prog :=
  .read fun d => seq [
    setF F.HBM_ELOG_STATUS_entries d.x.hbm.elog.length,
    each (List.range 6) fun w => wr (R.HBM_ELOG_E w) ((d.x.hbm.elog.headD []).getD w 0)]

/-- Adds an entry: a full log drops it until an entry is popped. -/
def elogPush (port : Nat) (scrub : Bool) (e : HbmErr) : Prog :=
  .read fun d =>
    if 64 ≤ d.x.hbm.elog.length then seq [setF F.HBM_ELOG_STATUS_full 1, raise F.HBM_ALARM_elog_full]
    else
      let a := e.burst * 64
      let l := d.hbmLoc a
      let row := if e.check then l.check else d.physRow ⟨l.pc, l.bank, l.row⟩
      let col := if e.check then l.checkBurst else l.col
      seq [
        hbmUpd fun h => { h with elog := h.elog ++ [
          [2 ^ 31 + boolBit e.ue * 2 ^ 30 + boolBit scrub * 2 ^ 29 + boolBit e.check * 2 ^ 28 + l.pc * 2 ^ 16 +
            port % 64 * 2 ^ 8 + e.syndrome % 256, a % 2 ^ 32, a / 2 ^ 32, row * 2 ^ 16 + l.bank * 2 ^ 11 + col,
           d.htSec % 2 ^ 32, d.htNs]] },
        elogSync]

/-- Removes the oldest entry. -/
def elogPop : Prog :=
  doWhen (fun d => !d.x.hbm.elog.isEmpty) (seq [
    hbmUpd fun h => { h with elog := h.elog.drop 1 }, setF F.HBM_ELOG_STATUS_full 0, elogSync])

/-! ### Errors (R364, R365, R368, R370, R375) -/

/-- A data row becomes a repair candidate (R368): it is copied to a spare; where the remap table is full and the bank
group has no hard repair resources, the device asks to be replaced (R370). -/
def repairCandidate (r : HbmRow) : Prog :=
  .read fun d =>
    let h := d.x.hbm
    let used := (h.remap.filter fun e => e.1.pc == r.pc).length
    let c := pcChan r.pc
    if h.copying.contains r || h.remap.any (·.1 == r) then .nop
    else if used < 64 then hbmUpd fun h => { h with copying := h.copying ++ [r] }
    else doIf (d.fld (F.HBM_CH_REPAIR_hard c) == 0)
      (seq [statusAlarm F.HBM_STATUS_repair_exhausted F.HBM_ALARM_repair_exhausted true, replaceSet 1])

/-- A correctable error (R364, R368, R370). -/
def hbmCorrected (port : Nat) (scrub : Bool) (e : HbmErr) : Prog :=
  .read fun d =>
    let l := d.hbmLoc (e.burst * 64)
    let c := pcChan l.pc
    let now := d.x.time.clk
    let r : HbmRow := ⟨l.pc, l.bank, l.row⟩
    let span := d.fld F.HBM_REPAIR_window_h * 3600 * secU
    let times := now :: within now (3600 * secU) (KV.get [] d.x.hbm.ceTimes c)
    let log := d.flag F.HBM_ELOG_CTRL_log_ce &&
      (match KV.get 0 d.x.hbm.ceLogged c with | 0 => true | t => decide (t + 1000000 * nsU ≤ now + 1))
    seq [
      inc R.HBM_CNT_CE, inc (R.HBM_CH_CNT_CE c), raise F.HBM_ALARM_ce,
      hbmUpd fun h => { h with
        ceTimes := KV.set [] h.ceTimes c times
        rowCe := if e.check then h.rowCe else
          (r, l.col, now) :: h.rowCe.filter fun x => decide (now < x.2.2 + span) && !(x.1 == r && x.2.1 == l.col) },
      doIf (decide (d.fld F.HBM_REPAIR_ce_rate < times.length)) (seq [raise F.HBM_ALARM_ce_rate, replaceSet 3]),
      doIf log (seq [elogPush port scrub e, hbmUpd fun h => { h with ceLogged := KV.set 0 h.ceLogged c (now + 1) }]),
      doWhen (fun d => !e.check && decide (d.fld F.HBM_REPAIR_row_ce ≤ (d.x.hbm.rowCe.filter (·.1 == r)).length))
        (repairCandidate r)]

/-- An uncorrectable error (R364, R365, R368, R375): the bursts it reaches are poisoned; more than 64 in a second fault the
channel. -/
def hbmUncorrected (port : Nat) (scrub : Bool) (e : HbmErr) : Prog :=
  .read fun d =>
    let l := d.hbmLoc (e.burst * 64)
    let c := pcChan l.pc
    let now := d.x.time.clk
    let times := now :: within now secU (KV.get [] d.x.hbm.ueTimes c)
    let hit := if e.check then d.checkGroup e.burst else [e.burst]
    seq [
      inc R.HBM_CNT_UE, inc (R.HBM_CH_CNT_UE c), raise F.HBM_ALARM_ue,
      ext fun x => { x with poison := x.poison ++ hit.filter fun q => !x.poison.contains q },
      hbmUpd fun h => { h with ueTimes := KV.set [] h.ueTimes c times },
      elogPush port scrub e,
      doIf (!e.check) (repairCandidate ⟨l.pc, l.bank, l.row⟩),
      doIf (decide (64 < times.length)) (seq [fnFault (hbmChFn c) 3, fnFault .hbm 1])]

/-- An error the check finds. -/
def hbmError (port : Nat) (scrub : Bool) (e : HbmErr) : Prog :=
  if e.ue then hbmUncorrected port scrub e else hbmCorrected port scrub e

/-! ### Urgency and priority (R359, R360, R384) -/

/-- A port's effective priority at a target (R360). -/
def Dev.portPrio (d : Dev) (m target : Nat) : Nat :=
  min 7 (bitsOf (d.rd (R.MTX_P_PRIO m (target / 8))) (4 * (target % 8)) 3 + d.fld (F.HBM_QOS_STATUS_u m))

/-- The issue of a port's oldest outstanding transaction, of reads only where asked. -/
def Dev.oldestTx (d : Dev) (m : Nat) (reads : Bool) : Option Nat :=
  let l := (d.x.mtx.waiting ++ d.x.mtx.flight.map (·.tx)).filter fun t => t.port == m && !(reads && t.req.write)
  (l.map (·.issued)).min?

/-- A port's urgency (R359); `slack` is the time in ns until the line that needs its oldest read is emitted. -/
def Dev.urgency (d : Dev) (m slack : Nat) : Nat :=
  let t := d.fld (F.HBM_QOS_TARGET m) * nsU
  if d.flag (F.HBM_QOS_CTRL_source m) then
    match d.oldestTx m true with
    | none => 0
    | some _ => let s := slack * nsU
                if 4 * t ≤ s then 0 else if 2 * t ≤ s then 1 else if t ≤ s then 2 else 3
  else
    match d.oldestTx m false with
    | none => 0
    | some i => let a := d.x.time.clk - i
                if 4 * a < t then 0 else if 2 * a < t then 1 else if a < t then 2 else 3

/-- Every port's urgency is evaluated. -/
def urgencyEval (slack : List Nat) : Prog :=
  .read fun d => each (List.range 56) fun m => setF (F.HBM_QOS_STATUS_u m) (d.urgency m (slack.getD m 0))

/-! ### The controllers (R358, R361, R363) -/

/-- The 64-byte bursts a transaction covers. -/
def txBursts (t : MtxReq) : List Nat := (List.range t.beats).map (t.addr / 64 + ·)

/-- Two transactions touch one burst. -/
def txOverlap (a b : MtxReq) : Bool := decide (a.addr < b.addr + 64 * b.beats) && decide (b.addr < a.addr + 64 * a.beats)

/-- A request's row is open (R361). -/
def Dev.rowHit (d : Dev) (t : MtxReq) : Bool :=
  let l := d.hbmLoc t.addr
  KV.get none d.x.hbm.open_ (bankKey l.pc l.bank) == some l.row

/-- The order in which requests are served (R361): effective priority, more than 2 µs of waiting, row hits, then age. -/
def Dev.servedBefore (d : Dev) (a b : HbmEntry) : Bool :=
  let t := pcChan (d.hbmLoc a.tx.req.addr).pc
  let old := fun (e : HbmEntry) => decide (e.arrived + 2000 * nsU < d.x.time.clk)
  let (pa, pb) := (d.portPrio a.tx.port t, d.portPrio b.tx.port t)
  if pa ≠ pb then decide (pb < pa)
  else if old a ≠ old b then old a
  else if !old a && d.rowHit a.tx.req ≠ d.rowHit b.tx.req then d.rowHit a.tx.req
  else decide (a.arrived < b.arrived)

/-- The request of a queue that is served first; equals keep their order. -/
def Dev.firstServed (d : Dev) : List HbmEntry → Option HbmEntry
  | [] => none
  | e :: r => match d.firstServed r with | some f => if d.servedBefore f e then some f else some e | none => some e

/-- The request a controller serves next, and whether it is a write: writes are drained while 48 or more are queued, while
no read is queued or while one's port is at u = 3; a request to a burst that an earlier request touches waits for it. -/
def Dev.hbmPick (d : Dev) (pc : Nat) : Option (HbmEntry × Bool) :=
  let rs := KV.get [] d.x.hbm.reads pc
  let ws := KV.get [] d.x.hbm.writes pc
  let free := fun (e : HbmEntry) => !((rs ++ ws).any fun o =>
    o ≠ e && decide (o.arrived < e.arrived) && txOverlap o.tx.req e.tx.req)
  let drain := decide (48 ≤ ws.length) || rs.isEmpty || ws.any fun e => d.fld (F.HBM_QOS_STATUS_u e.tx.port) == 3
  let r := (d.firstServed (rs.filter free)).map (·, false)
  let w := (d.firstServed (ws.filter free)).map (·, true)
  if drain then w.orElse fun _ => r else r.orElse fun _ => w

/-- An activate (R363): the row is open, and with probability 2^(−rate_log2) it is selected for neighbour refresh. The
hardware generator's number is a free value. -/
def hbmActivate (l : HbmLoc) : Prog :=
  .read fun d =>
    let k := bankKey l.pc l.bank
    let rate := clampN 4 12 (d.fld F.HBM_PNR_rate_log2)
    let pick := d.flag F.HBM_PNR_enable && Config.freeValue d.x.freeCtr % 2 ^ rate == 0
    doIf (KV.get none d.x.hbm.open_ k ≠ some l.row) (seq [
      hbmUpd fun h => { h with open_ := KV.set none h.open_ k (some l.row) },
      ext fun x => { x with freeCtr := x.freeCtr + 1 },
      doIf pick (if 4 ≤ (KV.get [] d.x.hbm.pnr k).length then inc R.HBM_CNT_PNR_DROP
        else hbmUpd fun h => { h with pnr := KV.upd [] h.pnr k (· ++ [l.row]) })])

/-- The check burst of a data burst is held in the controller's cache of 64 (R358): whether it was there. -/
def checkId (l : HbmLoc) : Nat := (l.bank * 32768 + l.check) * 16 + l.checkBurst
def Dev.checkCached (d : Dev) (l : HbmLoc) : Bool := (KV.get [] d.x.hbm.cache l.pc).contains (checkId l)
def cacheCheck (l : HbmLoc) : Prog :=
  hbmUpd fun h => { h with cache := KV.upd [] h.cache l.pc fun c => (checkId l :: c.filter (· ≠ checkId l)).take 64 }

/-- A transaction's answer is ready for its port. -/
def txAnswer (t : MtxTx) (data : List Byte) (poison : Bool) : Prog :=
  ext fun x => { x with mtx := { x.mtx with flight := x.mtx.flight.map fun f =>
    if f.tx = t ∧ f.answer.isNone then { f with answer := some (data, poison) } else f } }

/-- A pseudo-channel controller serves a request (R361, R364): a read returns the corrected data, with the poison flag
where a burst is poisoned; a write in part reads before it writes, so errors are found there too. -/
def hbmServe (r : HbmReq) : Prog :=
  doWhen (fun d => d.on (hbmChFn (pcChan r.pc))) (.read fun d =>
    match d.hbmPick r.pc with
    | none => .nop
    | some (e, write) =>
      let t := e.tx.req
      let bursts := txBursts t
      let l := d.hbmLoc t.addr
      let part := t.enables.contains false || bursts.length % 8 ≠ 0 || t.addr % 512 ≠ 0
      let found := r.errs.filter fun x => bursts.contains x.burst &&
        (if x.check then part && !d.checkCached (d.hbmLoc (x.burst * 64)) else !write || t.enables.contains false)
      let old := if write then [] else bursts.filter fun q => d.x.poison.contains q
      seq [
        hbmUpd fun h => if write then { h with writes := KV.upd [] h.writes r.pc (·.erase e) }
          else { h with reads := KV.upd [] h.reads r.pc (·.erase e) },
        hbmActivate l,
        each found (hbmError e.tx.port false),
        each bursts fun q => cacheCheck (d.hbmLoc (q * 64)),
        doIf (!old.isEmpty) (seq [addCnt R.HBM_CNT_POISON_READ old.length, raise F.HBM_ALARM_poison_read]),
        doIf (!write) (.read fun d' =>
          txAnswer e.tx (d'.mem.getBytes t.addr (64 * t.beats)) (bursts.any fun q => d'.x.poison.contains q)),
        doIf (d.fld (F.HBM_QOS_STATUS_u e.tx.port) == 3) (inc (R.HBM_QOS_LATE e.tx.port))])

/-! ### Refresh (R362, R363) -/

/-- A bank's interval expires: its refresh is postponed while reads at u = 3 wait for the bank, eight times at most, and
issued otherwise with those postponed; it closes the bank's row and takes the neighbour refreshes pending. -/
def hbmRefresh (pc bank : Nat) : Prog :=
  doWhen (fun d => d.on (hbmChFn (pcChan pc))) (.read fun d =>
    let k := bankKey pc bank
    let urgent := (KV.get [] d.x.hbm.reads pc).any fun e =>
      (d.hbmLoc e.tx.req.addr).bank == bank && d.fld (F.HBM_QOS_STATUS_u e.tx.port) == 3
    if urgent && decide (KV.get 0 d.x.hbm.owed k < 8) then hbmUpd fun h => { h with owed := KV.upd 0 h.owed k (· + 1) }
    else hbmUpd fun h => { h with
      owed := KV.set 0 h.owed k 0, open_ := KV.set none h.open_ k none, pnr := KV.set [] h.pnr k [] })

/-! ### Scrubbing (R367, R374) -/

/-- The scrubbers run: they are enabled, and shedding stage 3 is not in force. -/
def Dev.scrubs (d : Dev) : Bool := d.flag F.HBM_SCRUB_enable && decide (d.fld F.PWR_STATUS_stage < 3)

/-- HBM_STATUS.scrub_paused follows the shedding stage. -/
def scrubStatus : Prog := .read fun d => setB F.HBM_STATUS_scrub_paused (decide (3 ≤ d.fld F.PWR_STATUS_stage))

/-- The bursts of a pseudo-channel that the patrol reads: 32 banks of 24,576 rows of 16. -/
def patrolBursts : Nat := 32 * 24576 * 16

/-- The patrol scrubber reads the next burst of a pseudo-channel; `behind` says that the pass is more than 10% behind. -/
def hbmScrub (pc : Nat) (es : List HbmErr) (behind : Bool) : Prog :=
  doWhen (fun d => d.scrubs && d.on (hbmChFn (pcChan pc))) (.read fun d => seq [
    hbmUpd fun h => { h with scrub := KV.upd 0 h.scrub pc fun n => (n + 1) % patrolBursts },
    setB F.HBM_STATUS_scrub_behind behind,
    each (es.filter fun e => (d.hbmLoc (e.burst * 64)).pc == pc) (hbmError 0x3F true)])

/-- An SRAM word's error (R374): a row that gives 4 correctable errors within 24 h is to be spared. -/
def sramError (e : SramErr) : Prog :=
  .read fun d =>
    let f := e.word / 32768
    let row := e.word / 64
    let now := d.x.time.clk
    let kept := d.x.hbm.sramCe.filter fun x => decide (now < x.2 + 86400 * secU)
    if e.ue then seq [inc (R.HBM_FK_CNT_UE f),
      hbmUpd fun h => { h with sramPoison := h.sramPoison.filter (· ≠ e.word) ++ [e.word] }]
    else seq [
      inc (R.HBM_FK_CNT_CE f),
      hbmUpd fun h => { h with
        sramCe := (row, now) :: kept
        spareDue := if 4 ≤ ((row, now) :: kept).countP (·.1 == row) ∧ !h.spareDue.contains row then h.spareDue ++ [row]
          else h.spareDue }]

/-- The SRAM scrubber reads the next word of a firkin. -/
def sramScrub (f : Nat) (es : List SramErr) : Prog :=
  doWhen (fun d => d.scrubs) (seq [
    hbmUpd fun h => { h with sramScrub := KV.upd 0 h.sramScrub f fun n => (n + 1) % 32768 },
    each (es.filter fun e => e.word / 32768 == f) sramError])

/-- The use of a firkin, in the order of R373. -/
def firkinUse (f : Nat) : Nat :=
  if f < 96 then 0 else if f < 168 then 1 else if f < 208 then 2 else if f < 224 then 3 else if f < 248 then 4 else 5

/-- The use whose firkins a function owns. -/
def fnFirkins : Fn → List Nat
  | .dst _ => [0]
  | .prc _ => [1, 2]
  | .aud => [3]
  | .flowRx _ | .flowTx _ | .mac _ => [4]
  | .ring _ | .boot => [5]
  | _ => []

/-- A function that owns firkins re-initialises (R374): the rows due there are spared and recorded; a firkin without a
spare left asks for replacement. -/
def sramSpare (f : Fn) : Prog :=
  .read fun d =>
    let due := d.x.hbm.spareDue.filter fun r => (fnFirkins f).contains (firkinUse (r / 512))
    each due fun r =>
      let k := r / 512
      seq [
        .read fun e =>
          if e.fld (F.HBM_FK_STATUS_spares k) < 8 then seq [
            setF (F.HBM_FK_STATUS_spares k) (e.fld (F.HBM_FK_STATUS_spares k) + 1),
            mramPut ⟨.training, 0x200000 + r⟩ (.words [r])]
          else replaceSet 4,
        hbmUpd fun h => { h with spareDue := h.spareDue.filter (· ≠ r), sramCe := h.sramCe.filter (·.1 ≠ r) }]

/-! ### Repair (R368 to R370) -/

/-- HBM_CHc_STATUS counts a pseudo-channel's remap entries. -/
def remapCount (pc : Nat) : Prog :=
  .read fun d =>
    let n := (d.x.hbm.remap.filter fun e => e.1.pc == pc).length
    if 64 ≤ pc then setF (F.HBM_CH_STATUS_remap1 (pcChan pc)) n else setF (F.HBM_CH_STATUS_remap0 (pcChan pc)) n

/-- The next spare row of a bank: reserved rows, but for the highest, which holds the training pattern (R354). -/
def Dev.spareRow (d : Dev) (r : HbmRow) : Option Nat :=
  ((List.range 383).map (24192 + ·)).find? fun s =>
    !(d.x.hbm.remap.any fun e => e.1.pc == r.pc && e.1.bank == r.bank && e.2 == s)

/-- The oldest copy of a pseudo-channel is complete: the row is remapped, recorded and reported (R368). -/
def spareDone (pc : Nat) : Prog :=
  .read fun d =>
    match d.x.hbm.copying.find? (·.pc == pc) with
    | none => .nop
    | some r =>
      match d.spareRow r with
      | none => .nop
      | some s => seq [
          hbmUpd fun h => { h with copying := h.copying.erase r, remap := h.remap ++ [(r, s)] },
          inc R.HBM_CNT_SPARED, raise F.HBM_ALARM_repair_done, remapCount pc,
          .read fun e => mramPut ⟨.training, 0x100000 + pc⟩ (.words
            ((e.x.hbm.remap.filter fun x => x.1.pc == pc).flatMap fun x => [x.1.bank, x.1.row, x.2]))]

/-- Reason HBM_CE_RATE clears after one hour within the rate (R370, R512). -/
def ceRateClear : Prog :=
  .read fun d => doIf (d.x.hbm.ceTimes.all fun e =>
      decide ((within d.x.time.clk (3600 * secU) e.2).length ≤ d.fld F.HBM_REPAIR_ce_rate)) (replaceClear 3)

/-! ### Training and recalibration (R369, R371, R372, R375) -/

/-- Grain and hash are legal (R355, R375). -/
def Dev.mapLegal (d : Dev) : Bool :=
  decide (8 ≤ d.fld F.HBM_CTRL_grain_log2) && decide (d.fld F.HBM_CTRL_grain_log2 ≤ 16)

/-- When every channel is ON the memory system's CHANNEL fault clears (R375). -/
def hbmChannels : Prog :=
  .read fun d => doIf (d.fst .hbm == .fault && (d.fw .hbm).code == 1 && (List.range 64).all fun c => d.on (hbmChFn c))
    (fnUpd .hbm fun w => { w with state := .on })

/-- A channel's contents are lost and written with zeros (R371, R375). -/
def hbmChClear (c : Nat) : Prog :=
  .read fun d =>
    let g := d.grainLog
    let mine := fun (a : Nat) => decide (a < 84 * 2 ^ 30) && hbmChan g a == c
    seq [.act (.memZero mine), ext fun x => { x with poison := x.poison.filter fun q => !mine (64 * q) }]

/-- Training, repair and initialisation finish (R369 to R371): channels of a stack that is not 24 GiB HBM3E and channels
that did not train enter FAULT, pending hard repairs are applied and their spares freed, every row is written with zeros,
and the memory system is ON. -/
def hbmTrained (t : HbmTraining) : Prog :=
  doWhen (fun d => d.fst .hbm == .waking) (.read fun d =>
    if !d.mapLegal then fnFault .hbm 2
    else
      let ch := fun (c : Nat) => t.chans.getD c {}
      let bad := fun (c : Nat) => if !bitOf t.found (c / 16) then some 2 else if !(ch c).ok then some 1 else none
      let on := (List.range 64).filter fun c => d.flag (F.HBM_CH_CTRL_enable c)
      let hard := fun (c : Nat) => (ch c).hard
      let done := d.x.hbm.remap.filter fun e => decide (0 < hard (pcChan e.1.pc))
      seq [
        setF F.HBM_INFO_stacks (t.found % 16),
        each (List.range 256) fun f => setF (F.HBM_FK_STATUS_use f) (firkinUse f),
        hbmUpd fun h => { h with
          remap := h.remap.filter fun e => !done.contains e, copying := []
          reads := [], writes := [], open_ := [], cache := [], owed := [], pnr := []
          trainedTemp := t.temps.zipIdx.foldl (fun m e => KV.set 0 m e.2 e.1) [] , temp := t.temps.zipIdx.foldl (fun m e => KV.set 0 m e.2 e.1) [] },
        each (List.range 64) fun c => seq [
          setF (F.HBM_CH_REPAIR_lanes c) (ch c).lanes,
          setF (F.HBM_CH_REPAIR_hard c) (hard c - min (hard c) (done.filter fun e => pcChan e.1.pc == c).length),
          setF (F.HBM_CH_STATUS_temperature c) (t.temps.getD (c / 16) 0),
          setB (F.HBM_CH_STATUS_hot c) (decide (85 < t.temps.getD (c / 16) 0)),
          doIf (ch c).laneShort (replaceSet 2)],
        each (List.range 128) remapCount,
        .act (.memZero fun a => decide (a < 84 * 2 ^ 30)),
        ext fun x => { x with poison := x.poison.filter fun q => decide (84 * 2 ^ 30 ≤ 64 * q) },
        each on fun c => match bad c with
          | some k => seq [fnUpd (hbmChFn c) fun w => { w with state := .waking }, fnFault (hbmChFn c) k]
          | none => fnWoken (hbmChFn c),
        mramPut ⟨.training, 0⟩ (.words (t.found :: t.temps)),
        setF F.HBM_STATUS_trained 1, setF F.HBM_INFO_capacity_mib 43008,
        fnWoken .hbm,
        doIf (on.any fun c => (bad c).isSome) (fnFault .hbm 1),
        doWhen (fun d => d.fld F.BOOT_STATUS_phase == 3 && (d.on .hbm || (d.fst .hbm == .fault && (d.fw .hbm).code == 1)))
          (setF F.BOOT_STATUS_phase 4)])

/-- A recalibration that failed is retried (rung 1); failing again, the channel passes to rung 2 (R372). -/
def hbmRecal (c failures : Nat) : Prog :=
  doWhen (fun d => d.on (hbmChFn c)) (seq [
    doIf (decide (1 ≤ failures)) (fnRung (hbmChFn c) 1),
    doIf (decide (2 ≤ failures)) (seq [fnRetryFailed (hbmChFn c), fnEscalate (hbmChFn c)])])

/-- A channel retrains its data eye: the stack's temperature becomes that of the training (R372). -/
def hbmRetrain (c : Nat) (ok : Bool) : Prog :=
  doWhen (fun d => d.on (hbmChFn c)) (.read fun d =>
    if ok then hbmUpd fun h => { h with trainedTemp := KV.set 0 h.trainedTemp (c / 16) (d.fld (F.HBM_CH_STATUS_temperature c)) }
    else seq [fnRung (hbmChFn c) 1, fnRetryFailed (hbmChFn c), fnEscalate (hbmChFn c)])

/-! ### The aperture (R356) and the measured demand (R27) -/

/-- The data address of an aperture offset. -/
def Dev.apertureAddr (d : Dev) (off : Nat) : Nat := min 2687 (d.fld F.HBM_APERTURE_base) * 2 ^ 25 + off % 2 ^ 25

/-- The bytes of a 32-bit word that a write with byte enables stores, each with its offset. -/
def laneBytes (v be : Nat) : List (Nat × Byte) :=
  ((List.range 4).filter (bitOf be)).map fun i => (i, BitVec.ofNat 8 (v / 2 ^ (8 * i)))

/-- A host access through the aperture: a read of a poisoned burst returns all ones; a write is taken only while write_en
is 1, and dropped and logged otherwise. -/
def apertureAccess (write : Bool) (off v be : Nat) : Prog :=
  .read fun d =>
    let a := d.apertureAddr (off / 4 * 4)
    if write then
      (if d.flag F.HBM_APERTURE_write_en then each (laneBytes v be) fun e => memWrite (a + e.1) [e.2]
       else aflPush 0 .apertureWrite be 0 (0x2000000 + off % 2 ^ 25) v)
    else if d.poisoned a 4 then
      seq [inc R.HBM_CNT_POISON_READ, raise F.HBM_ALARM_poison_read, emit (.hostRead 0xFFFFFFFF)]
    else emit (.hostRead (ofLeBytes (d.mem.getBytes a 4)))

/-- The once-a-second sample of the demand in MB/s (R27). -/
def bwSample (rd wr_ : Nat) (chans : List Nat) : Prog :=
  .read fun d =>
    let isOver := decide (d.rd R.HBM_PLAN_LIMIT < rd + wr_)
    let o := if isOver then d.x.hbm.overRun + 1 else 0
    let u := if isOver then 0 else d.x.hbm.underRun + 1
    seq [
      wr R.HBM_BW_RD rd, wr R.HBM_BW_WR wr_,
      each chans.zipIdx fun e => doIf (decide (e.2 < 64)) (wr (R.HBM_CH_BW e.2) e.1),
      hbmUpd fun h => { h with overRun := o, underRun := u },
      doIf (decide (10 ≤ o)) (statusAlarm F.HBM_STATUS_plan_exceeded F.HBM_ALARM_plan_exceeded true),
      doIf (decide (10 ≤ u)) (setF F.HBM_STATUS_plan_exceeded 0)]

/-! ### Meanings -/

/-- HBM_BW_SAMPLE (R27): bytes read, written, and moved by each channel, in MB/s. -/
def execHbmBwSample (rd wr : Nat) (chans : List Nat) (s : State) : Host.Outcome State Fault Refusal :=
  perform .core (bwSample rd wr chans) s

/-- HBM_REQUEST_SERVE (R361). -/
def execHbmRequestServe (r : HbmReq) (s : State) : Host.Outcome State Fault Refusal := perform .core (hbmServe r) s

/-- SPARE_COPY_DONE (R368). -/
def execSpareCopyDone (pc : Fin 128) (s : State) : Host.Outcome State Fault Refusal := perform .core (spareDone pc) s

/-- HBM_REFRESH (R362). -/
def execHbmRefresh (pc : Fin 128) (bank : Fin 32) (s : State) : Host.Outcome State Fault Refusal :=
  perform .core (hbmRefresh pc bank) s

/-- QOS_URGENCY_EVAL (R359). -/
def execQosUrgencyEval (slack : List Nat) (s : State) : Host.Outcome State Fault Refusal :=
  perform .core (urgencyEval slack) s

/-- HBM_SCRUB_STEP (R367). -/
def execHbmScrubStep (pc : Fin 128) (e : List HbmErr) (behind : Bool) (s : State) : Host.Outcome State Fault Refusal :=
  perform .core (hbmScrub pc e behind) s

/-- SRAM_SCRUB_STEP (R367). -/
def execSramScrubStep (fk : Fin 256) (e : List SramErr) (s : State) : Host.Outcome State Fault Refusal :=
  perform .core (sramScrub fk e) s

/-- HBM_RECAL (R372): `failures` counts the failed attempts. -/
def execHbmRecal (c : HbmChId) (failures : Nat) (s : State) : Host.Outcome State Fault Refusal :=
  perform .core (hbmRecal c failures) s

/-- HBM_EYE_RETRAIN (R372). -/
def execHbmEyeRetrain (c : HbmChId) (ok : Bool) (s : State) : Host.Outcome State Fault Refusal :=
  perform .core (hbmRetrain c ok) s

/-- HBM_TRAINING_COMPLETE (R371). -/
def execHbmTrainingComplete (t : HbmTraining) (s : State) : Host.Outcome State Fault Refusal :=
  perform .core (hbmTrained t) s

/-- HBM_APERTURE_ACCESS (R356). -/
def execHbmApertureAccess (write : Bool) (off : Nat) (value : Word) (be : Nat) (s : State) :
    Host.Outcome State Fault Refusal := perform .core (apertureAccess write off value.toNat be) s

/-- HBM_ELOG_POP (R377). -/
def execHbmElogPop (s : State) : Host.Outcome State Fault Refusal := perform .core elogPop s

/-- What a write of 1 to HBM_CNT_CLEAR clears (R376). -/
def hbmCntClear : Prog :=
  clearRegs [R.HBM_CNT_CE, R.HBM_CNT_UE, R.HBM_CNT_POISON_READ, R.HBM_CNT_SPARED, R.HBM_CNT_PNR_DROP]

/-- HBM_CNT_CLEAR (R376). -/
def execHbmCntClear (s : State) : Host.Outcome State Fault Refusal := perform .core hbmCntClear s

/-- HBM_CE_RATE_CLEAR (R370, R512). -/
def execHbmCeRateClear (s : State) : Host.Outcome State Fault Refusal := perform .core ceRateClear s

end Sys2Proof.Machine
end

