-- ==== Sys2Proof/Machine/Mtx.lean ====
section
/-!
DEFINITION. The bus matrix (R378 to R395): ports, targets and decode, limits and credits, arbitration, ordering, decode
holds, streams and draining, the watchdog and the fault log. A stream whose owning function is in STOPPING is DRAINING
from the moment the function enters it (R390).
-/

namespace Sys2Proof.Machine

/-- Changes the matrix's typed state. -/
def mtxUpd (f : MtxState → MtxState) : Prog := ext fun x => { x with mtx := f x.mtx }

/-- The key of a stream. -/
def streamKey (port stream : Nat) : Nat := 16384 * port + stream

/-- The functions that own a stream, with their DECODE_HOLD codes (R378, R388). -/
def streamOwners (port stream : Nat) : List (Fn × Nat) :=
  if port < 18 then [(.src (Fin.ofNat 1024 stream), 3)]
  else if port < 34 then [(.dst (Fin.ofNat 1024 stream), 3)]
  else if port < 42 then (List.range 8).map fun i => (.prc (Fin.ofNat 512 (8 * stream + i)), 2)
  else if port < 46 then [(.mvh (Fin.ofNat 32 stream), 3)]
  else if port = 46 then [(.aud, 2)]
  else if port = 47 then
    (if stream < 8192 then [(.flowRx (Fin.ofNat 8192 stream), 3)] else [(.flowTx (Fin.ofNat 8192 (stream - 8192)), 3)])
  else []

/-- A stream's state (R390): 0 IDLE, 1 ACTIVE, 2 HELD, 3 DRAINING. -/
def Dev.streamState (d : Dev) (port stream : Nat) : Nat :=
  let s := KV.get 0 d.x.mtx.streams (streamKey port stream)
  if s ≠ 0 ∧ (streamOwners port stream).any fun e => d.fst e.1 == .stopping then 3 else s

/-- A transaction's stream drains. -/
def Dev.txDrains (d : Dev) (t : MtxTx) : Bool := d.streamState t.port t.req.stream == 3

/-- Held transactions that are not released yet: those of a draining stream have been (R390). -/
def Dev.heldTx (d : Dev) : List MtxTx := d.x.mtx.held.filter fun t => !d.txDrains t

/-- A stream's transactions outstanding, and its port's, by direction; a held one counts (R382, R388). -/
def Dev.streamOut (d : Dev) (port stream : Nat) (write : Bool) : Nat :=
  ((d.x.mtx.flight.map (·.tx) ++ d.heldTx).filter fun t =>
    t.port == port && t.req.stream == stream && t.req.write == write).length
def Dev.portOut (d : Dev) (port : Nat) (write : Bool) : Nat :=
  ((d.x.mtx.flight.map (·.tx) ++ d.heldTx).filter fun t => t.port == port && t.req.write == write).length

/-- The transactions in flight (R382). -/
def Dev.inFlight (d : Dev) : Nat := d.x.mtx.flight.length + d.heldTx.length

/-- The shared pool entries in use: what each port has beyond its reserve of 4. -/
def Dev.sharedUsed (d : Dev) : Nat := ((List.range 56).map fun m => d.portOut m false + d.portOut m true - 4).sum

/-! ### Decode (R379, R380, R389) -/

/-- The target of an address; none where it is unmapped. -/
def Dev.mtxTarget (d : Dev) (a : Nat) : Option Nat :=
  if a < 84 * 2 ^ 30 then some (hbmChan d.grainLog a)
  else if 0x010000000000 ≤ a ∧ a < 0x010004000000 then some (64 + (a - 0x010000000000) / 0x40000 / 32)
  else if 0x020000000000 ≤ a ∧ a < 0x020002000000 then (if offsetMapped (a - 0x020000000000) then some 72 else none)
  else none

/-- The port may issue the transaction (R381, R387): its length, alignment and tag are legal, it crosses no boundary, and a
write is complete. -/
def Dev.txLegal (d : Dev) (r : MtxReq) : Bool :=
  let n := 64 * r.beats
  let same := fun (b : Nat) => r.addr / b == (r.addr + n - 1) / b
  decide (1 ≤ r.beats) && decide (r.beats ≤ 16) && r.addr % 64 == 0 && decide (r.addr < 2 ^ 48) &&
  decide (r.stream < 16384) && same 1024 && (decide (84 * 2 ^ 30 ≤ r.addr) || same (2 ^ d.grainLog)) && same 0x40000 &&
  (if r.write then decide (64 ≤ r.tag) && decide (r.tag < 96) && r.data.length == n &&
      (r.enables.isEmpty || r.enables.length == n)
    else decide (r.tag < 64))

/-! ### The fault log (R395) -/

/-- The log's registers follow it. -/
def mtxLogSync : Prog :=
  .read fun d => seq [
    setF F.MTX_LOG_STATUS_entries d.x.mtx.log.length, setB F.MTX_LOG_STATUS_full (decide (16 ≤ d.x.mtx.log.length)),
    setB F.MTX_STATUS_log_full (decide (16 ≤ d.x.mtx.log.length)),
    each (List.range 6) fun w => wr (R.MTX_LOG_E w) ((d.x.mtx.log.headD []).getD w 0)]

/-- Logs a decode fault (kind 0) or a timeout (kind 1). -/
def mtxLogPush (kind : Nat) (t : MtxTx) : Prog :=
  .read fun d =>
    if 16 ≤ d.x.mtx.log.length then seq [inc R.MTX_CNT_LOG_DROP, raise F.MTX_ALARM_log_overflow]
    else seq [
      mtxUpd fun m => { m with log := m.log ++ [
        [2 ^ 31 + kind * 2 ^ 30 + boolBit t.req.write * 2 ^ 29 + (t.req.beats - 1) % 16 * 2 ^ 24 + t.port * 2 ^ 16 +
          t.req.tag % 128, t.req.stream % 16384, t.req.addr % 2 ^ 32, t.req.addr / 2 ^ 32 % 2 ^ 16, d.htSec % 2 ^ 32, d.htNs]] },
      mtxLogSync]

/-- Removes the oldest entry. -/
def mtxLogPop : Prog :=
  doWhen (fun d => !d.x.mtx.log.isEmpty) (seq [mtxUpd fun m => { m with log := m.log.drop 1 }, mtxLogSync])

/-! ### Issue (R381, R386, R388) -/

/-- A port issues a transaction: an unmapped address is held and logged, its stream is HELD and its owner enters FAULT; a
mapped one waits for its target. A stream that drains discards it. -/
def mtxIssue (port : Nat) (r : MtxReq) : Prog :=
  .read fun d =>
    let t : MtxTx := { port := port, req := r, issued := d.x.time.clk }
    let k := streamKey port r.stream
    let drains := d.streamState port r.stream == 3
    doIf (d.on .mtx && d.txLegal r) (
      match d.mtxTarget r.addr with
      | none => seq [
          mtxLogPush 0 t, inc R.MTX_CNT_DECODE, raise F.MTX_ALARM_decode_fault,
          doIf (!drains) (seq [
            mtxUpd fun m => { m with held := m.held ++ [t], streams := KV.set 0 m.streams k 2 },
            each (streamOwners port r.stream) fun e => fnFault e.1 e.2])]
      | some _ => doIf (!drains) (seq [
          mtxUpd fun m => { m with
            waiting := m.waiting ++ [t]
            streams := if KV.get 0 m.streams k = 0 then KV.set 0 m.streams k 1 else m.streams }]))

/-! ### Arbitration (R382 to R386) -/

/-- A target has a credit for a request (R383). -/
def Dev.hasCredit (d : Dev) (target : Nat) (write : Bool) : Bool :=
  let at_ := d.x.mtx.flight.filter (·.target == target)
  if target < 64 then
    let q : KV (List HbmEntry) := if write then d.x.hbm.writes else d.x.hbm.reads
    let n : Nat := (q.map fun e => if pcChan e.1 = target then e.2.length else 0).sum
    decide (n < 64)
  else if target < 72 then decide ((at_.filter fun f => f.tx.req.write == write).length < 32)
  else !(at_.any (·.answer.isNone)) && decide (at_.length < 16)

/-- The port's limits and the shared pool admit a request (R382). -/
def Dev.poolAdmits (d : Dev) (port : Nat) : Bool :=
  decide (d.portOut port false + d.portOut port true < 4) || decide (d.sharedUsed < 1824)
def Dev.limitAdmits (d : Dev) (port : Nat) (write : Bool) : Bool :=
  decide (d.portOut port write < if write then 32 else 64)

/-- A waiting request is the first of its stream to its target, its stream is ACTIVE, and a word that marks other data
complete waits until the stream's earlier writes have been answered (R385, R386, R388). -/
def Dev.txReady (d : Dev) (earlier : List MtxTx) (t : MtxTx) : Bool :=
  let mine := fun (u : MtxTx) => u.port == t.port && u.req.stream == t.req.stream
  d.streamState t.port t.req.stream == 1 &&
  !(earlier.any fun u => mine u && d.mtxTarget u.req.addr == d.mtxTarget t.req.addr) &&
  !(t.req.mark && ((earlier.any fun u => mine u && u.req.write) ||
    d.x.mtx.flight.any fun f => mine f.tx && f.tx.req.write))

/-- The requests of a target that wait and are ready, oldest first. -/
def Dev.readyAt (d : Dev) (target : Nat) : List MtxTx → List MtxTx → List MtxTx
  | _, [] => []
  | earlier, t :: r =>
    let rest := d.readyAt target (earlier ++ [t]) r
    if d.mtxTarget t.req.addr = some target ∧ d.txReady earlier t then t :: rest else rest

/-- The port a target grants (R384): of those at the highest effective priority, the first at or after its pointer. -/
def Dev.grantPort (d : Dev) (target : Nat) (ports : List Nat) : Option Nat :=
  let best := (ports.map fun m => d.portPrio m target).foldl max 0
  let ptr := KV.get 0 d.x.mtx.pointer target
  ((List.range 56).map fun i => (ptr + i) % 56).find? fun m => ports.contains m && d.portPrio m target == best

/-- The bytes a write stores, as runs of enabled bytes: a beat with all enables is one run. -/
def txStore (r : MtxReq) : Prog :=
  if r.enables.isEmpty || !r.enables.contains false then memWrite r.addr r.data
  else each (List.range r.beats) fun b =>
    let bytes := (r.data.drop (64 * b)).take 64
    let en := (r.enables.drop (64 * b)).take 64
    if !en.contains false then memWrite (r.addr + 64 * b) bytes
    else each ((bytes.zip en).zipIdx.filter (·.1.2)) fun e => memWrite (r.addr + 64 * b + e.2) [e.1.1]

/-- What a granted transaction does at an HBM channel (R361, R375, R385): it is queued, and a write is answered then, its
data visible to every later read; a channel in FAULT answers reads poisoned and drops writes. -/
def grantHbm (t : MtxTx) (target : Nat) : Prog :=
  .read fun d =>
    let pc := (d.hbmLoc t.req.addr).pc
    let e : HbmEntry := { tx := t, arrived := d.x.time.clk }
    if d.fst (hbmChFn target) == .fault then seq [
      doIf t.req.write (inc (R.HBM_CH_CNT_DROP target)),
      txAnswer t (if t.req.write then [] else d.mem.getBytes t.req.addr (64 * t.req.beats)) (!t.req.write)]
    else if t.req.write then seq [
      txStore t.req, hbmUpd fun h => { h with writes := KV.upd [] h.writes pc (· ++ [e]) }, txAnswer t [] false]
    else hbmUpd fun h => { h with reads := KV.upd [] h.reads pc (· ++ [e]) }

/-- What it does at an SRAM aggregate (R374). -/
def grantSram (t : MtxTx) (es : List SramErr) : Prog :=
  let base := (t.req.addr - 0x010000000000) / 8
  let mine := fun (w : Nat) => decide (base ≤ w) && decide (w < base + 8 * t.req.beats)
  seq [
    each (es.filter fun e => mine e.word) sramError,
    if t.req.write then seq [
      txStore t.req,
      doIf (!t.req.enables.contains false) (hbmUpd fun h => { h with sramPoison := h.sramPoison.filter fun w => !mine w }),
      txAnswer t [] false]
    else .read fun d => txAnswer t (d.mem.getBytes t.req.addr (64 * t.req.beats)) (d.x.hbm.sramPoison.any mine)]

/-- A target grants one request (R382 to R385); `fabric` is what a granted transaction does at the register fabric. -/
def mtxGrant (fabric : MtxTx → Prog) (target : Nat) (es : List SramErr) : Prog :=
  doWhen (fun d => d.on .mtx) (.read fun d =>
    let ready := d.readyAt target [] d.x.mtx.waiting
    let ok := ready.filter fun t =>
      d.hasCredit target t.req.write && d.limitAdmits t.port t.req.write && d.poolAdmits t.port
    let short := ((ready.filter fun t => d.hasCredit target t.req.write && d.limitAdmits t.port t.req.write &&
      !d.poolAdmits t.port).map (·.port)).dedup
    seq [
      each short fun m => inc (R.MTX_P_CNT_POOL_WAIT m),
      match d.grantPort target (ok.map (·.port)) with
      | none => .nop
      | some m =>
        match ok.find? (·.port == m) with
        | none => .nop
        | some t => seq [
            mtxUpd fun x => { x with
              waiting := x.waiting.erase t, pointer := KV.set 0 x.pointer target ((m + 1) % 56)
              flight := x.flight ++ [{ tx := t, target := target, granted := d.x.time.clk }] },
            inc (if t.req.write then R.MTX_P_CNT_WR m else R.MTX_P_CNT_RD m),
            .read fun e => setF F.MTX_POOL_peak (max (e.fld F.MTX_POOL_peak) e.inFlight),
            if target < 64 then grantHbm t target else if target < 72 then grantSram t es else fabric t]])

/-! ### Responses, idle streams and the watchdog (R390, R391) -/

/-- A stream that drains becomes IDLE once nothing of it is outstanding: what it had waiting and held is discarded. -/
def streamDrained (port stream : Nat) : Prog :=
  .read fun d =>
    let mine := fun (t : MtxTx) => t.port == port && t.req.stream == stream
    doIf (d.streamState port stream == 3 && !(d.x.mtx.flight.any fun f => mine f.tx)) (
      mtxUpd fun m => { m with
        waiting := m.waiting.filter fun t => !mine t, held := m.held.filter fun t => !mine t
        streams := KV.set 0 m.streams (streamKey port stream) 0 })

/-- A response returns to its port; that of a draining stream is discarded. -/
def mtxRespond (f : MtxFlight) (data : List Byte) (poison : Bool) : Prog :=
  .read fun d => seq [
    mtxUpd fun m => { m with flight := m.flight.erase f },
    doIf (d.fld (F.HBM_QOS_STATUS_u f.tx.port) == 3 && decide (64 ≤ f.target)) (inc (R.HBM_QOS_LATE f.tx.port)),
    doIf (!d.txDrains f.tx) (emit (.mtxResp f.tx.port f.tx.req.stream f.tx.req.tag data poison)),
    streamDrained f.tx.port f.tx.req.stream]

/-- The answer of a transaction returns. -/
def mtxResponse (port tag : Nat) : Prog :=
  .read fun d =>
    match d.x.mtx.flight.find? fun f => f.tx.port == port && f.tx.req.tag == tag && f.answer.isSome with
    | some f => (match f.answer with | some (b, p) => mtxRespond f b p | none => .nop)
    | none => .nop

/-- A transaction outstanding beyond MTX_WATCHDOG is ended (R391): a read is answered poisoned, a write with an error. A
response that has come stands. -/
def mtxWatchdog (port tag : Nat) : Prog :=
  .read fun d =>
    let limit := max 10 (d.rd R.MTX_WATCHDOG) * 1000 * nsU
    match (if d.flag F.MTX_CTRL_wd_en then d.x.mtx.flight.find? fun f =>
        f.tx.port == port && f.tx.req.tag == tag && f.answer.isNone && decide (f.granted + limit ≤ d.x.time.clk) else none) with
    | none => .nop
    | some f => seq [
        mtxLogPush 1 f.tx, inc R.MTX_CNT_TIMEOUT, raise F.MTX_ALARM_timeout,
        hbmUpd fun h => { h with reads := h.reads.map fun e => (e.1, e.2.filter (·.tx ≠ f.tx)) },
        mtxRespond f (if f.tx.req.write then [] else d.mem.getBytes f.tx.req.addr (64 * f.tx.req.beats)) true]

/-- An ACTIVE stream without traffic for 64 cycles becomes IDLE. -/
def streamIdle (port stream : Nat) : Prog :=
  .read fun d =>
    let mine := fun (t : MtxTx) => t.port == port && t.req.stream == stream
    doIf (d.streamState port stream == 1 && !(d.x.mtx.flight.any fun f => mine f.tx) && !(d.x.mtx.waiting.any mine))
      (mtxUpd fun m => { m with streams := KV.set 0 m.streams (streamKey port stream) 0 })

/-- The streams of a function that are not IDLE. -/
def Dev.fnStreams (d : Dev) (f : Fn) : List (Nat × Nat) :=
  (d.x.mtx.streams.map fun e => (e.1 / 16384, e.1 % 16384)).filter fun e => (streamOwners e.1 e.2).any (·.1 == f)

/-- A function in STOPPING: its streams become IDLE as soon as nothing of them is outstanding (R390). -/
def fnStreamsDrain (f : Fn) : Prog := .read fun d => each (d.fnStreams f) fun e => streamDrained e.1 e.2

/-- All of a function's streams are IDLE (R390). -/
def Dev.streamsIdle (d : Dev) (f : Fn) : Bool := (d.fnStreams f).isEmpty

/-! ### What registers show (R394) -/

/-- MTX_SQ_STATE of the stream that MTX_SQ_SEL names. -/
def Dev.sqState (d : Dev) : Nat :=
  let p := d.fld F.MTX_SQ_SEL_port
  let s := d.fld F.MTX_SQ_SEL_stream
  d.streamState p s * 2 ^ 24 + d.streamOut p s false % 128 * 2 ^ 16 + d.streamOut p s true % 64 * 2 ^ 8 +
    boolBit (d.heldTx.any fun t => t.port == p && t.req.stream == s)

/-- MTX_Pm_STATUS and MTX_Pm_HELD. -/
def Dev.portStatus (d : Dev) (m : Nat) : Nat :=
  d.portOut m false * 2 ^ 16 + d.portOut m true * 2 ^ 8 + (4 - (d.portOut m false + d.portOut m true))
def Dev.portHeld (d : Dev) (m : Nat) : Nat :=
  (d.x.mtx.streams.filter fun e => e.1 / 16384 == m && d.streamState m (e.1 % 16384) == 2).length

/-- A stream is HELD. -/
def Dev.holdActive (d : Dev) : Bool := d.x.mtx.streams.any fun e => d.streamState (e.1 / 16384) (e.1 % 16384) == 2

/-! ### Meanings -/

/-- MTX_RESPONSE (R390). -/
def execMtxResponse (m : PortId) (tag : Nat) (s : State) : Host.Outcome State Fault Refusal :=
  perform .core (mtxResponse m tag) s

/-- MTX_WATCHDOG_EXPIRY (R391). -/
def execMtxWatchdogExpiry (m : PortId) (tag : Nat) (s : State) : Host.Outcome State Fault Refusal :=
  perform .core (mtxWatchdog m tag) s

/-- MTX_STREAM_IDLE (R390). -/
def execMtxStreamIdle (m : PortId) (stream : Nat) (s : State) : Host.Outcome State Fault Refusal :=
  perform .core (streamIdle m stream) s

/-- MTX_LOG_POP (R395). -/
def execMtxLogPop (s : State) : Host.Outcome State Fault Refusal := perform .core mtxLogPop s

/-- What a write of 1 to MTX_CNT_CLEAR clears (R394). -/
def mtxCntClear : Prog :=
  seq [
  clearRegs ([R.MTX_CNT_DECODE, R.MTX_CNT_TIMEOUT, R.MTX_CNT_LOG_DROP] ++
    (List.range 56).flatMap fun m => [R.MTX_P_CNT_RD m, R.MTX_P_CNT_WR m, R.MTX_P_CNT_POOL_WAIT m]),
  setF F.MTX_POOL_peak 0]

/-- MTX_CNT_CLEAR (R394). -/
def execMtxCntClear (s : State) : Host.Outcome State Fault Refusal := perform .core mtxCntClear s

end Sys2Proof.Machine
end

