-- ==== Sys2Proof/Machine/Fec.lean ====
section
/-!
DEFINITION. The line code of a Holtut link: the Reed-Solomon code RS(478,456) over GF(2^11) (R251), the CRC-8 of control
blocks (R249), the descrambler (R247) and the layout of a FEC frame (R250).
-/

namespace Sys2Proof.Machine

/-! ### GF(2^11) (R251) -/

/-- One step of a product: the partial sum and the multiple of `a`. -/
def gfStep (b : Nat) (acc : Nat × Nat) (i : Nat) : Nat × Nat :=
  (if bitOf b i then acc.1 ^^^ acc.2 else acc.1, if 1024 ≤ acc.2 then (2 * acc.2) ^^^ 0x805 else 2 * acc.2)

/-- The product in the field of x^11 + x^2 + 1. -/
def gfMul (a b : Nat) : Nat := ((List.range 11).foldl (gfStep b) (0, a)).1

/-- A power, by its exponent's 12 bits. -/
def gfPow (a n : Nat) : Nat :=
  ((List.range 12).foldl (fun (acc : Nat × Nat) i =>
    (if bitOf n i then gfMul acc.1 acc.2 else acc.1, gfMul acc.2 acc.2)) (1, a)).1

/-- The inverse of a nonzero element. -/
def gfInv (a : Nat) : Nat := gfPow a 2046

/-- The value of a polynomial, lowest coefficient first. -/
def gfEval (p : List Nat) (x : Nat) : Nat := p.foldr (fun c acc => gfMul acc x ^^^ c) 0

/-- The sum of two polynomials. -/
def gfAdd : List Nat → List Nat → List Nat
  | [], q => q
  | p, [] => p
  | a :: p, b :: q => (a ^^^ b) :: gfAdd p q

/-- The product of two polynomials. -/
def gfConv : List Nat → List Nat → List Nat
  | [], _ => []
  | a :: p, q => gfAdd (q.map (gfMul a)) (0 :: gfConv p q)

/-! ### The decoder (R251, R252) -/

/-- The 22 syndromes of a received word, highest exponent first. -/
def rsSyndromes (word : List Nat) : List Nat :=
  (List.range 22).map fun j => word.foldl (fun acc s => gfMul acc (gfPow 2 j) ^^^ s) 0

/-- The state of the shortest-register search: the connection polynomial, the last one that failed with its discrepancy,
the register's length, and the steps since that failure. -/
structure RsSearch where
  c : List Nat := [1]
  b : List Nat := [1]
  last : Nat := 1
  len : Nat := 0
  gap : Nat := 1
  deriving DecidableEq, Repr

/-- One step of the search at syndrome n. -/
def RsSearch.next (s : List Nat) (r : RsSearch) (n : Nat) : RsSearch :=
  let d := (List.range (r.len + 1)).foldl (fun acc i => acc ^^^ gfMul (r.c.getD i 0) (s.getD (n - i) 0)) 0
  let c2 := gfAdd r.c (List.replicate r.gap 0 ++ r.b.map (gfMul (gfMul d (gfInv r.last))))
  if d = 0 then { r with gap := r.gap + 1 }
  else if 2 * r.len ≤ n then { c := c2, b := r.c, last := d, len := n + 1 - r.len, gap := 1 }
  else { r with c := c2, gap := r.gap + 1 }

/-- The word of 478 symbols corrected, with the number of symbols corrected; none where more than 11 would have to be. -/
def rsDecode (word : List Nat) : Option (List Nat × Nat) :=
  let s := rsSyndromes word
  if s.all (· == 0) then some (word, 0)
  else
    let r := (List.range 22).foldl (RsSearch.next s) {}
    let at_ := (List.range 478).filter fun e => gfEval r.c (gfInv (gfPow 2 e)) == 0
    let omega := (gfConv s r.c).take 22
    let slope := (List.range r.c.length).map fun i => if i % 2 = 0 then r.c.getD (i + 1) 0 else 0
    let fix := fun e =>
      let x := gfPow 2 e
      gfMul x (gfMul (gfEval omega (gfInv x)) (gfInv (gfEval slope (gfInv x))))
    let out := (List.range word.length).map fun m =>
      let e := 477 - m
      if at_.contains e then word.getD m 0 ^^^ fix e else word.getD m 0
    if r.len ≤ 11 ∧ at_.length = r.len ∧ (rsSyndromes out).all (· == 0) then some (out, r.len) else none

/-! ### Blocks (R246 to R249) -/

/-- The CRC-8 of control blocks (R249): x^8 + x^2 + x + 1, initial value 0xFF. -/
def crc8 (l : List Nat) : Nat :=
  l.foldl (fun c b => (List.range 8).foldl (fun c _ => if 128 ≤ c then (2 * c) % 256 ^^^ 7 else 2 * c) (c ^^^ b)) 0xFF

/-- Byte Bi of a block (R246). -/
def blockByte (b : Block66) (i : Nat) : Nat := bitsOf b.payload (8 * i) 8

/-- A control block of a type with the bytes B1 to B6, its CRC-8 in B7. -/
def ctrlBlock (type : Nat) (body : List Nat) : Block66 :=
  { header := 2, payload := type + 256 * (body.foldr (fun b acc => b + 256 * acc) 0) + crc8 body * 2 ^ 56 }

/-- A control block of a type whose other bytes are 0. -/
def plainBlock (type : Nat) : Block66 := { header := 2, payload := type }

/-- The CRC-8 of a STATE, PECK or SOS block holds. -/
def blockCrcOk (b : Block66) : Bool := crc8 ((List.range 6).map fun i => blockByte b (i + 1)) == blockByte b 7

/-- The 66 bits of a block in transmission order, the first the least significant. -/
def blockBits (b : Block66) : Nat := b.header / 2 % 2 + 2 * (b.header % 2) + 4 * (b.payload % 2 ^ 64)

/-- The block of 66 bits. -/
def blockOfBits (n : Nat) : Block66 := { header := 2 * (n % 2) + n / 2 % 2, payload := bitsOf n 2 64 }

/-- One block through the descrambler (R247): the state is the last 58 bits received, the oldest the least significant. -/
def descramble (state : Nat) (b : Block66) : Nat × Block66 :=
  let t := state + b.payload % 2 ^ 64 * 2 ^ 58
  (t / 2 ^ 64, { b with payload := (b.payload ^^^ t / 2 ^ 19 ^^^ t) % 2 ^ 64 })

/-- Blocks through the descrambler. -/
def descrambleAll : Nat → List Block66 → Nat × List Block66
  | st, [] => (st, [])
  | st, b :: r =>
    let (st1, c) := descramble st b
    let (st2, l) := descrambleAll st1 r
    (st2, c :: l)

/-! ### FEC frames (R250) -/

/-- The payload bits of the check blocks. -/
def checkBits (blocks : List Block66) : Nat :=
  (List.range 4).foldl (fun n i => n + (blocks.getD (76 + i) ⟨2, 0⟩).payload % 2 ^ 64 * 2 ^ (64 * i)) 0

/-- The bits of the carried blocks. -/
def carriedBits (blocks : List Block66) : Nat :=
  (blocks.take 76).foldr (fun b acc => blockBits b + 2 ^ 66 * acc) 0

/-- A FEC frame decoded: its carried blocks as sent (still scrambled) and the symbols corrected. -/
def fecDecode (blocks : List Block66) : Option (List Block66 × Nat) :=
  let n := carriedBits blocks
  let c := checkBits blocks
  match rsDecode ((List.range 456).map (fun m => bitsOf n (11 * m) 11) ++ (List.range 22).map fun k => bitsOf c (11 * k) 11) with
  | none => none
  | some (w, k) =>
    let fixed := (w.take 456).foldr (fun s acc => s + 2 ^ 11 * acc) 0
    some ((List.range 76).map fun i => blockOfBits (bitsOf fixed (66 * i) 66), k)

end Sys2Proof.Machine
end

