-- ==== Sys2Proof/Machine/Ingress.lean ====
section
/-!
DEFINITION. Ingress channels: formats (R71 to R73), timestamps (R85, R86), lock (R87), the writer (R76 to R84), frame
completion and abandonment (R89 to R92), input monitoring (R95), concealment (R96), and their rows of the table.
-/

namespace Sys2Proof.Machine

/-- What an ingress channel holds. -/
def Dev.ingm (d : Dev) (n : Nat) : IngMem := KV.get {} d.x.ing n

/-- Changes what an ingress channel holds. -/
def ingUpd (n : Nat) (f : IngMem → IngMem) : Prog := ext fun x => { x with ing := KV.upd {} x.ing n f }

/-- The sources that share their frames: a quadrant group, or the source alone (R92). -/
def Dev.srcGroup (d : Dev) (n : Nat) : List Nat :=
  if d.flag (F.SRC_CTRL_quad_member n) then (List.range 4).map (4 * (n / 4) + ·) else [n]

/-! ### Formats (R71 to R73) -/

/-- The ingress combinations of raster and sampling (R73); 4320p arrives as 2160p quadrants, in 4:2:2 or 4:4:4. -/
def ingressFormat (transport : Nat) (quad : Bool) (f : VideoFmt) : Bool :=
  fmtLegal f.format && decide (f.sampling ≤ 5) && decide (f.depth ≤ 2) &&
  match fmtRaster f.format with
  | 0 | 1 => f.sampling == 0
  | 2 | 3 | 4 | 5 => decide (f.sampling ≤ 4)
  | 6 =>
    if quad then decide (f.sampling ≤ 2)
    else decide (f.sampling ≤ 4) || (f.sampling == 5 && transport == 1)
  | _ => false

/-- The detected format may be written: it agrees with its declaration, is an ingress format and, in FIXED mode, is
the expected one (R71, R73). -/
def Dev.srcFormatOk (d : Dev) (n : Nat) (f : FrameStart) : Bool :=
  (match f.declared with | some g => g == f.measured | none => true) &&
  ingressFormat (d.fld (F.SRC_CTRL_transport n)) (d.flag (F.SRC_CTRL_quad_member n)) f.measured &&
  (!d.flag (F.SRC_CTRL_fmt_mode n) ||
    (f.measured.format == d.fld (F.SRC_FMT_expected n) && f.measured.sampling == d.fld (F.SRC_FMT_exp_sampling n) &&
      f.measured.depth == d.fld (F.SRC_FMT_bit_depth n)))

/-- The detected format's frame exceeds the reservation (R72). -/
def Dev.srcTooLarge (d : Dev) (n : Nat) (f : VideoFmt) : Bool :=
  decide (frameBytes (d.fld (F.SRC_FMT_max_format n)) (d.fld (F.SRC_FMT_max_sampling n)) <
    frameBytes f.format f.sampling)

/-! ### Loss of lock, abandonment -/

/-- Loss of the source's lock; the next frame starts the count afresh (R87). -/
def srcUnlock (n : Nat) : Prog :=
  seq [ingUpd n fun m => { m with lockRun := 0, phase := none },
    doWhen (fun d => d.flag (F.SRC_STATUS_locked n)) (seq [
      setF (F.SRC_STATUS_locked n) 0, raise (F.SRC_ALARM_lock_lost n)])]

/-- A frame in progress is abandoned: it never becomes complete, and its slot is free again (R89). -/
def srcAbandon1 (n : Nat) (seq_ : Nat) : Prog :=
  seq [
    storeUpd n fun st => st.updFrame seq_ fun f => { f with phase := .abandoned },
    ingUpd n fun m => { m with rx := KV.set [] m.rx seq_ [], anc := KV.set [] m.anc seq_ [] },
    inc (R.SRC_CNT_ABANDONED n), raise (F.SRC_ALARM_frame_abandoned n), srcUnlock n]

/-- The frames of a source that are in progress. -/
def Dev.inProgress (d : Dev) (n : Nat) : List Frame :=
  (d.store n).frames.filter fun f => f.phase == .writing || f.phase == .tiled

/-- Abandons every frame in progress of a source and its group (R89, R92). -/
def srcAbandon (n : Nat) : Prog :=
  .read fun d => each (d.srcGroup n) fun q => each (d.inProgress q) fun f => srcAbandon1 q f.rcd.seq

/-! ### Timestamps and lock (R85 to R87) -/

/-- The frame instant of R61 nearest an instant, for a frame period. -/
def nearestFrame (p : Nat) (t : Int) : Int := (2 * t + p) / (2 * p) * p

/-- The transport timestamp on the source's scale and its stamp kind (R85). -/
def Dev.srcStamp (d : Dev) (n : Nat) (f : FrameStart) : Int × Nat :=
  match d.fld (F.SRC_CTRL_transport n) with
  | 1 =>
    let tick : Nat := 33600000
    let now : Int := d.scale (d.fld (F.SRC_TS_scale n))
    let t : Int := (now + centred (2 ^ 32 * tick) ((f.rtp % 2 ^ 32 * tick : Nat) - now))
    let k := nearestFrame (fmtPeriod f.measured.format) t
    (if (k - t).natAbs ≤ tick then k else t, 0)
  | 2 => (f.instant, 2)
  | _ => (f.instant, 1)

/-- The transport timestamp is valid (R86); a first frame has no earlier one to be judged against. -/
def stampValid (p : Nat) (prev : Option Int) (t arrival : Int) : Bool :=
  (match prev with
    | some q => decide ((t - q - p).natAbs ≤ 50000 * nsU)
    | none => true) &&
  decide (t - 1000000 * nsU ≤ arrival) && decide (arrival ≤ t + 2 * p)

/-- Judges a frame's phase (R87): `ph` is T_j relative to the frame instants of R61. -/
def srcLock (n p : Nat) (ph : Int) : Prog :=
  .read fun d =>
    let m := d.ingm n
    let change := match m.phase with
      | some q => some (centred p (ph - q)).natAbs
      | none => none
    seq [
      doIf (match change with | some c => decide (1000 * nsU < c) | none => false) (srcUnlock n),
      .read fun d' =>
        let run := match change with
          | some c => if c ≤ 100 * nsU then (d'.ingm n).lockRun + 1 else 1
          | none => 1
        seq [
          ingUpd n fun m => { m with phase := some ph, lockRun := run },
          wr (R.SRC_PHASE n) (satCode 32 (roundDiv ph nsU)),
          doIf (decide (50 ≤ run)) (setF (F.SRC_STATUS_locked n) 1)]]

/-! ### The start of a frame (R71, R78, R85 to R87, R90) -/

/-- The values latched at a frame start (R25, R77, R79, R88). -/
def srcLatch (n : Nat) : Prog :=
  .read fun d => storeUpd n fun st => { st with
    delay := d.fld (F.SRC_CTRL_delay n), compact := d.flag (F.SRC_CTRL_compact n)
    ratio := min 8 (d.fld (F.SRC_CTRL_ratio n)), guard := min 10000 (d.fld (F.SRC_GUARD_guard_us n)) }

/-- Format detection at a frame start (R71 to R73): adoption after 2 identical frames in AUTO mode, at once in FIXED. -/
def srcDetect (n : Nat) (f : FrameStart) : Prog :=
  .read fun d =>
    let m := d.ingm n
    let ok := d.srcFormatOk n f
    let big := ok && d.srcTooLarge n f.measured
    let adopt := seq [
      doIf m.adopted.isSome (seq [srcUnlock n, srcAbandon n]),
      ingUpd n fun m => { m with adopted := some f.measured, cand := none, prevT := none },
      setF (F.SRC_FMT_DET_valid n) 1, setF (F.SRC_FMT_DET_depth n) f.measured.depth,
      setF (F.SRC_FMT_DET_transfer n) f.measured.transfer,
      setF (F.SRC_FMT_DET_colorimetry n) f.measured.colorimetry,
      setF (F.SRC_FMT_DET_sampling n) f.measured.sampling, setF (F.SRC_FMT_DET_format n) f.measured.format]
    seq [
      statusAlarm (F.SRC_STATUS_format_mismatch n) (F.SRC_ALARM_format_mismatch n) (!ok),
      statusAlarm (F.SRC_STATUS_format_too_large n) (F.SRC_ALARM_format_too_large n) big,
      if !ok || big then seq [ingUpd n fun m => { m with cand := none },
        storeUpd n fun st => { st with producing := false }]
      else if m.adopted = some f.measured then seq [ingUpd n fun m => { m with cand := none },
        storeUpd n fun st => { st with producing := true }]
      else if d.flag (F.SRC_CTRL_fmt_mode n) then
        seq [adopt, storeUpd n fun st => { st with producing := true }]
      else
        let k := match m.cand with
          | some (g, k) => if g = f.measured then k + 1 else 1
          | none => 1
        seq [storeUpd n fun st => { st with producing := false },
          if 2 ≤ k then adopt else ingUpd n fun m => { m with cand := some (f.measured, k) }]]

/-- Skips a frame, in every quadrant of the group (R78, R92). -/
def srcSkip (n : Nat) (t : Int) : Prog :=
  .read fun d => each (d.srcGroup n) fun q => seq [
    inc (R.SRC_CNT_SKIPPED q), raise (F.SRC_ALARM_ingress_skip q), srcUnlock q,
    doIf (q ≠ n) (seq [
      storeUpd q fun st => { st with frames := st.frames.filter fun f => f.phase == .complete || f.phase == .abandoned },
      doIf ((d.inProgress q).isEmpty) (ingUpd q fun m => { m with quadSkip := m.quadSkip ++ [t] })])]

/-- A new frame is written: its stamp, lock, sequence and slot (R78, R85 to R90). -/
def srcFrame (n : Nat) (f : FrameStart) : Prog :=
  .read fun d =>
    let m := d.ingm n
    let scale := d.fld (F.SRC_TS_scale n)
    let now : Int := d.scale scale
    let p := fmtPeriod f.measured.format
    let (v, kind) := d.srcStamp n f
    let valid := stampValid p m.prevT v now
    let inv := if valid then 0 else m.invalid + 1
    let val := if valid then m.valid + 1 else 0
    let tsLocal := if m.tsLocal then decide (val < 50) else decide (3 ≤ inv)
    let fall := tsLocal || d.flag (F.SRC_TS_force_local n)
    let t := if fall then now else v
    let k := if fall then 3 else kind
    let p2 : Int := p
    let ph := centred p (t % p2)
    let ht : Int := t + (d.x.time.ht - now)
    let lead := 4 * (n / 4)
    let tRec := if d.flag (F.SRC_CTRL_quad_member n) && n ≠ lead then
        (match (d.inProgress lead).find? fun g => decide (2 * (g.rcd.t - ht).natAbs < p) with
          | some g => g.rcd.t
          | none => ht)
      else ht
    seq [
      ingUpd n fun m => { m with prevT := some v, invalid := inv, valid := val, tsLocal := tsLocal },
      setB (F.SRC_STATUS_ts_local n) tsLocal,
      doIf (match m.kind with | some q => decide (q ≠ k) | none => false) (srcUnlock n),
      ingUpd n fun m => { m with kind := some k },
      srcLock n p ph,
      .read fun d' =>
        let m := d'.ingm n
        let st := d'.store n
        let sq := match m.seq with
          | some s => (s + 1) % 2 ^ 32
          | none => (tRec / p2).toNat % 2 ^ 32
        let skipQ := m.quadSkip.any fun u => decide (2 * (u - tRec).natAbs < p)
        if skipQ then seq [ingUpd n fun m => { m with quadSkip := [] }]
        else match d'.chooseSlot st m.turn with
          | none => srcSkip n tRec
          | some slot => seq [
            ingUpd n fun m => { m with seq := some sq, turn := m.turn + 1, quadSkip := [] },
            storeUpd n fun st => st.push {
              rcd := { source := n, format := f.measured.format, slot := slot, sampling := f.measured.sampling
                       seq := sq, t := tRec, kind := k, locked := d'.flag (F.SRC_STATUS_locked n)
                       lockScale := scale, tsLocal := tsLocal, compact := st.compact
                       colorimetry := f.measured.colorimetry, transfer := f.measured.transfer
                       depth := f.measured.depth }
              due := tRec + p + st.guard * 1000 * nsU }]]

/-- The start of a frame at an ingress channel. -/
def srcStart (n : Nat) (f : FrameStart) : Prog :=
  seq [srcLatch n, srcDetect n f, doWhen (fun d => (d.store n).producing) (srcFrame n f)]

/-! ### The frame's contents (R74, R76, R80, R82, R83, R96) -/

/-- Trickled pieces are taken from a source (R484): in RECOVERY, in a standby state, or under POLICY.test_mode. -/
def Dev.trickleOn (d : Dev) (n : Nat) : Bool :=
  d.flag F.BOOT_TRICKLE_CTRL_enable && d.fld F.BOOT_TRICKLE_CTRL_source == n &&
  (d.fld F.BOOT_STATUS_phase == 9 || decide (4 ≤ d.tstate) ||
    (match d.x.boot.cfg with | some c => c.policy.testMode | none => false))

/-- A packet is taken from a source for trickle delivery (R484). -/
def Dev.trickleTakes (d : Dev) (n : Nat) (p : AncPacket) : Bool :=
  d.trickleOn n && p.did % 256 == d.fld F.BOOT_TRICKLE_CTRL_did && p.sdid % 256 == d.fld F.BOOT_TRICKLE_CTRL_sdid

/-- Pel words and packets that reach an ingress channel belong to its newest frame in progress; trickled pieces are removed
(R484). -/
def srcReceive (n : Nat) (runs : List PelRun) (anc : List AncPacket) : Prog :=
  .read fun d =>
    match (d.inProgress n).getLast? with
    | some f => ingUpd n fun m => { m with
        rx := KV.upd [] m.rx f.rcd.seq (· ++ runs), anc := KV.upd [] m.anc f.rcd.seq (· ++ anc.filter fun p => !d.trickleTakes n p) }
    | none => .nop

/-- The word received at a stored line and position. -/
def rxWord (rx : List PelRun) (line i : Nat) : Option Nat :=
  match rx.find? fun r => r.line == line && decide (r.first ≤ i) && decide (i < r.first + r.words.length) with
  | some r => r.words[i - r.first]?
  | none => none

/-- A tile is touched by a missing word. -/
def tileMissing (rx : List PelRun) (f s row col : Nat) : Bool :=
  (List.range 16).any fun y =>
    match storedLine f row y with
    | some line => (List.range 64).any fun i =>
        decide (col * 64 + i < pelWords s (fmtWidth f)) && (rxWord rx line (col * 64 + i)).isNone
    | none => false

/-- The substitute of a damaged tile (R96): the same tile of the previous complete frame if it is still in the ring, has
the same format and is not poisoned; otherwise a FLAT tile of black. -/
def Dev.substitute (d : Dev) (st : Store) (fr : Frame) (tile : Nat) : Tile :=
  let black := flatTile (blackWord fr.rcd.sampling 0)
  match d.previous st fr with
  | none => black
  | some p =>
    let g := d.grain
    let da := st.descAddr g p.rcd.slot tile
    let desc := ofLeBytes (Memory.getBytes d.mem da 2)
    let sectors := bitsOf desc 7 7 + 1
    let ta := st.tileAddr g p.rcd.slot tile
    if d.poisoned da 2 || d.poisoned ta (sectors * 32) then black
    else
      { mode := match bitsOf desc 14 2 with | 0 => .compact | 1 => .raw | 2 => .flat | _ => .never
        sectors := sectors
        bytes := Memory.getBytes d.mem ta (sectors * 32) }

/-- The data count word of a packet: even parity in bit 8, its inverse in bit 9 (PRESUMED, ST 291, assumption 28). -/
def dcWord (n : Nat) : Nat :=
  let odd := ((List.range 8).filter fun i => bitOf n i).length % 2
  n % 256 + odd * 256 + (1 - odd) * 512

/-- A packet's checksum holds: the sum of bits 8 to 0 of its words from the DID on (PRESUMED, ST 291, assumption 28). -/
def ancSound (p : AncPacket) : Bool :=
  ((p.did :: p.sdid :: dcWord p.data.length :: p.data).map (· % 512)).sum % 512 == p.checksum % 512

/-- One entry of the ancillary store (R82). -/
def ancBytes (p : AncPacket) : List Byte :=
  let h := p.line % 4096 + boolBit p.hanc * 2 ^ 12 + boolBit p.cStream * 2 ^ 13 + p.data.length % 256 * 2 ^ 16
  let ws := p.did :: p.sdid :: dcWord p.data.length :: p.data ++ [p.checksum]
  let b := leBytes 4 h ++ ws.flatMap fun w => leBytes 2 (w % 1024)
  b ++ List.replicate (roundUp 4 b.length - b.length) 0

/-- The packets an ancillary store keeps: no audio of ST 299-1, ST 299-2 or ST 272 and no ST 352 (R82, R268, R307). -/
def ancStored (p : AncPacket) : Bool :=
  let did := p.did % 256
  let within_ := fun a b => decide (a ≤ did) && decide (did ≤ b)
  !(within_ 0xE0 0xE7 || within_ 0xA0 0xA7 || within_ 0xEC 0xEF || within_ 0xF8 0xFF) && !(did == 0x41 && p.sdid % 256 == 1)

/-- The ancillary store of a frame: its bytes, the packets kept, and how many were dropped (R82). -/
def ancStore (l : List AncPacket) : List Byte × Nat :=
  (l.filter ancStored).foldl (fun acc p =>
    if acc.1.length + (ancBytes p).length ≤ 16384 then (acc.1 ++ ancBytes p, acc.2) else (acc.1, acc.2 + 1)) ([], 0)

/-- The proxy of a frame: a script that writes its tiles RAW in 4:2:2 (R83). -/
def proxyProg (st : Store) (g slot f s colorimetry : Nat) (word : Nat → Nat → Nat) : Prog :=
  let pw := proxyWidth f
  let pixels := fun line =>
    let ps := linePixels s (fmtWidth f) ((List.range (pelWords s (fmtWidth f))).map (word line))
    if isRgb s then ps.map (rgbToYcc colorimetry) else ps
  let lines := (List.range (proxyLines f)).map fun l => proxyLine (fmtWidth f) ((proxySpan f l).map pixels)
  let cols := ceilDiv pw 64
  each (List.range (ceilDiv (proxyLines f) 16)) fun row =>
    each (List.range cols) fun c =>
      memWrite (st.proxyAddr g slot + 3072 * (row * cols + c)) (pelBytes ((List.range 1024).map fun i =>
        match lines[row * 16 + i / 64]? with
        | some l => l.getD (c * 64 + i % 64) (blackWord 0 0)
        | none => blackWord 0 0))

/-- The last tile of a frame is written (R76 to R83, R96): its tiles, its ancillary store and its proxy. -/
def srcTiles (n : Nat) (fr : Frame) : Prog :=
  .read fun d =>
    let m := d.ingm n
    let st := d.store n
    let g := d.grain
    let rx := KV.get [] m.rx fr.rcd.seq
    let f := fr.rcd.format
    let s := fr.rcd.sampling
    let cols := tileCols f s
    let pw := pelWords s (fmtWidth f)
    let sdi := d.fld (F.SRC_CTRL_transport n) == 2
    let missing := fun tile => !sdi && tileMissing rx f s (tile / cols) (tile % cols)
    let damaged := (List.range (tileCount f s)).filter missing
    let conceal := fun tile => if damaged.contains tile then some (d.substitute st fr tile) else none
    let word := fun line i =>
      let (row, y) := lineRow f line
      let tile := row * cols + i / 64
      match conceal tile with
      | some t => (decodeTile s (t.desc true) t.bytes).getD (y * 64 + i % 64) (blackWord s i)
      | none => (rxWord rx line i).getD (blackWord s i)
    let rows := (List.range (tileRows f)).map fun row =>
      tileRowProg st g fr.rcd.slot f s fr.rcd.compact row word conceal
    let info := rows.flatMap (·.2)
    let raw := (info.filter (·.1)).length
    let sectors := (info.map (·.2)).sum
    let bursts := (info.map fun e => ceilDiv e.2 2).sum
    let words := (List.range (fmtLines f)).flatMap fun line => (List.range pw).map fun i => (i, word line i)
    let lumas := (words.filter fun e => lumaWord s e.1).map fun e => e.2 % 4096
    let (anc, dropped) := ancStore (KV.get [] m.anc fr.rcd.seq)
    let proxies := decide (d.fld F.PWR_STATUS_stage < 3)
    seq [
      each rows (·.1),
      memWrite (st.ancAddr g fr.rcd.slot) (anc ++ List.replicate (16384 - anc.length) 0),
      doIf (decide (0 < dropped)) (seq [addCnt (R.SRC_CNT_ANC_DROP n) dropped, raise (F.SRC_ALARM_anc_drop n)]),
      doIf (!damaged.isEmpty) (seq [addCnt (R.SRC_CNT_CONCEAL n) damaged.length, raise (F.SRC_ALARM_concealed n)]),
      doIf fr.rcd.compact (addCnt (R.SRC_CNT_RAW_TILES n) raw),
      setF (F.SRC_COMPACT_RATIO n) (bursts * 64 * 1024 / max 1 (frameBytes f s)),
      setB (F.SRC_STATUS_proxy_paused n) (!proxies),
      match (if proxies && st.proxied then st.chooseProxy else none) with
      | some q => seq [
          storeUpd n fun st => { st with proxies := st.proxies.filter fun e => e.1 ≠ q },
          proxyProg st g q f s fr.rcd.colorimetry word,
          storeUpd n fun st => st.updFrame fr.rcd.seq fun e => { e with proxy := some q }]
      | none => .nop,
      ingUpd n fun m => { m with rx := KV.set [] m.rx fr.rcd.seq [], anc := KV.set [] m.anc fr.rcd.seq [] },
      storeUpd n fun st => st.updFrame fr.rcd.seq fun e => { e with
        phase := .tiled, rows := List.range (tileRows f)
        rcd := { e.rcd with
          concealed := !damaged.isEmpty, tilesConcealed := damaged.length, tilesRaw := raw, sectors := sectors
          digest := crc32c (pelBytes (words.map (·.2)))
          minLuma := lumas.foldl min 4095, maxLuma := lumas.foldl max 0 } }]

/-! ### Completion, decisions and monitoring (R89, R91, R95) -/

/-- The measurements of a complete frame (R95). -/
def srcMonitor (n : Nat) (r : FrameRec) : Prog :=
  .read fun d =>
    let m := d.ingm n
    let fz := if m.lastDigest = some r.digest then m.freezeRun + 1 else 0
    let bl := if r.maxLuma ≤ d.fld (F.SRC_MON_CTRL_black_thresh n) then m.blackRun + 1 else 0
    seq [
      ingUpd n fun m => { m with lastDigest := some r.digest, freezeRun := fz, blackRun := bl },
      if fz = 0 then setF (F.SRC_ALARM_frozen n) 0
      else doIf (decide (d.fld (F.SRC_MON_CTRL_freeze_frames n) ≤ fz)) (raise (F.SRC_ALARM_frozen n)),
      if bl = 0 then setF (F.SRC_ALARM_black n) 0
      else doIf (decide (d.fld (F.SRC_MON_CTRL_black_frames n) ≤ bl)) (raise (F.SRC_ALARM_black n))]

/-- The record of a frame is written and the frame is complete (R89, R90, R95). -/
def srcComplete1 (n : Nat) (fr : Frame) : Prog :=
  .read fun d =>
    let st := d.store n
    let now : Int := d.x.time.ht
    let r := fr.rcd
    seq [
      memWrite (st.recAddr d.grain r.slot) r.bytes,
      storeUpd n fun st => { st.updFrame r.seq (fun e => { e with phase := .complete }) with
        proxies := match fr.proxy with | some q => (q, r) :: st.proxies | none => st.proxies },
      doIf (decide (fr.due < now)) (seq [inc (R.SRC_CNT_LATE n), raise (F.SRC_ALARM_late_arrival n)]),
      wr (R.SRC_ARRIVAL_LAT n) (satCode 32 (roundDiv (now - r.t) nsU)),
      setB (F.SRC_STATUS_stamp_kind_local n) (decide (2 ≤ r.kind)),
      wr (R.SRC_SEQ n) r.seq, wr (R.SRC_DIGEST n) r.digest, inc (R.SRC_CNT_FRAMES n),
      setF (F.SRC_STATUS_no_input n) 0, setF (F.SRC_ALARM_no_input n) 0,
      srcMonitor n r,
      doIf d.mirrors (emit (.decision n {
        format := r.format, sampling := r.sampling, seq := r.seq, t := r.t, kind := r.kind, locked := r.locked
        lockScale := r.lockScale, tsLocal := r.tsLocal, digest := r.digest }))]

/-- A frame whose tiles are written becomes complete when every quadrant has it (R92) and, on a standby in lockstep,
when it has been matched or decided locally (R91). -/
def Dev.srcReady (d : Dev) (n : Nat) (fr : Frame) : Bool :=
  (d.srcGroup n).all fun q => (d.inProgress q).any fun e =>
    e.phase == .tiled && decide (2 * (e.rcd.t - fr.rcd.t).natAbs < fmtPeriod fr.rcd.format) &&
    (!d.lockstep || e.matched || e.own)

/-- Completes a frame, and its partners in the quadrant group, if it is ready. -/
def srcTryComplete (n : Nat) (sq : Nat) : Prog :=
  .read fun d =>
    match (d.inProgress n).find? fun f => f.rcd.seq == sq && f.phase == .tiled with
    | none => .nop
    | some fr => doIf (d.srcReady n fr) (each (d.srcGroup n) fun q =>
        match (d.inProgress q).find? fun e => e.phase == .tiled &&
            decide (2 * (e.rcd.t - fr.rcd.t).natAbs < fmtPeriod fr.rcd.format) with
        | some e => srcComplete1 q e
        | none => .nop)

/-- The digests of a frame and of the active's record are compared (R91, R407). -/
def srcDigest (n sq : Nat) (own digest : Nat) : Prog :=
  doIf (own ≠ digest) (seq [
    inc (R.SRC_CNT_DIGEST_MISMATCH n), raise (F.SRC_ALARM_digest_mismatch n),
    storeUpd n fun st => st.updFrame sq fun f => { f with diff := true }])

/-- A matched frame whose digest is known is compared with the active's (R91). -/
def srcCompare (n sq : Nat) : Prog :=
  .read fun d =>
    match (d.store n).frames.find? fun f => f.rcd.seq == sq && f.phase ≠ .writing && f.far.isSome with
    | some f => seq [srcDigest n sq f.rcd.digest (f.far.getD 0),
        storeUpd n fun st => st.updFrame sq fun e => { e with far := none }]
    | none => .nop

/-- Gives a frame the fields of the active's record (R91); later frames in progress follow its sequence (R90). -/
def srcApply (n sq : Nat) (r : DecisionRec) : Prog :=
  .read fun d =>
    let guard := (d.store n).guard
    seq [
      storeUpd n fun st => st.updFrame sq fun f => { f with
        matched := true, far := some r.digest
        due := r.t + fmtPeriod f.rcd.format + guard * 1000 * nsU
        rcd := { f.rcd with seq := r.seq, t := r.t, kind := r.kind, locked := r.locked, lockScale := r.lockScale
                            tsLocal := r.tsLocal } },
      ingUpd n fun m => { m with
        seq := m.seq.map fun s => (s + r.seq + 2 ^ 32 - sq) % 2 ^ 32
        rx := KV.set [] (KV.set [] m.rx sq []) r.seq (KV.get [] m.rx sq)
        anc := KV.set [] (KV.set [] m.anc sq []) r.seq (KV.get [] m.anc sq) },
      setF (F.SRC_STATUS_decision_local n) 0]

/-- The mirrored record that matches a frame: the nearest T_j within P/2 (R91). -/
def mirrorFor (l : List DecisionRec) (fr : Frame) : Option DecisionRec :=
  (l.filter fun r => decide (2 * (r.t - fr.rcd.t).natAbs ≤ fmtPeriod fr.rcd.format)).foldl
    (fun b r => match b with
      | none => some r
      | some c => if (r.t - fr.rcd.t).natAbs < (c.t - fr.rcd.t).natAbs then some r else some c) none

/-- SDI_RX_TWIN_DIFF of a source's lane: the mean of its own stamps less the active's over the last 64 matched frames, in
units of 1/16 ns (R310). -/
def srcTwinDiff (n : Nat) (fr : Frame) (r : DecisionRec) : Prog :=
  .read fun d => doIf (d.fld (F.SRC_CTRL_transport n) == 2 && fr.rcd.kind == 2) (
    let l := ((fr.rcd.t - r.t) :: (d.ingm n).twinDiffs).take 64
    seq [ingUpd n fun m => { m with twinDiffs := l },
      wr (R.SDI_RX_TWIN_DIFF (d.fld (F.SRC_INPUT_id n))) (satCode 32 (l.sum / (189 * l.length : Nat)))])

/-- On a standby in lockstep a frame with a waiting mirrored record takes it (R91). -/
def srcMatch (n sq : Nat) : Prog :=
  .read fun d =>
    match (d.inProgress n).find? fun f => f.rcd.seq == sq with
    | none => .nop
    | some fr =>
      match (if d.lockstep && !fr.matched && !fr.own then mirrorFor (d.ingm n).mirrors fr else none) with
      | none => seq [srcCompare n sq, srcTryComplete n sq]
      | some r => seq [
          ingUpd n fun m => { m with mirrors := m.mirrors.filter (· ≠ r) },
          srcTwinDiff n fr r,
          srcApply n sq r,
          srcCompare n r.seq,
          srcTryComplete n r.seq]

/-- A mirrored record arrives (R91, R407): it is matched to an undecided frame, compared with a decided one, or kept. -/
def srcMirror (n : Nat) (r : DecisionRec) : Prog :=
  .read fun d =>
    let near := fun (f : Frame) => decide (2 * (r.t - f.rcd.t).natAbs ≤ fmtPeriod f.rcd.format)
    match (d.inProgress n).find? fun f => near f && !f.matched && !f.own with
    | some f => seq [ingUpd n fun m => { m with mirrors := (m.mirrors ++ [r]).drop (m.mirrors.length + 1 - 16) },
        srcMatch n f.rcd.seq]
    | none =>
      match ((d.store n).frames.filter fun f => near f && f.phase ≠ .abandoned).getLast? with
      | some f => seq [
          srcDigest n f.rcd.seq f.rcd.digest r.digest,
          doIf (f.own && (f.rcd.seq ≠ r.seq || f.rcd.t ≠ r.t || f.rcd.kind ≠ r.kind)) (inc R.TWIN_CNT_DECISION_DIFFER),
          storeUpd n fun st => st.updFrame f.rcd.seq fun e => { e with own := false, matched := true }]
      | none => ingUpd n fun m => { m with mirrors := (m.mirrors ++ [r]).drop (m.mirrors.length + 1 - 16) }

/-! ### Entering and leaving ON (R15, R97) -/

/-- SRC_STATUS.source_stopped follows the channel's state and its hogshead (R17). -/
def srcStopped (n : SrcId) : Prog :=
  .read fun d => statusAlarm (F.SRC_STATUS_source_stopped n) (F.SRC_ALARM_source_stopped n)
    (!d.on (.src n) && (d.store n).alloc)

/-- A channel that leaves ON writes no further frames: those in progress are abandoned (R28, R97). -/
def srcLeft (n : SrcId) : Prog :=
  seq [srcAbandon n, storeUpd n fun st => { st with producing := false }, srcStopped n]

/-- WAKING allocates the hogshead if the channel has none of the configured size, and starts adoption, timestamps and
lock afresh (R97); `false` if there is no room (R98). -/
def Dev.srcSize (d : Dev) (n : Nat) : Nat :=
  hogBytes d.grain (d.fld (F.SRC_FMT_max_format n)) (d.fld (F.SRC_FMT_max_sampling n))
    (clampN 1 16 (d.fld (F.SRC_CTRL_depth n))) true

/-- Allocates the hogshead of an ingress channel. -/
def srcAllocate (n : SrcId) : Prog :=
  .read fun d =>
    let size := d.srcSize n
    let d' : Dev := { d with x := { d.x with stores := KV.upd {} d.x.stores n.val fun st => { st with alloc := false } } }
    let keep := (d.store n).alloc && (d.store n).size == size &&
      (d.store n).format == d.fld (F.SRC_FMT_max_format n)
    match (if keep then some (d.store n).base else d'.place size) with
    | none => .nop
    | some base => seq [
        storeUpd n fun st => { st with
          alloc := true, base := base, size := size, proxied := true
          format := d.fld (F.SRC_FMT_max_format n), sampling := d.fld (F.SRC_FMT_max_sampling n)
          depth := clampN 1 16 (d.fld (F.SRC_CTRL_depth n))
          frames := if keep then st.frames.filter fun f => f.phase == .complete else []
          proxies := if keep then st.proxies else [] },
        set64 (R.SRC_HOG_BASE_LO n) (R.SRC_HOG_BASE_HI n) base,
        wr (R.SRC_HOG_SIZE n) (size / 1024)]

/-- What an ingress channel forgets on entering WAKING (R97); the sequence goes on from the last record (R90). -/
def srcFresh (n : SrcId) : Prog :=
  seq [ingUpd n fun m => { seq := m.seq, turn := m.turn }, srcUnlock n,
    clearRegs [R.SRC_FMT_DET n], setF (F.SRC_STATUS_ts_local n) 0, srcLatch n]

/-! ### Meanings -/

/-- INGRESS_FRAME_START (R71 to R73, R78, R85 to R88). -/
def execIngressFrameStart (n : SrcId) (f : FrameStart) (s : State) : Host.Outcome State Fault Refusal :=
  perform .core (doWhen (fun d => d.on (.src n) && (d.store n).alloc) (srcStart n f)) s

/-- INGRESS_FRAME_COMPLETE (R89 to R91, R95): the oldest frame being written has its last tile. -/
def execIngressFrameComplete (n : SrcId) (s : State) : Host.Outcome State Fault Refusal :=
  perform .core (doWhen (fun d => d.on (.src n)) (.read fun d =>
    match ((d.store n).frames.find? fun f => f.phase == .writing) with
    | some fr => seq [srcTiles n fr, srcMatch n fr.rcd.seq]
    | none => .nop)) s

/-- FRAME_ABANDON (R89, R92). -/
def execFrameAbandon (n : SrcId) (s : State) : Host.Outcome State Fault Refusal :=
  perform .core (.read fun d =>
    match (d.inProgress n).head? with
    | some f => each (d.srcGroup n) fun q =>
        each ((d.inProgress q).filter fun e => decide (2 * (e.rcd.t - f.rcd.t).natAbs < fmtPeriod f.rcd.format))
          fun e => srcAbandon1 q e.rcd.seq
    | none => .nop) s

/-- NO_INPUT_TIMEOUT (R95). -/
def execNoInputTimeout (n : SrcId) (s : State) : Host.Outcome State Fault Refusal :=
  perform .core (doWhen (fun d => d.on (.src n))
    (statusAlarm (F.SRC_STATUS_no_input n) (F.SRC_ALARM_no_input n) true)) s

/-- DECISION_MIRROR_RX (R91, R407). -/
def execDecisionMirrorRx (n : SrcId) (r : DecisionRec) (s : State) : Host.Outcome State Fault Refusal :=
  perform .core (seq [twinTake 1, doWhen (fun d => d.lockstep) (srcMirror n r)]) s

/-- DECISION_LOCAL_DEADLINE (R91, R407): the frame is decided with the standby's own values. -/
def execDecisionLocalDeadline (n : SrcId) (seq_ : Nat) (s : State) : Host.Outcome State Fault Refusal :=
  perform .core (doWhen (fun d => d.lockstep && (d.inProgress n).any fun f => f.rcd.seq == seq_ && !f.matched && !f.own)
    (seq [
      storeUpd n fun st => st.updFrame seq_ fun f => { f with own := true },
      inc (R.SRC_CNT_LOCAL n), inc R.TWIN_CNT_DECISION_LOCAL, raise F.TWIN_ALARM_decision_local,
      statusAlarm (F.SRC_STATUS_decision_local n) (F.SRC_ALARM_decision_local n) true,
      srcTryComplete n seq_])) s

/-- What a write of 1 to SRC_CNT_CLEAR clears (R70). -/
def srcCntClear (n : SrcId) : Prog :=
  clearRegs [R.SRC_CNT_FRAMES n, R.SRC_CNT_SKIPPED n, R.SRC_CNT_ABANDONED n, R.SRC_CNT_LATE n,
  R.SRC_CNT_CONCEAL n, R.SRC_CNT_UE n, R.SRC_CNT_OVERTAKE n, R.SRC_CNT_ANC_DROP n, R.SRC_CNT_LOCAL n,
  R.SRC_CNT_DIGEST_MISMATCH n, R.SRC_CNT_RAW_TILES n]

/-- SRC_CNT_CLEAR (R70). -/
def execSrcCntClear (n : SrcId) (s : State) : Host.Outcome State Fault Refusal := perform .core (srcCntClear n) s

end Sys2Proof.Machine
end

