-- ==== Sys2Proof/Machine/Lanes.lean ====
section
/-!
DEFINITION. Lanes and quads (R283 to R298): rates and clock groups, equalisation and link training, monitors and margin
scans, and what makes a lane idle.
-/

namespace Sys2Proof.Machine

/-- What a lane holds. -/
def Dev.lanem (d : Dev) (l : Nat) : LaneMem := KV.get {} d.x.lane l

/-- Changes what a lane holds. -/
def laneUpd (l : Nat) (f : LaneMem → LaneMem) : Prog := ext fun x => { x with lane := KV.upd {} x.lane l f }

/-- A lane and a quad as functions. -/
def laneFn (l : Nat) : Fn := .lane (Fin.ofNat 96 l)
def quadFn (q : Nat) : Fn := .quad (Fin.ofNat 24 q)

/-- A lane's personality (R283): 1 HOLTUT, 2 ETH, 3 SDI. -/
def Dev.lanePers (d : Dev) (l : Nat) : Nat := d.fld (F.LANE_CTRL_personality l)

/-- A lane's rate code (R283). -/
def Dev.laneRate (d : Dev) (l : Nat) : Nat := d.fld (F.LANE_CTRL_rate l)

/-- A lane runs PAM4. -/
def Dev.lanePam4 (d : Dev) (l : Nat) : Bool := decide (d.laneRate l ≤ 1)

/-! ### Rates, groups and plans (R283 to R288) -/

/-- The rate codes a personality permits (R283). -/
def rateLegal (pers rate : Nat) : Bool :=
  match pers with
  | 1 => decide (rate ≤ 2)
  | 2 => decide (rate ≤ 3)
  | 3 => decide (4 ≤ rate) && decide (rate ≤ 12)
  | _ => false

/-- The clock group of a rate code (R283): 1 P, 2 N, 3 S0, 4 S1. -/
def rateGroup (rate : Nat) : Nat :=
  if rate ≤ 1 then 1 else if rate ≤ 3 then 2 else if rate % 2 = 0 then 3 else 4

/-- The clock group a quad's PLL serves, 0 none (R286). -/
def Dev.pllGroup (d : Dev) (q pll : Nat) : Nat :=
  if pll = 0 then (match d.fld (F.QUAD_CTRL_pll_a_group q) with | 1 => 1 | 2 => 2 | _ => 0)
  else match d.fld (F.QUAD_CTRL_pll_b_src q) with
    | 1 => 1 | 2 => 2 | 3 => 3 + d.fld (F.QUAD_CTRL_sdi_family q) | _ => 0

/-- A quad's plan and maps are legal; otherwise the fault code (R286, R288, R296). -/
def Dev.quadConfigFault (d : Dev) (q : Nat) : Option Nat :=
  let perm := fun m => (List.range 4).all fun i => (List.range 4).any fun j => bitsOf m (2 * j) 2 == i
  if d.fld (F.QUAD_CTRL_pll_a_group q) = 3 ∨ (d.pllGroup q 0 ≠ 0 ∧ d.pllGroup q 0 = d.pllGroup q 1) then some 1
  else if !(perm (d.fld (F.QUAD_SWAP_tx_map q)) && perm (d.fld (F.QUAD_SWAP_rx_map q))) then some 2 else none

/-- The lanes of the port whose lowest lane is `m`, by its MAC's speed and lane rate; none where that grouping is not
one of R285. -/
def portLanes (m speed rate : Nat) : Option (List Nat) :=
  let group := fun n => if m % n = 0 then some ((List.range n).map (m + ·)) else none
  match speed, rate with
  | 4, 0 => group 2
  | 4, 1 => group 4
  | 5, 0 => group 4
  | 5, 1 => group 8
  | 4, _ => none
  | 5, _ => none
  | _, _ => some [m]

/-- The MACs whose ports a configuration makes of several lanes: each with the lanes it would take, which are one to
seven above it even where the grouping is not one of R285. -/
def Dev.wideMacs (d : Dev) : List (Nat × List Nat) :=
  ((List.range 96).filter fun m =>
    d.flag (F.MAC_CTRL_enable m) && (d.fld (F.MAC_CTRL_speed m) == 4 || d.fld (F.MAC_CTRL_speed m) == 5)).map fun m =>
      let n := match d.fld (F.MAC_CTRL_speed m), d.laneRate m with | 4, 0 => 2 | 5, 1 => 8 | _, _ => 4
      (m, ((List.range n).map (m + ·)).filter (· < 96))

/-- The lanes of a port in the configuration, lowest first. -/
def Dev.macLanes (d : Dev) (m : Nat) : List Nat :=
  if m = 96 then [] else match d.wideMacs.find? (·.1 == m) with | some e => e.2 | none => [m]

/-- The MAC whose port a lane belongs to. -/
def Dev.laneMac (d : Dev) (l : Nat) : Nat :=
  match d.wideMacs.find? fun e => e.2.contains l with | some e => e.1 | none => l

/-- A port's grouping is one of R285: its lanes are aligned, and all are ETH with one rate code. -/
def Dev.portGrouped (d : Dev) (m : Nat) : Bool :=
  match portLanes m (d.fld (F.MAC_CTRL_speed m)) (d.laneRate m) with
  | some ls => ls.all fun l => decide (l < 96) && d.lanePers l == 2 && d.laneRate l == d.laneRate m
  | none => false

/-- A lane's transmitter needs a clock group (R284, R286). -/
def Dev.laneNeedsPll (d : Dev) (l : Nat) : Bool := d.lanePers l ≠ 3 || d.flag (F.LANE_CTRL_tx_en l)

/-- The PLL of its quad that serves a lane (R286). -/
def Dev.lanePll (d : Dev) (l : Nat) : Option Nat :=
  [0, 1].find? fun p => d.pllGroup (l / 4) p == rateGroup (d.laneRate l)

/-- The fault a lane's configuration gives it as it wakes (R283, R285, R286, R296). -/
def Dev.laneConfigFault (d : Dev) (l : Nat) : Option Nat :=
  if !rateLegal (d.lanePers l) (d.laneRate l) then some 1
  else if d.lanePers l = 2 ∧ (d.wideMacs.any fun e => e.2.contains l && !d.portGrouped e.1) then some 1
  else if d.laneNeedsPll l && (d.lanePll l).isNone then some 1
  else if !d.on (quadFn (l / 4)) then some 4 else none

/-! ### Equalisation (R289 to R292) -/

/-- A lane's adaptation mode (R290): 0 ADAPT, 1 BOUNDED, 2 FIXED; the reserved code counts as ADAPT. -/
def Dev.eqMode (d : Dev) (l : Nat) : Nat :=
  match d.fld (F.LANE_EQ_MODE_mode l) with | 1 => 1 | 2 => 2 | _ => 0

/-- A window whose minimum exceeds its maximum is the single value of its minimum (R290). -/
def window (lo hi : Nat) : Int × Int := (lo, max lo hi)

/-- The permitted range of the CTLE, of the VGA and of DFE tap 1 (R289, R290). -/
def Dev.ctleWin (d : Dev) (l : Nat) : Int × Int :=
  if d.eqMode l = 1 then window (d.fld (F.LANE_EQ_BOUND_ctle_min l)) (d.fld (F.LANE_EQ_BOUND_ctle_max l)) else (0, 31)
def Dev.vgaWin (d : Dev) (l : Nat) : Int × Int :=
  if d.eqMode l = 1 then window (d.fld (F.LANE_EQ_BOUND_vga_min l)) (d.fld (F.LANE_EQ_BOUND_vga_max l)) else (0, 63)
def Dev.dfeWin (d : Dev) (l i : Nat) : Int × Int :=
  let m : Int := if d.eqMode l = 1 ∧ i = 0 then min 127 (d.fld (F.LANE_EQ_BOUND2_dfe1_max l)) else 127
  (-m, m)

/-- The DFE taps and digital FFE taps a lane's rate has (R289). -/
def Dev.dfeTaps (d : Dev) (l : Nat) : List Nat := if d.lanePam4 l then [0] else List.range 5
def Dev.dffeTaps (d : Dev) (l : Nat) : List Nat := if d.lanePam4 l then List.range 24 else []

/-- The transmit FFE taps a lane's rate has (R289). -/
def Dev.txTaps (d : Dev) (l : Nat) : List Nat := if d.lanePam4 l then List.range 5 else [2, 3, 4]

/-- One step of a value: a value outside its window moves toward it, any other toward its target and no further than
the bounds; it never moves by more than one code (R291). -/
def eqStep (win : Int × Int) (cur target : Int) : Int :=
  let aim := clampI win.1 win.2 target
  if cur < aim then cur + 1 else if aim < cur then cur - 1 else cur

/-- Whether a step leaves a value held at a bound (R290): it would have moved past the bound, or it has not moved and was
held already. -/
def eqHeld (win : Int × Int) (cur target : Int) (was : Bool) : Bool :=
  if (cur = win.2 ∧ win.2 < target) ∨ (cur = win.1 ∧ target < win.1) then true
  else was && decide (eqStep win cur target = cur)

/-- The settings FIXED holds a DFE tap and a digital FFE tap at: the values last written, or the value in force. -/
def Dev.dfeFix (d : Dev) (l i : Nat) : Int := (KV.get none (d.lanem l).dfeSet i).getD (d.sfld (F.LANE_DFE l i))
def Dev.dffeFix (d : Dev) (l i : Nat) : Int := (KV.get none (d.lanem l).dffeSet i).getD (d.sfld (F.LANE_DFFE l i))

/-- Sets every equaliser of a lane. -/
def eqPut (l : Nat) (ctle vga : Int) (dfe dffe : Nat → Int) : Prog :=
  .read fun d => seq [
    setF (F.LANE_EQ_STATE_ctle_cur l) ctle.toNat, setF (F.LANE_EQ_STATE_vga_cur l) vga.toNat,
    each (d.dfeTaps l) fun i => setF (F.LANE_DFE l i) (codeOf 8 (dfe i)),
    each (d.dffeTaps l) fun i => setF (F.LANE_DFFE l i) (codeOf 10 (dffe i))]

/-- A scan that is RUNNING ends ABORTED (R294). -/
def scanAbort (l : Nat) : Prog :=
  doWhen (fun d => d.fld (F.LANE_SCAN_RESULT_status l) == 1) (setF (F.LANE_SCAN_RESULT_status l) 3)

/-- Entry to INITIAL (R291): every adapted equaliser starts from the middle of its range, a FIXED lane holds its
settings. -/
def laneInitial (l : Nat) : Prog :=
  .read fun d =>
    let mid := fun (w : Int × Int) => (w.1 + w.2) / 2
    seq [
      scanAbort l,
      setF (F.LANE_EQ_STATE_adapt l) 1, inc (R.LANE_CNT_ADAPT l), setF (F.LANE_EQ_STATE_at_bound l) 0,
      if d.eqMode l = 2 then
        eqPut l (d.fld (F.LANE_EQ_FIX_ctle l)) (d.fld (F.LANE_EQ_FIX_vga l)) (d.dfeFix l) (d.dffeFix l)
      else eqPut l (mid (d.ctleWin l)) (mid (d.vgaWin l)) (fun _ => 0) (fun _ => 0)]

/-- INITIAL completes (R291): the equalisers stand where they converged, within the mode and windows in force, and the
lane has its clock; a scan that waited begins (R294). -/
def laneAdapted (l : Nat) (t : EqTarget) : Prog :=
  .read fun d => seq [
    doIf (d.eqMode l ≠ 2) (
      let into := fun (w : Int × Int) (x : Int) => clampI w.1 w.2 x
      eqPut l (into (d.ctleWin l) t.ctle) (into (d.vgaWin l) t.vga)
        (fun i => into (d.dfeWin l i) (t.dfe.getD i 0)) (fun i => clampI (-511) 511 (t.dffe.getD i 0))),
    setF (F.LANE_EQ_STATE_adapt l) (if d.eqMode l = 2 then 3 else 2),
    setF (F.LANE_STATUS_cdr_lock l) 1,
    doIf (d.lanem l).scanWait (seq [
      laneUpd l fun m => { m with scanWait := false }, wr (R.LANE_SCAN_RESULT l) (2 ^ 30)])]

/-- The 1 ms step (R290, R291): a lane whose mode is FIXED is HELD and moves toward its settings. -/
def laneStep (l : Nat) (t : EqTarget) : Prog :=
  doWhen (fun d => d.on (laneFn l) && decide (2 ≤ d.fld (F.LANE_EQ_STATE_adapt l))) (.read fun d =>
    let ctle : Int := d.fld (F.LANE_EQ_STATE_ctle_cur l)
    let vga : Int := d.fld (F.LANE_EQ_STATE_vga_cur l)
    if d.eqMode l = 2 then seq [
      setF (F.LANE_EQ_STATE_adapt l) 3,
      eqPut l (eqStep (0, 31) ctle (d.fld (F.LANE_EQ_FIX_ctle l))) (eqStep (0, 63) vga (d.fld (F.LANE_EQ_FIX_vga l)))
        (fun i => eqStep (-128, 127) (d.sfld (F.LANE_DFE l i)) (d.dfeFix l i))
        (fun i => eqStep (-512, 511) (d.sfld (F.LANE_DFFE l i)) (d.dffeFix l i))]
    else
      let bounded := d.eqMode l == 1
      let was := d.fld (F.LANE_EQ_STATE_at_bound l)
      let dfe1 := d.sfld (F.LANE_DFE l 0)
      let held :=
        boolBit (bounded && eqHeld (d.ctleWin l) ctle t.ctle (bitOf was 0)) +
        2 * boolBit (bounded && eqHeld (d.vgaWin l) vga t.vga (bitOf was 1)) +
        4 * boolBit (bounded && eqHeld (d.dfeWin l 0) dfe1 (t.dfe.getD 0 0) (bitOf was 2))
      seq [
        setF (F.LANE_EQ_STATE_adapt l) 2,
        eqPut l (eqStep (d.ctleWin l) ctle t.ctle) (eqStep (d.vgaWin l) vga t.vga)
          (fun i => eqStep (d.dfeWin l i) (d.sfld (F.LANE_DFE l i)) (t.dfe.getD i 0))
          (fun i => eqStep (-511, 511) (d.sfld (F.LANE_DFFE l i)) (t.dffe.getD i 0)),
        setF (F.LANE_EQ_STATE_at_bound l) held,
        doIf ((List.range 3).any fun b => bitOf held b && !bitOf was b) (raise (F.LANE_ALARM_at_bound l))])

/-- A write of a DFE or digital FFE tap (R291): it is kept; in FIXED mode a lane that is neither TRACKING nor HELD takes
it at once, any other moves to it step by step. -/
def laneTapWrite (l i : Nat) (dffe : Bool) (v : Nat) : Prog :=
  .read fun d =>
    let x : Int := if dffe then signedOf 10 v else signedOf 8 v
    seq [
      laneUpd l fun m =>
        if dffe then { m with dffeSet := KV.set none m.dffeSet i (some x) }
        else { m with dfeSet := KV.set none m.dfeSet i (some x) },
      doIf (d.eqMode l == 2 && decide (d.fld (F.LANE_EQ_STATE_adapt l) < 2))
        (if dffe then setF (F.LANE_DFFE l i) v else setF (F.LANE_DFE l i) v)]

/-- The transmit FFE set exceeds 63 in total and is scaled down (R289). -/
def txScaled (l : Nat) : Prog :=
  doWhen (fun d => decide (63 < ((d.txTaps l).map fun i => (d.sfld (F.LANE_TXFFE l i)).natAbs).sum))
    (raise (F.LANE_ALARM_txffe_scaled l))

/-- A coefficient request of the link partner (R292). -/
def ltRequest (l : Nat) (q : LtRequest) : Prog :=
  doWhen (fun d => d.on (laneFn l) && d.lanePers l == 2 && d.flag (F.LANE_EQ_MODE_lt_en l)) (.read fun d =>
    let bound : Int := if d.eqMode l = 1 then d.fld (F.LANE_TXFFE_BOUND l) else 63
    let answer := fun a => emit (.ltAnswer l a)
    let move := fun tap (by_ : Int) =>
      let cur := d.sfld (F.LANE_TXFFE l tap)
      let new := clampI (-bound) bound (cur + by_)
      if !(d.txTaps l).contains tap then answer .notUpdated
      else seq [
        setF (F.LANE_TXFFE l tap) (codeOf 7 new), txScaled l,
        answer (if new ≠ cur + by_ then (if 0 < by_ then .maximum else .minimum) else .updated)]
    if d.eqMode l = 2 then answer .notUpdated
    else match q with
      | .inc tap => move tap 1
      | .dec tap => move tap (-1)
      | .preset => seq [
          each (d.txTaps l) fun i => setF (F.LANE_TXFFE l i) (if i = 3 then bound.toNat else 0),
          answer (if bound < 63 then .maximum else .updated)])

/-! ### Monitors and scans (R293, R294) -/

/-- An eye register: an NRZ lane reports the middle eye only (R293). -/
def eyeWord (pam4 : Bool) (e : Nat × Nat × Nat) : Nat :=
  (if pam4 then e.1 % 256 * 2 ^ 16 + e.2.2 % 256 else 0) + e.2.1 % 256 * 2 ^ 8

/-- The readings of a lane in TRACKING or HELD (R293). -/
def laneMonitor (l : Nat) (m : LaneMon) : Prog :=
  doWhen (fun d => d.on (laneFn l) && decide (2 ≤ d.fld (F.LANE_EQ_STATE_adapt l))) (.read fun d => seq [
    wr (R.LANE_EYE_H l) (eyeWord (d.lanePam4 l) m.eyeH), wr (R.LANE_EYE_W l) (eyeWord (d.lanePam4 l) m.eyeW),
    wr (R.LANE_SNR l) (min m.snr 1023), addCnt (R.LANE_CNT_MON_ERR l) m.errors])

/-- LOW_MARGIN (R293). -/
def laneMargin (l : Nat) (below : Bool) : Prog :=
  .read fun d =>
    let snr := d.rd (R.LANE_SNR l)
    let lim := d.fld (F.LANE_MARGIN_snr_min l)
    if below then doIf (decide (snr < lim)) (statusAlarm (F.LANE_STATUS_low_margin l) (F.LANE_ALARM_low_margin l) true)
    else doIf (decide (lim + 10 < snr)) (setF (F.LANE_STATUS_low_margin l) 0)

/-- A request for a margin scan (R294). -/
def laneScanGo (l : Nat) : Prog :=
  doWhen (fun d => d.on (laneFn l)) (.read fun d =>
    let wait := d.fld (F.LANE_EQ_STATE_adapt l) == 1
    seq [laneUpd l fun m => { m with scanWait := wait }, wr (R.LANE_SCAN_RESULT l) (if wait then 0 else 2 ^ 30)])

/-! ### Leaving ON, sleep (R295, R296) -/

/-- A lane leaves ON: its receiver delivers nothing, a scan ends, nothing adapts. -/
def laneStopped (l : Nat) : Prog :=
  seq [scanAbort l, laneUpd l fun m => { m with scanWait := false },
    setF (F.LANE_EQ_STATE_adapt l) 0, setF (F.LANE_STATUS_cdr_lock l) 0, setF (F.LANE_STATUS_rx_rate l) 0,
    setF (F.LANE_STATUS_tx_pll_lock l) 0, setF (F.LANE_STATUS_low_margin l) 0]

/-- A lane enters WAKING: its polarity is latched (R288). -/
def laneWaking (l : Nat) : Prog :=
  .read fun d => seq [
    laneUpd l fun m => { m with txInv := d.flag (F.LANE_POL_tx_inv l), rxInv := d.flag (F.LANE_POL_rx_inv l) },
    setF (F.LANE_STATUS_asleep l) 0]

/-- A lane reaches ON: its transmitter's PLL is locked. -/
def laneStarted (l : Nat) : Prog :=
  .read fun d => setB (F.LANE_STATUS_tx_pll_lock l) (d.laneNeedsPll l)

/-- A supplier's transport and number name a lane: an SDI lane's bindings (R295). -/
def Dev.sdiBound (d : Dev) (l : Nat) : Bool :=
  (d.regs.any fun e =>
    (e.1.kind == .SRC_CTRL && d.flag (F.SRC_CTRL_enable e.1.i) && d.fld (F.SRC_CTRL_transport e.1.i) == 2 &&
        d.fld (F.SRC_INPUT_id e.1.i) == l) ||
    (e.1.kind == .DST_CTRL && d.flag (F.DST_CTRL_enable e.1.i) && d.fld (F.DST_CTRL_transport e.1.i) == 2 &&
        d.fld (F.DST_OUTPUT_id e.1.i) == l)) ||
  (d.x.aud.ins.any fun e => d.fld (F.AIN_BIND_kind e.1) == 1 && d.fld (F.AIN_BIND_id e.1) == l)

/-- A MAC has a flow context bound or a PTP time base assigned (R295). -/
def Dev.macBound (d : Dev) (m : Nat) : Bool :=
  d.fld (F.PORT_PTP_CTRL_tb m) ≠ 0 ||
  d.regs.any fun e =>
    (e.1.kind == .FLOW_RX_CTRL && d.flag (F.FLOW_RX_CTRL_enable e.1.i) &&
      [0, 1].any fun g => d.flag (F.FLOW_RX_LEG_leg_en e.1.i g) && d.fld (F.FLOW_RX_LEG_port e.1.i g) == m) ||
    (e.1.kind == .FLOW_TX_CTRL && d.flag (F.FLOW_TX_CTRL_enable e.1.i) &&
      [0, 1].any fun g => d.flag (F.FLOW_TX_LEG_leg_en e.1.i g) && d.fld (F.FLOW_TX_LEG_port e.1.i g) == m)

/-- A lane is idle: it carries no traffic the routing core needs (R295). -/
def Dev.laneIdle (d : Dev) (l : Nat) : Bool :=
  match d.lanePers l with
  | 1 => d.fld (F.HLK_CTRL_role l) == 0 && d.fld (F.HLK_STATE_tx_state l) == 1 && d.fld (F.HLK_STATE_rx_state l) == 5
  | 2 => !d.macBound (d.laneMac l)
  | 3 => !d.sdiBound l
  | _ => false

/-- A sleeping lane that software has not disabled wakes (R295). -/
def laneWake (l : Nat) : Prog :=
  doWhen (fun d => d.flag (F.LANE_CTRL_enable l) && d.fst (laneFn l) == .off && (d.fw (laneFn l)).asleep)
    (seq [fnWake (laneFn l), laneWaking l, laneUpd l fun m => { m with woke := true }])

/-- An idle lane that may sleep goes to sleep (R295). -/
def laneSleep (l : Nat) : Prog :=
  doWhen (fun d => d.flag (F.LANE_CTRL_sleep_ok l) && d.laneIdle l)
    (seq [laneUpd l fun m => { m with woke := false }, fnSleep (laneFn l)])

/-! ### The meanings -/

/-- LANE_EQ_STEP (R291). -/
def execLaneEqStep (l : LaneId) (t : EqTarget) (s : State) : Host.Outcome State Fault Refusal :=
  perform .core (laneStep l t) s

/-- LT_COEF_REQUEST (R292). -/
def execLtCoefRequest (l : LaneId) (q : LtRequest) (s : State) : Host.Outcome State Fault Refusal :=
  perform .core (ltRequest l q) s

/-- LANE_MONITOR_UPDATE (R293). -/
def execLaneMonitorUpdate (l : LaneId) (m : LaneMon) (s : State) : Host.Outcome State Fault Refusal :=
  perform .core (laneMonitor l m) s

/-- LOW_MARGIN (R293). -/
def execLowMargin (l : LaneId) (below : Bool) (s : State) : Host.Outcome State Fault Refusal :=
  perform .core (laneMargin l below) s

/-- LANE_SCAN_GO (R294). -/
def execLaneScanGo (l : LaneId) (s : State) : Host.Outcome State Fault Refusal := perform .core (laneScanGo l) s

/-- SCAN_DONE (R294). -/
def execScanDone (l : LaneId) (errors : Nat) (s : State) : Host.Outcome State Fault Refusal :=
  perform .core (doWhen (fun d => d.fld (F.LANE_SCAN_RESULT_status l) == 1)
    (seq [wr (R.LANE_SCAN_RESULT l) (2 ^ 31 + min errors 0xFFFFFF), raise (F.LANE_ALARM_scan_done l)])) s

/-- LANE_SIGNAL_DETECT (R291): a receiver whose adaptation a link in electrical idle keeps does not begin again (R256). -/
def execLaneSignalDetect (l : LaneId) (s : State) : Host.Outcome State Fault Refusal :=
  perform .core (doWhen (fun d => d.on (laneFn l) && d.flag (F.LANE_CTRL_rx_en l)) (seq [
    setF (F.LANE_STATUS_signal l) 1,
    doWhen (fun d => d.fld (F.LANE_EQ_STATE_adapt l) ≠ 1 &&
      !(d.lanePers l == 1 && decide (5 ≤ d.fld (F.HLK_STATE_rx_state l)))) (laneInitial l)])) s

/-- LANE_SIGNAL_LOSS (R296). -/
def execLaneSignalLoss (l : LaneId) (s : State) : Host.Outcome State Fault Refusal :=
  perform .core (doWhen (fun d => d.on (laneFn l)) (seq [
    setF (F.LANE_STATUS_signal l) 0, inc (R.LANE_CNT_SIGNAL_LOSS l), raise (F.LANE_ALARM_signal_lost l)])) s

/-- LANE_CDR_LOCK_LOSS (R296). -/
def execLaneCdrLockLoss (l : LaneId) (s : State) : Host.Outcome State Fault Refusal :=
  perform .core (doWhen (fun d => d.on (laneFn l)) (seq [
    setF (F.LANE_STATUS_cdr_lock l) 0, inc (R.LANE_CNT_CDR_LOSS l), raise (F.LANE_ALARM_cdr_lock_lost l)])) s

/-- What a write of 1 to LANE_CNT_CLEAR clears (R297). -/
def laneCntClear (l : LaneId) : Prog :=
  clearRegs [R.LANE_CNT_SIGNAL_LOSS l, R.LANE_CNT_CDR_LOSS l, R.LANE_CNT_ADAPT l, R.LANE_CNT_MON_ERR l]

/-- LANE_CNT_CLEAR (R297). -/
def execLaneCntClear (l : LaneId) (s : State) : Host.Outcome State Fault Refusal := perform .core (laneCntClear l) s

end Sys2Proof.Machine
end

