-- ==== Sys2Proof/Machine/Hlk.lean ====
section
/-!
DEFINITION. The Holtut link (R245 to R282): receive states, FEC frames, STATE blocks, segments in both directions, time
transfer, twin fragments, capacity planning and electrical idle.
-/

namespace Sys2Proof.Machine

/-- What a link holds. -/
def Dev.hlkm (d : Dev) (l : Nat) : HlkMem := KV.get {} d.x.hlk l

/-- Changes what a link holds. -/
def hlkUpd (l : Nat) (f : HlkMem → HlkMem) : Prog := ext fun x => { x with hlk := KV.upd {} x.hlk l f }

/-- A link as a function. -/
def hlkFn (l : Nat) : Fn := .hlk (Fin.ofNat 96 l)

/-- A link is a TWIN lane (R260). -/
def Dev.hlkTwin (d : Dev) (l : Nat) : Bool := d.fld (F.HLK_CTRL_role l) == 1

/-- The receive state (R256): 0 RX_DOWN, 1 RX_TRAIN, 2 RX_BLOCK, 3 RX_FEC, 4 RX_UP, 5 RX_IDLE. -/
def Dev.rxState (d : Dev) (l : Nat) : Nat := d.fld (F.HLK_STATE_rx_state l)

/-- FEC is on (R245). -/
def Dev.hlkFec (d : Dev) (l : Nat) : Bool := decide (d.fld (F.HLK_CTRL_rate l) ≤ 1) || d.flag (F.HLK_CTRL_fec l)

/-- The fault a link's configuration gives it as it wakes (R245, R281, R283). -/
def Dev.hlkConfigFault (d : Dev) (l : Nat) : Option Nat :=
  if d.fst (laneFn l) == .fault then some 4
  else if 2 < d.fld (F.HLK_CTRL_rate l) ∨ d.lanePers l ≠ 1 ∨ d.laneRate l ≠ d.fld (F.HLK_CTRL_rate l) then some 1
  else none

/-! ### Bindings (R276) -/

/-- The sources a receive flow feeds: flow number q = 64 × lane + flow. -/
def Dev.hlkSources (d : Dev) (q : Nat) : List Nat :=
  (d.keysOf .SRC_CTRL).filter fun n =>
    d.flag (F.SRC_CTRL_enable n) && d.fld (F.SRC_CTRL_transport n) == 0 && d.fld (F.SRC_INPUT_id n) == q

/-- The destination whose data a transmit flow carries: the lowest-numbered claimant (R138). -/
def Dev.hlkDest (d : Dev) (q : Nat) : Option Nat :=
  (d.keysOf .DST_CTRL).find? fun n =>
    d.flag (F.DST_CTRL_enable n) && d.fld (F.DST_CTRL_transport n) == 0 && d.fld (F.DST_OUTPUT_id n) == q

/-- A flow of the lane is bound in either direction (R280). -/
def Dev.hlkBound (d : Dev) (l : Nat) : Bool :=
  ((d.keysOf .SRC_CTRL).any fun n =>
    d.flag (F.SRC_CTRL_enable n) && d.fld (F.SRC_CTRL_transport n) == 0 && d.fld (F.SRC_INPUT_id n) / 64 == l) ||
  ((d.keysOf .DST_CTRL).any fun n =>
    d.flag (F.DST_CTRL_enable n) && d.fld (F.DST_CTRL_transport n) == 0 && d.fld (F.DST_OUTPUT_id n) / 64 == l) ||
  (d.x.aud.ins.any fun e => d.fld (F.AIN_BIND_kind e.1) == 2 && d.fld (F.AIN_BIND_id e.1) / 64 == l) ||
  (d.x.opqRx.any fun e => e.1 / 64 == l && e.2.isSome) || (d.x.opqTx.any fun e => e.1 / 64 == l && e.2.isSome)

/-! ### Capacity (R277) -/

/-- Blocks of a video segment of w pel words, and of an audio bundle of c channels and s samples. -/
def videoBlocks (w : Nat) : Nat := 1 + ceilDiv (28 + 3 * w) 8
def bundleBlocks (c s : Nat) : Nat := 1 + ceilDiv (20 + 3 * c * s) 8

/-- The segments of a line of w pel words (R264): each segment's first word and its count. -/
def lineSegments (w : Nat) : List (Nat × Nat) :=
  (List.range (ceilDiv w 1024)).map fun i => (1024 * i, min 1024 (w - 1024 * i))

/-- The planned demand of a destination's flow, in blocks per 1,001 s. -/
def Dev.hlkDemand (d : Dev) (n : Nat) : Nat :=
  let f := d.dstPlan n
  let rate := secU * 1001 / max 1 (fmtPeriod f)
  let line := ((lineSegments (pelWords (d.fld (F.DST_CTRL_out_sampling n)) (fmtWidth f))).map fun e => videoBlocks e.2).sum
  let c := d.fld (F.AUD_DGRP_count n)
  let audio := if c = 0 then 0 else if d.aud96 then bundleBlocks c 12 * 8000 else bundleBlocks c 6 * 8000
  (line * fmtLines f + 2306) * rate + audio * 1001

/-- The flows of a lane with the destinations they carry. -/
def Dev.hlkTxFlows (d : Dev) (l : Nat) : List (Nat × Nat) :=
  (List.range 64).filterMap fun f => (d.hlkDest (64 * l + f)).map fun n => (f, n)

/-- The demand of a lane, in blocks per 1,001 s. -/
def Dev.hlkLaneDemand (d : Dev) (l : Nat) : Nat := ((d.hlkTxFlows l).map fun e => d.hlkDemand e.2).sum

/-- The demand of a lane exceeds its planning limit. -/
def Dev.hlkOver (d : Dev) (l : Nat) : Bool :=
  let bps := match d.fld (F.HLK_CTRL_rate l) with | 0 => 106250000000 | 1 => 53125000000 | _ => 25781250000
  let (num, den) := if d.hlkFec l then (bps * 76, 66 * 80) else (bps, 66)
  decide (num * 2047 * 995 * 1001 < d.hlkLaneDemand l * den * 2048 * 1000)

/-- HLK_PLAN, HLK_TXFf_PLAN and HLK_TXFf_STATUS of a lane follow its bindings. -/
def hlkPlan (l : Nat) : Prog :=
  .read fun d => seq [
    wr (R.HLK_PLAN l) (d.hlkLaneDemand l / 1001000),
    each (List.range 64) fun f =>
      match d.hlkDest (64 * l + f), KV.get none d.x.opqTx (64 * l + f) with
      | some n, _ => seq [wr (R.HLK_TXF_PLAN l f) (d.hlkDemand n / 1001000), wr (R.HLK_TXF_STATUS l f) (2 ^ 31 + n)]
      | none, some c => seq [wr (R.HLK_TXF_PLAN l f) 0, wr (R.HLK_TXF_STATUS l f) (2 ^ 31 + 2 ^ 30 + c)]
      | none, none => seq [wr (R.HLK_TXF_PLAN l f) 0, wr (R.HLK_TXF_STATUS l f) 0]]

/-! ### STATE blocks (R273) -/

/-- The role a unit sends (R401): 0 unpaired or seeking, 1 active, 2 standby. -/
def Dev.twinRole (d : Dev) : Nat :=
  match d.tstate with | 0 => 0 | 1 => 0 | 2 => 1 | 3 => 1 | _ => 2

/-- The select bit of R401: 1 while unpaired or active. -/
def Dev.twinSelect (d : Dev) : Bool := d.tstate == 0 || d.tstate == 2 || d.tstate == 3

/-- The STATE block a link sends. -/
def Dev.stateBlock (d : Dev) (l : Nat) : Block66 :=
  let id := d.rd (R.HLK_PAIR_ID l)
  ctrlBlock 0x4B [
    16 * boolBit d.lockstep + 4 * d.twinRole + 2 * boolBit d.twinSelect + boolBit (d.rxState l == 4),
    d.fld F.TWIN_STATUS_epoch, bitsOf id 0 8, bitsOf id 8 8, bitsOf id 16 8, bitsOf id 24 8]

/-- The transmitter runs: blocks are sent (R278). -/
def Dev.hlkSending (d : Dev) (l : Nat) : Bool := d.on (hlkFn l) && d.fld (F.HLK_STATE_tx_state l) == 0

/-- Sends a STATE block. -/
def hlkSendState (l : Nat) : Prog :=
  doWhen (fun d => d.hlkSending l) (.read fun d => emit (.hlkBlock l (d.stateBlock l)))

/-- Every link sends a STATE, as a field of it has changed (R273). -/
def hlkSendStates : Prog := each (List.range 96) hlkSendState

/-! ### Link UP and the receive states (R256, R278, R279) -/

/-- Samples from a link stop (R278). -/
def hlkAudioLost (l : Nat) : Prog :=
  .read fun d =>
    each ((d.x.aud.ins.map (·.1)).filter fun i => d.fld (F.AIN_BIND_kind i) == 2 && d.fld (F.AIN_BIND_id i) / 64 == l &&
      decide (1 ≤ d.ainState i)) fun i => audLose i true

/-- A STATE with rx_up 1 has arrived within the last 1 ms. -/
def Dev.hlkFarUp (d : Dev) (l : Nat) : Bool :=
  match (d.hlkm l).upAt with | some t => decide (d.x.time.clk ≤ t + 1000000 * nsU) | none => false

/-- HLK_STATE.link_up follows R278. A link that leaves UP raises LINK_DOWN, unless the far end is in electrical idle, and
its flows deliver nothing. -/
def hlkLink (l : Nat) : Prog :=
  .read fun d =>
    let up := d.rxState l == 4 && d.hlkFarUp l
    if up == d.flag (F.HLK_STATE_link_up l) then .nop
    else seq [
      setB (F.HLK_STATE_link_up l) up,
      doIf (!up) (seq [
        doIf (d.rxState l ≠ 5) (raise (F.HLK_ALARM_link_down l)),
        each (List.range 64) fun f => setF (F.HLK_RXF_STATUS_active l f) 0,
        hlkUpd l fun m => { m with rxSeq := [], video := [], anc := [], seen := [] },
        hlkAudioLost l])]

/-- The receiver changes its state (R256): a change of rx_up is sent at once (R273). -/
def hlkRx (l new : Nat) : Prog :=
  .read fun d =>
    let was := d.rxState l
    seq [
      setF (F.HLK_STATE_rx_state l) new,
      doIf (was ≠ new) (hlkUpd l fun m => { m with segLeft := none, counted := false }),
      doIf (new == 4 && was ≠ 4) (seq [
        hlkUpd l fun m => { m with fromIdle := false, uncorr := [] }, setF (F.HLK_BUF_FILL l) 32]),
      doIf ((new == 4) ≠ (was == 4)) (hlkSendState l),
      hlkLink l]

/-- A retrain, rung 1 (R256, R279, R291). -/
def hlkRetrain (l : Nat) : Prog :=
  seq [hlkRx l 1, hlkUpd l fun m => { m with fromIdle := false }, laneInitial l,
    inc (R.HLK_CNT_RETRAIN l), raise (F.HLK_ALARM_retrain l), fnRung (hlkFn l) 1]

/-- A function's third failed retry within 10 s: firmware re-initialises it, until three re-initialisations within 60 s
are exhausted and it enters FAULT with the code (R34). -/
def fnExhaust (f : Fn) (code : Nat) : Prog :=
  seq [fnRetryFailed f, .read fun d =>
    let now := d.x.time.clk
    doIf (decide (3 ≤ (counted now (10 * secU) (d.fnm f).retries).length))
      (if 3 ≤ (counted now (60 * secU) (d.fnm f).reinits).length then fnFault f code else fnEscalate f)]

/-- Signal detected (R256). -/
def hlkDetect (l : Nat) : Prog :=
  doWhen (fun d => d.on (hlkFn l)) (.read fun d =>
    match d.rxState l with
    | 0 => seq [setF (F.LANE_STATUS_signal l) 1, hlkRx l 1, laneInitial l]
    | 5 => seq [setF (F.LANE_STATUS_signal l) 1, hlkRx l 2, hlkUpd l fun m => { m with fromIdle := true }]
    | _ => .nop)

/-- Signal lost (R256): a SLEEP block in the last 1 ms announces electrical idle. -/
def hlkLoss (l : Nat) : Prog :=
  doWhen (fun d => d.on (hlkFn l) && d.rxState l ≠ 0) (.read fun d =>
    let slept := match (d.hlkm l).sleepAt with
      | some t => decide (d.x.time.clk ≤ t + 1000000 * nsU)
      | none => false
    if slept && d.rxState l ≠ 5 then hlkRx l 5
    else seq [hlkRx l 0, hlkUpd l fun m => { m with fromIdle := false }, raise (F.HLK_ALARM_link_down l)])

/-- A link leaves ON (R281): nothing is delivered; a link in FAULT stands in electrical idle. -/
def hlkStopped (l : Nat) : Prog :=
  .read fun d => seq [
    hlkAudioLost l,
    doIf (d.flag (F.HLK_STATE_link_up l)) (raise (F.HLK_ALARM_link_down l)),
    wr (R.HLK_STATE l) (if d.fst (hlkFn l) == .fault then 2 ^ 16 else 0),
    each (List.range 64) fun f => setF (F.HLK_RXF_STATUS_active l f) 0,
    setF (F.HLK_BUF_FILL l) 0,
    hlkUpd l fun m => { txSeq := m.txSeq }]

/-- A link reaches ON: its transmitter runs. -/
def hlkStarted (l : Nat) : Prog := seq [setF (F.HLK_STATE_tx_state l) 0, hlkPlan l]

/-! ### FEC frames (R250 to R252, R257) -/

/-- What the blocks of a frame do to a receiver: the segment in progress, the blocks discarded (R249), the segments cut
short (R258), and whether a SLEEP block came. -/
structure BlockScan where
  left : Option Nat
  bad : Nat := 0
  cut : Nat := 0
  slept : Bool := false
  deriving DecidableEq, Repr

/-- The segment in progress is cut short. -/
def BlockScan.stop (b : BlockScan) : BlockScan :=
  { b with cut := b.cut + boolBit b.left.isSome, left := none }

/-- A block is discarded and counted; it cuts a segment short. -/
def BlockScan.discard (b : BlockScan) : BlockScan := { b.stop with bad := b.bad + 1 }

/-- One block (R248, R249, R258). -/
def BlockScan.take (b : BlockScan) (k : Block66) : BlockScan :=
  if k.header = 1 then
    match b.left with
    | some n => { b with left := if n ≤ 1 then none else some (n - 1) }
    | none => { b with bad := b.bad + 1 }
  else if k.header ≠ 2 then b.discard
  else
    let zero := k.payload / 256 = 0
    match blockByte k 0 with
    | 0x1E => if zero then b.stop else b.discard
    | 0x2D => if zero then b else b.discard
    | 0x4B => if blockCrcOk k then b else b.discard
    | 0x66 => if blockCrcOk k then b else b.discard
    | 0x78 =>
      if !blockCrcOk k then b.discard
      else
        let n := bitsOf k.payload 24 11
        if n = 0 ∨ 1152 < n then { b.stop with cut := b.stop.cut + 1 } else { b.stop with left := some n }
    | 0x99 => if zero then { b.stop with slept := true } else b.discard
    | _ => b.discard

/-- The elastic buffer over the carried blocks (R257): its fill, the FILLERs deleted and those inserted. -/
def elastic (fill : Nat) : List Block66 → Nat × Nat × Nat
  | [] => (fill, 0, 0)
  | k :: r =>
    let filler := k.header == 2 && k.payload == 0x2D
    let del := decide (40 < fill) && filler
    let ins := decide (fill < 24)
    let (f, a, b) := elastic (if del then fill - 1 else if ins then fill + 1 else fill) r
    (f, a + boolBit del, b + boolBit (!del && ins))

/-- A frame of blocks arrives at a receiver in RX_UP. -/
def hlkFrame (l : Nat) (f : FecFrame) : Prog :=
  doWhen (fun d => d.on (hlkFn l) && d.rxState l == 4) (.read fun d =>
    let m := d.hlkm l
    let fec := d.hlkFec l
    let ctr := bitsOf (checkBits f.blocks) 248 8
    let gap := fec && m.counted && ctr ≠ (d.fld (F.HLK_FEC_COUNTER l) + 1) % 256
    let dec : Option (List Block66 × Nat) := if fec then fecDecode f.blocks else some (f.blocks, 0)
    let sent := match dec with | some e => e.1 | none => f.blocks.take 76
    let (scram, clear) := descrambleAll m.scram sent
    let fill : Int := d.fld (F.HLK_BUF_FILL l) + f.drift
    let lost := decide (fill ≤ 0) || decide (64 ≤ fill)
    let carried := if dec.isNone || lost then List.replicate clear.length (plainBlock 0x1E) else clear
    let (fill2, del, ins) := elastic (if lost then 32 else fill.toNat) carried
    let scan := carried.foldl BlockScan.take { left := m.segLeft }
    let now := d.x.time.clk
    let uncorr := if dec.isNone then now :: within now (1000000 * nsU) m.uncorr else m.uncorr
    seq [
      doIf fec (setF (F.HLK_FEC_COUNTER l) ctr),
      doIf gap (inc (R.HLK_CNT_FRAME_GAP l)),
      (match dec with
        | some e => addCnt (R.HLK_CNT_FEC_CORR l) e.2
        | none => seq [inc (R.HLK_CNT_FEC_UNCORR l), raise (F.HLK_ALARM_fec_uncorr l)]),
      doIf lost (raise (F.HLK_ALARM_rate_match l)),
      setF (F.HLK_BUF_FILL l) fill2, addCnt (R.HLK_CNT_FILL_DEL l) del, addCnt (R.HLK_CNT_FILL_INS l) ins,
      addCnt (R.HLK_CNT_BAD_BLOCK l) scan.bad,
      doIf (decide (0 < scan.cut)) (seq [addCnt (R.HLK_CNT_SEG_BAD l) scan.cut, raise (F.HLK_ALARM_seg_bad l)]),
      hlkUpd l fun m => { m with scram := scram, counted := fec, segLeft := scan.left, uncorr := uncorr,
                                 sleepAt := if scan.slept then some now else m.sleepAt },
      doIf (decide (64 < uncorr.length)) (hlkRetrain l)])

/-- A STATE block arrives (R249, R256, R273, R278). -/
def hlkState (l : Nat) (b : Block66) : Prog :=
  doWhen (fun d => d.on (hlkFn l) && d.rxState l == 4) (
    if b.header ≠ 2 ∨ blockByte b 0 ≠ 0x4B ∨ !blockCrcOk b then inc (R.HLK_CNT_BAD_BLOCK l)
    else .read fun d =>
      let v := blockByte b 1
      seq [
        setF (F.HLK_STATE_far_lockstep l) (bitsOf v 4 1), setF (F.HLK_STATE_far_role l) (bitsOf v 2 2),
        setF (F.HLK_STATE_far_select l) (bitsOf v 1 1), setF (F.HLK_STATE_far_rx_up l) (bitsOf v 0 1),
        wr (R.HLK_FAR_ID l) (bitsOf b.payload 24 32), setF (F.HLK_FAR_EPOCH l) (blockByte b 2),
        doIf (bitOf v 0) (hlkUpd l fun m => { m with upAt := some d.x.time.clk }),
        hlkLink l,
        doIf (bitOf v 0 ≠ d.flag (F.HLK_STATE_far_rx_up l)) (hlkSendState l)])

/-! ### Segments received (R258 to R262) -/

/-- The n-byte little-endian number at an offset of a byte string. -/
def leAt (b : List Byte) (off n : Nat) : Nat := ofLeBytes ((b.drop off).take n)

/-- The kinds a lane of a role carries (R260). -/
def kindCarried (twin : Bool) (k : Nat) : Bool :=
  if twin then k == 5 || k == 6 else decide (1 ≤ k) && decide (k ≤ 5)

/-- A segment's length and CRC-32C hold (R258, R261). -/
def segWhole (s : Segment) : Bool :=
  let n := s.data.length
  n % 8 == 0 && decide (8 ≤ n) && decide (n ≤ 8 * 1152) && crc32c (s.data.take (n - 4)) == leAt s.data (n - 4) 4

/-- The kinds a flow has carried in the last second, bit k − 1 for kind k of the first four (R282). -/
def Dev.hlkKinds (d : Dev) (l f : Nat) : Nat :=
  ((List.range 4).map fun k =>
    let t := KV.get 0 (d.hlkm l).seen (16 * f + k + 1)
    if t ≠ 0 ∧ d.x.time.clk < t - 1 + secU then 2 ^ k else 0).sum

/-- A segment of kind `want` arrives: wrong kinds, sequence gaps and bad segments are counted (R261); `ok` says that its
header's fields are in range; `gap` and `p` are what a gap of the flow and a good segment do. -/
def hlkSegment (l : Nat) (s : Segment) (want : Nat) (ok : Bool) (gap p : Prog) : Prog :=
  doWhen (fun d => d.on (hlkFn l) && d.rxState l == 4) (.read fun d =>
    let f := s.flow % 64
    let key := 16 * f + s.kind
    let lost := match KV.get none (d.hlkm l).rxSeq key with
      | some q => (s.seq % 65536 + 65536 - (q + 1) % 65536) % 65536
      | none => 0
    if s.version ≠ 1 ∨ !kindCarried (d.hlkTwin l) s.kind then
      seq [inc (R.HLK_CNT_BAD_KIND l), raise (F.HLK_ALARM_bad_kind l)]
    else if s.kind ≠ want then .nop
    else seq [
      hlkUpd l fun m => { m with rxSeq := KV.set none m.rxSeq key (some (s.seq % 65536)) },
      doIf (lost ≠ 0) (seq [addCnt (R.HLK_CNT_SEG_LOST l) lost, addCnt (R.HLK_RXF_LOST l f) lost,
        raise (F.HLK_ALARM_seg_lost l), gap]),
      if !(segWhole s && ok) then
        seq [inc (R.HLK_CNT_SEG_BAD l), inc (R.HLK_RXF_BAD l f), raise (F.HLK_ALARM_seg_bad l)]
      else seq [
        inc (R.HLK_CNT_SEG_RX l), inc (R.HLK_RXF_SEGS l f),
        hlkUpd l fun m => { m with seen := KV.set 0 m.seen key (d.x.time.clk + 1) },
        .read fun d' => setF (F.HLK_RXF_STATUS_kinds l f) (d'.hlkKinds l f), setF (F.HLK_RXF_STATUS_active l f) 1,
        p]])

/-- The pel words of a payload: 3 bytes each (R263). -/
def pelsAt (b : List Byte) (off n : Nat) : List Nat := (List.range n).map fun i => leAt b (off + 3 * i) 3

/-- The VIDEO header's fields are in range (R263): the line is counted within the field of an interlaced frame. -/
def videoOk (s : Segment) : Bool :=
  let b := s.data
  let f := leAt b 8 1
  let sam := bitsOf (leAt b 9 1) 0 4
  let n := bitsOf (leAt b 16 2) 0 11
  let first := bitsOf (leAt b 14 2) 0 14
  let lines := if fmtFielded f then fmtLines f / 2 else fmtLines f
  decide (24 ≤ b.length) && fmtLegal f && decide (sam ≤ 4) && decide (bitsOf (leAt b 9 1) 4 2 ≤ 2) &&
  first % 1024 == 0 && decide (1 ≤ n) && decide (n ≤ 1024) && decide (first + n ≤ pelWords sam (fmtWidth f)) &&
  decide (bitsOf (leAt b 12 2) 0 12 < lines) && b.length == 8 * ceilDiv (28 + 3 * n) 8

/-- Entries that wait for their frame reach it (R268). -/
def hlkHeldAnc (l f : Nat) (fr : HlkFrame) (ns : List Nat) : Prog :=
  .read fun d =>
    let held := KV.get [] (d.hlkm l).anc f
    seq [
      each (held.filter fun e => e.1 == fr.count && e.2.1 == fr.time) fun e => each ns fun n => srcReceive n [] e.2.2,
      hlkUpd l fun m => { m with anc := KV.set [] m.anc f (held.filter fun e => !(e.1 == fr.count && e.2.1 == fr.time)) }]

/-- A VIDEO segment (R263, R264). -/
def hlkVideo (l : Nat) (s : Segment) : Prog :=
  .read fun d =>
    let b := s.data
    let f := s.flow % 64
    let fr : HlkFrame :=
      { count := leAt b 18 2, time := leAt b 0 8, format := leAt b 8 3, done := bitOf (leAt b 11 1) 1 }
    let code := leAt b 8 1
    let line := bitsOf (leAt b 12 2) 0 12 + (if bitOf (leAt b 11 1) 2 && fmtFielded code then fmtLines code / 2 else 0)
    let run : PelRun := { line := line, first := bitsOf (leAt b 14 2) 0 14, words := pelsAt b 24 (bitsOf (leAt b 16 2) 0 11) }
    let ns := d.hlkSources (64 * l + f)
    let changed := match KV.get none (d.hlkm l).video f with
      | some o => o.count == fr.count && !(o.time == fr.time && o.format == fr.format)
      | none => false
    seq [
      setF (F.HLK_RXF_STATUS_format l f) code,
      if changed then each ns srcAbandon
      else seq [
        hlkUpd l fun m => { m with video := KV.set none m.video f (some fr) },
        hlkHeldAnc l f fr ns,
        each ns fun n => srcReceive n [run] []]]

/-- The AUDIO header's fields are in range (R266). -/
def audioOk (s : Segment) : Bool :=
  let b := s.data
  let c := bitsOf (leAt b 8 1) 0 6
  let n := bitsOf (leAt b 10 1) 0 7
  decide (16 ≤ b.length) && decide (1 ≤ c) && decide (c ≤ if bitOf (leAt b 8 1) 7 then 16 else 32) &&
  decide (bitsOf (leAt b 9 1) 0 5 + c ≤ 32) && decide (1 ≤ n) && decide (n ≤ 96) &&
  b.length == 8 * ceilDiv (20 + 3 * c * n) 8

/-- Link time in units of 1/16 ns of a count of 1/3024 ns units, and as its 64-bit field (R262). -/
def sixteenths (u : Nat) : Nat := u / 189
def linkTime (u : Nat) : Nat := u / secU % 2 ^ 30 * 2 ^ 34 + u % secU / nsU * 16 + u % nsU / 189

/-- The time a field stands for, nearest `own`, in units of 1/3024 ns (R262). -/
def linkRestore (own lt : Nat) : Nat :=
  let s := bitsOf lt 34 30
  let rest := bitsOf lt 4 30 * nsU + lt % 16 * 189
  let sec := own / secU
  let mid := sec - sec % 2 ^ 30 + s
  let dist := fun (x : Nat) => ((x * secU + rest : Int) - own).natAbs
  let l := [mid, mid + 2 ^ 30] ++ (if 2 ^ 30 ≤ mid then [mid - 2 ^ 30] else [])
  (l.foldl (fun best x => if dist x < dist best then x else best) mid) * secU + rest

/-- The inputs of a flow lose their samples: a bundle is missing (R267). -/
def hlkAudioGap (l f : Nat) : Prog :=
  .read fun d => each (d.audBoundTo 2 (64 * l + f)) fun e => doIf (decide (1 ≤ d.ainState e.1)) (audLose e.1 true)

/-- An AUDIO bundle (R266, R267): one of another rate is discarded, and its inputs read silence with AUDIO_RATE set. -/
def hlkAudio (l : Nat) (s : Segment) : Prog :=
  .read fun d =>
    let b := s.data
    let f := s.flow % 64
    let c := bitsOf (leAt b 8 1) 0 6
    let n := bitsOf (leAt b 10 1) 0 7
    let fs := if bitOf (leAt b 8 1) 7 then 96000 else 48000
    let t := linkRestore d.x.time.ht (leAt b 0 8) + n * secU / fs
    if bitOf (leAt b 8 1) 7 ≠ d.aud96 then
      seq [statusAlarm F.AUD_STATUS_audio_rate F.AUD_ALARM_audio_rate true, hlkAudioGap l f]
    else each (List.range c) fun k =>
      let ch := bitsOf (leAt b 9 1) 0 5 + k
      audDeliver 2 (64 * l + f) ch t ((List.range n).map fun i => signedOf 24 (leAt b (16 + 3 * (i * c + k)) 3))
        (bitOf (leAt b 12 2) (ch / 2)) true

/-- The packets of `n` entries in the format of R82, from an offset; none where they do not lie within `len` bytes. -/
def ancEntries (b : List Byte) (len : Nat) : Nat → Nat → Option (List AncPacket)
  | 0, _ => some []
  | n + 1, off =>
    let h := leAt b off 4
    let k := bitsOf h 16 8
    let w := fun i => bitsOf (leAt b (off + 4 + 2 * i) 2) 0 10
    let size := ceilDiv (4 + 2 * (k + 4)) 4 * 4
    if len < off + size then none
    else (ancEntries b len n (off + size)).map fun r =>
      { line := bitsOf h 0 12, hanc := bitOf h 12, cStream := bitOf h 13, did := w 0, sdid := w 1,
        data := (List.range k).map fun i => w (3 + i), checksum := w (3 + k) } :: r

/-- The entries of an ANC segment (R268). -/
def segEntries (s : Segment) : Option (List AncPacket) := ancEntries s.data (s.data.length - 4) (leAt s.data 10 2) 16

/-- An ANC segment (R268): entries of a frame whose last VIDEO segment has passed are dropped and counted; entries that
arrive before their frame wait for it. -/
def hlkAnc (l : Nat) (s : Segment) : Prog :=
  .read fun d =>
    let b := s.data
    let f := s.flow % 64
    let l2 := ((segEntries s).getD []).filter ancStored
    let time := leAt b 0 8
    let count := leAt b 8 2
    let ns := d.hlkSources (64 * l + f)
    let wait : Prog := hlkUpd l fun m =>
      { m with anc := KV.upd [] m.anc f fun h => (h ++ [(count, time, l2)]).drop (h.length - 15) }
    match KV.get none (d.hlkm l).video f with
    | none => wait
    | some fr =>
      if fr.count = count ∧ fr.time = time ∧ !fr.done then each ns fun n => srcReceive n [] l2
      else if fr.count ≠ count ∧ (count + 65536 - fr.count) % 65536 < 32768 then wait
      else each ns fun n => doIf (decide (0 < l2.length))
        (seq [addCnt (R.SRC_CNT_ANC_DROP n) l2.length, raise (F.SRC_ALARM_anc_drop n)])

/-! ### Segments sent (R258, R259, R278) -/

/-- The data bytes of a segment: padded to whole blocks, the CRC-32C in the last four (R258). -/
def segData (b : List Byte) : List Byte :=
  let body := b ++ List.replicate (8 * ceilDiv (b.length + 4) 8 - 4 - b.length) 0
  body ++ leBytes 4 (crc32c body)

/-- Sends a segment of a kind on a flow, while the link is UP. -/
def hlkSend (l kind flow : Nat) (b : List Byte) : Prog :=
  doWhen (fun d => d.hlkSending l && d.flag (F.HLK_STATE_link_up l)) (.read fun d =>
    let key := 16 * flow + kind
    let q := KV.get 0 (d.hlkm l).txSeq key
    seq [
      emit (.hlkSegment l { kind := kind, flow := flow, seq := q, data := segData b, stamp := d.x.time.ht }),
      hlkUpd l fun m => { m with txSeq := KV.set 0 m.txSeq key ((q + 1) % 65536) },
      inc (R.HLK_CNT_SEG_TX l), inc (R.HLK_TXF_SEGS l flow)])

/-- The segments of one line of a destination's frame (R263 to R265): its number among the active lines of its field,
and whether it belongs to field 2. -/
def hlkVideoTx (q n : Nat) (b : Int) (k line : Nat) (ws : List Nat) : Prog :=
  .read fun d =>
    let f := d.dstFormat n
    let half := fmtLines f / 2
    let field2 := fmtFielded f && decide (half ≤ line)
    let row := if field2 then line - half else line
    let last := if fmtFielded f then field2 && row + 1 == half else row + 1 == fmtLines f
    let segs := lineSegments ws.length
    each segs fun e =>
      let flags := boolBit (line == 0 && e.1 == 0) + 2 * boolBit (last && e.1 + e.2 == ws.length) + 4 * boolBit field2
      hlkSend (q / 64) 1 (q % 64) (
        leBytes 8 (linkTime b.toNat) ++ leBytes 1 f ++
        leBytes 1 (d.fld (F.DST_CTRL_out_sampling n) + 16 * d.fld (F.DST_CTRL_out_depth n)) ++
        leBytes 1 (d.fld (F.DST_CTRL_colorimetry n)) ++ leBytes 1 flags ++ leBytes 2 row ++ leBytes 2 e.1 ++
        leBytes 2 e.2 ++ leBytes 2 (k % 65536) ++ leBytes 4 0 ++ pelBytes ((ws.drop e.1).take e.2))

/-- The bundles of a destination's audio block (R267): `first` is the house sample index of the block's first sample. -/
def hlkAudioTx (q first : Nat) (chans : List (List Int)) (nonPcm : Nat) : Prog :=
  .read fun d =>
    let size := if d.aud96 then 12 else 6
    let fs := if d.aud96 then 96000 else 48000
    doIf (!chans.isEmpty) (each (List.range (d.audN / size)) fun i =>
      hlkSend (q / 64) 2 (q % 64) (
        leBytes 8 (linkTime ((first + size * i) * secU / fs)) ++
        leBytes 1 (chans.length + 128 * boolBit d.aud96) ++ leBytes 1 0 ++ leBytes 2 size ++ leBytes 2 nonPcm ++
        leBytes 2 0 ++ (List.range size).flatMap fun s => chans.flatMap fun c =>
          leBytes 3 (codeOf 24 (c.getD (size * i + s) 0))))

/-- Packets by segments: as many to a segment as its 1,152 blocks hold. -/
def ancSplit (room : Nat) : List AncPacket → List AncPacket → List (List AncPacket)
  | [], acc => [acc]
  | p :: r, acc =>
    if room < ((acc ++ [p]).map fun p => (ancBytes p).length).sum ∧ !acc.isEmpty then acc :: ancSplit room r [p]
    else ancSplit room r (acc ++ [p])

/-- The ANC segments of a destination's frame (R268); a frame without packets sends none. -/
def hlkAncTx (q : Nat) (b : Int) (k : Nat) (ps : List AncPacket) : Prog :=
  let parts := ancSplit (8 * 1152 - 20) (ps.filter ancStored) []
  doIf (!(ps.filter ancStored).isEmpty) (each parts.zipIdx fun e =>
    hlkSend (q / 64) 3 (q % 64) (
      leBytes 8 (linkTime b.toNat) ++ leBytes 2 (k % 65536) ++ leBytes 2 e.1.length ++
      leBytes 4 (boolBit (e.2 + 1 == parts.length)) ++ e.1.flatMap ancBytes))

/-- A link's part in time transfer (R271): 0 MASTER, 1 SLAVE, 2 NONE. -/
def Dev.timeRole (d : Dev) (l : Nat) : Nat :=
  match d.fld (F.HLK_CTRL_time_role l) with
  | 1 => 0
  | 2 => 1
  | 3 => 2
  | _ => if !d.hlkTwin l then 0 else if d.tstate = 1 then 2 else if 4 ≤ d.tstate then 1 else 0

/-- Sends a TIME segment (R270). -/
def hlkTimeTx (l : Nat) : Prog :=
  .read fun d =>
    let u := d.x.time.ht
    let (et, er) := (d.hlkm l).echo.getD (0, 0)
    let st := d.fld F.DPLL_STATE_state
    hlkSend l 5 0 (
      leBytes 8 (linkTime u) ++ leBytes 8 et ++ leBytes 8 er ++ leBytes 4 (u / secU / 2 ^ 30 % 2 ^ 18) ++
      leBytes 2 (8 * boolBit (st == 0 || st == 4) + 4 * d.fld F.TIME_STATUS_ht_traceable + d.timeRole l) ++
      leBytes 2 (d.fld F.TIME_UTC_utc_offset % 2 ^ 15 + 2 ^ 15 * d.fld F.TIME_UTC_utc_valid) ++ leBytes 8 0)

/-- House time follows the far end's (R68, R271): its reading moves, and everything that is placed on it with it. -/
def htFollow (by_ : Int) : Prog :=
  .read fun d =>
    let old := d.x.time.ht
    let new := ((old : Int) + by_).toNat
    seq [timeUpd fun t => { t with ht := new }, scaleCross d.htScales old new]

/-- A TIME segment (R270, R271). -/
def hlkTime (l : Nat) (s : Segment) : Prog :=
  .read fun d =>
    let b := s.data
    let role := d.timeRole l
    let raw := leAt b 0 8
    let t3u := (bitsOf raw 34 30 + leAt b 24 4 % 2 ^ 18 * 2 ^ 30) * secU + bitsOf raw 4 30 * nsU + raw % 16 * 189
    let t1 : Int := sixteenths (linkRestore d.x.time.ht (leAt b 8 8))
    let t2 : Int := sixteenths (linkRestore t3u (leAt b 16 8))
    let t3 : Int := sixteenths t3u
    let t4 : Int := sixteenths s.stamp
    let dly := ((t4 - t1) - (t3 - t2)) / 2
    let dms := dly + d.sfld (F.HLK_ASYM l)
    let offset := if role = 1 then t4 - t3 - dms else t2 - t1 - dms
    let flags := leAt b 28 2
    seq [
      hlkUpd l fun m => { m with echo := some (raw, linkTime s.stamp) },
      doIf (role == 1 && d.hlkTwin l && d.lockstep) (setF F.TIME_STATUS_ht_traceable (bitsOf flags 2 1)),
      doIf (leAt b 8 8 ≠ 0 && role ≠ 2) (seq [
        wr (R.HLK_DELAY l) (satCode 32 dly), wr (R.HLK_FAR_OFFSET l) (satCode 32 (roundDiv offset 16)),
        hlkUpd l fun m => { m with
          farRun := if 16000 < offset.natAbs then m.farRun + 1 else 0
          nearRun := if offset.natAbs ≤ 16 * d.fld F.TWIN_ADMIT_time_tol then m.nearRun + 1 else 0 },
        doWhen (fun d => decide (3 ≤ (d.hlkm l).farRun)) (raise (F.HLK_ALARM_far_time l)),
        doIf (role == 1) (htFollow (-(offset * 189)))]),
      doIf (role == 1 && bitsOf flags 0 2 == 0) (hlkTimeTx l)]

/-! ### Twin messages (R272) -/

/-- Sends a twin message: every fragment on every TWIN lane that is UP (R272, R400). -/
def twinSend (type sq : Nat) (body : List Byte) : Prog :=
  .read fun d =>
    let lanes := (List.range 96).filter fun l => d.hlkTwin l && d.on (hlkFn l)
    each (List.range (max 1 (ceilDiv body.length 9196))) fun i => each lanes fun l =>
      hlkSend l 6 0 (leBytes 2 type ++ leBytes 2 i ++ leBytes 4 body.length ++ leBytes 4 sq ++ leBytes 4 (9196 * i) ++
        (body.drop (9196 * i)).take 9196)

/-- The body of a message whose fragments have all arrived. -/
def twinWhole (p : TwinPart) : Option (List Byte) :=
  let have_ := (p.frags.map fun e => match e.2 with | some f => f.2.length | none => 0).sum
  if p.frags.isEmpty ∨ have_ < p.total then none
  else some ((p.frags.flatMap fun e => match e.2 with | some f => f.2 | none => []).take p.total)

/-- Messages are delivered in sequence order: a whole message waits for those in assembly before it. -/
def twinDeliver : List TwinPart → List TwinPart × List TwinIn
  | [] => ([], [])
  | p :: r =>
    match twinWhole p with
    | none => (p :: r, [])
    | some b =>
      let (l, o) := twinDeliver r
      (l, { type := p.type, seq := p.seq, body := b } :: o)

/-- Inserts or updates a message in assembly, in order of sequence. -/
def twinInsert (sq type total idx off : Nat) (b : List Byte) : List TwinPart → List TwinPart
  | [] => [{ seq := sq, type := type, total := total, frags := [(idx, some (off, b))] }]
  | p :: r =>
    if p.seq = sq then
      (if (KV.get none p.frags idx).isSome then p else { p with frags := KV.set none p.frags idx (some (off, b)) }) :: r
    else if sq < p.seq then { seq := sq, type := type, total := total, frags := [(idx, some (off, b))] } :: p :: r
    else p :: twinInsert sq type total idx off b r

/-- The TWIN header's fields are in range (R272). -/
def twinOk (s : Segment) : Bool :=
  let b := s.data
  let total := leAt b 4 4
  decide (20 ≤ b.length) && decide (total ≤ 1048576) && leAt b 12 4 == 9196 * leAt b 2 2 &&
  (decide (leAt b 12 4 < total) || (total == 0 && leAt b 2 2 == 0))

/-- A TWIN fragment (R272, R400): the first copy of each counts; a message of an unknown type is discarded when it has
arrived. A message that has been delivered is not assembled again. -/
def hlkTwinFragment (l : Nat) (s : Segment) : Prog :=
  .read fun d =>
    let b := s.data
    let total := leAt b 4 4
    let off := leAt b 12 4
    let old := match d.x.twin.delivered with | some q => decide (leAt b 8 4 ≤ q) | none => false
    let (rest, arrived) := twinDeliver
      (twinInsert (leAt b 8 4) (leAt b 0 2) total (leAt b 2 2) off ((b.drop 16).take (min 9196 (total - off))) d.x.twinAsm)
    let known := fun (m : TwinIn) => decide (1 ≤ m.type) && decide (m.type ≤ 8)
    let bad := (arrived.filter fun m => !known m).length
    doIf (!old) (seq [
      ext fun x => { x with
        twinAsm := rest
        twinIn := x.twinIn ++ arrived.filter known
        twin := { x.twin with delivered := match arrived.getLast? with | some m => some m.seq | none => x.twin.delivered } },
      doIf (decide (0 < bad)) (seq [addCnt (R.HLK_CNT_BAD_KIND l) bad, raise (F.HLK_ALARM_bad_kind l)])])

/-- The oldest incomplete message is discarded, its fragments counted as lost; whole messages behind it are delivered. -/
def hlkFragmentTimeout (l : Nat) : Prog :=
  .read fun d =>
    match d.x.twinAsm with
    | [] => .nop
    | p :: r =>
      let (rest, arrived) := twinDeliver r
      seq [
        ext fun x => { x with
          twinAsm := rest
          twinIn := x.twinIn ++ arrived
          twin := { x.twin with delivered := some ((arrived.getLast?.map (·.seq)).getD p.seq) } },
        addCnt (R.HLK_CNT_SEG_LOST l) p.frags.length, raise (F.HLK_ALARM_seg_lost l)]

/-! ### Electrical idle (R280) -/

/-- The transmitter of an IO lane without a bound flow enters electrical idle. -/
def hlkIdle (l : Nat) : Prog :=
  doWhen (fun d => d.hlkSending l && d.flag (F.HLK_CTRL_idle_en l) && d.fld (F.HLK_CTRL_role l) == 0 && !d.hlkBound l)
    (seq [each (List.range 16) fun _ => emit (.hlkBlock l (plainBlock 0x99)), setF (F.HLK_STATE_tx_state l) 1])

/-- An idle transmitter starts its burst. -/
def hlkBurst (l : Nat) : Prog :=
  doWhen (fun d => d.on (hlkFn l) && d.fld (F.HLK_STATE_tx_state l) == 1)
    (seq [setF (F.HLK_STATE_tx_state l) 2, emit (.hlkBurst l)])

/-! ### The meanings -/

/-- HLK_SIGNAL_DETECT (R256, R291). -/
def execHlkSignalDetect (l : LaneId) (s : State) : Host.Outcome State Fault Refusal := perform .core (hlkDetect l) s

/-- HLK_SIGNAL_LOSS (R256). -/
def execHlkSignalLoss (l : LaneId) (s : State) : Host.Outcome State Fault Refusal := perform .core (hlkLoss l) s

/-- LANE_ADAPT_COMPLETE (R256, R291). -/
def execLaneAdaptComplete (l : LaneId) (t : EqTarget) (s : State) : Host.Outcome State Fault Refusal :=
  perform .core (doWhen (fun d => d.on (laneFn l) && d.fld (F.LANE_EQ_STATE_adapt l) == 1) (seq [
    laneAdapted l t,
    doWhen (fun d => d.on (hlkFn l) && d.rxState l == 1) (hlkRx l 2)])) s

/-- HLK_BLOCK_LOCK (R253, R254, R256). -/
def execHlkBlockLock (l : LaneId) (s : State) : Host.Outcome State Fault Refusal :=
  perform .core (doWhen (fun d => d.on (hlkFn l) && d.rxState l == 2)
    (.read fun d => hlkRx l (if d.hlkFec l then 3 else 4))) s

/-- HLK_BLOCK_LOCK_LOST (R254, R256). -/
def execHlkBlockLockLost (l : LaneId) (s : State) : Host.Outcome State Fault Refusal :=
  perform .core (doWhen (fun d => d.on (hlkFn l) && (d.rxState l == 3 || d.rxState l == 4)) (seq [
    inc (R.HLK_CNT_BLOCK_LOSS l), raise (F.HLK_ALARM_block_lock_lost l), hlkRx l 2])) s

/-- HLK_FEC_LOCK (R255, R256). -/
def execHlkFecLock (l : LaneId) (s : State) : Host.Outcome State Fault Refusal :=
  perform .core (doWhen (fun d => d.on (hlkFn l) && d.rxState l == 3) (hlkRx l 4)) s

/-- HLK_FEC_LOCK_LOST (R255, R256). -/
def execHlkFecLockLost (l : LaneId) (s : State) : Host.Outcome State Fault Refusal :=
  perform .core (doWhen (fun d => d.on (hlkFn l) && d.rxState l == 4 && d.hlkFec l)
    (seq [raise (F.HLK_ALARM_fec_lock_lost l), hlkRx l 3])) s

/-- HLK_FEC_FRAME_RX (R252, R257). -/
def execHlkFecFrameRx (l : LaneId) (f : FecFrame) (s : State) : Host.Outcome State Fault Refusal :=
  perform .core (hlkFrame l f) s

/-- WAKE_FAIL (R256). -/
def execWakeFail (l : LaneId) (s : State) : Host.Outcome State Fault Refusal :=
  perform .core (doWhen (fun d => d.on (hlkFn l) && (d.rxState l == 2 || d.rxState l == 3) && (d.hlkm l).fromIdle)
    (seq [hlkRx l 1, hlkUpd l fun m => { m with fromIdle := false }, laneInitial l, raise (F.HLK_ALARM_wake_fail l)])) s

/-- HLK_STATE_RX (R273, R278). -/
def execHlkStateRx (l : LaneId) (b : Block66) (s : State) : Host.Outcome State Fault Refusal :=
  perform .core (hlkState l b) s

/-- NO_STATE (R278, R279). -/
def execNoState (l : LaneId) (s : State) : Host.Outcome State Fault Refusal :=
  perform .core (doWhen (fun d => d.on (hlkFn l) && d.rxState l == 4)
    (seq [raise (F.HLK_ALARM_no_state l), hlkUpd l fun m => { m with upAt := none }, hlkRetrain l])) s

/-- HLK_STATE_TX (R273). -/
def execHlkStateTx (l : LaneId) (s : State) : Host.Outcome State Fault Refusal := perform .core (hlkSendState l) s

/-- HLK_VIDEO_SEGMENT_RX (R264). -/
def execHlkVideoSegmentRx (l : LaneId) (g : Segment) (s : State) : Host.Outcome State Fault Refusal :=
  perform .core (hlkSegment l g 1 (videoOk g) .nop (hlkVideo l g)) s

/-- HLK_AUDIO_BUNDLE_RX (R267). -/
def execHlkAudioBundleRx (l : LaneId) (g : Segment) (s : State) : Host.Outcome State Fault Refusal :=
  perform .core (hlkSegment l g 2 (audioOk g) (hlkAudioGap l (g.flow % 64)) (hlkAudio l g)) s

/-- HLK_ANC_SEGMENT_RX (R268). -/
def execHlkAncSegmentRx (l : LaneId) (g : Segment) (s : State) : Host.Outcome State Fault Refusal :=
  perform .core (hlkSegment l g 3 (decide (16 ≤ g.data.length) && (segEntries g).isSome) .nop (hlkAnc l g)) s

/-- HLK_TIME_SEGMENT_RX (R271). -/
def execHlkTimeSegmentRx (l : LaneId) (g : Segment) (s : State) : Host.Outcome State Fault Refusal :=
  perform .core (hlkSegment l g 5 (g.data.length == 48) .nop (hlkTime l g)) s

/-- HLK_TIME_TX (R271). -/
def execHlkTimeTx (l : LaneId) (s : State) : Host.Outcome State Fault Refusal := perform .core (hlkTimeTx l) s

/-- HLK_TWIN_FRAGMENT_RX (R272). -/
def execHlkTwinFragmentRx (l : LaneId) (g : Segment) (s : State) : Host.Outcome State Fault Refusal :=
  perform .core (hlkSegment l g 6 (twinOk g) .nop (hlkTwinFragment l g)) s

/-- HLK_FRAGMENT_TIMEOUT (R272). -/
def execHlkFragmentTimeout (l : LaneId) (s : State) : Host.Outcome State Fault Refusal :=
  perform .core (hlkFragmentTimeout l) s

/-- HLK_IDLE_ENTER (R280). -/
def execHlkIdleEnter (l : LaneId) (s : State) : Host.Outcome State Fault Refusal := perform .core (hlkIdle l) s

/-- HLK_WAKE_BURST (R280): a burst detected starts the own burst of an idle transmitter; a burst sent makes it ACTIVE. -/
def execHlkWakeBurst (l : LaneId) (sent : Bool) (s : State) : Host.Outcome State Fault Refusal :=
  perform .core (if sent then doWhen (fun d => d.on (hlkFn l) && d.fld (F.HLK_STATE_tx_state l) == 2)
    (setF (F.HLK_STATE_tx_state l) 0) else hlkBurst l) s

/-- What a write of 1 to HLK_CNT_CLEAR clears (R282). -/
def hlkCntClear (l : LaneId) : Prog :=
  clearRegs ([R.HLK_CNT_FEC_CORR l, R.HLK_CNT_FEC_UNCORR l, R.HLK_CNT_FRAME_GAP l, R.HLK_CNT_BLOCK_LOSS l,
  R.HLK_CNT_RETRAIN l, R.HLK_CNT_BAD_BLOCK l, R.HLK_CNT_SEG_RX l, R.HLK_CNT_SEG_TX l, R.HLK_CNT_SEG_BAD l,
  R.HLK_CNT_SEG_LOST l, R.HLK_CNT_BAD_KIND l, R.HLK_CNT_FILL_DEL l, R.HLK_CNT_FILL_INS l, R.HLK_CNT_PECK_RX l] ++
  (List.range 64).flatMap fun f => [R.HLK_RXF_SEGS l f, R.HLK_RXF_LOST l f, R.HLK_RXF_BAD l f, R.HLK_TXF_SEGS l f])

/-- HLK_CNT_CLEAR (R282). -/
def execHlkCntClear (l : LaneId) (s : State) : Host.Outcome State Fault Refusal := perform .core (hlkCntClear l) s

end Sys2Proof.Machine
end

