-- ==== Sys2Proof/Machine/Sdi.lean ====
section
/-!
DEFINITION. Direct SDI ports (R299 to R317): search and alignment, line checks, packets, arrival stamps, quad-link groups,
and the transmitted line.
-/

namespace Sys2Proof.Machine

/-- What an SDI function holds. -/
def Dev.sdim (d : Dev) (l : Nat) : SdiMem := KV.get {} d.x.sdi l

/-- Changes what an SDI function holds. -/
def sdiUpd (l : Nat) (f : SdiMem → SdiMem) : Prog := ext fun x => { x with sdi := KV.upd {} x.sdi l f }

/-- An SDI function. -/
def sdiFn (l : Nat) : Fn := .sdi (Fin.ofNat 96 l)

/-- The receive state (R303): 0 NO_SIGNAL, 1 SEARCH, 2 ALIGN, 3 RUNNING. -/
def Dev.sdiState (d : Dev) (l : Nat) : Nat := d.fld (F.SDI_RX_STATE_rx_state l)

/-- The lane is a member of an ST 425-5 group (R302). -/
def Dev.sdiQuad (d : Dev) (l : Nat) : Bool := d.flag (F.SDI_CTRL_quad_link l)

/-- The lane a source or destination names: lane 4m of a group, the lane itself otherwise (R302). -/
def Dev.sdiNamed (d : Dev) (l : Nat) : Nat := if d.sdiQuad l then l / 4 * 4 else l

/-- The sources an SDI lane feeds. -/
def Dev.sdiSources (d : Dev) (l : Nat) : List Nat :=
  (d.keysOf .SRC_CTRL).filter fun n =>
    d.flag (F.SRC_CTRL_enable n) && d.fld (F.SRC_CTRL_transport n) == 2 && d.fld (F.SRC_INPUT_id n) == d.sdiNamed l

/-- The destination an SDI lane carries: the lowest-numbered claimant (R138). -/
def Dev.sdiDest (d : Dev) (l : Nat) : Option Nat :=
  (d.keysOf .DST_CTRL).find? fun n =>
    d.flag (F.DST_CTRL_enable n) && d.fld (F.DST_CTRL_transport n) == 2 && d.fld (F.DST_OUTPUT_id n) == d.sdiNamed l

/-- The fault an SDI function's configuration gives it as it wakes (R299, R302, R316). -/
def Dev.sdiConfigFault (d : Dev) (l : Nat) : Option Nat :=
  let same := fun (f : Nat → Field) => (List.range 4).all fun i => d.fld (f (l / 4 * 4 + i)) == d.fld (f l)
  let grouped := (List.range 4).any fun i => d.sdiQuad (l / 4 * 4 + i) && l / 4 * 4 + i == l / 4 * 4
  if d.fst (laneFn l) == .fault then some 3
  else if d.lanePers l ≠ 3 ∨ ((d.sdiQuad l || grouped) ∧ !(same F.SDI_CTRL_quad_link && same F.SDI_CTRL_quad_div)) then some 1
  else none

/-! ### Receive states (R303, R304, R311) -/

/-- The line rates in R304's order, each as the codes of its pair. -/
def searchOrder : List (List Nat) := [[4, 5], [6, 7], [8, 9], [0xA, 0xB], [0xC]]

/-- A lane code is enabled in the mask. -/
def Dev.sdiCode (d : Dev) (l c : Nat) : Bool :=
  decide (4 ≤ c) && decide (c ≤ 12) && bitOf (d.fld (F.SDI_RX_CTRL_rate_mask l)) (c - 4)

/-- The next enabled line rate from a place of the order on, round the end. -/
def Dev.sdiNext (d : Dev) (l i : Nat) : Nat :=
  (((List.range 5).map fun k => (i + k) % 5).find? fun k => (searchOrder.getD k []).any (d.sdiCode l)).getD (i % 5)

/-- The receiver leaves RUNNING (R311): frames in progress are abandoned, audio inputs are LOST. -/
def sdiLeave (l : Nat) : Prog :=
  .read fun d => seq [
    doIf (d.sdiState l == 3) (seq [
      each (d.sdiSources l) srcAbandon,
      each ((d.audBoundTo 1 (d.sdiNamed l)).filter fun e => decide (1 ≤ d.ainState e.1)) fun e => audLose e.1 true]),
    setF (F.SDI_STATUS_rx_running l) 0,
    sdiUpd l fun m => { try_ := m.try_ }]

/-- The receiver changes its state. -/
def sdiGo (l st : Nat) : Prog :=
  .read fun d => seq [
    doIf (d.sdiState l == 3 && st ≠ 3) (sdiLeave l),
    setF (F.SDI_RX_STATE_rx_state l) st,
    doIf (decide (st ≤ 1)) (seq [
      setF (F.SDI_RX_STATE_rate l) 0, setF (F.LANE_STATUS_rx_rate l) 0, setF (F.SDI_RX_STATE_level_b l) 0]),
    doIf (st ≠ 3) (seq [
      setF (F.SDI_RX_STATE_vpid_valid l) 0, setF (F.SDI_RX_STATE_edh_present l) 0, setF (F.SDI_RX_STATE_link_number l) 0])]

/-- The lane or the SDI function leaves ON (R303). -/
def sdiStopped (l : Nat) : Prog :=
  seq [sdiGo l 0, sdiUpd l fun _ => {}, setF (F.SDI_STATUS_vpid_missing l) 0, setF (F.SDI_STATUS_edh_absent l) 0,
    setF (F.SDI_STATUS_link_skew l) 0, setF (F.SDI_STATUS_crc_errored l) 0]

/-! ### Received lines (R302, R306, R309) -/

/-- Where a line of a quad-link member lies in the group's picture (R302): the stored line and the runs of its words.
Link k (from 0) carries quadrant k, or every second pair of samples of every second line. -/
def quadRuns (interleave : Bool) (k line : Nat) (ws : List Nat) : List PelRun :=
  if interleave then
    (List.range (ws.length / 2)).map fun j =>
      { line := 2 * line + k / 2, first := 4 * j + 2 * (k % 2), words := (ws.drop (2 * j)).take 2 }
  else [{ line := line + k / 2 * 1080, first := k % 2 * ws.length, words := ws }]

/-- The links of a group carry each link number once (R302). -/
def Dev.linksOk (d : Dev) (l : Nat) : Bool :=
  (List.range 4).all fun k => (List.range 4).any fun i => d.fld (F.SDI_RX_STATE_link_number (l / 4 * 4 + i)) == k + 1

/-- A group delivers frames: its spread is within 10 µs, or has been for 2 frames, and its link numbers are right. -/
def Dev.quadDelivers (d : Dev) (l : Nat) : Bool := (d.sdim (l / 4 * 4)).skewed.isNone && d.linksOk l

/-- The picture of a line reaches its ingress channel. -/
def sdiPicture (l : Nat) (v : SdiLine) : Prog :=
  match v.active with
  | none => .nop
  | some (line, ws) => .read fun d =>
      let k := d.fld (F.SDI_RX_STATE_link_number l)
      let runs := if d.sdiQuad l then quadRuns (d.flag (F.SDI_CTRL_quad_div (l / 4 * 4))) (k - 1) line ws
        else [{ line := line, first := 0, words := ws }]
      doIf (!d.sdiQuad l || (d.quadDelivers l && decide (1 ≤ k))) (each (d.sdiSources l) fun n => srcReceive n runs [])

/-- The first line of a frame (R302, R309): its stamp, and on the first link of a group the spread. -/
def sdiFirst (l : Nat) (v : SdiLine) : Prog :=
  .read fun d => seq [
    sdiUpd l fun m => { m with stamp := (v.arrival : Int) - d.rd (R.SDI_RX_LAT l) * 189 },
    doIf (d.sdiQuad l && l % 4 == 0) (
      let wide := decide (10000 < v.skew)
      seq [
        wr (R.SDI_RX_SKEW l) (min v.skew 0xFFFF),
        sdiUpd l fun m => { m with skewed := if wide then some 0 else
          match m.skewed with | some k => if 1 ≤ k then none else some (k + 1) | none => none },
        .read fun e => statusAlarm (F.SDI_STATUS_link_skew l) (F.SDI_ALARM_link_skew l) (e.sdim l).skewed.isSome,
        doIf wide (each (d.sdiSources l) srcAbandon)])]

/-- A source's input does not carry the format it should (R302, R305). -/
def srcMismatch (n : Nat) : Prog := statusAlarm (F.SRC_STATUS_format_mismatch n) (F.SRC_ALARM_format_mismatch n) true

/-- The structure needs ST 352 (R305). -/
def Dev.needsVpid (d : Dev) (l : Nat) : Bool :=
  let r := d.fld (F.SDI_RX_STATE_rate l)
  d.sdiQuad l || decide (1 < (d.sdim l).rows) || (decide (4 ≤ r) && decide (r ≤ 7))

/-- The last line of a frame (R302, R305, R306). -/
def sdiLast (l : Nat) : Prog :=
  .read fun d =>
    let m := d.sdim l
    let sd := d.fld (F.SDI_RX_STATE_rate l) == 0xC
    let noEdh := if m.edhSeen then 0 else m.noEdh + 1
    let noVpid := if m.vpidSeen then 0 else m.noVpid + 1
    let missing := d.needsVpid l && decide (3 ≤ noVpid)
    seq [
      setB (F.SDI_STATUS_crc_errored l) m.frameErr,
      doIf m.frameErr (inc (R.SDI_CNT_ERR_FRAMES l)),
      setB (F.SDI_RX_STATE_edh_present l) m.edhSeen,
      setB (F.SDI_STATUS_edh_absent l) (sd && decide (2 ≤ noEdh)),
      statusAlarm (F.SDI_STATUS_vpid_missing l) (F.SDI_ALARM_vpid_missing l) missing,
      doIf (!m.vpidSeen) (setF (F.SDI_RX_STATE_vpid_valid l) 0),
      sdiUpd l fun m => { m with
        frameErr := false, edhSeen := false, vpidSeen := false, noEdh := min noEdh 3, noVpid := min noVpid 3 },
      each (d.sdiSources l) fun n => seq [
        doIf (missing && !d.flag (F.SRC_CTRL_fmt_mode n)) (srcMismatch n),
        doIf (d.sdiQuad l && l % 4 == 0 && !d.linksOk l) (srcMismatch n),
        doIf (!d.sdiQuad l && d.flag (F.SRC_CTRL_quad_member n) &&
            d.fld (F.SDI_RX_STATE_link_number l) ≠ d.fld (F.SRC_CTRL_quad_pos n) + 1) (srcMismatch n)]]

/-- A line is received (R303, R306). -/
def sdiLine (l : Nat) (v : SdiLine) : Prog :=
  doWhen (fun d => d.on (sdiFn l) && d.sdiState l == 3) (.read fun d =>
    let hd := d.fld (F.SDI_RX_STATE_rate l) ≠ 0xC
    let run := if v.trs then 0 else (d.sdim l).badTrs + 1
    seq [
      sdiUpd l fun m => { m with badTrs := run },
      doIf (!v.trs) (seq [inc (R.SDI_CNT_TRS l), raise (F.SDI_ALARM_trs_err l)]),
      if 8 ≤ run ∨ v.changed then sdiGo l 2
      else seq [
        doIf (hd && !v.number) (seq [inc (R.SDI_CNT_LN l), raise (F.SDI_ALARM_ln_err l)]),
        doIf (hd && !v.crc) (seq [inc (R.SDI_CNT_CRC l), raise (F.SDI_ALARM_crc_err l),
          sdiUpd l fun m => { m with frameErr := true }]),
        (match (if hd then none else v.edh) with
          | none => .nop
          | some e => seq [
              doIf (!e.ap) (inc (R.SDI_CNT_EDH_AP l)), doIf (!e.ff) (inc (R.SDI_CNT_EDH_FF l)),
              doIf (!(e.ap && e.ff)) (seq [raise (F.SDI_ALARM_edh_err l), sdiUpd l fun m => { m with frameErr := true }]),
              sdiUpd l fun m => { m with edhSeen := true }]),
        doIf (v.line == 1) (sdiFirst l v),
        sdiPicture l v,
        doIf v.last (sdiLast l)]])

/-! ### Received packets (R305, R307, R308) -/

/-- Audio of a lane reads silence, for a group's rate is not the matrix rate (R308). -/
def sdiSilent (l group : Nat) : Prog :=
  .read fun d => seq [
    raise (F.SDI_ALARM_audio_rate l),
    statusAlarm F.AUD_STATUS_audio_rate F.AUD_ALARM_audio_rate true,
    each ((d.audBoundTo 1 (d.sdiNamed l)).filter fun e => e.2 / 4 + 1 == group && decide (1 ≤ d.ainState e.1)) fun e => audLose e.1 true]

/-- An ST 291 packet is received. -/
def sdiPacket (l : Nat) (p : SdiPacket) : Prog :=
  doWhen (fun d => d.on (sdiFn l) && d.sdiState l == 3) (.read fun d =>
    let ignored := p.stream ≠ 1 || (d.sdiQuad l && d.fld (F.SDI_RX_STATE_link_number l) ≠ 1)
    let sd := d.fld (F.SDI_RX_STATE_rate l) == 0xC
    let bad : Prog := doIf p.bad (seq [inc (R.SDI_CNT_ANC_CSUM l), raise (F.SDI_ALARM_anc_csum l)])
    match p.body with
    | .vpid bytes link levelB => doIf (p.stream == 1) (seq [
        bad,
        doIf (!p.bad) (seq [
          wr (R.SDI_RX_VPID l) bytes, setF (F.SDI_RX_STATE_vpid_valid l) 1, setF (F.SDI_RX_STATE_link_number l) link,
          setB (F.SDI_RX_STATE_level_b l) levelB, sdiUpd l fun m => { m with vpidSeen := true }])])
    | .edh flags => doIf (sd && !ignored) (seq [
        bad, doIf (!p.bad) (seq [wr (R.SDI_RX_EDH l) flags, sdiUpd l fun m => { m with edhSeen := true }])])
    | .control group rate => doIf (!ignored) (seq [
        bad,
        doIf (!p.bad) (seq [
          sdiUpd l fun m => { m with
            rates := KV.set 1 m.rates group (match rate with | some true => 2 | some false => 1 | none => 0) },
          .read fun e => doIf (KV.get 1 (e.sdim l).rates group ≠ (if d.aud96 then 2 else 1) || (sd && d.aud96)) (sdiSilent l group)])])
    | .audio group samples nonPcm ecc => doIf (!ignored) (seq [
        bad,
        if p.bad ∨ !ecc then seq [inc (R.SDI_CNT_AUD_ERR l), raise (F.SDI_ALARM_aud_err l)]
        else if KV.get 1 (d.sdim l).rates group ≠ (if d.aud96 then 2 else 1) ∨ (sd && d.aud96) then sdiSilent l group
        else each (List.range (min 4 samples.length)) fun c =>
          audDeliver 1 (d.sdiNamed l) (4 * (group - 1) + c) d.x.time.ht (samples.getD c []) (bitOf nonPcm (c / 2)) true])
    | .other a => doIf (!ignored) (seq [
        bad,
        doIf (!p.bad || d.flag (F.SDI_RX_CTRL_anc_keep_bad l)) (each (d.sdiSources l) fun n => srcReceive n [] [a])]))

/-! ### The transmitted line (R311 to R315) -/

/-- The words of a line of one stream (the raster standards R59 names): samples per line in total. -/
def totalWords (f : Nat) : Nat :=
  let r := fmtRate f
  let hd := fun a b c => if r = 2 ∨ r = 7 ∨ r = 10 then b else if r ≤ 1 ∨ r = 5 ∨ r = 6 then c else a
  match fmtRaster f with
  | 0 => 1716 | 1 => 1728 | 2 => 1980 - (if r = 7 then 0 else 330)
  | 3 | 4 | 5 => hd 2200 2640 2750
  | _ => hd 4400 5280 5500

/-- The words one stream has for packets in a line's horizontal and vertical ancillary space. -/
def ancRoom (f : Nat) (hanc : Bool) : Nat :=
  let active := if fmtRaster f ≤ 1 then 1440 else fmtWidth f
  if hanc then totalWords f - active - (if fmtRaster f ≤ 1 then 8 else 12) else active

/-- The words a packet takes: its flag, DID, SDID, DC, data and checksum. -/
def ancSize (p : AncPacket) : Nat := 7 + p.data.length

/-- The lines neither packet nor sample may stand on: the switch lines and the lines after them (R313). -/
def switchBarred (f line : Nat) : Bool :=
  let (s1, s2, _, _) := switchTable f
  line == s1 || line == s1 + 1 || (match s2 with | some x => line == x || line == x + 1 | none => false)

/-- The lines after the switch lines, which carry no audio (R314). -/
def afterSwitch (f line : Nat) : Bool :=
  let (s1, s2, _, _) := switchTable f
  line == s1 + 1 || (match s2 with | some x => line == x + 1 | none => false)

/-- The first and the last line of the field, or of the progressive frame, that a line belongs to (R107). -/
def fieldLines (f line : Nat) : Nat × Nat :=
  let (_, _, _, a2) := switchTable f
  if !fmtFielded f then (1, fmtTotalLines f) else if line < a2 then (1, a2 - 1) else (a2, fmtTotalLines f)

/-- A line is a VANC line that packets may stand on. -/
def vancLine (f line : Nat) : Bool := (activeLine f line).isNone && !switchBarred f line

/-- The lines of ST 352 and of SD error detection for a raster (the standards R312 names). -/
def vpidLines (f : Nat) : List Nat :=
  match fmtRaster f with | 0 => [13, 276] | 1 => [9, 322] | 3 | 4 => [10, 572] | _ => [10]
def edhLines (f : Nat) : List Nat := match fmtRaster f with | 0 => [9, 272] | 1 => [5, 318] | _ => []

/-- The lines of audio control packets: the second line after each switch line. -/
def controlLines (f : Nat) : List Nat :=
  let (s1, s2, _, _) := switchTable f
  (s1 + 2) :: (match s2 with | some x => [x + 2] | none => [])

/-- The house sample indices whose instants fall in a span of house time. -/
def samplesIn (fs : Nat) (a b : Int) : List Nat :=
  let lo := ((a * fs + secU - 1) / secU).toNat
  let hi := ((b * fs + secU - 1) / secU).toNat
  (List.range (hi - lo)).map (lo + ·)

/-- The audio samples of a line (R314): its own, and those of a line before it that may not carry them. -/
def Dev.lineSamples (d : Dev) (n line : Nat) : List Nat :=
  let f := d.dstFormat n
  let b := d.boundary n
  let p : Int := fmtPeriod f
  let t := fun (k : Nat) => b + p * (k - 1 : Nat) / fmtTotalLines f
  if afterSwitch f line then []
  else samplesIn (if d.aud96 then 96000 else 48000) (if afterSwitch f (line - 1) then t (line - 1) else t line) (t (line + 1))

/-- The audio channels a destination embeds (R218, R314): none but in quadrant 0. -/
def Dev.embedded (d : Dev) (n : Nat) (row : Option SdiIf) : Nat :=
  if d.flag (F.DST_CTRL_quad_member n) && d.fld (F.DST_CTRL_quad_pos n) ≠ 0 then 0
  else min (d.fld (F.AUD_DGRP_count n)) (match row with | some i => i.channels d.aud96 | none => 0)

/-- The words a line's horizontal space has left in the Y stream and the colour-difference stream after audio, ST 352 and
SD error detection (R313): audio data packets of 31 words stand in the colour-difference stream, control packets of 18
in the Y stream. -/
def Dev.hancLeft (d : Dev) (n line channels : Nat) (cStream : Bool) : Nat :=
  let f := d.dstFormat n
  let sd := decide (fmtRaster f ≤ 1)
  let groups := ceilDiv channels 4
  let data := (if sd || cStream then groups * (d.lineSamples n line).length * 31 else 0)
  let control := (if (sd || !cStream) && (controlLines f).contains line then groups * 18 else 0)
  let ids := (if (vpidLines f).contains line then 11 else 0) + (if sd && (edhLines f).contains line then 23 else 0)
  ancRoom f true - data - control - ids

/-- Where a packet is placed: a line, its horizontal or vertical space, and its stream. -/
structure AncPlace where
  line : Nat
  hanc : Bool
  cStream : Bool
  deriving DecidableEq, Repr

/-- A place can take a packet beside those already placed. -/
def Dev.placeOk (d : Dev) (n channels : Nat) (placed : List (AncPlace × AncPacket)) (a : AncPlace) (p : AncPacket) : Bool :=
  let f := d.dstFormat n
  let used := ((placed.filter fun e => e.1 == a).map fun e => ancSize e.2).sum
  decide (1 ≤ a.line) && decide (a.line ≤ fmtTotalLines f) && !switchBarred f a.line &&
  (a.hanc || (activeLine f a.line).isNone) &&
  decide (used + ancSize p ≤ if a.hanc then d.hancLeft n a.line channels a.cStream else ancRoom f false)

/-- The placement of a frame's stored entries (R313): each with its place, or none where it is dropped. -/
def Dev.placeAnc (d : Dev) (n channels : Nat) : List AncPacket → List (AncPlace × AncPacket) → List (AncPlace × AncPacket) × Nat
  | [], acc => (acc, 0)
  | p :: r, acc =>
    let f := d.dstFormat n
    let sd := decide (fmtRaster f ≤ 1)
    let own : AncPlace := ⟨p.line, p.hanc, p.cStream && !sd⟩
    let (lo, hi) := fieldLines f p.line
    let later := (List.range (hi - p.line)).map (p.line + 1 + ·) ++ (List.range (p.line + 1 - lo)).map (lo + ·)
    let choice :=
      if d.placeOk n channels acc own p then some own
      else (later.map fun k => (⟨k, false, false⟩ : AncPlace)).find? fun a => vancLine f a.line && d.placeOk n channels acc a p
    match choice with
    | some a => d.placeAnc n channels r (acc ++ [(a, p)])
    | none => let (l, k) := d.placeAnc n channels r acc; (l, k + 1)

/-- The packets of a slot's ancillary store (R82): entries up to the first empty one. -/
def ancRead (b : List Byte) : Nat → Nat → List AncPacket
  | 0, _ => []
  | k + 1, off =>
    if leAt b off 4 = 0 then []
    else match ancEntries b b.length 1 off with
      | some [p] => p :: ancRead b k (off + ceilDiv (4 + 2 * (p.data.length + 4)) 4 * 4)
      | _ => []

/-- The packets a destination sends in its current frame (R121, R122): those of the ancillary route's frame, once. -/
def Dev.dstAnc (d : Dev) (n : Nat) : List AncPacket :=
  match (d.dstm n).anc with
  | some (code, _, slot) =>
    if !(d.dstm n).ancFresh then []
    else ancRead (d.mem.getBytes ((d.store code).ancAddr d.grain slot) 16384) 4096 0
  | none => []

/-- The transmitter is muted (R315, R411). -/
def Dev.sdiMute (d : Dev) (l : Nat) : Bool :=
  match d.tstate with
  | 0 | 2 | 3 => false
  | 6 => d.flag (F.SDI_TX_CTRL_standby l)
  | _ => true

/-- The pel words of a link's line: its part of the destination's picture (R302). -/
def linkWords (quad interleave : Bool) (k : Nat) (lines : Nat → List Nat) (row : Nat) : List Nat :=
  if !quad then lines row
  else if interleave then
    let ws := lines (2 * row + k / 2)
    (List.range (ws.length / 4)).flatMap fun j => (ws.drop (4 * j + 2 * (k % 2))).take 2
  else
    let ws := lines (row + k / 2 * 1080)
    (ws.drop (k % 2 * (ws.length / 2))).take (ws.length / 2)

/-- A line is transmitted (R312 to R315). -/
def sdiTx (l line : Nat) : Prog :=
  doWhen (fun d => d.on (sdiFn l) && d.on (laneFn l) && d.flag (F.LANE_CTRL_tx_en l)) (.read fun d =>
    match d.sdiDest l with
    | none => .nop
    | some n =>
      let f := d.dstFormat n
      let quad := d.sdiQuad l
      let k := if quad then l % 4 else 0
      let raster := if quad then 0x50 + fmtRate f else f
      let sam := d.fld (F.DST_CTRL_out_sampling n)
      let dep := d.fld (F.DST_CTRL_out_depth n)
      let row := sdiRow f sam dep quad (d.fld (F.SDI_CTRL_tx_mapping (d.sdiNamed l)) == 1)
      let lines := fun i => match KV.get [] (d.dstm n).lines i with | [] => d.outLine n i | ws => ws
      let chans := if k = 0 then d.embedded n row else 0
      let inner := k = 0 && !(d.flag (F.DST_CTRL_quad_member n) && d.fld (F.DST_CTRL_quad_pos n) ≠ 0)
      let (placed, dropped) := if inner then d.placeAnc n chans (d.dstAnc n) [] else ([], 0)
      let samples := d.lineSamples n line
      let base := d.fld (F.AUD_DGRP_base n)
      let out : SdiOut := {
        line := line
        active := match activeLine raster line with
          | some r => linkWords quad (d.flag (F.SDI_CTRL_quad_div (d.sdiNamed l))) k lines r
          | none => []
        audio := (List.range (ceilDiv chans 4)).map fun g =>
          (g + 1, (List.range 4).map fun c => samples.map fun s => if 4 * g + c < chans then d.audAt (base + 4 * g + c) s else 0)
        control := if (controlLines raster).contains line then (List.range (ceilDiv chans 4)).map (· + 1) else []
        vpid := if (vpidLines raster).contains line then
            some (Config.vpidBytes (d.laneRate l) (row == some .levelB) f sam dep (d.fld (F.DST_CTRL_colorimetry n))
              (if quad then k + 1 else if d.flag (F.DST_CTRL_quad_member n) then d.fld (F.DST_CTRL_quad_pos n) + 1 else 1))
          else none
        edh := d.flag (F.SDI_TX_CTRL_edh_en l) && (edhLines raster).contains line
        anc := (placed.filter fun e => e.1.line == line).map (·.2) }
      doIf (d.dstRuns n && decide (1 ≤ line) && decide (line ≤ fmtTotalLines raster)) (
        if d.sdiMute l then setF (F.SDI_STATUS_tx_muted l) 1
        else doIf (!d.flag (F.SDI_STATUS_tx_muted l) || line == 1) (seq [
          setF (F.SDI_STATUS_tx_muted l) 0,
          emit (.sdiLine l out),
          doIf (line == 1 && decide (0 < dropped)) (seq [
            addCnt (R.SDI_CNT_ANC_DROP l) dropped, raise (F.SDI_ALARM_anc_drop l)])])))

/-! ### The meanings -/

/-- SDI_SIGNAL_DETECT (R303, R304). -/
def execSdiSignalDetect (l : LaneId) (s : State) : Host.Outcome State Fault Refusal :=
  perform .core (doWhen (fun d => d.on (sdiFn l) && d.on (laneFn l) && d.flag (F.LANE_CTRL_rx_en l) && d.sdiState l == 0)
    (.read fun d => seq [sdiGo l 1, sdiUpd l fun m => { m with try_ := d.sdiNext l 0 }])) s

/-- SDI_SEARCH_DWELL (R291, R304). -/
def execSdiSearchDwell (l : LaneId) (s : State) : Host.Outcome State Fault Refusal :=
  perform .core (doWhen (fun d => d.on (sdiFn l) && d.sdiState l == 1)
    (.read fun d => seq [sdiUpd l fun m => { m with try_ := d.sdiNext l (m.try_ + 1) }, laneInitial l])) s

/-- SDI_CDR_LOCK (R303, R304): at the rate tried, where its code is enabled. -/
def execSdiCdrLock (l : LaneId) (rate : Nat) (s : State) : Host.Outcome State Fault Refusal :=
  perform .core (doWhen (fun d => d.on (sdiFn l) && d.sdiState l == 1 && d.sdiCode l rate &&
      (searchOrder.getD (d.sdim l).try_ []).contains rate) (seq [
    sdiGo l 2, setF (F.SDI_RX_STATE_rate l) rate, setF (F.LANE_STATUS_rx_rate l) rate, setF (F.LANE_STATUS_cdr_lock l) 1])) s

/-- SDI_ALIGN_COMPLETE (R303, R305): `rows` is how many rows of R300 the structure fits. -/
def execSdiAlignComplete (l : LaneId) (levelB : Bool) (rows : Nat) (s : State) : Host.Outcome State Fault Refusal :=
  perform .core (doWhen (fun d => d.on (sdiFn l) && d.sdiState l == 2) (seq [
    sdiGo l 3, setB (F.SDI_RX_STATE_level_b l) levelB, sdiUpd l fun m => { m with rows := rows },
    setF (F.SDI_STATUS_rx_running l) 1])) s

/-- SDI_CDR_UNLOCK (R303). -/
def execSdiCdrUnlock (l : LaneId) (s : State) : Host.Outcome State Fault Refusal :=
  perform .core (doWhen (fun d => d.on (sdiFn l) && decide (2 ≤ d.sdiState l))
    (.read fun d => seq [sdiGo l 1, sdiUpd l fun m => { m with try_ := d.sdiNext l 0 }])) s

/-- SDI_LOS (R303). -/
def execSdiLos (l : LaneId) (s : State) : Host.Outcome State Fault Refusal :=
  perform .core (doWhen (fun d => d.on (sdiFn l) && d.sdiState l ≠ 0)
    (seq [sdiGo l 0, raise (F.SDI_ALARM_los l), inc (R.SDI_CNT_LOS l)])) s

/-- SDI_LINE_RX (R306, R309). -/
def execSdiLineRx (l : LaneId) (d : SdiLine) (s : State) : Host.Outcome State Fault Refusal := perform .core (sdiLine l d) s

/-- SDI_ANC_PACKET_RX (R307). -/
def execSdiAncPacketRx (l : LaneId) (p : SdiPacket) (s : State) : Host.Outcome State Fault Refusal :=
  perform .core (sdiPacket l p) s

/-- SDI_TX_LINE (R312). -/
def execSdiTxLine (l : LaneId) (line : Nat) (s : State) : Host.Outcome State Fault Refusal := perform .core (sdiTx l line) s

/-- What a write of 1 to SDI_CNT_CLEAR clears (R317). -/
def sdiCntClear (l : LaneId) : Prog :=
  clearRegs [R.SDI_CNT_CRC l, R.SDI_CNT_LN l, R.SDI_CNT_TRS l, R.SDI_CNT_EDH_AP l, R.SDI_CNT_EDH_FF l,
  R.SDI_CNT_ERR_FRAMES l, R.SDI_CNT_ANC_CSUM l, R.SDI_CNT_AUD_ERR l, R.SDI_CNT_ANC_DROP l, R.SDI_CNT_LOS l]

/-- SDI_CNT_CLEAR (R317). -/
def execSdiCntClear (l : LaneId) (s : State) : Host.Outcome State Fault Refusal := perform .core (sdiCntClear l) s

end Sys2Proof.Machine
end

