-- ==== Sys2Proof/Machine/Media.lean ====
section
/-!
DEFINITION. Ethernet, flows and timed transmission (R318 to R352): MACs and gates, the flow table, receive contexts with
ST 2022-7 merging, transmit contexts with their packets, slots and launches, PTP frames and timestamp reports.
-/

namespace Sys2Proof.Machine

/-- What a MAC holds, and the MAC as a function. -/
def Dev.macm (d : Dev) (m : Nat) : MacMem := KV.get {} d.x.mac m
def macUpd (m : Nat) (f : MacMem → MacMem) : Prog := ext fun x => { x with mac := KV.upd {} x.mac m f }
def macFn (m : Nat) : Fn := .mac (Fin.ofNat 97 m)

/-- What a receive context holds, and the contexts as functions. -/
def Dev.frx (d : Dev) (q : Nat) : FlowRxMem := KV.get {} d.x.flowRx q
def frxUpd (q : Nat) (f : FlowRxMem → FlowRxMem) : Prog := ext fun x => { x with flowRx := KV.upd {} x.flowRx q f }
def flowRxFn (q : Nat) : Fn := .flowRx (Fin.ofNat 8192 q)
def flowTxFn (q : Nat) : Fn := .flowTx (Fin.ofNat 8192 q)

/-! ### MACs (R318 to R320, R348) -/

/-- The fault a MAC's configuration gives it as it wakes (R319, R348). -/
def Dev.macConfigFault (d : Dev) (m : Nat) : Option Nat :=
  let speed := d.fld (F.MAC_CTRL_speed m)
  let fec := d.fld (F.MAC_CTRL_fec m)
  let rate := d.laneRate m
  let ok :=
    match speed with
    | 0 => decide (fec ≤ 1) && rate == 3
    | 1 => decide (fec ≤ 2) && rate == 2
    | 2 => fec == 3 && rate == 1
    | 3 => fec == 3 && rate == 0
    | 4 | 5 => fec == 3 && decide (rate ≤ 1)
    | _ => false
  if m = 96 then (if speed = 6 ∧ fec = 0 then none else some 1)
  else if (d.macLanes m).any fun l => d.fst (laneFn l) == .fault then some 3
  else if ok && d.portGrouped m && d.laneMac m == m then none else some 1

/-- The bits a second a port carries (R319). -/
def speedBps (speed : Nat) : Nat :=
  match speed with
  | 0 => 10000000000 | 1 => 25000000000 | 2 => 50000000000 | 3 => 100000000000 | 4 => 200000000000
  | 5 => 400000000000 | _ => 1000000000

/-- Frames pass: the MAC is ON and its link is up. -/
def Dev.macUp (d : Dev) (m : Nat) : Bool := d.on (macFn m) && d.flag (F.MAC_STATUS_link_up m)

/-- A change of the state of a port's PCS (R320). -/
def macLink (m : Nat) (k : MacLink) : Prog :=
  doWhen (fun d => d.on (macFn m)) (.read fun d =>
    let up := k.pcsLock && !k.localFault && !k.remoteFault
    seq [
      setB (F.MAC_STATUS_pcs_lock m) k.pcsLock,
      statusAlarm (F.MAC_STATUS_local_fault m) (F.MAC_ALARM_local_fault m) k.localFault,
      statusAlarm (F.MAC_STATUS_remote_fault m) (F.MAC_ALARM_remote_fault m) k.remoteFault,
      doIf (up ≠ d.flag (F.MAC_STATUS_link_up m))
        (seq [setB (F.MAC_STATUS_link_up m) up, raise (F.MAC_ALARM_link_down m)])])

/-- A MAC leaves ON: nothing is sent or delivered. -/
def macStopped (m : Nat) : Prog :=
  seq [macUpd m fun k => { k with queue := [], sending := none }, wr (R.MAC_STATUS m) 0]

/-! ### Addresses and the flow table (R323, R330, R352) -/

/-- The IP address of an address entry, first octet the most significant. -/
def Dev.addrIp (d : Dev) (a : Nat) : Nat := ofBeBytes ((List.range 4).flatMap fun i => leBytes 4 (d.rd (R.FADDR_IP a i)))

/-- An address entry is in use, and is IPv4. -/
def Dev.addrValid (d : Dev) (a : Nat) : Bool := d.flag (F.FADDR_MAC_HI_valid a)
def Dev.addrV4 (d : Dev) (a : Nat) : Bool := d.flag (F.FADDR_MAC_HI_ipv4 a)

/-- The key a receive leg matches on (R323). -/
structure LegKey where
  port : Nat
  v4 : Bool
  dst : Nat
  udp : Nat
  src : Option Nat
  vlan : Option Nat
  deriving DecidableEq, Repr

/-- The key of a leg. -/
def Dev.legKey (d : Dev) (q g : Nat) : LegKey :=
  let a := d.fld (F.FLOW_RX_ADDR_dst q g)
  { port := d.fld (F.FLOW_RX_LEG_port q g), v4 := d.addrV4 a, dst := d.addrIp a, udp := d.fld (F.FADDR_UDP_dst_udp a)
    src := if d.flag (F.FLOW_RX_LEG_src_en q g) then some (d.addrIp (d.fld (F.FLOW_RX_ADDR_src q g))) else none
    vlan := if d.flag (F.FLOW_RX_LEG_vlan_en q g) then some (d.fld (F.FLOW_RX_LEG_vlan q g)) else none }

/-- The enabled receive legs: context and leg. -/
def Dev.rxLegs (d : Dev) : List (Nat × Nat) :=
  d.regs.filterMap fun e =>
    if e.1.kind = .FLOW_RX_LEG ∧ d.flag (F.FLOW_RX_LEG_leg_en e.1.i e.1.j) then some (e.1.i, e.1.j) else none

/-- A frame matches a leg's key (R323). -/
def LegKey.hits (k : LegKey) (m : Nat) (f : EthFrame) : Bool :=
  match f.ip with
  | some h => k.port == m && k.v4 == !h.v6 && k.dst == h.dst && k.udp == h.udp &&
      (match k.src with | some a => a == h.src | none => true) &&
      (match k.vlan with | some v => f.tags.head? == some v | none => true)
  | none => false

/-- The enabled leg of an enabled context that a frame matches. -/
def Dev.flowMatch (d : Dev) (m : Nat) (f : EthFrame) : Option (Nat × Nat) :=
  d.rxLegs.find? fun e => d.flag (F.FLOW_RX_CTRL_enable e.1) && (d.legKey e.1 e.2).hits m f

/-- The opaque contexts of a direction (R324, R330). -/
def Dev.opaqueRx (d : Dev) : List Nat := (d.keysOf .FLOW_RX_CTRL).filter fun q => d.fld (F.FLOW_RX_CTRL_kind q) == 3
def Dev.opaqueTx (d : Dev) : List Nat := (d.keysOf .FLOW_TX_CTRL).filter fun q => d.fld (F.FLOW_TX_CTRL_kind q) == 3

/-- Why a receive context's configuration is refused (R323, R324, R352). -/
def Dev.flowRxRefused (d : Dev) (q : Nat) : Option Nat :=
  let legs := [0, 1].filter fun g => d.flag (F.FLOW_RX_LEG_leg_en q g)
  let bad := legs.any fun g => !d.addrValid (d.fld (F.FLOW_RX_ADDR_dst q g)) ||
    (d.flag (F.FLOW_RX_LEG_src_en q g) && !d.addrValid (d.fld (F.FLOW_RX_ADDR_src q g)))
  let busy := legs.any fun g => d.rxLegs.any fun e => e ≠ (q, g) && d.legKey e.1 e.2 == d.legKey q g
  if bad then some Reason.badFlow
  else if busy then some Reason.flowBusy
  else if 8192 < d.rxLegs.length then some Reason.tableFull
  else if 1024 < d.opaqueRx.length then some Reason.opaqueLimit
  else none

/-- A port of a context's legs is absent or in FAULT (R348), or not yet ON (R347). Port 96 carries no media (R318). -/
def Dev.portAbsent (d : Dev) (p : Nat) : Bool :=
  decide (96 ≤ p) || d.lanePers p ≠ 2 || d.laneMac p ≠ p || d.fst (macFn p) == .fault
def Dev.rxPorts (d : Dev) (q : Nat) : List Nat :=
  ([0, 1].filter fun g => d.flag (F.FLOW_RX_LEG_leg_en q g)).map fun g => d.fld (F.FLOW_RX_LEG_port q g)
def Dev.txPorts (d : Dev) (q : Nat) : List Nat :=
  ([0, 1].filter fun g => d.flag (F.FLOW_TX_LEG_leg_en q g)).map fun g => d.fld (F.FLOW_TX_LEG_port q g)

/-- The fault a context's bindings give it as it wakes, and whether it waits for a port (R347, R348). -/
def Dev.portsFault (d : Dev) (ps : List Nat) : Option Nat := if ps.any d.portAbsent then some 1 else none
def Dev.portsWait (d : Dev) (ps : List Nat) : Bool := ps.any fun p => !d.on (macFn p)

/-- The registers of R351 that count. -/
def Dev.flowUsed (d : Dev) : Nat := d.rxLegs.length
def Dev.flowRxOn (d : Dev) : Nat := ((d.keysOf .FLOW_RX_FSTATE).filter fun q => d.on (flowRxFn q)).length
def Dev.flowTxOn (d : Dev) : Nat := ((d.keysOf .FLOW_TX_FSTATE).filter fun q => d.on (flowTxFn q)).length
def Dev.flowStageKib (d : Dev) : Nat :=
  min 6144 (ceilDiv ((d.x.mac.map fun e => (e.2.queue.map fun f => f.length).sum).sum) 1024)

/-! ### Receive contexts: release and delivery (R324 to R326, R328) -/

/-- The sources a receive context feeds (R70, R324). -/
def Dev.flowSources (d : Dev) (q : Nat) : List Nat :=
  (d.keysOf .SRC_CTRL).filter fun n =>
    d.flag (F.SRC_CTRL_enable n) && d.fld (F.SRC_CTRL_transport n) == 1 && d.fld (F.SRC_INPUT_id n) == q

/-- The ANC contexts whose target is a source. -/
def Dev.ancContexts (d : Dev) (n : Nat) : List Nat :=
  (d.keysOf .FLOW_RX_CTRL).filter fun a =>
    d.flag (F.FLOW_RX_CTRL_enable a) && d.fld (F.FLOW_RX_CTRL_kind a) == 2 && d.fld (F.FLOW_RX_CTRL_target a) == n

/-- Entries that waited for a frame reach it as its first packet comes (R326). -/
def ancArrive (n ts : Nat) : Prog :=
  .read fun d => each (d.ancContexts n) fun a =>
    let held := (d.frx a).anc
    seq [
      each (held.filter (·.1 == ts)) fun e => srcReceive n [] e.2,
      frxUpd a fun m => { m with anc := held.filter (·.1 ≠ ts) }]

/-- A VIDEO packet reaches its sources (R325). -/
def rxVideo (q : Nat) (p : RtpPacket) (rows : List PelRun) : Prog :=
  .read fun d => seq [
    frxUpd q fun m => { m with stamp := some p.stamp, done := p.marker },
    each (d.flowSources q) fun n => seq [ancArrive n p.stamp, srcReceive n rows []]]

/-- An AUDIO packet reaches its inputs (R203, R326): the channels that its reception descriptor says it carries (R229); its
samples stand at its RTP timestamp, a house sample index. -/
def rxAudio (q : Nat) (p : RtpPacket) (samples : List (List Int)) (nonPcm : Nat) : Prog :=
  .read fun d =>
    let fs := if d.aud96 then 96000 else 48000
    let unit := secU / fs
    let ht : Int := d.x.time.ht
    let t := ht + centred (2 ^ 32 * unit) ((p.stamp % 2 ^ 32 * unit : Nat) - ht)
    let ok := decide ((t - ht).natAbs ≤ secU)
    doIf (d.flag (F.ARX_DESC_enable q)) (each (samples.take (d.fld (F.ARX_DESC_count q))).zipIdx fun e =>
      audDeliver 3 q e.2 (t.toNat + e.1.length * unit) e.1 (bitOf nonPcm (e.2 / 2)) ok)

/-- An ANC packet's entries reach the frame of equal RTP timestamp (R326): they wait for a later frame, and those of a
frame already complete are dropped. -/
def rxAnc (q : Nat) (p : RtpPacket) (entries : List AncPacket) : Prog :=
  .read fun d =>
    let n := d.fld (F.FLOW_RX_CTRL_target q)
    let l := entries.filter ancStored
    let drop : Prog := doIf (!l.isEmpty) (seq [addCnt (R.SRC_CNT_ANC_DROP n) l.length, raise (F.SRC_ALARM_anc_drop n)])
    let wait : Prog := frxUpd q fun m => { m with anc := (m.anc ++ [(p.stamp, l)]).drop (m.anc.length - 15) }
    if d.fld (F.SRC_CTRL_transport n) ≠ 1 then drop
    else
      let v := d.frx (d.fld (F.SRC_INPUT_id n))
      match v.stamp with
      | none => wait
      | some ts =>
        if ts = p.stamp then (if v.done then drop else srcReceive n [] l)
        else if (p.stamp + 2 ^ 32 - ts) % 2 ^ 32 < 2 ^ 31 then wait else drop

/-! ### Transmit contexts: packets (R330 to R332, R338) -/

/-- The destination that a VIDEO or OPAQUE context is bound by: the lowest-numbered claimant (R138, R330). -/
def Dev.flowDest (d : Dev) (q : Nat) : Option Nat :=
  (d.keysOf .DST_CTRL).find? fun n =>
    d.flag (F.DST_CTRL_enable n) && d.fld (F.DST_CTRL_transport n) == 1 && d.fld (F.DST_OUTPUT_id n) == q

/-- The context of a kind that a destination drives, where it is its lowest-numbered claimant. -/
def Dev.destFlow (d : Dev) (n kind : Nat) : Option Nat :=
  let q := d.fld (F.DST_OUTPUT_id n)
  if d.fld (F.DST_CTRL_transport n) = 1 ∧ d.fld (F.FLOW_TX_CTRL_kind q) = kind ∧ d.flowDest q = some n then some q else none

/-- A context's packets are not transmitted (R333, R411). -/
def Dev.flowMuted (d : Dev) (q : Nat) : Bool :=
  match d.tstate with
  | 0 | 2 | 3 => false
  | 6 => d.flag (F.FLOW_TX_CTRL_standby q)
  | _ => true

/-- Nothing is built: a standby before the snapshot is applied (R411). -/
def Dev.flowHeld (d : Dev) : Bool :=
  !d.x.twin.applied && (d.tstate == 1 || d.tstate == 4 || d.tstate == 5 || d.tstate == 7)

/-- A context builds: it is ON and a boundary has passed since (R347). -/
def Dev.flowBuilds (d : Dev) (q : Nat) : Bool := d.on (flowTxFn q) && KV.get false d.x.flowTx q && !d.flowHeld

/-- The address a multicast group's frames carry; none for a unicast address. -/
def groupMac (v4 : Bool) (ip : Nat) : Option Nat :=
  if v4 then (if bitsOf ip 28 4 = 14 then some (0x01005E000000 + ip % 2 ^ 23) else none)
  else if bitsOf ip 120 8 = 0xFF then some (0x333300000000 + ip % 2 ^ 32) else none

/-- The headers of a leg (R330). -/
def Dev.legHdr (d : Dev) (q g : Nat) : TxHdr :=
  let m := d.fld (F.FLOW_TX_LEG_port q g)
  let a := d.fld (F.FLOW_TX_ADDR_dst q g)
  let v4 := d.addrV4 a
  { srcMac := d.rd (R.MAC_ADDR_HI m) * 2 ^ 32 + d.rd (R.MAC_ADDR_LO m)
    dstMac := (groupMac v4 (d.addrIp a)).getD (d.fld (F.FADDR_MAC_HI_mac_hi a) * 2 ^ 32 + d.rd (R.FADDR_MAC_LO a))
    v4 := v4
    src := if v4 then d.rd (R.MAC_IPV4 m) else (List.range 4).foldl (fun x i => x * 2 ^ 32 + d.rd (R.MAC_IPV6 m i)) 0
    dst := if v4 then d.addrIp a % 2 ^ 32 else d.addrIp a
    srcUdp := d.fld (F.FADDR_UDP_src_udp a), dstUdp := d.fld (F.FADDR_UDP_dst_udp a)
    tag := if d.flag (F.FLOW_TX_LEG_vlan_en q g) then
      some (d.fld (F.FLOW_TX_LEG_pcp q g) * 2 ^ 13 + d.fld (F.FLOW_TX_LEG_vlan q g)) else none
    dscp := d.fld (F.FLOW_TX_ADDR_dscp q g), ttl := d.fld (F.FLOW_TX_ADDR_ttl q g) }

/-- The length of a leg's frame with `payload` bytes after the RTP header. -/
def Dev.legLength (d : Dev) (q g payload : Nat) : Nat :=
  14 + (if d.flag (F.FLOW_TX_LEG_vlan_en q g) then 4 else 0) +
    (if d.addrV4 (d.fld (F.FLOW_TX_ADDR_dst q g)) then 20 else 40) + 8 + 12 + payload + 4

/-- The longest frame of a port with `tags` 802.1Q tags (R320). -/
def Dev.maxFrame (d : Dev) (m tags : Nat) : Nat := clampN 64 9216 (d.rd (R.MAC_MAX_FRAME m)) + 4 * tags

/-- The bytes of an RTP packet in network order. -/
def rtpBytes (p : RtpPacket) (body : List Byte) : List Byte :=
  beBytes 1 0x80 ++ beBytes 1 (128 * boolBit p.marker + p.pt % 128) ++ beBytes 2 p.seq ++ beBytes 4 p.stamp ++
  beBytes 4 p.ssrc ++ body

/-- The RTP packet of bytes in network order. -/
def rtpParse (b : List Byte) : RtpPacket :=
  let at_ := fun (o n : Nat) => ofBeBytes ((b.drop o).take n)
  { version := at_ 0 1 / 64, pt := at_ 1 1 % 128, marker := decide (128 ≤ at_ 1 1), seq := at_ 2 2, stamp := at_ 4 4
    ssrc := at_ 8 4, body := .opaque (b.drop 12) }

/-- A context builds a packet (R330 to R332): the counter advances, and each enabled leg's frame waits at its port. An
opaque context bound to a Holtut flow sends the packet there with its launch time (R269). -/
def txBuild (q : Nat) (p : RtpPacket) (slot : Int) (late payload : Nat) : Prog :=
  doWhen (fun d => d.flowBuilds q) (.read fun d =>
    let c := d.rd (R.FLOW_TX_SEQ q)
    let video := d.fld (F.FLOW_TX_CTRL_kind q) == 0
    let p' := { p with pt := d.fld (F.FLOW_TX_CTRL_pt q), ssrc := d.rd (R.FLOW_TX_SSRC q), seq := c % 2 ^ 16
                       ext := if video then c / 2 ^ 16 else 0 }
    let at_ : Int := (d.x.time.clk : Int) + slot - d.x.time.ht
    seq [
      wr (R.FLOW_TX_SEQ q) ((c + 1) % 2 ^ 32), inc (R.FLOW_TX_CNT_PKTS q),
      setF (F.FLOW_TX_STATUS_parked q) 0, setB (F.FLOW_TX_STATUS_muted q) (d.flowMuted q),
      setB (F.FLOW_TX_STATUS_sending q) (!d.flowMuted q),
      each ([0, 1].filter fun g => d.flag (F.FLOW_TX_LEG_leg_en q g)) fun g =>
        let m := d.fld (F.FLOW_TX_LEG_port q g)
        doIf (d.on (macFn m)) (macUpd m fun k => { k with queue := k.queue ++ [
          { body := .media q g (d.legHdr q g) p', tc := d.fld (F.FLOW_TX_CTRL_tc q), slot := at_, late := some late
            length := d.legLength q g payload }] }),
      match d.x.opqTx.find? (·.2 == some q), p'.body with
      | some (f, _), .opaque b =>
        let l := rtpBytes p' b
        hlkSend (f / 64) 4 (f % 64) (leBytes 8 (linkTime slot.toNat) ++ leBytes 2 l.length ++ leBytes 6 0 ++ l)
      | _, _ => .nop])

/-- A context's destination is parked: no packet is built and the counter holds (R125, R332). -/
def txParked (q : Nat) : Prog :=
  seq [setF (F.FLOW_TX_STATUS_parked q) 1, setF (F.FLOW_TX_STATUS_sending q) 0]

/-- An instant as an RTP timestamp: 90,000 ticks a second (R331). -/
def rtpStamp (t : Int) : Nat := (t * 90000 / secU % 2 ^ 32).toNat

/-! ### Video packets (R334, R335) -/

/-- A pgroup's octets and pixels, by sampling and depth code (ST 2110-20). -/
def pgroup (sampling depth : Nat) : Nat × Nat :=
  match sampling, depth with
  | 0, 0 => (4, 2) | 0, 1 => (5, 2) | 0, _ => (6, 2)
  | _, 0 => (3, 1) | _, 1 => (15, 4) | _, _ => (9, 2)

/-- How a VIDEO context packs a line (R334): pgroups in a line, packets in a line, pgroups in a packet. -/
structure LinePack where
  groups : Nat
  octets : Nat
  pixels : Nat
  packets : Nat
  each : Nat

/-- The packing of a format's lines at a payload. -/
def linePack (f sampling depth payload : Nat) : LinePack :=
  let (o, px) := pgroup sampling depth
  let g := fmtWidth f / px
  let pp := ceilDiv (g * o) (max 1 payload)
  { groups := g, octets := o, pixels := px, packets := pp, each := ceilDiv g (max 1 pp) }

/-- The period T_FRAME of R335, the packets N in it, and the ratio R_ACTIVE. -/
def slotPeriod (f : Nat) : Nat := if fmtFielded f then fmtPeriod f / 2 else fmtPeriod f
def slotCount (f : Nat) (k : LinePack) : Nat := k.packets * (if fmtFielded f then fmtLines f / 2 else fmtLines f)

/-- i × TRS, rounded down to a unit (R335). -/
def slotOffset (f pacing n i : Nat) : Nat :=
  if pacing = 1 then i * slotPeriod f / n
  else i * (slotPeriod f * fmtLines f) / (n * fmtTotalLines f)

/-- The packing of a destination's video context. -/
def Dev.destPack (d : Dev) (n q f : Nat) : LinePack :=
  linePack f (d.fld (F.DST_CTRL_out_sampling n)) (d.fld (F.DST_CTRL_out_depth n)) (d.fld (F.FLOW_TX_PKT_payload q))

/-- FLOW_TX_TRS: TRS in 1/16 ns, rounded (R335). -/
def Dev.trsSixteenths (d : Dev) (n q f : Nat) : Nat :=
  let k := slotCount f (d.destPack n q f)
  let t := if d.fld (F.FLOW_TX_CTRL_pacing q) = 1 then (slotPeriod f, k) else (slotPeriod f * fmtLines f, k * fmtTotalLines f)
  (2 * t.1 + 189 * t.2) / (2 * 189 * max 1 t.2)

/-- The packets of an emitted line (R334, R335). -/
def txVideoLine (n line : Nat) (ws : List Nat) : Prog :=
  .read fun d =>
    match d.destFlow n 0 with
    | none => .nop
    | some q =>
      let (o, _) := d.dstTiming n
      let f := o.format
      let pk := d.destPack n q f
      let half := fmtLines f / 2
      let field2 := fmtFielded f && decide (half ≤ line)
      let row := if field2 then line - half else line
      let count := slotCount f pk
      let start := d.boundary n + (if field2 then fmtPeriod f / 2 else 0 : Nat) + d.rd (R.FLOW_TX_TRO q) * nsU
      let pacing := d.fld (F.FLOW_TX_CTRL_pacing q)
      let s := d.fld (F.DST_CTRL_out_sampling n)
      let wordAt := fun (g : Nat) => g * pk.pixels * pelWords s (fmtWidth f) / fmtWidth f
      each (List.range pk.packets) fun j =>
        let i := row * pk.packets + j
        let g0 := min pk.groups (j * pk.each)
        let g1 := min pk.groups (g0 + pk.each)
        txBuild q
          { pt := 0, ssrc := 0, seq := 0, stamp := rtpStamp o.start, marker := i + 1 == count
            body := .video [{ line := line, first := wordAt g0, words := (ws.drop (wordAt g0)).take (wordAt g1 - wordAt g0) }] }
          (start + slotOffset f pacing count i) (slotOffset f pacing count 1) (8 + (g1 - g0) * pk.octets)

/-! ### Audio, ancillary and opaque packets (R134, R220, R336) -/

/-- A sample as a packet carries it: L16 rounds with halves up and clips (R220). -/
def packSample (encoding : Nat) (x : Int) : Int :=
  if encoding = 1 then clampI (-32768) 32767 ((x + 128) / 256) else x

/-- The packets of an AUDIO context in a block whose first sample has house index `first` (R220, R336). -/
def txAudioBlock (q first : Nat) : Prog :=
  .read fun d =>
    let size := if d.flag (F.ATX_DESC_ptime q) then d.audN / 8 else d.audN
    let unit := secU / (if d.aud96 then 96000 else 48000)
    let enc := d.fld (F.ATX_DESC_encoding q)
    let count := min d.audGs (d.fld (F.ATX_DESC_count q))
    let o := d.fld (F.ATX_FIRST_first q)
    let parked := match d.audOwner o with
      | some n => d.fld (F.DST_CUR_VIDEO_source n) == 0xFFF && d.fld (F.AOUT_ROUTE_mode o) == 1
      | none => false
    doIf (d.flag (F.ATX_DESC_enable q) && d.fld (F.FLOW_TX_CTRL_kind q) == 1) (
      if parked then txParked q
      else each (List.range (d.audN / size)) fun i =>
        let s0 := first + i * size
        txBuild q
          { pt := 0, ssrc := 0, seq := 0, stamp := s0 % 2 ^ 32
            body := .audio ((List.range count).map fun c =>
              (List.range size).map fun j => packSample enc (d.audAt (o + c) (s0 + j)))
              (bitMask ((List.range ((count + 1) / 2)).filter fun p => ((d.aout (o + 2 * p)).cur.inp.map fun i =>
                d.flag (F.AIN_STATE_non_pcm i)).getD false)) }
          ((s0 * unit + size * unit + d.rd (R.FLOW_TX_TRO q) * nsU : Nat)) (size * unit)
          (count * size * (match enc with | 0 => 3 | 1 => 2 | _ => 4)))

/-- The ANC contexts that carry a destination's ancillary route (R330). -/
def Dev.txAncContexts (d : Dev) (n : Nat) : List Nat :=
  (d.keysOf .FLOW_TX_CTRL).filter fun q =>
    d.fld (F.FLOW_TX_CTRL_kind q) == 2 && d.fld (F.FLOW_TX_CTRL_dest q) == n && d.on (flowTxFn q)

/-- The bytes an entry takes in an ST 2110-40 payload. -/
def anc40Bytes (p : AncPacket) : Nat := 4 + 4 * ceilDiv (10 * (p.data.length + 4)) 32

/-- Entries by packets of at most `room` bytes. -/
def anc40Split (room : Nat) : List AncPacket → List AncPacket → List (List AncPacket)
  | [], acc => [acc]
  | p :: r, acc =>
    if room < ((acc ++ [p]).map anc40Bytes).sum ∧ !acc.isEmpty then acc :: anc40Split room r [p]
    else anc40Split room r (acc ++ [p])

/-- The ancillary packets of a destination's frame, at its switch line (R336): while its ancillary route follows, a PARK
stops them (R125). -/
def txAncFrame (n : Nat) : Prog :=
  .read fun d => each (d.txAncContexts n) fun q =>
    if d.fld (F.DST_CUR_VIDEO_source n) = 0xFFF ∧ d.flag (F.DST_CUR_BREAK_anc_follow n) then txParked q
    else
      let (o, _) := d.dstTiming n
      let l := (d.dstAnc n).filter fun p => !(p.did % 256 == 0x41 && p.sdid % 256 == 1)
      let parts := anc40Split (d.fld (F.FLOW_TX_PKT_payload q)) l []
      each parts.zipIdx fun e =>
        txBuild q
          { pt := 0, ssrc := 0, seq := 0, stamp := rtpStamp o.start, marker := e.2 + 1 == parts.length, body := .anc e.1 }
          (d.boundary n + (d.rd (R.FLOW_TX_TRO q) * nsU : Nat)) (d.fld (F.FLOW_TX_PKT_late_us q) * 1000 * nsU)
          (8 + (e.1.map anc40Bytes).sum)

/-- The RTP instant of a frame for a destination, in house time (R85, R133): unwrapped to the instant nearest its first
packet's arrival on the scale of the destination's OTG, and moved to a frame instant within one tick of it. -/
def Dev.opqInstant (d : Dev) (n ts first : Nat) : Int :=
  let o := (d.dstTiming n).1
  let tick : Nat := 33600000
  let off : Int := (d.scale o.src : Int) - d.x.time.ht
  let now : Int := first + off
  let t := now + centred (2 ^ 32 * tick) ((ts % 2 ^ 32 * tick : Nat) - now)
  let k := nearestFrame (fmtPeriod o.format) t
  (if (k - t).natAbs ≤ tick then k else t) - off

/-- A packet of an opaque slot reaches the destinations that carry the slot's flow (R132 to R134, R336): frames whose RTP
instant is earlier than the last landing's boundary follow the old route. -/
def opqRelay (slot : Nat) (p : RtpPacket) (arrival first : Nat) (start : Bool) (bytes : List Byte) : Prog :=
  .read fun d =>
    each ((d.keysOf .DST_CTRL).filter fun n => d.flag (F.DST_CTRL_opaque n) && d.dstRuns n) fun n =>
      let r := d.opqInstant n p.stamp first
      let code := match (d.dstm n).opqOld with
        | some (c, b) => if r < b then c else d.fld (F.DST_CUR_VIDEO_source n)
        | none => d.fld (F.DST_CUR_VIDEO_source n)
      match d.destFlow n 3 with
      | some q => doIf (code == slot) (seq [
          doIf start (dstUpd n fun m => { m with opqSent := m.opqSent + 1 }),
          txBuild q p (r + (d.rd (R.FLOW_TX_TRO q) * nsU : Nat) + ((arrival : Int) - first))
            (d.fld (F.FLOW_TX_PKT_late_us q) * 1000 * nsU) bytes.length])
      | none => .nop

/-- An OPAQUE packet reaches its slot (R133, R326): a frame begins with the first packet of a new RTP timestamp. -/
def rxOpaque (q : Nat) (p : RtpPacket) (arrival : Nat) (bytes : List Byte) : Prog :=
  .read fun d =>
    let slot := d.fld (F.FLOW_RX_CTRL_target q)
    let s := KV.get {} d.x.opqSlots slot
    let new := s.stamp ≠ some p.stamp
    let first := if new then arrival else s.first
    seq [
      doIf new (ext fun x => { x with
        opqSlots := KV.set {} x.opqSlots slot { stamp := some p.stamp, first := arrival }
        opqPeriod := match s.stamp with
          | some o => KV.set 0 x.opqPeriod slot ((p.stamp + 2 ^ 32 - o) % 2 ^ 32)
          | none => x.opqPeriod }),
      opqRelay slot p arrival first new bytes]

/-- A released packet reaches its context's consumer (R324). -/
def rxDeliver (q : Nat) (p : RtpPacket) (arrival : Nat) : Prog :=
  .read fun d =>
    match d.fld (F.FLOW_RX_CTRL_kind q), p.body with
    | 0, .video rows => rxVideo q p rows
    | 1, .audio l np => rxAudio q p l np
    | 2, .anc l => rxAnc q p l
    | 3, .opaque b => rxOpaque q p arrival b
    | _, _ => .nop

/-! ### ST 2022-7 merging (R327 to R329) -/

/-- How far a sequence lies after another, modulo 2^32. -/
def seqAfter (a b : Nat) : Int := signedOf 32 (a + 2 ^ 32 - b % 2 ^ 32)

/-- The waiting packets that follow the next sequence without a gap are released, in order. -/
def rxFlush (q : Nat) : Nat → Prog
  | 0 => .nop
  | fuel + 1 =>
    .read fun d =>
      match (d.frx q).next with
      | none => .nop
      | some n =>
        match (d.frx q).waiting.find? (·.1 == n) with
        | none => .nop
        | some (_, p, t) => seq [
            frxUpd q fun m => { m with next := some ((n + 1) % 2 ^ 32), waiting := m.waiting.filter (·.1 ≠ n) },
            rxDeliver q p t, rxFlush q fuel]

/-- Everything that can be released is released. -/
def rxRelease (q : Nat) : Prog := .read fun d => rxFlush q (d.frx q).waiting.length

/-- The next sequences up to `to_` are released as missing (R328). -/
def rxMissing (q to_ : Nat) : Prog :=
  .read fun d =>
    match (d.frx q).next with
    | none => .nop
    | some n =>
      let gap := seqAfter to_ n
      doIf (decide (0 < gap)) (seq [
        frxUpd q fun m => { m with next := some (to_ % 2 ^ 32) },
        addCnt (R.FLOW_RX_CNT_LOST q) gap.toNat, raise (F.FLOW_RX_ALARM_lost q)])

/-- A packet's sequence unwrapped to 32 bits (R327). -/
def Dev.rxUnwrap (d : Dev) (q : Nat) (p : RtpPacket) : Nat :=
  if d.fld (F.FLOW_RX_CTRL_kind q) = 0 then p.ext % 2 ^ 16 * 2 ^ 16 + p.seq % 2 ^ 16
  else match (d.frx q).seen.getLast? with
    | some (a, _, _) => (((a : Int) + centred (2 ^ 16) ((p.seq % 2 ^ 16 : Nat) - (a : Int))) % 2 ^ 32).toNat
    | none => p.seq % 2 ^ 16

/-- The arrival on leg B less that on leg A, where a sequence has come on both (R329). -/
def rxSkew (q sq g t : Nat) : Prog :=
  .read fun d =>
    match (d.frx q).seen.find? fun e => e.1 == sq && e.2.1 ≠ g with
    | none => .nop
    | some (_, _, u) =>
      let diff : Int := if g = 1 then (t : Int) - u else (u : Int) - t
      let l := (d.frx q).skews.filter fun e => decide (d.x.time.clk < e.1 + secU)
      let l' := l ++ [(d.x.time.clk, diff)]
      let mean := (l'.map (·.2)).sum / l'.length
      seq [
        frxUpd q fun m => { m with skews := l' },
        setF (F.FLOW_RX_STATUS_skew q) (satCode 16 (roundDiv mean (1000 * nsU))),
        statusAlarm (F.FLOW_RX_STATUS_skew_exceeded q) (F.FLOW_RX_ALARM_skew_exceeded q)
          (decide (clampN 0 10000 (d.fld (F.FLOW_RX_MERGE_skew_us q)) * 1000 * nsU < diff.natAbs))]

/-- A packet without error (R327, R328): the first copy is accepted and released in order; a second copy is discarded,
and so is a copy of a sequence already released. -/
def rxAccept (q g : Nat) (p : RtpPacket) (t : Nat) : Prog :=
  .read fun d =>
    let m := d.frx q
    let sq := d.rxUnwrap q p
    let dup := m.seen.any (·.1 == sq)
    let late := match m.next with | some n => decide (seqAfter sq n < 0) | none => false
    let keep := m.seen.filter fun e => decide (t < e.2.2 + secU)
    seq [
      rxSkew q sq g t,
      doIf dup (inc (R.FLOW_RX_CNT_DUP q)),
      doIf late (inc (R.FLOW_RX_CNT_LATE q)),
      doIf (!dup && !late) (seq [
        frxUpd q fun m => { m with
          seen := keep ++ [(sq, g, t)], waiting := m.waiting ++ [(sq, p, t)], next := some (m.next.getD sq) },
        inc (R.FLOW_RX_CNT_PKTS q),
        setF (F.FLOW_RX_STATUS_receiving q) 1,
        doIf (!d.flag (F.FLOW_RX_CTRL_merge q)) (rxMissing q sq),
        rxRelease q])]

/-- The SSRC check of R324: whether the packet's SSRC is rejected. -/
def Dev.ssrcBad (d : Dev) (q : Nat) (p : RtpPacket) : Bool :=
  d.flag (F.FLOW_RX_CTRL_ssrc_check q) && d.flag (F.FLOW_RX_STATUS_ssrc_locked q) && d.rd (R.FLOW_RX_SSRC q) ≠ p.ssrc

/-- A packet reaches a receive context on a leg with an error word (R322, R324). -/
def rxPacket (q g : Nat) (p : RtpPacket) (t err : Nat) : Prog :=
  doWhen (fun d => d.on (flowRxFn q)) (.read fun d =>
    let m := d.frx q
    let bad := d.ssrcBad q p
    let rtp := p.version ≠ 2 || p.pt ≠ d.fld (F.FLOW_RX_CTRL_pt q) || bad
    let run := if m.newSsrc = p.ssrc then m.newRun + 1 else 1
    seq [
      doIf bad (seq [
        raise (F.FLOW_RX_ALARM_ssrc_mismatch q),
        frxUpd q fun m => { m with newSsrc := p.ssrc, newRun := run % 16 },
        doIf (decide (16 ≤ run)) (wr (R.FLOW_RX_SSRC q) p.ssrc)]),
      doIf (!bad) (frxUpd q fun m => { m with newRun := 0 }),
      if err ≠ 0 || rtp then seq [inc (R.FLOW_RX_CNT_ERR q), raise (F.FLOW_RX_ALARM_pkt_err q)]
      else seq [
        doIf (!d.flag (F.FLOW_RX_STATUS_ssrc_locked q))
          (seq [wr (R.FLOW_RX_SSRC q) p.ssrc, setF (F.FLOW_RX_STATUS_ssrc_locked q) 1]),
        setF (if g = 0 then F.FLOW_RX_STATUS_leg_a_lost q else F.FLOW_RX_STATUS_leg_b_lost q) 0,
        frxUpd q fun m => { m with last := KV.set 0 m.last g (d.x.time.clk + 1) },
        rxAccept q g p t]])

/-- skew_us has passed for an awaited sequence (R328). -/
def rxSeqRelease (q sq : Nat) : Prog :=
  doWhen (fun d => d.on (flowRxFn q) && (d.frx q).next == some sq &&
      (d.frx q).waiting.any fun e => decide (0 < seqAfter e.1 sq))
    (seq [rxMissing q (sq + 1), rxRelease q])

/-- A leg has delivered nothing for 10 ms while the other delivers (R329); when both are lost the context learns afresh. -/
def rxLegLost (q g : Nat) : Prog :=
  doWhen (fun d => d.on (flowRxFn q) && d.flag (F.FLOW_RX_CTRL_merge q)) (.read fun d =>
    let a := d.flag (F.FLOW_RX_STATUS_leg_a_lost q) || g == 0
    let b := d.flag (F.FLOW_RX_STATUS_leg_b_lost q) || g == 1
    seq [
      setF (if g = 0 then F.FLOW_RX_STATUS_leg_a_lost q else F.FLOW_RX_STATUS_leg_b_lost q) 1,
      raise (if g = 0 then F.FLOW_RX_ALARM_leg_a_lost q else F.FLOW_RX_ALARM_leg_b_lost q),
      doIf (a && b) (seq [
        setF (F.FLOW_RX_STATUS_ssrc_locked q) 0, setF (F.FLOW_RX_STATUS_receiving q) 0,
        frxUpd q fun m => { m with next := none, waiting := [], seen := [] }])])

/-- A receive context leaves ON. -/
def flowRxStopped (q : Nat) : Prog :=
  seq [ext fun x => { x with flowRx := KV.set {} x.flowRx q {} }, wr (R.FLOW_RX_STATUS q) 0]

/-- A transmit context leaves ON: it builds nothing until a boundary after it returns, and its counter holds. -/
def flowTxStopped (q : Nat) : Prog :=
  seq [ext fun x => { x with flowTx := KV.set false x.flowTx q false }, wr (R.FLOW_TX_STATUS q) 0]

/-- A boundary has passed for a context (R347). -/
def flowTxArm (q : Nat) : Prog :=
  doWhen (fun d => d.on (flowTxFn q)) (ext fun x => { x with flowTx := KV.set false x.flowTx q true })

/-! ### Received frames (R321, R322) -/

/-- The IEEE 802.3 CRC-32 of bytes. -/
def crc32Step (c : Nat) (b : Byte) : Nat :=
  (List.range 8).foldl (fun (x : Nat) _ => if x % 2 = 1 then (x / 2) ^^^ 0xEDB88320 else x / 2) (c ^^^ b.toNat)
def crc32 (l : List Byte) : Nat := (l.foldl crc32Step 0xFFFFFFFF) ^^^ 0xFFFFFFFF

/-- The MAC takes a destination address (R321). -/
def Dev.macTakes (d : Dev) (m dest : Nat) : Bool :=
  let own := d.rd (R.MAC_ADDR_HI m) * 2 ^ 32 + d.rd (R.MAC_ADDR_LO m)
  let h := crc32 (beBytes 6 dest) / 2 ^ 23
  dest == own || dest == 2 ^ 48 - 1 || (bitOf dest 40 && bitOf (d.rd (R.MAC_HASH m (h / 32))) (h % 32))

/-- The error word of a frame before its RTP header is checked (R322). -/
def Dev.errorWord (d : Dev) (m : Nat) (f : EthFrame) : Nat :=
  let long := decide (f.length < 64) || decide (d.maxFrame m f.tags.length < f.length) || !f.lengths
  boolBit (!f.fcs) + 2 * boolBit long + 4 * boolBit (!f.ipSum) + 8 * boolBit (!f.udpSum) + 32 * boolBit f.full +
    64 * boolBit (!f.symbols)

/-- A PTP message (R41, R42): it is stamped at the reference plane, and the servo of the port's time base takes the
offset it completes. -/
def ptpReceive (m : Nat) (f : EthFrame) (p : PtpRx) (err : Nat) : Prog :=
  .read fun d =>
    let tb := d.fld (F.PORT_PTP_CTRL_tb m)
    seq [
      emit (.fwFrame m true ((f.stamp / 189 : Nat) - (d.fld (F.PORT_RX_LAT m) : Nat) : Int).toNat err),
      doIf (decide (1 ≤ tb) && decide (tb ≤ 4) && err == 0) (
        match p.offset with
        | some (o, trim) => servoOffset (Fin.ofNat 4 (tb - 1)) o trim
        | none => .nop)]

/-- Any other frame goes to firmware's exception queue, 20,000 a second at most (R321). -/
def exceptionFrame (m : Nat) (f : EthFrame) (err : Nat) : Prog :=
  .read fun d =>
    let k := d.macm m
    let fresh := decide (k.excFrom + secU ≤ d.x.time.clk) || k.excCount == 0
    if fresh then seq [macUpd m fun k => { k with excFrom := d.x.time.clk, excCount := 1 },
      emit (.fwFrame m false (f.stamp / 189) err)]
    else if k.excCount < 20000 then seq [macUpd m fun k => { k with excCount := k.excCount + 1 },
      emit (.fwFrame m false (f.stamp / 189) err)]
    else inc (R.MAC_CNT_RX_NOMATCH m)

/-- A frame arrives at a MAC (R321, R322). -/
def macReceive (m : Nat) (f : EthFrame) : Prog :=
  doWhen (fun d => d.macUp m) (.read fun d =>
    let err := d.errorWord m f
    seq [
      inc (R.MAC_CNT_RX_FRAMES m),
      addCnt (R.MAC_CNT_FEC_CORR m) f.fecCorr, addCnt (R.MAC_CNT_FEC_UNCORR m) f.fecUncorr,
      doIf (decide (0 < f.fecUncorr)) (raise (F.MAC_ALARM_fec_uncorr m)),
      doIf f.full (seq [inc (R.MAC_CNT_RX_FULL m), raise (F.MAC_ALARM_rx_full m)]),
      if !d.flag (F.MAC_CTRL_deliver_bad m) && err &&& 0x43 ≠ 0 then
        (if err &&& 0x41 ≠ 0 then inc (R.MAC_CNT_RX_FCS m) else inc (R.MAC_CNT_RX_LEN m))
      else if !d.macTakes m f.dest then inc (R.MAC_CNT_RX_NOMATCH m)
      else match (if m < 96 then d.flowMatch m f else none), f.body with
        | some (q, g), .rtp p => rxPacket q g p f.stamp err
        | some (q, _), _ => doWhen (fun d => d.on (flowRxFn q))
            (seq [inc (R.FLOW_RX_CNT_ERR q), raise (F.FLOW_RX_ALARM_pkt_err q)])
        | none, .ptp p => ptpReceive m f p err
        | none, _ => exceptionFrame m f err])

/-! ### Gates (R340 to R342) -/

/-- The entries of a list as (start, end, open classes), cut at the cycle's end; the last extends to it. -/
def gateSpans (cycle : Nat) : List Nat → Nat → List (Nat × Nat × Nat)
  | [], _ => []
  | [e], at_ => if at_ < cycle then [(at_, cycle, bitsOf e 24 8)] else []
  | e :: r, at_ =>
    if at_ < cycle then
      let stop := min cycle (at_ + bitsOf e 0 24 * nsU)
      (at_, stop, bitsOf e 24 8) :: gateSpans cycle r stop
    else []

/-- How long a class stays open from an instant of the cycle: none while it is closed, and without end where it never
closes. -/
def gateRoom (l : GateList) (o cls : Nat) : Option (Option Nat) :=
  let spans := gateSpans l.cycle l.entries 0
  let later := spans.filterMap fun e => if o < e.2.1 then some (max o e.1 - o, e.2.1 - o, e.2.2) else none
  let again := spans.map fun e => (e.1 + l.cycle - o, e.2.1 + l.cycle - o, e.2.2)
  match (later ++ again).find? fun e => !bitOf e.2.2 cls with
  | none => some none
  | some (t, _, _) => if t = 0 then none else some (some t)

/-- The scale a MAC's gates run on. -/
def Dev.gateScale (d : Dev) (m : Nat) : Nat := d.scale (min 4 (d.fld (F.MAC_GATE_CTRL_scale m)))

/-- The instant of the cycle in force. -/
def Dev.gateNow (d : Dev) (m : Nat) (l : GateList) : Nat :=
  (((d.gateScale m : Int) - l.base) % (max 1 l.cycle : Nat)).toNat

/-- A frame's time on the wire with its preamble. -/
def Dev.wireTime (d : Dev) (m length : Nat) : Nat := (length + 8) * 8 * secU / speedBps (d.fld (F.MAC_CTRL_speed m))

/-- A frame may start: its gate is open and stays open until it completes (R341). -/
def Dev.gateOpen (d : Dev) (m : Nat) (f : TxFrame) : Bool :=
  match (if d.flag (F.MAC_GATE_CTRL_enable m) then (d.macm m).gate else none) with
  | none => true
  | some l =>
    match gateRoom l (d.gateNow m l) f.tc with
    | none => false
    | some none => true
    | some (some t) => decide (d.wireTime m f.length ≤ t)

/-- MAC_STATUS.gates_active follows MAC_GATE_CTRL. -/
def gateStatus (m : Nat) : Prog :=
  .read fun d => setB (F.MAC_STATUS_gates_active m) (d.on (macFn m) && d.flag (F.MAC_GATE_CTRL_enable m))

/-- A write of 1 to MAC_GATE_CMD.apply (R342): the list waits with its base and cycle, replacing one that waits. -/
def gateApply (m : Nat) : Prog :=
  .read fun d =>
    let n := clampN 1 256 (d.fld (F.MAC_GATE_CTRL_len m))
    let base := (d.rd (R.MAC_GATE_BASE_SEC_LO m) + d.rd (R.MAC_GATE_BASE_SEC_HI m) * 2 ^ 32) * secU +
      d.rd (R.MAC_GATE_BASE_NS m) * nsU
    seq [
      macUpd m fun k => { k with pend := some {
        base := base, cycle := d.rd (R.MAC_GATE_CYCLE m) * nsU
        entries := (List.range n).map fun e => d.rd (R.MAC_GCL_ADMIN m e) } },
      setF (F.MAC_GATE_STATUS_pending m) 1]

/-- The entry that runs now. -/
def gateEntry (m : Nat) : Prog :=
  .read fun d =>
    match (d.macm m).gate with
    | none => .nop
    | some l =>
      let o := d.gateNow m l
      let i := ((gateSpans l.cycle l.entries 0).findIdx? fun e => decide (e.1 ≤ o) && decide (o < e.2.1)).getD 0
      setF (F.MAC_GATE_STATUS_current m) i

/-- The waiting list is installed (R342). -/
def gateInstall (m : Nat) : Prog :=
  .read fun d =>
    match (d.macm m).pend with
    | none => .nop
    | some l => seq [
        macUpd m fun k => { k with gate := some l, pend := none },
        each l.entries.zipIdx fun e => wr (R.MAC_GCL_OPER m e.2) e.1,
        setF (F.MAC_GATE_STATUS_oper_len m) l.entries.length, setF (F.MAC_GATE_STATUS_pending m) 0,
        gateEntry m]

/-! ### Launch (R337, R338, R341, R343) -/

/-- The context and leg of a frame; a firmware frame comes after every context. -/
def TxFrame.place (f : TxFrame) : Nat × Nat := match f.body with | .media q g _ _ => (q, g) | .ptp _ _ => (8192, 0)

/-- A frame goes before another (R337). -/
def TxFrame.before (a b : TxFrame) : Bool :=
  if a.slot ≠ b.slot then decide (a.slot < b.slot)
  else if a.tc ≠ b.tc then decide (b.tc < a.tc)
  else if a.place.1 ≠ b.place.1 then decide (a.place.1 < b.place.1)
  else decide (a.place.2 < b.place.2)

/-- The first of the frames in the order of R337; equals keep the order they were queued in. -/
def firstFrame : List TxFrame → Option TxFrame
  | [] => none
  | f :: r => match firstFrame r with | some g => if g.before f then some g else some f | none => some f

/-- A drop of a context's packet is counted (R338). -/
def lateCount (m : Nat) (f : TxFrame) : Prog :=
  seq [inc (R.MAC_CNT_TX_LATE m), raise (F.MAC_ALARM_tx_late m),
    match f.body with
    | .media q _ _ _ => seq [inc (R.FLOW_TX_CNT_LATE q), raise (F.FLOW_TX_ALARM_late q)]
    | .ptp _ _ => .nop]

/-- A frame's late window has passed, or its slot has come on a port whose link is down (R338). -/
def Dev.frameLate (d : Dev) (m : Nat) (f : TxFrame) : Bool :=
  match f.late with
  | some w => decide (f.slot + w ≤ d.x.time.clk) || (!d.macUp m && decide (f.slot ≤ d.x.time.clk))
  | none => !d.macUp m && decide (f.slot ≤ d.x.time.clk)

/-- Late frames of a port are dropped. -/
def txLate (m : Nat) : Prog :=
  .read fun d =>
    let l := (d.macm m).queue.filter (d.frameLate m)
    seq [macUpd m fun k => { k with queue := k.queue.filter fun f => !d.frameLate m f }, each l (lateCount m)]

/-- The packets of muted contexts whose slot has come are not sent (R333, R411). -/
def txMuted (m : Nat) : Prog :=
  .read fun d => macUpd m fun k => { k with queue := k.queue.filter fun f =>
    match f.body with
    | .media q _ _ _ => !(d.flowMuted q && decide (f.slot ≤ d.x.time.clk))
    | .ptp _ _ => true }

/-- A frame that runs out of data on the wire (R343). -/
def txUnderrun (m : Nat) (f : TxFrame) : Prog :=
  .read fun d => seq [
    inc (R.MAC_CNT_TX_UNDERRUN m), raise (F.MAC_ALARM_tx_underrun m),
    match f.body with | .media q _ _ _ => raise (F.FLOW_TX_ALARM_underrun q) | .ptp _ _ => .nop,
    wr (R.MAC_TX_THRESH m) (min (2 * d.rd (R.MAC_TX_THRESH m)) (clampN 64 9216 (d.rd (R.MAC_MAX_FRAME m))))]

/-- A free MAC starts the eligible frame with the earliest slot (R337): one-step insertion writes its egress time as it
leaves (R43). -/
def txLaunch (m : Nat) (under : Bool) : Prog :=
  doWhen (fun d => d.on (macFn m)) (seq [
    txMuted m,
    doWhen (fun d => d.macUp m && (d.macm m).sending.isNone) (.read fun d =>
      let ready := (d.macm m).queue.filter fun f =>
        decide (f.slot ≤ (d.x.time.clk : Int)) && (match f.late with | some w => decide ((d.x.time.clk : Int) ≤ f.slot + w) | none => true) &&
          d.gateOpen m f
      match firstFrame ready with
      | none => .nop
      | some f =>
        let lat := d.fld (F.PORT_TX_LAT m) * 189
        let egress := d.x.time.ht + lat
        let tb := d.fld (F.PORT_PTP_CTRL_tb m)
        let g := match f.body with
          | .ptp k (some _) => { f with body := .ptp k (some ((d.scale tb + lat) / 189)) }
          | _ => f
        seq [
          macUpd m fun k => { k with queue := k.queue.erase f, sending := some (g, egress) },
          emit (.ethFrame m g under (egress / 189)),
          doIf under (txUnderrun m g)]),
    txLate m])

/-- A frame without a late window that has waited 1 s for its gate is dropped (R341). -/
def gateDrop (m : Nat) : Prog :=
  .read fun d =>
    let old := fun (f : TxFrame) => f.late.isNone && decide (f.slot + secU ≤ d.x.time.clk)
    match (d.macm m).queue.find? old with
    | some f => macUpd m fun k => { k with queue := k.queue.erase f }
    | none => .nop

/-! ### PTP frames and timestamp reports (R41, R43, R344, R345) -/

/-- The registers of the report queue follow it (R350). -/
def tsqSync : Prog :=
  .read fun d => seq [
    setF F.MAC_TSQ_STATUS_entries d.x.tsq.entries.length, setB F.MAC_TSQ_STATUS_overflow d.x.tsq.lost.isSome,
    each (List.range 4) fun w => wr (R.MAC_TSQ_E w) ((d.x.tsq.entries.headD []).getD w 0)]

/-- A report is pushed, or dropped while the queue is full or a GAP is owed (R344, R345). -/
def tsqPush (port tag sixteenth : Nat) : Prog :=
  .read fun d =>
    let q := d.x.tsq
    if 512 ≤ q.entries.length then seq [
      ext fun x => { x with tsq := { q with lost := some ((q.lost.map (·.1)).getD tag, tag) } },
      inc R.MAC_CNT_TSQ_DROP, tsqSync]
    else
      let ns := sixteenth / 16
      let s := ns / 1000000000
      seq [
        ext fun x => { x with tsq := { q with entries := q.entries ++ [
          [port * 2 ^ 16 + tag, ns % 1000000000, s % 2 ^ 32, sixteenth % 16 * 2 ^ 28 + s / 2 ^ 32 % 2 ^ 16]] } },
        tsqSync]

/-- The head report is popped; a GAP that is owed takes the entry that becomes free (R345). -/
def tsqPop : Prog :=
  .read fun d =>
    let q := d.x.tsq
    doIf (!q.entries.isEmpty) (seq [
      ext fun x => { x with tsq := {
        entries := q.entries.drop 1 ++ (match q.lost with | some (a, b) => [[2 ^ 30 + a, b, 0, 0]] | none => [])
        lost := none } },
      tsqSync])

/-- The bytes of a PTP message in a UDP and IPv4 frame. -/
def ptpLength : PtpTx → Nat
  | .sync | .delayReq => 90
  | .announce => 110
  | .pdelayReq | .pdelayResp => 100

/-- Firmware's stack sends a PTP message on a port that serves a time base (R41, R43, R344). -/
def ptpSend (m : Nat) (k : PtpTx) : Prog :=
  doWhen (fun d => d.on (macFn m)) (.read fun d =>
    let tb := d.fld (F.PORT_PTP_CTRL_tb m)
    let one := decide (1 ≤ tb) && d.flag (F.TB_CTRL_one_step (tb - 1)) && (k == .sync || k == .pdelayResp)
    let tag := d.rd R.MAC_TSQ_NEXT_TAG
    let two := !one && k ≠ .announce
    doIf (decide (1 ≤ tb) && decide (tb ≤ 4)) (seq [
      macUpd m fun q => { q with queue := q.queue ++ [
        { body := .ptp k (if one then some 0 else none), tc := d.fld (F.MAC_TC_ptp m), slot := d.x.time.clk
          length := ptpLength k, tag := if two then some tag else none }] },
      doIf two (wr R.MAC_TSQ_NEXT_TAG ((tag + 1) % 2 ^ 16))]))

/-- The frame on the wire is complete (R337, R344). -/
def txComplete (m : Nat) : Prog :=
  .read fun d =>
    match (d.macm m).sending with
    | none => .nop
    | some (f, egress) => seq [
        macUpd m fun k => { k with sending := none },
        inc (R.MAC_CNT_TX_FRAMES m),
        match f.tag with | some t => tsqPush m t (egress / 189) | none => .nop]

/-! ### Checks of a transmit context (R330, R334 to R336, R339, R352) -/

/-- The wire bytes a second of a leg's demand, with preamble and gap (R339). -/
def Dev.legDemand (d : Dev) (q g : Nat) : Nat :=
  let wire := fun (payload : Nat) => d.legLength q g payload + 20
  match d.fld (F.FLOW_TX_CTRL_kind q) with
  | 0 =>
    match d.flowDest q with
    | some n =>
      let f := d.dstPlan n
      let pk := d.destPack n q f
      let fields := if fmtFielded f then 2 else 1
      wire (8 + pk.each * pk.octets) * slotCount f pk * fields * secU / max 1 (fmtPeriod f)
    | none => 0
  | 1 =>
    let fast := d.flag (F.ATX_DESC_ptime q)
    let size := if fast then d.audN / 8 else d.audN
    let bytes := d.fld (F.ATX_DESC_count q) * size * (match d.fld (F.ATX_DESC_encoding q) with | 0 => 3 | 1 => 2 | _ => 4)
    if d.flag (F.ATX_DESC_enable q) then wire bytes * (if fast then 8000 else 1000) else 0
  | 2 =>
    let f := d.dstPlan (d.fld (F.FLOW_TX_CTRL_dest q))
    wire (8 + d.fld (F.FLOW_TX_PKT_payload q)) * secU / max 1 (fmtPeriod f)
  | _ => 0

/-- The enabled transmit legs: context and leg. -/
def Dev.txLegs (d : Dev) : List (Nat × Nat) :=
  d.regs.filterMap fun e =>
    if e.1.kind = .FLOW_TX_LEG ∧ d.flag (F.FLOW_TX_LEG_leg_en e.1.i e.1.j) then some (e.1.i, e.1.j) else none

/-- A port's media demand exceeds 0.90 of its rate (R339). -/
def Dev.portOver (d : Dev) (m : Nat) : Bool :=
  let bytes := ((d.txLegs.filter fun e => d.fld (F.FLOW_TX_LEG_port e.1 e.2) == m).map fun e => d.legDemand e.1 e.2).sum
  decide (9 * speedBps (d.fld (F.MAC_CTRL_speed m)) < bytes * 8 * 10)

/-- A pacing that no destination can keep (R334 to R336). -/
def Dev.badPacing (d : Dev) (q : Nat) : Bool :=
  let legs := [0, 1].filter fun g => d.flag (F.FLOW_TX_LEG_leg_en q g)
  let tro := d.rd (R.FLOW_TX_TRO q) * nsU
  let payload := d.fld (F.FLOW_TX_PKT_payload q)
  match d.fld (F.FLOW_TX_CTRL_kind q) with
  | 0 =>
    decide (payload < 180) || decide (8960 < payload) ||
    (legs.any fun g => decide (
      d.maxFrame (d.fld (F.FLOW_TX_LEG_port q g)) (boolBit (d.flag (F.FLOW_TX_LEG_vlan_en q g))) <
        d.legLength q g (8 + payload))) ||
    (match d.flowDest q with
      | some n =>
        let f := d.dstPlan n
        let t := slotPeriod f
        decide (tro < 2 * fmtLine f) ||
          decide (t * (fmtTotalLines f - fmtLines f) / fmtTotalLines f + fmtLine f < tro)
      | none => false)
  | 2 =>
    let f := d.dstPlan (d.fld (F.FLOW_TX_CTRL_dest q))
    decide (tro < (switchTable f).1 * fmtLine f)
  | _ => false

/-- Why a transmit context's configuration is refused. -/
def Dev.flowTxRefused (d : Dev) (q : Nat) : Option Nat :=
  let legs := [0, 1].filter fun g => d.flag (F.FLOW_TX_LEG_leg_en q g)
  if legs.any fun g => !d.addrValid (d.fld (F.FLOW_TX_ADDR_dst q g)) then some Reason.badFlow
  else if d.badPacing q then some Reason.badPacing
  else if 1024 < d.opaqueTx.length then some Reason.opaqueLimit
  else if (d.txPorts q).any d.portOver then some Reason.linkCapacity
  else none

/-- FLOW_TX_STATUS.bound, owner_kind and owner (R351). -/
def Dev.flowOwner (d : Dev) (q : Nat) : Nat :=
  match d.fld (F.FLOW_TX_CTRL_kind q) with
  | 1 => if d.flag (F.ATX_DESC_enable q) then 2 ^ 31 + 2 ^ 29 + d.fld (F.ATX_FIRST_first q) % 2 ^ 15 * 2 ^ 14 else 0
  | 2 => 2 ^ 31 + d.fld (F.FLOW_TX_CTRL_dest q) * 2 ^ 14
  | k =>
    match d.flowDest q with
    | some n => 2 ^ 31 + (if k = 3 then 2 ^ 30 else 0) + n * 2 ^ 14
    | none => 0

/-! ### Meanings -/

/-- MAC_FRAME_RX (R321). -/
def execMacFrameRx (m : MacId) (f : EthFrame) (s : State) : Host.Outcome State Fault Refusal :=
  perform .core (macReceive m f) s

/-- FLOW_SEQ_RELEASE (R328). -/
def execFlowSeqRelease (q : FlowId) (seq_ : Nat) (s : State) : Host.Outcome State Fault Refusal :=
  perform .core (rxSeqRelease q seq_) s

/-- FLOW_LEG_LOST (R329). -/
def execFlowLegLost (q : FlowId) (leg : Fin 2) (s : State) : Host.Outcome State Fault Refusal :=
  perform .core (rxLegLost q leg) s

/-- MAC_LINK_CHANGE (R320). -/
def execMacLinkChange (m : MacId) (k : MacLink) (s : State) : Host.Outcome State Fault Refusal :=
  perform .core (macLink m k) s

/-- TX_LAUNCH_SLOT (R337); `under` says that the frame's data does not arrive in time (R343). -/
def execTxLaunchSlot (m : MacId) (under : Bool) (s : State) : Host.Outcome State Fault Refusal :=
  perform .core (txLaunch m under) s

/-- TX_LATE_DROP (R338). -/
def execTxLateDrop (m : MacId) (s : State) : Host.Outcome State Fault Refusal :=
  perform .core (doWhen (fun d => d.on (macFn m)) (txLate m)) s

/-- GATE_WAIT_DROP (R341). -/
def execGateWaitDrop (m : MacId) (s : State) : Host.Outcome State Fault Refusal :=
  perform .core (doWhen (fun d => d.on (macFn m)) (gateDrop m)) s

/-- MAC_TX_COMPLETE (R337, R344). -/
def execMacTxComplete (m : MacId) (s : State) : Host.Outcome State Fault Refusal := perform .core (txComplete m) s

/-- GATE_ENTRY_CHANGE (R340). -/
def execGateEntryChange (m : MacId) (s : State) : Host.Outcome State Fault Refusal :=
  perform .core (doWhen (fun d => d.flag (F.MAC_GATE_CTRL_enable m)) (gateEntry m)) s

/-- MAC_GATE_APPLY (R342, R349): a host write is dropped and logged. -/
def execMacGateApply (m : MacId) (who : Writer) (s : State) : Host.Outcome State Fault Refusal :=
  perform .core (match who with
    | .firmware => gateApply m
    | .host => aflPush 0 .fwOwned 15 0 (R.MAC_GATE_CMD m).addr 1) s

/-- GATE_LIST_INSTALL (R342). -/
def execGateListInstall (m : MacId) (s : State) : Host.Outcome State Fault Refusal := perform .core (gateInstall m) s

/-- MAC_TSQ_POP (R345, R350): a host write is dropped and logged. -/
def execMacTsqPop (who : Writer) (s : State) : Host.Outcome State Fault Refusal :=
  perform .core (match who with
    | .firmware => tsqPop
    | .host => aflPush 0 .fwPop 15 0 R.MAC_TSQ_POP.addr 1) s

/-- What a write of 1 to MAC_CNT_CLEAR clears (R349). -/
def macCntClear (m : MacId) : Prog :=
  clearRegs [R.MAC_CNT_RX_FRAMES m, R.MAC_CNT_RX_FCS m, R.MAC_CNT_RX_LEN m, R.MAC_CNT_RX_NOMATCH m,
  R.MAC_CNT_RX_FULL m, R.MAC_CNT_TX_FRAMES m, R.MAC_CNT_TX_UNDERRUN m, R.MAC_CNT_TX_LATE m, R.MAC_CNT_FEC_CORR m,
  R.MAC_CNT_FEC_UNCORR m]

/-- MAC_CNT_CLEAR (R349). -/
def execMacCntClear (m : MacId) (s : State) : Host.Outcome State Fault Refusal := perform .core (macCntClear m) s

/-- What a write of 1 to MAC_TSQ_CNT_CLEAR clears (R350). -/
def macTsqCntClear : Prog :=
  clearRegs [R.MAC_CNT_TSQ_DROP]

/-- MAC_TSQ_CNT_CLEAR (R350). -/
def execMacTsqCntClear (s : State) : Host.Outcome State Fault Refusal := perform .core macTsqCntClear s

/-- What a write of 1 to FLOW_CNT_CLEAR clears (R351). -/
def flowCntClear (tx : Bool) (q : FlowId) : Prog :=
  clearRegs (if tx then [R.FLOW_TX_CNT_PKTS q, R.FLOW_TX_CNT_LATE q] else [R.FLOW_RX_CNT_PKTS q,
  R.FLOW_RX_CNT_LOST q, R.FLOW_RX_CNT_ERR q, R.FLOW_RX_CNT_LATE q, R.FLOW_RX_CNT_DUP q])

/-- FLOW_CNT_CLEAR (R351). -/
def execFlowCntClear (tx : Bool) (q : FlowId) (s : State) : Host.Outcome State Fault Refusal := perform .core (flowCntClear tx q) s

/-- PTP_MESSAGE_TX (R41). -/
def execPtpMessageTx (m : MacId) (k : PtpTx) (s : State) : Host.Outcome State Fault Refusal := perform .core (ptpSend m k) s

/-- HLK_OPAQUE_SEGMENT_RX (R269): the packet reaches the opaque receive context bound to the flow. -/
def execHlkOpaqueSegmentRx (l : LaneId) (g : Segment) (s : State) : Host.Outcome State Fault Refusal :=
  perform .core (
    let n := leAt g.data 8 2
    hlkSegment l g 4 (decide (12 ≤ n) && decide (n ≤ 9000) && g.data.length == 8 * ceilDiv (20 + n) 8) .nop
      (.read fun d => match KV.get none d.x.opqRx (64 * l + g.flow % 64) with
        | some q => rxPacket q 0 (rtpParse ((g.data.drop 16).take n)) (linkRestore d.x.time.ht (leAt g.data 0 8)) 0
        | none => .nop)) s

end Sys2Proof.Machine
end

