-- ==== Sys2Proof/Machine/Sap.lean ====
section
/-!
DEFINITION. Serial audio ports (R230 to R244): framing, qualification, masks, elastic buffer, transmit slots, AUDIO_SAP.
-/

namespace Sys2Proof.Machine

/-- What a port holds. -/
def Dev.sapm (d : Dev) (p : Nat) : SapMem := KV.get {} d.x.sap p

/-- Changes what a port holds. -/
def sapUpd (p : Nat) (f : SapMem → SapMem) : Prog := ext fun x => { x with sap := KV.upd {} x.sap p f }

/-- A port as a function. -/
def sapFn (p : Nat) : Fn := .sap (Fin.ofNat 16 p)

/-- The clock states (R237): 0 NO_CLOCK, 1 QUALIFYING, 2 RUNNING. -/
def Dev.sapState (d : Dev) (p : Nat) : Nat := d.fld (F.SAP_CLK_STATE_cstate p)

/-- The slots of a frame (R231): 2 in I2S and left-justified framing. -/
def sapSlots (ctrl frame : Nat) : Nat := if bitsOf ctrl 8 2 = 2 then bitsOf frame 16 6 else 2

/-- The BCLKs of a slot (R232). -/
def slotWidth (frame : Nat) : Nat := match bitsOf frame 8 2 with | 0 => 16 | 1 => 24 | _ => 32

/-- The word length (R232). -/
def wordLen (frame : Nat) : Nat := match bitsOf frame 4 2 with | 0 => 16 | 1 => 20 | _ => 24

/-- The BCLKs of a frame (R232). -/
def sapSize (ctrl frame : Nat) : Nat := sapSlots ctrl frame * slotWidth frame

/-- The frame rate of a rate code: 1 48 kHz, 2 96 kHz. -/
def sapRate (r : Nat) : Nat := if r = 2 then 96000 else 48000

/-- The matrix rate as a rate code. -/
def Dev.audRateCode (d : Dev) : Nat := if d.aud96 then 2 else 1

/-- A period lies within ±tol of a rate's nominal period (R236). -/
def Dev.sapNear (d : Dev) (p r period : Nat) : Bool :=
  decide (((period * sapRate r : Int) - secU).natAbs * 1000 ≤ clampN 1 50 (d.fld (F.SAP_QUAL_tol p)) * secU)

/-- The allowed rate a period matches (R236). -/
def Dev.sapMatch (d : Dev) (p period : Nat) : Option Nat :=
  [1, 2].find? fun r => bitOf (d.fld (F.SAP_CTRL_allowed p)) (r - 1) && d.sapNear p r period

/-- The frame's BCLK count is that of R232. -/
def Dev.sapCount (d : Dev) (p : Nat) (f : SapFrameIn) : Bool := f.bclks == sapSize (d.rd (R.SAP_CTRL p)) (d.rd (R.SAP_FRAME p))

/-- The received inputs of a port: bound to a slot its mask in force enables. -/
def Dev.sapInputs (d : Dev) (p : Nat) : List Nat :=
  ((d.audBoundTo 4 p).filter fun e => bitOf (d.sapm p).rxMask e.2).map (·.1)

/-- A port leaves RUNNING or QUALIFYING: what it holds is dropped, and its received inputs are LOST if data was released
(R237, R239). -/
def sapDrop (p st : Nat) : Prog :=
  .read fun d => seq [
    doIf (d.sapState p == 2) (each (d.sapInputs p) fun i => audLose i true),
    setF (F.SAP_CLK_STATE_cstate p) st, setF (F.SAP_CLK_STATE_bad_run p) 0,
    setF (F.SAP_STATUS_data_released p) 0, wr (R.SAP_QUAL_COUNT p) 0, setF (F.SAP_BUF_FILL p) 0,
    sapUpd p fun m => { m with prev := [], tx := [], ramps := [], acc := 0, half := [], points := [], ratio := 2 ^ 32
                               pcount := 0, psum := 0, frames := 0, slips := 0 },
    ext fun x => { x with aud := { x.aud with sapChans := x.aud.sapChans.filter fun e => e.1 / 32 ≠ p } },
    asrcCount]

/-- A port goes to NO_CLOCK without an alarm (R237, R240). -/
def sapNoClock (p : Nat) : Prog := seq [sapDrop p 0, setF (F.SAP_CLK_STATE_rate p) 0]

/-- The sample of a received word (R233): its word length's top bits, left-justified in 24 bits. -/
def sapWord (len w : Nat) : Int := signedOf 24 (bitsOf w (32 - len) len * 2 ^ (24 - len))

/-- A port's samples at the matrix rate (R234): the fixed conversion by two where its rate is not the matrix rate. It
gives the new samples and what the conversion holds. -/
def sapConvert (from_ to_ : Nat) (held : List Int) (x : Int) : List Int × List Int :=
  let w := (x :: held).take 32
  if from_ = to_ then ([x], [])
  else if from_ < to_ then ([clip24 (Config.halfBand true w), clip24 (Config.halfBand true (x :: w))], w)
  else if held.length % 2 = 0 then ([], w) else ([clip24 (Config.halfBand false w)], w.drop 1)

/-- A frame's samples reach the matrix (R233, R237). -/
def sapDeliver (p : Nat) (xs : List Int) : Prog :=
  .read fun d => seq [
    sapUpd p fun m => { m with prev := xs, frames := m.frames + 1 },
    doIf (d.flag (F.SAP_CTRL_rx_en p)) (each ((List.range xs.length).filter fun s => bitOf (d.sapm p).rxMask s) fun s =>
      let (ys, held) := sapConvert (d.fld (F.SAP_CLK_STATE_rate p)) d.audRateCode (KV.get [] (d.sapm p).half s) (xs.getD s 0)
      seq [sapUpd p fun m => { m with half := KV.set [] m.half s held }, audDeliver 4 p s d.x.time.ht ys false true])]

/-- The weight of a transmit slot's ramp (R238, R239): enabled slots run at 32,768 once ramped. -/
def SapMem.weight (m : SapMem) (s : Nat) : Nat :=
  match KV.get none m.ramps s with
  | some (a, b, n) => ((a : Int) + ((b : Int) - a) * rcWeight n 64 / 32768).toNat
  | none => if bitOf m.txMask s then 32768 else 0

/-- A transmit word (R233): rounded to the word length with halves up, clipped, followed by zeros. -/
def sapOutWord (len width : Nat) (x : Int) : Nat :=
  let r := clampI (-(2 ^ (len - 1))) (2 ^ (len - 1) - 1) ((x + 2 ^ (24 - len) / 2) / 2 ^ (24 - len))
  codeOf len r * 2 ^ (width - len)

/-- The transmit slots of the next frame (R233, R234, R238, R239). -/
def sapTransmit (p : Nat) : Prog :=
  .read fun d =>
    let m := d.sapm p
    let frame := d.rd (R.SAP_FRAME p)
    let run := d.sapState p == 2 && d.flag (F.SAP_CTRL_tx_en p)
    let fast := d.fld (F.SAP_CTRL_mode p) == 1
    let conv := d.fld (F.SAP_CLK_STATE_rate p)
    let step := if fast then 2 ^ 64 / max 1 m.ratio * sapRate d.audRateCode / sapRate conv else 2 ^ 32
    let one : Nat → Option Nat := fun s =>
      let on := run && (bitOf m.txMask s || (KV.get none m.ramps s).isSome)
      if on then
        let q := KV.get [] m.tx s
        let raw : Int :=
          if conv ≠ d.audRateCode ∧ fast then clip24 (Config.halfBand (decide (d.audRateCode < conv)) (q.take 32))
          else if fast && (KV.get none d.x.aud.sapChans (p * 32 + s)).isSome then
            clip24 (Config.asrcSample (2 ^ 64 / max 1 m.ratio) (m.acc % 2 ^ 32) (q.take 64))
          else q.headD 0
        some (sapOutWord (wordLen frame) (slotWidth frame) ((raw * m.weight s + 16384) / 32768))
      else if d.flag (F.SAP_CTRL_tx_idle p) then none else some 0
    let used := (m.acc + step) / 2 ^ 32
    seq [
      emit (.sapOut p ((List.range (sapSlots (d.rd (R.SAP_CTRL p)) frame)).map one)),
      doIf run (sapUpd p fun m => { m with
        acc := (m.acc + step) % 2 ^ 32
        tx := m.tx.map fun e => (e.1, e.2.drop used)
        ramps := m.ramps.filterMap fun e => match e.2 with
          | some (a, b, n) => if n + 1 < 64 then some (e.1, some (a, b, n + 1)) else none
          | none => none })]

/-- Written masks take effect at a frame edge (R239, R240). -/
def sapMasks (p : Nat) : Prog :=
  .read fun d =>
    let m := d.sapm p
    let slots := sapSlots (d.rd (R.SAP_CTRL p)) (d.rd (R.SAP_FRAME p))
    let rx := d.rd (R.SAP_RX_MASK p) % 2 ^ slots
    let tx := d.rd (R.SAP_TX_MASK p) % 2 ^ slots
    let run := d.sapState p == 2
    seq [
      doIf run (each ((d.audBoundTo 4 p).filter fun e => bitOf m.rxMask e.2 && !bitOf rx e.2) fun e => audLose e.1 false),
      sapUpd p fun m => { m with
        rxMask := rx, txMask := tx
        ramps := if run then (List.range 32).foldl (fun r s =>
          if bitOf tx s && !bitOf m.txMask s then KV.set none r s (some (m.weight s, 32768, 0))
          else if !bitOf tx s && bitOf m.txMask s then KV.set none r s (some (m.weight s, 0, 0)) else r) m.ramps
          else m.ramps }]

/-- SAP_FREQ: the mean frame-rate offset over one second of frames, in 0.001 ppm. -/
def sapFreq (p period : Nat) : Prog :=
  .read fun d =>
    let m := d.sapm p
    let rate := sapRate (d.fld (F.SAP_CLK_STATE_rate p))
    let n := m.pcount + 1
    let sum := m.psum + period
    if rate ≤ n ∧ 0 < sum then
      seq [wr (R.SAP_FREQ p) (satCode 32 ((n * secU * 1000000000 / (rate * sum) : Nat) - (1000000000 : Int))),
        sapUpd p fun m => { m with pcount := 0, psum := 0 }]
    else sapUpd p fun m => { m with pcount := n, psum := sum }

/-- The fill of a LOCKED port's elastic buffer (R235): 8 frames at the release, then frames received less house samples
passed, less the slips made. -/
def Dev.sapFill (d : Dev) (p : Nat) : Int :=
  let m := d.sapm p
  8 + (m.frames : Int) - ((d.x.time.ht - m.released) * sapRate d.audRateCode / secU : Nat) + m.slips

/-- SAP_BUF_FILL follows the buffer. -/
def sapFillShow (p : Nat) : Prog :=
  .read fun d => doIf (d.sapState p == 2 && !d.flag (F.SAP_CTRL_mode p)) (setF (F.SAP_BUF_FILL p) (clampI 0 16 (d.sapFill p)).toNat)

/-- A frame ends (R236, R237, R239, R240). -/
def sapFrame (p : Nat) (f : SapFrameIn) : Prog :=
  .read fun d =>
    let xs := (List.range (sapSlots (d.rd (R.SAP_CTRL p)) (d.rd (R.SAP_FRAME p)))).map fun s =>
      sapWord (wordLen (d.rd (R.SAP_FRAME p))) (f.words.getD s 0)
    let count := d.sapCount p f
    let unsupported := seq [setF (F.SAP_STATUS_rate_unsupported p) 1, raise (F.SAP_ALARM_rate_unsupported p)]
    let usable := match d.sapMatch p f.period with
      | some r => if d.flag (F.SAP_CTRL_mode p) ∨ r = d.audRateCode then some r else none
      | none => none
    seq [
      match d.sapState p with
      | 0 =>
        match usable with
        | none => unsupported
        | some r => doIf count (seq [
            setF (F.SAP_CLK_STATE_cstate p) 1, setF (F.SAP_CLK_STATE_rate p) r, wr (R.SAP_QUAL_COUNT p) 1,
            setF (F.SAP_STATUS_rate_unsupported p) 0])
      | 1 =>
        match usable with
        | some r =>
          if !count then wr (R.SAP_QUAL_COUNT p) 0
          else if r = d.fld (F.SAP_CLK_STATE_rate p) then wr (R.SAP_QUAL_COUNT p) (min 65535 (d.rd (R.SAP_QUAL_COUNT p) + 1))
          else seq [setF (F.SAP_CLK_STATE_rate p) r, wr (R.SAP_QUAL_COUNT p) 1]
        | none => seq [wr (R.SAP_QUAL_COUNT p) 0, doIf (d.sapMatch p f.period).isSome unsupported]
      | _ =>
        if count && d.sapNear p (d.fld (F.SAP_CLK_STATE_rate p)) f.period then
          seq [setF (F.SAP_CLK_STATE_bad_run p) 0, sapDeliver p xs, sapFreq p f.period]
        else
          let run := d.fld (F.SAP_CLK_STATE_bad_run p) + 1
          if run < 3 then seq [
            setF (F.SAP_CLK_STATE_bad_run p) run, raise (F.SAP_ALARM_frame_discard p), inc (R.SAP_CNT_DISCARD p),
            sapDeliver p (d.sapm p).prev]
          else seq [
            sapMasks p, sapDrop p 1, setF (F.SAP_STATUS_requal p) 1, raise (F.SAP_ALARM_requal p),
            inc (R.SAP_CNT_REQUAL p)],
      sapMasks p, sapFillShow p, sapTransmit p]

/-- The count of good frames that qualifies a port (R244). -/
def Dev.sapQualFrames (d : Dev) (p : Nat) : Nat := max 8 (d.fld (F.SAP_QUAL_qual_frames p))

/-- Data is released (R237, R238). -/
def sapRelease (p : Nat) : Prog :=
  .read fun d => seq [
    setF (F.SAP_CLK_STATE_cstate p) 2, setF (F.SAP_CLK_STATE_bad_run p) 0,
    setF (F.SAP_STATUS_data_released p) 1, setF (F.SAP_STATUS_clock_lost p) 0, setF (F.SAP_STATUS_requal p) 0,
    sapUpd p fun m => { m with
      released := d.x.time.ht, frames := 0, slips := 0, prev := [], half := [], acc := 0, ratio := 2 ^ 32, points := []
      tx := (List.range 32).filterMap fun s => if bitOf m.txMask s then some (s, List.replicate (d.audN + 8) 0) else none
      ramps := (List.range 32).filterMap fun s => if bitOf m.txMask s then some (s, some (0, 32768, 0)) else none },
    sapFillShow p]

/-- Before a block's inputs are computed: the inputs of RUNNING ports return, and LOCKED ports that have slipped drop or
repeat a frame (R235, R238). -/
def sapBlockIn (p : Nat) : Prog :=
  doWhen (fun d => d.on (sapFn p) && d.sapState p == 2) (.read fun d => seq [
    each ((d.sapInputs p).filter fun i => (d.ainState i == 5 || d.ainState i == 1) && !(d.ain i).q.isEmpty) fun i => seq [
      ainUpd i fun m => { m with q := List.replicate (d.audN + 8 - m.q.length) 0 ++ m.q },
      audReturn i],
    doIf (!d.flag (F.SAP_CTRL_mode p) && (decide (d.sapFill p ≤ 2) || decide (14 ≤ d.sapFill p))) (
      let more := decide (14 ≤ d.sapFill p)
      seq [
        sapUpd p fun m => { m with
          slips := m.slips + (if more then -1 else 1)
          tx := m.tx.map fun e => (e.1, if more then (e.2.headD 0) :: e.2 else fade16 e.2 (e.2.drop 1)) },
        each (d.sapInputs p) fun i => ainUpd i fun m => { m with
          q := if more then fade16 m.q (m.q.drop 1) else fade16 m.q (m.line.headD 0 :: m.q) },
        raise (F.SAP_ALARM_lock_slip p), inc (R.SAP_CNT_SLIP p), sapFillShow p])])

/-- After a block's outputs are computed: the transmit slots take their samples, and ASYNC ports take ASRC channels or
slip (R234). -/
def sapBlockOut (p : Nat) : Prog :=
  doWhen (fun d => d.on (sapFn p) && d.sapState p == 2) (.read fun d =>
    let fast := d.flag (F.SAP_CTRL_mode p)
    let slots := (List.range (sapSlots (d.rd (R.SAP_CTRL p)) (d.rd (R.SAP_FRAME p)))).filter fun s =>
      bitOf (d.sapm p).txMask s || (KV.get none (d.sapm p).ramps s).isSome
    let m := d.sapm p
    let pts := ((d.x.time.ht, m.frames) :: m.points).take 1001
    let target := d.audN + 8
    let timing : AudIn := { points := pts, ratio := m.ratio }
    let ratio := timing.estimate (sapRate (d.fld (F.SAP_CLK_STATE_rate p)))
    seq [
      sapUpd p fun m => { m with
        points := pts, ratio := ratio
        tx := slots.foldl (fun q k => KV.upd [] q k fun l => l ++ d.audOut (d.fld (F.SAP_TX_first_output p) + k)) m.tx },
      doIf fast (each slots fun s => .read fun e =>
        let has := (KV.get none e.x.aud.sapChans (p * 32 + s)).isSome
        let q := KV.get [] (e.sapm p).tx s
        let slip : Prog :=
          let q2 := if target + d.audN < q.length then fade16 q (q.drop 1) else fade16 q (q.headD 0 :: q)
          if target + d.audN < q.length ∨ q.length + 1 < target + d.audN - 1 then seq [
            sapUpd p fun m => { m with tx := KV.set [] m.tx s q2 },
            inc R.AUD_CNT_SLIP, raise F.AUD_ALARM_audio_slip]
          else .nop
        if !d.flag (F.SAP_CTRL_tx_asrc p) then slip
        else if has then .nop
        else match e.asrcFree with
          | some c => seq [audUpd fun a => { a with sapChans := KV.set none a.sapChans (p * 32 + s) (some c) }, asrcCount]
          | none => seq [slip, setF F.AUD_STATUS_asrc_exhausted 1, raise F.AUD_ALARM_asrc_exhausted])])

/-- A port's function leaves ON (R237): NO_CLOCK. -/
def sapStopped (p : Nat) : Prog := sapNoClock p

/-! ### AUDIO_SAP (R242) -/

/-- The limits of R231 and R232. -/
def framingOk (ctrl frame : Nat) : Bool :=
  decide (bitsOf ctrl 8 2 < 3) && decide (bitsOf frame 8 2 < 3) && decide (bitsOf frame 4 2 < 3) &&
  decide (wordLen frame ≤ slotWidth frame) &&
  (bitsOf ctrl 8 2 ≠ 2 || (decide (2 ≤ bitsOf frame 16 6) && decide (bitsOf frame 16 6 ≤ 32))) &&
  [1, 2].all fun r => !bitOf ctrl (23 + r) || decide (sapSize ctrl frame * sapRate r ≤ 24576000)

/-- The registers AUDIO_SAP writes with their values (R242): SAP_CTRL without enable, SAP_FRAME, the masks, SAP_TX and
SAP_QUAL. -/
def sapRegs (p : Nat) (v : List Nat) : List (Reg × Nat) :=
  [(R.SAP_FRAME p, v.getD 2 0), (R.SAP_RX_MASK p, v.getD 3 0), (R.SAP_TX_MASK p, v.getD 4 0),
    (R.SAP_TX p, v.getD 5 0), (R.SAP_QUAL p, v.getD 6 0)]

/-- AUDIO_SAP (R239, R240, R242). -/
def audioSapSpec (b : AudioSapBody) : CmdSpec where
  opcode := 0x0506
  ok := b.values.length == 7 && wordFits (R.SAP_CTRL 0, b.values.getD 0 0) && (sapRegs 0 b.values).all wordFits &&
    decide (1 ≤ bitsOf (b.values.getD 6 0) 16 8) && decide (bitsOf (b.values.getD 6 0) 16 8 ≤ 50)
  prog o :=
    let p := b.port
    let ctrl := b.values.getD 0 0
    let frame := b.values.getD 2 0
    checked o (fun d => firstOf [
        (decide (16 ≤ p), Reason.badPort),
        (!framingOk ctrl frame, Reason.badFraming),
        (decide (d.audCh < bitsOf (b.values.getD 5 0) 0 15 + sapSlots ctrl frame), Reason.badChannel)])
      (.read fun d =>
        let old := d.rd (R.SAP_CTRL p)
        let restart := bitsOf old 24 2 ≠ bitsOf ctrl 24 2 || bitsOf old 19 1 ≠ bitsOf ctrl 19 1 ||
          bitsOf old 8 2 ≠ bitsOf ctrl 8 2 || bitsOf old 4 1 ≠ bitsOf ctrl 4 1 || d.rd (R.SAP_FRAME p) ≠ frame
        seq [
          wr (R.SAP_CTRL p) (putBits ctrl 0 1 (bitsOf old 0 1)),
          each (sapRegs p b.values) fun e => wr e.1 e.2,
          doIf restart (sapNoClock p),
          mramPut (audKey 7 p) (.regs (((R.SAP_CTRL p, putBits ctrl 0 1 0) :: sapRegs p b.values).map fun e =>
            (e.1, BitVec.ofNat 32 e.2))),
          finish o.id 0 []])

/-! ### The rows -/

/-- AUDIO_SAP (R242). -/
def execAudioSap (h : Hdr) (b : AudioSapBody) (s : State) : Host.Outcome State Fault Refusal :=
  perform .core (rygus h (.audioSap b) (audioSapSpec b)) s

/-- SAP_FRAME (R236, R237). -/
def execSapFrame (p : SapId) (f : SapFrameIn) (s : State) : Host.Outcome State Fault Refusal :=
  perform .core (doWhen (fun d => d.on (.sap p)) (sapFrame p f)) s

/-- SAP_QUALIFIED (R237, R238). -/
def execSapQualified (p : SapId) (s : State) : Host.Outcome State Fault Refusal :=
  perform .core (doWhen (fun d => d.on (.sap p) && d.sapState p == 1 && decide (d.sapQualFrames p ≤ d.rd (R.SAP_QUAL_COUNT p)))
    (sapRelease p)) s

/-- SAP_CLOCK_LOSS (R237). -/
def execSapClockLoss (p : SapId) (s : State) : Host.Outcome State Fault Refusal :=
  perform .core (doWhen (fun d => d.on (.sap p) && (d.sapState p == 1 || d.sapState p == 2))
    (seq [sapNoClock p, setF (F.SAP_STATUS_clock_lost p) 1, raise (F.SAP_ALARM_clock_lost p), inc (R.SAP_CNT_CLOCK_LOST p)])) s

/-- What a write of 1 to SAP_CNT_CLEAR clears (R244). -/
def sapCntClear (p : SapId) : Prog :=
  clearRegs [R.SAP_CNT_DISCARD p, R.SAP_CNT_REQUAL p, R.SAP_CNT_CLOCK_LOST p, R.SAP_CNT_SLIP p]

/-- SAP_CNT_CLEAR (R244). -/
def execSapCntClear (p : SapId) (s : State) : Host.Outcome State Fault Refusal := perform .core (sapCntClear p) s

end Sys2Proof.Machine
end

