-- ==== Sys2Proof/Machine/Transport.lean ====
section
/-!
DEFINITION. Where scan-out engines and the audio matrix meet the transports: boundaries, switch lines and lines of a
destination with the packets and segments they send (R265, R268, R331 to R336), and the audio block with the ports,
bundles and packets around it (R220, R235, R267).
-/

namespace Sys2Proof.Machine

/-- The transmit contexts that carry anything of a destination see a frame boundary (R335, R347). -/
def flowBoundary (n : Nat) : Prog :=
  .read fun d =>
    let f := (d.dstTiming n).1.format
    seq [
      each (((d.destFlow n 0).toList ++ (d.destFlow n 3).toList) ++ d.txAncContexts n) flowTxArm,
      each (d.destFlow n 0).toList fun q => seq [
        wr (R.FLOW_TX_TRS q) (d.trsSixteenths n q f),
        doIf (d.fld (F.DST_CUR_VIDEO_source n) == 0xFFF) (txParked q)]]

/-- A destination's frame boundary, with its transmit contexts. -/
def destBoundary (n : Nat) : Prog :=
  seq [dstBoundary n, doWhen (fun d => d.dstRuns n) (flowBoundary n)]

/-- After a switch line: the ancillary route in force from it chooses its frame, its packets are sent (R121, R268,
R336), an opaque landing keeps the old flow for its earlier frames (R133), and a PARK stops the video flow (R125). -/
def destSwitch (n : Nat) (field2 : Bool) : Prog :=
  .read fun d => seq [
    switchLine n field2,
    doWhen (fun d => d.dstRuns n) (.read fun e =>
      let b := e.boundary n
      let old := d.fld (F.DST_CUR_VIDEO_source n)
      let new := e.fld (F.DST_CUR_VIDEO_source n)
      let opq := d.flag (F.DST_CTRL_opaque n)
      seq [
        doIf (opq && old ≠ new) (dstUpd n fun m => { m with opqOld := some (old, b) }),
        doIf (!opq && d.fld (F.DST_CUR_BREAK_anc_src n) ≠ e.fld (F.DST_CUR_BREAK_anc_src n)) (ancLayer n b),
        doIf (new == 0xFFF) (each ((e.destFlow n 0).toList ++ (e.destFlow n 3).toList) txParked),
        doIf (!field2 && !opq) (seq [
          txAncFrame n,
          .read fun g =>
            let q := g.fld (F.DST_OUTPUT_id n)
            doIf (g.fld (F.DST_CTRL_transport n) == 0 && g.hlkDest q == some n)
              (hlkAncTx q b (g.dstTiming n).2 (g.dstAnc n))])])]

/-- An output line, and the segments or packets it leaves in; a parked destination sends neither (R125). -/
def destLine (n out : Nat) : Prog :=
  seq [emitOut n out,
    doWhen (fun d => d.dstRuns n && !d.flag (F.DST_CTRL_opaque n) && d.fld (F.DST_CUR_VIDEO_source n) ≠ 0xFFF)
      (.read fun d =>
        match activeLine (d.dstTiming n).1.format out with
        | none => .nop
        | some line =>
          let ws := KV.get [] (d.dstm n).lines line
          let q := d.fld (F.DST_OUTPUT_id n)
          match d.fld (F.DST_CTRL_transport n) with
          | 0 => doIf (d.hlkDest q == some n) (hlkVideoTx q n (d.boundary n) (d.dstTiming n).2 line ws)
          | 1 => txVideoLine n line ws
          | _ => .nop)]

/-- The pairs of outputs from a first one that carry a non-PCM pair (R216). -/
def Dev.pairsNonPcm (d : Dev) (base count : Nat) : Nat :=
  bitMask ((List.range ((count + 1) / 2)).filter fun p =>
    ((d.aout (base + 2 * p)).cur.inp.map fun i => d.flag (F.AIN_STATE_non_pcm i)).getD false)

/-- The audio block's bundles of the destinations on Holtut links (R267), and its packets (R220). -/
def audTransmit : Prog :=
  .read fun d =>
    let first := d.rd64 R.AUD_BLOCK_LO R.AUD_BLOCK_HI * d.audN
    seq [
      each (d.audGroups.filter fun g => d.dstRuns g.1 && d.fld (F.DST_CTRL_transport g.1) == 0 &&
          d.hlkDest (d.fld (F.DST_OUTPUT_id g.1)) == some g.1) fun g =>
        hlkAudioTx (d.fld (F.DST_OUTPUT_id g.1)) first ((List.range g.2.2).map fun c => d.audOut (g.2.1 + c))
          (d.pairsNonPcm g.2.1 g.2.2),
      each (d.keysOf .ATX_DESC) fun q => seq [txAudioBlock q first, doIf (d.flag (F.ATX_DESC_enable q)) (flowTxArm q)]]

/-! ### Meanings -/

/-- DEST_FRAME_BOUNDARY (R18, R21, R127). -/
def execDestFrameBoundary (n : DstId) (s : State) : Host.Outcome State Fault Refusal := perform .core (destBoundary n) s

/-- DEST_SWITCH_LINE (R108). -/
def execDestSwitchLine (n : DstId) (field2 : Bool) (s : State) : Host.Outcome State Fault Refusal :=
  perform .core (destSwitch n field2) s

/-- SCANOUT_LINE_EMIT (R122, R128). -/
def execScanoutLineEmit (n : DstId) (line : Nat) (s : State) : Host.Outcome State Fault Refusal :=
  perform .core (destLine n line) s

end Sys2Proof.Machine
end

