-- ==== Sys2Proof/Machine/Flash.lean ====
section
/-!
DEFINITION. The flash (R459 to R461), images and their verification (R464 to R469), the MRAM store's log (R470 to R473),
and the update in progress (R477 to R488). Numbers in the flash are little-endian (R459).
-/

namespace Sys2Proof.Machine

/-- Changes the start-up, store and update state. -/
def bootUpd (f : BootState → BootState) : Prog := ext fun x => { x with boot := f x.boot }

/-- Changes the power state. -/
def pwrUpd (f : PwrState → PwrState) : Prog := ext fun x => { x with pwr := f x.pwr }

/-! ### The flash -/

/-- Bytes of the flash; an erased byte reads 0xFF. -/
def Dev.flashBytes (d : Dev) (a n : Nat) : List Byte :=
  let m := d.x.boot.flash.getD []
  (List.range n).map fun i => BitVec.ofNat 8 (KV.get 255 m (a + i))

/-- A number in the flash. -/
def Dev.flashLe (d : Dev) (a n : Nat) : Nat := ofLeBytes (d.flashBytes a n)

/-- Programs bytes of the flash. -/
def flashProgram (a : Nat) (b : List Byte) : Prog :=
  bootUpd fun m => { m with flash := some (b.zipIdx.foldl (fun f e => KV.set 255 f (a + e.2) e.1.toNat) (m.flash.getD [])) }

/-- Erases a range of the flash. -/
def flashErase (a n : Nat) : Prog :=
  bootUpd fun m => { m with flash := some ((m.flash.getD []).filter fun e => decide (e.1 < a) || decide (a + n ≤ e.1)) }

/-- The partitions of R460: 0 and 1 the firmware slots, 2 recovery, 3 and 4 the configuration slots. -/
def partBase : Nat → Nat
  | 0 => 0x01000000 | 1 => 0x03000000 | 2 => 0x00100000 | 3 => 0x05000000 | _ => 0x06800000
def partSize : Nat → Nat
  | 0 => 0x02000000 | 1 => 0x02000000 | 2 => 0x00F00000 | 3 => 0x01800000 | _ => 0x01800000

/-! ### The boot header (R461) -/

/-- A boot header. -/
structure BootHdr where
  gen : Nat := 0
  recovery : Bool := false
  needLock : Bool := false
  cfgSlot : Nat := 0
  trialCount : Nat := 0
  trial : Bool := false
  fwSlot : Nat := 0
  prevSlot : Nat := 0
  prevCfg : Nat := 0
  deriving DecidableEq, Repr

/-- The copy at an address, where it is valid. -/
def Dev.hdrAt (d : Dev) (a : Nat) : Option BootHdr :=
  let b := d.flashBytes a 256
  let w := leAt b 0x0C 4
  if leAt b 0 4 = 0x4258415A ∧ leAt b 4 1 = 1 ∧ crc32c (b.take 0xFC) = leAt b 0xFC 4 then
    some { gen := leAt b 8 4, recovery := bitOf w 20, needLock := bitOf w 17, cfgSlot := bitsOf w 16 1
           trialCount := bitsOf w 8 4, trial := bitOf w 4, fwSlot := bitsOf w 0 2, prevSlot := bitsOf (leAt b 0x10 4) 0 2
           prevCfg := bitsOf (leAt b 0x14 4) 16 1 }
  else none

/-- The valid copy of the highest generation, with its place. -/
def Dev.bootHdr (d : Dev) : Option (Nat × BootHdr) :=
  match d.hdrAt 0, d.hdrAt 0x10000 with
  | some a, some b => if a.gen < b.gen then some (0x10000, b) else some (0, a)
  | some a, none => some (0, a)
  | none, some b => some (0x10000, b)
  | none, none => none

/-- The structure of R461. -/
def BootHdr.bytes (h : BootHdr) : List Byte :=
  let b := leBytes 4 0x4258415A ++ leBytes 4 1 ++ leBytes 4 h.gen ++
    leBytes 4 (boolBit h.recovery * 2 ^ 20 + boolBit h.needLock * 2 ^ 17 + h.cfgSlot % 2 * 2 ^ 16 + h.trialCount % 16 * 2 ^ 8 +
      boolBit h.trial * 2 ^ 4 + h.fwSlot % 4) ++
    leBytes 4 (h.prevSlot % 4) ++ leBytes 4 (h.prevCfg % 2 * 2 ^ 16) ++ List.replicate 0xE4 0
  b ++ leBytes 4 (crc32c b)

/-- Rewrites the copy that does not hold the highest valid generation (R461). -/
def hdrRewrite (f : BootHdr → BootHdr) : Prog :=
  .read fun d =>
    let (at_, h) := match d.bootHdr with
      | some (a, h) => (0x10000 - a, h)
      | none => (0, {})
    seq [flashErase at_ 0x10000, flashProgram at_ { f h with gen := (h.gen + 1) % 2 ^ 32 }.bytes]

/-! ### Images (R464 to R469) -/

/-- The header of an image (R464). -/
structure ImgHdr where
  kind : Nat
  signed : Bool
  resetState : Bool
  length : Nat
  version : Nat
  secver : Nat
  grades : Nat
  compat : Nat
  formats : Nat
  entries : List (Nat × Nat × Nat × Nat)
  id : Nat
  deriving DecidableEq, Repr

/-- The header that 512 bytes spell, where it is valid. -/
def imgHdrOf (b : List Byte) : Option ImgHdr :=
  let n := leAt b 0x18 1 % 32
  if leAt b 0 4 = 0x4958415A ∧ leAt b 4 1 = 1 ∧ 1 ≤ n ∧ n ≤ 29 ∧ crc32c (b.take 0x1FC) = leAt b 0x1FC 4 then
    some { kind := leAt b 5 1, signed := bitOf (leAt b 6 1) 1, resetState := bitOf (leAt b 6 1) 0, length := leAt b 8 4
           version := leAt b 0xC 4, secver := leAt b 0x10 1, grades := leAt b 0x11 1, compat := leAt b 0x12 2
           formats := leAt b 0x14 4, id := leAt b 0x1FC 4
           entries := (List.range n).map fun i =>
             let o := 0x20 + 16 * i
             (leAt b o 1, leAt b (o + 4) 4, leAt b (o + 8) 4, leAt b (o + 12) 4) }
  else none

/-- The header a partition holds, where it is valid. -/
def Dev.imgHdr (d : Dev) (part : Nat) : Option ImgHdr := imgHdrOf (d.flashBytes (partBase part) 512)

/-- The bytes of an image. -/
def Dev.imgBytes (d : Dev) (part : Nat) (h : ImgHdr) : List Byte := d.flashBytes (partBase part) h.length

/-- The image is whole: it fits its partition and every entry's CRC holds. -/
def Dev.imgWhole (d : Dev) (part : Nat) (h : ImgHdr) : Bool :=
  decide (512 ≤ h.length) && decide (h.length ≤ partSize part) &&
  h.entries.all fun e => decide (e.2.1 + e.2.2.1 ≤ h.length) &&
    crc32c (d.flashBytes (partBase part + e.2.1) e.2.2.1) == e.2.2.2

/-- A fuse key slot's digest; none while it is blank. -/
def Dev.keyDigest (d : Dev) (slot : Nat) : Option (List Byte) := (d.x.boot.fuses.keys.getD slot none)

/-- A key slot is revoked. -/
def Dev.keyRevoked (d : Dev) (slot : Nat) : Bool := d.x.boot.fuses.revoked.contains slot

/-- The first check of a signature block that fails (R465): 0x0806 BAD_SIGNATURE or 0x0807 KEY_REVOKED. -/
def Dev.signatureFault (d : Dev) (part : Nat) (h : ImgHdr) : Option Nat :=
  let all := d.imgBytes part h
  let body := all.take (h.length - 256)
  let b := all.drop (h.length - 256)
  let slot := leAt b 0 1 % 4
  let x := (b.drop 0x10).take 48
  let y := (b.drop 0x40).take 48
  if (if h.kind = 3 then slot < 2 else 2 ≤ slot) then some 0x0806
  else if d.keyDigest slot ≠ some (sha384 (x ++ y)) then some 0x0806
  else if d.keyRevoked slot then some 0x0807
  else if ecdsaHolds (ofLeBytes x) (ofLeBytes y) (sha384 body) (leAt b 0x70 48) (leAt b 0xA0 48) then none
  else some 0x0806

/-- A format lies in the range whose highest and lowest stand in a formats word from a bit. -/
def formatIn (formats lo v : Nat) : Bool := decide (bitsOf formats lo 8 ≤ v) && decide (v ≤ bitsOf formats (lo + 8) 8)

/-- The format of the configuration image in a slot, where there is a valid header. -/
def Dev.cfgFormat (d : Dev) (slot : Nat) : Option Nat := (d.imgHdr (3 + slot)).map (·.formats % 256)

/-- Grades, components and formats a firmware image must suit (R467). -/
def Dev.firmwareFits (d : Dev) (h : ImgHdr) (cfg store : Option Nat) : Bool :=
  bitOf h.grades (if d.x.boot.fuses.es then 1 else 0) &&
  [1, 2, 3, 4, 5].all (fun c => h.entries.any fun e => e.1 == c) &&
  (match cfg with | some f => formatIn h.formats 16 f | none => true) &&
  (match store with | some f => formatIn h.formats 0 f | none => true)

/-- The first check that an image of a kind in a partition fails (R464 to R467, R469): its reason of R488; none where it
verifies. `cfg` and `store` are the formats it is held against. -/
def Dev.imageFault (d : Dev) (part kind : Nat) (cfg store : Option Nat) : Option Nat :=
  match d.imgHdr part with
  | none => some 0x0803
  | some h =>
    let must := kind ≠ 3 || d.x.boot.fuses.cfgSig
    if h.kind ≠ kind ∨ !d.imgWhole part h then some 0x0803
    else if must ∧ !h.signed then some 0x0806
    else match (if must then d.signatureFault part h else none) with
      | some r => some r
      | none =>
        if kind ≠ 3 ∧ h.secver < d.x.boot.fuses.vf then some 0x0808
        else if kind = 1 ∧ !d.firmwareFits h cfg store then some 0x0809
        else none

/-- The MRAM store's format, where it has a superblock. -/
def Dev.storeFormat (d : Dev) : Option Nat := d.x.boot.superblock.map (·.1)

/-- A firmware slot verifies against the configuration in a slot and the store (R467). -/
def Dev.slotVerifies (d : Dev) (slot cfgSlot : Nat) : Bool :=
  if slot = 2 then (d.imageFault 2 2 none none).isNone
  else decide (slot < 2) && (d.imageFault slot 1 (d.cfgFormat cfgSlot) d.storeFormat).isNone

/-- The version that BOOT_SLOT_*_VER shows: 0 where the image does not verify. -/
def Dev.slotVersion (d : Dev) (slot cfgSlot : Nat) : Nat :=
  if d.slotVerifies slot cfgSlot then ((d.imgHdr slot).map (·.version)).getD 0 else 0

/-! ### The MRAM store's log (R470 to R473) -/

/-- The bytes a record takes in a page: 8 of header, and its data padded to 4. -/
def mramBytes : MramVal → Nat
  | .words l => 8 + 4 * l.length
  | .chain c => 8 + 32 + 16 * c.entries.length
  | .regs l => 8 + 8 * l.length

/-- The pages that records fill, 236 bytes to a page; a record is not split unless it is longer than a page. -/
def mramPages (l : List MramVal) : Nat :=
  let r := l.foldl (fun (a : Nat × Nat) v =>
    let n := mramBytes v
    if n ≤ a.2 then (a.1, a.2 - n) else (a.1 + ceilDiv n 236, (236 - n % 236) % 236)) (0, 0)
  r.1

/-- The pages written in the last second. -/
def Dev.mramRate (d : Dev) : Nat :=
  ((d.x.boot.pageWrites.filter fun e => decide (d.x.time.clk < e.1 + secU)).map (·.2)).sum

/-- Pages are written: the log's free pages fall; below 10 % it is compacted, its live records rewritten at its head. -/
def mramWritePages (n : Nat) : Prog :=
  .read fun d =>
    let b := d.x.boot
    let live := mramPages (b.mram.map (·.2))
    let free := b.pagesFree - n
    let (free', ever) := if free < 3276 then (32760 - live, b.pagesEver + n + live) else (free, b.pagesEver + n)
    let wear := ceilDiv ever 32760
    seq [
      bootUpd fun m => { m with
        pagesFree := free', pagesEver := ever
        pageWrites := (m.pageWrites.filter fun e => decide (d.x.time.clk < e.1 + secU)) ++ [(d.x.time.clk, ever - b.pagesEver)] },
      setF F.BOOT_MRAM_STATUS_free_pages free', wr R.BOOT_MRAM_WEAR (wear / 1000),
      doIf (decide (90000000 < wear)) (replaceSet 9),
      .read fun e => wr R.BOOT_MRAM_RATE (min e.mramRate 0xFFFF)]

/-- The open window's records are written (R473): each replaces the record of its key, which the log keeps behind it. -/
def mramFlush : Prog :=
  .read fun d =>
    let w := d.x.boot.window
    doIf (!w.isEmpty && !(d.fst .boot == .fault && (d.fw .boot).code == 2)) (seq [
      bootUpd fun m => { m with
        window := []
        mramOld := (m.mram.filter fun e => w.any fun f => f.1 == e.1) ++
          (m.mramOld.filter fun e => !(w.any fun f => f.1 == e.1))
        mram := (m.mram.filter fun e => !(w.any fun f => f.1 == e.1)) ++ w },
      mramWritePages (mramPages (w.map (·.2)))])

/-- The window's length follows the rate of page writes (R473), once a second. -/
def mramAdapt : Prog :=
  .read fun d =>
    let now := d.x.time.clk
    let w := max 1 (d.fld F.BOOT_MRAM_STATUS_w_ms)
    let top := match d.x.boot.cfg with | some c => c.policy.windowMax | none => 128
    let rate := d.mramRate
    let few := if rate < 5000 then some (d.x.boot.fewSince.getD now) else none
    let fall := match few with | some t => decide (t + 10 * secU ≤ now) | none => false
    seq [
      bootUpd fun m => { m with fewSince := few },
      setF F.BOOT_MRAM_STATUS_w_ms (if 10000 < rate then min top (2 * w) else if fall then max 1 (w / 2) else w),
      doIf (decide (10000 < rate)) (raise F.BOOT_ALARM_mram_window)]

/-! ### The update in progress (R477 to R488) -/

/-- The bytes of the image that the blocks held carry. -/
def UpdMem.received (u : UpdMem) : Nat :=
  let n := if u.source = 1 then 224 else 256
  (u.got.map fun i => min n (u.length - n * i)).sum

/-- The pieces of a trickled image (R485). -/
def UpdMem.pieces (u : UpdMem) : Nat := ceilDiv u.length 224

/-- Every bit is set (R479). -/
def UpdMem.complete (u : UpdMem) : Bool := decide (0 < u.length) && u.received == u.length

/-- BOOT_UPD_* and BOOT_TRICKLE_COUNT and _TOTAL follow the update. -/
def updSync : Prog :=
  .read fun d =>
    let u := d.x.boot.upd
    seq [
      setF F.BOOT_UPD_STATE_kind u.kind, setF F.BOOT_UPD_STATE_method u.method, setF F.BOOT_UPD_STATE_source u.source,
      setF F.BOOT_UPD_STATE_state u.state, wr R.BOOT_UPD_LEN u.length, wr R.BOOT_UPD_RECEIVED u.received,
      wr R.BOOT_UPD_IMAGE_ID u.image, wr R.BOOT_UPD_FAIL u.fail, wr R.BOOT_UPD_TIME_LO (u.sec % 2 ^ 32),
      wr R.BOOT_UPD_TIME_HI (u.sec / 2 ^ 32 % 2 ^ 16),
      wr R.BOOT_TRICKLE_COUNT (if u.source = 1 then u.got.length else 0),
      wr R.BOOT_TRICKLE_TOTAL (if u.source = 1 then u.pieces else 0)]

/-- Changes the update. -/
def updUpd (f : UpdMem → UpdMem) : Prog := seq [bootUpd fun m => { m with upd := f m.upd }, updSync]

/-- The update or its activation has failed with a reason: its command is REJECTED with it. -/
def updFail (reason : Nat) : Prog :=
  .read fun d => seq [
    updUpd fun u => { u with state := 7, fail := reason, stage := 0, actId := none, verifyId := none },
    raise F.BOOT_ALARM_update_failed,
    each (d.x.boot.upd.actId.toList ++ d.x.boot.upd.verifyId.toList) fun id => reject id reason]

/-- The boot header is rewritten to try the image just activated (R481 to R483): a firmware image in its slot on trial, a
configuration image in its slot, a recovery image for the next start. -/
def hdrActivate (needLock : Bool) : Prog :=
  .read fun d =>
    let u := d.x.boot.upd
    hdrRewrite fun h => { h with
      trial := u.target ≠ 2, needLock := needLock, trialCount := 0, recovery := u.target == 2
      prevSlot := h.fwSlot, prevCfg := h.cfgSlot
      fwSlot := if u.target < 2 then u.target else h.fwSlot
      cfgSlot := if u.target = 3 ∨ u.target = 4 then u.target - 3 else h.cfgSlot }

end Sys2Proof.Machine
end

