-- ==== Sys2Proof/Machine/Reset.lean ====
section
/-!
DEFINITION. What a warm reset (R506), a power cycle (R507) and a power-on reset (R530) leave, and the ROLE_ACTIVE pin
(R399).
-/

namespace Sys2Proof.Machine

/-! ### ROLE_ACTIVE (R399, R458) -/

/-- The unit may drive ROLE_ACTIVE high: it is routing, its pecks go out, and it holds the active role or is unpaired. -/
def Dev.roleOut (d : Dev) : Bool := d.live && d.flag F.GLB_STATUS_routing && !d.x.twin.peckStale && d.twinSelect

/-- ROLE_ACTIVE follows what the unit may claim. -/
def roleSync : Prog :=
  .read fun d => seq [pwrUpd fun m => { m with roleActive := d.roleOut }, setB F.TWIN_STATUS_role_active d.roleOut]

/-! ### Resets (R506, R507, R530) -/

/-- Registers of the always-on island and values of the fuses: a warm reset leaves them (R458, R490, R452). -/
def islandReg (k : RK) : Bool :=
  (regInfo k).base / 0x10000 == 1 ||
  (match k with
    | .BOOT_RESET_CAUSE | .BOOT_SECVER | .BOOT_KEYS | .GLB_ID | .GLB_DIE_ID_LO | .GLB_DIE_ID_HI => true
    | _ => false)

/-- What MRAM, flash and fuses hold survives every reset (R33): of a trickle's bitmap, what was recorded (R486). -/
def BootState.kept (b : BootState) (now : Nat) : BootState :=
  { hist := b.hist, histSeq := b.histSeq, htStored := b.htStored, mram := b.mram, mramOld := b.mramOld
    superblock := b.superblock, pagesFree := b.pagesFree, pagesEver := b.pagesEver, flash := b.flash, fuses := b.fuses
    warmResets := b.warmResets, startAt := now
    upd := { b.upd with
      beginId := none, verifyId := none, actId := none, timer := none, stage := 0
      got := if b.upd.source = 1 then b.upd.got.take b.upd.recorded else b.upd.got
      state := if b.upd.state = 5 ∨ b.upd.state = 6 then 4 else b.upd.state } }

/-- The typed state after a reset of the core, lane and HBM domains; what has left the device has left it. -/
def Ext.coreReset (x : Ext) : Ext :=
  { out := x.out, freeCtr := x.freeCtr, time := { clk := x.time.clk }, boot := x.boot.kept x.time.clk
    twin := { peckSeq := x.twin.peckSeq, peckStale := x.twin.peckStale }
    pwr := { x.pwr with
      jtag := { x.pwr.jtag with drive := 0, instr := if x.pwr.jtag.drive = 0 then x.pwr.jtag.instr else 0xFF }
      resetAsked := false, cycleAsked := false, noTwin := [], nonce := none, frozen := false, stopped := false } }

/-- The core, lane and HBM domains are reset: their registers, memory and state. -/
def coreReset : Prog :=
  seq [.act (.regReset fun r => !islandReg r.kind), .act (.memZero fun _ => true), ext Ext.coreReset,
    setF F.PWR_DEBUG_level 0]

/-- The stored seconds of house time (R39). -/
def htStore : Prog := .read fun d => bootUpd fun b => { b with htStored := some d.htSec }

/-- An enable is asserted or released (R529, R530). -/
def enablePin (n : Nat) (b : Bool) : Prog := setB ⟨R.PWR_EN_STATUS, n, 1⟩ b

/-- ROLE_ACTIVE goes low and pecks carry role 0 from now on (R506 step 2). -/
def roleDrop : Prog := seq [setB F.GLB_STATUS_routing false, roleSync]

/-- Rung 3 (R506): the open window is written, the role dropped, outputs stopped, the domains reset; start-up begins at phase
ROM with the rails untouched. -/
def warmReset (cause : Nat) : Prog :=
  seq [htStore, mramFlush, histAdd 2 18 0 cause, roleDrop,
    bootUpd fun b => { b with warmResets := b.warmResets.take 15 },
    .read fun d => bootUpd fun b => { b with warmResets := d.x.time.clk :: b.warmResets },
    coreReset, wr R.BOOT_RESET_CAUSE cause, setF F.BOOT_STATUS_phase 1, enablePin 7 false,
    each [6, 7, 8] replaceClear]

/-- The codes of BOOT_RESET_CAUSE. -/
def resetCode : ResetCause → Nat
  | .command => 1 | .watchdog => 2 | .escalation => 3 | .update => 4

/-- All enables are released and the domains they feed lose their state (R492, R530). -/
def railsOff : Prog :=
  seq [roleDrop, coreReset, setF F.PWR_EN_STATUS_asserted 0, pwrUpd fun m => { m with up := false, regulated := 0 }]

/-- Rung 4 (R507): steps 1 to 3 of a warm reset, then the enables are released and PWR_CYCLE_REQ_N is driven low. The rung is
found in the alarm history. -/
def powerCycle : Prog :=
  seq [htStore, mramFlush, histAdd 2 17 0 4, railsOff, pwrUpd fun m => { m with cycleReq := true }]

/-- The island starts the rails from phase AON (R529, R531): it asserts nothing while SUPPLY_WARN_N is low. -/
def aonStart : Prog :=
  seq [setF F.BOOT_STATUS_phase 0,
    .read fun d => seq [bootUpd fun b => { b with startAt := d.x.time.clk }, doIf (!d.x.pwr.warnPin) (enablePin 0 true)]]

/-- Rung 3, or rung 4 after two warm resets within 10 minutes (R34). -/
def rung3 (cause : Nat) : Prog :=
  .read fun d =>
    if 2 ≤ (within d.x.time.clk (600 * secU) d.x.boot.warmResets).length then powerCycle else warmReset cause

/-- Power-on reset (R530): everything but MRAM, flash and fuses is reset, the enables are released; trip_seen stays while
VDD_AON is powered (R504). -/
def porstAssert : Prog :=
  .read fun d =>
    let trip := d.fld F.PWR_STATUS_trip_seen
    seq [.act (.regReset fun _ => true), .act (.memZero fun _ => true),
      ext fun x => { x.coreReset with twin := {}, pwr := { warnPin := x.pwr.warnPin } },
      setF F.PWR_STATUS_trip_seen trip]

/-- The core domain has its rails, whether or not its clocks are frozen (R515): a reset can run. -/
def Dev.powered (d : Dev) : Bool := d.x.pwr.up && !d.x.pwr.tripped

/-! ### Rows -/

/-- WARM_RESET (R506): the reset a HEALTH_RESET, the watchdog, an escalation or an update has asked for; rung 4 if a
HEALTH_POWER_CYCLE asked for it as well (R516). -/
def execWarmReset (cause : ResetCause) (s : State) : Host.Outcome State Fault Refusal :=
  perform .island (doWhen Dev.powered (.read fun d =>
    if d.x.pwr.cycleAsked then powerCycle
    else if cause == .escalation then rung3 3 else warmReset (resetCode cause))) s

/-- POWER_CYCLE (R507). -/
def execPowerCycle (s : State) : Host.Outcome State Fault Refusal := perform .island (doWhen Dev.powered powerCycle) s

/-- PWR_CYCLE_TIMEOUT (R507): no power-on reset has come 10 s after the request. -/
def execPwrCycleTimeout (s : State) : Host.Outcome State Fault Refusal :=
  perform .island (doWhen (fun d => d.x.pwr.cycleReq) (seq [
    pwrUpd fun m => { m with cycleReq := false, stopped := false }, wr R.BOOT_RESET_CAUSE 0, histAdd 2 18 0 0, aonStart])) s

/-- PORST_ASSERT (R530). -/
def execPorstAssert (s : State) : Host.Outcome State Fault Refusal := perform .pins porstAssert s

/-- STARTUP_TIME_EXPIRY (R34, R457): the device has not reached routing; a unit in RECOVERY is not escalated. -/
def execStartupTimeExpiry (s : State) : Host.Outcome State Fault Refusal :=
  perform .island (doWhen (fun d => !d.flag F.GLB_STATUS_routing && d.fld F.BOOT_STATUS_phase ≠ 9 && !d.x.pwr.tripped &&
    !d.x.pwr.cycleReq) powerCycle) s

end Sys2Proof.Machine
end

