-- ==== Sys2Proof/Machine/Twin.lean ====
section
/-!
DEFINITION. Twin operation (15_twin.md): pecks and the role machine (R396 to R404), shedding in a pair (R408), output
signatures (R409, R410), admission (R412 to R414), failover (R415) and planned swaps (R417, R418).
-/

namespace Sys2Proof.Machine

/-- Changes the twin state. -/
def twinUpd (f : TwinState → TwinState) : Prog := ext fun x => { x with twin := f x.twin }

/-- The frame count of OTG TWIN_SIG_CTRL.ref_otg. -/
def Dev.refFrame (d : Dev) : Nat := d.otgFrame (d.fld F.TWIN_SIG_CTRL_ref_otg)

/-- The unit is active (R401). -/
def Dev.activeUnit (d : Dev) : Bool := d.tstate == 2 || d.tstate == 3

/-- The unit is a standby (R401). -/
def Dev.standbyUnit (d : Dev) : Bool := decide (4 ≤ d.tstate)

/-- Sends a twin message of the unit's own sequence (R272, R400). -/
def twinPost (type : Nat) (body : List Byte) : Prog :=
  .read fun d => seq [twinSend type d.x.twin.txSeq body, twinUpd fun t => { t with txSeq := (t.txSeq + 1) % 2 ^ 32 }]

/-- Sends a SWAP message (R400): op 0 propose, 1 accept, 2 refuse. -/
def swapPost (op reason frame : Nat) : Prog := twinPost 6 (leBytes 4 (op + reason * 256) ++ leBytes 8 frame)

/-! ### Escalations that wait for the role (R35, R418) -/

/-- A unit without a twin in lockstep keeps routing: the functions stay in FAULT and REPLACE_REQ_N is asserted (R35). -/
def escalHold : Prog :=
  .read fun d => doIf (!d.x.escal.isEmpty) (seq [
    pwrUpd fun m => { m with noTwin := m.noTwin ++ d.x.escal.filterMap fun e => match e with
      | .rung3 b i => some (b, i)
      | .rung4 => none },
    ext fun x => { x with escal := [] }, replaceSet 6])

/-! ### The pending swap (R417) -/

/-- The pending swap goes. -/
def swapClear : Prog := seq [twinUpd fun t => { t with swap := none }, setF F.TWIN_STATUS_swap_pending 0]

/-- A swap is abandoned (R417 to R419): its command is REJECTED, and the unit keeps its role. -/
def swapAbandon : Prog :=
  .read fun d => match d.x.twin.swap with
    | none => .nop
    | some w => seq [swapClear, each w.id.toList fun id => reject id Reason.swapRefused,
        doIf w.mine (seq [escalHold, doIf (d.x.boot.upd.stage == 3) (updFail 0x080B)])]

/-- The active proposes a swap five frames ahead (R417). -/
def swapStart (id : Option Nat) : Prog :=
  .read fun d =>
    let k := d.refFrame + 5
    seq [twinUpd fun t => { t with swap := some { frame := k, id := id, mine := true } },
      setF F.TWIN_STATUS_swap_pending 1, set64 R.TWIN_SWAP_FRAME_LO R.TWIN_SWAP_FRAME_HI k, swapPost 0 0 k]

/-! ### The role machine (R401, R402) -/

/-- The resync begins (R412). -/
def resyncStart : Prog :=
  seq [twinUpd fun t => { t with applied := false, snap := none, heldCommits := [], admitSent := false, farAdmit := none },
    ext fun x => { x with hlk := x.hlk.map fun e => (e.1, { e.2 with nearRun := 0 }) }]

/-- The higher of the two units' shedding stages (R408). -/
def Dev.pairStage (d : Dev) : Nat :=
  max (d.fld F.PWR_STATUS_stage) (match d.x.twin.far with | some p => p.stage | none => 0)

/-- The twin function passes to a state (R401, R402): a change of role increments the epoch and sends STATE. -/
def twinGo (t : Nat) : Prog :=
  .read fun d =>
    let was := d.twinRole
    seq [
      setF F.TWIN_STATUS_tstate t,
      .read fun e => doIf (e.twinRole ≠ was) (setF F.TWIN_STATUS_epoch ((d.fld F.TWIN_STATUS_epoch + 1) % 256)),
      doIf (t == 4) (seq [inc R.TWIN_CNT_RESYNC, resyncStart, twinUpd fun m => { m with shedEff := d.pairStage, shedNext := none }]),
      doIf (t ≠ 2 && t ≠ 3) (twinUpd fun m => { m with follows := false }),
      doIf (t == 4 || t == 5) (seq [wr R.TWIN_ADMIT_COUNT 0, twinUpd fun m => { m with disagree := false }]),
      doIf (t ≠ 3 && t ≠ 6) swapAbandon,
      doIf ((t == 3 || t == 6) && d.x.boot.lockAt.isNone) (bootUpd fun b => { b with lockAt := some d.x.time.clk }),
      doIf (t == 0 || t == 2 || t == 3) (each (List.range 96) fun l => wr (R.SDI_RX_TWIN_DIFF l) 0),
      doIf (t == 0 || t == 2) (twinUpd fun m => { m with shedEff := d.fld F.PWR_STATUS_stage, shedNext := none }),
      roleSync, hlkSendStates]

/-- An activation that a failover or a loss of the role ends (R487). -/
def handoverEnds : Prog := doWhen (fun d => d.x.boot.upd.stage ≠ 0) (updFail 0x080B)

/-- FAILOVER (R415): the standby takes the active role. -/
def failover : Prog :=
  seq [twinGo 2, raise F.TWIN_ALARM_failover, inc R.TWIN_CNT_FAILOVER, histAdd 3 16 0 0, handoverEnds]

/-- A standby leaves lockstep or admission (R402, R406, R410). -/
def lockstepLost : Prog :=
  doWhen (fun d => d.tstate == 5 || d.tstate == 6) (seq [twinGo 4, raise F.TWIN_ALARM_lockstep_lost])

/-- Escalations firmware has decided on (R34, R35): an active hands its role to a twin in lockstep first; without one it
holds; a standby waits for its reset. -/
def escalDo : Prog :=
  .read fun d => doIf (!d.x.escal.isEmpty) (
    if d.tstate = 3 then doIf d.x.twin.swap.isNone (swapStart none)
    else doIf (!d.standbyUnit) escalHold)

/-! ### Shedding in a pair (R408) -/

/-- The effective stage in force, or announced. -/
def Dev.shedAnnounced (d : Dev) : Nat := match d.x.twin.shedNext with | some (v, _) => v | none => d.x.twin.shedEff

/-- The stage in force at the reference OTG's present frame. -/
def Dev.shedNow (d : Dev) : Nat :=
  match d.x.twin.shedNext with | some (v, k) => if k ≤ d.refFrame then v else d.x.twin.shedEff | none => d.x.twin.shedEff

/-- A change of stage is planned for a frame of the reference OTG. -/
def shedPlan (stage frame : Nat) : Prog :=
  .read fun d => twinUpd fun t => { t with shedEff := d.shedNow, shedNext := some (stage, frame) }

/-- The active of a pair announces a change of the effective stage three frames ahead; a unit alone applies its own. -/
def shedSync : Prog :=
  .read fun d =>
    let v := d.pairStage
    let twin := match d.x.twin.far with | some p => p.role == 2 | none => false
    if d.activeUnit && twin then
      doIf (v ≠ d.shedAnnounced) (seq [shedPlan v (d.refFrame + 3), twinPost 5 (leBytes 4 v ++ leBytes 8 (d.refFrame + 3))])
    else doIf (!d.standbyUnit && d.shedAnnounced ≠ d.fld F.PWR_STATUS_stage)
      (twinUpd fun t => { t with shedEff := d.fld F.PWR_STATUS_stage, shedNext := none })

/-! ### Pecks (R275, R397 to R404) -/

/-- The peck the generator sends. -/
def Dev.peck (d : Dev) : Peck :=
  { replaceReq := d.rd R.PWR_REPLACE ≠ 0, lockstep := d.live && d.on .twin && d.lockstep
    grant := d.flag F.TWIN_STATUS_role_grant, role := if d.live then d.twinRole else 0, seq_ := d.x.twin.peckSeq
    stage := d.fld F.PWR_STATUS_stage, gen := d.rd R.TWIN_CFG_GEN }

/-- A peck goes out on both paths. -/
def peckTx : Prog :=
  .read fun d => seq [
    emit (.peck true d.peck),
    doIf (d.live && (List.range 96).any fun l => d.hlkTwin l && d.hlkSending l) (emit (.peck false d.peck)),
    twinUpd fun t => { t with peckSeq := (t.peckSeq + 1) % 256, peckStale := false }, roleSync]

/-- An activation follows what the standby's pecks show (R482, R483). -/
def handoverPeck (p : Peck) : Prog :=
  .read fun d =>
    let u := d.x.boot.upd
    match u.stage with
    | 1 => doIf (!p.lockstep) (updUpd fun u => { u with stage := 2 })
    | 2 => doIf (p.lockstep && d.tstate == 3 && d.x.twin.swap.isNone) (seq [updUpd fun u => { u with stage := 3 }, swapStart none])
    | 4 => doIf (p.role ≠ 2) (updUpd fun u => { u with stage := 5 })
    | 5 => doIf (p.role == 2) (seq [each u.actId.toList fun id => finish id 0 [],
        updUpd fun u => { u with state := 0, stage := 0, actId := none }, hdrActivate false, warmReset 4])
    | _ => .nop

/-- The role events of a valid peck (R402, R404). -/
def peckRole (p : Peck) (newGen : Bool) : Prog :=
  .read fun d =>
    let grant := d.flag F.TWIN_STATUS_role_grant
    let unit0 := !d.flag F.TWIN_CTRL_unit
    match d.tstate with
    | 1 =>
      if p.role = 1 then twinGo 4
      else doIf ((grant && !p.grant) || (grant == p.grant && unit0)) (twinGo 2)
    | 2 =>
      if p.role = 1 then doIf ((!grant && p.grant) || (grant == p.grant && !unit0)) (twinUpd fun t => { t with contend := true })
      else doIf p.lockstep (twinGo 3)
    | 3 =>
      seq [
        doIf (p.role == 1 && ((!grant && p.grant) || (grant == p.grant && !unit0)))
          (twinUpd fun t => { t with contend := true }),
        doIf (!p.lockstep) (seq [twinGo 2, raise F.TWIN_ALARM_lockstep_lost])]
    | 7 => doIf (p.role == 1) (twinGo 4)
    | _ => doIf newGen lockstepLost

/-- A valid peck arrives on the lane path or the LVDS path. -/
def peckRx (lvds : Bool) (p : Peck) : Prog :=
  doWhen (fun d => d.on .twin) (.read fun d =>
    let newGen := match d.x.twin.far with | some q => q.gen ≠ p.gen | none => false
    seq [
      twinUpd fun t => { t with far := some p, laneGot := t.laneGot || !lvds, lvdsGot := t.lvdsGot || lvds, follows := t.follows && p.role == 2
                                gotActive := t.gotActive || p.role == 1 },
      if lvds then seq [setF F.TWIN_PECK_lvds_miss 0, setF F.TWIN_STATUS_lvds_path_ok 1, setF F.TWIN_LVDS_STATUS_cdr_lock 1]
      else seq [setF F.TWIN_PECK_lane_miss 0, setF F.TWIN_STATUS_lane_path_ok 1],
      setF F.TWIN_PECK_far_stage p.stage, setF F.TWIN_PECK_last_seq p.seq_, setB F.TWIN_STATUS_far_lockstep p.lockstep,
      setB F.TWIN_FAR_INFO_far_lockstep p.lockstep, setF F.TWIN_FAR_INFO_far_role p.role, setF F.TWIN_FAR_INFO_far_gen p.gen,
      peckRole p newGen, handoverPeck p, shedSync])

/-- One path counts a miss at the end of an interval without a valid peck. -/
def pathMiss (got : Bool) (miss ok lost cdr : Field) (cnt : Reg) : Prog :=
  .read fun d =>
    let n := min (d.fld miss + 1) 15
    let limit := clampN 2 15 (d.fld F.TWIN_TIMING_miss_limit)
    doIf (!got) (seq [setF miss n, inc cnt,
      doIf (d.fld miss + 1 == limit) (seq [setF ok 0, raise lost, doIf (cdr.reg.kind == .TWIN_LVDS_STATUS) (setF cdr 0),
        doIf (d.tstate == 4) resyncStart])])

/-- Both paths are lost, or a standby hears no active (R398, R402). -/
def Dev.twinLost (d : Dev) : Bool :=
  let limit := clampN 2 15 (d.fld F.TWIN_TIMING_miss_limit)
  (decide (limit ≤ d.fld F.TWIN_PECK_lane_miss) && decide (limit ≤ d.fld F.TWIN_PECK_lvds_miss)) ||
  (d.standbyUnit && d.tstate ≠ 7 && decide (limit ≤ d.x.twin.roleRun))

/-- The links that carry twin traffic have house time within the tolerance for three exchanges (R412, R413). -/
def Dev.timeNear (d : Dev) : Bool := (List.range 96).any fun l => d.hlkTwin l && decide (3 ≤ (d.hlkm l).nearRun)

/-- This unit's ADMIT message (R400). -/
def admitPost : Prog :=
  .read fun d => twinPost 7 (
    leBytes 4 (d.fld F.TWIN_CTRL_unit + 2 * d.fld F.GLB_ID_grade + d.rd R.TWIN_COMPAT * 2 ^ 16) ++
    leBytes 4 (d.rd R.TWIN_CFG_GEN) ++ leBytes 8 (d.rd64 R.GLB_DIE_ID_LO R.GLB_DIE_ID_HI))

/-- The roles at the end of an interval (R402): failure first, then contention. -/
def twinStep (grant : Bool) : Prog :=
  .read fun d =>
    if d.twinLost then .andThen (twinUpd fun t => { t with far := none, follows := false }) (
      match d.tstate with
      | 2 | 3 => seq [if grant then doIf (d.tstate == 3) (twinGo 2) else seq [handoverEnds, twinGo 7],
          twinUpd fun t => { t with contend := false }]
      | 4 | 5 | 6 => if grant then failover else twinGo 7
      | 7 => doIf grant failover
      | _ => .nop)
    else if d.x.twin.contend then
      seq [twinUpd fun t => { t with contend := false },
        doIf d.activeUnit (seq [handoverEnds, twinGo 4, raise F.TWIN_ALARM_contention])]
    else doIf (d.tstate == 7 && grant) failover

/-- The 500 µs evaluation (R398). -/
def missEval (grant : Bool) : Prog :=
  seq [
    setB F.TWIN_STATUS_role_grant grant,
    doWhen (fun d => d.on .twin) (.read fun d =>
      let t := d.x.twin
      seq [
        pathMiss t.laneGot F.TWIN_PECK_lane_miss F.TWIN_STATUS_lane_path_ok F.TWIN_ALARM_path_lane_lost
          F.TWIN_PECK_lane_miss R.TWIN_CNT_LANE_MISS,
        pathMiss t.lvdsGot F.TWIN_PECK_lvds_miss F.TWIN_STATUS_lvds_path_ok F.TWIN_ALARM_path_lvds_lost
          F.TWIN_LVDS_STATUS_cdr_lock R.TWIN_CNT_LVDS_MISS,
        twinUpd fun m => { m with
          roleRun := if t.gotActive then 0 else if t.laneGot || t.lvdsGot then m.roleRun + 1 else m.roleRun
          laneGot := false, lvdsGot := false, gotActive := false },
        twinStep grant,
        doWhen (fun e => e.tstate == 4 && e.timeNear && !e.x.twin.admitSent)
          (seq [admitPost, twinUpd fun m => { m with admitSent := true }]),
        shedSync]),
    escalDo]

/-! ### Output signatures (R409, R410, R414) -/

/-- The destinations of an OTG that its monitor measured for the frame that has just ended. -/
def Dev.sigEntries (d : Dev) (n : Nat) : List SigEntry :=
  ((List.range 1024).filter fun q => d.fld (F.DST_CTRL_otg q) == n && d.on (dstFn q) && d.flag (F.DMON_STATUS_monitoring q) &&
    (d.rd (R.DMON_SEQ q) + 1) % 2 ^ 32 == d.rd (R.OTG_FRAME_LO n)).map fun q =>
    { dest := q, inputDiff := (d.dmonm q).diff, digest := d.rd (R.DMON_DIGEST q), shown := d.rd (R.DST_SHOWN_SEQ q) }

/-- Compares an own entry with the twin's (R409): 0 match, 1 INPUT, 2 DECISION, 3 PATH. -/
def sigClass (own far : SigEntry) : Nat :=
  if own.digest = far.digest then 0 else if own.shown ≠ far.shown then 2 else if own.inputDiff || far.inputDiff then 1 else 3

/-- One destination's comparison (R409, R410). -/
def sigCompare (own far : SigEntry) : Prog :=
  .read fun d =>
    let q := own.dest
    let c := sigClass own far
    let limit := d.fld F.TWIN_SIG_CTRL_div_frames
    let run := if 2 ≤ c then min (d.fld (F.TWIN_SIG_run q) + 1) 0xFFFF else 0
    let good := if c = 0 then KV.get 0 d.x.twin.good q + 1 else 0
    doIf (!d.flag (F.TWIN_SIG_exclude q)) (seq [
      wr (R.TWIN_SIG_FAR q) far.digest, setF (F.TWIN_SIG_run q) run,
      twinUpd fun t => { t with good := KV.set 0 t.good q good, disagree := t.disagree || decide (2 ≤ c) },
      doIf (c ≠ 0) (seq [inc R.TWIN_CNT_SIG_MISMATCH, setF (F.TWIN_SIG_cause q) c]),
      doIf (c == 1) (raise F.TWIN_ALARM_input_diverged),
      doIf (decide (2 ≤ c) && decide (limit ≤ run))
        (seq [setF (F.TWIN_SIG_diverged q) 1, raise F.TWIN_ALARM_diverged]),
      doIf (decide (limit ≤ good)) (setF (F.TWIN_SIG_diverged q) 0)])

/-- Entries that have found their partner are compared and go; entries 8 frames old go uncompared. -/
def sigMatch : Prog :=
  .read fun d =>
    let t := d.x.twin
    let partner := fun (a b : SigMem) => a.otg == b.otg && a.frame == b.frame && a.e.dest == b.e.dest
    let pairs := t.ownSigs.filterMap fun a => (t.farSigs.find? (partner a)).map fun b => (a.e, b.e)
    let fresh := fun (l other : List SigMem) => l.filter fun a =>
      !(other.any (partner a)) && decide ((d.rd (R.OTG_FRAME_LO a.otg) + 2 ^ 32 - a.frame) % 2 ^ 32 < 8)
    seq [each pairs fun p => sigCompare p.1 p.2,
      twinUpd fun t => { t with ownSigs := fresh t.ownSigs t.farSigs, farSigs := fresh t.farSigs t.ownSigs }]

/-- A destination that stays DIVERGED for drop_frames frames of its OTG drops a standby (R402, R410). -/
def sigDrop (n : Nat) : Prog :=
  .read fun d => each ((List.range 1024).filter fun q => d.fld (F.DST_CTRL_otg q) == n &&
      (d.flag (F.TWIN_SIG_diverged q) || KV.get 0 d.x.twin.badFor q ≠ 0)) fun q => .read fun d =>
    let k := if d.flag (F.TWIN_SIG_diverged q) then KV.get 0 d.x.twin.badFor q + 1 else 0
    seq [twinUpd fun t => { t with badFor := KV.set 0 t.badFor q k },
      doIf (decide (d.fld F.TWIN_SIG_CTRL_drop_frames ≤ k) && k ≠ 0) lockstepLost]

/-- Bytes of a SIGNATURE message (R400). -/
def sigBytes (m : SigMsg) : List Byte :=
  leBytes 4 (m.otg % 32 + m.entries.length % 2 ^ 11 * 2 ^ 16) ++ leBytes 4 m.frame ++
  m.entries.flatMap fun e => leBytes 4 (e.dest % 1024 + boolBit e.inputDiff * 2 ^ 31) ++ leBytes 4 e.digest ++ leBytes 4 e.shown

/-- At each boundary of an OTG a paired unit sends its SIGNATURE. -/
def sigTx (n : Nat) : Prog :=
  doWhen (fun d => d.on .twin && d.tstate ≠ 0 && d.tstate ≠ 1 && d.on (.otg (Fin.ofNat 32 n))) (.read fun d =>
    let es := d.sigEntries n
    let m : SigMsg := { otg := n, frame := d.rd (R.OTG_FRAME_LO n), entries := es }
    seq [twinUpd fun t => { t with ownSigs := t.ownSigs ++ es.map fun e => ⟨n, m.frame, e⟩ },
      twinPost 3 (sigBytes m), sigMatch, sigDrop n])

/-- A SIGNATURE message (R409); one of the reference OTG judges a frame of admission (R414). -/
def sigRx (m : SigMsg) : Prog :=
  seq [twinTake 3,
    doWhen (fun d => d.on .twin && d.tstate ≠ 0 && d.tstate ≠ 1) (.read fun d => seq [
      twinUpd fun t => { t with farSigs := t.farSigs ++ m.entries.map fun e => ⟨m.otg, m.frame, e⟩ },
      sigMatch,
      doIf (m.otg == d.fld F.TWIN_SIG_CTRL_ref_otg) (.read fun e => seq [
        doIf (e.tstate == 5) (wr R.TWIN_ADMIT_COUNT (if e.x.twin.disagree then 0 else min (e.rd R.TWIN_ADMIT_COUNT + 1) 0xFFFF)),
        twinUpd fun t => { t with disagree := false }])])]

/-! ### Admission (R412, R413) -/

/-- The first check of R413 that fails, 0 where all pass. House time is the standby's to check. -/
def Dev.admitRefusal (d : Dev) (m : AdmitMsg) : Nat :=
  if m.es ≠ (d.fld F.GLB_ID_grade == 1) then 1
  else if m.compat ≠ d.rd R.TWIN_COMPAT then 2
  else if m.gen ≠ d.rd R.TWIN_CFG_GEN then 3
  else if m.unit = d.fld F.TWIN_CTRL_unit then 4
  else if (List.range 96).any fun l => d.hlkTwin l && d.on (hlkFn l) && d.rd (R.HLK_FAR_ID l) ≠ d.rd (R.HLK_PAIR_ID l) then 5
  else if d.standbyUnit && !d.timeNear then 6
  else 0

/-- The checks of R413 are made with the twin's ADMIT; `pass` follows where all pass. -/
def admitCheck (pass : Prog) : Prog :=
  .read fun d => match d.x.twin.farAdmit with
    | none => .nop
    | some m =>
      let r := d.admitRefusal m
      seq [setF F.TWIN_STATUS_refuse_reason r, if r = 0 then pass else raise F.TWIN_ALARM_admit_refused]

/-- Every configured ingress channel holds its depth of complete frames with mirrored records (R412). -/
def Dev.hogsFull (d : Dev) : Bool :=
  (List.range 1024).all fun n => !d.flag (F.SRC_CTRL_enable n) ||
    decide (d.fld (F.SRC_CTRL_depth n) ≤ ((d.store n).frames.filter fun f => f.phase == .complete && f.matched).length)

/-- Resync is complete and admission has passed (R402, R412). -/
def resyncComplete : Prog :=
  doWhen (fun d => d.on .twin && d.tstate == 4 && d.x.twin.applied && d.timeNear && d.hogsFull) (admitCheck (twinGo 5))

/-! ### The twin function's life (R396, R420) -/

/-- The twin function reaches ON. -/
def twinStarted : Prog := seq [twinUpd fun t => { peckSeq := t.peckSeq, peckStale := t.peckStale, txSeq := t.txSeq },
  setF F.TWIN_PECK_lane_miss 0, setF F.TWIN_PECK_lvds_miss 0, twinGo 1]

/-- The twin function stops, or is OFF: the unit is unpaired (R402). -/
def twinStopped : Prog := doWhen (fun d => d.tstate ≠ 0) (seq [handoverEnds, twinGo 0, escalDo])

/-- The twin function enters FAULT (R420): a standby leaves lockstep, an active behaves as ACTIVE_ALONE. -/
def twinFaulted : Prog := seq [lockstepLost, doWhen (fun d => d.tstate == 3) (twinGo 2), escalDo]

/-- A twin function with no TWIN lane configured enters FAULT with NO_LANE (R396). -/
def Dev.twinConfigFault (d : Dev) : Option Nat :=
  if (List.range 96).any fun l => d.hlkTwin l && d.flag (F.HLK_CTRL_enable l) then none else some 0x01

/-! ### Commands and rows -/

/-- HEALTH_SWAP (R417). -/
def healthSwapSpec : CmdSpec where
  opcode := 0x0B00
  prog := fun o => .read fun d =>
    if d.x.twin.swap.isSome then reject o.id Reason.swapPending
    else if d.tstate ≠ 3 then reject o.id Reason.noStandby
    else swapStart (some o.id)

/-- A SWAP message (R417). -/
def swapRx (op reason frame : Nat) : Prog :=
  seq [twinTake 6, doWhen (fun d => d.on .twin) (.read fun d =>
    match op, d.x.twin.swap with
    | 0, none =>
      if d.tstate ≠ 6 then swapPost 2 2 frame
      else if d.rd R.PWR_REPLACE ≠ 0 ∨ 4 ≤ d.fld F.PWR_STATUS_stage then swapPost 2 1 frame
      else seq [twinUpd fun t => { t with swap := some { frame := frame, agreed := true } }, setF F.TWIN_STATUS_swap_pending 1,
        set64 R.TWIN_SWAP_FRAME_LO R.TWIN_SWAP_FRAME_HI frame, swapPost 1 0 frame]
    | 0, some _ => swapPost 2 2 frame
    | 1, some w => doIf (w.mine && w.frame == frame) (twinUpd fun t => { t with swap := some { w with agreed := true } })
    | _, some w => doIf (w.mine && w.frame == frame && decide (reason < 256)) swapAbandon
    | _, none => .nop)]

/-- At B_k both units exchange roles (R417); a HANDOVER's former active then rewrites its header and warm-resets (R482). -/
def swapBoundary : Prog :=
  .read fun d => match d.x.twin.swap with
    | some w => doIf (w.agreed && (d.tstate == 3 || d.tstate == 6)) (seq [
        swapClear, twinUpd fun t => { t with swapAt := d.x.time.ht },
        twinGo (if d.tstate = 3 then 6 else 3), raise F.TWIN_ALARM_swap_done, inc R.TWIN_CNT_SWAP,
        each w.id.toList fun id => finish id 0 [],
        doIf (w.mine && d.x.boot.upd.stage == 3) (seq [
          each d.x.boot.upd.actId.toList fun id => finish id 0 [],
          updUpd fun u => { u with state := 0, stage := 0, actId := none }, hdrActivate true, warmReset 4])])
    | none => .nop

/-- TWIN_PECK_TX (R398). -/
def execTwinPeckTx (s : State) : Host.Outcome State Fault Refusal := perform .island peckTx s

/-- TWIN_PECK_RX (R397, R256): lanes take pecks in RX_UP, and in RX_FEC with FEC on. -/
def execTwinPeckRx (path : Option LaneId) (p : Peck) (s : State) : Host.Outcome State Fault Refusal :=
  perform .core (match path with
    | none => peckRx true p
    | some l => doWhen (fun d => d.hlkTwin l && d.on (.hlk l) && (d.rxState l == 4 || (d.rxState l == 3 && d.hlkFec l)))
        (seq [inc (R.HLK_CNT_PECK_RX l), peckRx false p])) s

/-- TWIN_MISS_EVAL (R398, R402). -/
def execTwinMissEval (grant : Bool) (s : State) : Host.Outcome State Fault Refusal := perform .core (missEval grant) s

/-- ROLE_ACTIVE_PECK_TIMEOUT (R399). -/
def execRoleActivePeckTimeout (s : State) : Host.Outcome State Fault Refusal :=
  perform .island (seq [twinUpd fun t => { t with peckStale := true }, roleSync]) s

/-- TWIN_SEEK_TIMEOUT (R402). -/
def execTwinSeekTimeout (grant : Bool) (s : State) : Host.Outcome State Fault Refusal :=
  perform .core (doWhen (fun d => d.on .twin && d.tstate == 1 && grant) (twinGo 2)) s

/-- TWIN_SIGNATURE_TX (R409). -/
def execTwinSignatureTx (n : OtgId) (s : State) : Host.Outcome State Fault Refusal := perform .core (sigTx n) s

/-- TWIN_SIGNATURE_MSG (R409). -/
def execTwinSignatureMsg (m : SigMsg) (s : State) : Host.Outcome State Fault Refusal := perform .core (sigRx m) s

/-- TWIN_SHED_MSG (R408). -/
def execTwinShedMsg (stage : Nat) (frame : Nat) (s : State) : Host.Outcome State Fault Refusal :=
  perform .core (seq [twinTake 5, doWhen (fun d => d.on .twin && d.standbyUnit) (shedPlan (stage % 8) frame)]) s

/-- TWIN_SWAP_MSG (R417). -/
def execTwinSwapMsg (op : Nat) (reason : Nat) (frame : Nat) (s : State) : Host.Outcome State Fault Refusal :=
  perform .core (swapRx op reason frame) s

/-- TWIN_RESYNC_COMPLETE (R412). -/
def execTwinResyncComplete (s : State) : Host.Outcome State Fault Refusal := perform .core resyncComplete s

/-- ADMIT_AGREEMENT (R414). -/
def execAdmitAgreement (s : State) : Host.Outcome State Fault Refusal :=
  perform .core (doWhen (fun d => d.on .twin && d.tstate == 5 && decide (d.fld F.TWIN_ADMIT_frames ≤ d.rd R.TWIN_ADMIT_COUNT))
    (twinGo 6)) s

/-- HEALTH_SWAP (R417). -/
def execHealthSwap (h : Hdr) (s : State) : Host.Outcome State Fault Refusal :=
  perform .core (rygus h .healthSwap healthSwapSpec) s

/-- TWIN_SWAP_BOUNDARY (R417). -/
def execTwinSwapBoundary (s : State) : Host.Outcome State Fault Refusal := perform .core swapBoundary s

/-- TWIN_SWAP_TIMEOUT (R417). -/
def execTwinSwapTimeout (s : State) : Host.Outcome State Fault Refusal :=
  perform .core (.read fun d => match d.x.twin.swap with
    | some w => doIf (w.mine && !w.agreed) swapAbandon
    | none => .nop) s

/-- What a write of 1 to TWIN_CNT_CLEAR clears (R421). -/
def twinCntClear : Prog :=
  clearRegs [R.TWIN_CNT_FAILOVER, R.TWIN_CNT_SWAP, R.TWIN_CNT_LANE_MISS, R.TWIN_CNT_LVDS_MISS,
  R.TWIN_CNT_SIG_MISMATCH, R.TWIN_CNT_DECISION_LOCAL, R.TWIN_CNT_DECISION_DIFFER, R.TWIN_CNT_COMMIT_LATE,
  R.TWIN_CNT_RESYNC]

/-- TWIN_CNT_CLEAR (R421). -/
def execTwinCntClear (s : State) : Host.Outcome State Fault Refusal := perform .core twinCntClear s

end Sys2Proof.Machine
end

