-- ==== Sys2Proof/Machine/Wake.lean ====
section
/-!
DEFINITION. What each function does as it passes through the states of R28: the faults its configuration gives it in
WAKING, what it waits for, and what follows when it wakes, runs, leaves ON, faults or rests.
-/

namespace Sys2Proof.Machine

/-! ### What WAKING finds (R69, R98, R137, R163, R193, R225, R243, R281, R296, R316, R348, R396) -/

/-- A Holtut link is absent or in FAULT. -/
def Dev.linkAbsent (d : Dev) (l : Nat) : Bool :=
  decide (96 ≤ l) || d.lanePers l ≠ 1 || d.fst (hlkFn l) == .fault

/-- An SDI lane, or a lane of the quad-link group it names, is absent or in FAULT. -/
def Dev.sdiAbsent (d : Dev) (l : Nat) : Bool :=
  decide (96 ≤ l) || (if d.sdiQuad l then (List.range 4).map (l / 4 * 4 + ·) else [l]).any fun k =>
    d.lanePers k ≠ 3 || d.fst (sdiFn k) == .fault || d.fst (laneFn k) == .fault

/-- The input a source names is absent or in FAULT (R98). -/
def Dev.inputLost (d : Dev) (n : Nat) : Bool :=
  let id := d.fld (F.SRC_INPUT_id n)
  match d.fld (F.SRC_CTRL_transport n) with
  | 0 => d.linkAbsent (id / 64)
  | 1 => decide (8192 ≤ id) || d.fld (F.FLOW_RX_CTRL_kind id) ≠ 0 || d.fst (flowRxFn id) == .fault
  | 2 => d.sdiAbsent id
  | _ => true

/-- The outputs a destination claims (R138), each as its transport and number. -/
def Dev.claims (d : Dev) (n : Nat) : List (Nat × Nat) :=
  let id := d.fld (F.DST_OUTPUT_id n)
  let t := d.fld (F.DST_CTRL_transport n)
  if t = 2 ∧ id < 96 ∧ id % 4 = 0 ∧ d.sdiQuad id then (List.range 4).map fun k => (2, id + k) else [(t, id)]

/-- A lower-numbered enabled destination claims an output of this one (R138). -/
def Dev.claimLost (d : Dev) (n : Nat) : Bool :=
  (d.keysOf .DST_CTRL).any fun m => decide (m < n) && d.flag (F.DST_CTRL_enable m) &&
    (d.claims m).any fun c => (d.claims n).contains c

/-- The output a destination names is absent or in FAULT, or another destination keeps it (R137, R138). -/
def Dev.outputLost (d : Dev) (n : Nat) : Bool :=
  let id := d.fld (F.DST_OUTPUT_id n)
  d.claimLost n ||
  match d.fld (F.DST_CTRL_transport n) with
  | 0 => d.linkAbsent (id / 64)
  | 1 => decide (8192 ≤ id) || d.fld (F.FLOW_TX_CTRL_kind id) ≠ (if d.flag (F.DST_CTRL_opaque n) then 3 else 0) ||
      d.fst (flowTxFn id) == .fault
  | 2 => d.sdiAbsent id
  | _ => true

/-- A destination's transport carries its format, sampling and depth (R301, R543). -/
def Dev.dstCarried (d : Dev) (n : Nat) : Bool :=
  let f := d.dstFormat n
  let s := d.fld (F.DST_CTRL_out_sampling n)
  let dep := d.fld (F.DST_CTRL_out_depth n)
  let id := d.fld (F.DST_OUTPUT_id n)
  let quad := d.flag (F.DST_CTRL_quad_member n)
  match d.fld (F.DST_CTRL_transport n) with
  | 0 => decide (s ≤ 4) && ingressFormat 0 quad { format := f, sampling := s, depth := dep }
  | 1 =>
    if d.flag (F.DST_CTRL_opaque n) then fmtLegal f
    else decide (s ≤ 2) && ingressFormat 1 quad { format := f, sampling := s, depth := dep }
  | 2 =>
    match sdiRow f s dep (d.sdiQuad id) (d.fld (F.SDI_CTRL_tx_mapping id) == 1) with
    | some row => row.lane (fmtRate f) == d.laneRate id
    | none => false
  | _ => false

/-- The area that the audio matrix's delay lines take in HBM (R225). -/
def audArea : Nat := 0x3000

/-- What a function reserves as it wakes: hogsheads, stores and delay lines (R75, R98, R163, R193, R225). -/
def fnReserve : Fn → Prog
  | .src n => srcAllocate n
  | .prc n => .read fun d => match (d.prcm n).cfg with | some c => procAlloc n c | none => .nop
  | .mvh n => mvhAlloc n
  | .aud => .read fun d =>
    if d.x.areas.any fun a => a.1 == audArea then .nop
    else match d.place (roundUp d.grain Config.audioStore) with
      | some b => ext fun x => { x with areas := x.areas ++ [(audArea, (b, roundUp d.grain Config.audioStore))] }
      | none => .nop
  | _ => .nop

/-- The fault that the configuration gives a function in WAKING. -/
def Dev.fnConfigFault (d : Dev) : Fn → Option Nat
  | .tb n => if d.fld (F.TB_CTRL_mode n) ≠ 0 ∧ !((List.range 97).any fun m => d.fld (F.PORT_PTP_CTRL_tb m) == n.val + 1) then some 1 else none
  | .otg n => d.otgConfigFault n
  | .src n => if !(d.store n).alloc then some 1 else if d.inputLost n then some 4 else none
  | .dst n => if !d.dstCarried n then some 1 else if d.outputLost n then some 4 else none
  | .prc n => match (d.prcm n).cfg with
    | some c => if d.procAllocated n c then none else some 3
    | none => none
  | .mvh n => if !mvhFormatOk (d.mvhFormat n) then some 1 else if !(d.store (headCode n)).alloc then some 4 else none
  | .aud => if d.x.areas.any fun a => a.1 == audArea then none else some 3
  | .sap _ => if d.on .aud then none else some 2
  | .hlk n => d.hlkConfigFault n
  | .lane n => d.laneConfigFault n
  | .quad n => d.quadConfigFault n
  | .sdi n => d.sdiConfigFault n
  | .mac n => d.macConfigFault n
  | .flowRx n => d.portsFault (d.rxPorts n)
  | .flowTx n => d.portsFault (d.txPorts n)
  | .hbm => if d.mapLegal then none else some 2
  | .twin => d.twinConfigFault
  | .dpll | .hbmCh _ | .mtx | .ring _ | .boot | .pwr => none

/-- What a function waits for at the end of WAKING (R136, R347). -/
def Dev.fnMustWait (d : Dev) : Fn → Bool
  | .dst n => !d.on (otgFn (d.fld (F.DST_CTRL_otg n)))
  | .flowRx n => d.portsWait (d.rxPorts n)
  | .flowTx n => d.portsWait (d.txPorts n)
  | _ => false

/-! ### What follows a change of state -/

/-- A function's registers and buffers as it enters WAKING: it is initialised afresh from its configuration. -/
def fnWaking : Fn → Prog
  | .otg n => otgLatch n
  | .src n => srcFresh n
  | .lane n => laneWaking n
  | .hbmCh n => hbmChClear n
  | .ring n => seq [
      clearRegs [R.CMD_RING_SQ_HEAD n, R.CMD_RING_CQ_TAIL n], setF (F.CMD_RING_CQ_TAIL_phase n) 1,
      ringUpd n fun m => { reserved := m.reserved }]
  | _ => .nop

/-- A function reaches ON. -/
def fnStarted : Fn → Prog
  | .src n => srcStopped n
  | .aud => setF F.AUD_STATUS_running 1
  | .lane n => laneStarted n
  | .hlk n => hlkStarted n
  | .mac n => gateStatus n
  | .dst n => doWhen (fun d => !d.on (otgFn (d.fld (F.DST_CTRL_otg n)))) (flyStart n)
  | .hbmCh _ => hbmChannels
  | .twin => twinStarted
  | .quad q => .read fun d => seq [setF (F.QUAD_STATUS_refclk_ok q) 1,
      setB (F.QUAD_STATUS_pll_a_lock q) (d.pllGroup q 0 ≠ 0), setB (F.QUAD_STATUS_pll_b_lock q) (d.pllGroup q 1 ≠ 0)]
  | _ => .nop

/-- A function leaves ON. -/
def fnLeft : Fn → Prog
  | .src n => srcLeft n
  | .prc n => procStopped n
  | .mvh n => mvhStopped n
  | .dst n => dstStopped n
  | .aud => audStopped
  | .sap n => sapStopped n
  | .lane n => laneStopped n
  | .hlk n => hlkStopped n
  | .sdi n => sdiStopped n
  | .mac n => macStopped n
  | .flowRx n => flowRxStopped n
  | .flowTx n => flowTxStopped n
  | .otg n => otgLost n
  | .tb n => servoLock n false
  | .twin => doWhen (fun d => d.fst .twin ≠ .fault) twinStopped
  | .ring n => .read fun d => doIf ((d.ringm n).fetching.isSome)
      (ringUpd n fun m => { m with fetching := none, reserved := m.reserved - 2 })
  | .quad q => seq [setF (F.QUAD_STATUS_pll_a_lock q) 0, setF (F.QUAD_STATUS_pll_b_lock q) 0]
  | _ => .nop

/-- A function enters FAULT. -/
def fnFaulted : Fn → Prog
  | .otg _ => raise F.TIME_IRQ_STATUS_otg_fault
  | .sap n => doWhen (fun d => (d.fw (.sap n)).code == 1) (raise (F.SAP_ALARM_ue n))
  | .boot => doWhen (fun d => (d.fw .boot).code == 2) (replaceSet 8)
  | .hbmCh _ => fnFault .hbm 1
  | .twin => twinFaulted
  | .ring _ => raise F.CMD_ALARM_ring_fault
  | _ => .nop

/-- A function leaves FAULT: FAULT_NO_TWIN goes with the last function that held it (R35, R509). -/
def fnUnfaulted (f : Fn) : Prog :=
  seq [pwrUpd fun m => { m with noTwin := m.noTwin.filter fun e => e ≠ (fnBlock f, fnInst f) },
    doWhen (fun d => d.x.pwr.noTwin.isEmpty && bitOf (d.rd R.PWR_REPLACE) 6) (replaceClear 6)]

/-- A function reaches OFF. -/
def fnRests : Fn → Prog
  | .prc n => procOff n
  | .lane n => .read fun d => setB (F.LANE_STATUS_asleep n) (d.fw (.lane n)).asleep
  | _ => .nop

/-- What follows a function's passage from one state to another. -/
def fnFollow (f : Fn) (was : FState) : Prog :=
  .read fun e =>
    let now := e.fst f
    if now == was then .nop
    else seq [
      doIf (was == .fault) (fnUnfaulted f),
      doIf (was == .on) (fnLeft f),
      match now with
      | .waking => fnWaking f
      | .on => fnStarted f
      | .fault => fnFaulted f
      | .off => fnRests f
      | .stopping => seq [fnStreamsDrain f, match f with
          | .ring n => intakeEnd n
          | .dpll => dpllReinit
          | _ => .nop]]

/-- A script that may change a function's state, with what follows. -/
def fnStep (f : Fn) (p : Prog) : Prog := .read fun d => seq [p, fnFollow f (d.fst f)]

/-- A function enters FAULT with a code, where it is enabled. -/
def fnCut (f : Fn) (code : Nat) : Prog := doWhen (fun d => d.enabled f) (fnStep f (fnFault f code))

/-- What a function's FAULT does to the functions that name it: sources and destinations lose their binding (R98, R137,
R316). -/
def bindLost (src : Dev → List Nat) (dst : Dev → List Nat) : Prog :=
  .read fun d => seq [
    each (src d) fun n => doIf (d.on (.src (Fin.ofNat 1024 n))) (fnCut (.src (Fin.ofNat 1024 n)) 4),
    each (dst d) fun n => doIf (d.on (dstFn n)) (fnCut (dstFn n) 4)]

/-- The enabled sources of a transport whose input a test names, and the destinations of one whose output it names. -/
def Dev.srcsOf (d : Dev) (t : Nat) (p : Nat → Bool) : List Nat :=
  (d.keysOf .SRC_CTRL).filter fun n => d.fld (F.SRC_CTRL_transport n) == t && p (d.fld (F.SRC_INPUT_id n))
def Dev.dstsOf (d : Dev) (t : Nat) (p : Nat → Bool) : List Nat :=
  (d.keysOf .DST_CTRL).filter fun n => d.fld (F.DST_CTRL_transport n) == t && p (d.fld (F.DST_OUTPUT_id n))

/-- The waiting functions that may run now do so (R136, R347). -/
def fnWaiters (l : List Fn) : Prog :=
  each l fun f => doWhen (fun d => d.fst f == .waking && (d.fnm f).waits && !d.fnMustWait f) (fnStep f (fnWoken f))

/-- A script that may change a flow context's state; a context in FAULT takes its consumers with it. -/
def flowStep (f : Fn) (p : Prog) : Prog :=
  .read fun d => seq [fnStep f p, .read fun e => doIf (d.fst f ≠ .fault && e.fst f == .fault) (
    match f with
    | .flowRx q => bindLost (fun d => d.srcsOf 1 (· == q.val)) (fun _ => [])
    | .flowTx q => bindLost (fun _ => []) (fun d => d.dstsOf 1 (· == q.val))
    | _ => .nop)]

/-- A script that may change the state of a link, an SDI function, a MAC, the audio matrix, a time base or an OTG, with what
it does to the functions that name it: an OTG on a time base that is not ON enters FAULT (R62). -/
def portStep (f : Fn) (p : Prog) : Prog :=
  .read fun d => seq [fnStep f p, .read fun e => seq [
    doIf (d.fst f ≠ .fault && e.fst f == .fault) (
      match f with
      | .hlk l => bindLost (fun d => d.srcsOf 0 (· / 64 == l.val)) (fun d => d.dstsOf 0 (· / 64 == l.val))
      | .sdi l => bindLost (fun d => d.srcsOf 2 fun i => i == d.sdiNamed l) (fun d => d.dstsOf 2 fun i => i == d.sdiNamed l)
      | .mac m => seq [
          each ((e.keysOf .FLOW_RX_CTRL).filter fun q => e.on (flowRxFn q) && (e.rxPorts q).contains m.val)
            fun q => flowStep (flowRxFn q) (fnFault (flowRxFn q) 1),
          each ((e.keysOf .FLOW_TX_CTRL).filter fun q => e.on (flowTxFn q) && (e.txPorts q).contains m.val)
            fun q => flowStep (flowTxFn q) (fnFault (flowTxFn q) 1)]
      | _ => .nop),
    doIf (d.on f && !e.on f) (
      match f with
      | .aud => each (List.finRange 16) fun p => doIf (e.on (.sap p)) (fnCut (.sap p) 2)
      | .tb n => each ((List.finRange 32).filter fun k =>
          (e.fst (.otg k) == .on || e.fst (.otg k) == .waking) && (e.otgm k).src == n.val + 1)
          fun k => fnStep (.otg k) (fnFault (.otg k) 0x02)
      | _ => .nop),
    doIf (!d.on f && e.on f) (
      match f with
      | .mac _ => fnWaiters (((e.keysOf .FLOW_RX_CTRL).map flowRxFn) ++ ((e.keysOf .FLOW_TX_CTRL).map flowTxFn))
      | .otg n => fnWaiters (((e.keysOf .DST_CTRL).filter fun q => e.fld (F.DST_CTRL_otg q) == n.val).map dstFn)
      | _ => .nop)]]

/-- A script that may change a lane's state: a lane in FAULT takes its link, SDI function or MAC with it (R281, R316,
R348). -/
def laneStep_ (f : Fn) (p : Prog) : Prog :=
  .read fun d => seq [fnStep f p, .read fun e => doIf (d.fst f ≠ .fault && e.fst f == .fault) (
    match f with
    | .lane l =>
      match e.lanePers l with
      | 1 => doIf (e.flag (F.HLK_CTRL_enable l)) (portStep (.hlk l) (fnFault (.hlk l) 4))
      | 2 => let m : MacId := Fin.ofNat 97 (e.laneMac l)
        doIf (e.flag (F.MAC_CTRL_enable m)) (portStep (.mac m) (fnFault (.mac m) 3))
      | 3 => doIf (e.flag (F.SDI_CTRL_enable l)) (portStep (.sdi l) (fnFault (.sdi l) 3))
      | _ => .nop
    | _ => .nop)]

/-- A script that may change a quad's state: a quad in FAULT takes its lanes with it (R287, R296). -/
def quadStep (f : Fn) (p : Prog) : Prog :=
  .read fun d => seq [fnStep f p, .read fun e => doIf (d.fst f ≠ .fault && e.fst f == .fault) (
    match f with
    | .quad q => each (List.range 4) fun k =>
        let l : LaneId := Fin.ofNat 96 (4 * q.val + k)
        doIf (e.flag (F.LANE_CTRL_enable l)) (laneStep_ (.lane l) (fnFault (.lane l) 4))
    | _ => .nop)]

/-- A script that may change a function's state, with everything that follows from it. -/
def fnGo (f : Fn) (p : Prog) : Prog :=
  match f with
  | .quad _ => quadStep f p
  | .lane _ => laneStep_ f p
  | .hlk _ | .sdi _ | .mac _ | .aud | .otg _ | .tb _ => portStep f p
  | .flowRx _ | .flowTx _ => flowStep f p
  | _ => fnStep f p

/-- Firmware sets a function's enable and applies it where it changes (R30). -/
def fnSwitch (f : Fn) (on : Bool) : Prog :=
  .read fun d =>
    let was := d.enabled f
    seq [match fnEnableField f with | some e => setB e on | none => .nop,
      doIf (on && !was) (fnGo f (fnEnable f)), doIf (!on && was) (fnGo f (fnDisable f))]

/-- The end of a function's initialisation in WAKING (R30): it finds a fault, waits, stops or runs. The memory system reaches
ON through its own training. -/
def fnInit (f : Fn) : Prog :=
  doWhen (fun d => d.fst f == .waking && f ≠ .hbm) (seq [
    fnReserve f,
    .read fun d => match d.fnConfigFault f with
      | some c => fnGo f (fnFault f c)
      | none =>
        if d.fnMustWait f then
          (if (d.fw f).pendOff then fnGo f (fnWoken f) else fnMem f fun m => { m with waits := true })
        else fnGo f (fnWoken f)])

/-- A function's drain is complete (R30, R392): its streams are idle. -/
def fnDrain (f : Fn) : Prog :=
  doWhen (fun d => d.fst f == .stopping) (seq [fnStreamsDrain f,
    doWhen (fun d => d.streamsIdle f) (seq [sramSpare f, fnGo f (fnDrained f)])])

end Sys2Proof.Machine
end

