-- ==== Sys2Proof/Machine/Boot.lean ====
section
/-!
DEFINITION. Start-up (17_boot_update.md, R454 to R476): the rails (R493, R528 to R531), the boot ROM's choice, the
firmware, the configuration image, the MRAM records, the links, the reference wait, routing, and trials.
-/

namespace Sys2Proof.Machine

/-! ### The rails (R493, R528, R529, R531) -/

/-- Power-on reset is released: the fuses are read, and the island starts the rails. What the device has blown stays blown. -/
def porstRelease (f : Fuses) : Prog :=
  .read fun d => doIf (!d.x.pwr.awake) (
    let old := d.x.boot.fuses
    let fuses : Fuses :=
      { es := f.es, stepping := f.stepping, die := f.die, vf := max f.vf old.vf, cfgSig := f.cfgSig || old.cfgSig
        keys := (List.range 4).map fun k => match old.keys.getD k none with
          | some x => some x
          | none => f.keys.getD k none
        revoked := (f.revoked ++ old.revoked).eraseDups }
    seq [
      pwrUpd fun m => { m with awake := true },
      bootUpd fun b => { b with fuses := fuses },
      setB F.GLB_ID_grade fuses.es, setF F.GLB_ID_stepping fuses.stepping,
      set64 R.GLB_DIE_ID_LO R.GLB_DIE_ID_HI (fuses.die % 2 ^ 64), setF F.BOOT_SECVER_v_f fuses.vf,
      setF F.BOOT_KEYS_programmed (bitMask ((List.range 4).filter fun k => (fuses.keys.getD k none).isSome)),
      setF F.BOOT_KEYS_revoked (bitMask fuses.revoked), setB F.BOOT_KEYS_cfg_sig_required fuses.cfgSig,
      wr R.BOOT_RESET_CAUSE 0, histAdd 2 18 0 0, fnGo .pwr (fnEnable .pwr), aonStart])

/-- An enable is asserted (R529). -/
def Dev.enabledPin (d : Dev) (n : Nat) : Bool := bitOf (d.fld F.PWR_EN_STATUS_asserted) n

/-- A rail has been in regulation for 100 µs: the next enable follows. The device leaves AON when VDDA_SDS is in regulation. -/
def railGood (n : Nat) : Prog :=
  doWhen (fun d => d.enabledPin n && !bitOf d.x.pwr.regulated n && !d.x.pwr.stopped) (seq [
    pwrUpd fun m => { m with regulated := m.regulated ||| 2 ^ n },
    setB ⟨R.PWR_EN_STATUS, 8 + n, 1⟩ false,
    match n with
    | 0 | 1 | 2 | 4 | 5 => enablePin (n + 1) true
    | 3 => seq [pwrUpd fun m => { m with up := true }, setF F.BOOT_STATUS_phase 1, fnGo .mtx (fnEnable .mtx)]
    | _ => .nop,
    doWhen (fun d => d.x.pwr.regulated == d.fld F.PWR_EN_STATUS_asserted && d.fld F.PWR_EN_STATUS_failed == 0)
      (replaceClear 11)])

/-- A rail has not come into regulation within 10 ms of its enable: start-up stops in its phase. -/
def railBad (n : Nat) : Prog :=
  doWhen (fun d => d.enabledPin n && !bitOf d.x.pwr.regulated n) (seq [
    setB ⟨R.PWR_EN_STATUS, 8 + n, 1⟩ true, replaceSet 11, doIf (n ≠ 7) (pwrUpd fun m => { m with stopped := true })])

/-- A rail other than VDD_CORE leaves its tolerance while the device runs (R528). -/
def railOut (n : Nat) (low : Bool) : Prog :=
  doIf (n ≠ 0) (if low then warmReset 3 else replaceSet 11)

/-! ### The boot ROM (R459, R462) -/

/-- The boot ROM starts an image: slot, cause of a recovery, and whether it has gone back to another slot. -/
def romBoot (slot cause : Nat) (trial reverted : Bool) (cfgSlot : Nat) : Prog :=
  .read fun d =>
    let info : ImageInfo := match d.imgHdr slot with
      | some h => { version := h.version, secver := h.secver, compat := h.compat, formats := h.formats }
      | none => {}
    seq [
      bootUpd fun b => { b with slot := some slot, image := info },
      wr R.BOOT_SLOT_A_VER (d.slotVersion 0 cfgSlot), wr R.BOOT_SLOT_B_VER (d.slotVersion 1 cfgSlot),
      wr R.BOOT_RECOVERY_VER (d.slotVersion 2 cfgSlot),
      setF F.BOOT_STATUS_fw_slot slot, setF F.BOOT_STATUS_recovery_cause cause, setB F.BOOT_STATUS_trial trial,
      setF F.BOOT_STATUS_cfg_slot cfgSlot, doIf reverted (seq [setF F.BOOT_STATUS_reverted 1, raise F.BOOT_ALARM_reverted]),
      setF F.BOOT_STATUS_phase 2, replaceClear 10]

/-- The boot ROM stays in ROM. -/
def romStay : Prog := replaceSet 10

/-- The boot ROM has decided on a slot: it boots it if its image verifies, else the other slot, else recovery. -/
def romTry (slot : Nat) (trial reverted : Bool) (cfgSlot : Nat) : Prog :=
  .read fun d =>
    let other := 1 - slot % 2
    if d.slotVerifies (slot % 2) cfgSlot then romBoot (slot % 2) 0 trial reverted cfgSlot
    else if d.slotVerifies other cfgSlot then
      seq [hdrRewrite fun h => { h with fwSlot := other, trial := false }, romBoot other 0 false true cfgSlot]
    else if d.slotVerifies 2 cfgSlot then romBoot 2 2 false reverted cfgSlot
    else romStay

/-- The choice of R462. -/
def romChoose : Prog :=
  .read fun d =>
    let h := match d.bootHdr with | some (_, h) => h | none => {}
    if h.recovery then (if d.slotVerifies 2 h.cfgSlot then romBoot 2 1 false false h.cfgSlot else romStay)
    else if !h.trial then romTry h.fwSlot false false h.cfgSlot
    else if 3 ≤ h.trialCount then
      seq [hdrRewrite fun k => { k with trial := false, cfgSlot := h.prevCfg, fwSlot := h.prevSlot },
        romTry h.prevSlot false true h.prevCfg]
    else seq [hdrRewrite fun k => { k with trialCount := h.trialCount + 1 }, romTry h.fwSlot true false h.cfgSlot]

/-! ### Tables and commands that start-up applies -/

/-- The meaning of a command that sets routing, tables or configuration; none for the other families. -/
def tableSpec : Cmd → Option CmdSpec
  | .take b => some (takeSpec b)
  | .takeOverlay b => some (overlaySpec b)
  | .chainLoad b => some (chainLoadSpec b)
  | .chainArm b => some (chainArmSpec b)
  | .chainFire b => some (chainFireSpec b)
  | .chainCancel b => some (chainCancelSpec b)
  | .chainQuery c => some (chainQuerySpec c)
  | .hold op b => some (holdSpec op b)
  | .audioMap b => some (audioMapSpec b)
  | .audioBind b => some (audioBindSpec b)
  | .audioGroup b => some (audioGroupSpec b)
  | .audioTone b => some (audioToneSpec b)
  | .audioMonitor b => some (audioMonitorSpec b)
  | .audioQuery b => some (audioQuerySpec b)
  | .audioSap b => some (audioSapSpec b)
  | .surfaceAlloc b => some (surfaceAllocSpec b)
  | .surfaceWrite b => some (surfaceWriteSpec b)
  | .surfacePublish s => some (surfacePublishSpec s)
  | .surfaceFree s => some (surfaceFreeSpec s)
  | .surfaceQuery s => some (surfaceQuerySpec s)
  | .procSet b => some (procSetSpec b)
  | .lutLoad b => some (lutLoadSpec b)
  | .lutFree s => some (lutFreeSpec s)
  | .curveLoad b => some (curveLoadSpec b)
  | .coefLoad b => some (coefLoadSpec b)
  | .procQuery p => some (procQuerySpec p)
  | .mvSet b => some (mvSetSpec b)
  | .mvLayout b => some (mvLayoutSpec b)
  | .mvText b => some (mvTextSpec b)
  | .mvTally b => some (mvTallySpec b)
  | .mvGuard b => some (mvGuardSpec b)
  | .fontSet b => some (fontSetSpec b)
  | .fontLoad b => some (fontLoadSpec b)
  | .mvQuery h => some (mvQuerySpec h)
  | .timeSet b => some (timeSetSpec b)
  | .timeRealign => some timeRealignSpec
  | .timeRef b => some (timeRefSpec b)
  | .timeDpll b => some (timeDpllSpec b)
  | .timeOtg b => some (timeOtgSpec b)
  | .healthSwap => some healthSwapSpec
  | _ => none

/-- An item that start-up does not apply (R474). -/
def restoreDrop : Prog := seq [inc R.BOOT_CNT_RESTORE_DROP, raise F.BOOT_ALARM_restore_drop]

/-- An item passes the checks of the command that would set it, and is applied without a completion (R474); `force` applies
it whatever the checks say. -/
def restoreSpec (c : Cmd) (ctl : Nat) (sp : CmdSpec) (force : Bool) : Prog :=
  .read fun d =>
    let id := d.x.ctl.fresh
    let p := seq [
      ctlUpd fun x => { x with
        nextId := id + 1
        cmds := x.cmds ++ [{ id := id, hdr := none, controller := ctl, seq := 0, opcode := sp.opcode, state := .accepted
                             received := d.x.time.clk, reserved := 0 }] },
      sp.prog { id := id, controller := ctl, seq := 0, mirrored := force, cmd := c, instant := d.x.time.ht }]
    if !sp.ok || (p.run d).rd R.CMD_CNT_REJECTED ≠ d.rd R.CMD_CNT_REJECTED then restoreDrop else seq [p, dropCmd id]

/-- A command that start-up applies. -/
def restoreCmd (c : Cmd) (ctl : Nat) : Prog :=
  match tableSpec c with
  | some sp => restoreSpec c ctl sp false
  | none => restoreDrop

/-! ### The configuration image (R468, R469, R475) -/

/-- The bits of a register that configuration sets: those the host may write, and those firmware writes. -/
def cfgMask (k : RK) : Nat := (regInfo k).rw ||| (regInfo k).fw

/-- Registers whose values land through their own commands, and not from the REGISTERS section. -/
def landingReg (k : RK) : Bool :=
  (match k with
    | .DST_TAKE | .DST_BREAK | .DST_OVL_CTRL | .DST_OVL_POS => true
    | _ => false) ||
  (let b := (regInfo k).base
   (decide (0xA00000 ≤ b) && decide (b < 0xB80000) && (regInfo k).fw ≠ 0))

/-- A configuration word takes the bits of a value that configuration sets. -/
def cfgWord (r : Reg) (v : Nat) : Prog :=
  let m := cfgMask r.kind
  doIf (!landingReg r.kind) (seq [
    doIf (r.kind == .AUD_CTRL) (audRate (bitOf v 4)),
    .read fun e => wr r (e.rd r - (e.rd r &&& m) + (v &&& m))])

/-- The slot that the configuration comes from (R469): cfg_slot's, else the other; none where neither verifies. -/
def Dev.cfgChoice (d : Dev) : Option Nat :=
  let s := d.fld F.BOOT_STATUS_cfg_slot
  if (d.imageFault (3 + s) 3 none none).isNone then some s
  else if (d.imageFault (4 - s) 3 none none).isNone then some (1 - s) else none

/-- The image of a configuration slot, with what its sections say. -/
def Dev.cfgImage (d : Dev) (s : Nat) : Option (ImgHdr × CfgSections) :=
  (d.imgHdr (3 + s)).map fun h => (h, Config.sections (d.imgBytes (3 + s) h))

/-- The training results, remaps and spares that MRAM holds come into force (R368, R371, R374). -/
def restoreTraining : Prog :=
  .read fun d => each d.x.boot.mram fun e =>
    match e.1.kind, e.2 with
    | .training, .words l =>
      if e.1.index = 0 then
        hbmUpd fun h => { h with trainedTemp := (l.drop 1).zipIdx.foldl (fun m t => KV.set 0 m t.2 t.1) [] }
      else if e.1.index < 0x200000 then
        hbmUpd fun h => { h with remap := h.remap ++ (List.range (l.length / 3)).map fun i =>
          (({ pc := e.1.index - 0x100000, bank := l.getD (3 * i) 0, row := l.getD (3 * i + 1) 0 } : HbmRow), l.getD (3 * i + 2) 0) }
      else let k := (e.1.index - 0x200000) / 512
        .read fun c => setF (F.HBM_FK_STATUS_spares k) (c.fld (F.HBM_FK_STATUS_spares k) + 1)
    | _, _ => .nop

/-- The firmware components are loaded (R454, R467): the endpoint is enabled; a recovery image runs without routing; a firmware
image applies the MEMORY section, indexes the MRAM log and raises the HBM rails. -/
def firmwareLoaded : Prog :=
  doWhen (fun d => d.fld F.BOOT_STATUS_phase == 2) (.read fun d =>
    let i := d.x.boot.image
    seq [
      wr R.GLB_FW_VERSION i.version, wr R.TWIN_COMPAT i.compat, wr R.BOOT_FORMATS i.formats,
      setF F.BOOT_SECVER_secver i.secver, ctlUpd fun c => { c with endpoint := true },
      fnGo .boot (fnEnable .boot), updSync,
      if d.x.boot.slot = some 2 then setF F.BOOT_STATUS_phase 9
      else seq [
        match d.cfgChoice.bind d.cfgImage with
        | some (_, s) => each s.memory fun e => match regAt e.1 with | some r => cfgWord r e.2 | none => .nop
        | none => .nop,
        setF F.BOOT_MRAM_STATUS_store_format (d.storeFormat.getD 0), setF F.BOOT_MRAM_STATUS_free_pages d.x.boot.pagesFree,
        setF F.BOOT_MRAM_STATUS_w_ms 1, wr R.BOOT_MRAM_WEAR (ceilDiv d.x.boot.pagesEver 32760 / 1000),
        wr R.HBM_PLAN_LIMIT 3067100, restoreTraining, enablePin 4 true,
        setF F.HBM_CTRL_enable 1, fnGo .hbm (fnEnable .hbm),
        each (List.finRange 64) fun c => doWhen (fun d => d.flag (F.HBM_CH_CTRL_enable c)) (fnGo (.hbmCh c) (fnEnable (.hbmCh c))),
        setF F.BOOT_STATUS_phase 3]])

/-- Defaults are taken (R475). -/
def cfgDefaulted (reason : Nat) : Prog :=
  seq [setF F.GLB_STATUS_config_defaulted 1, setF F.BOOT_STATUS_default_reason reason, raise F.BOOT_ALARM_config_defaulted]

/-- The whole of a configuration image comes into force (R468). -/
def cfgWhole (slot : Nat) (h : ImgHdr) (s : CfgSections) : Prog :=
  seq [
    bootUpd fun b => { b with cfg := some s, cfgReset := h.resetState },
    setF F.BOOT_STATUS_cfg_slot slot, setB F.BOOT_STATUS_cfg_signed h.signed,
    setF F.BOOT_CFG_INFO_generation (h.version % 2 ^ 16), setF F.BOOT_CFG_INFO_format (h.formats % 256),
    wr R.TWIN_CFG_GEN (h.version % 2 ^ 16),
    each s.registers fun e => match instReg e.1 e.2.1 e.2.2.1 with | some r => cfgWord r e.2.2.2 | none => .nop,
    each s.flowAddr fun e => match regAt (0x1300000 + 4 * e.1) with
      | some r => if e.1 < 131072 then cfgWord r e.2 else .nop
      | none => .nop,
    wr R.BOOT_TRICKLE_CTRL s.policy.trickle,
    each s.luts fun b => restoreCmd (.lutLoad b) 0, each s.curves fun b => restoreCmd (.curveLoad b) 0,
    each s.coefs fun b => restoreCmd (.coefLoad b) 0, each s.fonts fun b => restoreCmd (.fontSet b) 0,
    each s.glyphs fun b => restoreCmd (.fontLoad b) 0,
    each s.surfaces fun e => seq [restoreCmd (.surfaceAlloc e.1) 0,
      restoreCmd (.surfaceWrite { id := e.1.id, offset := 0, data := e.2 }) 0, restoreCmd (.surfacePublish e.1.id) 0],
    planUpdate]

/-- The configuration is verified and applied, or defaults are taken (R469, R475). -/
def configApply : Prog :=
  doWhen (fun d => d.fld F.BOOT_STATUS_phase == 4) (.read fun d => seq [
    match d.cfgChoice with
    | none => cfgDefaulted 3
    | some slot => match d.cfgImage slot with
      | none => cfgDefaulted 3
      | some (h, s) =>
        let f := h.formats % 256
        if formatIn d.x.boot.image.formats 16 f then cfgWhole slot h s
        else seq [cfgDefaulted (if f < bitsOf d.x.boot.image.formats 16 8 then 1 else 2),
          bootUpd fun b => { b with cfg := some { keys := s.keys, park := s.park } }],
    setF F.BOOT_STATUS_phase 5])

/-! ### The MRAM records (R470 to R475) -/

/-- The code a destination takes where its route fails (R474): its PARK_MAP code, or PARK. -/
def Dev.parkCode (d : Dev) (n : Nat) : Nat :=
  let c := match d.x.boot.cfg with
    | some s => match s.park with | some l => l.getD n 0xFFF | none => 0xFFF
    | none => 0xFFF
  if (d.takeStatic { controller := 0, dest := n, video := true, source := c } 0).isNone then c else 0xFFF

/-- Every destination is put on its PARK_MAP code if the section's CRC holds and every code is assigned, on PARK otherwise. -/
def parkAll : Prog :=
  .read fun d =>
    let l : List Nat := match d.x.boot.cfg with | some s => s.park.getD [] | none => []
    let ok : Bool := l.length == 1024 && (l.all fun c => decide (c < 0x1000) && codeClass c ≠ .unassigned)
    each (List.range 1024) fun n =>
      seq [setF (F.DST_CUR_VIDEO_source n) (if ok then l.getD n 0xFFF else 0xFFF), xptSave n]

/-- A destination's record (R99): each part that fails its check is dropped; a failing video route takes its PARK_MAP code; line
mode waits under R21 (R94). -/
def restoreXpt (n : Nat) (l : List Nat) : Prog :=
  .read fun d =>
    let v := l.getD 0 0xFFF
    let br := l.getD 1 0x3FFF0FFF
    let fits := fun (b : TakeBody) => (d.takeStatic b 0).isNone
    let video := fits { controller := 0, dest := n, video := true, source := v % 4096 }
    let audio := fits { controller := 0, dest := n, audio := true, source := bitsOf br 16 12 }
    let anc := fits { controller := 0, dest := n, anc := true, source := br % 4096 }
    let keep := fun (c : Nat) (ok : Bool) => c == 0xFFF || ok
    let ovl := fun i => ({ controller := 0, dest := n, layer := i, ctrl := l.getD (5 + 2 * i) 0, pos := l.getD (6 + 2 * i) 0 } : OverlayBody)
    seq [
      setF (F.DST_CUR_VIDEO_source n) (if video then v % 4096 else d.parkCode n), doIf (!video) restoreDrop,
      setB (F.DST_CUR_VIDEO_line_mode n) false,
      doIf (bitOf v 16) (statusAlarm (F.DST_STATUS_line_mode_fallback n) (F.DST_ALARM_line_mode_fallback n) true),
      wr (R.DST_CUR_BREAK n) br,
      doIf (!keep (bitsOf br 16 12) audio) (seq [setF (F.DST_CUR_BREAK_audio_src n) 0xFFF, restoreDrop]),
      doIf (!keep (br % 4096) anc) (seq [setF (F.DST_CUR_BREAK_anc_src n) 0xFFF, restoreDrop]),
      set64 (R.DST_LANDED_LO n) (R.DST_LANDED_HI n) (l.getD 3 0 + l.getD 4 0 * 2 ^ 32),
      each [0, 1] fun i =>
        if (ovl i).ctrl = 0 then .nop
        else if (d.overlayCheck (ovl i) 0).isNone then
          seq [wr (R.DST_CUR_OVL_CTRL n i) (ovl i).ctrl, wr (R.DST_CUR_OVL_POS n i) (ovl i).pos]
        else restoreDrop,
      wr (R.DST_HOLD n) (l.getD 2 0), xptSave n]

/-- A chain's record (R116, R120): entries pass the checks of CHAIN_LOAD; an ARMED chain is armed again while its trigger is
still ahead, and is MISSED otherwise. -/
def restoreChain (c : Nat) (m : ChainMem) : Prog :=
  .read fun d =>
    let ok := (m.entries.all fun e => (d.takeStatic e m.controller).isNone) && decide (m.entries.length ≤ 1024) &&
      (m.entries.map (·.dest)).dedup.length == m.entries.length
    let ahead := match m.trig with
      | some (.time scale sec ns) => decide (d.scale scale < timeOf sec ns)
      | some (.frame dest count) => decide (0 < count) && !d.frameDue dest count
      | none => false
    if !ok || m.state = 0 then doIf (m.state ≠ 0) restoreDrop
    else seq [
      chainUpd c fun _ => { state := if m.state = 1 then 1 else 2, entries := m.entries },
      doIf (m.state == 3) (match m.trig with
        | some t =>
          if ahead && (d.chainArmCheck c t).isSome && (match t with | .time .. => d.freeTimer.isNone | .frame .. => false) then
            chainUpd c fun k => { k with missed := true }
          else if ahead then seq [
            chainArm { id := 0, controller := m.controller, seq := 0, mirrored := true, cmd := .chainQuery c, instant := d.x.time.ht } c t,
            chainUpd c fun k => { k with cmd := none }]
          else chainUpd c fun k => { k with missed := true }
        | none => .nop)]

/-- A configuration record as the command that gives it (R162, R193, R226, R243); a flow context's as its words (R470). -/
def restoreConfig (index : Nat) (v : MramVal) : Prog :=
  let block := index / 65536
  let n := index % 65536
  match v with
  | .words l =>
    let b : ProcSetBody := { controller := 0, proc := n, regs := l.take 11, mtx := l.drop 11 }
    let c : PrcCfg := ⟨b.regs, b.mtx⟩
    doIf (block == 5 && !(c.quad && c.quadPos ≠ 0)) (.read fun d =>
      restoreSpec (.procSet b) 0 { procSetSpec b with } ((d.procCheck n c 0) == some Reason.lutNotReady))
  | .regs l =>
    let w := fun (i : Nat) => match l[i]? with | some e => e.2.toNat | none => 0
    match block with
    | 6 => .read fun d => restoreSpec (.mvLayout { controller := 0, head := n, tiles := [] }) 0
        { opcode := 0x0801, prog := fun o => mvChange o n (if n < 32 then none else some Reason.badHead) true
            (each (l.filter fun e => mvhLatched.contains e.1.kind && e.1.i == n && d.fld F.BOOT_STATUS_phase == 5) fun e => wr e.1 e.2.toNat) } false
    | 13 => .read fun d =>
      let p := each l fun e => wr e.1 e.2.toNat
      let bad := if n < 8192 then (p.run d).flowRxRefused n else (p.run d).flowTxRefused (n - 8192)
      if bad.isSome then restoreDrop else p
    | 0x70 => restoreCmd (.audioMap { controller := 0, first := n, entries := [(w 0, w 1)] }) 0
    | 0x71 => restoreCmd (.audioBind { first := n, entries := [w 0] }) 0
    | 0x72 => restoreCmd (.audioGroup { kind := 0, index := n, base := w 0, count := 0, delay := w 1 }) 0
    | 0x73 => restoreCmd (.audioGroup { kind := 1, index := n, base := w 0 % 65536, count := w 0 / 65536, delay := w 1 }) 0
    | 0x74 => restoreCmd (.audioTone { generator := n, freq := w 0 % 2 ^ 31, level := w 1 }) 0
    | 0x75 => restoreCmd (.audioMonitor { kind := 0, index := n, values := [w 0] }) 0
    | 0x76 => restoreCmd (.audioMonitor { kind := 1, index := n, values := l.map (·.2.toNat) }) 0
    | 0x77 => restoreCmd (.audioSap { port := n, values := w 0 :: 0 :: (l.drop 1).map (·.2.toNat) }) 0
    | _ => .nop
  | .chain _ => .nop

/-- The key of the record that a STATE item stands in for (R474). -/
def cmdKey : Cmd → Option MramKey
  | .take b => some ⟨.xpt, b.dest⟩
  | .takeOverlay b => some ⟨.xpt, b.dest⟩
  | .hold _ b => some ⟨.xpt, b.dest⟩
  | .chainLoad b => some ⟨.chain, b.chain⟩
  | .chainArm b => some ⟨.chain, b.chain⟩
  | .procSet b => some ⟨.config, 5 * 65536 + b.proc⟩
  | .mvSet b => some ⟨.config, 6 * 65536 + b.head⟩
  | .mvLayout b => some ⟨.config, 6 * 65536 + b.head⟩
  | .audioMap b => some (audKey 0 b.first)
  | .audioBind b => some (audKey 1 b.first)
  | .audioGroup b => some (audKey (2 + b.kind) b.index)
  | .audioTone b => some (audKey 4 b.generator)
  | .audioMonitor b => some (audKey (5 + b.kind) b.index)
  | .audioSap b => some (audKey 7 b.port)
  | _ => none

/-- A record of routing state (R474). -/
def routingKey (k : MramKey) : Bool := k.kind == .xpt || k.kind == .chain || k.kind == .config

/-- Why the store is not restored (R475): 4 STORE_OLD, 5 STORE_NEWER, 6 STORE_CORRUPT. -/
def Dev.storeFault (d : Dev) : Option Nat :=
  match d.storeFormat with
  | none => some 6
  | some f =>
    if formatIn d.x.boot.image.formats 0 f then none
    else if f < bitsOf d.x.boot.image.formats 0 8 then some 4 else some 5

/-- The code of a kind of record. -/
def MramKind.code : MramKind → Nat
  | .xpt => 0 | .chain => 1 | .config => 2 | .htSeconds => 3 | .training => 4 | .history => 5 | .bitmap => 6 | .update => 7

/-- Pages whose CRC fails are ignored: the record each replaced stands again (R471). -/
def mramScan (bad : List (Nat × Nat)) : Prog :=
  let lost := fun (k : MramKey) => bad.contains (k.kind.code, k.index)
  seq [addCnt R.BOOT_CNT_MRAM_CRC bad.length,
    bootUpd fun b => { b with
      mram := (b.mram.filter fun e => !lost e.1) ++ b.mramOld.filter fun e => lost e.1 && b.mram.any fun f => f.1 == e.1
      mramOld := b.mramOld.filter fun e => !lost e.1 }]

/-- The records come into force, then the STATE items that no record covers (R474). -/
def restoreRecords (l : List (MramKey × MramVal)) (state : List (Nat × Cmd)) : Prog :=
  seq [
    each l fun e => match e.1.kind with | .config => restoreConfig e.1.index e.2 | _ => .nop,
    each l fun e => match e.1.kind, e.2 with | .xpt, .words w => restoreXpt e.1.index w | _, _ => .nop,
    each l fun e => match e.1.kind, e.2 with | .chain, .chain m => restoreChain e.1.index m | _, _ => .nop,
    each state fun e => match cmdKey e.2 with
      | some k => doIf (!(l.any fun r => r.1 == k)) (restoreCmd e.2 e.1)
      | none => restoreCmd e.2 e.1]

/-- A function that is configured enabled begins to wake. -/
def fnEnabledGo (l : List Fn) : Prog := each l fun f => doWhen (fun d => d.enabled f) (fnGo f (fnEnable f))

/-- MRAM records are applied (R474, R475), house time takes its stored seconds (R39), and phase LINKS begins. -/
def mramRestore (bad : List (Nat × Nat)) : Prog :=
  doWhen (fun d => d.fld F.BOOT_STATUS_phase == 5) (seq [
    mramScan bad,
    .read fun d =>
      let b := d.x.boot
      let state := match b.cfg with | some s => s.state | none => []
      let defaulted := d.flag F.GLB_STATUS_config_defaulted
      let gen := d.rd R.TWIN_CFG_GEN
      let format := match d.storeFormat with
        | some f => if defaulted || d.storeFault.isSome then bitsOf b.image.formats 8 8 else f
        | none => bitsOf b.image.formats 8 8
      seq [
        if defaulted then seq [
          bootUpd fun b => { b with mram := b.mram.filter fun e => !routingKey e.1 }, parkAll]
        else match d.storeFault with
          | some r => seq [
              cfgDefaulted r, bootUpd fun b => { b with mram := b.mram.filter fun e => !routingKey e.1, mramOld := [] },
              restoreRecords [] (state.filter fun e => match cmdKey e.2 with | some k => k.kind ≠ .xpt | none => true), parkAll]
          | none =>
            if b.cfgReset then seq [
              bootUpd fun b => { b with mram := b.mram.filter fun e => !routingKey e.1 }, restoreRecords [] state]
            else restoreRecords b.mram state,
        bootUpd fun b => { b with superblock := some (format, gen) },
        .read fun e => setF F.BOOT_MRAM_STATUS_store_format (e.storeFormat.getD 0),
        mramFlush,
        match b.htStored with
        | some s => seq [.read fun e => htMove ((s * secU : Int) - e.x.time.ht), setF F.TIME_STATUS_ht_traceable 0]
        | none => .nop,
        setF F.BOOT_STATUS_phase 6,
        fnEnabledGo ((List.finRange 24).map .quad), fnEnabledGo ((List.finRange 96).map .lane),
        fnEnabledGo ((List.finRange 96).map .hlk), fnEnabledGo ((List.finRange 97).map .mac),
        fnEnabledGo ((List.finRange 96).map .sdi)]])

/-! ### Links, the reference wait and routing (R454 to R457) -/

/-- Links are up: the time bases and the DPLL are enabled. -/
def linksUp : Prog :=
  doWhen (fun d => d.fld F.BOOT_STATUS_phase == 6) (seq [
    setF F.BOOT_STATUS_phase 7, fnEnabledGo ((List.finRange 4).map .tb), fnGo .dpll (fnEnable .dpll)])

/-- REFERENCE ends (R456): by lock, by time, or by the active's peck at a paired unit. A wait that ends in ACQUIRING passes
through FREE_RUN_FORCE; routing writes the configured mode back. -/
def referenceEnd (why : RefWait) : Prog :=
  .read fun d =>
    let ends := match why with
      | .locked => d.fld F.DPLL_STATE_state == 2
      | .timeout => true
      | .peck => d.flag F.TWIN_CTRL_enable
    doIf (d.fld F.BOOT_STATUS_phase == 7 && ends) (seq [
      doIf (d.fld F.DPLL_STATE_state == 1) (seq [
        bootUpd fun b => { b with dpllMode := some d.dpllMode },
        dpllWriteCtrl (putBits (d.rd R.DPLL_CTRL) 0 3 3)]),
      setF F.BOOT_STATUS_phase 8])

/-- Routing is set once the memory system, the bus matrix and every configured OTG are ON (R455 to R457, R492). -/
def routingCheck : Prog :=
  .read fun d =>
    let ready := d.on .hbm && d.on .mtx && (List.finRange 32).all fun n => !d.flag (F.OTG_CTRL_enable n) || d.on (.otg n)
    doIf (d.fld F.BOOT_STATUS_phase == 8 && !d.flag F.GLB_STATUS_routing && ready) (seq [
      setF F.GLB_STATUS_routing 1, enablePin 7 true,
      wr R.BOOT_START_MS (min ((d.x.time.clk - d.x.boot.startAt) / (1000000 * nsU)) 0xFFFFFFFF),
      match d.x.boot.dpllMode with
      | some m => seq [bootUpd fun b => { b with dpllMode := none }, .read fun e => dpllWriteCtrl (putBits (e.rd R.DPLL_CTRL) 0 3 m)]
      | none => .nop,
      roleSync])

/-- The configured functions are enabled in the order of R455. -/
def routingStart : Prog :=
  doWhen (fun d => d.fld F.BOOT_STATUS_phase == 8 && !d.flag F.GLB_STATUS_routing) (.read fun d => seq [
    fnEnabledGo ((List.finRange 32).map .otg),
    fnEnabledGo ((d.keysOf .SRC_CTRL).map fun n => .src (Fin.ofNat 1024 n)),
    fnEnabledGo ((d.keysOf .PRC_CTRL).map fun n => .prc (Fin.ofNat 512 n)),
    fnEnabledGo ((List.finRange 32).map .mvh), fnEnabledGo [.aud], fnEnabledGo ((List.finRange 16).map .sap),
    fnEnabledGo ((d.keysOf .DST_CTRL).map dstFn),
    fnEnabledGo ((d.keysOf .FLOW_RX_CTRL).map flowRxFn), fnEnabledGo ((d.keysOf .FLOW_TX_CTRL).map flowTxFn),
    fnEnabledGo [.twin], routingCheck])

/-! ### Trials (R463, R466) -/

/-- The header on trial needs lockstep. -/
def Dev.needLock (d : Dev) : Bool := match d.bootHdr with | some (_, h) => h.needLock | none => false

/-- A slot on trial is confirmed: fuses are blown up to its security version. -/
def trialConfirm : Prog :=
  .read fun d =>
    let v := d.x.boot.image.secver
    doIf (d.flag F.BOOT_STATUS_trial && d.flag F.GLB_STATUS_routing && (!d.needLock || d.x.boot.lockAt.isSome)) (seq [
      hdrRewrite fun h => { h with trial := false }, setF F.BOOT_STATUS_trial 0,
      doIf (decide (d.x.boot.fuses.vf < v)) (seq [
        bootUpd fun b => { b with fuses := { b.fuses with vf := v } }, setF F.BOOT_SECVER_v_f v])])

/-- A trial that needs lockstep has not reached it: the unit goes back and warm-resets. -/
def trialTimeout : Prog :=
  doWhen (fun d => d.flag F.BOOT_STATUS_trial && d.flag F.GLB_STATUS_routing && d.needLock && d.x.boot.lockAt.isNone) (seq [
    hdrRewrite fun h => { h with trial := false, fwSlot := h.prevSlot, cfgSlot := h.prevCfg },
    setF F.BOOT_STATUS_reverted 1, raise F.BOOT_ALARM_reverted, warmReset 4])

/-! ### Rows -/

/-- PORST_RELEASE (R529, R531). -/
def execPorstRelease (f : Fuses) (s : State) : Host.Outcome State Fault Refusal := perform .pins (porstRelease f) s

/-- RAIL_IN_REGULATION (R493, R529). -/
def execRailInRegulation (rail : Fin 8) (s : State) : Host.Outcome State Fault Refusal := perform .island (railGood rail) s

/-- RAIL_FAIL (R493). -/
def execRailFail (rail : Fin 8) (s : State) : Host.Outcome State Fault Refusal := perform .island (railBad rail) s

/-- RAIL_OUT_OF_TOLERANCE (R528). -/
def execRailOutOfTolerance (rail : Fin 9) (low : Bool) (s : State) : Host.Outcome State Fault Refusal :=
  perform .core (railOut rail low) s

/-- BOOT_ROM_SELECT (R459, R462): the flash answers discovery or not; its contents come with the first answer. -/
def execBootRomSelect (found : Bool) (flash : List (Nat × Nat)) (s : State) : Host.Outcome State Fault Refusal :=
  perform .core (doWhen (fun d => d.fld F.BOOT_STATUS_phase == 1 && d.x.boot.slot.isNone) (
    if !found then romStay
    else seq [
      bootUpd fun b => { b with flash := some (match b.flash with
        | some m => m
        | none => flash.foldl (fun m e => KV.set 255 m e.1 (e.2 % 256)) []) },
      romChoose])) s

/-- FIRMWARE_LOADED (R454, R467). -/
def execFirmwareLoaded (s : State) : Host.Outcome State Fault Refusal := perform .core firmwareLoaded s

/-- CONFIG_APPLY (R468, R469, R475). -/
def execConfigApply (s : State) : Host.Outcome State Fault Refusal := perform .core configApply s

/-- MRAM_RESTORE (R471, R474, R475): `bad` names the records on pages whose CRC fails. -/
def execMramRestore (bad : List (Nat × Nat)) (s : State) : Host.Outcome State Fault Refusal := perform .core (mramRestore bad) s

/-- LINKS_UP (R454). -/
def execLinksUp (s : State) : Host.Outcome State Fault Refusal := perform .core linksUp s

/-- REFERENCE_WAIT_END (R456). -/
def execReferenceWaitEnd (why : RefWait) (s : State) : Host.Outcome State Fault Refusal := perform .core (referenceEnd why) s

/-- ROUTING_START (R455). -/
def execRoutingStart (s : State) : Host.Outcome State Fault Refusal := perform .core routingStart s

/-- TRIAL_CONFIRM (R463, R466). -/
def execTrialConfirm (s : State) : Host.Outcome State Fault Refusal := perform .core trialConfirm s

/-- TRIAL_HANDOVER_TIMEOUT (R463). -/
def execTrialHandoverTimeout (s : State) : Host.Outcome State Fault Refusal := perform .core trialTimeout s

/-- MRAM_WINDOW_WRITE (R473). -/
def execMramWindowWrite (s : State) : Host.Outcome State Fault Refusal := perform .core mramFlush s

/-- What a write of 1 to BOOT_CNT_CLEAR clears (R490). -/
def bootCntClear : Prog :=
  clearRegs [R.BOOT_CNT_PIECE_OK, R.BOOT_CNT_PIECE_BAD, R.BOOT_CNT_PIECE_DUP, R.BOOT_CNT_PIECE_OTHER,
  R.BOOT_CNT_FLASH_ERR, R.BOOT_CNT_RESTORE_DROP, R.BOOT_CNT_MRAM_CRC]

/-- BOOT_CNT_CLEAR (R490). -/
def execBootCntClear (s : State) : Host.Outcome State Fault Refusal := perform .core bootCntClear s

end Sys2Proof.Machine
end

