-- ==== Sys2Proof/Machine/Update.lean ====
section
/-!
DEFINITION. Updates over the host (R477 to R480), activation (R481 to R483) and trickle delivery (R484 to R487).
-/

namespace Sys2Proof.Machine

/-! ### The update's parts -/

/-- The blocks an update counts by: 256 bytes, or the 224 of a trickled piece (R478, R485). -/
def UpdMem.block (u : UpdMem) : Nat := if u.source = 1 then 224 else 256

/-- A word of the received bitmap (R478, R486). -/
def UpdMem.bitmapWord (u : UpdMem) (w : Nat) : Nat := bitMask ((u.got.filter fun i => i / 32 == w).map (· % 32))

/-- The bitmap's record in the store (R470, R478). -/
def updRecord : Prog :=
  .read fun d =>
    let u := d.x.boot.upd
    mramPut ⟨.bitmap, 0⟩ (.words ((List.range (ceilDiv u.length (32 * u.block))).map u.bitmapWord))

/-- A standby's update differs from the active's (R480). -/
def updDiverged : Prog := doWhen (fun d => d.standbyUnit) (raise F.BOOT_ALARM_update_diverged)

/-- The partition an image of a kind goes to (R477): the firmware slot not running, recovery, or the configuration slot not in
use. -/
def Dev.updTarget (d : Dev) (kind : Nat) : Nat :=
  match kind with
  | 1 => match d.x.boot.slot with
    | some 0 => 1
    | some 1 => 0
    | _ => 1 - (match d.bootHdr with | some (_, h) => h.fwSlot | none => 0) % 2
  | 2 => 2
  | _ => 3 + (1 - d.fld F.BOOT_STATUS_cfg_slot)

/-- A partition holds what the device runs from. -/
def Dev.partInUse (d : Dev) (part : Nat) : Bool :=
  d.x.boot.slot == some part || (d.x.boot.cfg.isSome && part == 3 + d.fld F.BOOT_STATUS_cfg_slot)

/-- An UPDATE_* command's checks and effect (R477, R480): in FAULT the boot function takes none but UPDATE_STATUS (R489); a
standby keeps its own checks for what the active mirrors, and differs where one fails. -/
def updChecked (o : Orig) (chk : Dev → Option Nat) (mirror : Bool) (p : Prog) : Prog :=
  .read fun d =>
    match (if d.fst .boot = .fault then some 0x080C else chk d) with
    | some r => if o.mirrored then seq [updDiverged, dropCmd o.id] else reject o.id r
    | none => seq [doIf mirror (mirrorCommit o), noteLatency o.id, p]

/-- A program or erase failure (R489): the third in one update takes the boot function to FAULT. -/
def flashFailed : Prog :=
  .read fun d => seq [inc R.BOOT_CNT_FLASH_ERR, raise F.BOOT_ALARM_flash_error,
    updUpd fun u => { u with failures := u.failures + 1 },
    doIf (decide (3 ≤ d.x.boot.upd.failures + 1)) (fnGo .boot (fnFault .boot 0x01))]

/-- The update fails; a standby's that the active's host drives has diverged. -/
def updFailed (reason : Nat) : Prog :=
  .read fun d => seq [doIf (d.x.boot.upd.source == 0) updDiverged, updFail reason]

/-! ### Commands (R477 to R479) -/

/-- UPDATE_BEGIN. -/
def updateBeginSpec (b : UpdateBeginBody) : CmdSpec where
  opcode := 0x0A00
  ok := decide (1 ≤ b.kind) && decide (b.kind ≤ 3)
  prog o := updChecked o (fun d =>
      let u := d.x.boot.upd
      firstOf [
        (u.state == 3 || u.state == 5 || u.state == 6 || (u.state == 1 && u.source == 0) ||
          (u.source == 1 && (u.state == 1 || u.state == 2) && !b.force), 0x0801),
        (decide (partSize (d.updTarget b.kind) < b.length), 0x0802),
        (b.kind == 2 && d.fld F.BOOT_STATUS_phase == 9, 0x080D)]) true
    (.read fun d => updUpd fun u =>
      { state := 1, kind := b.kind, source := 0, length := b.length, image := b.imageId % 2 ^ 32, fail := u.fail
        target := d.updTarget b.kind, beginId := some o.id, sec := u.sec })

/-- The blocks of a write, with their bytes. -/
def writeBlocks (b : UpdateWriteBody) : List (Nat × List Byte) :=
  (List.range (ceilDiv b.data.length 256)).map fun i => (b.offset / 256 + i, (b.data.drop (256 * i)).take 256)

/-- UPDATE_WRITE: `ok` is whether the flash programs. -/
def updateWriteSpec (b : UpdateWriteBody) (ok : Bool) : CmdSpec where
  opcode := 0x0A01
  prog o := updChecked o (fun d =>
      let u := d.x.boot.upd
      let blk := writeBlocks b
      let put := blk.filter fun e => !u.got.contains e.1
      firstOf [
        (u.state == 1 || u.state == 3 || u.state == 6 || u.source == 1, 0x0801),
        (b.offset % 256 ≠ 0 || (b.data.length % 256 ≠ 0 && b.offset + b.data.length ≠ u.length) ||
          decide (u.length < b.offset + b.data.length), 0x0804),
        (blk.any fun e => u.got.contains e.1 && d.flashBytes (partBase u.target + 256 * e.1) e.2.length ≠ e.2, 0x0804),
        (!put.isEmpty && !ok && o.mirrored, 0x080C)]) true
    (.read fun d =>
      let u := d.x.boot.upd
      let put := (writeBlocks b).filter fun e => !u.got.contains e.1
      if put.isEmpty then finish o.id 0 []
      else if !ok then seq [flashFailed, reject o.id 0x080C]
      else seq [
        each put fun e => flashProgram (partBase u.target + 256 * e.1) e.2,
        updUpd fun u => { u with got := u.got ++ put.map (·.1) }, updRecord, finish o.id 0 []])

/-- UPDATE_STATUS: BOOT_UPD_* and 256 words of the bitmap. -/
def updateStatusSpec (first : Nat) : CmdSpec where
  opcode := 0x0A02
  ok := decide (first < 2 ^ 16)
  prog o := .read fun d => finish o.id 0 (
    [d.rd R.BOOT_UPD_STATE, d.rd R.BOOT_UPD_LEN, d.rd R.BOOT_UPD_RECEIVED, d.rd R.BOOT_UPD_IMAGE_ID, d.rd R.BOOT_UPD_FAIL,
      d.rd R.BOOT_UPD_TIME_LO, d.rd R.BOOT_UPD_TIME_HI] ++
    (List.range 256).map fun i => d.x.boot.upd.bitmapWord (first + i))

/-- UPDATE_VERIFY: every bit must be set; the checks end at UPDATE_VERIFY_DONE. -/
def updateVerifySpec : CmdSpec where
  opcode := 0x0A03
  prog o := updChecked o (fun d =>
      let u := d.x.boot.upd
      firstOf [(u.state == 1 || u.state == 3 || u.state == 5 || u.state == 6, 0x0801), (!u.complete, 0x0805)]) true
    (updUpd fun u => { u with state := 3, verifyId := some o.id })

/-- UPDATE_ACTIVATE (R481): it is not mirrored. -/
def updateActivateSpec (b : UpdateActivateBody) : CmdSpec where
  opcode := 0x0A04
  ok := decide (b.op < 3) && (b.op ≠ 1 || (decide (b.scale ≤ 4) && decide (b.sec < 2 ^ 48) && decide (b.ns < 1000000000)))
  prog o := updChecked o (fun d =>
      let u := d.x.boot.upd
      firstOf [(!(u.state == 4 || u.state == 5 || u.state == 6), 0x080A),
        (u.state ≠ 4 || (b.op == 1 && d.freeTimer.isNone), 0x0801)]) false
    (.read fun d => match b.op, d.freeTimer with
      | 0, _ => seq [updUpd fun u => { u with state := 6, method := 0, actId := some o.id }, ext fun x => { x with activateDue := true }]
      | 1, some n => seq [
          updUpd fun u => { u with state := 5, method := 0, actId := some o.id, timer := some n, sec := b.sec },
          fwTimer n b.scale b.sec b.ns .activate, setCmdState o.id .armed]
      | _, _ => seq [hdrActivate false, finish o.id 0 []])

/-- The slot of an abandoned update is left unbootable (R487). -/
def slotSpoil : Prog :=
  .read fun d =>
    let u := d.x.boot.upd
    doIf (u.state ≠ 0 && u.kind ≠ 4 && 0 < u.length && !d.partInUse u.target) (flashErase (partBase u.target) 512)

/-- An update is abandoned: its timer is disarmed, its commands end, and the state is IDLE. -/
def updAbandon : Prog :=
  .read fun d =>
    let u := d.x.boot.upd
    seq [slotSpoil, each u.timer.toList evtDisarm, ext fun x => { x with activateDue := false },
      updUpd fun v => { fail := v.fail, sec := v.sec },
      each (u.beginId.toList ++ u.verifyId.toList ++ u.actId.toList) fun id => reject id 0x0801]

/-- UPDATE_ABORT. -/
def updateAbortSpec : CmdSpec where
  opcode := 0x0A05
  prog o := updChecked o (fun _ => none) true (seq [updAbandon, finish o.id 0 []])

/-- UPDATE_TRICKLE. -/
def updateTrickleSpec (v : Nat) : CmdSpec where
  opcode := 0x0A06
  ok := bitsOf v 26 3 == 0
  prog o := updChecked o (fun _ => none) true (seq [wr R.BOOT_TRICKLE_CTRL v, finish o.id 0 []])

/-- UPDATE_REVERT: the previous slots are those of the next start. -/
def updateRevertSpec : CmdSpec where
  opcode := 0x0A07
  prog o := updChecked o (fun d =>
      match d.bootHdr with
      | none => some 0x080A
      | some (_, h) =>
        let r := if h.prevSlot = 2 then d.imageFault 2 2 none none
          else if h.prevSlot < 2 then d.imageFault h.prevSlot 1 (d.cfgFormat h.prevCfg) d.storeFormat else some 0x0803
        match r with
        | none => none
        | some c => some (if c = 0x0808 then 0x0808 else 0x080A)) true
    (seq [hdrRewrite fun h => { h with
        fwSlot := h.prevSlot, cfgSlot := h.prevCfg, prevSlot := h.fwSlot, prevCfg := h.cfgSlot
        trial := false, trialCount := 0, recovery := h.prevSlot == 2 }, finish o.id 0 []])

/-- UPDATE_PROVISION: a configuration key slot is blown. -/
def updateProvisionSpec (b : ProvisionBody) : CmdSpec where
  opcode := 0x0A08
  prog o := updChecked o (fun d => firstOf [
      (o.controller ≠ 0 || b.slot < 2 || 3 < b.slot, Reason.notPermitted), ((d.keyDigest b.slot).isSome, 0x080E)]) false
    (seq [
      bootUpd fun m => { m with fuses := { m.fuses with
        keys := m.fuses.keys.set b.slot (some b.digest), cfgSig := m.fuses.cfgSig || b.sigRequired } },
      setF ⟨R.BOOT_KEYS, b.slot, 1⟩ 1, .read fun d => setB F.BOOT_KEYS_cfg_sig_required d.x.boot.fuses.cfgSig,
      finish o.id 0 []])

/-- The meaning of an UPDATE_* command; one the active mirrors programs the standby's own flash. -/
def updateSpec : Cmd → Option CmdSpec
  | .updateBegin b => some (updateBeginSpec b)
  | .updateWrite b => some (updateWriteSpec b true)
  | .updateStatus first => some (updateStatusSpec first)
  | .updateVerify => some updateVerifySpec
  | .updateActivate b => some (updateActivateSpec b)
  | .updateAbort => some updateAbortSpec
  | .updateTrickle v => some (updateTrickleSpec v)
  | .updateRevert => some updateRevertSpec
  | .updateProvision b => some (updateProvisionSpec b)
  | _ => none

/-! ### Erase and verification end (R477, R479, R486) -/

/-- Every bit of a trickled image is set: it is verified, and TRICKLE_DONE rises (R486). -/
def trickleDone : Prog :=
  doWhen (fun d => d.x.boot.upd.complete) (seq [
    updUpd fun u => { u with state := 3, recorded := u.got.length }, raise F.BOOT_ALARM_trickle_done])

/-- The bytes of a piece that belong to the image: the last piece is padded (R485). -/
def UpdMem.pieceBytes (u : UpdMem) (i : Nat) (b : List Byte) : List Byte := b.take (u.length - 224 * i)

/-- The target's erase ends. -/
def eraseDone (ok : Bool) : Prog :=
  doWhen (fun d => d.x.boot.upd.state == 1) (.read fun d =>
    let u := d.x.boot.upd
    if !ok then seq [flashFailed, updFailed 0x080C, each u.beginId.toList fun id => reject id 0x080C,
      updUpd fun u => { u with beginId := none, length := 0 }]
    else seq [
      flashErase (partBase u.target) (partSize u.target),
      each u.first fun e => flashProgram (partBase u.target + 224 * e.1) (u.pieceBytes e.1 e.2),
      addCnt R.BOOT_CNT_PIECE_OK u.first.length,
      updUpd fun u => { u with state := 2, beginId := none, got := u.first.map (·.1), first := [] },
      updRecord, each u.beginId.toList fun id => finish id 0 [],
      doIf (u.source == 1) trickleDone])

/-- ALONE (R483): the unit rewrites its own header and warm-resets. A trickled image stays VERIFIED, so that its pieces count as
held. -/
def activateAlone : Prog :=
  .read fun d => seq [
    each d.x.boot.upd.actId.toList fun id => finish id 0 [],
    updUpd fun u => { u with state := if u.source = 1 then 4 else 0, method := 3, actId := none },
    hdrActivate false, warmReset 4]

/-- The configuration format that verification refers to (R479). -/
def Dev.runningFormat (d : Dev) : Option Nat :=
  if d.x.boot.cfg.isSome ∧ !d.flag F.GLB_STATUS_config_defaulted then some (d.fld F.BOOT_CFG_INFO_format) else none

/-- Verification ends (R479); a trickled image activates itself where it is asked to (R486). -/
def verifyDone : Prog :=
  doWhen (fun d => d.x.boot.upd.state == 3) (.read fun d =>
    let u := d.x.boot.upd
    match d.imageFault u.target u.kind d.runningFormat d.storeFormat with
    | some r => updFailed r
    | none => seq [
        updUpd fun u => { u with state := 4, verifyId := none },
        each u.verifyId.toList fun id => finish id 0 [],
        doIf (u.source == 1 && d.flag F.BOOT_TRICKLE_CTRL_auto_activate)
          (if d.fld F.BOOT_STATUS_phase = 9 then activateAlone else hdrActivate false)])

/-! ### Activation starts (R481 to R483) -/

/-- The activation goes to the standby in a COMMIT, numbered as every other (R405, R482). -/
def activateCommit : Prog :=
  .read fun d =>
    let c := d.x.ctl.cmds.find? fun c => some c.id == d.x.boot.upd.actId
    seq [wr R.TWIN_COMMIT_CNT ((d.rd R.TWIN_COMMIT_CNT + 1) % 2 ^ 32),
      emit (.twinCommit {
        counter := (d.rd R.TWIN_COMMIT_CNT + 1) % 2 ^ 32
        controller := match c with | some c => c.controller | none => 0
        seq := match c with | some c => c.seq | none => 0
        cmd := .updateActivate { op := 0, scale := 0, sec := 0, ns := 0 }, instant := d.x.time.ht })]

/-- HANDOVER applies (R481): the unit is ACTIVE_PAIRED, and the image is as compatible as the running one. That the twin holds
the same VERIFIED image shows in its leaving lockstep (R482). -/
def Dev.handoverFits (d : Dev) : Bool :=
  let u := d.x.boot.upd
  d.tstate == 3 && (match d.imgHdr u.target with
    | some h => h.compat == d.rd R.TWIN_COMPAT && (u.kind ≠ 3 || h.version % 2 ^ 16 == d.rd R.TWIN_CFG_GEN)
    | none => false)

/-- A twin in lockstep or in admission follows this unit (R481). -/
def Dev.staggeredFits (d : Dev) : Bool :=
  d.tstate == 3 || (d.mirrors && match d.x.twin.far with | some p => p.role == 2 | none => false)

/-- The method is chosen and its sequence begins. -/
def activationStart : Prog :=
  doWhen (fun d => d.x.activateDue && (d.x.boot.upd.state == 5 || d.x.boot.upd.state == 6)) (.read fun d => seq [
    ext fun x => { x with activateDue := false },
    if d.standbyUnit then seq [updUpd fun u => { u with timer := none }, updFail Reason.notActive]
    else if d.handoverFits then
      seq [updUpd fun u => { u with state := 6, method := 1, stage := 1, timer := none }, activateCommit]
    else if d.staggeredFits then
      seq [updUpd fun u => { u with state := 6, method := 2, stage := 4, timer := none }, activateCommit]
    else seq [updUpd fun u => { u with state := 6, timer := none }, activateAlone]])

/-! ### Trickle delivery (R484 to R487) -/

/-- A trickle starts with a piece (R486): pieces 0 to 2 are held until the image's header gives its target. -/
def trickleStart (image count index : Nat) (b : List Byte) : Prog :=
  .read fun d => updUpd fun u =>
    { state := 2, kind := 4, source := 1, length := 224 * count, image := image, fail := u.fail, sec := u.sec
      first := if index < 3 then [(index, b)] else [], recAt := d.x.time.clk }

/-- Pieces 0 to 2 are held: the header decides the target, and its erase begins. -/
def trickleTarget : Prog :=
  .read fun d =>
    let u := d.x.boot.upd
    let n := min 3 u.pieces
    doIf (u.kind == 4 && u.first.length == n) (
      match imgHdrOf (((List.range n).flatMap fun i => KV.get [] u.first i).take 512) with
      | none => updFailed 0x0803
      | some h =>
        let t := d.updTarget h.kind
        if h.kind < 1 ∨ 3 < h.kind ∨ ceilDiv h.length 224 ≠ u.pieces then updFailed 0x0803
        else if partSize t < h.length then updFailed 0x0802
        else if h.kind = 2 ∧ d.fld F.BOOT_STATUS_phase = 9 then updFailed 0x080D
        else updUpd fun u => { u with state := 1, kind := h.kind, length := h.length, target := t })

/-- A valid piece of the image being assembled. -/
def trickleHeld (index : Nat) (b : List Byte) (ok : Bool) : Prog :=
  .read fun d =>
    let u := d.x.boot.upd
    if u.got.contains index ∨ u.first.any (·.1 == index) then inc R.BOOT_CNT_PIECE_DUP
    else if u.state ≠ 2 then .nop
    else if u.kind = 4 then
      doIf (decide (index < 3)) (seq [updUpd fun u => { u with first := KV.set [] u.first index b }, trickleTarget])
    else seq [
      doIf (decide (u.recAt + secU ≤ d.x.time.clk))
        (seq [updUpd fun u => { u with recorded := u.got.length, recAt := d.x.time.clk }, updRecord]),
      if ok then seq [
        flashProgram (partBase u.target + 224 * index) (u.pieceBytes index b), inc R.BOOT_CNT_PIECE_OK,
        updUpd fun u => { u with got := u.got ++ [index] }, trickleDone]
      else flashFailed]

/-- A piece (R485, R486): `ok` is whether the flash programs. -/
def tricklePiece (p : AncPacket) (ok : Bool) : Prog :=
  .read fun d =>
    let u := d.x.boot.upd
    let b : List Byte := p.data.map fun w => BitVec.ofNat 8 w
    let image := leAt b 4 4
    let index := leAt b 8 4
    let count := leAt b 12 4
    let same := u.state ≠ 0 && u.image == image
    let valid := p.data.length == 244 && ancSound p && leAt b 0 4 == 0x0001545A && crc32c (b.take 240) == leAt b 240 4 &&
      decide (index < count) && (!same || count == u.pieces)
    let body := (b.drop 16).take 224
    if u.state ≠ 0 ∧ u.source = 0 then .nop
    else if d.fst .boot = .fault then .nop
    else if !valid then inc R.BOOT_CNT_PIECE_BAD
    else if u.state = 0 then seq [trickleStart image count index body, trickleTarget]
    else if u.state = 1 then .nop
    else if same then seq [updUpd fun u => { u with other := (0, 0) }, trickleHeld index body ok]
    else
      let n := if u.other.1 = image then u.other.2 + 1 else 1
      seq [inc R.BOOT_CNT_PIECE_OTHER, updUpd fun u => { u with other := (image, n) },
        doIf (d.flag F.BOOT_TRICKLE_CTRL_follow_new && decide (1000 ≤ n) && (u.state == 2 || u.state == 4 || u.state == 7))
          (seq [slotSpoil, trickleStart image count index body, trickleTarget])]

/-! ### Rows -/

/-- UPDATE_BEGIN (R477). -/
def execUpdateBegin (h : Hdr) (b : UpdateBeginBody) (s : State) : Host.Outcome State Fault Refusal :=
  perform .core (rygus h (.updateBegin b) (updateBeginSpec b)) s

/-- UPDATE_ERASE_DONE (R477, R486). -/
def execUpdateEraseDone (ok : Bool) (s : State) : Host.Outcome State Fault Refusal := perform .core (eraseDone ok) s

/-- UPDATE_WRITE (R478): `ok` is whether the flash programs. -/
def execUpdateWrite (h : Hdr) (b : UpdateWriteBody) (ok : Bool) (s : State) : Host.Outcome State Fault Refusal :=
  perform .core (rygus h (.updateWrite b) (updateWriteSpec b ok)) s

/-- UPDATE_STATUS (R477). -/
def execUpdateStatus (h : Hdr) (first : Nat) (s : State) : Host.Outcome State Fault Refusal :=
  perform .core (rygus h (.updateStatus first) (updateStatusSpec first)) s

/-- UPDATE_VERIFY (R479). -/
def execUpdateVerify (h : Hdr) (s : State) : Host.Outcome State Fault Refusal :=
  perform .core (rygus h .updateVerify updateVerifySpec) s

/-- UPDATE_VERIFY_DONE (R479). -/
def execUpdateVerifyDone (s : State) : Host.Outcome State Fault Refusal := perform .core verifyDone s

/-- UPDATE_ACTIVATE (R481). -/
def execUpdateActivate (h : Hdr) (b : UpdateActivateBody) (s : State) : Host.Outcome State Fault Refusal :=
  perform .core (rygus h (.updateActivate b) (updateActivateSpec b)) s

/-- UPDATE_ACTIVATION_START (R481). -/
def execUpdateActivationStart (s : State) : Host.Outcome State Fault Refusal := perform .core activationStart s

/-- UPDATE_HANDOVER_TIMEOUT (R482): the standby has not left lockstep within 1 s, or not returned within handover_s. -/
def execUpdateHandoverTimeout (s : State) : Host.Outcome State Fault Refusal :=
  perform .core (doWhen (fun d => d.x.boot.upd.stage == 1 || d.x.boot.upd.stage == 2) (updFail 0x080B)) s

/-- UPDATE_ABORT (R487). -/
def execUpdateAbort (h : Hdr) (s : State) : Host.Outcome State Fault Refusal :=
  perform .core (rygus h .updateAbort updateAbortSpec) s

/-- UPDATE_TRICKLE (R477, R484). -/
def execUpdateTrickle (h : Hdr) (value : Word) (s : State) : Host.Outcome State Fault Refusal :=
  perform .core (rygus h (.updateTrickle value.toNat) (updateTrickleSpec value.toNat)) s

/-- UPDATE_REVERT (R477). -/
def execUpdateRevert (h : Hdr) (s : State) : Host.Outcome State Fault Refusal :=
  perform .core (rygus h .updateRevert updateRevertSpec) s

/-- UPDATE_PROVISION (R477). -/
def execUpdateProvision (h : Hdr) (b : ProvisionBody) (s : State) : Host.Outcome State Fault Refusal :=
  perform .core (rygus h (.updateProvision b) (updateProvisionSpec b)) s

/-- TRICKLE_PIECE (R484 to R486). -/
def execTricklePiece (n : SrcId) (p : AncPacket) (ok : Bool) (s : State) : Host.Outcome State Fault Refusal :=
  perform .core (doWhen (fun d => d.trickleTakes n p) (tricklePiece p ok)) s

end Sys2Proof.Machine
end

