-- ==== Sys2Proof/Machine/Power.lean ====
section
/-!
DEFINITION. Adaptive voltage (R495 to R499), shedding (R500 to R502), temperature (R503, R504), the watchdog (R505), the
HEALTH_* commands (R508), telemetry (R509, R510) and debug (R513 to R515).
-/

namespace Sys2Proof.Machine

/-! ### Adaptive voltage (R497 to R499), in µV -/

/-- A bound of the window, within the absolute range (R498). -/
def avsBound (mv : Nat) : Nat := clampN 670 850 mv * 1000

/-- The window in force; one whose minimum exceeds its maximum is the single value of its minimum. -/
def Dev.avsWindow (d : Dev) : Nat × Nat :=
  let lo := avsBound (d.fld F.PWR_AVS_WINDOW_min)
  (lo, max lo (avsBound (d.fld F.PWR_AVS_WINDOW_max)))

/-- VOUT_COMMAND can be sent: the avs device is entered and reachable, and the master drives the bus (R495, R496, R498, R517). -/
def Dev.avsSends (d : Dev) : Bool :=
  decide (5 ≤ d.fld F.BOOT_STATUS_phase) && d.on .pwr && d.flag (F.PWR_PMBUS_DEV_avs 0) &&
  d.fld (F.PWR_PMBUS_DEV_address 0) ≠ 0 && !bitOf (d.rd R.PWR_REPLACE) 13

/-- The evaluation of 1 ms (R497): hardware wins over the window, and the regulator follows V_t by at most 50 mV up and 0.25 mV
down. -/
def avsEval (vReq : Nat) : Prog :=
  .read fun d =>
    let now := d.x.time.clk
    let (lo, hi) := d.avsWindow
    let req := clampN 670000 850000 vReq
    let high := decide (hi < req)
    let vt := if high then req else max req lo
    let since := if high then none else some (d.x.pwr.inWindow.getD now)
    let below := if vt < 840000 then some (d.x.pwr.below.getD now) else none
    doIf (!(d.fst .pwr == .fault && (d.fw .pwr).code == 3)) (seq [
      pwrUpd fun m => { m with vt := vt, inWindow := since, below := below },
      setF F.PWR_AVS_STATUS_v_req (req / 1000), setF F.PWR_AVS_STATUS_v_t (vt / 1000),
      setB F.PWR_STATUS_avs_at_ceiling (vt == 850000),
      doIf (high && !d.flag F.PWR_STATUS_policy_overridden) (seq [
        setF F.PWR_STATUS_policy_overridden 1, raise F.PWR_ALARM_policy_overridden, inc R.PWR_CNT_OVERRIDE]),
      doIf (match since with | some t => decide (t + secU ≤ now) | none => false) (setF F.PWR_STATUS_policy_overridden 0),
      doIf (match below with | some t => decide (t + 60 * secU ≤ now) | none => false) (replaceClear 0),
      doIf (d.avsSends && d.x.pwr.vout ≠ vt) (
        let v := if d.x.pwr.vout < vt then min vt (d.x.pwr.vout + 50000) else max vt (d.x.pwr.vout - 250)
        seq [pwrUpd fun m => { m with vout := v }, emit (.vout v)])])

/-! ### Shedding (R500, R501) -/

/-- The deficit has reached a per cent. -/
def deficitAt (vt vm percent : Nat) : Bool := decide (vt * percent + vm * 100 ≤ vt * 100)

/-- The highest stage whose entry value the deficit has reached. -/
def droopStage (vt vm : Nat) : Nat :=
  if deficitAt vt vm 9 then 4 else if deficitAt vt vm 7 then 3 else if deficitAt vt vm 5 then 2
  else if deficitAt vt vm 3 then 1 else 0

/-- The droop stage at the last measurement. -/
def Dev.droop (d : Dev) : Nat := match d.x.pwr.vMeas with | some v => droopStage d.x.pwr.vt v | none => 0

/-- The warning stage (R501). -/
def Dev.warnStage (d : Dev) : Nat := if d.flag F.PWR_STATUS_supply_warn then min 4 (d.fld F.PWR_CTRL_warn_stage) else 0

/-- The present stage may be left: the deficit is below its value, and the warning stage is lower. -/
def Dev.shedLeaves (d : Dev) : Bool :=
  let n := d.fld F.PWR_STATUS_stage
  n ≠ 0 && decide (d.warnStage < n) &&
  (match d.x.pwr.vMeas with | some v => !deficitAt d.x.pwr.vt v (2 * n) | none => true)

/-- What has set the stage. -/
def shedBits : Prog :=
  .read fun d =>
    let n := d.fld F.PWR_STATUS_stage
    seq [setB F.PWR_STATUS_stage_by_warn (n ≠ 0 && decide (n ≤ d.warnStage)),
      setB F.PWR_STATUS_stage_by_droop (n ≠ 0 && (decide (n ≤ d.droop) || decide (d.warnStage < n)))]

/-- Idle lanes sleep while stage 3 is in force (R295). -/
def lanesSleep : Prog :=
  .read fun d => doIf (decide (3 ≤ d.fld F.PWR_STATUS_stage)) (each (d.keysOf .LANE_CTRL) fun l =>
    let n : LaneId := Fin.ofNat 96 l
    doIf (d.on (.lane n) && !(d.lanem l).woke) (fnGo (.lane n) (laneSleep l)))

/-- Sleeping lanes wake when the stage is left. -/
def lanesWake : Prog :=
  .read fun d => each (d.keysOf .LANE_CTRL) fun l =>
    let n : LaneId := Fin.ofNat 96 l
    seq [doIf ((d.fw (.lane n)).asleep) (fnGo (.lane n) (laneWake l)), laneUpd l fun m => { m with woke := false }]

/-- The effective stage changes (R501), with what hangs on it: scrubbing, sleep, REPLACE_REQ_N, the offer of the active role
(R418) and the pair's stage (R408). -/
def shedSet (n : Nat) : Prog :=
  .read fun d =>
    let was := d.fld F.PWR_STATUS_stage
    seq [
      setF F.PWR_STATUS_stage n, raise F.PWR_ALARM_shed_change, inc R.PWR_CNT_SHED,
      pwrUpd fun m => { m with shedAt := d.x.time.clk, shedOk := none }, scrubStatus,
      if n = 4 then replaceSet 5 else replaceClear 5,
      doIf (decide (was < 3) && decide (3 ≤ n)) lanesSleep, doIf (decide (3 ≤ was) && decide (n < 3)) lanesWake,
      doWhen (fun e => n == 4 && e.flag F.TWIN_CTRL_auto_offer && e.tstate == 3 && e.x.twin.swap.isNone) (swapStart none),
      doWhen (fun e => e.on .twin) shedSync]

/-- The stage rises at once to what the deficit and the warning ask for; otherwise the time for leaving it is kept. -/
def shedRise : Prog :=
  seq [
    .read fun d => doIf (decide (d.fld F.PWR_STATUS_stage < max d.droop d.warnStage)) (shedSet (max d.droop d.warnStage)),
    .read fun d => pwrUpd fun m => { m with shedOk := if d.shedLeaves then some (m.shedOk.getD d.x.time.clk) else none },
    shedBits]

/-- The update of 100 µs (R500): V_meas in µV. -/
def shedEval (vMeas : Nat) : Prog :=
  seq [
    pwrUpd fun m => { m with vMeas := some vMeas },
    .read fun d => seq [
      setF F.PWR_VCORE_v_meas (vMeas / 1000),
      setF F.PWR_VCORE_deficit (satCode 16 (((d.x.pwr.vt : Int) - vMeas) * 10000 / max 1 d.x.pwr.vt))],
    shedRise, lanesSleep]

/-- The stage falls by one (R501). -/
def shedDown : Prog :=
  .read fun d =>
    let now := d.x.time.clk
    doIf (d.shedLeaves && decide (d.x.pwr.shedAt + secU ≤ now) &&
        (match d.x.pwr.shedOk with | some t => decide (t + secU ≤ now) | none => false))
      (seq [shedSet (d.fld F.PWR_STATUS_stage - 1), shedRise])

/-- SUPPLY_WARN_N has been low for 10 µs (R501): the window is written, and the warning stage is in force. -/
def supplyWarn : Prog :=
  seq [pwrUpd fun m => { m with warnPin := true },
    doWhen (fun d => d.x.pwr.awake) (seq [
      setF F.PWR_STATUS_supply_warn 1, raise F.PWR_ALARM_supply_warn, htStore, mramFlush, shedRise])]

/-- SUPPLY_WARN_N is high again: an island that waits for it starts the rails (R531). -/
def supplyGood : Prog :=
  seq [pwrUpd fun m => { m with warnPin := false },
    doWhen (fun d => d.x.pwr.awake) (seq [
      setF F.PWR_STATUS_supply_warn 0, shedRise,
      doWhen (fun d => d.fld F.BOOT_STATUS_phase == 0 && !d.enabledPin 0 && !d.x.pwr.stopped && !d.x.pwr.tripped &&
        !d.x.pwr.cycleReq) (enablePin 0 true)])]

/-! ### Temperature (R503, R504) and the watchdog (R505) -/

/-- The die and the stacks are sampled: the hottest die sensor in 0.125 °C, and the stacks' temperatures where they are read. -/
def thermalSample (die : Int) (temps : List Nat) : Prog :=
  .read fun d =>
    let warn : Int := (clampN 80 105 (d.fld F.PWR_THERM_CTRL_warn_c) : Nat)
    seq [
      setF F.PWR_TEMP_MAX_die (satCode 16 die),
      doIf (!temps.isEmpty) (seq [
        setF F.PWR_TEMP_MAX_stack (temps.foldl max 0),
        hbmUpd fun h => { h with temp := temps.zipIdx.foldl (fun m e => KV.set 0 m e.2 e.1) [] },
        each (List.range 64) fun c => doIf (decide (c / 16 < temps.length)) (seq [
          setF (F.HBM_CH_STATUS_temperature c) (temps.getD (c / 16) 0),
          setB (F.HBM_CH_STATUS_hot c) (decide (85 < temps.getD (c / 16) 0))])]),
      if warn * 8 ≤ die then statusAlarm F.PWR_STATUS_therm_warn F.PWR_ALARM_therm_warn true
      else doIf (decide (die ≤ (warn - 2) * 8) && d.flag F.PWR_STATUS_therm_warn)
        (seq [setF F.PWR_STATUS_therm_warn 0, replaceClear 12])]

/-- The trip (R504): THERM_TRIP_N is latched low, the role dropped, the clocks stopped and the enables released. -/
def thermalTrip : Prog :=
  seq [pwrUpd fun m => { m with tripped := true, cycleReq := false }, setF F.PWR_STATUS_trip_seen 1, railsOff]

/-- The heartbeat has not advanced in time (R505). -/
def watchdogExpiry : Prog :=
  seq [raise F.PWR_ALARM_wdog, inc R.PWR_CNT_WDOG,
    .read fun d =>
      if d.standbyUnit || d.tstate == 3 then warmReset 2
      else seq [replaceSet 7, doIf (d.flag F.PWR_WDOG_alone_reset) (warmReset 2)]]

/-! ### Regulators (R495, R496, R519) -/

/-- A regulator's entry is polled: it has an address. -/
def Dev.polled (d : Dev) (n : Nat) : Bool := decide (n < 9) && d.fld (F.PWR_PMBUS_DEV_address n) ≠ 0

/-- The regulator that is adjusted: VDD_CORE's, where it is marked (R519). -/
def Dev.avsDev (d : Dev) (n : Nat) : Bool := n == 0 && d.flag (F.PWR_PMBUS_DEV_avs 0)

/-- One poll of one regulator, after its retries. -/
def pollRail (r : RailPoll) : Prog :=
  doWhen (fun d => d.polled r.dev) (.read fun d =>
    let n := KV.get 0 d.x.pwr.polls r.dev
    seq [
      addCnt R.PWR_CNT_PMBUS_ERR r.failed,
      if r.ok then seq [
        pwrUpd fun m => { m with polls := KV.set 0 m.polls r.dev 0 },
        wr (R.PWR_RAIL_V r.dev) r.volts, wr (R.PWR_RAIL_P r.dev) r.power, wr (R.PWR_RAIL_STATUS r.dev) r.status,
        doIf (d.avsDev r.dev) (replaceClear 13)]
      else seq [
        pwrUpd fun m => { m with polls := KV.set 0 m.polls r.dev (n + 1) },
        doIf (n == 2) (seq [raise F.PWR_ALARM_pmbus_err, doIf (d.avsDev r.dev) (replaceSet 13)])]])

/-- The total power follows the rails; beyond its limit for 1 s it raises POWER_HIGH. -/
def powerTotal : Prog :=
  .read fun d =>
    let p := ((List.range 9).map fun n => d.rd (R.PWR_RAIL_P n)).sum / 10
    let now := d.x.time.clk
    let high := if d.fld F.PWR_LIMIT_power_w * 10 < p then some (d.x.pwr.overPower.getD now) else none
    seq [wr R.PWR_TOTAL (min p 0xFFFF), pwrUpd fun m => { m with overPower := high },
      doIf (match high with | some t => decide (t + secU ≤ now) | none => false) (raise F.PWR_ALARM_power_high)]

/-- The poll of 100 ms. -/
def pmbusPoll (l : List RailPoll) : Prog := doWhen (fun d => d.on .pwr) (seq [each l pollRail, powerTotal])

/-- PMBUS_ALERT_N: every STATUS_WORD is read and recorded in the alarm history (assumption 58). -/
def pmbusAlert (l : List RailPoll) : Prog :=
  doWhen (fun d => d.on .pwr) (seq [
    each l fun r => doWhen (fun d => d.polled r.dev && r.ok)
      (seq [wr (R.PWR_RAIL_STATUS r.dev) r.status, histAdd 0 17 (r.status % 2 ^ 16) (0x80 + r.dev)]),
    raise F.PWR_ALARM_pmbus_alert])

/-! ### Debug (R514) -/

/-- The bytes of a nonce. -/
def nonceBytes (n : Nat) : List Byte := leBytes 48 n

/-- The die identifier's bytes. -/
def Dev.dieBytes (d : Dev) : List Byte := leBytes 8 (d.rd64 R.GLB_DIE_ID_LO R.GLB_DIE_ID_HI)

/-- A challenge draws a fresh nonce (a free value, assumption 1); an earlier one is void. -/
def challenge : Prog := ext fun x => { x with freeCtr := x.freeCtr + 1, pwr := { x.pwr with nonce := some (Config.freeValue x.freeCtr) } }

/-- The words a challenge answers: the nonce and the die identifier. -/
def Dev.challengeWords (d : Dev) : List Nat :=
  let b := (match d.x.pwr.nonce with | some n => nonceBytes n | none => []) ++ d.dieBytes
  (List.range 14).map fun i => leAt b (4 * i) 4

/-- A response is valid: an unrevoked key of slot 0 or 1 has signed the nonce, the die identifier and the level. -/
def Dev.unlocks (d : Dev) (b : DebugResponse) : Bool :=
  match d.x.pwr.nonce with
  | none => false
  | some n =>
    decide (b.slot < 2) && (b.level == 1 || b.level == 2) &&
    d.keyDigest b.slot == some (sha384 (leBytes 48 b.x ++ leBytes 48 b.y)) && !d.keyRevoked b.slot &&
    ecdsaHolds b.x b.y (sha384 (nonceBytes n ++ d.dieBytes ++ leBytes 1 b.level)) b.r b.s

/-- Debug is unlocked at a level. -/
def unlock (level : Nat) : Prog := seq [setF F.GLB_STATUS_debug_unlocked 1, setF F.PWR_DEBUG_level level]

/-- FREEZE_N has been low for 1 µs (R515). -/
def freezeClocks : Prog :=
  .read fun d =>
    if d.fld F.PWR_DEBUG_level = 2 ∧ d.flag F.PWR_DEBUG_freeze_en then seq [pwrUpd fun m => { m with frozen := true }, roleSync]
    else raise F.PWR_ALARM_freeze_ignored

/-! ### HEALTH_* commands (R508) -/

/-- HEALTH_REINIT. -/
def healthReinitSpec (block inst : Nat) : CmdSpec where
  opcode := 0x0B01
  ok := (fnOf block inst).isSome
  prog o := seq [match fnOf block inst with | some f => fnGo f (fnReinit f) | none => .nop, finish o.id 0 []]

/-- HEALTH_RESET. -/
def healthResetSpec : CmdSpec where
  opcode := 0x0B02
  prog o := seq [finish o.id 0 [], pwrUpd fun m => { m with resetAsked := true }]

/-- HEALTH_POWER_CYCLE. -/
def healthPowerCycleSpec : CmdSpec where
  opcode := 0x0B03
  prog o := if o.controller ≠ 0 then reject o.id Reason.notPermitted
    else seq [finish o.id 0 [], pwrUpd fun m => { m with cycleAsked := true }]

/-- HEALTH_SUBSCRIBE: an intake holds one subscription, and a second replaces the first. -/
def healthSubscribeSpec (start : Bool) : CmdSpec where
  opcode := 0x0B04
  prog o := .read fun d =>
    match (d.x.ctl.cmds.find? fun c => c.id == o.id).bind (·.hdr) with
    | none => .nop
    | some h => seq [subsEnd fun i => intakeKey i == intakeKey h.intake,
        if start then ctlUpd fun c => { c with subs := c.subs ++ [h] } else finish o.id 0 []]

/-- HEALTH_DEBUG_CHALLENGE. -/
def healthChallengeSpec (level : Nat) : CmdSpec where
  opcode := 0x0B05
  ok := decide (level < 3)
  prog o := if o.controller ≠ 0 then reject o.id Reason.notPermitted
    else seq [challenge, .read fun d => finish o.id 0 d.challengeWords]

/-- HEALTH_DEBUG_RESPONSE. -/
def healthResponseSpec (b : DebugResponse) : CmdSpec where
  opcode := 0x0B06
  ok := decide (b.level < 3)
  prog o := .read fun d =>
    if d.unlocks b then seq [unlock b.level, finish o.id 0 []] else reject o.id Reason.notPermitted

/-- The meaning of a HEALTH_* command. -/
def healthSpec : Cmd → Option CmdSpec
  | .healthSwap => some healthSwapSpec
  | .healthReinit b i => some (healthReinitSpec b i)
  | .healthReset => some healthResetSpec
  | .healthPowerCycle => some healthPowerCycleSpec
  | .healthSubscribe b => some (healthSubscribeSpec b)
  | .healthChallenge l => some (healthChallengeSpec l)
  | .healthResponse b => some (healthResponseSpec b)
  | _ => none

/-! ### Telemetry (R509, R510) -/

/-- CQ entries of a ring neither used nor reserved (R430). -/
def Dev.cqFree (d : Dev) (r : Nat) : Nat := d.ringSize r - ((d.ringm r).cqUsed + (d.ringm r).reserved)

/-- The record of this second, without its CRC. -/
def Dev.telemetry (d : Dev) : List Nat :=
  let faults := (d.regs.filter fun e => isFstate e.1.kind && (FWord.decode e.2.toNat).state == .fault).length
  let asleep := ((List.range 96).filter fun l => d.flag (F.LANE_STATUS_asleep l)).length
  [(d.rd R.PWR_TELEM_SEQ + 1) % 2 ^ 32, d.htSec % 2 ^ 32, d.htNs,
    d.fld F.PWR_STATUS_stage + d.fld F.PWR_STATUS_supply_warn * 2 ^ 8 + d.fld F.PWR_STATUS_policy_overridden * 2 ^ 9 +
      d.fld F.PWR_STATUS_therm_warn * 2 ^ 10,
    d.rd R.PWR_REPLACE, d.fld F.PWR_AVS_STATUS_v_t + d.fld F.PWR_VCORE_v_meas * 2 ^ 16,
    d.rd R.PWR_TOTAL % 2 ^ 16 + d.fld F.PWR_TEMP_MAX_die * 2 ^ 16, d.fld F.PWR_TEMP_MAX_stack + faults % 2 ^ 16 * 2 ^ 16] ++
  ((List.range 9).map fun n => d.rd (R.PWR_RAIL_V n) % 2 ^ 16 + d.rd (R.PWR_RAIL_P n) % 2 ^ 16 * 2 ^ 16) ++
  [d.rd R.HBM_BW_RD, d.rd R.HBM_BW_WR, d.rd R.HBM_CNT_CE - d.x.pwr.telemCe, d.rd R.HBM_CNT_UE - d.x.pwr.telemUe,
    d.fld F.MTX_POOL_peak + asleep * 2 ^ 16] ++ List.replicate 9 0

/-- A record goes to a subscriber: to a ring only with a CQ entry free beyond the reservations. -/
def telemetryTo (h : Hdr) (body : List Nat) : Prog :=
  .read fun d =>
    let c : Completion := { opcode := 0x0B04, seq := h.seq, status := statusWord .committed 0, body := body, flags := 1 }
    match h.intake with
    | .ring r slot => if 0 < d.cqFree r then cqWrite r slot c else dropCpl
    | .session s => sessSend s false c

/-- A record is assembled and delivered; none while stage 3 is in force. -/
def telemetryRecord : Prog :=
  doWhen (fun d => decide (d.fld F.PWR_STATUS_stage < 3)) (.read fun d =>
    let l := d.telemetry
    let w := l ++ [crc32c (l.flatMap (leBytes 4))]
    seq [
      each w.zipIdx fun e => wr (R.PWR_TELEM_W e.2) e.1, wr R.PWR_TELEM_SEQ (l.headD 0),
      pwrUpd fun m => { m with telemCe := d.rd R.HBM_CNT_CE, telemUe := d.rd R.HBM_CNT_UE },
      each d.x.ctl.subs fun h => telemetryTo h w])

/-! ### Rows -/

/-- AVS_EVAL (R497): the lowest voltage, in µV, at which every margin monitor keeps its guard. -/
def execAvsEval (vReq : Nat) (s : State) : Host.Outcome State Fault Refusal := perform .core (avsEval vReq) s

/-- AVS_CEILING (R499): V_t has been 850 mV for 10 s. -/
def execAvsCeiling (s : State) : Host.Outcome State Fault Refusal :=
  perform .core (doWhen (fun d => d.x.pwr.vt == 850000) (seq [replaceSet 0, raise F.PWR_ALARM_avs_ceiling])) s

/-- SHED_EVAL (R500, R501): V_meas in µV. -/
def execShedEval (vMeas : Nat) (s : State) : Host.Outcome State Fault Refusal := perform .core (shedEval vMeas) s

/-- SHED_STEP_DOWN (R501). -/
def execShedStepDown (s : State) : Host.Outcome State Fault Refusal := perform .core shedDown s

/-- UNDERVOLTAGE_RESET (R502). -/
def execUndervoltageReset (s : State) : Host.Outcome State Fault Refusal :=
  perform .island (doWhen Dev.powered (seq [inc R.PWR_CNT_UV_RESET, warmReset 3])) s

/-- SUPPLY_WARN (R501). -/
def execSupplyWarn (s : State) : Host.Outcome State Fault Refusal := perform .pins supplyWarn s

/-- SUPPLY_WARN_RELEASE (R501, R531). -/
def execSupplyWarnRelease (s : State) : Host.Outcome State Fault Refusal := perform .pins supplyGood s

/-- THERMAL_SAMPLE (R503). -/
def execThermalSample (die : Int) (temps : List Nat) (s : State) : Host.Outcome State Fault Refusal :=
  perform .core (thermalSample die temps) s

/-- THERM_WARN_HELD (R503): the warning has been held for 60 s. -/
def execThermWarnHeld (s : State) : Host.Outcome State Fault Refusal :=
  perform .island (doWhen (fun d => d.flag F.PWR_STATUS_therm_warn) (replaceSet 12)) s

/-- THERMAL_TRIP (R504). -/
def execThermalTrip (s : State) : Host.Outcome State Fault Refusal := perform .island thermalTrip s

/-- WATCHDOG_EXPIRY (R505); ignored while a reset or a power cycle runs (R516). -/
def execWatchdogExpiry (s : State) : Host.Outcome State Fault Refusal :=
  perform .island (doWhen (fun d => d.powered && !d.x.pwr.cycleReq) watchdogExpiry) s

/-- PMBUS_POLL (R496). -/
def execPmbusPoll (r : List RailPoll) (s : State) : Host.Outcome State Fault Refusal := perform .island (pmbusPoll r) s

/-- PMBUS_ALERT (R496). -/
def execPmbusAlert (r : List RailPoll) (s : State) : Host.Outcome State Fault Refusal := perform .island (pmbusAlert r) s

/-- HEALTH_REINIT (R508). -/
def execHealthReinit (h : Hdr) (block : Nat) (inst : Nat) (s : State) : Host.Outcome State Fault Refusal :=
  perform .core (rygus h (.healthReinit block inst) (healthReinitSpec block inst)) s

/-- HEALTH_RESET (R508). -/
def execHealthReset (h : Hdr) (s : State) : Host.Outcome State Fault Refusal :=
  perform .core (rygus h .healthReset healthResetSpec) s

/-- HEALTH_POWER_CYCLE (R508). -/
def execHealthPowerCycle (h : Hdr) (s : State) : Host.Outcome State Fault Refusal :=
  perform .core (rygus h .healthPowerCycle healthPowerCycleSpec) s

/-- HEALTH_SUBSCRIBE (R510). -/
def execHealthSubscribe (h : Hdr) (start : Bool) (s : State) : Host.Outcome State Fault Refusal :=
  perform .core (rygus h (.healthSubscribe start) (healthSubscribeSpec start)) s

/-- HEALTH_DEBUG_CHALLENGE (R508, R514). -/
def execHealthDebugChallenge (h : Hdr) (level : Nat) (s : State) : Host.Outcome State Fault Refusal :=
  perform .core (rygus h (.healthChallenge level) (healthChallengeSpec level)) s

/-- HEALTH_DEBUG_RESPONSE (R508, R514). -/
def execHealthDebugResponse (h : Hdr) (b : DebugResponse) (s : State) : Host.Outcome State Fault Refusal :=
  perform .core (rygus h (.healthResponse b) (healthResponseSpec b)) s

/-- TELEMETRY_RECORD (R509, R510). -/
def execTelemetryRecord (s : State) : Host.Outcome State Fault Refusal := perform .core telemetryRecord s

/-- What a write of 1 to PWR_CNT_CLEAR clears (R518). -/
def pwrCntClear : Prog :=
  clearRegs [R.PWR_CNT_SHED, R.PWR_CNT_OVERRIDE, R.PWR_CNT_PMBUS_ERR, R.PWR_CNT_WDOG, R.PWR_CNT_UV_RESET]

/-- PWR_CNT_CLEAR (R518). -/
def execPwrCntClear (s : State) : Host.Outcome State Fault Refusal := perform .core pwrCntClear s

/-- FREEZE (R515). -/
def execFreeze (s : State) : Host.Outcome State Fault Refusal := perform .core freezeClocks s

end Sys2Proof.Machine
end

