-- ==== Sys2Proof/Machine/Jtag.lean ====
section
/-!
DEFINITION. The JTAG TAP (R513, R514): each row loads an instruction and shifts its data register once. The boundary register
and the state chains have no length in the spec; what they capture is a free value, shown with width 0.
-/

namespace Sys2Proof.Machine

/-- The TAP's instruction in force and what drives the pins. -/
def jtagUpd (f : JtagMem → JtagMem) : Prog := pwrUpd fun m => { m with jtag := f m.jtag }

/-- BYPASS: the register captures 0, which leaves on TDO as the bit enters. -/
def jtagBypass : Prog := seq [jtagUpd fun j => { j with instr := 0xFF, drive := 0 }, emit (.tdo 0 1)]

/-- An instruction takes force. -/
def jtagLoad (instr drive : Nat) : Prog := jtagUpd fun j => { j with instr := instr, drive := drive }

/-- What the boundary register or a chain captures leaves on TDO: a free value (assumption 1). -/
def jtagCapture : Prog :=
  .read fun d => seq [emit (.tdo (Config.freeValue d.x.freeCtr) 0), ext fun x => { x with freeCtr := x.freeCtr + 1 }]

/-- An instruction marked level 2 acts as BYPASS while debug is locked below it. -/
def jtagLevel2 (p : Prog) : Prog := .read fun d => if d.fld F.PWR_DEBUG_level = 2 then p else jtagBypass

/-- EXTEST (R513): the pins follow the boundary register. -/
def execExtest (dr : Nat) (s : State) : Host.Outcome State Fault Refusal :=
  perform .island (jtagLevel2 (seq [jtagCapture, jtagLoad 0x00 1, jtagUpd fun j => { j with boundary := dr }])) s

/-- IDCODE (R513). -/
def execIdcode (s : State) : Host.Outcome State Fault Refusal :=
  perform .island (seq [jtagLoad 0x01 0, .read fun d =>
    emit (.tdo (d.fld F.GLB_ID_stepping % 16 * 2 ^ 28 + 0x1024 * 2 ^ 12 + Config.manufacturer % 2 ^ 11 * 2 + 1) 32)]) s

/-- SAMPLE/PRELOAD (R513). -/
def execSamplePreload (dr : Nat) (s : State) : Host.Outcome State Fault Refusal :=
  perform .island (seq [jtagCapture, jtagLoad 0x02 0, jtagUpd fun j => { j with boundary := dr }]) s

/-- CLAMP (R513): the pins hold the boundary register; the data register is the bypass. -/
def execClamp (s : State) : Host.Outcome State Fault Refusal :=
  perform .island (jtagLevel2 (seq [jtagLoad 0x03 2, emit (.tdo 0 1)])) s

/-- HIGHZ (R513): the pins float; the data register is the bypass. -/
def execHighz (s : State) : Host.Outcome State Fault Refusal :=
  perform .island (jtagLevel2 (seq [jtagLoad 0x04 3, emit (.tdo 0 1)])) s

/-- DBG_CHALLENGE (R513, R514): the nonce, then the die identifier. -/
def execDbgChallenge (level : Nat) (s : State) : Host.Outcome State Fault Refusal :=
  perform .island (seq [jtagLoad 0x10 0, doIf (decide (level < 4)) challenge, .read fun d =>
    emit (.tdo (ofLeBytes ((d.challengeWords.flatMap (leBytes 4)).take 56)) 448)]) s

/-- DBG_RESPONSE (R513, R514). -/
def execDbgResponse (b : DebugResponse) (s : State) : Host.Outcome State Fault Refusal :=
  perform .island (seq [jtagLoad 0x11 0, .read fun d => doIf (d.unlocks b) (unlock b.level)]) s

/-- SCAN_READ (R513): the state chains, while the clocks are frozen; otherwise nothing is captured. -/
def execScanRead (s : State) : Host.Outcome State Fault Refusal :=
  perform .island (jtagLevel2 (seq [jtagLoad 0x20 0, .read fun d => doIf d.x.pwr.frozen jtagCapture])) s

/-- BYPASS (R513). -/
def execBypass (bit : Bool) (s : State) : Host.Outcome State Fault Refusal :=
  perform .island (doIf (bit || !bit) jtagBypass) s

end Sys2Proof.Machine
end

