-- ==== Sys2Proof/Machine/Operands.lean ====
section
/-!
DEFINITION. Register access (R4 to R8, R389, R447 to R449): the word each register or table window reads, what a write of a
register does beside storing it, host reads and writes, and the WO actions of the GLB and CMD blocks.
-/

namespace Sys2Proof.Machine

/-! ### What registers read -/

/-- A coefficient of the bank in force of a processor (R150, R167), as its 12-bit code. -/
def Dev.viewCoef (d : Dev) (p b ph t : Nat) : Nat :=
  match (d.prcm p).cfg with
  | none => 0
  | some c =>
    let o := d.procOut c
    let i := (d.codeFmt (d.procInput c)).getD o
    let ((_, w, _, h), _) := c.window i.format
    codeOf 12 (if b < 2 then d.procBank p c c.htaps b w (fmtWidth o.format) ph t
      else d.procBank p c (d.fld (F.PRC_ELLS_vtaps_eff p)) b h (fmtLines o.format) ph t)

/-- A word of the alarm history (R491), entry 0 the newest. -/
def Dev.viewHist (d : Dev) (e w : Nat) : Nat :=
  match d.x.boot.hist[e]? with
  | none => 0
  | some h =>
    match w with
    | 0 => 2 ^ 31 + h.kind % 4 * 2 ^ 29 + h.block % 32 * 2 ^ 24 + h.inst % 65536 * 2 ^ 8 + h.code % 256
    | 1 => h.sec
    | 2 => h.ns
    | _ => h.seq

/-- A word of the windows that no register word holds (R167, R491). -/
def Dev.viewWord (d : Dev) (off : Nat) : Nat :=
  let slot := d.fld F.PRC_VIEW_slot
  let p := d.fld F.PRC_VIEW_proc
  if off < 0x1800000 then d.viewHist ((off - 0x28000) / 16) (off / 4 % 4)
  else if off < 0x1880000 then
    let v := KV.get 0 (KV.get [] d.x.luts slot) ((off - 0x1800000) / 8)
    if off / 4 % 2 = 0 then bitsOf v 12 12 * 2 ^ 16 + v % 4096 else bitsOf v 24 12
  else if off < 0x1890000 then
    (KV.get [] (d.prcm p).curves ((off - 0x1880000) / 0x2000)).getD (off % 0x2000 / 4) 0
  else
    let b := (off - 0x1890000) / 0x1000
    let i := off % 0x1000 / 4
    if b < 2 then d.viewCoef p b (i / 16) (i % 16)
    else if off % 0x1000 < 0x800 then d.viewCoef p 2 (i / 8) (i % 8)
    else d.viewCoef p 3 ((i - 512) / 8) (i % 8)

/-- The word a register reads: most hold it, some show other state. -/
def Dev.regWord (d : Dev) (r : Reg) : Nat :=
  let with_ := fun (f : Field) (v : Nat) => putBits (d.rd r) f.lo f.width v
  match r.kind with
  | .GLB_IRQ_STATUS => d.irqStatus
  | .GLB_AFL_STATUS => boolBit (d.x.ctl.afl.length == 32) * 2 ^ 31 + d.x.ctl.afl.length
  | .GLB_AFL_E => (d.x.ctl.afl.headD []).getD r.i 0
  | .GLB_SUM => d.summary r.i r.j
  | .XPT_VIDEO => d.rd (R.DST_CUR_VIDEO r.i) &&& 0x10FFF
  | .XPT_ROUTES => d.rd (R.DST_CUR_BREAK r.i)
  | .XPT_HOLD => d.rd (R.DST_HOLD r.i)
  | .XPT_LANDED => d.rd (R.DST_LANDED_LO r.i)
  | .MTX_SQ_STATE => d.sqState
  | .MTX_P_STATUS => d.portStatus r.i
  | .MTX_P_HELD => d.portHeld r.i
  | .MTX_POOL => with_ F.MTX_POOL_in_flight d.inFlight
  | .MTX_STATUS => with_ F.MTX_STATUS_hold_active (boolBit d.holdActive)
  | .FLOW_TABLE_USED => d.flowUsed
  | .FLOW_RX_ON => d.flowRxOn
  | .FLOW_TX_ON => d.flowTxOn
  | .FLOW_OPAQUE_USED => d.opaqueTx.length * 2 ^ 16 + d.opaqueRx.length
  | .FLOW_STAGE_FILL => d.flowStageKib
  | .FLOW_TX_STATUS => d.flowOwner r.i + d.rd r % 8
  | .QUAD_REFCLK_FREQ => Config.refclkOffset r.i (d.x.time.clk / (1000000 * nsU)) % 2 ^ 32
  | .QUAD_POWER => Config.quadPower r.i (d.x.time.clk / (1000000 * nsU)) % 2 ^ 16
  | .TWIN_LVDS_STATUS => with_ F.TWIN_LVDS_STATUS_errors (Config.lvdsErrors (d.x.time.clk / (1000000 * nsU)) % 2 ^ 16)
  | .CMD_SESS_IDLE_MS =>
    if d.flag (F.CMD_SESS_STATE_open r.i) then min 0xFFFFFFFF ((d.x.time.clk - (d.sessm r.i).lastAt) / (1000000 * nsU)) else 0
  | _ => d.rd r

/-- The word a mapped BAR0 offset reads. -/
def Dev.readWord (d : Dev) (off : Nat) : Nat :=
  let a := off / 4 * 4
  if tableView a then d.viewWord a else match regAt a with | some r => d.regWord r | none => 0

/-- The high word of the 64-bit value whose low word a register is (R5). -/
def highOf (r : Reg) : Option Reg :=
  let at_ := fun (k : RK) => some { r with kind := k }
  match r.kind with
  | .TIME_SNAP_SEC_LO => at_ .TIME_SNAP_SEC_HI
  | .OTG_FRAME_LO => at_ .OTG_FRAME_HI
  | .SRC_HOG_BASE_LO => at_ .SRC_HOG_BASE_HI
  | .DST_LANDED_LO => at_ .DST_LANDED_HI
  | .AUD_BLOCK_LO => at_ .AUD_BLOCK_HI
  | .MAC_ADDR_LO => at_ .MAC_ADDR_HI
  | .MAC_GATE_BASE_SEC_LO => at_ .MAC_GATE_BASE_SEC_HI
  | .TWIN_SWAP_FRAME_LO => at_ .TWIN_SWAP_FRAME_HI
  | .GLB_DIE_ID_LO => at_ .GLB_DIE_ID_HI
  | .CMD_RING_SQ_BASE_LO => at_ .CMD_RING_SQ_BASE_HI
  | .CMD_RING_CQ_BASE_LO => at_ .CMD_RING_CQ_BASE_HI
  | .BOOT_UPD_TIME_LO => at_ .BOOT_UPD_TIME_HI
  | .FADDR_MAC_LO => at_ .FADDR_MAC_HI
  | _ => none

/-- A register is read: a latched high word returns what was latched, and a low word latches its high word (R5). -/
def regRead (r : Reg) : Prog :=
  .read fun d =>
    match d.x.ctl.latch.find? fun e => e.1 == r with
    | some (_, w) =>
      seq [ctlUpd fun c => { c with latch := c.latch.filter fun e => e.1 ≠ r }, emit (.hostRead w.toNat)]
    | none => seq [
        emit (.hostRead (d.regWord r)),
        match highOf r with
        | some h => ctlUpd fun c => { c with
            latch := (c.latch.filter fun e => e.1 ≠ h) ++ [(h, BitVec.ofNat 32 (d.regWord h))] }
        | none => .nop]

/-! ### WO actions of the GLB and CMD blocks -/

/-- GLB_IRQ_EOI.vector (R445): the message is sent again while the condition is true. -/
def irqEoi (v : Nat) : Prog := doWhen (fun d => bitOf d.vecTrue (v % 64)) (sendVector (v % 64))

/-- GLB_AFL_POP (R452). -/
def aflPop : Prog := ctlUpd fun c => { c with afl := c.afl.drop 1 }

/-- GLB_CNT_CLEAR (R452). -/
def glbCntClear : Prog := clearRegs [R.GLB_CNT_AFL, R.GLB_CNT_AFL_DROP]

/-- CMD_CNT_CLEAR (R453): CMD_CNT_*, the ring and session counters and CMD_COMMIT_LAT_MAX. -/
def cmdCntClear : Prog :=
  clearRegs ([R.CMD_CNT_RX, R.CMD_CNT_REJECTED, R.CMD_CNT_AUTH_FAIL, R.CMD_CNT_REPLAY, R.CMD_CNT_DUP, R.CMD_CNT_DROP_CPL,
    R.CMD_COMMIT_LAT_MAX] ++ (List.range 16).flatMap (fun r => [R.CMD_RING_CNT_CMD r, R.CMD_RING_CNT_CPL r]) ++
    (List.range 32).map fun e => R.CMD_SESS_CNT_CMD e)

/-! ### What a write does -/

/-- The function whose control word, with its enable in bit 0, a register is. -/
def ctrlFn (r : Reg) : Option Fn :=
  match r.kind with
  | .TB_CTRL => some (.tb (Fin.ofNat 4 r.i))
  | .OTG_CTRL => some (.otg (Fin.ofNat 32 r.i))
  | .SRC_CTRL => some (.src (Fin.ofNat 1024 r.i))
  | .DST_CTRL => some (.dst (Fin.ofNat 1024 r.i))
  | .PRC_CTRL => some (.prc (Fin.ofNat 512 r.i))
  | .MVH_CTRL => some (.mvh (Fin.ofNat 32 r.i))
  | .AUD_CTRL => some .aud
  | .SAP_CTRL => some (.sap (Fin.ofNat 16 r.i))
  | .HLK_CTRL => some (.hlk (Fin.ofNat 96 r.i))
  | .LANE_CTRL => some (.lane (Fin.ofNat 96 r.i))
  | .QUAD_CTRL => some (.quad (Fin.ofNat 24 r.i))
  | .SDI_CTRL => some (.sdi (Fin.ofNat 96 r.i))
  | .MAC_CTRL => some (.mac (Fin.ofNat 97 r.i))
  | .FLOW_RX_CTRL => some (.flowRx (Fin.ofNat 8192 r.i))
  | .FLOW_TX_CTRL => some (.flowTx (Fin.ofNat 8192 r.i))
  | .HBM_CTRL => some .hbm
  | .HBM_CH_CTRL => some (.hbmCh (Fin.ofNat 64 r.i))
  | .TWIN_CTRL => some .twin
  | .CMD_RING_CTRL => some (.ring (Fin.ofNat 16 r.i))
  | _ => none

/-- The function that must be OFF for the fields of a register that are written only while OFF. -/
def offFn (r : Reg) : Option Fn :=
  match r.kind with
  | .SRC_FMT => some (.src (Fin.ofNat 1024 r.i))
  | .QUAD_SWAP => some (.quad (Fin.ofNat 24 r.i))
  | .CMD_RING_SQ_BASE_LO | .CMD_RING_SQ_BASE_HI | .CMD_RING_CQ_BASE_LO | .CMD_RING_CQ_BASE_HI =>
    some (.ring (Fin.ofNat 16 r.i))
  | _ => ctrlFn r

/-- The bits of a register that cannot be written now, its function not being OFF (R442). -/
def Dev.offMask (d : Dev) (r : Reg) : Nat :=
  match offFn r with
  | some f => if d.fst f == .off then 0 else (regInfo r.kind).off
  | none => 0

/-- A word with the bits of a mask taken from another. -/
def mergeBits (old mask new : Nat) : Nat := old - (old &&& mask) + (new &&& mask)

/-- A register takes a new word, with what the write does beside storing it; an enable bit stays as it is. -/
def regStore (r : Reg) (v : Nat) : Prog :=
  match r.kind with
  | .TB_CTRL => tbWriteCtrl r.i v
  | .DPLL_CTRL => dpllWriteCtrl v
  | .REF_CTRL => refWriteCtrl r.i v
  | .AUD_CTRL => seq [audRate (bitOf v 4), .read fun d => wr r (putBits v 0 1 (d.rd r))]
  | .LANE_DFE => laneTapWrite r.i r.j false v
  | .LANE_DFFE => laneTapWrite r.i r.j true v
  | .LANE_TXFFE => seq [wr r v, txScaled r.i]
  | _ => if (ctrlFn r).isSome then .read fun d => wr r (putBits v 0 1 (d.rd r)) else wr r v

/-- The enable bit of a new control word enables or disables its function. -/
def regSwitch (r : Reg) (v : Nat) : Prog :=
  match ctrlFn r with
  | some f => fnSwitch f (bitOf v 0)
  | none => .nop

/-- A register is written. -/
def regApply (r : Reg) (v : Nat) : Prog := seq [regStore r v, regSwitch r v]

/-- What the WO and W1S bits of a written word ask for. -/
def regAction (r : Reg) (v : Nat) : Prog :=
  let one := fun (p : Prog) => doIf (bitOf v 0) p
  match r.kind with
  | .TIME_SNAP => one (timeSnap .host)
  | .TB_ADJ_CMD => match v % 4 with | 1 => tbStep r.i | 2 => tbSlew r.i | _ => .nop
  | .TB_SET_CMD => one (.read fun d => tbSetTo r.i
      (timeOf (d.fld (F.TB_SET_SEC_LO r.i) + d.fld (F.TB_SET_SEC_HI r.i) * 2 ^ 32) (d.fld (F.TB_SET_NS r.i))))
  | .DPLL_REALIGN => one realignArm
  | .EVT_CTRL => if bitOf v 1 then evtDisarm r.i else one (evtArm r.i)
  | .LANE_SCAN_CTRL => doIf (bitOf v 31) (laneScanGo r.i)
  | .SRC_CNT_CLEAR => one (srcCntClear (Fin.ofNat 1024 r.i))
  | .DST_CNT_CLEAR => one (dstCntClear (Fin.ofNat 1024 r.i))
  | .PRC_CNT_CLEAR => one (prcCntClear (Fin.ofNat 512 r.i))
  | .MVH_CNT_CLEAR => one (mvhCntClear (Fin.ofNat 32 r.i))
  | .AUD_CNT_CLEAR => one audCntClear
  | .SAP_CNT_CLEAR => one (sapCntClear (Fin.ofNat 16 r.i))
  | .HLK_CNT_CLEAR => one (hlkCntClear (Fin.ofNat 96 r.i))
  | .LANE_CNT_CLEAR => one (laneCntClear (Fin.ofNat 96 r.i))
  | .SDI_CNT_CLEAR => one (sdiCntClear (Fin.ofNat 96 r.i))
  | .MAC_CNT_CLEAR => one (macCntClear (Fin.ofNat 97 r.i))
  | .MAC_TSQ_CNT_CLEAR => one macTsqCntClear
  | .FLOW_CNT_CLEAR => flowCntClear (bitOf v 16) (Fin.ofNat 8192 v)
  | .HBM_CNT_CLEAR => one hbmCntClear
  | .HBM_ELOG_POP => one elogPop
  | .MTX_LOG_POP => one mtxLogPop
  | .MTX_CNT_CLEAR => one mtxCntClear
  | .TWIN_CNT_CLEAR => one twinCntClear
  | .BOOT_CNT_CLEAR => one bootCntClear
  | .PWR_CNT_CLEAR => one pwrCntClear
  | .GLB_IRQ_EOI => irqEoi v
  | .GLB_AFL_POP => one aflPop
  | .GLB_CNT_CLEAR => one glbCntClear
  | .CMD_CNT_CLEAR => one cmdCntClear
  | _ => .nop

/-! ### Host accesses (R389, R449) -/

/-- The host reaches the device once its endpoint is enabled (R454). -/
def hostDo (p : Prog) : Prog := doWhen (fun d => d.x.ctl.endpoint) p

/-- A whole host write of a register word by a master (0 the PCIe host, 1 debug access): firmware-written fields keep theirs, and the write is logged where it would change
one, or where the word has no other field (R449); RO fields ignore it. -/
def hostWriteReg (master : Nat) (r : Reg) (off v : Nat) : Prog :=
  .read fun d =>
    let i := regInfo r.kind
    let cur := d.rd r
    let mine := i.rw ||| i.w1c ||| i.w1s ||| i.wo
    let rw := i.rw - (i.rw &&& d.offMask r)
    let stored := mergeBits cur rw v
    seq [
      doIf (i.fw ≠ 0 && (mine == 0 || (cur &&& i.fw) ≠ (v &&& i.fw))) (aflPush master .fwOwned 15 0 off v),
      doIf (i.rw ≠ 0 || i.w1c ≠ 0) (regApply r (stored - (stored &&& (v &&& i.w1c)))),
      regAction r v]

/-- A host write to BAR0, or one of debug access (R4, R389, R448, R449). -/
def hostWrite (master addr v be : Nat) : Prog :=
  let off := addr % 2 ^ 26 / 4 * 4
  if 0x2000000 ≤ off then apertureAccess true (off - 0x2000000) v be
  else if !offsetMapped off then aflPush master .unmappedWrite be 0 off v
  else if be % 16 ≠ 15 then aflPush master .partialWrite be 0 off v
  else match regAt off with
    | none => doIf (decide (0x1000000 ≤ off)) (aflPush master .windowWrite 15 0 off v)
    | some r =>
      if 0x1000000 ≤ off ∧ r.kind ≠ .PRC_VIEW then aflPush master .windowWrite 15 0 off v
      else if 0x46000 ≤ off ∧ off < 0x48000 ∧ r.i < 48 ∧ r.kind ≠ .EVT_STATUS then aflPush master .fwTimer 15 0 off v
      else if r.kind = .MAC_TSQ_POP then aflPush master .fwPop 15 0 off v
      else if r.kind = .MAC_GATE_CMD then aflPush master .fwOwned 15 0 off v
      else hostWriteReg master r off v

/-- A host read of BAR0 (R5, R356, R389). -/
def hostReadAt (addr : Nat) : Prog :=
  let off := addr % 2 ^ 26 / 4 * 4
  if 0x2000000 ≤ off then apertureAccess false (off - 0x2000000) 0 15
  else if !offsetMapped off then seq [aflPush 0 .unmappedRead 15 0 off 0, emit (.hostRead 0xFFFFFFFF)]
  else match regAt off with
    | some r => regRead r
    | none => .read fun d => emit (.hostRead (d.viewWord off))

/-- REGISTER_WRITE (R449). -/
def execRegisterWrite (addr : Nat) (value : Word) (be : Nat) (s : State) : Host.Outcome State Fault Refusal :=
  perform .core (hostDo (hostWrite 0 addr value.toNat be)) s

/-- COUNTER_LOW_READ (R5): a host read, which latches the high word where it reads a low one. -/
def execCounterLowRead (addr : Nat) (s : State) : Host.Outcome State Fault Refusal :=
  perform .core (hostDo (hostReadAt addr)) s

/-- HOST_UNMAPPED_ACCESS (R389, R449): an offset that the map holds is no unmapped access. -/
def execHostUnmappedAccess (write : Bool) (addr : Nat) (value : Word) (be : Nat) (s : State) :
    Host.Outcome State Fault Refusal :=
  let off := addr % 2 ^ 26
  perform .core (hostDo (doIf (decide (off < 0x2000000) && !offsetMapped off)
    (if write then aflPush 0 .unmappedWrite be 0 off value.toNat
     else seq [aflPush 0 .unmappedRead be 0 off 0, emit (.hostRead 0xFFFFFFFF)]))) s

/-- GLB_IRQ_EOI (R445). -/
def execGlbIrqEoi (vector : Fin 64) (s : State) : Host.Outcome State Fault Refusal := perform .core (irqEoi vector) s

/-- GLB_AFL_POP (R452). -/
def execGlbAflPop (s : State) : Host.Outcome State Fault Refusal := perform .core aflPop s

/-- GLB_CNT_CLEAR (R452). -/
def execGlbCntClear (s : State) : Host.Outcome State Fault Refusal := perform .core glbCntClear s

/-- CMD_CNT_CLEAR (R453). -/
def execCmdCntClear (s : State) : Host.Outcome State Fault Refusal := perform .core cmdCntClear s

end Sys2Proof.Machine
end

