-- ==== Sys2Proof/Machine/Rings.lean ====
section
/-!
DEFINITION. The two intakes: command rings with their doorbells and descriptor fetch (R427 to R432), host resets (R426), MSI-X
and coalescing (R445), and the sessions of the management Ethernet (R433 to R436).
-/

namespace Sys2Proof.Machine

/-! ### Command rings -/

/-- A ring enters FAULT with a code (R432). -/
def ringFault (r : RingId) (code : Nat) : Prog := fnGo (.ring r) (fnFault (.ring r) code)

/-- The host writes a ring's SQ tail (R427, R432). -/
def sqTail (r : RingId) (v : Nat) : Prog :=
  doWhen (fun d => d.on (.ring r)) (.read fun d =>
    let n := d.ringSize r
    let t := (d.ringm r).sqTail
    let waiting := (t + n - d.fld (F.CMD_RING_SQ_HEAD r)) % n
    if n ≤ v || decide (n ≤ (v + n - t) % n + waiting) then ringFault r 2
    else ringUpd r fun m => { m with sqTail := v })

/-- The host writes a ring's CQ head: every entry up to it is signalled (R427, R432, R445). -/
def cqHead (r : RingId) (v : Nat) : Prog :=
  doWhen (fun d => d.on (.ring r)) (.read fun d =>
    let n := d.ringSize r
    let m := d.ringm r
    let by_ := (v + n - m.cqHead) % n
    if n ≤ v || decide (m.cqUsed < by_) then ringFault r 2
    else
      let left := min m.unsignalled (m.cqUsed - by_)
      ringUpd r fun m => { m with
        cqHead := v, cqUsed := m.cqUsed - by_, unsignalled := left, coalDue := m.coalDue && left == m.unsignalled })

/-- A descriptor is as R428 asks. -/
def Desc.legal (d : Desc) : Bool :=
  decide (16 ≤ d.msgLen) && decide (d.msgLen ≤ 65536) && d.msgLen % 4 == 0 && d.msgAddr % 4 == 0 &&
  decide (d.respLen ≤ 1048576) && d.respLen % 64 == 0 && (d.respLen == 0 || d.respAddr % 64 == 0) && d.hdrLen == d.msgLen

/-- The device fetches a ring's next descriptor (R430, R432), with room in the CQ for one more command. -/
def descFetch (r : RingId) (x : Desc) : Prog :=
  .read fun d =>
    let m := d.ringm r
    let head := d.fld (F.CMD_RING_SQ_HEAD r)
    doIf (d.on (.ring r) && m.fetching.isNone && head ≠ m.sqTail && decide (2 ≤ d.cqFree r))
      (if x.err then ringFault r 1
       else if !Desc.legal x then ringFault r 3
       else ringUpd r fun m => { m with
         fetching := some { sqIndex := head, respAddr := x.respAddr, respLen := x.respLen }, reserved := m.reserved + 2 })

/-- The message of the descriptor fetched is completely received (R430): the SQ head advances. -/
def fetchDone (r : RingId) : Prog :=
  .read fun d => doIf ((d.ringm r).fetching.isSome) (seq [
    setF (F.CMD_RING_SQ_HEAD r) ((d.fld (F.CMD_RING_SQ_HEAD r) + 1) % d.ringSize r),
    ringUpd r fun m => { m with fetching := none, reserved := m.reserved - 2 }])

/-- A word of a command ring's registers. -/
def ringWord (r : Reg) : Bool :=
  decide (0xE01000 ≤ (regInfo r.kind).base) && decide ((regInfo r.kind).base < 0xE02000)

/-- A host reset (R426): the endpoint, every ring and the host's interrupt enables; nothing else. The link is down after all
but a function level reset. -/
def hostReset (kind : HostReset) : Prog :=
  seq [
    .act (.regReset fun r => ringWord r || r.kind == .GLB_IRQ_PIN_EN || r.kind == .GLB_IRQ_MSI_EN || r.kind == .GLB_IRQ_MAP),
    each (List.range 16) intakeEnd,
    ctlUpd fun c => { c with rings := [], vecMask := 0xFFFFFFFFFFFFFFFF, vecPend := 0, vecCond := 0 },
    each (List.finRange 16) fun r => fnMem (.ring r) fun m => { m with sleepReq := false, recovering := false, waits := false },
    doIf (kind ≠ .flr) (setF F.GLB_STATUS_host_link_up 0)]

/-! ### Sessions -/

/-- A datagram's bytes before its tag (R433). -/
def gramBytes (type session counter : Nat) (payload : List Byte) : List Byte :=
  leBytes 2 0x5952 ++ leBytes 1 1 ++ leBytes 1 type ++ leBytes 4 session ++ leBytes 8 counter ++ payload

/-- The tag of a datagram under a key. -/
def gramTag (key : List Byte) (type session counter : Nat) (payload : List Byte) : List Byte :=
  (hmacSha256 key (gramBytes type session counter payload)).take 16

/-- The tag of a datagram verifies. -/
def MgmtGram.verifies (g : MgmtGram) (type : Nat) (key : List Byte) : Bool :=
  g.tag == gramTag key type g.session g.counter g.payload

/-- A datagram fails authentication (R434, R435). -/
def authFail : Prog := seq [inc R.CMD_CNT_AUTH_FAIL, raise F.CMD_ALARM_auth_fail]

/-- The management transport runs: it is enabled and the configuration is in force. -/
def Dev.mgmtOn (d : Dev) : Bool := d.flag F.CMD_CTRL_mgmt_en

/-- The key of a controller (R434): the configuration image holds at most 64. -/
def Dev.ctlKey (d : Dev) (c : Nat) : Option (List Byte) :=
  match d.x.boot.cfg with
  | some s => ((s.keys.take 64).find? fun e => e.1 == c).map (·.2)
  | none => none

/-- The bytes of a random number of the hardware's source (assumption 1). -/
def randomBytes (n ctr : Nat) : List Byte := leBytes n (Config.freeValue ctr)

/-- The payload of an OPEN_REPLY (R434). -/
def replyPayload (controller status : Nat) (nonce : List Byte) : List Byte := leBytes 2 controller ++ leBytes 2 status ++ nonce

/-- A session opens in a free slot (R434). -/
def sessOpen (e : SessId) (g : MgmtGram) (c : Nat) (key : List Byte) : Prog :=
  .read fun d =>
    let idb := randomBytes 4 d.x.freeCtr
    let nd := randomBytes 16 (d.x.freeCtr + 1)
    let id := ofLeBytes idb
    let k := hmacSha256 key ([0x52#8, 0x59#8, 0x47#8, 0x53#8] ++ (g.payload.drop 4).take 16 ++ nd ++ idb)
    seq [
      ext fun x => { x with freeCtr := x.freeCtr + 2 },
      setF (F.CMD_SESS_STATE_controller e) c, setF (F.CMD_SESS_STATE_open e) 1,
      wr (R.CMD_SESS_ID e) id, wr (R.CMD_SESS_PEER_PORT e) g.port,
      each (List.range 4) fun i => wr (R.CMD_SESS_PEER_ADDR e i) (g.addr.getD i 0),
      sessUpd e fun _ => { key := k, lastAt := d.x.time.clk },
      cmdStatus,
      emit (.openReply id c 0 nd (gramTag k 1 id 0 (replyPayload c 0 nd)))]

/-- An OPEN is refused because every session is in use. -/
def sessFull (c : Nat) (key : List Byte) : Prog :=
  .read fun d =>
    let nd := randomBytes 16 d.x.freeCtr
    seq [
      ext fun x => { x with freeCtr := x.freeCtr + 1 },
      emit (.openReply 0 c 1 nd (gramTag key 1 0 0 (replyPayload c 1 nd)))]

/-- OPEN (R434): at most 16 in a second are processed. -/
def sessionOpen (g : MgmtGram) : Prog :=
  doWhen (·.mgmtOn) (.read fun d =>
    let recent := within d.x.time.clk secU d.x.ctl.opens
    doIf (decide (recent.length < 16)) (seq [
      ctlUpd fun c => { c with opens := recent ++ [d.x.time.clk] },
      let c := ofLeBytes (g.payload.take 2)
      match d.ctlKey c with
      | none => authFail
      | some key =>
        if g.payload.length ≠ 20 || !MgmtGram.verifies g 0 key then authFail
        else match (List.finRange 32).find? fun (e : SessId) => !d.flag (F.CMD_SESS_STATE_open e) with
          | some e => sessOpen e g c key
          | none => sessFull c key]))

/-- The open session a datagram names. -/
def Dev.sessOf (d : Dev) (g : MgmtGram) : Option SessId :=
  (List.finRange 32).find? fun (e : SessId) => d.flag (F.CMD_SESS_STATE_open e) && d.rd (R.CMD_SESS_ID e) == g.session % 2 ^ 32

/-- A DATA or CLOSE datagram is verified (R435); an accepted one goes on to what its payload holds. -/
def sessionGram (g : MgmtGram) (type : Nat) (p : SessId → Prog) : Prog :=
  doWhen (·.mgmtOn) (.read fun d =>
    match d.sessOf g with
    | none => authFail
    | some e =>
      let m := d.sessm e
      if !MgmtGram.verifies g type m.key then authFail
      else if m.rxSeen.contains g.counter || decide (g.counter + 64 ≤ m.rxHigh) then
        seq [inc R.CMD_CNT_REPLAY, raise F.CMD_ALARM_replay]
      else
        let high := max m.rxHigh g.counter
        seq [
          sessUpd e fun m => { m with
            rxHigh := high, lastAt := d.x.time.clk
            rxSeen := (g.counter :: m.rxSeen).filter fun c => decide (high < c + 64) },
          p e])

/-- A session ends (R435, R451, R510). -/
def sessionEnd (e : SessId) : Prog :=
  seq [
    intakeEnd (16 + e.val),
    clearRegs ([R.CMD_SESS_STATE e, R.CMD_SESS_ID e, R.CMD_SESS_PEER_PORT e] ++ (List.range 4).map fun i => R.CMD_SESS_PEER_ADDR e i),
    sessUpd e fun _ => {}, cmdStatus]

/-! ### Rows -/

/-- SQ_TAIL_DOORBELL (R427, R432). -/
def execSqTailDoorbell (r : RingId) (v : Nat) (s : State) : Host.Outcome State Fault Refusal :=
  perform .core (hostDo (sqTail r v)) s

/-- CQ_HEAD_DOORBELL (R427, R432, R445). -/
def execCqHeadDoorbell (r : RingId) (v : Nat) (s : State) : Host.Outcome State Fault Refusal :=
  perform .core (hostDo (cqHead r v)) s

/-- CMD_DESC_FETCH (R428, R430, R432). -/
def execCmdDescFetch (r : RingId) (d : Desc) (s : State) : Host.Outcome State Fault Refusal :=
  perform .core (hostDo (descFetch r d)) s

/-- PCIE_HOST_RESET (R426, R451). -/
def execPcieHostReset (kind : HostReset) (s : State) : Host.Outcome State Fault Refusal :=
  perform .core (hostDo (hostReset kind)) s

/-- PCIE_LINK_UP (R426, R452). -/
def execPcieLinkUp (s : State) : Host.Outcome State Fault Refusal :=
  perform .core (hostDo (setF F.GLB_STATUS_host_link_up 1)) s

/-- MSIX_VECTOR_UNMASK (R445): a pending message is sent. -/
def execMsixVectorUnmask (v : Fin 64) (s : State) : Host.Outcome State Fault Refusal :=
  perform .core (hostDo (.read fun d => seq [
    ctlUpd fun c => { c with
      vecMask := if bitOf c.vecMask v then c.vecMask - 2 ^ v.val else c.vecMask
      vecPend := if bitOf c.vecPend v then c.vecPend - 2 ^ v.val else c.vecPend },
    doIf (bitOf d.x.ctl.vecPend v) (emit (.msix v))])) s

/-- IRQ_COAL_TIMEOUT (R445). -/
def execIrqCoalTimeout (r : RingId) (s : State) : Host.Outcome State Fault Refusal :=
  perform .core (doWhen (fun d => decide (0 < (d.ringm r).unsignalled) && decide (0 < d.fld (F.CMD_RING_COAL_time_us r)))
    (ringUpd r fun m => { m with coalDue := true })) s

/-- OPEN (R434). -/
def execOpenSession (d : MgmtGram) (s : State) : Host.Outcome State Fault Refusal := perform .core (sessionOpen d) s

/-- CLOSE (R435). -/
def execCloseSession (d : MgmtGram) (s : State) : Host.Outcome State Fault Refusal :=
  perform .core (sessionGram d 4 sessionEnd) s

/-- SESSION_TIMEOUT (R435): 30 s without an accepted datagram. -/
def execSessionTimeout (e : SessId) (s : State) : Host.Outcome State Fault Refusal :=
  perform .core (doWhen (fun d => d.flag (F.CMD_SESS_STATE_open e) && decide ((d.sessm e).lastAt + 30 * secU ≤ d.x.time.clk))
    (seq [raise F.CMD_ALARM_session_timeout, sessionEnd e])) s

/-- FW_HEARTBEAT (R423, R473): firmware, once loaded, counts milliseconds; once a second it sets the length of the MRAM window. -/
def execFwHeartbeat (s : State) : Host.Outcome State Fault Refusal :=
  perform .core (doWhen (fun d => d.x.ctl.endpoint) (.read fun d =>
    let n := (d.rd R.GLB_HEARTBEAT + 1) % 2 ^ 32
    seq [wr R.GLB_HEARTBEAT n, doIf (n % 1000 == 0) mramAdapt])) s

end Sys2Proof.Machine
end

