-- ==== Sys2Proof/Machine/Query.lean ====
section
/-!
DEFINITION. QUERY_* and CONFIG_SET (R441): what they answer, which fields CONFIG_SET writes, and the checks of the chapters
whose fields it writes.
-/

namespace Sys2Proof.Machine

/-! ### QUERY_* -/

/-- QUERY_XPT: the window entries of R101. -/
def queryXptSpec (first count : Nat) : CmdSpec where
  opcode := 0x0400
  ok := decide (first < 1024) && decide (first + count ≤ 1024)
  prog o := .read fun d => finish o.id 0 ((List.range count).flatMap fun i =>
    [R.XPT_VIDEO (first + i), R.XPT_ROUTES (first + i), R.XPT_HOLD (first + i), R.XPT_LANDED (first + i)].map d.regWord)

/-- The block of a common state word's kind (R444). -/
def fstateBlock : RK → Option Nat
  | .CMD_RING_FSTATE => some 0
  | .TB_FSTATE | .DPLL_FSTATE | .OTG_FSTATE => some 2
  | .SRC_FSTATE => some 3
  | .DST_FSTATE => some 4
  | .PRC_FSTATE => some 5
  | .MVH_FSTATE => some 6
  | .AUD_FSTATE => some 7
  | .SAP_FSTATE => some 8
  | .HLK_FSTATE => some 9
  | .LANE_FSTATE | .QUAD_FSTATE => some 10
  | .SDI_FSTATE => some 11
  | .MAC_FSTATE => some 12
  | .FLOW_RX_FSTATE | .FLOW_TX_FSTATE => some 13
  | .HBM_FSTATE | .HBM_CH_FSTATE => some 14
  | .MTX_FSTATE => some 15
  | .TWIN_FSTATE => some 16
  | .PWR_FSTATE => some 17
  | .BOOT_FSTATE => some 18
  | _ => none

/-- A block's FSTATE summary: bit n is set while some function of the block is in the state of code n, for the codes other
than OFF (assumption 60). -/
def Dev.fstateSummary (d : Dev) (b : Nat) : Nat :=
  bitMask (([1, 2, 3, 4] : List Nat).filter fun n =>
    d.regs.any fun e => fstateBlock e.1.kind == some b && (FWord.decode e.2.toNat).state.code == n)

/-- QUERY_STATUS: GLB_STATUS, every block's FSTATE summary and GLB_IRQ_STATUS. -/
def queryStatusSpec : CmdSpec where
  opcode := 0x0401
  prog o := .read fun d =>
    finish o.id 0 (d.rd R.GLB_STATUS :: (List.range 19).map d.fstateSummary ++ [d.irqStatus])

/-- The code of a command's state (R440). -/
def CmdState.code (s : CmdState) : Nat := statusWord s 0 / 2 ^ 28

/-- QUERY_COMMAND: the state of a command of the same intake; 0 where the intake has no such command. -/
def queryCommandSpec (seq_ : Nat) : CmdSpec where
  opcode := 0x0402
  prog o := .read fun d =>
    let key := match (d.x.ctl.cmds.find? fun c => c.id == o.id).bind (·.hdr) with
      | some h => intakeKey h.intake
      | none => 0
    let live := d.x.ctl.cmds.reverse.find? fun c => c.id ≠ o.id && c.seq == seq_ && !c.lost &&
      (match c.hdr with | some h => intakeKey h.intake == key | none => false)
    let done := d.x.ctl.finished.find? fun e => intakeKey e.1 == key && e.2.1 == seq_
    finish o.id 0 [match live with
      | some c => c.state.code
      | none => match done with | some e => e.2.2.code | none => 0]

/-- One word that QUERY_REGS reads, and whether its offset is unmapped. -/
def Dev.queryWord (d : Dev) (off : Nat) : Nat × Bool :=
  if 0x2000000 ≤ off then
    let a := d.apertureAddr (off - 0x2000000)
    (if d.poisoned a 4 then 0xFFFFFFFF else ofLeBytes (d.mem.getBytes a 4), false)
  else if offsetMapped off then (d.readWord off, false) else (0xFFFFFFFF, true)

/-- QUERY_REGS: an unmapped word reads all ones and is logged (R389, R450). -/
def queryRegsSpec (offset count : Nat) : CmdSpec where
  opcode := 0x0403
  ok := offset % 4 == 0 && decide (1 ≤ count) && decide (count ≤ 256) && decide (offset + 4 * count ≤ 2 ^ 26)
  prog o := .read fun d =>
    let offs := (List.range count).map fun i => offset + 4 * i
    seq [
      each (offs.filter fun a => (d.queryWord a).2) fun a => aflPush 2 .unmappedRead 15 o.controller a 0,
      finish o.id 0 (offs.map fun a => (d.queryWord a).1)]

/-- The meaning of a QUERY_* command. -/
def querySpec : Cmd → Option CmdSpec
  | .queryXpt f c => some (queryXptSpec f c)
  | .queryStatus => some queryStatusSpec
  | .queryCommand q => some (queryCommandSpec q)
  | .queryRegs o c => some (queryRegsSpec o c)
  | _ => none

/-! ### CONFIG_SET -/

/-- The alarm enable registers. -/
def alarmEnable (k : RK) : Bool :=
  ([.CMD_ALARM_EN, .GLB_ALARM_EN, .TIME_IRQ_ENABLE, .SRC_ALARM_EN, .DST_ALARM_EN, .PRC_ALARM_EN, .MVH_ALARM_EN,
    .DMON_ALARM_EN, .AUD_ALARM_EN, .SAP_ALARM_EN, .HLK_ALARM_EN, .LANE_ALARM_EN, .QUAD_ALARM_EN, .SDI_ALARM_EN,
    .MAC_ALARM_EN, .FLOW_RX_ALARM_EN, .FLOW_TX_ALARM_EN, .HBM_ALARM_EN, .MTX_ALARM_EN, .TWIN_ALARM_EN, .PWR_ALARM_EN,
    .BOOT_ALARM_EN] : List RK).contains k

/-- The bits of a register that CONFIG_SET writes: RW fields and firmware-written fields, but for those that a command of
their own sets and for alarm enables. -/
def configMask (k : RK) : Nat :=
  let i := regInfo k
  let b := i.base
  match k with
  | .DST_TAKE | .DST_BREAK | .DST_OVL_CTRL | .DST_OVL_POS => 0
  | .REF_CTRL | .REF_WTR | .REF_DRIFT | .REF_ANA_FMT | .DPLL_CTRL | .DPLL_BW | .DPLL_SLEW | .DPLL_HOLDOVER => 0
  | .OTG_CTRL | .OTG_OFFSET | .BOOT_TRICKLE_CTRL => 0
  | _ =>
    if alarmEnable k then 0
    else if 0xA00000 ≤ b ∧ b < 0xB80000 then 0
    else if 0xC00000 ≤ b ∧ b < 0xE00000 then i.rw
    else i.rw ||| i.fw

/-- A pair of a CONFIG_SET as the register it names with the bits to write. -/
def configWord (b : ConfigBody) (e : Nat × Nat) : Option (Reg × Nat) := (instReg b.block b.inst e.1).map fun r => (r, e.2)

/-- The words of a CONFIG_SET, the last value of a register standing. -/
def configWords (b : ConfigBody) : List (Reg × Nat) :=
  (b.pairs.filterMap (configWord b)).foldl (fun l e => (l.filter fun f => f.1 ≠ e.1) ++ [e]) []

/-- A pair names only fields that CONFIG_SET writes; write_en of the HBM aperture needs a debug unlock (R356). -/
def Dev.configFits (d : Dev) (b : ConfigBody) (e : Nat × Nat) : Bool :=
  match configWord b e with
  | none => false
  | some (r, v) =>
    let m := configMask r.kind
    let kept := ((regInfo r.kind).rw ||| (regInfo r.kind).fw) - m
    m ≠ 0 && decide (v < 2 ^ 32) && (v &&& kept) == (d.rd r &&& kept) &&
    !(r.kind == .HBM_APERTURE && bitOf v 31 && d.fld F.PWR_DEBUG_level == 0)

/-- The new word of a register that CONFIG_SET writes. -/
def Dev.configValue (d : Dev) (e : Reg × Nat) : Nat := mergeBits (d.rd e.1) (configMask e.1.kind) e.2

/-- The device with the words of a CONFIG_SET stored and nothing else done. -/
def Dev.configTrial (d : Dev) (b : ConfigBody) : Dev := (each (configWords b) fun e => wr e.1 (d.configValue e)).run d

/-- The Holtut lanes that destinations name. -/
def Dev.linkLanes (d : Dev) : List Nat :=
  ((d.keysOf .DST_CTRL).filterMap fun n =>
    if d.flag (F.DST_CTRL_enable n) ∧ d.fld (F.DST_CTRL_transport n) = 0 ∧ d.fld (F.DST_OUTPUT_id n) < 6144 then
      some (d.fld (F.DST_OUTPUT_id n) / 64) else none).dedup

/-- A Holtut flow number exists, and not on a TWIN lane (R276). -/
def Dev.linkFlow (d : Dev) (id : Nat) : Bool := decide (id < 6144) && !d.hlkTwin (id / 64)

/-- What a source's new configuration is refused for (R77, R276). -/
def Dev.srcRefused (d : Dev) (n : Nat) : Option Nat :=
  let id := d.fld (F.SRC_INPUT_id n)
  let depth := d.fld (F.SRC_CTRL_depth n)
  let delay := d.fld (F.SRC_CTRL_delay n)
  let link := d.flag (F.SRC_CTRL_enable n) && d.fld (F.SRC_CTRL_transport n) == 0
  firstOf [
    (decide (depth - 3 < delay), Reason.badDelay),
    (link && !d.linkFlow id, Reason.badFlow),
    (link && (decide (1 < (d.hlkSources id).length) || (KV.get none d.x.opqRx id).isSome), Reason.flowBusy)]

/-- What a destination's new configuration is refused for (R138, R276). -/
def Dev.dstRefused (d : Dev) (n : Nat) : Option Nat :=
  let id := d.fld (F.DST_OUTPUT_id n)
  let t := d.fld (F.DST_CTRL_transport n)
  let en := d.flag (F.DST_CTRL_enable n)
  let other := (d.keysOf .DST_CTRL).any fun m => m ≠ n && d.flag (F.DST_CTRL_enable m) &&
    (d.claims m).any fun c => (d.claims n).contains c
  let kind := d.fld (F.FLOW_TX_CTRL_kind id)
  firstOf [
    (en && t == 0 && !d.linkFlow id, Reason.badFlow),
    (en && (other || (t == 1 && (kind == 1 || kind == 2) && d.flowOwner id ≠ 0) ||
      (t == 0 && (KV.get none d.x.opqTx id).isSome)), Reason.flowBusy)]

/-- What the chapters refuse of an instance's new configuration. -/
def Dev.instRefused (d : Dev) (block inst : Nat) : Option Nat :=
  match block with
  | 3 => d.srcRefused inst
  | 4 => if inst < 1024 then d.dstRefused inst else none
  | 13 => if inst < 8192 then d.flowRxRefused inst else d.flowTxRefused (inst - 8192)
  | _ => none

/-- The words of a flow context's configuration (R470). -/
def flowWords (inst : Nat) : List Reg :=
  if inst < 8192 then
    [R.FLOW_RX_CTRL inst, R.FLOW_RX_LEG inst 0, R.FLOW_RX_LEG inst 1, R.FLOW_RX_ADDR inst 0, R.FLOW_RX_ADDR inst 1,
      R.FLOW_RX_MERGE inst]
  else
    let q := inst - 8192
    [R.FLOW_TX_CTRL q, R.FLOW_TX_LEG q 0, R.FLOW_TX_LEG q 1, R.FLOW_TX_ADDR q 0, R.FLOW_TX_ADDR q 1, R.FLOW_TX_SSRC q,
      R.FLOW_TX_TRO q, R.FLOW_TX_PKT q, R.FLOW_TX_TRS q]

/-- What stops CONFIG_SET: its fields, a function that is not OFF, its chapter's checks, link capacity, the bandwidth plan. -/
def Dev.configCheck (d : Dev) (b : ConfigBody) : Option Nat :=
  let e := d.configTrial b
  match firstOf [
      ((instBase b.block b.inst).isNone || b.pairs.any (fun p => !d.configFits b p), Reason.badField),
      ((configWords b).any fun w => ((d.rd w.1).xor (d.configValue w) &&& d.offMask w.1) ≠ 0, Reason.notOff)] with
  | some r => some r
  | none => match e.instRefused b.block b.inst with
    | some r => some r
    | none => firstOf [
        (e.linkLanes.any (fun l => e.hlkOver l && !(d.hlkOver l && e.hlkLaneDemand l == d.hlkLaneDemand l)), Reason.linkCapacity),
        (overBudget d e, Reason.bandwidth)]

/-- CONFIG_SET (R441, R442): the pairs land together, or none does. -/
def configSetSpec (b : ConfigBody) : CmdSpec where
  opcode := 0x0C00
  ok := decide (b.pairs.length < 512)
  prog o := checked o (fun d => d.configCheck b)
    (.read fun d =>
      let ws := configWords b
      seq [
        each ws fun w => regStore w.1 (d.configValue w),
        each ws fun w => regSwitch w.1 (d.configValue w),
        planUpdate,
        .read fun e => each ((d.linkLanes ++ e.linkLanes).dedup) hlkPlan,
        ctlUpd fun c => { c with cfgWritten := (c.cfgWritten.filter fun r => !(ws.map (·.1)).contains r) ++ ws.map (·.1) },
        doIf (b.block == 13) (.read fun e =>
          mramPut ⟨.config, 13 * 65536 + b.inst⟩ (.regs ((flowWords b.inst).map fun r => (r, e.reg r)))),
        finish o.id 0 []])

/-! ### Rows -/

/-- QUERY_XPT (R441). -/
def execQueryXpt (h : Hdr) (first count : Nat) (s : State) : Host.Outcome State Fault Refusal :=
  perform .core (rygus h (.queryXpt first count) (queryXptSpec first count)) s

/-- QUERY_STATUS (R441). -/
def execQueryStatus (h : Hdr) (s : State) : Host.Outcome State Fault Refusal :=
  perform .core (rygus h .queryStatus queryStatusSpec) s

/-- QUERY_COMMAND (R441). -/
def execQueryCommand (h : Hdr) (seq_ : Nat) (s : State) : Host.Outcome State Fault Refusal :=
  perform .core (rygus h (.queryCommand seq_) (queryCommandSpec seq_)) s

/-- QUERY_REGS (R441). -/
def execQueryRegs (h : Hdr) (offset count : Nat) (s : State) : Host.Outcome State Fault Refusal :=
  perform .core (rygus h (.queryRegs offset count) (queryRegsSpec offset count)) s

/-- CONFIG_SET (R441, R542). -/
def execConfigSet (h : Hdr) (b : ConfigBody) (s : State) : Host.Outcome State Fault Refusal :=
  perform .core (rygus h (.configSet b) (configSetSpec b)) s

end Sys2Proof.Machine
end

