-- ==== Sys2Proof/Machine/Message.lean ====
section
/-!
DEFINITION. Rygus messages as words (R438, R441): the layout of every command's body, the checks of R442 that need it, and the
rows in which a whole message or a DATA datagram arrives.
-/

namespace Sys2Proof.Machine

/-- The meaning of a command, whichever chapter gives it. -/
def specOf (c : Cmd) : Option CmdSpec :=
  match tableSpec c, updateSpec c, healthSpec c, querySpec c with
  | some s, _, _, _ => some s
  | _, some s, _, _ => some s
  | _, _, some s, _ => some s
  | _, _, _, some s => some s
  | none, none, none, none => match c with
    | .configSet b => some (configSetSpec b)
    | _ => none

/-- A body as its opcode reads it: whether its length is right, whether its reserved bits are 0, and the command. -/
structure Wire where
  length : Bool
  fields : Bool := true
  cmd : Cmd

/-- Every word has only bits of its mask; words after the last mask are not judged here. -/
def maskOk (w masks : List Nat) : Bool := (w.zip masks).all fun e => e.1 &&& e.2 == e.1

/-- The words as bytes. -/
def wordBytes (w : List Nat) : List Byte := w.flatMap (leBytes 4)

/-- The words as 16-bit halves, the low one first. -/
def wordHalves (w : List Nat) : List Nat := w.flatMap fun v => [v % 65536, v / 65536]

/-- The words as pairs. -/
def wordPairs (w : List Nat) : List (Nat × Nat) :=
  (List.range (w.length / 2)).map fun i => (w.getD (2 * i) 0, w.getD (2 * i + 1) 0)

/-- The 8-byte body of a TAKE, and a chain entry (R102). -/
def takeWire (a b : Nat) : TakeBody where
  controller := bitsOf a 16 16
  dest := bitsOf a 0 16
  reportCommit := bitOf b 21
  field2 := bitOf b 20
  autoFrame := bitOf b 19
  mode := bitsOf b 17 2
  video := bitOf b 12
  audio := bitOf b 13
  anc := bitOf b 14
  source := bitsOf b 0 12

/-- The bits of a TAKE's second word. -/
def takeMask : Nat := 0x3E7FFF

/-- 48 bits of seconds from two words. -/
def secWire (lo hi : Nat) : Nat := lo + hi % 65536 * 2 ^ 32

/-- The bodies of TAKE, chains, holds, queries and CONFIG_SET (R101 to R117, R441). -/
def wireRoute (op : Nat) (w : List Nat) : Option Wire :=
  let n := w.length
  let a := w.getD 0 0
  let b := w.getD 1 0
  let c := w.getD 2 0
  let e := w.getD 3 0
  let ctl := bitsOf a 16 16
  match op with
  | 0x0100 => some ⟨n == 2, maskOk w [0xFFFFFFFF, takeMask], .take (takeWire a b)⟩
  | 0x0101 => some ⟨n == 4, maskOk w [0xFFFF03FF, 1], .takeOverlay ⟨ctl, bitsOf a 0 10, b, c, e⟩⟩
  | 0x0200 => some ⟨n % 2 == 1 && decide (n ≤ 2049), maskOk w [0x03FF01FF] && ((wordPairs (w.drop 1)).all fun t => t.2 &&& takeMask == t.2),
      .chainLoad ⟨bitsOf a 0 8, bitOf a 8, bitsOf a 16 10, (wordPairs (w.drop 1)).map fun t => takeWire t.1 t.2⟩⟩
  | 0x0201 =>
    let frame := bitsOf b 0 2 == 1
    some ⟨n == 5,
      maskOk w (if frame then [0xFFFF00FF, 0x03FF0003, 0xFFFFFFFF, 0xFFFFFFFF, 0] else [0xFFFF00FF, 0x73, 0xFFFFFFFF, 0xFFFF, 0x3FFFFFFF]) &&
        decide (bitsOf b 0 2 < 2),
      .chainArm ⟨bitsOf a 0 8, ctl, if frame then .frame (bitsOf b 16 10) (c + e * 2 ^ 32) else .time (bitsOf b 4 3) (secWire c e) (w.getD 4 0)⟩⟩
  | 0x0202 => some ⟨n == 2, maskOk w [0xFFFF00FF, 0x3FF], .chainFire ⟨bitsOf a 0 8, ctl, b⟩⟩
  | 0x0203 => some ⟨n == 1, maskOk w [0xFFFF00FF], .chainCancel ⟨bitsOf a 0 8, ctl⟩⟩
  | 0x0204 => some ⟨n == 1, maskOk w [0xFF], .chainQuery a⟩
  | 0x0300 => some ⟨n == 1, maskOk w [0xFFFFFFC7] && decide (bitsOf a 0 3 < 4), .hold (bitsOf a 0 3) ⟨ctl, bitsOf a 6 10⟩⟩
  | 0x0400 => some ⟨n == 1, maskOk w [0x07FF03FF], .queryXpt (bitsOf a 0 10) (bitsOf a 16 11)⟩
  | 0x0401 => some ⟨n == 0, true, .queryStatus⟩
  | 0x0402 => some ⟨n == 1, true, .queryCommand a⟩
  | 0x0403 => some ⟨n == 2, maskOk w [0x03FFFFFF, 0x1FF], .queryRegs a b⟩
  | 0x0C00 => some ⟨n == 2 + 2 * bitsOf b 0 9, maskOk w [0x3FFF001F, 0x1FF], .configSet ⟨bitsOf a 0 5, bitsOf a 16 14, wordPairs (w.drop 2)⟩⟩
  | _ => none

/-- The bodies of AUDIO_* and SURFACE_* (R129, R227, R242). -/
def wireAudio (op : Nat) (w : List Nat) : Option Wire :=
  let n := w.length
  let a := w.getD 0 0
  let b := w.getD 1 0
  let c := w.getD 2 0
  let ctl := bitsOf a 16 16
  match op with
  | 0x0500 => some ⟨n == 2 + 2 * bitsOf b 16 16, maskOk w [0xFFFF0000, 0xFFFF7FFF], .audioMap ⟨ctl, bitsOf b 0 15, wordPairs (w.drop 2)⟩⟩
  | 0x0501 => some ⟨n == 1 + bitsOf a 16 16, maskOk w [0xFFFF7FFF], .audioBind ⟨bitsOf a 0 15, w.drop 1⟩⟩
  | 0x0502 => some ⟨n == 3, maskOk w [0x03FF0003, 0x003F7FFF, 0xFFFF],
      .audioGroup ⟨bitsOf a 0 2, bitsOf a 16 10, bitsOf b 0 15, bitsOf b 16 6, c⟩⟩
  | 0x0503 => some ⟨n == 2, maskOk w [0xF, 0x03FF7FFF], .audioTone ⟨a, bitsOf b 0 15, bitsOf b 16 10⟩⟩
  | 0x0504 => some ⟨n == (if bitsOf a 0 2 == 1 then 18 else 2), maskOk w [0x07FF0003],
      .audioMonitor ⟨bitsOf a 0 2, bitsOf a 16 11, w.drop 1⟩⟩
  | 0x0505 => some ⟨n == 2, maskOk w [1, 0xFFFF7FFF], .audioQuery ⟨bitOf a 0, bitsOf b 0 15, bitsOf b 16 16⟩⟩
  | 0x0506 => some ⟨n == 8, maskOk w [0xF], .audioSap ⟨a, w.drop 1⟩⟩
  | 0x0600 => some ⟨n == 1, maskOk w [0x00FFF1FF], .surfaceAlloc ⟨bitsOf a 0 8, bitOf a 8, bitsOf a 12 4, bitsOf a 16 8⟩⟩
  | 0x0601 => some ⟨decide (3 ≤ n) && n == 3 + ceilDiv c 4, maskOk w [0xFF] && decide (1 ≤ c) && decide (c ≤ 65508),
      .surfaceWrite ⟨a, b, (wordBytes (w.drop 3)).take c⟩⟩
  | 0x0602 => some ⟨n == 1, maskOk w [0xFF], .surfacePublish a⟩
  | 0x0603 => some ⟨n == 1, maskOk w [0xFF], .surfaceFree a⟩
  | 0x0604 => some ⟨n == 1, maskOk w [0xFF], .surfaceQuery a⟩
  | _ => none

/-- The bodies of PROC_* and MV_* (R165, R194). -/
def wirePicture (d : Dev) (op : Nat) (w : List Nat) : Option Wire :=
  let n := w.length
  let a := w.getD 0 0
  let b := w.getD 1 0
  let c := w.getD 2 0
  let ctl := bitsOf a 16 16
  let halves := wordHalves (w.drop 1)
  match op with
  | 0x0700 => some ⟨n == 44, maskOk w [0xFFFF01FF], .procSet ⟨ctl, bitsOf a 0 9, (w.drop 1).take 11, w.drop 12⟩⟩
  | 0x0701 =>
    let k := halves.length / 3
    some ⟨decide (1 ≤ n) && (n - 1) % 3 ≠ 1, maskOk w [0xFFFF013F] && (halves.drop (3 * k)).all (· == 0),
      .lutLoad ⟨bitsOf a 0 6, bitOf a 8, bitsOf a 16 16,
        (List.range k).map fun i => (halves.getD (3 * i) 0, halves.getD (3 * i + 1) 0, halves.getD (3 * i + 2) 0)⟩⟩
  | 0x0702 => some ⟨n == 1, maskOk w [0x3F], .lutFree a⟩
  | 0x0703 => some ⟨n == 514, maskOk w [0x000701FF] && halves.getD 1025 0 == 0,
      .curveLoad ⟨bitsOf a 0 9, bitsOf a 16 3, halves.take 1025⟩⟩
  | 0x0704 => some ⟨n == 1 + 32 * bankTaps (bitsOf a 16 2), maskOk w [0x000301FF], .coefLoad ⟨bitsOf a 0 9, bitsOf a 16 2, halves⟩⟩
  | 0x0705 => some ⟨n == 1, maskOk w [0x1FF], .procQuery a⟩
  | 0x0800 => some ⟨n == 36, maskOk w [0xFFFF001F],
      .mvSet ⟨ctl, bitsOf a 0 5, (w.drop 1).take 7, (w.drop 8).take 12, w.drop 20⟩⟩
  | 0x0801 => some ⟨n == 1 + 5 * bitsOf a 8 7, maskOk w [0xFFFF7F1F],
      .mvLayout ⟨ctl, bitsOf a 0 5, (List.range (n / 5)).map fun i => let t := w.drop (1 + 5 * i)
        ⟨t.getD 0 0, t.getD 1 0, t.getD 2 0, t.getD 3 0, t.getD 4 0⟩⟩⟩
  | 0x0802 => some ⟨n == 1 + ceilDiv (bitsOf a 16 6) 4, maskOk w [0x003F3F1F],
      .mvText ⟨bitsOf a 0 5, bitsOf a 8 6, (wordBytes (w.drop 1)).take (bitsOf a 16 6)⟩⟩
  | 0x0803 => some ⟨n == 1, maskOk w [0x00033F1F], .mvTally ⟨bitsOf a 0 5, bitsOf a 8 6, bitsOf a 16 2⟩⟩
  | 0x0804 => some ⟨n == 5, maskOk w [0xF1F], .mvGuard ⟨bitsOf a 0 5, bitsOf a 8 4, b, c, w.getD 3 0, w.getD 4 0⟩⟩
  | 0x0805 => some ⟨n == 2, maskOk w [0x007F7F03, 0x1FFFFF], .fontSet ⟨bitsOf a 0 2, bitsOf a 8 7, bitsOf a 16 7, b⟩⟩
  | 0x0806 =>
    let bytes := wordBytes (w.drop 3)
    let size := glyphBytes (d.fld (F.FONT_HDR_height (bitsOf a 0 2))) c
    some ⟨decide (4 ≤ n), maskOk w [0x1FFF0003, 0x1FFFFF, 0x7F],
      .fontLoad ⟨bitsOf a 0 2, bitsOf a 16 13, b, c, if bytes.length == 4 * ceilDiv size 4 then bytes.take size else bytes⟩⟩
  | 0x0807 => some ⟨n == 1, maskOk w [0x1F], .mvQuery a⟩
  | _ => none

/-- The bodies of TIME_*, UPDATE_* and HEALTH_* (R441, R477, R508). -/
def wireSystem (d : Dev) (op : Nat) (w : List Nat) : Option Wire :=
  let n := w.length
  let a := w.getD 0 0
  let b := w.getD 1 0
  let c := w.getD 2 0
  let e := w.getD 3 0
  let bytes := wordBytes (w.drop 1)
  match op with
  | 0x0900 => some ⟨n == 4, maskOk w [7, 0xFFFFFFFF, 0xFFFF, 0x3FFFFFFF], .timeSet ⟨a, secWire b c, e⟩⟩
  | 0x0901 => some ⟨n == 0, true, .timeRealign⟩
  | 0x0902 => some ⟨n == 9, maskOk w [0xF], .timeRef ⟨a, w.drop 1⟩⟩
  | 0x0903 => some ⟨n == 4, true, .timeDpll ⟨a, b, c, e⟩⟩
  | 0x0904 => some ⟨n == 3, maskOk w [0x1F], .timeOtg ⟨a, b, c⟩⟩
  | 0x0A00 => some ⟨n == 3, maskOk w [0x1FF], .updateBegin ⟨bitsOf a 0 8, bitOf a 8, b, c⟩⟩
  | 0x0A01 =>
    let u := d.x.boot.upd.length
    let size := if u < a + bytes.length ∧ a + bytes.length < u + 4 then u - a else bytes.length
    some ⟨decide (2 ≤ n), true, .updateWrite ⟨a, bytes.take size⟩⟩
  | 0x0A02 => some ⟨n == 1, maskOk w [0xFFFF], .updateStatus a⟩
  | 0x0A03 => some ⟨n == 0, true, .updateVerify⟩
  | 0x0A04 => some ⟨n == 4, maskOk w [0x73, 0xFFFFFFFF, 0xFFFF, 0x3FFFFFFF], .updateActivate ⟨bitsOf a 0 2, bitsOf a 4 3, secWire b c, e⟩⟩
  | 0x0A05 => some ⟨n == 0, true, .updateAbort⟩
  | 0x0A06 => some ⟨n == 1, true, .updateTrickle a⟩
  | 0x0A07 => some ⟨n == 0, true, .updateRevert⟩
  | 0x0A08 => some ⟨n == 13, maskOk w [0x103], .updateProvision ⟨bitsOf a 0 2, bitOf a 8, bytes⟩⟩
  | 0x0B00 => some ⟨n == 0, true, .healthSwap⟩
  | 0x0B01 => some ⟨n == 1, maskOk w [0x3FFF001F], .healthReinit (bitsOf a 0 5) (bitsOf a 16 14)⟩
  | 0x0B02 => some ⟨n == 0, true, .healthReset⟩
  | 0x0B03 => some ⟨n == 0, true, .healthPowerCycle⟩
  | 0x0B04 => some ⟨n == 1, maskOk w [1], .healthSubscribe (bitOf a 0)⟩
  | 0x0B05 => some ⟨n == 1, maskOk w [3], .healthChallenge a⟩
  | 0x0B06 =>
    let num := fun i => ofLeBytes ((bytes.drop (48 * i)).take 48)
    some ⟨n == 49, maskOk w [0x303], .healthResponse ⟨bitsOf a 0 2, bitsOf a 8 2, num 0, num 1, num 2, num 3⟩⟩
  | _ => none

/-- The body of a message; none: its opcode is not defined. -/
def wireOf (d : Dev) (op : Nat) (w : List Nat) : Option Wire :=
  match op / 256 with
  | 1 | 2 | 3 | 4 | 0x0C => wireRoute op w
  | 5 | 6 => wireAudio op w
  | 7 | 8 => wirePicture d op w
  | 9 | 0x0A | 0x0B => wireSystem d op w
  | _ => none

/-- A message that fails check 1 or 2 of R442. -/
def rygusBad (h : Hdr) (opcode reason : Nat) : Prog := received h none opcode fun id _ => reject id reason

/-- A Rygus message is completely received (R437, R438, R442): its header, then its body. -/
def message (k : Intake) (l : List Nat) : Prog :=
  .read fun d =>
    let words := l.map (· % 2 ^ 32)
    let op := bitsOf (words.getD 0 0) 0 16
    let h : Hdr := { intake := k, seq := words.getD 1 0 }
    let len := words.getD 2 0
    match wireOf d op (words.drop 4) with
    | none => rygusBad h op Reason.badOpcode
    | some w =>
      if !w.length || len ≠ 4 * words.length || len < 16 || 65536 < len then rygusBad h op Reason.badLength
      else match specOf w.cmd with
        | none => rygusBad h op Reason.badOpcode
        | some sp => rygus h w.cmd { sp with ok := sp.ok && w.fields }

/-- The messages of a DATA payload in their order (R433, R435); what follows a message whose length cannot stand is part of
that message. -/
def splitMessages : Nat → List Nat → List (List Nat)
  | 0, _ => []
  | fuel + 1, w =>
    let n := w.getD 2 0
    if w.length < 4 then []
    else if 16 ≤ n ∧ n ≤ 65536 ∧ n % 4 = 0 ∧ n / 4 ≤ w.length then w.take (n / 4) :: splitMessages fuel (w.drop (n / 4))
    else [w]

/-- Bytes as words; bytes beyond a whole number of words are left out. -/
def bytesWords (l : List Byte) : List Nat := (List.range (l.length / 4)).map fun i => ofLeBytes ((l.drop (4 * i)).take 4)

/-- CMD_MESSAGE_RECEIVED (R430, R437): a ring's message is the one its descriptor in fetch names, where there is one. -/
def execCmdMessageReceived (k : Intake) (words : List Nat) (s : State) : Host.Outcome State Fault Refusal :=
  perform .core (match k with
    | .ring r slot => doWhen (fun d => d.on (.ring r)) (.read fun d => seq [
        fetchDone r, message (.ring r ((d.ringm r).fetching.getD slot)) words])
    | .session _ => message k words) s

/-- DATA (R433, R435). -/
def execDataDatagram (d : MgmtGram) (s : State) : Host.Outcome State Fault Refusal :=
  perform .core (sessionGram d 2 fun e =>
    let w := bytesWords d.payload
    each (splitMessages w.length w) fun m => message (.session e) m) s

end Sys2Proof.Machine
end

