-- ==== Sys2Proof/Machine/MtxExec.lean ====
section
/-!
DEFINITION. Transactions of the bus matrix as its ports issue them and its targets grant them (R381 to R389), with what the
register fabric does of them.
-/

namespace Sys2Proof.Machine

/-! ### The register fabric -/

/-- What the WO and W1S bits of a word that firmware writes ask for. -/
def fwAction (r : Reg) (v : Nat) : Prog :=
  match r.kind with
  | .TIME_SNAP => doIf (bitOf v 0) (timeSnap .firmware)
  | .MAC_TSQ_POP => doIf (bitOf v 0) tsqPop
  | .MAC_GATE_CMD => doIf (bitOf v 0) (gateApply r.i)
  | _ => regAction r v

/-- A whole write of a register word by firmware: host-writable and firmware-written fields take it (R449). -/
def fwWriteReg (r : Reg) (v : Nat) : Prog :=
  .read fun d =>
    let i := regInfo r.kind
    let m := i.rw ||| i.fw
    let stored := mergeBits (d.rd r) (m - (m &&& d.offMask r)) v
    seq [doIf (m ≠ 0 || i.w1c ≠ 0) (regApply r (stored - (stored &&& (v &&& i.w1c)))), fwAction r v]

/-- A word of a write at the register fabric: the host's port and debug access write as the host does, every other port as
firmware. -/
def fabricWrite (port off v be : Nat) : Prog :=
  if port = 50 then hostWrite 0 off v be
  else if port = 54 then hostWrite 1 off v be
  else match regAt off with
    | some r => doIf (be == 15 && offsetMapped off) (fwWriteReg r v)
    | none => .nop

/-- A word of a read at the register fabric. -/
def Dev.fabricRead (d : Dev) (off : Nat) : Nat := if offsetMapped off then d.readWord off else 0xFFFFFFFF

/-- The byte enables of word `i` of a write, as a number. -/
def txEnables (r : MtxReq) (i : Nat) : Nat :=
  if r.enables.isEmpty then 15 else bitMask ((List.range 4).filter fun k => r.enables.getD (4 * i + k) false)

/-- A granted transaction at the register fabric (R380, R383). -/
def fabricServe (t : MtxTx) : Prog :=
  let base := t.req.addr - 0x020000000000
  let words := List.range (16 * t.req.beats)
  if t.req.write then seq [
    each words fun i => doIf (txEnables t.req i ≠ 0)
      (fabricWrite t.port (base + 4 * i) (ofLeBytes ((t.req.data.drop (4 * i)).take 4)) (txEnables t.req i)),
    txAnswer t [] false]
  else .read fun d => txAnswer t (words.flatMap fun i => leBytes 4 (d.fabricRead (base + 4 * i))) false

/-! ### Rows -/

/-- A port issues a transaction, with what a decode hold does to the stream's owners; debug access is open from level 1
(R381, R388, R514). -/
def portIssue (m : PortId) (t : MtxReq) : Prog :=
  doWhen (fun d => m ≠ 54 || decide (1 ≤ d.fld F.PWR_DEBUG_level))
    ((streamOwners m t.stream).foldr (fun e p => fnGo e.1 p) (mtxIssue m t))

/-- MTX_TRANSACTION_ISSUE (R381, R388). -/
def execMtxTransactionIssue (m : PortId) (t : MtxReq) (s : State) : Host.Outcome State Fault Refusal :=
  perform .core (portIssue m t) s

/-- MTX_GRANT (R382 to R386). -/
def execMtxGrant (target : Fin 73) (e : List SramErr) (s : State) : Host.Outcome State Fault Refusal :=
  perform .core (mtxGrant fabricServe target e) s

end Sys2Proof.Machine
end

