-- ==== Sys2Proof/Machine/TwinMsg.lean ====
section
/-!
DEFINITION. What a twin unit does with its twin's ADMIT, SNAPSHOT and COMMIT messages: mirrored commands and whether they are
on time (R405, R406), the snapshot (R412) and admission (R413).
-/

namespace Sys2Proof.Machine

/-! ### Mirrored commands (R405, R406) -/

/-- A mirrored commit is not on time (R406). -/
def commitLateNote : Prog := seq [inc R.TWIN_CNT_COMMIT_LATE, raise F.TWIN_ALARM_commit_late]

/-- A destination's switch point in its present frame, the start of that switch line, and whether the point has been
resolved (R108, R110, R132). -/
def Dev.switchSpan (d : Dev) (n : Nat) (field2 : Bool) : Int × Int × Bool :=
  let (o, k) := d.dstTiming n
  let b := d.boundary n
  let m := d.dstm n
  if d.flag (F.DST_CTRL_opaque n) then (b + o.length - d.opqLead n, b + o.length, m.point == some (k + 1))
  else
    let (sw, sw2, _, _) := switchTable o.format
    let l := fmtLine o.format
    let f2 := field2 && d.fieldTakes n
    let s := if f2 then sw2.getD 0 else sw
    (b + (s - 3) * l, b + (s - 1) * l, if f2 then m.point2 == some k else m.point == some k)

/-- A change of a destination committed at `c` has missed the switch line of its landing frame. -/
def Dev.commitLate (d : Dev) (n : Nat) (field2 : Bool) (c : Int) : Bool :=
  let (l, s, _) := d.switchSpan n field2
  d.dstRuns n && (decide (c < l - (d.dstTiming n).1.length) || (decide (c < l) && decide (s ≤ d.x.time.ht)))

/-- A change committed at `c` belongs to a switch point already resolved whose switch line has not begun. -/
def Dev.pointOpen (d : Dev) (n : Nat) (field2 : Bool) (c : Int) : Bool :=
  let (l, s, set) := d.switchSpan n field2
  d.dstRuns n && set && decide (c < l) && !d.commitLate n field2 c && decide ((d.x.time.ht : Int) < s)

/-- A switch point is to be resolved again. -/
def pointReopen (n : Nat) (field2 : Bool) : Prog :=
  dstUpd n fun m => { m with
    pend := m.resolved ++ m.pend, resolved := [], next := []
    point := if field2 then m.point else none, point2 := if field2 then none else m.point2 }

/-- A mirrored change of destinations: it lands where the active's landed if it is on time. -/
def destMirror (ns : List Nat) (field2 : Bool) (c : Int) (p : Prog) : Prog :=
  .read fun d =>
    let again := ns.filter fun n => d.pointOpen n field2 c
    seq [
      doIf (ns.any fun n => d.commitLate n field2 c) commitLateNote,
      each again fun n => pointReopen n (field2 && d.fieldTakes n), p,
      each again fun n => switchPoint n (field2 && d.fieldTakes n)]

/-- A mirrored change that lands at a boundary of frames from `b` of a length: on time up to 20 µs after its boundary, when
that frame's work starts again. -/
def boundaryMirror (o : OtgMem) (b c : Int) (p again : Prog) : Prog :=
  .read fun d =>
    let now : Int := d.x.time.ht
    seq [p,
      if b ≤ c ∨ now < b then .nop
      else if b - o.length ≤ c ∧ now ≤ b + 20000 * nsU then again
      else commitLateNote]

/-- A mirrored MV_* command. -/
def headMirror (h : Nat) (c : Int) (p : Prog) : Prog :=
  .read fun d =>
    let o := (d.mvhTiming h).1
    if (d.mvhm h).fly.isSome || !d.on (mvhFn h) then p
    else boundaryMirror o (d.toHt o.src o.start) c p (seq [mvhAbandon h, mvhBoundary h])

/-- A mirrored PROC_SET. -/
def procMirrored (b : ProcSetBody) (c : Int) (p : Prog) : Prog :=
  let g : PrcCfg := ⟨b.regs, b.mtx⟩
  let ls := procLeaders b.proc g
  if g.publish then .read fun d =>
    let o := d.otgm g.otg
    boundaryMirror o (d.toHt o.src o.start) c p (each ls fun l => seq [procDrop l.1, procBoundary l.1])
  else destMirror (ls.map (·.2.dest)) false c p

/-- A mirrored CHAIN_FIRE: a boundary it should have fired at fires it while its switch line is ahead. -/
def fireMirror (b : ChainFireBody) (c : Int) (p : Prog) : Prog :=
  .read fun d =>
    let t := d.boundary b.dest
    let (_, s, _) := d.switchSpan b.dest false
    let now : Int := d.x.time.ht
    seq [p,
      if !d.dstRuns b.dest || decide (t ≤ c) || decide (now < t) then .nop
      else if t - (d.dstTiming b.dest).1.length ≤ c ∧ now < s then
        .read fun e => destMirror ((e.chain b.chain).entries.map (·.dest)) false t (chainFire b.chain t)
      else commitLateNote]

/-- The active's activation (R482, R483): a standby that holds a VERIFIED image rewrites its header and warm-resets. -/
def activateMirror : Prog :=
  doWhen (fun d => d.x.boot.upd.state == 4) (.read fun d =>
    let u := d.x.boot.upd
    let fits := match d.imgHdr u.target with
      | some h => h.compat == d.rd R.TWIN_COMPAT && (u.kind ≠ 3 || h.version % 2 ^ 16 == d.rd R.TWIN_CFG_GEN)
      | none => false
    seq [updUpd fun v => { v with state := if v.source = 1 then 4 else 0, method := if fits then 1 else 2 },
      hdrActivate (d.tstate == 6 && fits), warmReset 4])

/-- A mirrored command has its effect. -/
def mirrorApply (m : CommitMsg) : Prog :=
  match specOf m.cmd with
  | none => .nop
  | some sp =>
    let p := rygusMirrored m sp
    match m.cmd with
    | .take b => .read fun d => destMirror ((d.dstGroup b.dest).map (·.1)) b.field2 m.instant p
    | .takeOverlay b => destMirror [b.dest] false m.instant p
    | .procSet b => procMirrored b m.instant p
    | .mvSet b => headMirror b.head m.instant p
    | .mvLayout b => headMirror b.head m.instant p
    | .mvText b => headMirror b.head m.instant p
    | .mvTally b => headMirror b.head m.instant p
    | .mvGuard b => headMirror b.head m.instant p
    | .chainFire b => fireMirror b m.instant p
    | .updateActivate _ => activateMirror
    | _ => p

/-- A COMMIT message (R405, R406): the next counter applies, commits after a snapshot that waits are held, and a gap ends
lockstep or begins the resync anew. -/
def commitRx (m : CommitMsg) : Prog :=
  seq [twinTake 4, doWhen (fun d => d.on .twin && (d.tstate == 4 || d.tstate == 5 || d.tstate == 6)) (.read fun d =>
    let t := d.x.twin
    let gap := if d.tstate = 4 then resyncStart else lockstepLost
    match t.snap with
    | some s =>
      if m.counter = (s.counter + t.heldCommits.length + 1) % 2 ^ 32 then
        twinUpd fun t => { t with heldCommits := t.heldCommits ++ [m] }
      else gap
    | none =>
      if !t.applied && d.tstate ≠ 6 then .nop
      else if m.counter ≠ (d.rd R.TWIN_COMMIT_CNT + 1) % 2 ^ 32 then gap
      else seq [wr R.TWIN_COMMIT_CNT m.counter, mirrorApply m])]

/-! ### The snapshot (R412) -/

/-- The registers that a snapshot carries whole: the crosspoint table with its holds, heads, and transmit sequences. -/
def snapKind (k : RK) : Bool :=
  ([.DST_CUR_VIDEO, .DST_CUR_BREAK, .DST_CUR_OVL_CTRL, .DST_CUR_OVL_POS, .DST_HOLD, .DST_LANDED_LO, .DST_LANDED_HI,
    .FLOW_TX_SEQ] : List RK).contains k || mvhLatched.contains k

/-- The bytes of a surface's buffer. -/
def Dev.surfData (d : Dev) (s slot : Nat) : List Byte :=
  let st := d.store (surfCode s)
  (List.range (imageBytes st.format st.sampling)).map fun i => Memory.get d.mem (st.imageAddr d.grain slot i)

/-- A surface as the commands that make it. -/
def Dev.snapSurface (d : Dev) (s : Nat) : List Cmd :=
  let st := d.store (surfCode s)
  let m := d.surfm s
  if d.surfState s = 0 then []
  else
    [.surfaceAlloc { id := s, double := st.depth == 2, sampling := st.sampling, format := st.format }] ++
    (match m.front with
      | some f => [.surfaceWrite { id := s, offset := 0, data := d.surfData s f }, .surfacePublish s]
      | none => []) ++
    (if m.dirty then [.surfaceWrite { id := s, offset := 0, data := d.surfData s m.loading }] else [])

/-- A processor as the commands that make it: its tables in force, its configuration, then what it has pending. -/
def Dev.snapProc (d : Dev) (p : Nat) : List Cmd :=
  let m := d.prcm p
  let set := fun (c : PrcCfg) => Cmd.procSet { controller := 0, proc := p, regs := c.words, mtx := c.mtx }
  let lead := fun (c : PrcCfg) => !(c.quad && c.quadPos ≠ 0)
  let curves := fun (l : KV (List Nat)) => l.map fun e => Cmd.curveLoad { proc := p, curve := e.1, entries := e.2 }
  let banks := fun (l : KV (List Nat)) => l.map fun e => Cmd.coefLoad { proc := p, bank := e.1, coefs := e.2 }
  curves m.curves ++ banks m.banks ++ (m.cfg.toList.filter lead).map set ++ curves m.shadowCurves ++ banks m.shadowBanks ++
    ((m.pend.map (·.2.2)).filter lead).map set

/-- A LUT slot as the command that loads it. -/
def Dev.snapLut (d : Dev) (s : Nat) : List Cmd :=
  let k := KV.get [] d.x.luts s
  let n := d.rd (R.LUT3D_LOADED s)
  if d.fld (F.LUT3D_STATE_state s) = 0 then []
  else [.lutLoad { slot := s, last := d.fld (F.LUT3D_STATE_state s) ≠ 1, first := 0
                   entries := (List.range n).map fun i => let v := KV.get 0 k i
                     (bitsOf v 0 12, bitsOf v 12 12, bitsOf v 24 12) }]

/-- The fonts as the commands that load them. -/
def Dev.snapFonts (d : Dev) : List Cmd :=
  ((List.range 4).map fun f => Cmd.fontSet {
      font := f, height := d.fld (F.FONT_HDR_height f), baseline := d.fld (F.FONT_HDR_baseline f), defaultCp := d.rd (R.FONT_DEFAULT_CP f) }) ++
  ((List.range 8192).filter fun g => d.flag (F.GLYPH_ID_valid g)).map fun g =>
    let f := d.fld (F.GLYPH_ID_font g)
    let w := d.rd (R.GLYPH_WIDTH g)
    Cmd.fontLoad { font := f, slot := g, cp := d.fld (F.GLYPH_ID_code_point g), width := w
                   bitmap := match d.fontBase with
                     | some a => Memory.getBytes d.mem (a + 2048 * g) (glyphBytes (d.fld (F.FONT_HDR_height f)) w)
                     | none => [] }

/-- The audio output table, bindings, groups and generators as the commands that set them. -/
def Dev.snapAudio (d : Dev) : List Cmd :=
  [.audioMap { controller := 0, first := 0, entries := (List.range d.audCh).map fun o => (d.rd (R.AOUT_ROUTE o), d.rd (R.AOUT_GAIN o)) },
    .audioBind { first := 0, entries := (List.range d.audCh).map fun i => d.rd (R.AIN_BIND i) }] ++
  ((List.range 1024).map fun n => Cmd.audioGroup {
    kind := 0, index := n, base := d.rd (R.AUD_SGRP n), count := 0, delay := d.rd (R.AUD_SGRP_DELAY n) }) ++
  ((List.range 1024).map fun n => Cmd.audioGroup {
    kind := 1, index := n, base := d.rd (R.AUD_DGRP n) % 2 ^ 16, count := d.rd (R.AUD_DGRP n) / 2 ^ 16, delay := d.rd (R.AUD_DGRP_DELAY n) }) ++
  ((List.range 16).filter fun g => bitOf (d.rd (R.AUD_TONE g)) 31).map fun g => Cmd.audioTone {
    generator := g, freq := d.rd (R.AUD_TONE g) % 2 ^ 31, level := d.rd (R.AUD_TONE_LEVEL g) }

/-- The committed changes of a destination that have not landed, as the commands that made them; a group's first member speaks
for it. -/
def Dev.snapTakes (d : Dev) (n : Nat) : List Cmd :=
  let m := d.dstm n
  (m.resolved ++ m.pend).filterMap fun t => match t.layer with
    | some l => some (.takeOverlay { controller := 0, dest := n, layer := l, ctrl := t.ctrl, pos := t.pos })
    | none =>
      if d.flag (F.DST_CTRL_quad_member n) && n % 4 ≠ 0 then none
      else some (.take { controller := 0, dest := n, field2 := t.field2, mode := t.mode, video := t.video, audio := t.audio
                         anc := t.anc, source := t.source })

/-- A snapshot of the unit at its reference OTG's present frame. -/
def Dev.snapshot (d : Dev) : SnapMsg where
  frame := d.refFrame
  counter := d.rd R.TWIN_COMMIT_CNT
  items :=
    ((d.regs.filter fun e => snapKind e.1.kind || d.x.ctl.cfgWritten.contains e.1).map fun e => SnapItem.reg e.1.addr e.2.toNat) ++
    (d.x.chains.map fun e => SnapItem.chain e.1 e.2.state e.2.controller e.2.entries e.2.trig) ++
    (((List.range 64).flatMap d.snapLut ++ (d.x.prc.flatMap fun e => d.snapProc e.1) ++ d.snapFonts ++
      (List.range 256).flatMap d.snapSurface ++ d.snapAudio ++ (List.range 1024).flatMap d.snapTakes).map SnapItem.cmd)

/-- What a snapshot replaces goes first. -/
def snapClear : Prog :=
  seq [
    .act (.regReset fun r => snapKind r.kind),
    .read fun d => each (d.x.chains.filterMap fun e => e.2.timer) evtDisarm,
    ext fun x => { x with chains := [], luts := [] },
    each (List.range 64) fun s => seq [wr (R.LUT3D_STATE s) 0, wr (R.LUT3D_LOADED s) 0],
    .read fun d => each (d.x.prc.map (·.1)) fun p =>
      prcUpd p fun m => { m with cfg := none, pend := [], curves := [], shadowCurves := [], banks := [], shadowBanks := [] },
    each (List.range 8192) fun g => seq [wr (R.GLYPH_ID g) 0, wr (R.GLYPH_WIDTH g) 0],
    each (List.range 256) surfRelease,
    .read fun d => each (d.x.dst.map (·.1)) fun n => dstUpd n fun m => { m with pend := [], resolved := [] }]

/-- A snapshot's item has its effect; a processor's first configuration comes into force with it. -/
def snapItem (i : SnapItem) : Prog :=
  .read fun d =>
    match i with
    | .reg off v => match regAt off with | some r => wr r v | none => .nop
    | .chain n st ctl es trig => seq [
        chainUpd n fun _ => { state := if st ≤ 1 then st else 2, entries := es, controller := ctl },
        match st, trig with
        | 3, some t => chainArm { id := 0, controller := ctl, seq := 0, mirrored := true, cmd := .chainQuery n, instant := d.x.time.ht } n t
        | _, _ => .nop,
        chainUpd n fun k => { k with cmd := none }]
    | .cmd c => match specOf c with
      | none => .nop
      | some sp => seq [
          rygusMirrored { counter := 0, controller := 0, seq := 0, cmd := c, instant := d.x.time.ht } sp,
          match c with
          | .procSet b => doIf (d.prcm b.proc).cfg.isNone (
              each (procLeaders b.proc ⟨b.regs, b.mtx⟩) fun l => procLand l.1 d.refFrame fun _ => true)
          | _ => .nop]

/-- The snapshot is applied, and the commits that follow it (R412). -/
def snapApply (m : SnapMsg) : Prog :=
  .read fun d => seq [
    snapClear, each m.items snapItem,
    .read fun e => each (e.x.mvh.map (·.1)) fun h => seq [mvhUpd h fun k => { k with pend := k.pend ++ [e.x.ctl.fresh] },
      .read fun g => mvhLand h (g.mvhTiming h).2],
    ctlUpd fun c => { c with nextId := c.fresh + 1 },
    .read fun e => audLand (e.x.time.ht / (1000000 * nsU) + 2),
    each (List.range 1024) xptSave, refSync, planUpdate,
    wr R.TWIN_COMMIT_CNT m.counter,
    twinUpd fun t => { t with applied := true, snap := none, heldCommits := [] },
    each d.x.twin.heldCommits fun c => seq [wr R.TWIN_COMMIT_CNT c.counter, mirrorApply c]]

/-- A SNAPSHOT message (R412): it waits for its frame of the unit's own reference OTG. -/
def snapRx (m : SnapMsg) : Prog :=
  seq [twinTake 8, doWhen (fun d => d.on .twin && d.tstate == 4 && !d.x.twin.applied) (seq [
    twinUpd fun t => { t with snap := some m, heldCommits := [] },
    doWhen (fun d => decide (m.frame ≤ d.refFrame)) (snapApply m)])]

/-- A waiting snapshot's frame begins. -/
def snapDue (n : Nat) : Prog :=
  .read fun d => match d.x.twin.snap with
    | some m => doIf (n == d.fld F.TWIN_SIG_CTRL_ref_otg && decide (m.frame ≤ d.refFrame)) (snapApply m)
    | none => .nop

/-! ### Admission (R412, R413) -/

/-- The active sends its snapshot, and mirrors from then on. -/
def snapSend : Prog := .read fun d => seq [emit (.snapshot d.snapshot), twinUpd fun t => { t with follows := true }]

/-- An ADMIT message: the active answers with its own, and a snapshot where the checks pass. -/
def admitRx (m : AdmitMsg) : Prog :=
  seq [twinTake 7, doWhen (·.on .twin) (seq [
    setB F.TWIN_FAR_INFO_far_unit (m.unit % 2 == 1), setB F.TWIN_FAR_INFO_far_es m.es, setF F.TWIN_FAR_INFO_far_gen m.gen,
    twinUpd fun t => { t with farAdmit := some m },
    .read fun d =>
      if d.tstate = 2 then seq [admitPost, admitCheck snapSend]
      else doIf (d.tstate == 4) (admitCheck .nop)])]

/-- The checks are made again (R413): a standby without a snapshot asks again, an active sends one where they pass now. -/
def admitRecheck : Prog :=
  doWhen (·.on .twin) (.read fun d =>
    let hears := match d.x.twin.far with | some p => p.role == 2 | none => false
    if d.tstate = 2 then doIf (hears && !d.x.twin.follows) (admitCheck snapSend)
    else doIf (d.tstate == 4) (seq [admitCheck .nop,
      doIf (d.timeNear && !d.x.twin.applied && d.x.twin.snap.isNone) (seq [admitPost, twinUpd fun m => { m with admitSent := true }])]))

/-! ### Rows -/

/-- TWIN_COMMIT_MSG (R405, R406). -/
def execTwinCommitMsg (m : CommitMsg) (s : State) : Host.Outcome State Fault Refusal := perform .core (commitRx m) s

/-- TWIN_ADMIT_MSG (R412, R413). -/
def execTwinAdmitMsg (m : AdmitMsg) (s : State) : Host.Outcome State Fault Refusal := perform .core (admitRx m) s

/-- TWIN_SNAPSHOT_MSG (R412). -/
def execTwinSnapshotMsg (m : SnapMsg) (s : State) : Host.Outcome State Fault Refusal := perform .core (snapRx m) s

/-- TWIN_ADMIT_RECHECK (R413). -/
def execTwinAdmitRecheck (s : State) : Host.Outcome State Fault Refusal := perform .core admitRecheck s

/-- OTG_FRAME_BOUNDARY (R61, R62, R64, R412). -/
def execOtgFrameBoundary (n : OtgId) (s : State) : Host.Outcome State Fault Refusal :=
  perform .core (doWhen (fun d => d.on (.otg n)) (seq [otgBoundary n, snapDue n])) s

end Sys2Proof.Machine
end

