-- ==== Sys2Proof/Machine/Lifecycle.lean ====
section
/-!
DEFINITION. The rows that take functions through the states of R28 (R30 to R34), and those whose effects reach functions of
several chapters: lanes, quads, links and the audio block.
-/

namespace Sys2Proof.Machine

/-! ### Enable, disable, wake and drain (R30, R449) -/

/-- A write of a function's enable field: one of a field that firmware owns by the host is dropped and logged. -/
def enableWrite (f : Fn) (who : Writer) (on : Bool) : Prog :=
  match fnEnableField f with
  | none => .nop
  | some e => .read fun d =>
    let owned := bitOf (regInfo e.reg.kind).fw e.lo
    let v := putBits (d.rd e.reg) e.lo e.width (boolBit on)
    match who with
    | .firmware => fnSwitch f on
    | .host => hostDo (if owned then doIf (d.flag e ≠ on) (aflPush 0 .fwOwned 15 0 e.reg.addr v) else fnSwitch f on)

/-- FUNCTION_ENABLE (R30). -/
def execFunctionEnable (f : Fn) (who : Writer) (s : State) : Host.Outcome State Fault Refusal :=
  perform .core (enableWrite f who true) s

/-- FUNCTION_DISABLE (R30). -/
def execFunctionDisable (f : Fn) (who : Writer) (s : State) : Host.Outcome State Fault Refusal :=
  perform .core (enableWrite f who false) s

/-- INIT_COMPLETE (R30); the last OTG, the memory system or the matrix to reach ON completes the start of routing (R455). -/
def execInitComplete (f : Fn) (s : State) : Host.Outcome State Fault Refusal := perform .core (seq [fnInit f, routingCheck]) s

/-- DRAIN_COMPLETE (R30). -/
def execDrainComplete (f : Fn) (s : State) : Host.Outcome State Fault Refusal := perform .core (fnDrain f) s

/-! ### Faults (R30, R34) -/

/-- A function's fault that retry did not clear, with firmware's rung 2 where its chapter gives it. -/
def functionFault (f : Fn) (code : Nat) (rung2 : Bool) : Prog :=
  seq [fnGo f (fnFault f code), doIf rung2 (fnGo f (doWhen (fun d => d.fst f == .fault) (fnEscalate f))), escalDo]

/-- FUNCTION_FAULT (R30, R34, R541). -/
def execFunctionFault (f : Fn) (code : Nat) (rung2 : Bool) (s : State) : Host.Outcome State Fault Refusal :=
  perform .core (functionFault f code rung2) s

/-- SERVO_RANGE (R41, R69): loss of lock and FAULT 0x02 of the time base. -/
def execServoRange (n : TbId) (s : State) : Host.Outcome State Fault Refusal :=
  perform .core (doWhen (fun d => d.servoRuns n) (seq [servoLock n false, fnGo (.tb n) (fnFault (.tb n) 0x02)])) s

/-! ### Lanes and quads (R287, R295, R296) -/

/-- A sleeping lane wakes because the stage is left, a binding is made to it, or its signal detector sees the far end. -/
def laneRouse (l : LaneId) (why : WakeCause) : Prog :=
  .read fun d =>
    let due := match why with
      | .stageLeft => decide (d.fld F.PWR_STATUS_stage < 3)
      | .binding => !d.laneIdle l
      | .farSignal => true
    doIf (due && d.fst (.lane l) == .off && (d.fw (.lane l)).asleep) (seq [
      doIf (why == .farSignal) (setF (F.LANE_STATUS_signal l) 1), fnGo (.lane l) (laneWake l)])

/-- LANE_WAKE (R295). -/
def execLaneWake (l : LaneId) (why : WakeCause) (s : State) : Host.Outcome State Fault Refusal :=
  perform .core (laneRouse l why) s

/-- LANE_RESLEEP (R295): the second after the wake has passed. -/
def execLaneResleep (l : LaneId) (s : State) : Host.Outcome State Fault Refusal :=
  perform .core (doWhen (fun d => d.on (.lane l) && (d.lanem l).woke && decide (3 ≤ d.fld F.PWR_STATUS_stage))
    (fnGo (.lane l) (laneSleep l))) s

/-- A quad's lanes. -/
def quadLanes (q : QuadId) : List LaneId := (List.range 4).map fun k => Fin.ofNat 96 (4 * q.val + k)

/-- A PLL of a quad loses lock: the lanes it serves enter FAULT; where it relocks, rung 2 follows (R296). -/
def pllUnlock (q : QuadId) (pll : Fin 2) (relocked : Bool) : Prog :=
  doWhen (fun d => d.on (.quad q)) (.read fun d =>
    let lock := if pll = 0 then F.QUAD_STATUS_pll_a_lock q else F.QUAD_STATUS_pll_b_lock q
    let ls := (quadLanes q).filter fun l => (d.on (.lane l) || d.fst (.lane l) == .waking) && d.laneNeedsPll l && d.lanePll l == some pll.val
    seq [
      raise (if pll = 0 then F.QUAD_ALARM_pll_a_unlock q else F.QUAD_ALARM_pll_b_unlock q), setF lock 0,
      each ls fun l => seq [
        raise (F.LANE_ALARM_pll_unlock l), setF (F.LANE_STATUS_tx_pll_lock l) 0, fnGo (.lane l) (fnFault (.lane l) 2)],
      doIf relocked (seq [setF lock 1, each ls fun l => fnGo (.lane l) (seq [fnRung (.lane l) 1, fnEscalate (.lane l)])])])

/-- LANE_PLL_UNLOCK (R296). -/
def execLanePllUnlock (q : QuadId) (pll : Fin 2) (relocked : Bool) (s : State) : Host.Outcome State Fault Refusal :=
  perform .core (pllUnlock q pll relocked) s

/-- REFCLK_LOST (R287). -/
def execRefclkLost (q : QuadId) (s : State) : Host.Outcome State Fault Refusal :=
  perform .core (doWhen (fun d => d.fst (.quad q) ≠ .off)
    (seq [raise (F.QUAD_ALARM_refclk_lost q), setF (F.QUAD_STATUS_refclk_ok q) 0, fnGo (.quad q) (fnFault (.quad q) 3)])) s

/-- REFCLK_RESTORED (R287): rung 2 on the quad, then on its lanes. -/
def execRefclkRestored (q : QuadId) (s : State) : Host.Outcome State Fault Refusal :=
  perform .core (doWhen (fun d => d.fst (.quad q) == .fault && (d.fw (.quad q)).code == 3) (seq [
    setF (F.QUAD_STATUS_refclk_ok q) 1, fnGo (.quad q) (fnEscalate (.quad q)),
    each (quadLanes q) fun l =>
      doWhen (fun d => d.fst (.lane l) == .fault && (d.fw (.lane l)).code == 4) (fnGo (.lane l) (fnEscalate (.lane l)))])) s

/-! ### Links and the audio block -/

/-- HLK_UP_TIMEOUT (R256, R279). -/
def execHlkUpTimeout (l : LaneId) (s : State) : Host.Outcome State Fault Refusal :=
  perform .core (doWhen (fun d => d.on (.hlk l) && (d.rxState l == 2 || d.rxState l == 3) && !(d.hlkm l).fromIdle)
    (fnGo (.hlk l) (seq [hlkRetrain l, fnExhaust (hlkFn l) 2]))) s

/-- AUDIO_BLOCK_BOUNDARY (R200, R220, R234 to R238, R267). -/
def execAudioBlockBoundary (late : List Nat) (errs : List AudErr) (s : State) : Host.Outcome State Fault Refusal :=
  perform .core (fnGo .aud (seq [
    each (List.range 16) sapBlockIn, audBlockStart late errs, each (List.range 16) sapBlockOut,
    doWhen (fun d => d.on .aud) audTransmit])) s

end Sys2Proof.Machine
end

