-- ==== Sys2Proof/Machine/Dispatch.lean ====
section
/-!
DEFINITION. `exec`: one arm per command, each a direct call of its meaning or a rejection by name.
-/
namespace Sys2Proof.Machine

def exec (i : Instr) (s : State) : Host.Outcome State Fault Refusal :=
  match i with
  | .functionEnable f who => Sys2Proof.Machine.execFunctionEnable f who s
  | .functionDisable f who => Sys2Proof.Machine.execFunctionDisable f who s
  | .initComplete f => Sys2Proof.Machine.execInitComplete f s
  | .drainComplete f => Sys2Proof.Machine.execDrainComplete f s
  | .functionFault f code rung2 => Sys2Proof.Machine.execFunctionFault f code rung2 s
  | .warmReset cause => Sys2Proof.Machine.execWarmReset cause s
  | .powerCycle => Sys2Proof.Machine.execPowerCycle s
  | .pwrCycleTimeout => Sys2Proof.Machine.execPwrCycleTimeout s
  | .hbmBwSample rd wr chans => Sys2Proof.Machine.execHbmBwSample rd wr chans s
  | .registerWrite addr value be => Sys2Proof.Machine.execRegisterWrite addr value be s
  | .counterLowRead addr => Sys2Proof.Machine.execCounterLowRead addr s
  | .hostUnmappedAccess write addr value be => Sys2Proof.Machine.execHostUnmappedAccess write addr value be s
  | .timeSnap who => Sys2Proof.Machine.execTimeSnap who s
  | .htSecondsStore => Sys2Proof.Machine.execHtSecondsStore s
  | .ptpAnnounceTimeout n => Sys2Proof.Machine.execPtpAnnounceTimeout n s
  | .ptpServoLock n => Sys2Proof.Machine.execPtpServoLock n s
  | .ptpOffsetUnlock n => Sys2Proof.Machine.execPtpOffsetUnlock n s
  | .servoRange n => Sys2Proof.Machine.execServoRange n s
  | .tbAdjStep n => Sys2Proof.Machine.execTbAdjStep n s
  | .tbAdjSlew n => Sys2Proof.Machine.execTbAdjSlew n s
  | .tbSlewComplete n => Sys2Proof.Machine.execTbSlewComplete n s
  | .tbSet n => Sys2Proof.Machine.execTbSet n s
  | .refEnableWrite n on => Sys2Proof.Machine.execRefEnableWrite n on s
  | .refLockoutWrite n on => Sys2Proof.Machine.execRefLockoutWrite n on s
  | .refPulseEdge n e => Sys2Proof.Machine.execRefPulseEdge n e s
  | .refTick meas cw => Sys2Proof.Machine.execRefTick meas cw s
  | .refQualComplete n => Sys2Proof.Machine.execRefQualComplete n s
  | .refWtrComplete n => Sys2Proof.Machine.execRefWtrComplete n s
  | .refDriftSample n freq => Sys2Proof.Machine.execRefDriftSample n freq s
  | .dpllModeAuto => Sys2Proof.Machine.execDpllModeAuto s
  | .dpllModeForced ref => Sys2Proof.Machine.execDpllModeForced ref s
  | .holdoverForce => Sys2Proof.Machine.execHoldoverForce s
  | .freeRunForce => Sys2Proof.Machine.execFreeRunForce s
  | .dpllAcqLocked adj => Sys2Proof.Machine.execDpllAcqLocked adj s
  | .dpllCaptureComplete offset => Sys2Proof.Machine.execDpllCaptureComplete offset s
  | .dpllPullComplete => Sys2Proof.Machine.execDpllPullComplete s
  | .dpllCwLimit => Sys2Proof.Machine.execDpllCwLimit s
  | .synthLockLoss relocked => Sys2Proof.Machine.execSynthLockLoss relocked s
  | .dpllRealign => Sys2Proof.Machine.execDpllRealign s
  | .htRealignStep => Sys2Proof.Machine.execHtRealignStep s
  | .otgFrameBoundary n => Sys2Proof.Machine.execOtgFrameBoundary n s
  | .pulseOutputEdge o => Sys2Proof.Machine.execPulseOutputEdge o s
  | .evtArm n who => Sys2Proof.Machine.execEvtArm n who s
  | .evtDisarm n who => Sys2Proof.Machine.execEvtDisarm n who s
  | .evtFire n => Sys2Proof.Machine.execEvtFire n s
  | .timeSet h b => Sys2Proof.Machine.execTimeSet h b s
  | .timeRealign h => Sys2Proof.Machine.execTimeRealign h s
  | .timeRef h b => Sys2Proof.Machine.execTimeRef h b s
  | .timeDpll h b => Sys2Proof.Machine.execTimeDpll h b s
  | .timeOtg h b => Sys2Proof.Machine.execTimeOtg h b s
  | .ingressFrameStart n f => Sys2Proof.Machine.execIngressFrameStart n f s
  | .ingressFrameComplete n => Sys2Proof.Machine.execIngressFrameComplete n s
  | .frameAbandon n => Sys2Proof.Machine.execFrameAbandon n s
  | .noInputTimeout n => Sys2Proof.Machine.execNoInputTimeout n s
  | .decisionMirrorRx n r => Sys2Proof.Machine.execDecisionMirrorRx n r s
  | .decisionLocalDeadline n seq_ => Sys2Proof.Machine.execDecisionLocalDeadline n seq_ s
  | .srcCntClear n => Sys2Proof.Machine.execSrcCntClear n s
  | .take h b => Sys2Proof.Machine.execTake h b s
  | .takeOverlay h b => Sys2Proof.Machine.execTakeOverlay h b s
  | .takeCommit n => Sys2Proof.Machine.execTakeCommit n s
  | .destFrameBoundary n => Sys2Proof.Machine.execDestFrameBoundary n s
  | .destSwitchPoint n field2 => Sys2Proof.Machine.execDestSwitchPoint n field2 s
  | .destSwitchLine n field2 => Sys2Proof.Machine.execDestSwitchLine n field2 s
  | .scanoutTileRowFetch n layer row => Sys2Proof.Machine.execScanoutTileRowFetch n layer row s
  | .scanoutLineEmit n line => Sys2Proof.Machine.execScanoutLineEmit n line s
  | .destFrameEmitted n => Sys2Proof.Machine.execDestFrameEmitted n s
  | .protect h b => Sys2Proof.Machine.execProtect h b s
  | .lock h b => Sys2Proof.Machine.execLock h b s
  | .release h b => Sys2Proof.Machine.execRelease h b s
  | .forceRelease h b => Sys2Proof.Machine.execForceRelease h b s
  | .chainLoad h b => Sys2Proof.Machine.execChainLoad h b s
  | .chainArm h b => Sys2Proof.Machine.execChainArm h b s
  | .chainFire h b => Sys2Proof.Machine.execChainFire h b s
  | .chainCancel h b => Sys2Proof.Machine.execChainCancel h b s
  | .chainQuery h chain => Sys2Proof.Machine.execChainQuery h chain s
  | .chainTrigger chain => Sys2Proof.Machine.execChainTrigger chain s
  | .surfaceAlloc h b => Sys2Proof.Machine.execSurfaceAlloc h b s
  | .surfaceWrite h b => Sys2Proof.Machine.execSurfaceWrite h b s
  | .surfacePublish h id => Sys2Proof.Machine.execSurfacePublish h id s
  | .surfaceFree h id => Sys2Proof.Machine.execSurfaceFree h id s
  | .surfaceQuery h id => Sys2Proof.Machine.execSurfaceQuery h id s
  | .surfaceReclaim id => Sys2Proof.Machine.execSurfaceReclaim id s
  | .dstCntClear n => Sys2Proof.Machine.execDstCntClear n s
  | .procSet h b => Sys2Proof.Machine.execProcSet h b s
  | .procLut3dLoad h b => Sys2Proof.Machine.execProcLut3dLoad h b s
  | .procLut3dFree h slot => Sys2Proof.Machine.execProcLut3dFree h slot s
  | .procCurveLoad h b => Sys2Proof.Machine.execProcCurveLoad h b s
  | .procCoefLoad h b => Sys2Proof.Machine.execProcCoefLoad h b s
  | .procQuery h proc => Sys2Proof.Machine.execProcQuery h proc s
  | .procOutputBoundary n => Sys2Proof.Machine.execProcOutputBoundary n s
  | .procFrameComplete n => Sys2Proof.Machine.execProcFrameComplete n s
  | .prcCntClear n => Sys2Proof.Machine.execPrcCntClear n s
  | .mvSet h b => Sys2Proof.Machine.execMvSet h b s
  | .mvLayout h b => Sys2Proof.Machine.execMvLayout h b s
  | .mvText h b => Sys2Proof.Machine.execMvText h b s
  | .mvTally h b => Sys2Proof.Machine.execMvTally h b s
  | .mvGuard h b => Sys2Proof.Machine.execMvGuard h b s
  | .mvFontSet h b => Sys2Proof.Machine.execMvFontSet h b s
  | .mvFontLoad h b => Sys2Proof.Machine.execMvFontLoad h b s
  | .mvQuery h head => Sys2Proof.Machine.execMvQuery h head s
  | .mvHeadBoundary n => Sys2Proof.Machine.execMvHeadBoundary n s
  | .mvHeadRowComposed n row late => Sys2Proof.Machine.execMvHeadRowComposed n row late s
  | .mvhCntClear n => Sys2Proof.Machine.execMvhCntClear n s
  | .audioMap h b => Sys2Proof.Machine.execAudioMap h b s
  | .audioBind h b => Sys2Proof.Machine.execAudioBind h b s
  | .audioGroup h b => Sys2Proof.Machine.execAudioGroup h b s
  | .audioTone h b => Sys2Proof.Machine.execAudioTone h b s
  | .audioMonitor h b => Sys2Proof.Machine.execAudioMonitor h b s
  | .audioQuery h b => Sys2Proof.Machine.execAudioQuery h b s
  | .audioBlockBoundary late errs => Sys2Proof.Machine.execAudioBlockBoundary late errs s
  | .audioInputReturn c => Sys2Proof.Machine.execAudioInputReturn c s
  | .asrcReturn c => Sys2Proof.Machine.execAsrcReturn c s
  | .loudnessUpdate => Sys2Proof.Machine.execLoudnessUpdate s
  | .silenceDetect d => Sys2Proof.Machine.execSilenceDetect d s
  | .twinAudioMsg m => Sys2Proof.Machine.execTwinAudioMsg m s
  | .audCntClear => Sys2Proof.Machine.execAudCntClear s
  | .audioSap h b => Sys2Proof.Machine.execAudioSap h b s
  | .sapFrame p f => Sys2Proof.Machine.execSapFrame p f s
  | .sapQualified p => Sys2Proof.Machine.execSapQualified p s
  | .sapClockLoss p => Sys2Proof.Machine.execSapClockLoss p s
  | .sapCntClear p => Sys2Proof.Machine.execSapCntClear p s
  | .hlkSignalDetect l => Sys2Proof.Machine.execHlkSignalDetect l s
  | .hlkSignalLoss l => Sys2Proof.Machine.execHlkSignalLoss l s
  | .hlkBlockLock l => Sys2Proof.Machine.execHlkBlockLock l s
  | .hlkBlockLockLost l => Sys2Proof.Machine.execHlkBlockLockLost l s
  | .hlkFecLock l => Sys2Proof.Machine.execHlkFecLock l s
  | .hlkFecLockLost l => Sys2Proof.Machine.execHlkFecLockLost l s
  | .hlkFecFrameRx l f => Sys2Proof.Machine.execHlkFecFrameRx l f s
  | .hlkUpTimeout l => Sys2Proof.Machine.execHlkUpTimeout l s
  | .wakeFail l => Sys2Proof.Machine.execWakeFail l s
  | .hlkStateRx l b => Sys2Proof.Machine.execHlkStateRx l b s
  | .noState l => Sys2Proof.Machine.execNoState l s
  | .hlkStateTx l => Sys2Proof.Machine.execHlkStateTx l s
  | .hlkVideoSegmentRx l g => Sys2Proof.Machine.execHlkVideoSegmentRx l g s
  | .hlkAudioBundleRx l g => Sys2Proof.Machine.execHlkAudioBundleRx l g s
  | .hlkAncSegmentRx l g => Sys2Proof.Machine.execHlkAncSegmentRx l g s
  | .hlkOpaqueSegmentRx l g => Sys2Proof.Machine.execHlkOpaqueSegmentRx l g s
  | .hlkTimeSegmentRx l g => Sys2Proof.Machine.execHlkTimeSegmentRx l g s
  | .hlkTimeTx l => Sys2Proof.Machine.execHlkTimeTx l s
  | .hlkTwinFragmentRx l g => Sys2Proof.Machine.execHlkTwinFragmentRx l g s
  | .hlkFragmentTimeout l => Sys2Proof.Machine.execHlkFragmentTimeout l s
  | .hlkIdleEnter l => Sys2Proof.Machine.execHlkIdleEnter l s
  | .hlkWakeBurst l sent => Sys2Proof.Machine.execHlkWakeBurst l sent s
  | .hlkCntClear l => Sys2Proof.Machine.execHlkCntClear l s
  | .laneAdaptComplete l t => Sys2Proof.Machine.execLaneAdaptComplete l t s
  | .laneEqStep l t => Sys2Proof.Machine.execLaneEqStep l t s
  | .ltCoefRequest l q => Sys2Proof.Machine.execLtCoefRequest l q s
  | .laneMonitorUpdate l m => Sys2Proof.Machine.execLaneMonitorUpdate l m s
  | .lowMargin l below => Sys2Proof.Machine.execLowMargin l below s
  | .laneScanGo l => Sys2Proof.Machine.execLaneScanGo l s
  | .scanDone l errors => Sys2Proof.Machine.execScanDone l errors s
  | .laneWake l why => Sys2Proof.Machine.execLaneWake l why s
  | .laneResleep l => Sys2Proof.Machine.execLaneResleep l s
  | .lanePllUnlock q pll relocked => Sys2Proof.Machine.execLanePllUnlock q pll relocked s
  | .refclkLost q => Sys2Proof.Machine.execRefclkLost q s
  | .refclkRestored q => Sys2Proof.Machine.execRefclkRestored q s
  | .laneCntClear l => Sys2Proof.Machine.execLaneCntClear l s
  | .sdiSignalDetect l => Sys2Proof.Machine.execSdiSignalDetect l s
  | .sdiSearchDwell l => Sys2Proof.Machine.execSdiSearchDwell l s
  | .sdiCdrLock l rate => Sys2Proof.Machine.execSdiCdrLock l rate s
  | .sdiAlignComplete l levelB rows => Sys2Proof.Machine.execSdiAlignComplete l levelB rows s
  | .sdiCdrUnlock l => Sys2Proof.Machine.execSdiCdrUnlock l s
  | .sdiLos l => Sys2Proof.Machine.execSdiLos l s
  | .sdiLineRx l d => Sys2Proof.Machine.execSdiLineRx l d s
  | .sdiAncPacketRx l p => Sys2Proof.Machine.execSdiAncPacketRx l p s
  | .sdiTxLine l line => Sys2Proof.Machine.execSdiTxLine l line s
  | .sdiCntClear l => Sys2Proof.Machine.execSdiCntClear l s
  | .macFrameRx m f => Sys2Proof.Machine.execMacFrameRx m f s
  | .flowSeqRelease q seq_ => Sys2Proof.Machine.execFlowSeqRelease q seq_ s
  | .flowLegLost q leg => Sys2Proof.Machine.execFlowLegLost q leg s
  | .macLinkChange m k => Sys2Proof.Machine.execMacLinkChange m k s
  | .txLaunchSlot m under => Sys2Proof.Machine.execTxLaunchSlot m under s
  | .txLateDrop m => Sys2Proof.Machine.execTxLateDrop m s
  | .gateWaitDrop m => Sys2Proof.Machine.execGateWaitDrop m s
  | .macTxComplete m => Sys2Proof.Machine.execMacTxComplete m s
  | .gateEntryChange m => Sys2Proof.Machine.execGateEntryChange m s
  | .macGateApply m who => Sys2Proof.Machine.execMacGateApply m who s
  | .gateListInstall m => Sys2Proof.Machine.execGateListInstall m s
  | .macTsqPop who => Sys2Proof.Machine.execMacTsqPop who s
  | .macCntClear m => Sys2Proof.Machine.execMacCntClear m s
  | .macTsqCntClear => Sys2Proof.Machine.execMacTsqCntClear s
  | .flowCntClear tx q => Sys2Proof.Machine.execFlowCntClear tx q s
  | .hbmRequestServe r => Sys2Proof.Machine.execHbmRequestServe r s
  | .spareCopyDone pc => Sys2Proof.Machine.execSpareCopyDone pc s
  | .hbmRefresh pc bank => Sys2Proof.Machine.execHbmRefresh pc bank s
  | .qosUrgencyEval slack => Sys2Proof.Machine.execQosUrgencyEval slack s
  | .hbmScrubStep pc e behind => Sys2Proof.Machine.execHbmScrubStep pc e behind s
  | .sramScrubStep fk e => Sys2Proof.Machine.execSramScrubStep fk e s
  | .hbmRecal c failures => Sys2Proof.Machine.execHbmRecal c failures s
  | .hbmEyeRetrain c ok => Sys2Proof.Machine.execHbmEyeRetrain c ok s
  | .hbmTrainingComplete t => Sys2Proof.Machine.execHbmTrainingComplete t s
  | .hbmApertureAccess write off value be => Sys2Proof.Machine.execHbmApertureAccess write off value be s
  | .hbmElogPop => Sys2Proof.Machine.execHbmElogPop s
  | .hbmCntClear => Sys2Proof.Machine.execHbmCntClear s
  | .mtxTransactionIssue m t => Sys2Proof.Machine.execMtxTransactionIssue m t s
  | .mtxGrant target e => Sys2Proof.Machine.execMtxGrant target e s
  | .mtxResponse m tag => Sys2Proof.Machine.execMtxResponse m tag s
  | .mtxWatchdogExpiry m tag => Sys2Proof.Machine.execMtxWatchdogExpiry m tag s
  | .mtxStreamIdle m stream => Sys2Proof.Machine.execMtxStreamIdle m stream s
  | .mtxLogPop => Sys2Proof.Machine.execMtxLogPop s
  | .mtxCntClear => Sys2Proof.Machine.execMtxCntClear s
  | .twinPeckTx => Sys2Proof.Machine.execTwinPeckTx s
  | .twinPeckRx path p => Sys2Proof.Machine.execTwinPeckRx path p s
  | .twinMissEval grant => Sys2Proof.Machine.execTwinMissEval grant s
  | .roleActivePeckTimeout => Sys2Proof.Machine.execRoleActivePeckTimeout s
  | .twinSeekTimeout grant => Sys2Proof.Machine.execTwinSeekTimeout grant s
  | .twinCommitMsg m => Sys2Proof.Machine.execTwinCommitMsg m s
  | .twinSignatureMsg m => Sys2Proof.Machine.execTwinSignatureMsg m s
  | .twinSignatureTx n => Sys2Proof.Machine.execTwinSignatureTx n s
  | .twinShedMsg stage frame => Sys2Proof.Machine.execTwinShedMsg stage frame s
  | .twinSwapMsg op reason frame => Sys2Proof.Machine.execTwinSwapMsg op reason frame s
  | .twinAdmitMsg m => Sys2Proof.Machine.execTwinAdmitMsg m s
  | .twinSnapshotMsg m => Sys2Proof.Machine.execTwinSnapshotMsg m s
  | .twinResyncComplete => Sys2Proof.Machine.execTwinResyncComplete s
  | .twinAdmitRecheck => Sys2Proof.Machine.execTwinAdmitRecheck s
  | .admitAgreement => Sys2Proof.Machine.execAdmitAgreement s
  | .healthSwap h => Sys2Proof.Machine.execHealthSwap h s
  | .twinSwapBoundary => Sys2Proof.Machine.execTwinSwapBoundary s
  | .twinSwapTimeout => Sys2Proof.Machine.execTwinSwapTimeout s
  | .twinCntClear => Sys2Proof.Machine.execTwinCntClear s
  | .sqTailDoorbell r v => Sys2Proof.Machine.execSqTailDoorbell r v s
  | .cqHeadDoorbell r v => Sys2Proof.Machine.execCqHeadDoorbell r v s
  | .cmdDescFetch r d => Sys2Proof.Machine.execCmdDescFetch r d s
  | .cmdMessageReceived k words => Sys2Proof.Machine.execCmdMessageReceived k words s
  | .pcieHostReset kind => Sys2Proof.Machine.execPcieHostReset kind s
  | .openSession d => Sys2Proof.Machine.execOpenSession d s
  | .dataDatagram d => Sys2Proof.Machine.execDataDatagram d s
  | .closeSession d => Sys2Proof.Machine.execCloseSession d s
  | .sessionTimeout e => Sys2Proof.Machine.execSessionTimeout e s
  | .queryXpt h first count => Sys2Proof.Machine.execQueryXpt h first count s
  | .queryStatus h => Sys2Proof.Machine.execQueryStatus h s
  | .queryCommand h seq => Sys2Proof.Machine.execQueryCommand h seq s
  | .queryRegs h offset count => Sys2Proof.Machine.execQueryRegs h offset count s
  | .configSet h b => Sys2Proof.Machine.execConfigSet h b s
  | .glbIrqEoi vector => Sys2Proof.Machine.execGlbIrqEoi vector s
  | .irqCoalTimeout r => Sys2Proof.Machine.execIrqCoalTimeout r s
  | .glbAflPop => Sys2Proof.Machine.execGlbAflPop s
  | .glbCntClear => Sys2Proof.Machine.execGlbCntClear s
  | .cmdCntClear => Sys2Proof.Machine.execCmdCntClear s
  | .fwHeartbeat => Sys2Proof.Machine.execFwHeartbeat s
  | .porstRelease f => Sys2Proof.Machine.execPorstRelease f s
  | .railInRegulation rail => Sys2Proof.Machine.execRailInRegulation rail s
  | .railFail rail => Sys2Proof.Machine.execRailFail rail s
  | .railOutOfTolerance rail low => Sys2Proof.Machine.execRailOutOfTolerance rail low s
  | .bootRomSelect found flash => Sys2Proof.Machine.execBootRomSelect found flash s
  | .firmwareLoaded => Sys2Proof.Machine.execFirmwareLoaded s
  | .configApply => Sys2Proof.Machine.execConfigApply s
  | .mramRestore bad => Sys2Proof.Machine.execMramRestore bad s
  | .linksUp => Sys2Proof.Machine.execLinksUp s
  | .referenceWaitEnd why => Sys2Proof.Machine.execReferenceWaitEnd why s
  | .routingStart => Sys2Proof.Machine.execRoutingStart s
  | .trialConfirm => Sys2Proof.Machine.execTrialConfirm s
  | .trialHandoverTimeout => Sys2Proof.Machine.execTrialHandoverTimeout s
  | .mramWindowWrite => Sys2Proof.Machine.execMramWindowWrite s
  | .updateBegin h b => Sys2Proof.Machine.execUpdateBegin h b s
  | .updateEraseDone ok => Sys2Proof.Machine.execUpdateEraseDone ok s
  | .updateWrite h b ok => Sys2Proof.Machine.execUpdateWrite h b ok s
  | .updateStatus h first => Sys2Proof.Machine.execUpdateStatus h first s
  | .updateVerify h => Sys2Proof.Machine.execUpdateVerify h s
  | .updateActivate h b => Sys2Proof.Machine.execUpdateActivate h b s
  | .updateActivationStart => Sys2Proof.Machine.execUpdateActivationStart s
  | .updateHandoverTimeout => Sys2Proof.Machine.execUpdateHandoverTimeout s
  | .updateAbort h => Sys2Proof.Machine.execUpdateAbort h s
  | .updateTrickle h value => Sys2Proof.Machine.execUpdateTrickle h value s
  | .updateRevert h => Sys2Proof.Machine.execUpdateRevert h s
  | .updateProvision h b => Sys2Proof.Machine.execUpdateProvision h b s
  | .tricklePiece n p ok => Sys2Proof.Machine.execTricklePiece n p ok s
  | .bootCntClear => Sys2Proof.Machine.execBootCntClear s
  | .avsEval vReq => Sys2Proof.Machine.execAvsEval vReq s
  | .avsCeiling => Sys2Proof.Machine.execAvsCeiling s
  | .shedEval vMeas => Sys2Proof.Machine.execShedEval vMeas s
  | .shedStepDown => Sys2Proof.Machine.execShedStepDown s
  | .undervoltageReset => Sys2Proof.Machine.execUndervoltageReset s
  | .supplyWarn => Sys2Proof.Machine.execSupplyWarn s
  | .thermalSample die temps => Sys2Proof.Machine.execThermalSample die temps s
  | .thermWarnHeld => Sys2Proof.Machine.execThermWarnHeld s
  | .thermalTrip => Sys2Proof.Machine.execThermalTrip s
  | .watchdogExpiry => Sys2Proof.Machine.execWatchdogExpiry s
  | .pmbusPoll r => Sys2Proof.Machine.execPmbusPoll r s
  | .pmbusAlert r => Sys2Proof.Machine.execPmbusAlert r s
  | .healthReinit h block inst => Sys2Proof.Machine.execHealthReinit h block inst s
  | .healthReset h => Sys2Proof.Machine.execHealthReset h s
  | .healthPowerCycle h => Sys2Proof.Machine.execHealthPowerCycle h s
  | .healthSubscribe h start => Sys2Proof.Machine.execHealthSubscribe h start s
  | .healthDebugChallenge h level => Sys2Proof.Machine.execHealthDebugChallenge h level s
  | .healthDebugResponse h b => Sys2Proof.Machine.execHealthDebugResponse h b s
  | .telemetryRecord => Sys2Proof.Machine.execTelemetryRecord s
  | .pwrCntClear => Sys2Proof.Machine.execPwrCntClear s
  | .extest dr => Sys2Proof.Machine.execExtest dr s
  | .idcode => Sys2Proof.Machine.execIdcode s
  | .samplePreload dr => Sys2Proof.Machine.execSamplePreload dr s
  | .clamp => Sys2Proof.Machine.execClamp s
  | .highz => Sys2Proof.Machine.execHighz s
  | .dbgChallenge level => Sys2Proof.Machine.execDbgChallenge level s
  | .dbgResponse b => Sys2Proof.Machine.execDbgResponse b s
  | .scanRead => Sys2Proof.Machine.execScanRead s
  | .bypass bit => Sys2Proof.Machine.execBypass bit s
  | .freeze => Sys2Proof.Machine.execFreeze s
  | .porstAssert => Sys2Proof.Machine.execPorstAssert s
  | .supplyWarnRelease => Sys2Proof.Machine.execSupplyWarnRelease s
  | .startupTimeExpiry => Sys2Proof.Machine.execStartupTimeExpiry s
  | .ptpMessageTx m k => Sys2Proof.Machine.execPtpMessageTx m k s
  | .updateVerifyDone => Sys2Proof.Machine.execUpdateVerifyDone s
  | .laneSignalDetect l => Sys2Proof.Machine.execLaneSignalDetect l s
  | .laneSignalLoss l => Sys2Proof.Machine.execLaneSignalLoss l s
  | .laneCdrLockLoss l => Sys2Proof.Machine.execLaneCdrLockLoss l s
  | .pcieLinkUp => Sys2Proof.Machine.execPcieLinkUp s
  | .msixVectorUnmask v => Sys2Proof.Machine.execMsixVectorUnmask v s
  | .hbmCeRateClear => Sys2Proof.Machine.execHbmCeRateClear s

end Sys2Proof.Machine
end

