-- ==== Sys2Proof/Machine/Tick.lean ====
section
/-!
DEFINITION. What a step does when no command waits (assumption 2).
-/

namespace Sys2Proof.Machine

/-- One cycle of the 1.5 GHz house clock, if the core domain runs (R37). -/
def tick (s : State) : State :=
  if s.dev.live then { s with dev := houseCycle.run s.dev } else s

end Sys2Proof.Machine
end

