-- ==== Sys2Proof/Machine/Step.lean ====
section
/-!
DEFINITION. One step: take the command at the front of the queue and run it on the state with the queue's rest; on an
empty queue one house clock cycle passes (assumption 2).
-/

namespace Sys2Proof.Machine

/-- One step of the block. -/
def step (s : State) : Host.Outcome State Fault Refusal :=
  match s.pending with
  | [] => .next (tick s)
  | c :: rest => exec c { s with pending := rest }

/-- The state with the command that a table word spells put at the front of its queue; no row of the table has bits,
so no word spells a command (assumption 3). -/
def State.withFetchWord (s : State) (nbits w : Nat) : State :=
  match decodeTableWord nbits w with
  | some c => { s with pending := c :: s.pending }
  | none => s

end Sys2Proof.Machine
end

