-- ==== Sys2Proof/WellFormed.lean ====
section
/-!
DEFINITION. Well-formed commands: every operand is a value that its row's encoding can carry. A message field is as wide as
R102 to R124, R129, R165, R194, R227, R441, R477 and R508 give it; an event's operand is in the range its rule gives it.
-/

namespace Sys2Proof

/-! ### Ranges -/

/-- A number fits a width. -/
def fits (width v : Nat) : Bool := decide (v < 2 ^ width)

/-- Every number fits a width. -/
def allFit (width : Nat) (l : List Nat) : Bool := l.all (fits width)

/-- A word address of BAR0 (R423, R447). -/
def wordAddr (a : Nat) : Bool := fits 26 a && a % 4 == 0

/-! ### Messages (R428, R429, R438) -/

/-- A ring's descriptor: an SQ index, and a response buffer of whole 64-byte lines of at most 1 MiB (R428). -/
def RingSlot.wf (s : RingSlot) : Bool :=
  fits 12 s.sqIndex && fits 64 s.respAddr && s.respLen % 64 == 0 && decide (s.respLen ≤ 2 ^ 20)

def Intake.wf : Intake → Bool
  | .ring _ s => s.wf
  | .session _ => true

def Hdr.wf (h : Hdr) : Bool := h.intake.wf && fits 32 h.seq

/-! ### Bodies -/

def TakeBody.wf (b : TakeBody) : Bool := fits 16 b.controller && fits 16 b.dest && fits 2 b.mode && fits 12 b.source

def OverlayBody.wf (b : OverlayBody) : Bool :=
  fits 16 b.controller && fits 10 b.dest && allFit 32 [b.layer, b.ctrl, b.pos]

def HoldBody.wf (b : HoldBody) : Bool := fits 16 b.controller && fits 10 b.dest

def ChainLoadBody.wf (b : ChainLoadBody) : Bool :=
  fits 8 b.chain && fits 10 b.first && decide (b.entries.length ≤ 1024) && b.entries.all (·.wf)

def ChainTrig.wf : ChainTrig → Bool
  | .time scale sec ns => fits 3 scale && fits 48 sec && fits 30 ns
  | .frame dest count => fits 10 dest && fits 64 count

def ChainArmBody.wf (b : ChainArmBody) : Bool := fits 8 b.chain && fits 16 b.controller && b.trig.wf

def ChainFireBody.wf (b : ChainFireBody) : Bool := fits 8 b.chain && fits 16 b.controller && fits 10 b.dest

def ChainCancelBody.wf (b : ChainCancelBody) : Bool := fits 8 b.chain && fits 16 b.controller

def SurfaceAllocBody.wf (b : SurfaceAllocBody) : Bool := fits 8 b.id && fits 4 b.sampling && fits 8 b.format

def SurfaceWriteBody.wf (b : SurfaceWriteBody) : Bool :=
  fits 8 b.id && fits 32 b.offset && decide (1 ≤ b.data.length) && decide (b.data.length ≤ 65508)

def ProcSetBody.wf (b : ProcSetBody) : Bool :=
  fits 16 b.controller && fits 9 b.proc && b.regs.length == 11 && b.mtx.length == 32 && allFit 32 (b.regs ++ b.mtx)

def LutLoadBody.wf (b : LutLoadBody) : Bool :=
  fits 6 b.slot && fits 16 b.first && decide (b.entries.length ≤ 10919) &&
  b.entries.all fun e => allFit 16 [e.1, e.2.1, e.2.2]

def CurveLoadBody.wf (b : CurveLoadBody) : Bool :=
  fits 9 b.proc && fits 3 b.curve && b.entries.length == 1025 && allFit 16 b.entries

def CoefLoadBody.wf (b : CoefLoadBody) : Bool :=
  fits 9 b.proc && fits 2 b.bank && decide (b.coefs.length ≤ 64 * 64) && allFit 16 b.coefs

def MvSetBody.wf (b : MvSetBody) : Bool :=
  fits 16 b.controller && fits 5 b.head && b.regs.length == 7 && b.clocks.length == 12 && b.palette.length == 16 &&
  allFit 32 (b.regs ++ b.clocks ++ b.palette)

def TileEntry.wf (t : TileEntry) : Bool := allFit 32 [t.src, t.rectX, t.rectY, t.deco, t.meter]

def MvLayoutBody.wf (b : MvLayoutBody) : Bool :=
  fits 16 b.controller && fits 5 b.head && fits 7 b.tiles.length && b.tiles.all (·.wf)

def MvTextBody.wf (b : MvTextBody) : Bool := fits 5 b.head && fits 6 b.tile && fits 6 b.text.length

def MvTallyBody.wf (b : MvTallyBody) : Bool := fits 5 b.head && fits 6 b.tile && fits 2 b.tally

def MvGuardBody.wf (b : MvGuardBody) : Bool :=
  fits 5 b.head && fits 4 b.region && allFit 32 [b.ctrl, b.x, b.y, b.expect]

def FontSetBody.wf (b : FontSetBody) : Bool :=
  fits 2 b.font && fits 7 b.height && fits 7 b.baseline && fits 21 b.defaultCp

def FontLoadBody.wf (b : FontLoadBody) : Bool :=
  fits 2 b.font && fits 13 b.slot && fits 21 b.cp && fits 7 b.width && decide (b.bitmap.length ≤ 65508)

def AudioMapBody.wf (b : AudioMapBody) : Bool :=
  fits 16 b.controller && fits 15 b.first && fits 16 b.entries.length && b.entries.all fun e => allFit 32 [e.1, e.2]

def AudioBindBody.wf (b : AudioBindBody) : Bool := fits 15 b.first && fits 16 b.entries.length && allFit 32 b.entries

def AudioGroupBody.wf (b : AudioGroupBody) : Bool :=
  fits 2 b.kind && fits 10 b.index && fits 15 b.base && fits 6 b.count && fits 16 b.delay

def AudioToneBody.wf (b : AudioToneBody) : Bool := fits 4 b.generator && fits 15 b.freq && fits 10 b.level

def AudioMonitorBody.wf (b : AudioMonitorBody) : Bool :=
  fits 2 b.kind && fits 11 b.index && b.values.length == (if b.kind = 1 then 17 else 1) && allFit 32 b.values

def AudioQueryBody.wf (b : AudioQueryBody) : Bool := fits 15 b.first && fits 16 b.count

def AudioSapBody.wf (b : AudioSapBody) : Bool := fits 4 b.port && b.values.length == 7 && allFit 32 b.values

def TimeSetBody.wf (b : TimeSetBody) : Bool := fits 3 b.target && fits 48 b.sec && fits 30 b.ns

def TimeRefBody.wf (b : TimeRefBody) : Bool := fits 4 b.cand && b.values.length == 8 && allFit 32 b.values

def TimeDpllBody.wf (b : TimeDpllBody) : Bool := allFit 32 [b.ctrl, b.bw, b.slew, b.holdover]

def TimeOtgBody.wf (b : TimeOtgBody) : Bool := fits 5 b.otg && allFit 32 [b.ctrl, b.offset]

def UpdateBeginBody.wf (b : UpdateBeginBody) : Bool := fits 8 b.kind && allFit 32 [b.length, b.imageId]

def UpdateWriteBody.wf (b : UpdateWriteBody) : Bool :=
  fits 32 b.offset && decide (1 ≤ b.data.length) && decide (b.data.length ≤ 65516)

def UpdateActivateBody.wf (b : UpdateActivateBody) : Bool := fits 2 b.op && fits 3 b.scale && fits 48 b.sec && fits 30 b.ns

def ProvisionBody.wf (b : ProvisionBody) : Bool := fits 2 b.slot && b.digest.length == 48

def DebugResponse.wf (b : DebugResponse) : Bool := fits 2 b.level && fits 2 b.slot && allFit 384 [b.x, b.y, b.r, b.s]

def ConfigBody.wf (b : ConfigBody) : Bool :=
  fits 5 b.block && fits 14 b.inst && fits 9 b.pairs.length && b.pairs.all fun e => allFit 32 [e.1, e.2]

/-- A command's body has the widths of its opcode's fields. -/
def Cmd.wf : Cmd → Bool
  | .take b => b.wf
  | .takeOverlay b => b.wf
  | .chainLoad b => b.wf
  | .chainArm b => b.wf
  | .chainFire b => b.wf
  | .chainCancel b => b.wf
  | .chainQuery chain => fits 8 chain
  | .hold op b => fits 3 op && b.wf
  | .queryXpt first count => fits 10 first && fits 11 count
  | .queryStatus => true
  | .queryCommand seq => fits 32 seq
  | .queryRegs offset count => wordAddr offset && fits 9 count
  | .audioMap b => b.wf
  | .audioBind b => b.wf
  | .audioGroup b => b.wf
  | .audioTone b => b.wf
  | .audioMonitor b => b.wf
  | .audioQuery b => b.wf
  | .audioSap b => b.wf
  | .surfaceAlloc b => b.wf
  | .surfaceWrite b => b.wf
  | .surfacePublish id => fits 8 id
  | .surfaceFree id => fits 8 id
  | .surfaceQuery id => fits 8 id
  | .procSet b => b.wf
  | .lutLoad b => b.wf
  | .lutFree slot => fits 6 slot
  | .curveLoad b => b.wf
  | .coefLoad b => b.wf
  | .procQuery proc => fits 9 proc
  | .mvSet b => b.wf
  | .mvLayout b => b.wf
  | .mvText b => b.wf
  | .mvTally b => b.wf
  | .mvGuard b => b.wf
  | .fontSet b => b.wf
  | .fontLoad b => b.wf
  | .mvQuery head => fits 5 head
  | .timeSet b => b.wf
  | .timeRealign => true
  | .timeRef b => b.wf
  | .timeDpll b => b.wf
  | .timeOtg b => b.wf
  | .updateBegin b => b.wf
  | .updateWrite b => b.wf
  | .updateStatus first => fits 16 first
  | .updateVerify => true
  | .updateActivate b => b.wf
  | .updateAbort => true
  | .updateTrickle v => fits 32 v
  | .updateRevert => true
  | .updateProvision b => b.wf
  | .healthSwap => true
  | .healthReinit block inst => fits 5 block && fits 14 inst
  | .healthReset => true
  | .healthPowerCycle => true
  | .healthSubscribe _ => true
  | .healthChallenge level => fits 2 level
  | .healthResponse b => b.wf
  | .configSet b => b.wf

/-! ### Frames and packets -/

/-- A picture format's codes (R90). -/
def VideoFmt.wf (f : VideoFmt) : Bool :=
  fits 8 f.format && fits 4 f.sampling && fits 2 f.depth && fits 4 f.colorimetry && fits 4 f.transfer

def FrameStart.wf (f : FrameStart) : Bool := f.measured.wf && f.declared.all (·.wf) && fits 32 f.rtp

/-- An ST 291 packet: words of 10 bits, and at most 255 user data words (R82). -/
def AncPacket.wf (p : AncPacket) : Bool :=
  fits 12 p.line && allFit 10 (p.did :: p.sdid :: p.checksum :: p.data) && decide (p.data.length ≤ 255)

/-- A run of pel words of 10 or 12 bits (R74). -/
def PelRun.wf (r : PelRun) : Bool := fits 12 r.line && allFit 16 r.words

def DecisionRec.wf (r : DecisionRec) : Bool :=
  fits 8 r.format && fits 4 r.sampling && allFit 32 [r.seq, r.digest] && fits 2 r.kind && fits 3 r.lockScale

def Block66.wf (b : Block66) : Bool := fits 2 b.header && fits 64 b.payload

def FecFrame.wf (f : FecFrame) : Bool := f.blocks.all (·.wf)

/-- A segment: version and kind of 4 bits, flow of 6 bits, sequence of 16 bits (R258). -/
def Segment.wf (g : Segment) : Bool := fits 4 g.version && fits 4 g.kind && fits 6 g.flow && fits 16 g.seq

def SdiLine.wf (d : SdiLine) : Bool := decide (1 ≤ d.line) && fits 12 d.line && d.active.all fun e => allFit 16 e.2

/-- An SDI packet's stream is 1, or 2 for level B-DL; groups count from 1 to 4, or to 8 with 16 channels more (R305). -/
def SdiBody.wf : SdiBody → Bool
  | .audio group samples nonPcm _ => decide (1 ≤ group) && decide (group ≤ 8) && decide (samples.length ≤ 4) && fits 2 nonPcm
  | .control group _ => decide (1 ≤ group) && decide (group ≤ 8)
  | .vpid bytes link _ => fits 32 bytes && decide (link ≤ 4)
  | .edh flags => fits 24 flags
  | .other p => p.wf

def SdiPacket.wf (p : SdiPacket) : Bool := p.body.wf && (p.stream == 1 || p.stream == 2)

/-- An RTP packet's fields (R325). -/
def RtpPacket.wf (p : RtpPacket) : Bool :=
  fits 2 p.version && fits 7 p.pt && fits 32 p.ssrc && fits 16 p.seq && fits 16 p.ext && fits 32 p.stamp &&
  (match p.body with
    | .video rows => rows.all (·.wf)
    | .audio _ _ => true
    | .anc entries => entries.all (·.wf)
    | .opaque _ => true)

def EthBody.wf : EthBody → Bool
  | .rtp p => p.wf
  | .ptp _ => true
  | .other => true

def EthFrame.wf (f : EthFrame) : Bool :=
  fits 48 f.dest && allFit 12 f.tags && (f.ip.all fun i => fits 128 i.src && fits 128 i.dst && fits 16 i.udp) && f.body.wf

/-! ### Audio, lanes, memory and the matrix -/

/-- A frame of a serial port: words of 32 bits in at most 32 slots (R230). -/
def SapFrameIn.wf (f : SapFrameIn) : Bool := decide (f.words.length ≤ 32) && allFit 32 f.words

def AudErr.wf : AudErr → Bool
  | .samples i => fits 15 i
  | .entry o => fits 15 o
  | .binding i => fits 15 i
  | .global => true

/-- An AUDIO message's entry: a slip is a drop, a repeat or none (R400). -/
def AudMirror.wf (m : AudMirror) : Bool :=
  fits 15 m.input && fits 3 m.state && (m.slip == -1 || m.slip == 0 || m.slip == 1)

def AudioMsg.wf (m : AudioMsg) : Bool := fits 64 m.block && m.entries.all (·.wf)

/-- A coefficient request names one of the taps c(−3) to c(1) (R292). -/
def LtRequest.wf : LtRequest → Bool
  | .inc tap => decide (tap ≤ 4)
  | .dec tap => decide (tap ≤ 4)
  | .preset => true

/-- A convergence names at most as many taps as a lane has (R290). -/
def EqTarget.wf (t : EqTarget) : Bool := fits 5 t.ctle && fits 6 t.vga && decide (t.dfe.length ≤ 16) && decide (t.dffe.length ≤ 16)

/-- What the monitor measures (R293): fields of 16 bits. -/
def LaneMon.wf (m : LaneMon) : Bool :=
  allFit 16 [m.eyeH.1, m.eyeH.2.1, m.eyeH.2.2, m.eyeW.1, m.eyeW.2.1, m.eyeW.2.2, m.snr]

/-- An error at a 64-byte burst of the data space (R354). -/
def HbmErr.wf (e : HbmErr) : Bool := fits 32 e.burst && fits 8 e.syndrome

def HbmReq.wf (r : HbmReq) : Bool := decide (r.pc < 128) && r.errs.all (·.wf)

def HbmTraining.wf (t : HbmTraining) : Bool :=
  fits 4 t.found && decide (t.temps.length ≤ 4) && allFit 8 t.temps && decide (t.chans.length ≤ 64)

/-- A word of 8 bytes of the 256 firkins (R374). -/
def SramErr.wf (e : SramErr) : Bool := fits 32 e.word

/-- A transaction of R381: 1 to 16 beats, aligned to 64 bytes, within 1 KiB; reads have tags 0 to 63, writes 64 to 95, with
64 bytes a beat and byte enables for all of them or none given. -/
def MtxReq.wf (t : MtxReq) : Bool :=
  fits 14 t.stream && decide (1 ≤ t.beats) && decide (t.beats ≤ 16) && t.addr % 64 == 0 &&
  decide (t.addr % 1024 + 64 * t.beats ≤ 1024) &&
  (if t.write then decide (64 ≤ t.tag) && decide (t.tag < 96) && t.data.length == 64 * t.beats &&
      (t.enables.isEmpty || t.enables.length == 64 * t.beats)
    else decide (t.tag < 64))

/-! ### The twin -/

/-- A peck's fields (R275). -/
def Peck.wf (p : Peck) : Bool := fits 2 p.role && fits 8 p.seq_ && fits 3 p.stage && fits 16 p.gen

def CommitMsg.wf (m : CommitMsg) : Bool := fits 32 m.counter && fits 16 m.controller && fits 32 m.seq && m.cmd.wf

/-- A SIGNATURE message (R400): at most 1,024 entries. -/
def SigMsg.wf (m : SigMsg) : Bool :=
  fits 5 m.otg && fits 32 m.frame && decide (m.entries.length ≤ 1024) &&
  m.entries.all fun e => fits 10 e.dest && allFit 32 [e.digest, e.shown]

def AdmitMsg.wf (m : AdmitMsg) : Bool := fits 1 m.unit && allFit 16 [m.compat, m.gen] && fits 64 m.die

def SnapItem.wf : SnapItem → Bool
  | .reg offset value => wordAddr offset && fits 32 value
  | .chain n state controller entries trig =>
      fits 8 n && fits 3 state && fits 16 controller && entries.all (·.wf) && trig.all (·.wf)
  | .cmd c => c.wf

def SnapMsg.wf (m : SnapMsg) : Bool := fits 64 m.frame && fits 32 m.counter && m.items.all (·.wf)

/-! ### The host, start-up and power -/

/-- A descriptor of R428. -/
def Desc.wf (d : Desc) : Bool := allFit 64 [d.msgAddr, d.respAddr] && allFit 32 [d.msgLen, d.respLen, d.reserved, d.hdrLen]

/-- A datagram of R433. -/
def MgmtGram.wf (d : MgmtGram) : Bool :=
  decide (d.addr.length ≤ 4) && allFit 32 d.addr && fits 16 d.port && fits 32 d.session && fits 64 d.counter

/-- What the fuses can hold: four key slots with digests of 48 bytes (R465, R466). -/
def Fuses.wf (f : Fuses) : Bool :=
  fits 8 f.stepping && fits 64 f.die && fits 7 f.vf && decide (f.keys.length ≤ 4) &&
  (f.keys.all fun k => k.all fun l => l.length == 48) && f.revoked.all fun k => decide (k < 4)

/-- A regulator's poll: one of the nine entries of R519, readings of 16 bits, and at most three transactions (R496). -/
def RailPoll.wf (r : RailPoll) : Bool := decide (r.dev < 9) && decide (r.failed ≤ 3) && allFit 16 [r.volts, r.power, r.status]

/-! ### Commands and events -/

/-- An instruction's operands are values its row can carry. -/
def Instr.wf : Instr → Bool
  | .functionFault _ code _ => fits 8 code
  | .hbmBwSample rd wr chans => fits 32 rd && fits 32 wr && decide (chans.length ≤ 64) && allFit 32 chans
  | .registerWrite addr _ be => wordAddr addr && fits 4 be
  | .counterLowRead addr => wordAddr addr
  | .hostUnmappedAccess _ addr _ be => wordAddr addr && fits 4 be
  | .refTick meas _ => decide (meas.map (·.cand)).Nodup
  | .timeSet h b => h.wf && b.wf
  | .timeRealign h => h.wf
  | .timeRef h b => h.wf && b.wf
  | .timeDpll h b => h.wf && b.wf
  | .timeOtg h b => h.wf && b.wf
  | .ingressFrameStart _ f => f.wf
  | .decisionMirrorRx _ r => r.wf
  | .decisionLocalDeadline _ seq_ => fits 32 seq_
  | .take h b => h.wf && b.wf
  | .takeOverlay h b => h.wf && b.wf
  | .scanoutTileRowFetch _ _ row => fits 12 row
  | .scanoutLineEmit _ line => fits 12 line
  | .protect h b => h.wf && b.wf
  | .lock h b => h.wf && b.wf
  | .release h b => h.wf && b.wf
  | .forceRelease h b => h.wf && b.wf
  | .chainLoad h b => h.wf && b.wf
  | .chainArm h b => h.wf && b.wf
  | .chainFire h b => h.wf && b.wf
  | .chainCancel h b => h.wf && b.wf
  | .chainQuery h chain => h.wf && fits 8 chain
  | .surfaceAlloc h b => h.wf && b.wf
  | .surfaceWrite h b => h.wf && b.wf
  | .surfacePublish h id => h.wf && fits 8 id
  | .surfaceFree h id => h.wf && fits 8 id
  | .surfaceQuery h id => h.wf && fits 8 id
  | .procSet h b => h.wf && b.wf
  | .procLut3dLoad h b => h.wf && b.wf
  | .procLut3dFree h slot => h.wf && fits 6 slot
  | .procCurveLoad h b => h.wf && b.wf
  | .procCoefLoad h b => h.wf && b.wf
  | .procQuery h proc => h.wf && fits 9 proc
  | .mvSet h b => h.wf && b.wf
  | .mvLayout h b => h.wf && b.wf
  | .mvText h b => h.wf && b.wf
  | .mvTally h b => h.wf && b.wf
  | .mvGuard h b => h.wf && b.wf
  | .mvFontSet h b => h.wf && b.wf
  | .mvFontLoad h b => h.wf && b.wf
  | .mvQuery h head => h.wf && fits 5 head
  | .mvHeadRowComposed _ row late => fits 12 row && allFit 6 late
  | .audioMap h b => h.wf && b.wf
  | .audioBind h b => h.wf && b.wf
  | .audioGroup h b => h.wf && b.wf
  | .audioTone h b => h.wf && b.wf
  | .audioMonitor h b => h.wf && b.wf
  | .audioQuery h b => h.wf && b.wf
  | .audioBlockBoundary late errs => allFit 15 late && errs.all (·.wf)
  | .twinAudioMsg m => m.wf
  | .audioSap h b => h.wf && b.wf
  | .sapFrame _ f => f.wf
  | .hlkFecFrameRx _ f => f.wf
  | .hlkStateRx _ b => b.wf
  | .hlkVideoSegmentRx _ g => g.wf
  | .hlkAudioBundleRx _ g => g.wf
  | .hlkAncSegmentRx _ g => g.wf
  | .hlkOpaqueSegmentRx _ g => g.wf
  | .hlkTimeSegmentRx _ g => g.wf
  | .hlkTwinFragmentRx _ g => g.wf
  | .laneAdaptComplete _ t => t.wf
  | .laneEqStep _ t => t.wf
  | .ltCoefRequest _ q => q.wf
  | .laneMonitorUpdate _ m => m.wf
  | .sdiCdrLock _ rate => fits 8 rate
  | .sdiLineRx _ d => d.wf
  | .sdiAncPacketRx _ p => p.wf
  | .sdiTxLine _ line => fits 11 line
  | .macFrameRx _ f => f.wf
  | .flowSeqRelease _ seq_ => fits 32 seq_
  | .hbmRequestServe r => r.wf
  | .hbmScrubStep _ e _ => e.all (·.wf)
  | .sramScrubStep _ e => e.all (·.wf)
  | .hbmTrainingComplete t => t.wf
  | .hbmApertureAccess _ off _ be => off % 4 == 0 && fits 4 be
  | .mtxTransactionIssue _ t => t.wf
  | .mtxGrant _ e => e.all (·.wf)
  | .mtxResponse _ tag => decide (tag < 96)
  | .mtxWatchdogExpiry _ tag => decide (tag < 96)
  | .mtxStreamIdle _ stream => fits 14 stream
  | .twinPeckRx _ p => p.wf
  | .twinCommitMsg m => m.wf
  | .twinSignatureMsg m => m.wf
  | .twinShedMsg stage frame => fits 3 stage && fits 64 frame
  | .twinSwapMsg op reason frame => fits 2 op && fits 8 reason && fits 64 frame
  | .twinAdmitMsg m => m.wf
  | .twinSnapshotMsg m => m.wf
  | .healthSwap h => h.wf
  | .sqTailDoorbell _ v => fits 32 v
  | .cqHeadDoorbell _ v => fits 32 v
  | .cmdDescFetch _ d => d.wf
  | .cmdMessageReceived k words => k.wf && decide (words.length ≤ 16384) && allFit 32 words
  | .openSession d => d.wf
  | .dataDatagram d => d.wf
  | .closeSession d => d.wf
  | .queryXpt h first count => h.wf && fits 10 first && fits 11 count
  | .queryStatus h => h.wf
  | .queryCommand h seq => h.wf && fits 32 seq
  | .queryRegs h offset count => h.wf && wordAddr offset && fits 9 count
  | .configSet h b => h.wf && b.wf
  | .porstRelease f => f.wf
  | .bootRomSelect _ flash => flash.all fun e => fits 27 e.1 && fits 8 e.2
  | .mramRestore bad => bad.all fun e => fits 3 e.1
  | .updateBegin h b => h.wf && b.wf
  | .updateWrite h b _ => h.wf && b.wf
  | .updateStatus h first => h.wf && fits 16 first
  | .updateVerify h => h.wf
  | .updateActivate h b => h.wf && b.wf
  | .updateAbort h => h.wf
  | .updateTrickle h _ => h.wf
  | .updateRevert h => h.wf
  | .updateProvision h b => h.wf && b.wf
  | .tricklePiece _ p _ => p.wf
  | .avsEval vReq => vReq % 2500 == 0
  | .thermalSample _ temps => decide (temps.length ≤ 4) && allFit 8 temps
  | .pmbusPoll r => r.all (·.wf)
  | .pmbusAlert r => r.all (·.wf)
  | .healthReinit h block inst => h.wf && fits 5 block && fits 14 inst
  | .healthReset h => h.wf
  | .healthPowerCycle h => h.wf
  | .healthSubscribe h _ => h.wf
  | .healthDebugChallenge h level => h.wf && fits 2 level
  | .healthDebugResponse h b => h.wf && b.wf
  | .dbgChallenge level => fits 2 level
  | .dbgResponse b => b.wf
  | .functionEnable .. | .functionDisable .. | .initComplete .. | .drainComplete .. | .warmReset .. | .powerCycle
  | .pwrCycleTimeout | .timeSnap .. | .htSecondsStore | .ptpAnnounceTimeout .. | .ptpServoLock ..
  | .ptpOffsetUnlock .. | .servoRange .. | .tbAdjStep .. | .tbAdjSlew .. | .tbSlewComplete .. | .tbSet ..
  | .refEnableWrite .. | .refLockoutWrite .. | .refPulseEdge .. | .refQualComplete .. | .refWtrComplete ..
  | .refDriftSample .. | .dpllModeAuto | .dpllModeForced .. | .holdoverForce | .freeRunForce | .dpllAcqLocked ..
  | .dpllCaptureComplete .. | .dpllPullComplete | .dpllCwLimit | .synthLockLoss .. | .dpllRealign | .htRealignStep
  | .otgFrameBoundary .. | .pulseOutputEdge .. | .evtArm .. | .evtDisarm .. | .evtFire .. | .ingressFrameComplete ..
  | .frameAbandon .. | .noInputTimeout .. | .srcCntClear .. | .takeCommit .. | .destFrameBoundary ..
  | .destSwitchPoint .. | .destSwitchLine .. | .destFrameEmitted .. | .chainTrigger .. | .surfaceReclaim ..
  | .dstCntClear .. | .procOutputBoundary .. | .procFrameComplete .. | .prcCntClear .. | .mvHeadBoundary ..
  | .mvhCntClear .. | .audioInputReturn .. | .asrcReturn .. | .loudnessUpdate | .silenceDetect .. | .audCntClear
  | .sapQualified .. | .sapClockLoss .. | .sapCntClear .. | .hlkSignalDetect .. | .hlkSignalLoss .. | .hlkBlockLock ..
  | .hlkBlockLockLost .. | .hlkFecLock .. | .hlkFecLockLost .. | .hlkUpTimeout .. | .wakeFail .. | .noState ..
  | .hlkStateTx .. | .hlkTimeTx .. | .hlkFragmentTimeout .. | .hlkIdleEnter .. | .hlkWakeBurst .. | .hlkCntClear ..
  | .lowMargin .. | .laneScanGo .. | .scanDone .. | .laneWake .. | .laneResleep .. | .lanePllUnlock ..
  | .refclkLost .. | .refclkRestored .. | .laneCntClear .. | .sdiSignalDetect .. | .sdiSearchDwell ..
  | .sdiAlignComplete .. | .sdiCdrUnlock .. | .sdiLos .. | .sdiCntClear .. | .flowLegLost .. | .macLinkChange ..
  | .txLaunchSlot .. | .txLateDrop .. | .gateWaitDrop .. | .macTxComplete .. | .gateEntryChange .. | .macGateApply ..
  | .gateListInstall .. | .macTsqPop .. | .macCntClear .. | .macTsqCntClear | .flowCntClear .. | .spareCopyDone ..
  | .hbmRefresh .. | .qosUrgencyEval .. | .hbmRecal .. | .hbmEyeRetrain .. | .hbmElogPop | .hbmCntClear | .mtxLogPop
  | .mtxCntClear | .twinPeckTx | .twinMissEval .. | .roleActivePeckTimeout | .twinSeekTimeout .. | .twinSignatureTx ..
  | .twinResyncComplete | .twinAdmitRecheck | .admitAgreement | .twinSwapBoundary | .twinSwapTimeout | .twinCntClear
  | .pcieHostReset .. | .sessionTimeout .. | .glbIrqEoi .. | .irqCoalTimeout .. | .glbAflPop | .glbCntClear
  | .cmdCntClear | .fwHeartbeat | .railInRegulation .. | .railFail .. | .railOutOfTolerance .. | .firmwareLoaded
  | .configApply | .linksUp | .referenceWaitEnd .. | .routingStart | .trialConfirm | .trialHandoverTimeout
  | .mramWindowWrite | .updateEraseDone .. | .updateActivationStart | .updateHandoverTimeout | .bootCntClear
  | .avsCeiling | .shedEval .. | .shedStepDown | .undervoltageReset | .supplyWarn | .thermWarnHeld | .thermalTrip
  | .watchdogExpiry | .telemetryRecord | .pwrCntClear | .extest .. | .idcode | .samplePreload .. | .clamp | .highz
  | .scanRead | .bypass .. | .freeze | .porstAssert | .supplyWarnRelease | .startupTimeExpiry | .ptpMessageTx ..
  | .updateVerifyDone | .laneSignalDetect .. | .laneSignalLoss .. | .laneCdrLockLoss .. | .pcieLinkUp
  | .msixVectorUnmask .. | .hbmCeRateClear => true

end Sys2Proof
end

