-- ==== Sys2Proof/Safety.lean ====
section
/-!
DEFINITION. The terms the statements are written in: what it means that a command completes, what a device keeps, what a
legal device is, when a Rygus message is accepted and what is sent for it.
-/

namespace Sys2Proof.Machine

/-- The command answers a next state with the queue as before, and `P` holds of its device. -/
def Completes (i : Instr) (s : State) (P : Dev → Prop) : Prop :=
  ∃ t, exec i s = .next t ∧ t.pending = s.pending ∧ P t.dev

/-! ### What a device keeps -/

/-- Every register but those named holds the word it held. -/
def KeepsRegs (d e : Dev) (but : Reg → Prop) : Prop := ∀ r, ¬ but r → e.reg r = d.reg r

/-- Every byte of memory is as it was. -/
def KeepsMem (d e : Dev) : Prop := ∀ a, e.mem.get a = d.mem.get a

/-- The typed state is as it was, but for what has left the device and for the MSI-X pending bits and conditions. -/
def KeepsExt (d e : Dev) : Prop :=
  e.x = { d.x with out := e.x.out, ctl := { d.x.ctl with vecPend := e.x.ctl.vecPend, vecCond := e.x.ctl.vecCond } }

/-- Registers but those named, memory and the typed state are kept. -/
def Keeps (d e : Dev) (but : Reg → Prop) : Prop := KeepsRegs d e but ∧ KeepsMem d e ∧ KeepsExt d e

/-! ### Legal devices -/

/-- Registers and memory are in canonical form; every register word exists and holds only bits it has; every common state
word holds one of the five states; and every byte of memory has an address that exists. -/
structure Dev.Legal (d : Dev) : Prop where
  regsCanonical : d.regs.wf = true
  wordsExist : ∀ e ∈ d.regs, e.1.valid = true
  wordsMasked : ∀ e ∈ d.regs, e.2 &&& implMask e.1 = e.2
  statesLegal : ∀ e ∈ d.regs, isFstate e.1.kind = true → bitsOf e.2.toNat 0 3 ≤ 4
  memCanonical : d.mem.wf = true
  bytesExist : ∀ e ∈ d.mem, memAddr e.1 = true

/-! ### Rygus messages -/

/-- The controller that a message acts for (R431). -/
def Dev.actsFor (d : Dev) (h : Hdr) (sp : CmdSpec) : Nat := sp.controller.getD (d.controller h.intake)

/-- The device once a message is counted and its command is opened (R437), before any check. -/
def Dev.opened (d : Dev) (h : Hdr) (sp : CmdSpec) : Dev :=
  (seq [countRx h.intake, openCmd h (d.actsFor h sp) sp.opcode]).run d

/-- A new message arrives at an open intake of a running device, and passes the checks of R442 that every command has. -/
abbrev Dev.Admits (d : Dev) (h : Hdr) (sp : CmdSpec) : Prop :=
  d.live = true ∧ d.intakeOpen h.intake = true ∧ d.duplicate h = none ∧
  (d.opened h sp).intakeCheck h.intake sp = none

/-- The message's final completion has been sent to where it came from: its state, reason and body. -/
def Answered (e : Dev) (h : Hdr) (sp : CmdSpec) (st : CmdState) (reason : Nat) (body : List Nat) : Prop :=
  ∃ c : Completion, c.opcode = sp.opcode ∧ c.seq = h.seq ∧ c.status = statusWord st reason ∧ c.body = body ∧
    c.flags % 4 = 3 ∧
    match h.intake with
    | .ring r _ => ∃ tail written phase trunc sq, Output.cq r tail c written phase trunc sq ∈ e.x.out
    | .session k => ∃ counter, Output.datagram (e.rd (R.CMD_SESS_ID k)) counter c ∈ e.x.out

/-- The registers that receiving a command, committing it and completing it change. -/
def commandWord (r : Reg) : Prop :=
  r.kind ∈ [RK.CMD_CNT_RX, .CMD_CNT_REJECTED, .CMD_CNT_DROP_CPL, .CMD_RING_CNT_CMD, .CMD_RING_CNT_CPL, .CMD_RING_CQ_TAIL,
    .CMD_SESS_CNT_CMD, .CMD_STATUS, .CMD_COMMIT_LAT_MAX, .TWIN_COMMIT_CNT]

end Sys2Proof.Machine
end

