-- ==== Sys2Proof/Certificates/Slice0/Obligations.lean ====
section
/-!
DEFINITION. The statements for the provers. Each is about every state; where a statement names a condition on the state, it is the one
under which the spec gives the command its effect.
-/

open Sys2Proof Sys2Proof.Machine

/-- A step takes the command at the front of the queue, and gives it the state with the queue's rest. -/
def Obligations.QueueRunsFrontCommand : Prop :=
  ∀ (c : Instr) (s : State) (rest : List Instr), s.pending = c :: rest → step s = exec c { s with pending := rest }

/-- The model's choice (assumption 2): on an empty queue one cycle of the house clock passes. -/
def Obligations.IdleStepPassesOneCycle : Prop :=
  ∀ s : State, s.pending = [] →
    ∃ t, step s = .next t ∧ t.pending = [] ∧ t.dev.regs = s.dev.regs ∧ t.dev.mem = s.dev.mem ∧
      t.dev.x = { s.dev.x with time := t.dev.x.time } ∧
      (s.dev.live = false → t = s) ∧
      (s.dev.live = true → t.dev.x.time.clk = s.dev.x.time.clk + 2016 ∧ t.dev.x.time.ht = s.dev.x.time.ht + 2016 ∧
        ∀ n < 4, s.dev.tbOwn n = false → t.dev.tbm n = s.dev.tbm n)

/-- No command faults or is refused; a device that power-on reset holds takes only the commands of its pins (assumption 4). -/
def Obligations.NoCommandStopsTheBlock : Prop :=
  ∀ (i : Instr) (s : State), ∃ t, exec i s = .next t ∧ t.pending = s.pending ∧
    (s.dev.x.pwr.awake = false → (∀ f, i ≠ .porstRelease f) → i ≠ .porstAssert → i ≠ .supplyWarn →
      i ≠ .supplyWarnRelease → t = s)

/-- Every step keeps the device legal: what no word of the register map and no address can hold, no step puts there. -/
def Obligations.RegistersStayLegal : Prop :=
  ∀ s t : State, s.dev.Legal → step s = .next t → t.dev.Legal

/-- The legal-device invariant at reset; every function but the bus matrix and the power function is OFF. -/
def Obligations.ResetDeviceIsLegal : Prop :=
  State.reset.dev.Legal ∧ State.reset.pending = [] ∧
    ∀ f : Fn, State.reset.dev.fw f = { state := if f = .mtx ∨ f = .pwr then .on else .off }

/-- Reads after writes of registers and of memory; a byte nothing has written reads 0 (assumption 6). -/
def Obligations.UnwrittenStoresReadAsGiven : Prop :=
  (∀ (d : Dev) (r q : Reg) (v : Nat), r.valid = true → isFstate r.kind = false →
    ((wr r v).run d).reg q = if q = r then BitVec.ofNat 32 v &&& implMask r else d.reg q) ∧
  (∀ (m : Memory) (a b : Nat) (v : Byte), (Memory.set m a v).get b = if b = a then v else m.get b) ∧
  (∀ a : Nat, Memory.get State.reset.dev.mem a = 0)

/-- FUNCTION_ENABLE and FUNCTION_DISABLE (R30); an enable that firmware owns refuses the host (R449). -/
def Obligations.EnablesMoveFunctions : Prop :=
  ∀ (f : Fn) (e : Field) (s : State), s.dev.live = true → fnEnableField f = some e →
    (s.dev.flag e = false → s.dev.fst f = .off →
      Completes (.functionEnable f .firmware) s fun t => t.flag e = true ∧ t.fst f = .waking) ∧
    (s.dev.flag e = false → s.dev.fst f = .stopping →
      Completes (.functionEnable f .firmware) s fun t =>
        t.flag e = true ∧ t.fst f = .stopping ∧ (t.fw f).pendOn = true) ∧
    (s.dev.flag e = true → s.dev.fst f = .on ∨ s.dev.fst f = .fault →
      Completes (.functionDisable f .firmware) s fun t => t.flag e = false ∧ t.fst f = .stopping) ∧
    (s.dev.flag e = true → s.dev.fst f = .waking → (s.dev.fnm f).waits = false →
      Completes (.functionDisable f .firmware) s fun t =>
        t.flag e = false ∧ t.fst f = .waking ∧ (t.fw f).pendOff = true ∧ (t.fw f).pendOn = false) ∧
    (s.dev.x.ctl.endpoint = true → bitOf (regInfo e.reg.kind).fw e.lo = true → s.dev.x.ctl.afl.length < 32 →
      (s.dev.flag e = false → Completes (.functionEnable f .host) s fun t =>
        t.fw f = s.dev.fw f ∧ t.flag e = false ∧ t.x.ctl.afl.length = s.dev.x.ctl.afl.length + 1) ∧
      (s.dev.flag e = true → Completes (.functionDisable f .host) s fun t =>
        t.fw f = s.dev.fw f ∧ t.flag e = true ∧ t.x.ctl.afl.length = s.dev.x.ctl.afl.length + 1))

/-- INIT_COMPLETE (R30), for the functions that wait for no other and whose configuration can give no fault or, for a time base, gives none. -/
def Obligations.InitialisationEndsWaking : Prop :=
  ∀ (f : Fn) (s : State), s.dev.live = true → s.dev.fst f = .waking → s.dev.fld F.BOOT_STATUS_phase ≠ 8 →
    ((∃ n, f = .tb n ∧ s.dev.fld (F.TB_CTRL_mode n) = 0) ∨ f = .dpll ∨ (∃ n, f = .hbmCh n) ∨ f = .mtx ∨ (∃ n, f = .ring n) ∨
      f = .pwr ∨ f = .boot) →
    Completes (.initComplete f) s fun t => KeepsMem s.dev t ∧
      if (s.dev.fw f).pendOff then t.fst f = .stopping ∧ (t.fw f).pendOff = false
      else t.fst f = .on ∧ (t.fw f).pendOn = false ∧ (t.fw f).pendOff = false

/-- DRAIN_COMPLETE (R30). -/
def Obligations.DrainEndsStopping : Prop :=
  ∀ (f : Fn) (s : State), s.dev.live = true → s.dev.fst f = .stopping →
    ((fnStreamsDrain f).run s.dev).streamsIdle f = true →
    Completes (.drainComplete f) s fun t => (t.fnm f).sleepReq = false ∧
      if (s.dev.fw f).pendOn then t.fst f = .waking ∧ (t.fw f).pendOn = false
      else t.fst f = .off ∧ (t.fw f).asleep = (s.dev.fnm f).sleepReq

/-- FUNCTION_FAULT (R30, R33, R541). -/
def Obligations.FaultsEnterOnlyFromWakingAndOn : Prop :=
  ∀ (f : Fn) (code : Nat) (s : State), s.dev.live = true → s.dev.x.escal = [] →
    (Completes (.functionFault f code false) s fun t =>
      if s.dev.fst f = .waking ∨ s.dev.fst f = .on then
        t.fst f = .fault ∧ (t.fw f).code = code % 256 ∧ bitOf (t.rd R.GLB_FAULT_STATUS) (fnBlock f) = true ∧
        s.dev.x.boot.histSeq < t.x.boot.histSeq
      else t.fw f = s.dev.fw f ∧ (t.x.boot.hist.head?.map fun h => (h.kind, h.block, h.inst, h.code)) =
        some (1, fnBlock f, fnInst f, code % 256)) ∧
    (s.dev.fst f = .waking ∨ s.dev.fst f = .on → (s.dev.fnm f).reinits = [] →
      Completes (.functionFault f code true) s fun t => t.fst f = .stopping ∧ (t.fw f).pendOn = s.dev.enabled f)

/-- LANE_WAKE and LANE_RESLEEP (R32, R295). -/
def Obligations.LanesSleepAndWake : Prop :=
  ∀ (l : LaneId) (s : State), s.dev.live = true →
    (s.dev.fst (.lane l) = .off → (s.dev.fw (.lane l)).asleep = true → s.dev.flag (F.LANE_CTRL_enable l) = true →
      (Completes (.laneWake l .farSignal) s fun t =>
        t.fst (.lane l) = .waking ∧ (t.fw (.lane l)).asleep = false ∧ t.flag (F.LANE_STATUS_signal l) = true) ∧
      (s.dev.fld F.PWR_STATUS_stage < 3 → Completes (.laneWake l .stageLeft) s fun t =>
        t.fst (.lane l) = .waking ∧ (t.fw (.lane l)).asleep = false)) ∧
    (s.dev.fst (.lane l) = .on → (s.dev.lanem l).woke = true → 3 ≤ s.dev.fld F.PWR_STATUS_stage →
      s.dev.flag (F.LANE_CTRL_sleep_ok l) = true → s.dev.laneIdle l = true →
      Completes (.laneResleep l) s fun t =>
        t.fst (.lane l) = .stopping ∧ (t.fnm (.lane l)).sleepReq = true ∧
        t.flag (F.LANE_CTRL_enable l) = s.dev.flag (F.LANE_CTRL_enable l))

/-- TIME_SNAP (R38) and HT_SECONDS_STORE (R39). -/
def Obligations.SnapshotCapturesAllScalesAtOnce : Prop :=
  ∀ s : State, s.dev.live = true →
    (Completes (.timeSnap .host) s fun t =>
      (∀ n < 5, t.rd (R.TIME_SNAP_FRAC n) = s.dev.scale n % 3024 / 189 ∧
        t.rd (R.TIME_SNAP_NS n) = s.dev.scale n % secU / 3024 ∧
        t.rd64 (R.TIME_SNAP_SEC_LO n) (R.TIME_SNAP_SEC_HI n) = s.dev.scale n / secU % 2 ^ 48) ∧
      t.flag F.TIME_STATUS_snap_valid = true ∧
      Keeps s.dev t fun r => r = R.TIME_STATUS ∨ r.kind ∈ [RK.TIME_SNAP_FRAC, .TIME_SNAP_NS, .TIME_SNAP_SEC_LO, .TIME_SNAP_SEC_HI]) ∧
    (Completes (.timeSnap .firmware) s fun t =>
      t.x.time.ccSnap = [0, 1, 2, 3, 4].flatMap (fun n => snapWords (s.dev.scale n)) ∧ t.regs = s.dev.regs ∧ t.mem = s.dev.mem) ∧
    (Completes .htSecondsStore s fun t =>
      t.x.boot.htStored = some (s.dev.x.time.ht / secU) ∧ t.regs = s.dev.regs ∧ t.mem = s.dev.mem)

/-- TB_ADJ_STEP, TB_ADJ_SLEW, TB_SLEW_COMPLETE and TB_SET (R40, R44). -/
def Obligations.TimeBasesStepSlewAndSet : Prop :=
  ∀ (n : TbId) (s : State), s.dev.live = true →
    let others := fun (t : Dev) => t.x.time.ht = s.dev.x.time.ht ∧ KeepsMem s.dev t ∧ ∀ k : TbId, k ≠ n → t.tbm k = s.dev.tbm k
    (s.dev.tbOwn n = true →
      (Completes (.tbAdjStep n) s fun t => others t ∧
        (t.tbm n).t = ((s.dev.tbm n).t + s.dev.sfld (F.TB_ADJ_VALUE n) * 189 : Int).toNat ∧ (t.tbm n).slewLeft = 0 ∧
        t.flag (F.TB_ADJ_STATUS_slew_active n) = false) ∧
      (Completes (.tbAdjSlew n) s fun t => others t ∧
        (t.tbm n).t = (s.dev.tbm n).t ∧ (t.tbm n).slewLeft = s.dev.sfld (F.TB_ADJ_VALUE n) * 189 ∧
        t.flag (F.TB_ADJ_STATUS_slew_active n) = decide (s.dev.sfld (F.TB_ADJ_VALUE n) ≠ 0) ∧
        KeepsRegs s.dev t fun r => r = R.TB_ADJ_STATUS n) ∧
      (Completes (.tbSet n) s fun t => others t ∧
        (t.tbm n).t = timeOf (s.dev.fld (F.TB_SET_SEC_LO n) + s.dev.fld (F.TB_SET_SEC_HI n) * 2 ^ 32) (s.dev.fld (F.TB_SET_NS n)))) ∧
    (s.dev.flag (F.TB_ADJ_STATUS_slew_active n) = true →
      Completes (.tbSlewComplete n) s fun t => others t ∧
        (t.tbm n).t = ((s.dev.tbm n).t + (s.dev.tbm n).slewLeft : Int).toNat ∧ (t.tbm n).slewLeft = 0 ∧
        t.flag (F.TB_ADJ_STATUS_slew_active n) = false ∧ KeepsRegs s.dev t fun r => r = R.TB_ADJ_STATUS n) ∧
    (s.dev.tbOwn n = false → ∀ c ∈ [Instr.tbAdjStep n, .tbAdjSlew n, .tbSet n],
      Completes c s fun t => t.regs = s.dev.regs ∧ t.mem = s.dev.mem ∧ t.x.time = s.dev.x.time)

/-- PTP_SERVO_LOCK, PTP_ANNOUNCE_TIMEOUT, PTP_OFFSET_UNLOCK and SERVO_RANGE (R41, R69). -/
def Obligations.PtpServoLockFollowsItsEvents : Prop :=
  ∀ (n : TbId) (s : State), s.dev.live = true → s.dev.fst (.tb n) = .on → s.dev.tbOwn n = true →
    let locks := fun (c : Instr) (b : Bool) => Completes c s fun t =>
      t.flag (F.TB_LOCK_servo_locked n) = b ∧
      (s.dev.flag (F.TB_LOCK_servo_locked n) ≠ b → t.flag F.TIME_IRQ_STATUS_tb_lock = true) ∧
      KeepsRegs s.dev t (fun r => r = R.TB_LOCK n ∨ r = R.TIME_IRQ_STATUS) ∧ KeepsMem s.dev t
    locks (.ptpServoLock n) true ∧ locks (.ptpAnnounceTimeout n) false ∧ locks (.ptpOffsetUnlock n) false ∧
    Completes (.servoRange n) s fun t =>
      t.flag (F.TB_LOCK_servo_locked n) = false ∧ t.fst (.tb n) = .fault ∧ (t.fw (.tb n)).code = 2 ∧ KeepsMem s.dev t

/-- REF_ENABLE_WRITE, REF_LOCKOUT_WRITE, REF_QUAL_COMPLETE, REF_WTR_COMPLETE, REF_PULSE_EDGE and REF_DRIFT_SAMPLE (R46 to R49). -/
def Obligations.ReferencesMoveThroughQualification : Prop :=
  ∀ (n : RefId) (s : State), s.dev.live = true →
    let q := s.dev.qstate n
    (∀ on : Bool, Completes (.refEnableWrite n on) s fun t =>
      t.flag (F.REF_CTRL_enable n) = on ∧ t.qstate n =
        (if on = false then 0 else if s.dev.flag (F.REF_CTRL_lockout n) then 1 else if q ≤ 1 then 2 else q)) ∧
    (∀ on : Bool, Completes (.refLockoutWrite n on) s fun t =>
      t.flag (F.REF_CTRL_lockout n) = on ∧ t.qstate n =
        (if s.dev.flag (F.REF_CTRL_enable n) = false then 0 else if on then 1 else if q ≤ 1 then 2 else q)) ∧
    (q = 3 → (s.dev.refm n).causes = [] → Completes (.refQualComplete n) s fun t => KeepsMem s.dev t ∧
      t.qstate n = (if s.dev.flag (F.REF_STATE_wtr_owed n) then 4 else 5)) ∧
    (q = 4 → (s.dev.refm n).causes = [] → Completes (.refWtrComplete n) s fun t => KeepsMem s.dev t ∧
      t.qstate n = 5 ∧ t.flag (F.REF_STATE_wtr_owed n) = false ∧ t.fld (F.REF_WTR_LEFT n) = 0) ∧
    (∀ lines, n = 4 ∨ n = 5 → Completes (.refPulseEdge n (.frame false lines)) s fun t =>
      (t.refm n).causes = (s.dev.refm n).causes ++ [6] ∧ t.regs = s.dev.regs) ∧
    (∀ u f, n = 6 ∨ n = 7 → s.dev.fld (F.REF_CTRL_input_use n) ≠ 2 → Completes (.refPulseEdge n (.pps u f)) s fun t =>
      (t.refm n).lastEdge = some u ∧ t.regs = s.dev.regs) ∧
    (∀ freq, Completes (.refDriftSample n freq) s fun t =>
      (t.refm n).drift = (freq :: (s.dev.refm n).drift).take (s.dev.driftWindow n) ∧ t.rd (R.REF_FREQ n) = codeOf 32 freq)

/-- REF_TICK (R47, R52, R69). -/
def Obligations.ReferenceTickJudgesCandidates : Prop :=
  ∀ (meas : List RefMeas) (cw : Int) (s : State), s.dev.live = true →
    Completes (.refTick meas cw) s fun t =>
      t.x.time.dpll.ticks = s.dev.x.time.dpll.ticks + 1 ∧
      (∀ m ∈ meas, (t.refm m.cand).causes = [] ∧ ((s.dev.refm m.cand).causes ≠ [] → t.qstate m.cand ≤ 3)) ∧
      (t.sfld F.DPLL_CW).natAbs ≤ 109951162

/-- DPLL_MODE_AUTO, DPLL_MODE_FORCED, HOLDOVER_FORCE and FREE_RUN_FORCE (R51, R53, R57). -/
def Obligations.DpllModesAreForced : Prop :=
  ∀ s : State, s.dev.live = true →
    (Completes .dpllModeAuto s fun t => t.dpllMode = 0 ∧ t.flag F.DPLL_STATE_force_refused = false) ∧
    (∀ c : RefId, Completes (.dpllModeForced c) s fun t => t.dpllMode = 1 ∧ t.fld F.DPLL_CTRL_forced_ref = c ∧
      t.flag F.DPLL_STATE_force_refused = decide (s.dev.qstate c ≠ 4 ∧ s.dev.qstate c ≠ 5)) ∧
    (Completes .holdoverForce s fun t => t.dpllMode = 2 ∧ t.fld F.DPLL_STATE_state =
      if 60000 ≤ (s.dev.holdoverSamples s.dev.x.time.dpll.ticks).length then 4 else 0) ∧
    (Completes .freeRunForce s fun t => t.dpllMode = 3 ∧ t.fld F.DPLL_STATE_state = 0 ∧
      t.flag F.DPLL_CTRL_revertive = s.dev.flag F.DPLL_CTRL_revertive)

/-- DPLL_ACQ_LOCKED, DPLL_CAPTURE_COMPLETE, DPLL_PULL_COMPLETE, DPLL_CW_LIMIT and SYNTH_LOCK_LOSS (R39, R53, R54, R69). -/
def Obligations.DpllTransitionsComplete : Prop :=
  ∀ s : State, s.dev.live = true →
    (∀ adj, s.dev.fld F.DPLL_STATE_state = 1 → Completes (.dpllAcqLocked adj) s fun t =>
      t.fld F.DPLL_STATE_state = 2 ∧ t.flag F.TIME_STATUS_acq_done = true ∧
      t.x.time.ht = ((s.dev.x.time.ht : Int) + adj).toNat ∧ KeepsMem s.dev t) ∧
    (∀ off, s.dev.fld F.DPLL_STATE_state = 3 → s.dev.fld F.DPLL_STATE_tphase = 1 →
      Completes (.dpllCaptureComplete off) s fun t => t.fld F.DPLL_STATE_tphase = 2 ∧
        t.rd R.DPLL_BUILDOUT = (if 8 ≤ s.dev.fld F.DPLL_STATE_target_ref ∨
            ((s.dev.fld F.DPLL_STATE_target_ref = 6 ∨ s.dev.fld F.DPLL_STATE_target_ref = 7) ∧
              s.dev.fld (F.REF_CTRL_input_use (s.dev.fld F.DPLL_STATE_target_ref)) = 2) then 0 else satCode 32 off) ∧
        Keeps s.dev t fun r => r = R.DPLL_BUILDOUT ∨ r = R.DPLL_STATE) ∧
    (s.dev.fld F.DPLL_STATE_state = 3 → s.dev.fld F.DPLL_STATE_tphase = 2 → Completes .dpllPullComplete s fun t =>
      t.fld F.DPLL_STATE_state = 2 ∧ t.fld F.DPLL_STATE_selected_ref = s.dev.fld F.DPLL_STATE_target_ref ∧
      t.flag F.TIME_STATUS_acq_done = true) ∧
    (s.dev.fld F.DPLL_STATE_state = 2 → s.dev.fst .dpll = .on → Completes .dpllCwLimit s fun t =>
      t.fst .dpll = .fault ∧ (t.fw .dpll).code = 1) ∧
    (Completes (.synthLockLoss true) s fun t => t.fst .dpll = s.dev.fst .dpll ∧ t.x.time.dpll.synthLock = true) ∧
    (s.dev.fst .dpll = .on → Completes (.synthLockLoss false) s fun t =>
      t.fst .dpll = .fault ∧ (t.fw .dpll).code = 2 ∧ t.x.time.dpll.synthLock = false)

/-- OTG_FRAME_BOUNDARY, DPLL_REALIGN and HT_REALIGN_STEP (R61 to R64). -/
def Obligations.FramesFollowTheTimingRule : Prop :=
  ∀ s : State, s.dev.live = true →
    (∀ n : OtgId, s.dev.fst (.otg n) = .on → (s.dev.otgm n).started = true → (s.dev.otgm n).realign = false →
      s.dev.otgOffset n = (s.dev.otgm n).offset → s.dev.flag (F.OTG_STATUS_realigned_last n) = false →
      s.dev.x.twin.snap = none → Completes (.otgFrameBoundary n) s fun t => KeepsMem s.dev t ∧
        (t.otgm n).start = (s.dev.otgm n).start + (s.dev.otgm n).length ∧ (t.otgm n).started = true ∧
        (t.otgm n).length = fmtPeriod (s.dev.otgm n).format ∧
        t.otgFrame n = (s.dev.otgFrame n + 1) % 2 ^ 64 ∧ ∀ k : OtgId, k ≠ n → t.otgm k = s.dev.otgm k) ∧
    (s.dev.flag F.DPLL_REALIGN_STATUS_pending = false → Completes .dpllRealign s fun t =>
      t.flag F.DPLL_REALIGN_STATUS_pending = true ∧ t.flag F.DPLL_REALIGN_STATUS_ht_stepped = false ∧
      t.x.time.dpll.stepPending = true ∧ KeepsRegs s.dev t (fun r => r = R.DPLL_REALIGN_STATUS) ∧ KeepsMem s.dev t) ∧
    (s.dev.flag F.DPLL_REALIGN_STATUS_pending = true → Completes .dpllRealign s fun t => Keeps s.dev t fun _ => False) ∧
    (s.dev.x.time.dpll.stepPending = true → Completes .htRealignStep s fun t =>
      t.x.time.ht = ((s.dev.x.time.ht : Int) - s.dev.sfld F.DPLL_BUILDOUT * 3024).toNat ∧ t.rd R.DPLL_BUILDOUT = 0 ∧
      t.flag F.DPLL_REALIGN_STATUS_ht_stepped = true ∧ t.x.time.dpll.stepPending = false ∧ KeepsMem s.dev t)

/-- EVT_ARM, EVT_DISARM, EVT_FIRE and PULSE_OUTPUT_EDGE (R65 to R67). -/
def Obligations.EventTimersArmFireAndDisarm : Prop :=
  ∀ s : State, s.dev.live = true →
    (∀ (n : EvtId) (who : Writer), who = .firmware ∨ 48 ≤ n.val →
      let due := timeOf (s.dev.fld (F.EVT_SEC_LO n) + s.dev.fld (F.EVT_SEC_HI n) * 2 ^ 32) (s.dev.fld (F.EVT_NS n))
      let sc := s.dev.fld (F.EVT_CTRL_scale n)
      (Completes (.evtArm n who) s fun t => KeepsMem s.dev t ∧
        t.evtm n = { due := due, scale := sc, action := s.dev.fld (F.EVT_CTRL_action n), target := s.dev.fld (F.EVT_CTRL_target n), late := decide (due < s.dev.scale sc) } ∧
        t.flag (F.EVT_CTRL_arm n) = true ∧ t.fld (F.EVT_STATUS_state n) = 1 ∧
        KeepsRegs s.dev t fun r => r = R.EVT_CTRL n ∨ r = R.EVT_STATUS n) ∧
      (Completes (.evtDisarm n who) s fun t => KeepsMem s.dev t ∧ t.flag (F.EVT_CTRL_arm n) = false ∧
        t.fld (F.EVT_STATUS_state n) = (if s.dev.fld (F.EVT_STATUS_state n) = 1 then 0 else s.dev.fld (F.EVT_STATUS_state n)) ∧
        KeepsRegs s.dev t fun r => r = R.EVT_CTRL n ∨ r = R.EVT_STATUS n)) ∧
    (∀ n : EvtId, n.val < 48 → ∀ c ∈ [Instr.evtArm n .host, .evtDisarm n .host], Completes c s fun t =>
      t.flag F.GLB_ALARM_access_fault = true ∧ t.evtm n = s.dev.evtm n ∧ t.reg (R.EVT_CTRL n) = s.dev.reg (R.EVT_CTRL n) ∧
      t.reg (R.EVT_STATUS n) = s.dev.reg (R.EVT_STATUS n)) ∧
    (∀ n : EvtId, s.dev.fld (F.EVT_STATUS_state n) = 1 → (s.dev.evtm n).due ≤ s.dev.scale (s.dev.evtm n).scale →
      Completes (.evtFire n) s fun t => KeepsMem s.dev t ∧ t.flag (F.EVT_CTRL_arm n) = false ∧
        t.fld (F.EVT_STATUS_state n) = (if (s.dev.evtm n).late then 3 else 2) ∧ t.flag (F.EVT_STATUS_stepped n) = false ∧
        ((s.dev.evtm n).action = 1 → t.flag F.TIME_IRQ_STATUS_evt_fired = true)) ∧
    (s.dev.flag F.PPS_OUT_CTRL_enable = true → 0 ∉ s.dev.x.time.pulseRealign → Completes (.pulseOutputEdge .pps) s fun t =>
      t.regs = s.dev.regs ∧ t.mem = s.dev.mem ∧
      Output.pulse .pps (nextInstant secU (KV.get 0 s.dev.x.time.pulseSkew 0) (s.dev.scale (s.dev.fld F.PPS_OUT_CTRL_scale)))
        (s.dev.fld F.PPS_OUT_CTRL_width) (!s.dev.flag F.PPS_OUT_CTRL_polarity) ∈ t.x.out)

/-- TIME_SET, TIME_REALIGN, TIME_REF, TIME_DPLL and TIME_OTG (R441). -/
def Obligations.TimeCommandsSetHouseTiming : Prop :=
  ∀ (h : Hdr) (s : State),
    (∀ b : TimeSetBody, s.dev.Admits h (timeSetSpec b) → b.target = 0 → Completes (.timeSet h b) s fun t =>
      t.x.time.ht = timeOf b.sec b.ns ∧ Answered t h (timeSetSpec b) .done 0 [] ∧ KeepsMem s.dev t) ∧
    (s.dev.Admits h timeRealignSpec → Completes (.timeRealign h) s fun t =>
      t.flag F.DPLL_REALIGN_STATUS_pending = true ∧ Answered t h timeRealignSpec .done 0 [] ∧ KeepsMem s.dev t ∧
      KeepsRegs s.dev t fun r => commandWord r ∨ r = R.DPLL_REALIGN_STATUS) ∧
    (∀ b : TimeRefBody, s.dev.Admits h (timeRefSpec b) → Completes (.timeRef h b) s fun t =>
      (∀ e ∈ [(R.REF_WTR b.cand, 2), (R.REF_DRIFT b.cand, 4), (R.REF_ANA_FMT b.cand, 7)],
        t.reg e.1 = BitVec.ofNat 32 (b.values.getD e.2 0) &&& implMask e.1) ∧
      Answered t h (timeRefSpec b) .done 0 [] ∧ KeepsMem s.dev t) ∧
    (∀ b : TimeDpllBody, s.dev.Admits h (timeDpllSpec b) → Completes (.timeDpll h b) s fun t =>
      (∀ e ∈ [(R.DPLL_BW, b.bw), (R.DPLL_SLEW, b.slew), (R.DPLL_HOLDOVER, b.holdover)],
        t.reg e.1 = BitVec.ofNat 32 e.2 &&& implMask e.1) ∧
      t.dpllMode = bitsOf b.ctrl 0 3 ∧ Answered t h (timeDpllSpec b) .done 0 [] ∧ KeepsMem s.dev t) ∧
    (∀ b : TimeOtgBody, s.dev.Admits h (timeOtgSpec b) →
      overBudget (s.dev.opened h (timeOtgSpec b))
        ((setF (F.OTG_CTRL_format b.otg) (bitsOf b.ctrl 4 8)).run (s.dev.opened h (timeOtgSpec b))) = false →
      Completes (.timeOtg h b) s fun t =>
        t.fld (F.OTG_CTRL_format b.otg) = bitsOf b.ctrl 4 8 ∧ t.fld (F.OTG_CTRL_time_src b.otg) = bitsOf b.ctrl 12 3 ∧
        t.rd (R.OTG_OFFSET b.otg) = b.offset ∧ t.flag (F.OTG_CTRL_enable b.otg) = bitOf b.ctrl 0 ∧
        Answered t h (timeOtgSpec b) .done 0 [] ∧ KeepsMem s.dev t)

/-- INGRESS_FRAME_START, INGRESS_FRAME_COMPLETE, FRAME_ABANDON and NO_INPUT_TIMEOUT (R71, R73, R78, R89, R95). -/
def Obligations.FramesAreReceivedCompletedAndAbandoned : Prop :=
  ∀ (n : SrcId) (s : State), s.dev.live = true → s.dev.fst (.src n) = .on → (s.dev.store n).alloc = true →
    s.dev.flag (F.SRC_CTRL_quad_member n) = false →
    (∀ f : FrameStart, s.dev.flag (F.SRC_CTRL_fmt_mode n) = true → s.dev.srcFormatOk n f = true →
      s.dev.srcTooLarge n f.measured = false → (s.dev.ingm n).quadSkip = [] →
      Completes (.ingressFrameStart n f) s fun t =>
        t.flag (F.SRC_STATUS_format_mismatch n) = false ∧ (t.ingm n).adopted = some f.measured ∧
        ((∃ fr ∈ (t.store n).frames, fr.phase = .writing ∧ fr.rcd.source = n ∧ fr.rcd.format = f.measured.format) ∨
          t.rd (R.SRC_CNT_SKIPPED n) = min (s.dev.rd (R.SRC_CNT_SKIPPED n) + 1) 0xFFFFFFFF)) ∧
    (∀ f : FrameStart, s.dev.srcFormatOk n f = false → Completes (.ingressFrameStart n f) s fun t =>
      t.flag (F.SRC_STATUS_format_mismatch n) = true ∧ (t.store n).producing = false ∧ KeepsMem s.dev t) ∧
    (∀ fr : Frame, s.dev.inProgress n = [fr] → (∀ e ∈ (s.dev.store n).frames, e.rcd.seq = fr.rcd.seq → e = fr) →
      0 < fmtPeriod fr.rcd.format →
      (fr.phase = .writing → s.dev.lockstep = false → Completes (.ingressFrameComplete n) s fun t =>
        (∃ e ∈ (t.store n).frames, e.rcd.seq = fr.rcd.seq ∧ e.phase = .complete) ∧
        t.rd (R.SRC_SEQ n) = fr.rcd.seq % 2 ^ 32 ∧
        t.rd (R.SRC_CNT_FRAMES n) = min (s.dev.rd (R.SRC_CNT_FRAMES n) + 1) 0xFFFFFFFF ∧
        t.flag (F.SRC_STATUS_no_input n) = false) ∧
      (Completes (.frameAbandon n) s fun t => t.inProgress n = [] ∧
        t.rd (R.SRC_CNT_ABANDONED n) = min (s.dev.rd (R.SRC_CNT_ABANDONED n) + 1) 0xFFFFFFFF ∧
        t.flag (F.SRC_ALARM_frame_abandoned n) = true ∧ KeepsMem s.dev t)) ∧
    (Completes (.noInputTimeout n) s fun t => t.flag (F.SRC_STATUS_no_input n) = true ∧
      (s.dev.flag (F.SRC_STATUS_no_input n) = false → t.flag (F.SRC_ALARM_no_input n) = true) ∧
      KeepsRegs s.dev t (fun r => r = R.SRC_STATUS n ∨ r = R.SRC_ALARM n) ∧ KeepsMem s.dev t)

/-- DECISION_MIRROR_RX and DECISION_LOCAL_DEADLINE (R91, R407). -/
def Obligations.StandbyDecidesWithTheActive : Prop :=
  ∀ (n : SrcId) (s : State), s.dev.live = true →
    (∀ r : DecisionRec, s.dev.lockstep = true → (s.dev.store n).frames = [] → Completes (.decisionMirrorRx n r) s fun t =>
      (t.ingm n).mirrors.getLast? = some r ∧ (t.ingm n).mirrors.length ≤ 16 ∧ t.regs = s.dev.regs ∧ t.mem = s.dev.mem) ∧
    (∀ r : DecisionRec, s.dev.lockstep = false → Completes (.decisionMirrorRx n r) s fun t =>
      t.regs = s.dev.regs ∧ t.mem = s.dev.mem ∧ t.x.ing = s.dev.x.ing) ∧
    (∀ k : Nat, s.dev.lockstep = true → (∃ f ∈ s.dev.inProgress n, f.rcd.seq = k ∧ f.matched = false ∧ f.own = false) →
      Completes (.decisionLocalDeadline n k) s fun t =>
        t.rd (R.SRC_CNT_LOCAL n) = min (s.dev.rd (R.SRC_CNT_LOCAL n) + 1) 0xFFFFFFFF ∧
        t.rd R.TWIN_CNT_DECISION_LOCAL = min (s.dev.rd R.TWIN_CNT_DECISION_LOCAL + 1) 0xFFFFFFFF ∧
        t.flag (F.SRC_STATUS_decision_local n) = true ∧ t.flag F.TWIN_ALARM_decision_local = true)

/-- TAKE, TAKE_OVERLAY and TAKE_COMMIT (R104 to R108, R112). -/
def Obligations.TakesAreAcceptedThenCommitted : Prop :=
  (∀ (h : Hdr) (b : TakeBody) (s : State), s.dev.Admits h (takeSpec b) →
    (s.dev.opened h (takeSpec b)).takeStatic b (s.dev.actsFor h (takeSpec b)) = none →
    (s.dev.opened h (takeSpec b)).takeDynamic b (s.dev.actsFor h (takeSpec b)) = none →
    Completes (.take h b) s fun t => t.x.armed = s.dev.x.armed ++ [{ id := s.dev.x.ctl.fresh, dest := b.dest, body := .take b, controller := s.dev.actsFor h (takeSpec b), seq := h.seq }] ∧
      KeepsRegs s.dev t commandWord ∧ KeepsMem s.dev t ∧ t.x.dst = s.dev.x.dst) ∧
  (∀ (h : Hdr) (b : OverlayBody) (s : State), s.dev.Admits h (overlaySpec b) →
    (s.dev.opened h (overlaySpec b)).overlayCheck b (s.dev.actsFor h (overlaySpec b)) = none →
    Completes (.takeOverlay h b) s fun t => t.x.armed = s.dev.x.armed ++ [{ id := s.dev.x.ctl.fresh, dest := b.dest, body := .takeOverlay b, controller := s.dev.actsFor h (overlaySpec b), seq := h.seq }] ∧
      KeepsRegs s.dev t commandWord ∧ KeepsMem s.dev t ∧ t.x.dst = s.dev.x.dst) ∧
  (∀ (n : DstId) (a : ArmedTake) (b : TakeBody) (s : State), s.dev.live = true → s.dev.x.armed = [a] → a.dest = n →
    a.body = .take b → b.dest = n → s.dev.flag (F.DST_CTRL_quad_member n) = false →
    (s.dev.dstIdle n = false → Completes (.takeCommit n) s fun t => t.x.armed = [] ∧
      (∃ p : PendTake, (t.dstm n).pend = (s.dev.dstm n).pend ++ [p] ∧ p.id = a.id ∧ p.chain = none ∧ p.video = b.video ∧
        p.audio = b.audio ∧ p.anc = b.anc ∧ p.source = b.source ∧
        (p.frame, p.field2) = s.dev.landing n s.dev.x.time.ht b.field2) ∧
      KeepsRegs s.dev t (fun r => commandWord r ∨ r.kind ∈ [RK.DST_TAKE, .DST_BREAK, .SURF_REFS]) ∧ KeepsMem s.dev t) ∧
    (s.dev.dstIdle n = true → b.video = true → Completes (.takeCommit n) s fun t => t.x.armed = [] ∧
      t.fld (F.DST_CUR_VIDEO_source n) = b.source % 4096 ∧ (t.dstm n).pend = (s.dev.dstm n).pend ∧ KeepsMem s.dev t))

/-- PROTECT, LOCK, RELEASE and FORCE_RELEASE (R115). -/
def Obligations.HoldsAreTakenAndReleased : Prop :=
  ∀ (h : Hdr) (b : HoldBody) (s : State),
    ∀ e ∈ [(Instr.protect h b, 0, 1), (Instr.lock h b, 1, 2), (Instr.release h b, 2, 0), (Instr.forceRelease h b, 3, 0)],
      s.dev.Admits h (holdSpec e.2.1 b) →
      ((s.dev.opened h (holdSpec e.2.1 b)).holdCheck e.2.1 b b.controller = none → Completes e.1 s fun t =>
        t.fld (F.DST_HOLD_state b.dest) = e.2.2 ∧
        t.fld (F.DST_HOLD_owner b.dest) = (if e.2.2 = 0 then 0 else b.controller % 2 ^ 16) ∧
        Answered t h (holdSpec e.2.1 b) .done 0 [] ∧
        KeepsRegs s.dev t (fun r => commandWord r ∨ r = R.DST_HOLD b.dest) ∧ KeepsMem s.dev t) ∧
      (∀ reason, (s.dev.opened h (holdSpec e.2.1 b)).holdCheck e.2.1 b b.controller = some reason → Completes e.1 s fun t =>
        Answered t h (holdSpec e.2.1 b) .rejected reason [] ∧ KeepsRegs s.dev t commandWord ∧ KeepsMem s.dev t)

/-- CHAIN_LOAD, CHAIN_ARM, CHAIN_FIRE, CHAIN_CANCEL, CHAIN_QUERY and CHAIN_TRIGGER (R117 to R120). -/
def Obligations.ChainsAreLoadedArmedFiredAndCancelled : Prop :=
  (∀ (h : Hdr) (b : ChainLoadBody) (s : State), s.dev.Admits h (chainLoadSpec b) →
    (s.dev.opened h (chainLoadSpec b)).chainLoadCheck b (s.dev.actsFor h (chainLoadSpec b)) = none →
    Completes (.chainLoad h b) s fun t => (t.chain b.chain).entries = loadEntries (s.dev.chain b.chain).entries b ∧
      (t.chain b.chain).state = (if b.last then 2 else 1) ∧
      Answered t h (chainLoadSpec b) .done 0 [b.chain, (loadEntries (s.dev.chain b.chain).entries b).length] ∧
      KeepsRegs s.dev t commandWord ∧ KeepsMem s.dev t) ∧
  (∀ (h : Hdr) (b : ChainArmBody) (s : State), s.dev.Admits h (chainArmSpec b) →
    (s.dev.opened h (chainArmSpec b)).chainArmCheck b.chain b.trig = none → Completes (.chainArm h b) s fun t =>
      (t.chain b.chain).state = 3 ∧ (t.chain b.chain).controller = b.controller ∧ KeepsMem s.dev t ∧
      match b.trig with
      | .frame dest count => s.dev.frameDue dest count = false → (t.chain b.chain).trig = some (.frame dest count)
      | .time .. => ∃ n, (t.chain b.chain).timer = some n ∧ t.fld (F.EVT_STATUS_state n) = 1 ∧
          KV.get none t.x.time.evtFw n = some (.chain b.chain)) ∧
  (∀ (h : Hdr) (b : ChainFireBody) (s : State), s.dev.Admits h (chainFireSpec b) →
    (s.dev.opened h (chainFireSpec b)).chainArmCheck b.chain (.frame b.dest 0) = none → Completes (.chainFire h b) s fun t =>
      (t.chain b.chain).state = 3 ∧ (t.chain b.chain).trig = some (.frame b.dest 0) ∧
      (t.chain b.chain).controller = b.controller ∧ KeepsMem s.dev t) ∧
  (∀ (h : Hdr) (b : ChainCancelBody) (s : State), s.dev.Admits h (chainCancelSpec b) → (s.dev.chain b.chain).state = 3 →
    s.dev.chainFired b.chain = false → (∀ i, (s.dev.chain b.chain).cmd = some i → ∃ e ∈ s.dev.x.ctl.cmds, e.id = i) →
    Completes (.chainCancel h b) s fun t => (t.chain b.chain).state = 2 ∧ (t.chain b.chain).trig = none ∧
      Answered t h (chainCancelSpec b) .done 0 [] ∧ KeepsMem s.dev t) ∧
  (∀ (h : Hdr) (c : Nat) (s : State), s.dev.Admits h (chainQuerySpec c) → Completes (.chainQuery h c) s fun t =>
    let m := s.dev.chain c
    Answered t h (chainQuerySpec c) .done 0 ([m.state, m.entries.length] ++ trigWords m.trig ++
      [m.landed.length, m.skipped.length] ++ (m.landed.flatMap fun e => [e.1, e.2]) ++ m.skipped.flatMap fun e => [e.1, e.2]) ∧
    KeepsRegs s.dev t commandWord ∧ KeepsMem s.dev t) ∧
  (∀ (c : Fin 256) (due scale : Nat) (s : State), s.dev.live = true → (s.dev.chain c).state = 3 →
    s.dev.x.chainDue.find? (fun e => e.1 == c.val) = some (c.val, due, scale) → Completes (.chainTrigger c) s fun t =>
      (t.chain c).firedAt = some (if (s.dev.chain c).late then (s.dev.x.time.ht : Int) else s.dev.toHt scale due) ∧
      ((t.chain c).state = 4 ∨ (t.chain c).state = 2) ∧ (∀ e ∈ t.x.chainDue, e.1 ≠ c.val) ∧ KeepsMem s.dev t)

/-- SURFACE_ALLOC, SURFACE_WRITE, SURFACE_PUBLISH, SURFACE_FREE, SURFACE_QUERY and SURFACE_RECLAIM (R129 to R131). -/
def Obligations.SurfacesAreWrittenPublishedAndFreed : Prop :=
  ∀ (h : Hdr) (s : State),
    (∀ b : SurfaceAllocBody, s.dev.Admits h (surfaceAllocSpec b) → (s.dev.opened h (surfaceAllocSpec b)).surfAllocCheck b = none →
      Completes (.surfaceAlloc h b) s fun t => t.surfState b.id = 1 ∧ (t.store (surfCode b.id)).alloc = true ∧
        (t.store (surfCode b.id)).format = b.format ∧ (t.store (surfCode b.id)).sampling = b.sampling ∧
        Answered t h (surfaceAllocSpec b) .done 0 [] ∧ KeepsMem s.dev t) ∧
    (∀ b : SurfaceWriteBody, s.dev.Admits h (surfaceWriteSpec b) → s.dev.surfaceWriteCheck b = none →
      Completes (.surfaceWrite h b) s fun t =>
        let place := fun i => (s.dev.store (surfCode b.id)).imageAddr s.dev.grain (s.dev.surfm b.id).loading (b.offset + i)
        (∀ a, (∀ i < b.data.length, place i ≠ a) → t.mem.get a = s.dev.mem.get a) ∧
        (∀ v, b.data = [v] → memAddr (place 0) = true → s.dev.memLost s.dev.faultChans (place 0) = false →
          t.mem.get (place 0) = v) ∧
        Answered t h (surfaceWriteSpec b) .done 0 []) ∧
    (∀ id : Nat, s.dev.Admits h (surfacePublishSpec id) → (s.dev.surfm id).dirty = true → s.dev.surfState id ≠ 0 →
      s.dev.surfState id ≠ 4 → Completes (.surfacePublish h id) s fun t => t.surfState id = 2 ∧
        (∃ fr, (t.store (surfCode id)).frames = [fr] ∧ fr.phase = .complete ∧ fr.rcd.slot = (s.dev.surfm id).loading) ∧
        (t.surfm id).front = some (s.dev.surfm id).loading ∧ (t.surfm id).dirty = false ∧
        Answered t h (surfacePublishSpec id) .done 0 []) ∧
    (∀ id : Nat, s.dev.Admits h (surfaceFreeSpec id) → s.dev.surfState id ≠ 0 → s.dev.surfState id ≠ 4 →
      (s.dev.rd (R.SURF_REFS id) = 0 → Completes (.surfaceFree h id) s fun t => t.surfState id = 0 ∧
        (t.store (surfCode id)).alloc = false ∧ Answered t h (surfaceFreeSpec id) .done 0 [] ∧ KeepsMem s.dev t) ∧
      (0 < s.dev.rd (R.SURF_REFS id) → Completes (.surfaceFree h id) s fun t => t.surfState id = 4 ∧
        Answered t h (surfaceFreeSpec id) .deferred 0 [] ∧ KeepsMem s.dev t)) ∧
    (∀ id : Nat, s.dev.Admits h (surfaceQuerySpec id) → Completes (.surfaceQuery h id) s fun t =>
      Answered t h (surfaceQuerySpec id) .done 0 [s.dev.surfState id, s.dev.rd (R.SURF_REFS id), (s.dev.surfm id).written] ∧
      KeepsRegs s.dev t commandWord ∧ KeepsMem s.dev t) ∧
    (∀ id : Fin 256, s.dev.live = true → s.dev.surfState id = 4 → (∀ e ∈ s.dev.refHolders, e.1 ≠ id.val) →
      s.dev.rd (R.SURF_REFS id) = (s.dev.x.surfRefs.filter fun e => e.1 == id.val).length →
      Completes (.surfaceReclaim id) s fun t => t.surfState id = 0 ∧ (t.store (surfCode id)).alloc = false ∧ KeepsMem s.dev t)

/-- The counter clears of every block, and HBM_CE_RATE_CLEAR (R70, R139, R166, R196, R228, R244, R282, R297, R317, R349 to R351, R376, R394, R421, R453, R490, R512, R518). -/
def Obligations.CounterClearsClearTheirCounters : Prop :=
  ∀ s : State, s.dev.live = true →
    (∀ (src : SrcId) (dst : DstId) (prc : PrcId) (mvh : HeadId) (sap : SapId) (lane : LaneId) (mac : MacId) (flow : FlowId),
      ∀ e ∈ [
        (Instr.srcCntClear src, [R.SRC_CNT_FRAMES src, R.SRC_CNT_SKIPPED src, R.SRC_CNT_ABANDONED src, R.SRC_CNT_LATE src,
          R.SRC_CNT_CONCEAL src, R.SRC_CNT_UE src, R.SRC_CNT_OVERTAKE src, R.SRC_CNT_ANC_DROP src, R.SRC_CNT_LOCAL src,
          R.SRC_CNT_DIGEST_MISMATCH src, R.SRC_CNT_RAW_TILES src]),
        (.dstCntClear dst, [R.DST_CNT_TAKES dst, R.DST_CNT_SUPERSEDED dst, R.DST_CNT_NOT_READY dst, R.DST_CNT_UNDERRUN dst,
          R.DST_CNT_REPEAT dst, R.DST_CNT_DROP dst, R.DST_CNT_UE dst, R.DST_CNT_OPQ_GAP dst]),
        (.prcCntClear prc, [R.PRC_CNT_FRAMES prc, R.PRC_CNT_LATE prc, R.PRC_CNT_NO_FRAME prc, R.PRC_CNT_UE prc,
          R.PRC_CNT_REDUCED prc]),
        (.mvhCntClear mvh, [R.MVH_CNT_FRAMES mvh, R.MVH_CNT_LATE mvh, R.MVH_CNT_TILE_LATE mvh, R.MVH_CNT_TILE_NOT_READY mvh,
          R.MVH_CNT_UE mvh, R.MVH_CNT_SCRUPLE_MISMATCH mvh] ++ (List.range 16).map fun r => R.MVH_GR_CNT mvh r),
        (.audCntClear, [R.AUD_CNT_LOST, R.AUD_CNT_SLIP, R.AUD_CNT_LATE, R.AUD_CNT_CLIP, R.AUD_CNT_LOCAL,
          R.AUD_CNT_SUPERSEDED, R.AUD_CNT_UE]),
        (.sapCntClear sap, [R.SAP_CNT_DISCARD sap, R.SAP_CNT_REQUAL sap, R.SAP_CNT_CLOCK_LOST sap, R.SAP_CNT_SLIP sap]),
        (.hlkCntClear lane, [R.HLK_CNT_FEC_CORR lane, R.HLK_CNT_FEC_UNCORR lane, R.HLK_CNT_FRAME_GAP lane,
          R.HLK_CNT_BLOCK_LOSS lane, R.HLK_CNT_RETRAIN lane, R.HLK_CNT_BAD_BLOCK lane, R.HLK_CNT_SEG_RX lane,
          R.HLK_CNT_SEG_TX lane, R.HLK_CNT_SEG_BAD lane, R.HLK_CNT_SEG_LOST lane, R.HLK_CNT_BAD_KIND lane,
          R.HLK_CNT_FILL_DEL lane, R.HLK_CNT_FILL_INS lane, R.HLK_CNT_PECK_RX lane] ++
          (List.range 64).flatMap fun f => [R.HLK_RXF_SEGS lane f, R.HLK_RXF_LOST lane f, R.HLK_RXF_BAD lane f,
            R.HLK_TXF_SEGS lane f]),
        (.laneCntClear lane, [R.LANE_CNT_SIGNAL_LOSS lane, R.LANE_CNT_CDR_LOSS lane, R.LANE_CNT_ADAPT lane,
          R.LANE_CNT_MON_ERR lane]),
        (.sdiCntClear lane, [R.SDI_CNT_CRC lane, R.SDI_CNT_LN lane, R.SDI_CNT_TRS lane, R.SDI_CNT_EDH_AP lane,
          R.SDI_CNT_EDH_FF lane, R.SDI_CNT_ERR_FRAMES lane, R.SDI_CNT_ANC_CSUM lane, R.SDI_CNT_AUD_ERR lane,
          R.SDI_CNT_ANC_DROP lane, R.SDI_CNT_LOS lane]),
        (.macCntClear mac, [R.MAC_CNT_RX_FRAMES mac, R.MAC_CNT_RX_FCS mac, R.MAC_CNT_RX_LEN mac, R.MAC_CNT_RX_NOMATCH mac,
          R.MAC_CNT_RX_FULL mac, R.MAC_CNT_TX_FRAMES mac, R.MAC_CNT_TX_UNDERRUN mac, R.MAC_CNT_TX_LATE mac,
          R.MAC_CNT_FEC_CORR mac, R.MAC_CNT_FEC_UNCORR mac]),
        (.macTsqCntClear, [R.MAC_CNT_TSQ_DROP]),
        (.flowCntClear false flow, [R.FLOW_RX_CNT_PKTS flow, R.FLOW_RX_CNT_LOST flow, R.FLOW_RX_CNT_ERR flow,
          R.FLOW_RX_CNT_LATE flow, R.FLOW_RX_CNT_DUP flow]),
        (.flowCntClear true flow, [R.FLOW_TX_CNT_PKTS flow, R.FLOW_TX_CNT_LATE flow]),
        (.hbmCntClear, [R.HBM_CNT_CE, R.HBM_CNT_UE, R.HBM_CNT_POISON_READ, R.HBM_CNT_SPARED, R.HBM_CNT_PNR_DROP]),
        (.twinCntClear, [R.TWIN_CNT_FAILOVER, R.TWIN_CNT_SWAP, R.TWIN_CNT_LANE_MISS, R.TWIN_CNT_LVDS_MISS,
          R.TWIN_CNT_SIG_MISMATCH, R.TWIN_CNT_DECISION_LOCAL, R.TWIN_CNT_DECISION_DIFFER, R.TWIN_CNT_COMMIT_LATE,
          R.TWIN_CNT_RESYNC]),
        (.glbCntClear, [R.GLB_CNT_AFL, R.GLB_CNT_AFL_DROP]),
        (.cmdCntClear, [R.CMD_CNT_RX, R.CMD_CNT_REJECTED, R.CMD_CNT_AUTH_FAIL, R.CMD_CNT_REPLAY, R.CMD_CNT_DUP,
          R.CMD_CNT_DROP_CPL, R.CMD_COMMIT_LAT_MAX] ++
          (List.range 16).flatMap (fun r => [R.CMD_RING_CNT_CMD r, R.CMD_RING_CNT_CPL r]) ++
          (List.range 32).map fun r => R.CMD_SESS_CNT_CMD r),
        (.bootCntClear, [R.BOOT_CNT_PIECE_OK, R.BOOT_CNT_PIECE_BAD, R.BOOT_CNT_PIECE_DUP, R.BOOT_CNT_PIECE_OTHER,
          R.BOOT_CNT_FLASH_ERR, R.BOOT_CNT_RESTORE_DROP, R.BOOT_CNT_MRAM_CRC]),
        (.pwrCntClear, [R.PWR_CNT_SHED, R.PWR_CNT_OVERRIDE, R.PWR_CNT_PMBUS_ERR, R.PWR_CNT_WDOG, R.PWR_CNT_UV_RESET])],
        Completes e.1 s fun t => (∀ r ∈ e.2, t.rd r = 0) ∧ Keeps s.dev t fun r => r ∈ e.2) ∧
    (Completes .mtxCntClear s fun t =>
      let cleared := [R.MTX_CNT_DECODE, R.MTX_CNT_TIMEOUT, R.MTX_CNT_LOG_DROP] ++
        (List.range 56).flatMap fun m => [R.MTX_P_CNT_RD m, R.MTX_P_CNT_WR m, R.MTX_P_CNT_POOL_WAIT m]
      (∀ r ∈ cleared, t.rd r = 0) ∧ t.fld F.MTX_POOL_peak = 0 ∧
      Keeps s.dev t (fun r => r ∈ cleared ∨ r = F.MTX_POOL_peak.reg)) ∧
    (Completes .hbmCeRateClear s fun t =>
      ((∀ e ∈ s.dev.x.hbm.ceTimes, (within s.dev.x.time.clk (3600 * secU) e.2).length ≤ s.dev.fld F.HBM_REPAIR_ce_rate) →
        bitOf (t.rd R.PWR_REPLACE) 3 = false ∧ t.flag F.PWR_STATUS_replace_req = decide (t.rd R.PWR_REPLACE ≠ 0)) ∧
      Keeps s.dev t (fun r => r = R.PWR_REPLACE ∨ r = R.PWR_STATUS))

/-- GLB_AFL_POP, HBM_ELOG_POP, MTX_LOG_POP and MAC_TSQ_POP (R345, R377, R395, R452). -/
def Obligations.LogsGiveUpTheirOldestEntry : Prop :=
  ∀ s : State, s.dev.live = true →
    (Completes .glbAflPop s fun t => t.x.ctl.afl = s.dev.x.ctl.afl.drop 1 ∧ t.regs = s.dev.regs ∧ t.mem = s.dev.mem) ∧
    (s.dev.x.hbm.elog ≠ [] → s.dev.x.hbm.elog.length ≤ 64 → Completes .hbmElogPop s fun t =>
      t.x.hbm.elog = s.dev.x.hbm.elog.drop 1 ∧ t.fld F.HBM_ELOG_STATUS_entries = s.dev.x.hbm.elog.length - 1 ∧
      t.fld F.HBM_ELOG_STATUS_full = 0 ∧
      (∀ w < 6, t.reg (R.HBM_ELOG_E w) = BitVec.ofNat 32 (((s.dev.x.hbm.elog.drop 1).headD []).getD w 0) &&&
        implMask (R.HBM_ELOG_E w)) ∧
      KeepsRegs s.dev t (fun r => r.kind ∈ [RK.HBM_ELOG_STATUS, .HBM_ELOG_E]) ∧ KeepsMem s.dev t) ∧
    (s.dev.x.mtx.log ≠ [] → s.dev.x.mtx.log.length ≤ 16 → Completes .mtxLogPop s fun t =>
      t.x.mtx.log = s.dev.x.mtx.log.drop 1 ∧ t.fld F.MTX_LOG_STATUS_entries = s.dev.x.mtx.log.length - 1 ∧
      t.flag F.MTX_LOG_STATUS_full = false ∧ t.flag F.MTX_STATUS_log_full = false ∧
      (∀ w < 6, t.reg (R.MTX_LOG_E w) = BitVec.ofNat 32 (((s.dev.x.mtx.log.drop 1).headD []).getD w 0) &&&
        implMask (R.MTX_LOG_E w)) ∧
      KeepsRegs s.dev t (fun r => r.kind ∈ [RK.MTX_LOG_STATUS, .MTX_STATUS, .MTX_LOG_E]) ∧ KeepsMem s.dev t) ∧
    (s.dev.x.tsq.entries ≠ [] → Completes (.macTsqPop .firmware) s fun t =>
      t.x.tsq.entries = s.dev.x.tsq.entries.drop 1 ++ (match s.dev.x.tsq.lost with
        | some (a, b) => [[2 ^ 30 + a, b, 0, 0]]
        | none => []) ∧
      t.x.tsq.lost = none ∧ KeepsRegs s.dev t (fun r => r.kind ∈ [RK.MAC_TSQ_STATUS, .MAC_TSQ_E]) ∧ KeepsMem s.dev t) ∧
    (Completes (.macTsqPop .host) s fun t => t.x.tsq = s.dev.x.tsq ∧
      t.rd R.GLB_CNT_AFL = min (s.dev.rd R.GLB_CNT_AFL + 1) 0xFFFFFFFF ∧ t.flag F.GLB_ALARM_access_fault = true ∧
      (s.dev.x.ctl.afl.length < 32 → t.x.ctl.afl.length = s.dev.x.ctl.afl.length + 1) ∧
      KeepsRegs s.dev t (fun r => r.kind ∈ [RK.GLB_CNT_AFL, .GLB_CNT_AFL_DROP, .GLB_ALARM]) ∧ KeepsMem s.dev t)

/-- R5, for every 64-bit value of the register map. -/
def Obligations.LowWordLatchesHighWord : Prop :=
  ∀ (r h : Reg) (a : Nat) (s : State), highOf r = some h → s.dev.live = true → s.dev.x.ctl.endpoint = true →
    a < 0x2000000 → a % 4 = 0 →
    h.addr = r.addr + 4 ∧
    (regAt a = some r → (∀ e ∈ s.dev.x.ctl.latch, e.1 ≠ r) → Completes (.counterLowRead a) s fun t =>
      (∃ l, t.x.out = s.dev.x.out ++ .hostRead (s.dev.regWord r) :: l) ∧
      t.x.ctl.latch.find? (fun e => e.1 == h) = some (h, BitVec.ofNat 32 (s.dev.regWord h)) ∧
      t.regs = s.dev.regs ∧ t.mem = s.dev.mem) ∧
    (∀ w : Word, regAt a = some h → s.dev.x.ctl.latch.find? (fun e => e.1 == h) = some (h, w) →
      Completes (.counterLowRead a) s fun t =>
        (∃ l, t.x.out = s.dev.x.out ++ .hostRead w.toNat :: l) ∧ (∀ e ∈ t.x.ctl.latch, e.1 ≠ h) ∧
        t.regs = s.dev.regs ∧ t.mem = s.dev.mem)

/-- R389. -/
def Obligations.UnmappedHostAccessNeverWaits : Prop :=
  ∀ (write : Bool) (addr be : Nat) (value : Word) (s : State), s.dev.live = true → s.dev.x.ctl.endpoint = true →
    addr % 2 ^ 26 < 0x2000000 → offsetMapped (addr % 2 ^ 26) = false →
    Completes (.hostUnmappedAccess write addr value be) s fun t =>
      (if write then (∀ v, t.x.out.count (.hostRead v) = s.dev.x.out.count (.hostRead v))
        else ∃ l, t.x.out = s.dev.x.out ++ .hostRead 0xFFFFFFFF :: l) ∧
      t.rd R.GLB_CNT_AFL = min (s.dev.rd R.GLB_CNT_AFL + 1) 0xFFFFFFFF ∧ t.flag F.GLB_ALARM_access_fault = true ∧
      (s.dev.x.ctl.afl.length < 32 → ∃ e, t.x.ctl.afl = s.dev.x.ctl.afl ++ [e] ∧ e.getD 1 0 = addr % 2 ^ 26) ∧
      t.x.mtx = s.dev.x.mtx ∧ KeepsMem s.dev t ∧
      KeepsRegs s.dev t fun r => r.kind ∈ [RK.GLB_CNT_AFL, .GLB_CNT_AFL_DROP, .GLB_ALARM]

/-- REGISTER_WRITE (R4, R8, R448, R449) and HBM_APERTURE_ACCESS (R356). -/
def Obligations.HostWritesKeepReservedBits : Prop :=
  ∀ s : State, s.dev.live = true → s.dev.x.ctl.endpoint = true →
    (∀ (addr : Nat) (r : Reg) (v : Word), addr < 0x2000000 → regAt (addr / 4 * 4) = some r → r.valid = true →
      (∀ v n, regAction r v = .nop ∧ regStore r n = wr r n) → ctrlFn r = none → offFn r = none → (regInfo r.kind).fw = 0 →
      (regInfo r.kind).w1c = 0 → (regInfo r.kind).rw ≠ 0 → addr < 0x1000000 →
      ¬ (0x46000 ≤ addr ∧ addr < 0x48000) → r.kind ≠ .MAC_GATE_CMD → Completes (.registerWrite addr v 15) s fun t =>
        t.reg r = (BitVec.ofNat 32 (mergeBits (s.dev.rd r) (regInfo r.kind).rw v.toNat) &&& implMask r) ∧
        Keeps s.dev t fun q => q = r) ∧
    (∀ (addr be : Nat) (v : Word), addr < 0x2000000 → offsetMapped (addr / 4 * 4) = true → be % 16 ≠ 15 →
      Completes (.registerWrite addr v be) s fun t =>
        t.rd R.GLB_CNT_AFL = min (s.dev.rd R.GLB_CNT_AFL + 1) 0xFFFFFFFF ∧ t.flag F.GLB_ALARM_access_fault = true ∧
        KeepsRegs s.dev t (fun r => r.kind ∈ [RK.GLB_CNT_AFL, .GLB_CNT_AFL_DROP, .GLB_ALARM]) ∧ KeepsMem s.dev t) ∧
    (∀ (addr : Nat) (r : Reg) (v w : Word), addr < 0x2000000 → regAt (addr / 4 * 4) = some r →
      (let i := regInfo r.kind
       ∀ m ∈ [i.rw, i.fw, i.w1c, i.w1s, i.wo], v.toNat &&& m = w.toNat &&& m) →
      ∃ t u, exec (.registerWrite addr v 15) s = .next t ∧ exec (.registerWrite addr w 15) s = .next u ∧
        t.dev.regs = u.dev.regs ∧ t.dev.mem = u.dev.mem ∧
        { t.dev.x with ctl := { t.dev.x.ctl with afl := [] } } = { u.dev.x with ctl := { u.dev.x.ctl with afl := [] } }) ∧
    (∀ (off be : Nat) (v : Word), let a := s.dev.apertureAddr (off / 4 * 4)
      (s.dev.flag F.HBM_APERTURE_write_en = false → Completes (.hbmApertureAccess true off v be) s fun t =>
        KeepsMem s.dev t ∧ t.rd R.GLB_CNT_AFL = min (s.dev.rd R.GLB_CNT_AFL + 1) 0xFFFFFFFF) ∧
      (s.dev.flag F.HBM_APERTURE_write_en = true → Completes (.hbmApertureAccess true off v be) s fun t =>
        (∀ q, t.mem.get q ≠ s.dev.mem.get q → ∃ k < 4, bitOf be k = true ∧ q = a + k) ∧ KeepsRegs s.dev t fun _ => False) ∧
      (s.dev.poisoned a 4 = false → Completes (.hbmApertureAccess false off v be) s fun t =>
        (∃ l, t.x.out = s.dev.x.out ++ .hostRead (ofLeBytes (s.dev.mem.getBytes a 4)) :: l) ∧ t.regs = s.dev.regs ∧
        t.mem = s.dev.mem))

/-- SQ_TAIL_DOORBELL, CQ_HEAD_DOORBELL, CMD_DESC_FETCH, CMD_MESSAGE_RECEIVED and IRQ_COAL_TIMEOUT (R427 to R432, R437, R445). -/
def Obligations.CommandRingsCarryMessages : Prop :=
  ∀ (r : RingId) (s : State), s.dev.live = true → s.dev.x.ctl.endpoint = true → s.dev.fst (.ring r) = .on →
    let n := s.dev.ringSize r
    let m := s.dev.ringm r
    let head := s.dev.fld (F.CMD_RING_SQ_HEAD r)
    let used := fun v => (v + n - m.sqTail) % n + (m.sqTail + n - head) % n
    (∀ v, v < n → used v < n → Completes (.sqTailDoorbell r v) s fun t =>
      t.ringm r = { m with sqTail := v } ∧ t.regs = s.dev.regs ∧ KeepsMem s.dev t) ∧
    (∀ v, n ≤ v ∨ n ≤ used v → Completes (.sqTailDoorbell r v) s fun t =>
      t.fst (.ring r) = .fault ∧ (t.fw (.ring r)).code = 2) ∧
    (∀ v, v < n → (v + n - m.cqHead) % n ≤ m.cqUsed → Completes (.cqHeadDoorbell r v) s fun t =>
      (t.ringm r).cqHead = v ∧ (t.ringm r).cqUsed = m.cqUsed - (v + n - m.cqHead) % n ∧
      (t.ringm r).unsignalled = min m.unsignalled (m.cqUsed - (v + n - m.cqHead) % n) ∧ t.regs = s.dev.regs ∧ KeepsMem s.dev t) ∧
    (∀ v, n ≤ v ∨ m.cqUsed < (v + n - m.cqHead) % n → Completes (.cqHeadDoorbell r v) s fun t =>
      t.fst (.ring r) = .fault ∧ (t.fw (.ring r)).code = 2) ∧
    (∀ x : Desc, m.fetching = none → head ≠ m.sqTail → 2 ≤ s.dev.cqFree r →
      (x.err = false → Desc.legal x = true → Completes (.cmdDescFetch r x) s fun t =>
        t.ringm r = { m with fetching := some { sqIndex := head, respAddr := x.respAddr, respLen := x.respLen },
                             reserved := m.reserved + 2 } ∧ t.regs = s.dev.regs ∧ KeepsMem s.dev t) ∧
      (x.err = true ∨ Desc.legal x = false → Completes (.cmdDescFetch r x) s fun t =>
        t.fst (.ring r) = .fault ∧ (t.fw (.ring r)).code = if x.err then 1 else 3)) ∧
    (∀ (slot : RingSlot) (words : List Nat), m.fetching = some slot →
      (wireOf s.dev (bitsOf (words.getD 0 0 % 2 ^ 32) 0 16) ((words.map (· % 2 ^ 32)).drop 4) = none →
        Completes (.cmdMessageReceived (.ring r slot) words) s fun t =>
          t.fld (F.CMD_RING_SQ_HEAD r) = (head + 1) % n ∧ (t.ringm r).fetching = none ∧
          ∃ tail c written phase trunc, Output.cq r tail c written phase trunc slot.sqIndex ∈ t.x.out ∧
            c.seq = words.getD 1 0 % 2 ^ 32 ∧ c.status = statusWord .rejected Reason.badOpcode ∧ c.body = []) ∧
      (∀ q < 2 ^ 32, words = [0x0401, q, 16, 0] → Completes (.cmdMessageReceived (.ring r slot) words) s fun t =>
          t.fld (F.CMD_RING_SQ_HEAD r) = (head + 1) % n ∧ (t.ringm r).fetching = none ∧
          ∃ tail c written phase trunc, Output.cq r tail c written phase trunc slot.sqIndex ∈ t.x.out ∧
            c.opcode = 0x0401 ∧ c.seq = q ∧ c.status = statusWord .done 0 ∧ c.body.length = 21)) ∧
    (0 < m.unsignalled → 0 < s.dev.fld (F.CMD_RING_COAL_time_us r) → Completes (.irqCoalTimeout r) s fun t =>
      t.ringm r = { m with coalDue := true } ∧ t.regs = s.dev.regs ∧ KeepsMem s.dev t)

/-- GLB_IRQ_EOI, MSIX_VECTOR_UNMASK, PCIE_LINK_UP, PCIE_HOST_RESET and FW_HEARTBEAT (R423, R426, R445, R452, R473). -/
def Obligations.InterruptMessagesAndHostReset : Prop :=
  ∀ s : State, s.dev.live = true → s.dev.x.ctl.endpoint = true →
    (∀ v : Fin 64, bitOf s.dev.vecTrue v = true → Completes (.glbIrqEoi v) s fun t =>
      (bitOf s.dev.x.ctl.vecMask v = false → ∃ l, t.x.out = s.dev.x.out ++ .msix v :: l) ∧
      (bitOf s.dev.x.ctl.vecMask v = true → bitOf t.x.ctl.vecPend v = true) ∧ t.regs = s.dev.regs ∧ t.mem = s.dev.mem) ∧
    (∀ v : Fin 64, bitOf s.dev.vecTrue v = false → s.dev.x.ctl.vecCond = s.dev.vecTrue →
      Completes (.glbIrqEoi v) s fun t => t = s.dev) ∧
    (∀ v : Fin 64, Completes (.msixVectorUnmask v) s fun t =>
      bitOf t.x.ctl.vecMask v = false ∧ bitOf t.x.ctl.vecPend v = false ∧
      (∀ u : Fin 64, u ≠ v → bitOf t.x.ctl.vecMask u = bitOf s.dev.x.ctl.vecMask u) ∧
      (bitOf s.dev.x.ctl.vecPend v = true → ∃ l, t.x.out = s.dev.x.out ++ .msix v :: l) ∧
      t.regs = s.dev.regs ∧ t.mem = s.dev.mem) ∧
    (Completes .pcieLinkUp s fun t => t.flag F.GLB_STATUS_host_link_up = true ∧ Keeps s.dev t fun r => r = R.GLB_STATUS) ∧
    (∀ k : HostReset, Completes (.pcieHostReset k) s fun t =>
      (∀ r : RingId, t.fst (.ring r) = .off ∧ t.fld (F.CMD_RING_CTRL_enable r) = 0 ∧ (t.ringm r).fetching = none ∧
        (t.ringm r).sqTail = 0 ∧ (t.ringm r).cqUsed = 0) ∧
      t.rd R.GLB_IRQ_PIN_EN = 0 ∧ t.rd R.GLB_IRQ_MSI_EN = 0 ∧ t.x.ctl.vecMask = 0xFFFFFFFFFFFFFFFF ∧
      (k ≠ .flr → t.flag F.GLB_STATUS_host_link_up = false) ∧
      (k = .flr → t.fld F.GLB_STATUS_host_link_up = s.dev.fld F.GLB_STATUS_host_link_up) ∧
      KeepsRegs s.dev t (fun r => ringWord r = true ∨ commandWord r ∨
        r.kind ∈ [RK.GLB_IRQ_PIN_EN, .GLB_IRQ_MSI_EN, .GLB_IRQ_MAP, .GLB_STATUS]) ∧ KeepsMem s.dev t) ∧
    (Completes .fwHeartbeat s fun t => t.rd R.GLB_HEARTBEAT = (s.dev.rd R.GLB_HEARTBEAT + 1) % 2 ^ 32 ∧
      KeepsRegs s.dev t (fun r => r = R.GLB_HEARTBEAT ∨
        ((s.dev.rd R.GLB_HEARTBEAT + 1) % 2 ^ 32 % 1000 = 0 ∧ r.kind ∈ [RK.BOOT_MRAM_STATUS, .BOOT_ALARM])) ∧ KeepsMem s.dev t)

/-- OPEN, DATA, CLOSE and SESSION_TIMEOUT (R433 to R436). -/
def Obligations.SessionsOpenCarryDataAndEnd : Prop :=
  ∀ s : State, s.dev.live = true → s.dev.mgmtOn = true →
    (∀ (g : MgmtGram) (key : List Byte), s.dev.ctlKey (ofLeBytes (g.payload.take 2)) = some key → g.payload.length = 20 →
      MgmtGram.verifies g 0 key = true → (within s.dev.x.time.clk secU s.dev.x.ctl.opens).length < 16 →
      (∃ e : SessId, s.dev.flag (F.CMD_SESS_STATE_open e) = false) → Completes (.openSession g) s fun t =>
        (∃ e : SessId, s.dev.flag (F.CMD_SESS_STATE_open e) = false ∧ t.flag (F.CMD_SESS_STATE_open e) = true ∧
          t.fld (F.CMD_SESS_STATE_controller e) = ofLeBytes (g.payload.take 2) ∧ (t.sessm e).lastAt = s.dev.x.time.clk ∧
          ∃ nonce tag, Output.openReply (t.rd (R.CMD_SESS_ID e)) (ofLeBytes (g.payload.take 2)) 0 nonce tag ∈ t.x.out) ∧
        KeepsMem s.dev t) ∧
    (∀ g : MgmtGram, s.dev.ctlKey (ofLeBytes (g.payload.take 2)) = none →
      (within s.dev.x.time.clk secU s.dev.x.ctl.opens).length < 16 → Completes (.openSession g) s fun t =>
        t.rd R.CMD_CNT_AUTH_FAIL = min (s.dev.rd R.CMD_CNT_AUTH_FAIL + 1) 0xFFFFFFFF ∧
        t.flag F.CMD_ALARM_auth_fail = true ∧
        KeepsRegs s.dev t (fun r => r.kind ∈ [RK.CMD_CNT_AUTH_FAIL, .CMD_ALARM]) ∧ KeepsMem s.dev t) ∧
    (∀ (g : MgmtGram) (e : SessId), s.dev.sessOf g = some e →
      (s.dev.sessm e).rxSeen.contains g.counter = false → (s.dev.sessm e).rxHigh < g.counter + 64 →
      (∀ q < 2 ^ 32, MgmtGram.verifies g 2 (s.dev.sessm e).key = true →
        g.payload = leBytes 4 0x0401 ++ leBytes 4 q ++ leBytes 4 16 ++ leBytes 4 0 →
        s.dev.duplicate { intake := .session e, seq := q } = none → Completes (.dataDatagram g) s fun t =>
          Answered t { intake := .session e, seq := q } queryStatusSpec .done 0
            (s.dev.rd R.GLB_STATUS ::
              (List.range 19).map s.dev.fstateSummary ++ [s.dev.irqStatus]) ∧ KeepsMem s.dev t) ∧
      (MgmtGram.verifies g 4 (s.dev.sessm e).key = true → Completes (.closeSession g) s fun t =>
        t.flag (F.CMD_SESS_STATE_open e) = false ∧ t.rd (R.CMD_SESS_ID e) = 0 ∧ t.sessm e = {} ∧ KeepsMem s.dev t)) ∧
    (∀ (g : MgmtGram) (e : SessId), s.dev.sessOf g = some e →
      (MgmtGram.verifies g 2 (s.dev.sessm e).key = false → Completes (.dataDatagram g) s fun t =>
        t.rd R.CMD_CNT_AUTH_FAIL = min (s.dev.rd R.CMD_CNT_AUTH_FAIL + 1) 0xFFFFFFFF ∧ t.x.ctl.sess = s.dev.x.ctl.sess ∧
        KeepsRegs s.dev t fun r => r.kind ∈ [RK.CMD_CNT_AUTH_FAIL, .CMD_ALARM]) ∧
      (MgmtGram.verifies g 2 (s.dev.sessm e).key = true → (s.dev.sessm e).rxSeen.contains g.counter = true →
        Completes (.dataDatagram g) s fun t =>
          t.rd R.CMD_CNT_REPLAY = min (s.dev.rd R.CMD_CNT_REPLAY + 1) 0xFFFFFFFF ∧ t.x.ctl.sess = s.dev.x.ctl.sess ∧
          KeepsRegs s.dev t fun r => r.kind ∈ [RK.CMD_CNT_REPLAY, .CMD_ALARM])) ∧
    (∀ e : SessId, s.dev.flag (F.CMD_SESS_STATE_open e) = true →
      ((s.dev.sessm e).lastAt + 30 * secU ≤ s.dev.x.time.clk → Completes (.sessionTimeout e) s fun t =>
        t.flag F.CMD_ALARM_session_timeout = true ∧ t.flag (F.CMD_SESS_STATE_open e) = false ∧ t.sessm e = {} ∧
        KeepsMem s.dev t) ∧
      (s.dev.x.time.clk < (s.dev.sessm e).lastAt + 30 * secU → Completes (.sessionTimeout e) s fun t =>
        t.regs = s.dev.regs ∧ t.mem = s.dev.mem ∧ t.x.ctl.sess = s.dev.x.ctl.sess))

/-- QUERY_XPT, QUERY_STATUS, QUERY_COMMAND, QUERY_REGS and CONFIG_SET (R441, R442, R542). -/
def Obligations.QueriesAnswerAndConfigurationLands : Prop :=
  ∀ (h : Hdr) (s : State),
    (∀ first count : Nat, s.dev.Admits h (queryXptSpec first count) → Completes (.queryXpt h first count) s fun t =>
      Answered t h (queryXptSpec first count) .done 0 ((List.range count).flatMap fun i =>
        [R.XPT_VIDEO (first + i), R.XPT_ROUTES (first + i), R.XPT_HOLD (first + i), R.XPT_LANDED (first + i)].map
          (s.dev.opened h (queryXptSpec first count)).regWord) ∧ KeepsRegs s.dev t commandWord ∧ KeepsMem s.dev t) ∧
    (s.dev.Admits h queryStatusSpec → Completes (.queryStatus h) s fun t =>
      let d := s.dev.opened h queryStatusSpec
      Answered t h queryStatusSpec .done 0 (d.rd R.GLB_STATUS :: (List.range 19).map d.fstateSummary ++ [d.irqStatus]) ∧
      KeepsRegs s.dev t commandWord ∧ KeepsMem s.dev t) ∧
    (∀ offset count : Nat, s.dev.Admits h (queryRegsSpec offset count) → Completes (.queryRegs h offset count) s fun t =>
      Answered t h (queryRegsSpec offset count) .done 0 ((List.range count).map fun i =>
        ((s.dev.opened h (queryRegsSpec offset count)).queryWord (offset + 4 * i)).1) ∧
      KeepsRegs s.dev t (fun r => commandWord r ∨ r.kind ∈ [RK.GLB_CNT_AFL, .GLB_CNT_AFL_DROP, .GLB_ALARM]) ∧ KeepsMem s.dev t) ∧
    (∀ q : Nat, s.dev.Admits h (queryCommandSpec q) →
      let same := fun (c : CmdRec) => c.seq = q ∧ c.lost = false ∧ ∃ g, c.hdr = some g ∧ intakeKey g.intake = intakeKey h.intake
      (∀ c ∈ s.dev.x.ctl.cmds, same c → (∀ b ∈ s.dev.x.ctl.cmds, same b → b = c) → Completes (.queryCommand h q) s fun t =>
        Answered t h (queryCommandSpec q) .done 0 [c.state.code] ∧ KeepsRegs s.dev t commandWord ∧ KeepsMem s.dev t) ∧
      ((∀ b ∈ s.dev.x.ctl.cmds, ¬ same b) →
        (∀ e ∈ s.dev.x.ctl.finished, ¬ (intakeKey e.1 = intakeKey h.intake ∧ e.2.1 = q)) → Completes (.queryCommand h q) s fun t =>
        Answered t h (queryCommandSpec q) .done 0 [0] ∧ KeepsRegs s.dev t commandWord ∧ KeepsMem s.dev t)) ∧
    (∀ b : ConfigBody, s.dev.Admits h (configSetSpec b) →
      ((s.dev.opened h (configSetSpec b)).configCheck b = none →
        (∀ e ∈ configWords b, ctrlFn e.1 = none ∧ isFstate e.1.kind = false ∧ ∀ v, regStore e.1 v = wr e.1 v) →
        Completes (.configSet h b) s fun t =>
          (∀ e ∈ configWords b, e.1.valid = true → ¬ commandWord e.1 →
            t.reg e.1 = BitVec.ofNat 32 (s.dev.configValue e) &&& implMask e.1) ∧
          (∀ e ∈ configWords b, e.1 ∈ t.x.ctl.cfgWritten) ∧ Answered t h (configSetSpec b) .done 0 [] ∧
          KeepsRegs s.dev t (fun r => commandWord r ∨ (∃ e ∈ configWords b, e.1 = r) ∨
            r.kind ∈ [RK.HBM_PLAN, .HLK_PLAN, .HLK_TXF_PLAN, .HLK_TXF_STATUS]) ∧ KeepsMem s.dev t) ∧
      (∀ reason, (s.dev.opened h (configSetSpec b)).configCheck b = some reason → Completes (.configSet h b) s fun t =>
        Answered t h (configSetSpec b) .rejected reason [] ∧ KeepsRegs s.dev t commandWord ∧ KeepsMem s.dev t))

/-- DEST_FRAME_BOUNDARY, DEST_SWITCH_POINT and DEST_SWITCH_LINE (R18, R109, R113, R127). -/
def Obligations.DestinationsShowFramesAndLandChanges : Prop :=
  ∀ (n : DstId) (s : State), s.dev.live = true → s.dev.dstRuns n = true →
    (s.dev.flag (F.DST_CTRL_opaque n) = false → (s.dev.dstm n).fly = none → s.dev.pathProc n = none →
      Completes (.destFrameBoundary n) s fun t =>
        t.layerSel n 0 = s.dev.layerChoice n 0 (s.dev.fld (F.DST_CUR_VIDEO_source n))
          (s.dev.flag (F.DST_CUR_VIDEO_line_mode n)) (s.dev.boundary n) ∧
        (t.dstm n).lines = [] ∧ t.route n = s.dev.route n ∧ KeepsMem s.dev t) ∧
    (∀ field2 : Bool, s.dev.flag (F.DST_CTRL_opaque n) = false → Completes (.destSwitchPoint n field2) s fun t =>
      let due := fun (p : PendTake) => decide (p.frame ≤ (s.dev.dstTiming n).2) && p.field2 == field2
      (t.dstm n).resolved = (s.dev.dstm n).resolved ++ (s.dev.dstm n).pend.filter due ∧
      (t.dstm n).pend = (s.dev.dstm n).pend.filter (fun p => !due p) ∧ t.regs = s.dev.regs ∧ KeepsMem s.dev t) ∧
    (∀ (field2 : Bool) (p : PendTake), (s.dev.dstm n).resolved = [p] → p.video = true → p.layer = none →
      Completes (.destSwitchLine n field2) s fun t =>
        t.fld (F.DST_CUR_VIDEO_source n) = p.source % 4096 ∧ (t.dstm n).resolved = [] ∧
        t.rd (R.DST_CNT_TAKES n) = min (s.dev.rd (R.DST_CNT_TAKES n) + 1) 0xFFFFFFFF ∧
        t.rd64 (R.DST_LANDED_LO n) (R.DST_LANDED_HI n) = (s.dev.dstTiming n).2 % 2 ^ 64 ∧ KeepsMem s.dev t) ∧
    (∀ field2 : Bool, (s.dev.dstm n).resolved = [] → (s.dev.dstm n).modeDue = none →
      Completes (.destSwitchLine n field2) s fun t => t.route n = s.dev.route n ∧
        t.rd (R.DST_CNT_TAKES n) = s.dev.rd (R.DST_CNT_TAKES n) ∧ KeepsMem s.dev t)

/-- SCANOUT_TILE_ROW_FETCH, SCANOUT_LINE_EMIT and DEST_FRAME_EMITTED (R122, R128, R190). -/
def Obligations.DestinationsFetchBuildAndMeasureLines : Prop :=
  ∀ (n : DstId) (s : State), s.dev.live = true → s.dev.dstRuns n = true →
    (∀ (layer : Fin 3) (row : Nat), (s.dev.layerSel n layer).off = false → (s.dev.layerSel n layer).slot.isSome = true →
      (∀ f : Frame, s.dev.selFrame (s.dev.layerSel n layer) = some f → f.phase = .complete →
        s.dev.rowErrors (s.dev.store (s.dev.layerSel n layer).code) f row = 0 → Completes (.scanoutTileRowFetch n layer row) s fun t =>
          t.layerSel n layer = { s.dev.layerSel n layer with fetched := (s.dev.layerSel n layer).fetched ++ [row] } ∧
          t.regs = s.dev.regs ∧ t.mem = s.dev.mem) ∧
      (s.dev.selFrame (s.dev.layerSel n layer) = none → Completes (.scanoutTileRowFetch n layer row) s fun t =>
          t.layerSel n layer = { s.dev.layerSel n layer with off := true } ∧ t.flag (underrunAlarm n layer) = true ∧
          t.rd (R.DST_CNT_UNDERRUN n) = min (s.dev.rd (R.DST_CNT_UNDERRUN n) + 1) 0xFFFFFFFF ∧
          KeepsRegs s.dev t (fun r => r = R.DST_ALARM n ∨ r = R.DST_CNT_UNDERRUN n) ∧ t.mem = s.dev.mem)) ∧
    (∀ out : Nat, s.dev.flag (F.DST_CTRL_opaque n) = false →
      (∀ line, activeLine (s.dev.dstTiming n).1.format out = some line → (∀ l ∈ [0, 1, 2], s.dev.missing n l line = false) →
        Completes (.scanoutLineEmit n out) s fun t =>
          KV.get [] (t.dstm n).lines line = s.dev.outLine n line ∧ KeepsMem s.dev t) ∧
      (activeLine (s.dev.dstTiming n).1.format out = none → Completes (.scanoutLineEmit n out) s fun t =>
        t.regs = s.dev.regs ∧ t.mem = s.dev.mem)) ∧
    (s.dev.fst (.dst n) = .on → s.dev.flag (F.DST_CTRL_opaque n) = false → Completes (.destFrameEmitted n) s fun t =>
      let ls := s.dev.emitted n
      let lumas := ls.flatMap fun l => (l.zipIdx.filter fun e => lumaWord (s.dev.fld (F.DST_CTRL_out_sampling n)) e.2).map fun e => e.1 % 4096
      t.rd (R.DMON_DIGEST n) = crc32c (pelBytes (ls.flatMap id)) % 2 ^ 32 ∧
      t.rd (R.DMON_SEQ n) = (s.dev.dstTiming n).2 % 2 ^ 32 ∧ t.flag (F.DMON_STATUS_monitoring n) = true ∧
      t.fld (F.DMON_LUMA_min n) = lumas.foldl min 4095 ∧ t.fld (F.DMON_LUMA_max n) = lumas.foldl max 0 ∧
      KeepsRegs s.dev t (fun r => r.kind ∈ [RK.DMON_DIGEST, .DMON_LUMA, .DMON_SEQ, .DMON_STATUS, .DMON_ALARM, .MVH_GR_STATUS,
        .MVH_GR_MEAS, .MVH_GR_CNT, .MVH_CNT_SCRUPLE_MISMATCH, .MVH_ALARM]) ∧ KeepsMem s.dev t)

/-- PROC_SET, PROC_LUT3D_LOAD, PROC_LUT3D_FREE, PROC_CURVE_LOAD, PROC_COEF_LOAD and PROC_QUERY (R145, R150, R158, R164, R165). -/
def Obligations.ProcessorCommandsSetWhatTheyName : Prop :=
  ∀ (h : Hdr) (s : State),
    (∀ b : ProcSetBody, let c : PrcCfg := ⟨b.regs, b.mtx⟩
      s.dev.Admits h (procSetSpec b) →
      (s.dev.opened h (procSetSpec b)).procCheck b.proc c (s.dev.actsFor h (procSetSpec b)) = none →
      (c.publish = true ∨ s.dev.dstIdle c.dest = false → Completes (.procSet h b) s fun t =>
        (∀ l ∈ procLeaders b.proc c, ∃ frame, (t.prcm l.1).pend = (s.dev.prcm l.1).pend ++ [(s.dev.x.ctl.fresh, frame, l.2)]) ∧
        KeepsMem s.dev t) ∧
      (c.publish = false → s.dev.dstIdle c.dest = true → Completes (.procSet h b) s fun t =>
        ∀ l ∈ procLeaders b.proc c, (t.prcm l.1).cfg = some l.2)) ∧
    (∀ b : LutLoadBody, s.dev.Admits h (lutLoadSpec b) → (s.dev.lutUsers b.slot).isEmpty = true →
      s.dev.fld (F.LUT3D_STATE_state b.slot) ≠ 3 → s.dev.rd (R.LUT3D_LOADED b.slot) ≤ 35937 →
      Completes (.procLut3dLoad h b) s fun t =>
        (∀ k < b.entries.length, let e := b.entries.getD k (0, 0, 0)
          KV.get 0 (KV.get [] t.x.luts b.slot) (b.first + k) = e.1 + e.2.1 * 2 ^ 12 + e.2.2 * 2 ^ 24) ∧
        t.rd (R.LUT3D_LOADED b.slot) = max (s.dev.rd (R.LUT3D_LOADED b.slot)) (b.first + b.entries.length) ∧
        t.fld (F.LUT3D_STATE_state b.slot) = (if b.last then 2 else 1) ∧ Answered t h (lutLoadSpec b) .done 0 [] ∧
        KeepsRegs s.dev t (fun r => commandWord r ∨ r = R.LUT3D_LOADED b.slot ∨ r = R.LUT3D_STATE b.slot) ∧ KeepsMem s.dev t) ∧
    (∀ slot : Nat, s.dev.Admits h (lutFreeSpec slot) →
      ((s.dev.lutUsers slot).isEmpty = true → Completes (.procLut3dFree h slot) s fun t =>
        t.fld (F.LUT3D_STATE_state slot) = 0 ∧ t.rd (R.LUT3D_LOADED slot) = 0 ∧ KV.get [] t.x.luts slot = [] ∧
        Answered t h (lutFreeSpec slot) .done 0 [] ∧ KeepsMem s.dev t) ∧
      ((s.dev.lutUsers slot).isEmpty = false → Completes (.procLut3dFree h slot) s fun t =>
        t.fld (F.LUT3D_STATE_state slot) = 3 ∧ t.x.luts = s.dev.x.luts ∧ Answered t h (lutFreeSpec slot) .deferred 0 [] ∧
        KeepsMem s.dev t)) ∧
    (∀ b : CurveLoadBody, s.dev.Admits h (curveLoadSpec b) → Completes (.procCurveLoad h b) s fun t =>
      KV.get [] (t.prcm b.proc).shadowCurves b.curve = b.entries ∧ Answered t h (curveLoadSpec b) .done 0 [] ∧
      KeepsRegs s.dev t commandWord ∧ KeepsMem s.dev t) ∧
    (∀ b : CoefLoadBody, s.dev.Admits h (coefLoadSpec b) →
      (bankValid b.bank b.coefs = true → Completes (.procCoefLoad h b) s fun t =>
        KV.get [] (t.prcm b.proc).shadowBanks b.bank = b.coefs ∧ Answered t h (coefLoadSpec b) .done 0 [] ∧
        KeepsRegs s.dev t commandWord ∧ KeepsMem s.dev t) ∧
      (bankValid b.bank b.coefs = false → Completes (.procCoefLoad h b) s fun t =>
        t.x.prc = s.dev.x.prc ∧ Answered t h (coefLoadSpec b) .rejected Reason.badCoef [] ∧
        KeepsRegs s.dev t commandWord ∧ KeepsMem s.dev t)) ∧
    (∀ p : Nat, s.dev.Admits h (procQuerySpec p) → Completes (.procQuery h p) s fun t =>
      Answered t h (procQuerySpec p) .done 0 ([s.dev.rd (R.PRC_FSTATE p), s.dev.rd (R.PRC_LOAD p), s.dev.rd (R.PRC_ELLS p),
        s.dev.fld (F.PRC_ELLS_vtaps_eff p), s.dev.rd (R.PRC_ALARM p)] ++
        (match (s.dev.prcm p).cfg with | some c => c.words ++ c.mtx | none => [])) ∧
      KeepsRegs s.dev t commandWord ∧ KeepsMem s.dev t)

/-- PROC_OUTPUT_BOUNDARY and PROC_FRAME_COMPLETE (R144, R159, R161). -/
def Obligations.ProcessorsProduceTheirFrames : Prop :=
  ∀ (p : PrcId) (c : PrcCfg) (s : State), s.dev.live = true → s.dev.fst (.prc p) = .on → (s.dev.prcm p).cfg = some c →
    c.publish = true → c.enable = true → (s.dev.prcm p).pend = [] →
    let k := s.dev.otgFrame c.otg
    let b := s.dev.toHt (s.dev.otgm c.otg).src (s.dev.otgm c.otg).start
    ((s.dev.prcm p).job = none →
      (s.dev.codeFmt (s.dev.procInput c) = none ∨ (∃ i, s.dev.codeFmt (s.dev.procInput c) = some i ∧
        let ev := s.dev.procEval p c i
        ((ev.overload || (!ev.bypass && (ev.short || ev.missing))) = true ∨ s.dev.procJob p c k b false ev = none)) →
        Completes (.procOutputBoundary p) s fun t => (t.prcm p).job = none ∧
          t.rd (R.PRC_CNT_NO_FRAME p) = min (s.dev.rd (R.PRC_CNT_NO_FRAME p) + 1) 0xFFFFFFFF ∧
          t.flag (F.PRC_ALARM_no_frame p) = true ∧ t.flag (F.PRC_STATUS_producing p) = false ∧ KeepsMem s.dev t) ∧
      (∀ i j few broken, s.dev.codeFmt (s.dev.procInput c) = some i →
        (let ev := s.dev.procEval p c i
         (ev.overload || (!ev.bypass && (ev.short || ev.missing))) = false ∧
         s.dev.procJob p c k b false ev = some (j, few, broken)) →
        Completes (.procOutputBoundary p) s fun t => KeepsMem s.dev t ∧
          ((∃ slot, (t.prcm p).job = some { j with slot := slot } ∧
            ∃ fr ∈ (t.store (procCode p c)).frames, fr.phase = .writing ∧ fr.rcd.seq = k % 2 ^ 32 ∧ fr.rcd.slot = slot) ∨
           (t.prcm p).job = none ∧
            t.rd (R.PRC_CNT_NO_FRAME p) = min (s.dev.rd (R.PRC_CNT_NO_FRAME p) + 1) 0xFFFFFFFF))) ∧
    (∀ (j : PrcJob) (fr : Frame), (s.dev.prcm p).job = some j → fr ∈ (s.dev.store (procCode p c)).frames →
      fr.phase = .writing → fr.rcd.seq = j.frame % 2 ^ 32 →
      (∀ e ∈ (s.dev.store (procCode p c)).frames, e.rcd.seq = fr.rcd.seq → e = fr) →
      Completes (.procFrameComplete p) s fun t => (t.prcm p).job = none ∧ t.rd (R.PRC_SEQ p) = j.frame % 2 ^ 32 ∧
        t.rd (R.PRC_CNT_FRAMES p) = min (s.dev.rd (R.PRC_CNT_FRAMES p) + 1) 0xFFFFFFFF ∧
        t.flag (F.PRC_STATUS_producing p) = true ∧
        ∃ e ∈ (t.store (procCode p c)).frames, e.rcd.seq = fr.rcd.seq ∧ e.phase = .complete ∧ e.rcd.slot = fr.rcd.slot)

/-- MV_SET, MV_LAYOUT, MV_TEXT, MV_TALLY, MV_GUARD, MV_FONT_SET, MV_FONT_LOAD and MV_QUERY (R181, R182, R188, R194). -/
def Obligations.MultiviewerCommandsWriteTheirHeads : Prop :=
  ∀ (h : Hdr) (s : State),
    let takes := fun (i : Instr) (head : Nat) (ws : List (Reg × Nat)) (off : List Field) => Completes i s fun t =>
      (∀ e ∈ ws, t.rd e.1 = e.2) ∧ (∀ f ∈ off, t.fld f = 0) ∧
      (t.mvhm head).pend = (s.dev.mvhm head).pend ++ [s.dev.x.ctl.fresh] ∧ KeepsMem s.dev t ∧
      KeepsRegs s.dev t fun r => commandWord r ∨ (∃ e ∈ ws, e.1 = r) ∨ (∃ f ∈ off, f.reg = r) ∨ r.kind ∈ [RK.HBM_PLAN, .SURF_REFS]
    (∀ b : MvSetBody, s.dev.Admits h (mvSetSpec b) → b.head < 32 →
      (let d := s.dev.opened h (mvSetSpec b)
       ((each (mvSetRegs b.head b) fun e => wr e.1 e.2).run d).mvhCheck d b.head = none) →
      takes (.mvSet h b) b.head (mvSetRegs b.head b) []) ∧
    (∀ b : MvLayoutBody, s.dev.Admits h (mvLayoutSpec b) → b.head < 32 →
      (let d := s.dev.opened h (mvLayoutSpec b)
       ((seq [each (mvLayoutRegs b.head b.tiles) fun e => wr e.1 e.2,
          each ((List.range 64).drop b.tiles.length) fun t => setF (F.MVH_T_SRC_enable b.head t) 0]).run d).mvhCheck d b.head = none) →
      takes (.mvLayout h b) b.head (mvLayoutRegs b.head b.tiles)
        (((List.range 64).drop b.tiles.length).map fun t => F.MVH_T_SRC_enable b.head t)) ∧
    (∀ b : MvTextBody, s.dev.Admits h (mvTextSpec b) → b.head < 32 → b.tile < 64 →
      takes (.mvText h b) b.head
        ((List.range 8).map fun i => (R.MVH_T_TEXT b.head b.tile i, ofLeBytes ((b.text.drop (4 * i)).take 4))) []) ∧
    (∀ b : MvTallyBody, s.dev.Admits h (mvTallySpec b) → b.head < 32 → b.tile < 64 → Completes (.mvTally h b) s fun t =>
      t.fld (F.MVH_T_DECO_tally b.head b.tile) = b.tally ∧
      (t.mvhm b.head).pend = (s.dev.mvhm b.head).pend ++ [s.dev.x.ctl.fresh] ∧ KeepsMem s.dev t) ∧
    (∀ b : MvGuardBody, s.dev.Admits h (mvGuardSpec b) → b.head < 32 → b.region < 16 → bitsOf b.x 16 16 % 2 = 0 →
      bitsOf b.x 0 16 % 2 = 0 → Completes (.mvGuard h b) s fun t =>
        t.fld (F.MVH_GR_CTRL_mode b.head b.region) = b.ctrl ∧ t.rd (R.MVH_GR_EXPECT b.head b.region) = b.expect ∧
        t.reg (R.MVH_GR_X b.head b.region) = BitVec.ofNat 32 b.x &&& implMask (R.MVH_GR_X b.head b.region) ∧
        t.reg (R.MVH_GR_Y b.head b.region) = BitVec.ofNat 32 b.y &&& implMask (R.MVH_GR_Y b.head b.region) ∧
        (t.mvhm b.head).pend = (s.dev.mvhm b.head).pend ++ [s.dev.x.ctl.fresh] ∧ KeepsMem s.dev t) ∧
    (∀ b : FontSetBody, s.dev.Admits h (fontSetSpec b) → b.font < 4 → 8 ≤ b.height → b.height ≤ 64 → b.baseline < 128 →
      b.defaultCp < 2 ^ 21 → Completes (.mvFontSet h b) s fun t =>
        t.fld (F.FONT_HDR_height b.font) = b.height ∧ t.fld (F.FONT_HDR_baseline b.font) = b.baseline ∧
        t.rd (R.FONT_DEFAULT_CP b.font) = b.defaultCp ∧ Answered t h (fontSetSpec b) .done 0 [] ∧ KeepsMem s.dev t) ∧
    (∀ b : FontLoadBody, s.dev.Admits h (fontLoadSpec b) → b.font < 4 → b.slot < 8192 → 1 ≤ b.width → b.width ≤ 64 →
      b.cp < 2 ^ 21 → s.dev.fld (F.FONT_HDR_height b.font) ≠ 0 →
      b.bitmap.length = glyphBytes (s.dev.fld (F.FONT_HDR_height b.font)) b.width →
      (∀ g < 8192, g ≠ b.slot → s.dev.flag (F.GLYPH_ID_valid g) = true → s.dev.fld (F.GLYPH_ID_font g) = b.font →
        s.dev.fld (F.GLYPH_ID_code_point g) ≠ b.cp) → Completes (.mvFontLoad h b) s fun t =>
        t.flag (F.GLYPH_ID_valid b.slot) = true ∧ t.fld (F.GLYPH_ID_font b.slot) = b.font ∧
        t.fld (F.GLYPH_ID_code_point b.slot) = b.cp ∧ t.rd (R.GLYPH_WIDTH b.slot) = b.width ∧
        Answered t h (fontLoadSpec b) .done 0 [] ∧
        (∀ a, t.mem.get a ≠ s.dev.mem.get a → ∃ base i, t.fontBase = some base ∧ i < b.bitmap.length ∧
          a = base + 2048 * b.slot + i ∧ t.mem.get a = b.bitmap.getD i 0)) ∧
    (∀ head < 32, s.dev.Admits h (mvQuerySpec head) → Completes (.mvQuery h head) s fun t =>
      Answered t h (mvQuerySpec head) .done 0 ([s.dev.rd (R.MVH_FSTATE head), s.dev.rd (R.MVH_LOAD head)] ++
        ((List.range 64).map fun k => s.dev.rd (R.MVH_T_STATUS head k)) ++
        ((List.range 16).map fun r => s.dev.rd (R.MVH_GR_STATUS head r)) ++
        (s.dev.mvhm head).cfg.flatMap fun e => [e.1.addr, e.2.toNat]) ∧
      KeepsRegs s.dev t commandWord ∧ KeepsMem s.dev t)

/-- MV_HEAD_BOUNDARY and MV_HEAD_ROW_COMPOSED (R169, R171, R185, R187). -/
def Obligations.HeadsLandComposeAndComplete : Prop :=
  ∀ (h : HeadId) (s : State), s.dev.live = true →
    ((s.dev.mvhm h).pend ≠ [] → Completes (.mvHeadBoundary h) s fun t =>
      (t.mvhm h).cfg = s.dev.mvhWords h ∧ (t.mvhm h).pend = [] ∧ (t.mvhm h).configured = true) ∧
    (s.dev.fst (.mvh h) = .on → (s.dev.mvhm h).pend = [] → (s.dev.mvhm h).job = none → (s.dev.mvhm h).fly = none →
      s.dev.fld (F.MVH_CTRL_otg h) < 32 → s.dev.on (.otg (Fin.ofNat 32 (s.dev.fld (F.MVH_CTRL_otg h)))) = true →
      (1 ≤ s.dev.shedStage → Completes (.mvHeadBoundary h) s fun t => t.flag (F.MVH_STATUS_shed_repeat h) = true ∧
        t.flag (F.MVH_STATUS_producing h) = false ∧ (t.mvhm h).job = none ∧ KeepsMem s.dev t) ∧
      (∀ slot, let k := (s.dev.mvhTiming h).2
        s.dev.shedStage = 0 → (s.dev.store (headCode h)).alloc = true →
        ((mvhRelease h).run s.dev).chooseSlot (((mvhRelease h).run s.dev).store (headCode h)) (k % 2 ^ 32) = some slot →
        Completes (.mvHeadBoundary h) s fun t => t.flag (F.MVH_STATUS_shed_repeat h) = false ∧ KeepsMem s.dev t ∧
          (∃ j, (t.mvhm h).job = some j ∧ j.frame = k ∧ j.slot = slot ∧ j.rows = []) ∧
          ∃ fr ∈ (t.store (headCode h)).frames, fr.phase = .writing ∧ fr.rcd.seq = k % 2 ^ 32 ∧ fr.rcd.slot = slot)) ∧
    (∀ (j : MvhJob) (row : Nat) (late : List Nat), s.dev.fst (.mvh h) = .on → (s.dev.mvhm h).job = some j →
      row < tileRows (s.dev.mvhTiming h).1.format → j.rows.contains row = false →
      (j.rows.length + 1 < tileRows (s.dev.mvhTiming h).1.format → Completes (.mvHeadRowComposed h row late) s fun t =>
        ((t.mvhm h).job.map fun g => (g.frame, g.slot, g.rows)) = some (j.frame, j.slot, j.rows ++ [row])) ∧
      (∀ fr ∈ (s.dev.store (headCode h)).frames, tileRows (s.dev.mvhTiming h).1.format ≤ j.rows.length + 1 →
        fr.phase = .writing → fr.rcd.seq = j.frame % 2 ^ 32 →
        (∀ e ∈ (s.dev.store (headCode h)).frames, e.rcd.seq = fr.rcd.seq → e = fr) →
        Completes (.mvHeadRowComposed h row late) s fun t =>
          (t.mvhm h).job = none ∧ t.rd (R.MVH_SEQ h) = j.frame % 2 ^ 32 ∧
          t.rd (R.MVH_CNT_FRAMES h) = min (s.dev.rd (R.MVH_CNT_FRAMES h) + 1) 0xFFFFFFFF ∧
          t.flag (F.MVH_STATUS_producing h) = true ∧
          ∃ e ∈ (t.store (headCode h)).frames, e.rcd.seq = fr.rcd.seq ∧ e.phase = .complete))

/-- AUDIO_MAP, AUDIO_BIND, AUDIO_GROUP, AUDIO_TONE, AUDIO_MONITOR and AUDIO_QUERY (R210, R212, R217, R219, R227). -/
def Obligations.AudioCommandsLandAtTheirBlock : Prop :=
  ∀ (h : Hdr) (s : State),
    let waits := fun (i : Instr) (l : List AudChange) => Completes i s fun t =>
      t.x.aud.pend = s.dev.x.aud.pend ++ l.map (fun c =>
        { id := s.dev.x.ctl.fresh, land := s.dev.audBlock + 2, change := c }) ∧
      KeepsRegs s.dev t commandWord ∧ KeepsMem s.dev t
    (s.dev.fst .aud = .on →
      (∀ b : AudioMapBody, s.dev.Admits h (audioMapSpec b) → b.first + b.entries.length ≤ s.dev.audCh → b.entries ≠ [] →
        (∀ e ∈ b.entries, (bitsOf e.1 30 2 = 1 → bitsOf e.1 0 15 < s.dev.audGs) ∧
          (bitsOf e.1 30 2 = 2 → bitsOf e.1 0 15 < s.dev.audCh)) →
        (∀ k < b.entries.length, ∀ n, s.dev.audOwner (b.first + k) = some n → s.dev.fld (F.DST_HOLD_state n) ≠ 2 ∧
          (s.dev.fld (F.DST_HOLD_state n) = 1 → s.dev.fld (F.DST_HOLD_owner n) = b.controller)) →
        waits (.audioMap h b) (b.entries.zipIdx.map fun e => .entry (b.first + e.2) e.1.1 e.1.2)) ∧
      (∀ b : AudioBindBody, s.dev.Admits h (audioBindSpec b) → b.first + b.entries.length ≤ s.dev.audCh → b.entries ≠ [] →
        b.entries.all bindingOk = true →
        waits (.audioBind h b) (b.entries.zipIdx.map fun e => .bind (b.first + e.2) e.1)) ∧
      (∀ b : AudioGroupBody, s.dev.Admits h (audioGroupSpec b) → b.delay ≤ 48000 →
        b.base + (if b.kind = 0 then s.dev.audGs else b.count) ≤ s.dev.audCh →
        (b.kind = 1 → b.count ≤ s.dev.audCarried b.index) →
        (b.kind = 0 → ∀ m < 1024, m ≠ b.index → s.dev.fld (F.AUD_SGRP_base m) < b.base + s.dev.audGs →
          b.base < s.dev.fld (F.AUD_SGRP_base m) + s.dev.audGs → s.dev.fld (F.AUD_SGRP_DELAY_delay m) = b.delay) →
        waits (.audioGroup h b) [.group b.kind b.index b.base b.count b.delay]) ∧
      (∀ b : AudioToneBody, s.dev.Admits h (audioToneSpec b) → 1 ≤ b.freq → b.freq ≤ 20000 → b.level ≤ 960 →
        waits (.audioTone h b) [.tone b.generator b.freq b.level]) ∧
      (∀ b : AudioMonitorBody, s.dev.Admits h (audioMonitorSpec b) → b.index < (if b.kind = 0 then 2048 else 128) →
        (∀ w ∈ (if b.kind = 0 then b.values else b.values.drop 1), bitsOf w 0 15 < s.dev.audCh) →
        waits (.audioMonitor h b) [.monitor b.kind b.index b.values])) ∧
    (∀ b : AudioToneBody, s.dev.Admits h (audioToneSpec b) → s.dev.fst .aud ≠ .on → s.dev.x.aud.pend = [] → 1 ≤ b.freq →
      b.freq ≤ 20000 → b.level ≤ 960 → Completes (.audioTone h b) s fun t =>
        t.rd (R.AUD_TONE b.generator) = 2 ^ 31 + b.freq ∧ t.rd (R.AUD_TONE_LEVEL b.generator) = b.level ∧
        t.x.aud.pend = [] ∧ Answered t h (audioToneSpec b) .done 0 [] ∧ KeepsMem s.dev t) ∧
    (∀ b : AudioQueryBody, s.dev.Admits h (audioQuerySpec b) → b.first + b.count ≤ s.dev.audCh →
      Completes (.audioQuery h b) s fun t =>
        Answered t h (audioQuerySpec b) .done 0 ((List.range b.count).flatMap fun k => let c := b.first + k
          if b.inputs then [s.dev.rd (R.AIN_BIND c), s.dev.rd (R.AIN_STATE c)]
          else [s.dev.rd (R.AOUT_ROUTE c), s.dev.rd (R.AOUT_GAIN c), s.dev.rd (R.AOUT_METER c)]) ∧
        KeepsRegs s.dev t commandWord ∧ KeepsMem s.dev t)

/-- AUDIO_BLOCK_BOUNDARY, AUDIO_INPUT_RETURN, ASRC_RETURN, LOUDNESS_UPDATE, SILENCE_DETECT, TWIN_AUDIO_MSG, AUDIO_SAP, SAP_FRAME, SAP_QUALIFIED and SAP_CLOCK_LOSS (R200 to R209, R214, R222, R223, R237, R242). -/
def Obligations.AudioBlocksAndSerialPortsRun : Prop :=
  ∀ s : State, s.dev.live = true →
    (s.dev.fst .aud = .on →
      (∀ late : List Nat, Completes (.audioBlockBoundary late []) s fun t =>
        t.rd64 R.AUD_BLOCK_LO R.AUD_BLOCK_HI = s.dev.audBlock % 2 ^ 64 ∧ t.flag F.AUD_STATUS_running = true ∧
        (∀ id land g f l, s.dev.x.aud.pend = [{ id := id, land := land, change := .tone g f l }] → land ≤ s.dev.audBlock →
          g < 16 → f < 2 ^ 15 → l < 1024 →
          t.rd (R.AUD_TONE g) = 2 ^ 31 + f ∧ t.rd (R.AUD_TONE_LEVEL g) = l ∧ t.x.aud.pend = []) ∧ KeepsMem s.dev t) ∧
      (∀ c : ChanId, (s.dev.ainState c = 1 ∨ s.dev.ainState c = 5) → s.dev.fld (F.AIN_BIND_kind c) ≠ 4 →
        8 ≤ (s.dev.ain c).complete → Completes (.audioInputReturn c) s fun t =>
          t.ainState c ∈ [2, 3, 4] ∧ (s.dev.audSync c = true → t.ainState c = 2) ∧ KeepsMem s.dev t) ∧
      (Completes .loudnessUpdate s fun t =>
        (∀ g < 128, s.dev.flag (F.AUD_LG_CTRL_enable g) = true →
          let m := fun n => loudMean (KV.get [] s.dev.x.aud.loud g) ((List.range 16).map fun i => s.dev.fld (F.AUD_LG_CH_weight g i)) n
          t.rd (R.AUD_LG_M g) = codeOf 16 (max (-700) (Config.lufs (m 400))) ∧
          t.rd (R.AUD_LG_S g) = codeOf 16 (max (-700) (Config.lufs (m 3000)))) ∧
        KeepsRegs s.dev t (fun r => r.kind ∈ [RK.AUD_LG_M, .AUD_LG_S] ∧ s.dev.flag (F.AUD_LG_CTRL_enable r.i) = true) ∧
        KeepsMem s.dev t) ∧
      (∀ k : Fin 2048, s.dev.flag (F.AUD_SIL_CTRL_enable k) = true →
        s.dev.fld (F.AUD_SIL_CTRL_duration k) * 1000 ≤ KV.get 0 s.dev.x.aud.silent k → Completes (.silenceDetect k) s fun t =>
          t.flag (F.AUD_SIL_STATUS_silent k) = true ∧ t.flag F.AUD_ALARM_silence = true ∧
          KeepsRegs s.dev t (fun r => r = R.AUD_SIL_STATUS k ∨ r = F.AUD_ALARM_silence.reg) ∧ KeepsMem s.dev t)) ∧
    (∀ (c : ChanId) (at_ : Nat), s.dev.fld (F.AIN_BIND_asrc c) = 0 → s.dev.ainState c = 2 → (s.dev.ain c).chan.isSome = true →
      (s.dev.ain c).syncAt = some at_ → at_ + secU ≤ s.dev.x.time.clk → Completes (.asrcReturn c) s fun t =>
        t.ain c = { s.dev.ain c with chan := none } ∧ KeepsRegs s.dev t (fun r => r = F.AUD_ASRC_used.reg) ∧ KeepsMem s.dev t) ∧
    (∀ m : AudioMsg, s.dev.lockstep = true → s.dev.rd64 R.AUD_BLOCK_LO R.AUD_BLOCK_HI < m.block →
      Completes (.twinAudioMsg m) s fun t =>
        t.x.aud.mirrors = s.dev.x.aud.mirrors ++ [m] ∧ t.regs = s.dev.regs ∧ t.mem = s.dev.mem) ∧
    (∀ (h : Hdr) (b : AudioSapBody), s.dev.Admits h (audioSapSpec b) → b.port < 16 →
      framingOk (b.values.getD 0 0) (b.values.getD 2 0) = true →
      bitsOf (b.values.getD 5 0) 0 15 + sapSlots (b.values.getD 0 0) (b.values.getD 2 0) ≤ s.dev.audCh →
      Completes (.audioSap h b) s fun t => (∀ e ∈ sapRegs b.port b.values, t.rd e.1 = e.2) ∧
        t.rd (R.SAP_CTRL b.port) = putBits (b.values.getD 0 0) 0 1 (s.dev.fld (F.SAP_CTRL_enable b.port)) ∧
        Answered t h (audioSapSpec b) .done 0 [] ∧ KeepsMem s.dev t) ∧
    (∀ p : SapId, s.dev.fst (.sap p) = .on →
      (∀ f : SapFrameIn,
        let usable := fun r => s.dev.sapMatch p f.period = some r ∧
          (s.dev.flag (F.SAP_CTRL_mode p) = true ∨ r = s.dev.audRateCode)
        (∀ r, s.dev.sapState p = 0 → usable r → s.dev.sapCount p f = true → Completes (.sapFrame p f) s fun t =>
          t.sapState p = 1 ∧ t.fld (F.SAP_CLK_STATE_rate p) = r ∧ t.rd (R.SAP_QUAL_COUNT p) = 1 ∧ KeepsMem s.dev t) ∧
        (s.dev.sapState p = 0 → (∀ r, ¬ usable r) → Completes (.sapFrame p f) s fun t =>
          t.sapState p = 0 ∧ t.flag (F.SAP_STATUS_rate_unsupported p) = true ∧
          t.flag (F.SAP_ALARM_rate_unsupported p) = true ∧ KeepsMem s.dev t) ∧
        (s.dev.sapState p = 1 → usable (s.dev.fld (F.SAP_CLK_STATE_rate p)) → s.dev.sapCount p f = true →
          Completes (.sapFrame p f) s fun t => t.sapState p = 1 ∧
            t.rd (R.SAP_QUAL_COUNT p) = min 65535 (s.dev.rd (R.SAP_QUAL_COUNT p) + 1) ∧ KeepsMem s.dev t) ∧
        (s.dev.sapState p = 2 → 2 ≤ s.dev.fld (F.SAP_CLK_STATE_bad_run p) →
          (s.dev.sapCount p f && s.dev.sapNear p (s.dev.fld (F.SAP_CLK_STATE_rate p)) f.period) = false →
          Completes (.sapFrame p f) s fun t => t.sapState p = 1 ∧ t.flag (F.SAP_STATUS_requal p) = true ∧
            t.rd (R.SAP_CNT_REQUAL p) = min (s.dev.rd (R.SAP_CNT_REQUAL p) + 1) 0xFFFFFFFF ∧ KeepsMem s.dev t)) ∧
      (s.dev.sapState p = 1 → s.dev.sapQualFrames p ≤ s.dev.rd (R.SAP_QUAL_COUNT p) → Completes (.sapQualified p) s fun t =>
        t.sapState p = 2 ∧ t.flag (F.SAP_STATUS_data_released p) = true ∧ t.flag (F.SAP_STATUS_clock_lost p) = false ∧
        (t.sapm p).released = s.dev.x.time.ht ∧ KeepsMem s.dev t) ∧
      (s.dev.sapState p = 1 ∨ s.dev.sapState p = 2 → Completes (.sapClockLoss p) s fun t =>
        t.sapState p = 0 ∧ t.flag (F.SAP_STATUS_clock_lost p) = true ∧ t.flag (F.SAP_ALARM_clock_lost p) = true ∧
        t.rd (R.SAP_CNT_CLOCK_LOST p) = min (s.dev.rd (R.SAP_CNT_CLOCK_LOST p) + 1) 0xFFFFFFFF ∧ KeepsMem s.dev t))

/-- HLK_SIGNAL_DETECT, HLK_SIGNAL_LOSS, HLK_BLOCK_LOCK, HLK_BLOCK_LOCK_LOST, HLK_FEC_LOCK, HLK_FEC_LOCK_LOST, HLK_UP_TIMEOUT, NO_STATE, WAKE_FAIL, HLK_STATE_RX, HLK_STATE_TX, HLK_IDLE_ENTER and HLK_WAKE_BURST (R253 to R256, R273, R278 to R280). -/
def Obligations.HoltutReceiversFollowTheirStates : Prop :=
  ∀ (l : LaneId) (s : State), s.dev.live = true → s.dev.fst (.hlk l) = .on →
    (s.dev.rxState l = 0 → Completes (.hlkSignalDetect l) s fun t => t.rxState l = 1 ∧ KeepsMem s.dev t) ∧
    (s.dev.rxState l = 5 → Completes (.hlkSignalDetect l) s fun t => t.rxState l = 2 ∧ (t.hlkm l).fromIdle = true ∧ KeepsMem s.dev t) ∧
    (s.dev.rxState l ≠ 0 → s.dev.rxState l ≠ 5 → ∀ at_, (s.dev.hlkm l).sleepAt = some at_ →
      s.dev.x.time.clk ≤ at_ + 1000000 * nsU → Completes (.hlkSignalLoss l) s fun t => t.rxState l = 5 ∧ KeepsMem s.dev t) ∧
    (s.dev.rxState l ≠ 0 → (s.dev.hlkm l).sleepAt = none → Completes (.hlkSignalLoss l) s fun t =>
      t.rxState l = 0 ∧ t.flag (F.HLK_STATE_link_up l) = false ∧ t.flag (F.HLK_ALARM_link_down l) = true ∧ KeepsMem s.dev t) ∧
    (s.dev.rxState l = 2 → Completes (.hlkBlockLock l) s fun t => t.rxState l = (if s.dev.hlkFec l then 3 else 4) ∧ KeepsMem s.dev t) ∧
    (s.dev.rxState l = 3 ∨ s.dev.rxState l = 4 → Completes (.hlkBlockLockLost l) s fun t => t.rxState l = 2 ∧
      t.rd (R.HLK_CNT_BLOCK_LOSS l) = min (s.dev.rd (R.HLK_CNT_BLOCK_LOSS l) + 1) 0xFFFFFFFF ∧
      t.flag (F.HLK_ALARM_block_lock_lost l) = true ∧ KeepsMem s.dev t) ∧
    (s.dev.rxState l = 3 → Completes (.hlkFecLock l) s fun t => t.rxState l = 4 ∧ KeepsMem s.dev t) ∧
    (s.dev.rxState l = 4 → s.dev.hlkFec l = true → Completes (.hlkFecLockLost l) s fun t =>
      t.rxState l = 3 ∧ t.flag (F.HLK_ALARM_fec_lock_lost l) = true ∧ KeepsMem s.dev t) ∧
    (s.dev.rxState l = 2 ∨ s.dev.rxState l = 3 →
      ((s.dev.hlkm l).fromIdle = false → (s.dev.fnm (.hlk l)).retries = [] → Completes (.hlkUpTimeout l) s fun t =>
        t.rxState l = 1 ∧ t.rd (R.HLK_CNT_RETRAIN l) = min (s.dev.rd (R.HLK_CNT_RETRAIN l) + 1) 0xFFFFFFFF ∧
        t.flag (F.HLK_ALARM_retrain l) = true ∧ t.fst (.hlk l) = .on ∧ KeepsMem s.dev t) ∧
      ((s.dev.hlkm l).fromIdle = true → Completes (.wakeFail l) s fun t => t.rxState l = 1 ∧
        (t.hlkm l).fromIdle = false ∧ t.flag (F.HLK_ALARM_wake_fail l) = true ∧ KeepsMem s.dev t)) ∧
    (s.dev.rxState l = 4 →
      (Completes (.noState l) s fun t => t.rxState l = 1 ∧ t.flag (F.HLK_ALARM_no_state l) = true ∧
        t.flag (F.HLK_STATE_link_up l) = false ∧
        t.rd (R.HLK_CNT_RETRAIN l) = min (s.dev.rd (R.HLK_CNT_RETRAIN l) + 1) 0xFFFFFFFF ∧ KeepsMem s.dev t) ∧
      (∀ b : Block66,
        (b.header = 2 → blockByte b 0 = 0x4B → blockCrcOk b = true → Completes (.hlkStateRx l b) s fun t =>
          t.fld (F.HLK_STATE_far_role l) = bitsOf (blockByte b 1) 2 2 ∧
          t.fld (F.HLK_STATE_far_select l) = bitsOf (blockByte b 1) 1 1 ∧
          t.fld (F.HLK_STATE_far_lockstep l) = bitsOf (blockByte b 1) 4 1 ∧
          t.fld (F.HLK_STATE_far_rx_up l) = bitsOf (blockByte b 1) 0 1 ∧
          t.rd (R.HLK_FAR_ID l) = bitsOf b.payload 24 32 ∧ t.fld (F.HLK_FAR_EPOCH l) = blockByte b 2 ∧
          (bitOf (blockByte b 1) 0 = true → t.flag (F.HLK_STATE_link_up l) = true) ∧ KeepsMem s.dev t) ∧
        (b.header ≠ 2 ∨ blockByte b 0 ≠ 0x4B ∨ blockCrcOk b = false → Completes (.hlkStateRx l b) s fun t =>
          t.rd (R.HLK_CNT_BAD_BLOCK l) = min (s.dev.rd (R.HLK_CNT_BAD_BLOCK l) + 1) 0xFFFFFFFF ∧
          Keeps s.dev t fun r => r = R.HLK_CNT_BAD_BLOCK l))) ∧
    (s.dev.hlkSending l = true →
      (Completes (.hlkStateTx l) s fun t => (∃ o, t.x.out = s.dev.x.out ++ .hlkBlock l (s.dev.stateBlock l) :: o) ∧
        t.regs = s.dev.regs ∧ KeepsMem s.dev t) ∧
      (s.dev.flag (F.HLK_CTRL_idle_en l) = true → s.dev.fld (F.HLK_CTRL_role l) = 0 → s.dev.hlkBound l = false →
        Completes (.hlkIdleEnter l) s fun t => t.fld (F.HLK_STATE_tx_state l) = 1 ∧
          Keeps s.dev t fun r => r = R.HLK_STATE l)) ∧
    (s.dev.fld (F.HLK_STATE_tx_state l) = 1 → Completes (.hlkWakeBurst l false) s fun t =>
      t.fld (F.HLK_STATE_tx_state l) = 2 ∧ (∃ o, t.x.out = s.dev.x.out ++ .hlkBurst l :: o) ∧ Keeps s.dev t fun r => r = R.HLK_STATE l) ∧
    (s.dev.fld (F.HLK_STATE_tx_state l) = 2 → Completes (.hlkWakeBurst l true) s fun t =>
      t.fld (F.HLK_STATE_tx_state l) = 0 ∧ Keeps s.dev t fun r => r = R.HLK_STATE l)

/-- HLK_FEC_FRAME_RX, the six HLK segment receptions, HLK_FRAGMENT_TIMEOUT and HLK_TIME_TX (R252, R257, R258, R260, R261, R270, R272). -/
def Obligations.HoltutLinksCountAndCarrySegments : Prop :=
  ∀ (l : LaneId) (s : State), s.dev.live = true → s.dev.fst (.hlk l) = .on →
    (s.dev.rxState l = 4 →
      (∀ f : FecFrame, s.dev.hlkFec l = true →
        (∀ e, fecDecode f.blocks = some e → Completes (.hlkFecFrameRx l f) s fun t =>
          t.fld (F.HLK_FEC_COUNTER l) = bitsOf (checkBits f.blocks) 248 8 ∧
          t.rd (R.HLK_CNT_FEC_CORR l) = min (s.dev.rd (R.HLK_CNT_FEC_CORR l) + e.2) 0xFFFFFFFF ∧ KeepsMem s.dev t) ∧
        (fecDecode f.blocks = none → Completes (.hlkFecFrameRx l f) s fun t =>
          t.rd (R.HLK_CNT_FEC_UNCORR l) = min (s.dev.rd (R.HLK_CNT_FEC_UNCORR l) + 1) 0xFFFFFFFF ∧
          t.flag (F.HLK_ALARM_fec_uncorr l) = true ∧ KeepsMem s.dev t)) ∧
      (∀ g : Segment, let f := g.flow % 64
        ∀ e ∈ [(Instr.hlkVideoSegmentRx l g, 1, videoOk g), (.hlkAudioBundleRx l g, 2, audioOk g),
            (.hlkAncSegmentRx l g, 3, decide (16 ≤ g.data.length) && (segEntries g).isSome),
            (.hlkOpaqueSegmentRx l g, 4, decide (12 ≤ leAt g.data 8 2) && decide (leAt g.data 8 2 ≤ 9000) &&
              g.data.length == 8 * ceilDiv (20 + leAt g.data 8 2) 8), (.hlkTimeSegmentRx l g, 5, g.data.length == 48),
            (.hlkTwinFragmentRx l g, 6, twinOk g)],
          (g.version ≠ 1 ∨ kindCarried (s.dev.hlkTwin l) g.kind = false → Completes e.1 s fun t =>
            t.rd (R.HLK_CNT_BAD_KIND l) = min (s.dev.rd (R.HLK_CNT_BAD_KIND l) + 1) 0xFFFFFFFF ∧
            t.flag (F.HLK_ALARM_bad_kind l) = true ∧
            KeepsRegs s.dev t (fun r => r = R.HLK_CNT_BAD_KIND l ∨ r = R.HLK_ALARM l) ∧ KeepsMem s.dev t) ∧
          (g.version = 1 → kindCarried (s.dev.hlkTwin l) g.kind = true → g.kind = e.2.1 →
            ((segWhole g && e.2.2) = true → Completes e.1 s fun t =>
              t.rd (R.HLK_CNT_SEG_RX l) = min (s.dev.rd (R.HLK_CNT_SEG_RX l) + 1) 0xFFFFFFFF ∧
              t.rd (R.HLK_RXF_SEGS l f) = min (s.dev.rd (R.HLK_RXF_SEGS l f) + 1) 0xFFFFFFFF ∧
              t.flag (F.HLK_RXF_STATUS_active l f) = true ∧
              KV.get none (t.hlkm l).rxSeq (16 * f + g.kind) = some (g.seq % 65536)) ∧
            ((segWhole g && e.2.2) = false → Completes e.1 s fun t =>
              t.rd (R.HLK_CNT_SEG_BAD l) = min (s.dev.rd (R.HLK_CNT_SEG_BAD l) + 1) 0xFFFFFFFF ∧
              t.rd (R.HLK_RXF_BAD l f) = min (s.dev.rd (R.HLK_RXF_BAD l f) + 1) 0xFFFFFFFF ∧
              t.flag (F.HLK_ALARM_seg_bad l) = true ∧ KeepsMem s.dev t))) ∧
      (∀ g : Segment, s.dev.hlkTwin l = true → g.version = 1 → g.kind = 6 → segWhole g = true → twinOk g = true →
        s.dev.x.twinAsm = [] → s.dev.x.twin.delivered = none → leAt g.data 2 2 = 0 → leAt g.data 4 4 ≤ 9196 →
        16 + leAt g.data 4 4 ≤ g.data.length → 1 ≤ leAt g.data 0 2 → leAt g.data 0 2 ≤ 8 →
        Completes (.hlkTwinFragmentRx l g) s fun t =>
          t.x.twinIn = s.dev.x.twinIn ++ [{ type := leAt g.data 0 2, seq := leAt g.data 8 4
                                            body := (g.data.drop 16).take (leAt g.data 4 4) }] ∧
          t.x.twinAsm = [] ∧ KeepsMem s.dev t)) ∧
    (∀ p r, s.dev.x.twinAsm = p :: r → Completes (.hlkFragmentTimeout l) s fun t =>
      t.x.twinAsm = (twinDeliver r).1 ∧
      t.rd (R.HLK_CNT_SEG_LOST l) = min (s.dev.rd (R.HLK_CNT_SEG_LOST l) + p.frags.length) 0xFFFFFFFF ∧
      t.flag (F.HLK_ALARM_seg_lost l) = true ∧ KeepsMem s.dev t) ∧
    (s.dev.hlkSending l = true → s.dev.flag (F.HLK_STATE_link_up l) = true → Completes (.hlkTimeTx l) s fun t =>
      (∃ g o, t.x.out = s.dev.x.out ++ .hlkSegment l g :: o ∧ g.kind = 5 ∧ g.flow = 0 ∧ g.stamp = s.dev.x.time.ht) ∧
      t.rd (R.HLK_CNT_SEG_TX l) = min (s.dev.rd (R.HLK_CNT_SEG_TX l) + 1) 0xFFFFFFFF ∧ KeepsMem s.dev t)

/-- LANE_ADAPT_COMPLETE, LANE_EQ_STEP, LT_COEF_REQUEST, LANE_MONITOR_UPDATE, LOW_MARGIN, LANE_SCAN_GO, SCAN_DONE, LANE_SIGNAL_DETECT, LANE_SIGNAL_LOSS, LANE_CDR_LOCK_LOSS, LANE_PLL_UNLOCK, REFCLK_LOST and REFCLK_RESTORED (R287 to R296). -/
def Obligations.LanesAdaptReportAndLoseSignal : Prop :=
  (∀ (l : LaneId) (s : State), s.dev.live = true → s.dev.fst (.lane l) = .on →
    (s.dev.flag (F.LANE_CTRL_rx_en l) = true → Completes (.laneSignalDetect l) s fun t =>
      t.flag (F.LANE_STATUS_signal l) = true ∧ KeepsMem s.dev t ∧
      (s.dev.fld (F.LANE_EQ_STATE_adapt l) ≠ 1 → s.dev.lanePers l ≠ 1 → t.fld (F.LANE_EQ_STATE_adapt l) = 1 ∧
        t.rd (R.LANE_CNT_ADAPT l) = min (s.dev.rd (R.LANE_CNT_ADAPT l) + 1) 0xFFFFFFFF)) ∧
    (∀ q : EqTarget, s.dev.fld (F.LANE_EQ_STATE_adapt l) = 1 → Completes (.laneAdaptComplete l q) s fun t =>
      t.fld (F.LANE_EQ_STATE_adapt l) = (if s.dev.eqMode l = 2 then 3 else 2) ∧ t.flag (F.LANE_STATUS_cdr_lock l) = true ∧
      (s.dev.eqMode l ≠ 2 →
        (t.fld (F.LANE_EQ_STATE_ctle_cur l) : Int) = clampI (s.dev.ctleWin l).1 (s.dev.ctleWin l).2 q.ctle ∧
        (t.fld (F.LANE_EQ_STATE_vga_cur l) : Int) = clampI (s.dev.vgaWin l).1 (s.dev.vgaWin l).2 q.vga) ∧ KeepsMem s.dev t) ∧
    (∀ q : EqTarget, 2 ≤ s.dev.fld (F.LANE_EQ_STATE_adapt l) → s.dev.eqMode l ≠ 2 → Completes (.laneEqStep l q) s fun t =>
      (t.fld (F.LANE_EQ_STATE_ctle_cur l) : Int) = eqStep (s.dev.ctleWin l) (s.dev.fld (F.LANE_EQ_STATE_ctle_cur l)) q.ctle ∧
      (t.fld (F.LANE_EQ_STATE_vga_cur l) : Int) = eqStep (s.dev.vgaWin l) (s.dev.fld (F.LANE_EQ_STATE_vga_cur l)) q.vga ∧
      ((t.fld (F.LANE_EQ_STATE_ctle_cur l) : Int) - s.dev.fld (F.LANE_EQ_STATE_ctle_cur l)).natAbs ≤ 1 ∧
      KeepsRegs s.dev t (fun r => r.kind ∈ [RK.LANE_EQ_STATE, .LANE_DFE, .LANE_DFFE, .LANE_ALARM] ∧ r.i = l) ∧ KeepsMem s.dev t) ∧
    (s.dev.lanePers l = 2 → s.dev.flag (F.LANE_EQ_MODE_lt_en l) = true →
      (∀ q : LtRequest, s.dev.eqMode l = 2 → Completes (.ltCoefRequest l q) s fun t =>
        (∃ o, t.x.out = s.dev.x.out ++ .ltAnswer l .notUpdated :: o) ∧ t.regs = s.dev.regs ∧ KeepsMem s.dev t) ∧
      (∀ tap ∈ s.dev.txTaps l, s.dev.eqMode l = 0 →
        (s.dev.sfld (F.LANE_TXFFE l tap) < 63 → -63 ≤ s.dev.sfld (F.LANE_TXFFE l tap) →
          Completes (.ltCoefRequest l (.inc tap)) s fun t =>
            t.sfld (F.LANE_TXFFE l tap) = s.dev.sfld (F.LANE_TXFFE l tap) + 1 ∧ Output.ltAnswer l .updated ∈ t.x.out ∧
            KeepsRegs s.dev t (fun r => r = R.LANE_TXFFE l tap ∨ r = R.LANE_ALARM l) ∧ KeepsMem s.dev t) ∧
        (s.dev.sfld (F.LANE_TXFFE l tap) = 63 → Completes (.ltCoefRequest l (.inc tap)) s fun t =>
            t.sfld (F.LANE_TXFFE l tap) = 63 ∧ Output.ltAnswer l .maximum ∈ t.x.out ∧ KeepsMem s.dev t))) ∧
    (∀ m : LaneMon, 2 ≤ s.dev.fld (F.LANE_EQ_STATE_adapt l) → Completes (.laneMonitorUpdate l m) s fun t =>
      t.rd (R.LANE_SNR l) = min m.snr 1023 ∧
      t.rd (R.LANE_CNT_MON_ERR l) = min (s.dev.rd (R.LANE_CNT_MON_ERR l) + m.errors) 0xFFFFFFFF ∧
      Keeps s.dev t fun r => r.kind ∈ [RK.LANE_EYE_H, .LANE_EYE_W, .LANE_SNR, .LANE_CNT_MON_ERR] ∧ r.i = l) ∧
    (s.dev.rd (R.LANE_SNR l) < s.dev.fld (F.LANE_MARGIN_snr_min l) → Completes (.lowMargin l true) s fun t =>
      t.flag (F.LANE_STATUS_low_margin l) = true ∧
      KeepsRegs s.dev t (fun r => r = R.LANE_STATUS l ∨ r = R.LANE_ALARM l) ∧ KeepsMem s.dev t) ∧
    (s.dev.fld (F.LANE_MARGIN_snr_min l) + 10 < s.dev.rd (R.LANE_SNR l) → Completes (.lowMargin l false) s fun t =>
      t.flag (F.LANE_STATUS_low_margin l) = false ∧ Keeps s.dev t fun r => r = R.LANE_STATUS l) ∧
    (Completes (.laneScanGo l) s fun t =>
      t.fld (F.LANE_SCAN_RESULT_status l) = (if s.dev.fld (F.LANE_EQ_STATE_adapt l) = 1 then 0 else 1) ∧
      (t.lanem l).scanWait = decide (s.dev.fld (F.LANE_EQ_STATE_adapt l) = 1) ∧
      KeepsRegs s.dev t (fun r => r = R.LANE_SCAN_RESULT l) ∧ KeepsMem s.dev t) ∧
    (∀ errors, s.dev.fld (F.LANE_SCAN_RESULT_status l) = 1 → Completes (.scanDone l errors) s fun t =>
      t.fld (F.LANE_SCAN_RESULT_status l) = 2 ∧ t.fld (F.LANE_SCAN_RESULT_errors l) = min errors 0xFFFFFF ∧
      t.flag (F.LANE_ALARM_scan_done l) = true ∧
      KeepsRegs s.dev t (fun r => r = R.LANE_SCAN_RESULT l ∨ r = R.LANE_ALARM l) ∧ KeepsMem s.dev t) ∧
    (Completes (.laneSignalLoss l) s fun t => t.flag (F.LANE_STATUS_signal l) = false ∧
      t.rd (R.LANE_CNT_SIGNAL_LOSS l) = min (s.dev.rd (R.LANE_CNT_SIGNAL_LOSS l) + 1) 0xFFFFFFFF ∧
      t.flag (F.LANE_ALARM_signal_lost l) = true ∧
      KeepsRegs s.dev t (fun r => r.kind ∈ [RK.LANE_STATUS, .LANE_CNT_SIGNAL_LOSS, .LANE_ALARM] ∧ r.i = l) ∧ KeepsMem s.dev t) ∧
    (Completes (.laneCdrLockLoss l) s fun t => t.flag (F.LANE_STATUS_cdr_lock l) = false ∧
      t.rd (R.LANE_CNT_CDR_LOSS l) = min (s.dev.rd (R.LANE_CNT_CDR_LOSS l) + 1) 0xFFFFFFFF ∧
      t.flag (F.LANE_ALARM_cdr_lock_lost l) = true ∧
      KeepsRegs s.dev t (fun r => r.kind ∈ [RK.LANE_STATUS, .LANE_CNT_CDR_LOSS, .LANE_ALARM] ∧ r.i = l) ∧ KeepsMem s.dev t)) ∧
  (∀ (q : QuadId) (s : State), s.dev.live = true → s.dev.fst (.quad q) = .on →
    (∀ pll : Fin 2, Completes (.lanePllUnlock q pll false) s fun t =>
      t.flag (if pll = 0 then F.QUAD_STATUS_pll_a_lock q else F.QUAD_STATUS_pll_b_lock q) = false ∧
      t.flag (if pll = 0 then F.QUAD_ALARM_pll_a_unlock q else F.QUAD_ALARM_pll_b_unlock q) = true ∧
      (∀ l ∈ quadLanes q, s.dev.fst (.lane l) = .on → s.dev.laneNeedsPll l = true → s.dev.lanePll l = some pll.val →
        t.fst (.lane l) = .fault ∧ (t.fw (.lane l)).code = 2) ∧ KeepsMem s.dev t) ∧
    (Completes (.refclkLost q) s fun t => t.flag (F.QUAD_STATUS_refclk_ok q) = false ∧
      t.flag (F.QUAD_ALARM_refclk_lost q) = true ∧ t.fst (.quad q) = .fault ∧ (t.fw (.quad q)).code = 3 ∧
      (∀ l ∈ quadLanes q, s.dev.fst (.lane l) = .on → s.dev.flag (F.LANE_CTRL_enable l) = true →
        t.fst (.lane l) = .fault ∧ (t.fw (.lane l)).code = 4) ∧ KeepsMem s.dev t)) ∧
  (∀ (q : QuadId) (s : State), s.dev.live = true → s.dev.fst (.quad q) = .fault → (s.dev.fw (.quad q)).code = 3 →
    (s.dev.fnm (.quad q)).reinits = [] → Completes (.refclkRestored q) s fun t =>
      t.flag (F.QUAD_STATUS_refclk_ok q) = true ∧ t.fst (.quad q) = .stopping ∧ (t.fw (.quad q)).rung = 2 ∧ KeepsMem s.dev t)

/-- SDI_SIGNAL_DETECT, SDI_SEARCH_DWELL, SDI_CDR_LOCK, SDI_ALIGN_COMPLETE, SDI_CDR_UNLOCK, SDI_LOS, SDI_LINE_RX, SDI_ANC_PACKET_RX and SDI_TX_LINE (R303 to R307, R311, R312, R315). -/
def Obligations.SdiReceiversSearchLockCountAndSend : Prop :=
  ∀ (l : LaneId) (s : State), s.dev.live = true → s.dev.fst (.sdi l) = .on →
    (s.dev.fst (.lane l) = .on → s.dev.flag (F.LANE_CTRL_rx_en l) = true → s.dev.sdiState l = 0 →
      Completes (.sdiSignalDetect l) s fun t => t.sdiState l = 1 ∧ (t.sdim l).try_ = s.dev.sdiNext l 0 ∧ KeepsMem s.dev t) ∧
    (s.dev.sdiState l = 1 → Completes (.sdiSearchDwell l) s fun t => t.sdiState l = 1 ∧
      (t.sdim l).try_ = s.dev.sdiNext l ((s.dev.sdim l).try_ + 1) ∧ t.fld (F.LANE_EQ_STATE_adapt l) = 1 ∧
      t.rd (R.LANE_CNT_ADAPT l) = min (s.dev.rd (R.LANE_CNT_ADAPT l) + 1) 0xFFFFFFFF ∧ KeepsMem s.dev t) ∧
    (∀ rate, s.dev.sdiState l = 1 →
      (s.dev.sdiCode l rate = true → rate ∈ searchOrder.getD (s.dev.sdim l).try_ [] → Completes (.sdiCdrLock l rate) s fun t =>
        t.sdiState l = 2 ∧ t.fld (F.SDI_RX_STATE_rate l) = rate ∧ t.fld (F.LANE_STATUS_rx_rate l) = rate ∧
        t.flag (F.LANE_STATUS_cdr_lock l) = true ∧
        KeepsRegs s.dev t (fun r => r = R.SDI_RX_STATE l ∨ r = R.LANE_STATUS l) ∧ KeepsMem s.dev t) ∧
      (s.dev.sdiCode l rate = false ∨ rate ∉ searchOrder.getD (s.dev.sdim l).try_ [] → Completes (.sdiCdrLock l rate) s fun t =>
        t.regs = s.dev.regs ∧ KeepsMem s.dev t)) ∧
    (∀ levelB rows, s.dev.sdiState l = 2 → Completes (.sdiAlignComplete l levelB rows) s fun t =>
      t.sdiState l = 3 ∧ t.flag (F.SDI_STATUS_rx_running l) = true ∧ t.flag (F.SDI_RX_STATE_level_b l) = levelB ∧
      KeepsRegs s.dev t (fun r => r = R.SDI_RX_STATE l ∨ r = R.SDI_STATUS l) ∧ KeepsMem s.dev t) ∧
    (2 ≤ s.dev.sdiState l → Completes (.sdiCdrUnlock l) s fun t => t.sdiState l = 1 ∧
      (t.sdim l).try_ = s.dev.sdiNext l 0 ∧ (s.dev.sdiState l = 3 → t.flag (F.SDI_STATUS_rx_running l) = false) ∧
      KeepsMem s.dev t) ∧
    (s.dev.sdiState l ≠ 0 → Completes (.sdiLos l) s fun t => t.sdiState l = 0 ∧
      (s.dev.sdiState l = 3 → t.flag (F.SDI_STATUS_rx_running l) = false) ∧ t.flag (F.SDI_ALARM_los l) = true ∧
      t.rd (R.SDI_CNT_LOS l) = min (s.dev.rd (R.SDI_CNT_LOS l) + 1) 0xFFFFFFFF ∧ KeepsMem s.dev t) ∧
    (s.dev.sdiState l = 3 →
      (∀ v : SdiLine,
        (v.trs = false → Completes (.sdiLineRx l v) s fun t =>
          t.rd (R.SDI_CNT_TRS l) = min (s.dev.rd (R.SDI_CNT_TRS l) + 1) 0xFFFFFFFF ∧ t.flag (F.SDI_ALARM_trs_err l) = true ∧
          t.sdiState l = (if 7 ≤ (s.dev.sdim l).badTrs ∨ v.changed = true then 2 else 3)) ∧
        (v.trs = true → v.changed = true → Completes (.sdiLineRx l v) s fun t => t.sdiState l = 2 ∧
          t.flag (F.SDI_STATUS_rx_running l) = false ∧ KeepsMem s.dev t) ∧
        (v.trs = true → v.changed = false → s.dev.fld (F.SDI_RX_STATE_rate l) ≠ 0xC →
          (v.number = false → Completes (.sdiLineRx l v) s fun t => t.flag (F.SDI_ALARM_ln_err l) = true ∧
            t.rd (R.SDI_CNT_LN l) = min (s.dev.rd (R.SDI_CNT_LN l) + 1) 0xFFFFFFFF) ∧
          (v.crc = false → Completes (.sdiLineRx l v) s fun t => t.flag (F.SDI_ALARM_crc_err l) = true ∧
            t.rd (R.SDI_CNT_CRC l) = min (s.dev.rd (R.SDI_CNT_CRC l) + 1) 0xFFFFFFFF) ∧
          (v.number = true → v.crc = true → v.line ≠ 1 → v.last = false → v.active = none →
            Completes (.sdiLineRx l v) s fun t => (t.sdim l).badTrs = 0 ∧ t.regs = s.dev.regs ∧ KeepsMem s.dev t))) ∧
      (∀ bytes link levelB, 
        (Completes (.sdiAncPacketRx l { stream := 1, bad := true, body := .vpid bytes link levelB }) s fun t =>
          t.rd (R.SDI_CNT_ANC_CSUM l) = min (s.dev.rd (R.SDI_CNT_ANC_CSUM l) + 1) 0xFFFFFFFF ∧
          t.flag (F.SDI_ALARM_anc_csum l) = true ∧
          KeepsRegs s.dev t (fun r => r = R.SDI_CNT_ANC_CSUM l ∨ r = R.SDI_ALARM l) ∧ KeepsMem s.dev t) ∧
        (Completes (.sdiAncPacketRx l { stream := 1, bad := false, body := .vpid bytes link levelB }) s fun t =>
          t.rd (R.SDI_RX_VPID l) = bytes % 2 ^ 32 ∧ t.flag (F.SDI_RX_STATE_vpid_valid l) = true ∧
          t.fld (F.SDI_RX_STATE_link_number l) = link % 16 ∧ t.flag (F.SDI_RX_STATE_level_b l) = levelB ∧
          KeepsRegs s.dev t (fun r => r = R.SDI_RX_VPID l ∨ r = R.SDI_RX_STATE l) ∧ KeepsMem s.dev t)) ∧
      (∀ group samples nonPcm, s.dev.sdiQuad l = false →
        Completes (.sdiAncPacketRx l { stream := 1, bad := false, body := .audio group samples nonPcm false }) s fun t =>
          t.rd (R.SDI_CNT_AUD_ERR l) = min (s.dev.rd (R.SDI_CNT_AUD_ERR l) + 1) 0xFFFFFFFF ∧
          t.flag (F.SDI_ALARM_aud_err l) = true ∧
          KeepsRegs s.dev t (fun r => r = R.SDI_CNT_AUD_ERR l ∨ r = R.SDI_ALARM l) ∧ KeepsMem s.dev t)) ∧
    (∀ (n line : Nat), s.dev.fst (.lane l) = .on → s.dev.flag (F.LANE_CTRL_tx_en l) = true → s.dev.sdiDest l = some n →
      s.dev.dstRuns n = true → s.dev.sdiQuad l = false → 1 ≤ line → line ≤ fmtTotalLines (s.dev.dstFormat n) →
      (s.dev.sdiMute l = true → Completes (.sdiTxLine l line) s fun t => t.flag (F.SDI_STATUS_tx_muted l) = true ∧
        (∀ v, Output.sdiLine l v ∈ t.x.out → Output.sdiLine l v ∈ s.dev.x.out) ∧
        Keeps s.dev t fun r => r = R.SDI_STATUS l) ∧
      (s.dev.sdiMute l = false → s.dev.flag (F.SDI_STATUS_tx_muted l) = false ∨ line = 1 →
        Completes (.sdiTxLine l line) s fun t => t.flag (F.SDI_STATUS_tx_muted l) = false ∧
          (∃ v o, t.x.out = s.dev.x.out ++ .sdiLine l v :: o ∧ v.line = line ∧
            (activeLine (s.dev.dstFormat n) line = none → v.active = [])) ∧
          KeepsRegs s.dev t (fun r => r.kind ∈ [RK.SDI_STATUS, .SDI_CNT_ANC_DROP, .SDI_ALARM] ∧ r.i = l) ∧ KeepsMem s.dev t))

/-- MAC_LINK_CHANGE, MAC_FRAME_RX, FLOW_SEQ_RELEASE and FLOW_LEG_LOST (R320 to R324, R327 to R329). -/
def Obligations.PortsReceiveMatchAndMergeFrames : Prop :=
  (∀ (m : MacId) (s : State), s.dev.live = true → s.dev.fst (.mac m) = .on →
    (∀ k : MacLink, let up := k.pcsLock && !k.localFault && !k.remoteFault
      Completes (.macLinkChange m k) s fun t => t.flag (F.MAC_STATUS_pcs_lock m) = k.pcsLock ∧
        t.flag (F.MAC_STATUS_local_fault m) = k.localFault ∧ t.flag (F.MAC_STATUS_remote_fault m) = k.remoteFault ∧
        t.flag (F.MAC_STATUS_link_up m) = up ∧
        t.flag (F.MAC_ALARM_link_down m) = (s.dev.flag (F.MAC_ALARM_link_down m) ||
          (up != s.dev.flag (F.MAC_STATUS_link_up m))) ∧
        KeepsRegs s.dev t (fun r => r = R.MAC_STATUS m ∨ r = R.MAC_ALARM m) ∧ KeepsMem s.dev t) ∧
    (s.dev.flag (F.MAC_STATUS_link_up m) = true → ∀ f : EthFrame,
      (Completes (.macFrameRx m f) s fun t =>
        t.rd (R.MAC_CNT_RX_FRAMES m) = min (s.dev.rd (R.MAC_CNT_RX_FRAMES m) + 1) 0xFFFFFFFF ∧
        t.rd (R.MAC_CNT_FEC_CORR m) = min (s.dev.rd (R.MAC_CNT_FEC_CORR m) + f.fecCorr) 0xFFFFFFFF) ∧
      (s.dev.flag (F.MAC_CTRL_deliver_bad m) = false → f.fcs = false ∨ f.symbols = false → Completes (.macFrameRx m f) s fun t =>
        t.rd (R.MAC_CNT_RX_FCS m) = min (s.dev.rd (R.MAC_CNT_RX_FCS m) + 1) 0xFFFFFFFF ∧
        KeepsRegs s.dev t (fun r => r.kind ∈ [RK.MAC_CNT_RX_FRAMES, .MAC_CNT_FEC_CORR, .MAC_CNT_FEC_UNCORR, .MAC_ALARM,
          .MAC_CNT_RX_FULL, .MAC_CNT_RX_FCS] ∧ r.i = m) ∧ KeepsMem s.dev t) ∧
      (s.dev.flag (F.MAC_CTRL_deliver_bad m) = false → f.fcs = true → f.symbols = true →
        f.length < 64 ∨ s.dev.maxFrame m f.tags.length < f.length ∨ f.lengths = false → Completes (.macFrameRx m f) s fun t =>
        t.rd (R.MAC_CNT_RX_LEN m) = min (s.dev.rd (R.MAC_CNT_RX_LEN m) + 1) 0xFFFFFFFF ∧
        KeepsRegs s.dev t (fun r => r.kind ∈ [RK.MAC_CNT_RX_FRAMES, .MAC_CNT_FEC_CORR, .MAC_CNT_FEC_UNCORR, .MAC_ALARM,
          .MAC_CNT_RX_FULL, .MAC_CNT_RX_LEN] ∧ r.i = m) ∧ KeepsMem s.dev t) ∧
      (s.dev.errorWord m f = 0 →
        (s.dev.macTakes m f.dest = false → Completes (.macFrameRx m f) s fun t =>
          t.rd (R.MAC_CNT_RX_NOMATCH m) = min (s.dev.rd (R.MAC_CNT_RX_NOMATCH m) + 1) 0xFFFFFFFF ∧
          KeepsRegs s.dev t (fun r => r.kind ∈ [RK.MAC_CNT_RX_FRAMES, .MAC_CNT_FEC_CORR, .MAC_CNT_FEC_UNCORR, .MAC_ALARM,
            .MAC_CNT_RX_NOMATCH] ∧ r.i = m) ∧ KeepsMem s.dev t) ∧
        (∀ (q g : Nat) (p : RtpPacket), m.val < 96 → s.dev.macTakes m f.dest = true → s.dev.flowMatch m f = some (q, g) →
          q < 8192 → f.body = .rtp p → s.dev.on (flowRxFn q) = true → s.dev.ssrcBad q p = false →
          (p.version ≠ 2 ∨ p.pt ≠ s.dev.fld (F.FLOW_RX_CTRL_pt q) → Completes (.macFrameRx m f) s fun t =>
            t.rd (R.FLOW_RX_CNT_ERR q) = min (s.dev.rd (R.FLOW_RX_CNT_ERR q) + 1) 0xFFFFFFFF ∧
            t.flag (F.FLOW_RX_ALARM_pkt_err q) = true ∧ KeepsMem s.dev t) ∧
          (p.version = 2 → p.pt = s.dev.fld (F.FLOW_RX_CTRL_pt q) →
            let seen := (s.dev.frx q).seen.any fun e => e.1 == s.dev.rxUnwrap q p
            let released := ∃ n, (s.dev.frx q).next = some n ∧ seqAfter (s.dev.rxUnwrap q p) n < 0
            (seen = true → Completes (.macFrameRx m f) s fun t =>
              t.rd (R.FLOW_RX_CNT_DUP q) = min (s.dev.rd (R.FLOW_RX_CNT_DUP q) + 1) 0xFFFFFFFF ∧
              t.rd (R.FLOW_RX_CNT_PKTS q) = s.dev.rd (R.FLOW_RX_CNT_PKTS q) ∧ KeepsMem s.dev t) ∧
            (released → Completes (.macFrameRx m f) s fun t =>
              t.rd (R.FLOW_RX_CNT_LATE q) = min (s.dev.rd (R.FLOW_RX_CNT_LATE q) + 1) 0xFFFFFFFF ∧
              t.rd (R.FLOW_RX_CNT_PKTS q) = s.dev.rd (R.FLOW_RX_CNT_PKTS q) ∧ KeepsMem s.dev t) ∧
            (seen = false → ¬ released → Completes (.macFrameRx m f) s fun t =>
              t.rd (R.FLOW_RX_CNT_PKTS q) = min (s.dev.rd (R.FLOW_RX_CNT_PKTS q) + 1) 0xFFFFFFFF ∧
              t.flag (F.FLOW_RX_STATUS_receiving q) = true ∧ t.flag (F.FLOW_RX_STATUS_ssrc_locked q) = true))) ∧
        (s.dev.macTakes m f.dest = true → m.val = 96 ∨ s.dev.flowMatch m f = none →
          (∀ p, f.body = .ptp p → Completes (.macFrameRx m f) s fun t =>
            (∃ at_ o, t.x.out = s.dev.x.out ++ .fwFrame m true at_ 0 :: o) ∧ KeepsMem s.dev t) ∧
          ((∀ p, f.body ≠ .ptp p) → (s.dev.macm m).excCount < 20000 → Completes (.macFrameRx m f) s fun t =>
            (∃ o, t.x.out = s.dev.x.out ++ .fwFrame m false (f.stamp / 189) 0 :: o) ∧ KeepsMem s.dev t))))) ∧
  (∀ (q : FlowId) (s : State), s.dev.live = true → s.dev.fst (.flowRx q) = .on →
    (∀ sq, sq < 2 ^ 32 → (s.dev.frx q).next = some sq → (∃ e ∈ (s.dev.frx q).waiting, 0 < seqAfter e.1 sq) →
      Completes (.flowSeqRelease q sq) s fun t =>
        t.rd (R.FLOW_RX_CNT_LOST q) = min (s.dev.rd (R.FLOW_RX_CNT_LOST q) + 1) 0xFFFFFFFF ∧
        t.flag (F.FLOW_RX_ALARM_lost q) = true) ∧
    (s.dev.flag (F.FLOW_RX_CTRL_merge q) = true →
      (Completes (.flowLegLost q 0) s fun t => t.flag (F.FLOW_RX_STATUS_leg_a_lost q) = true ∧
        t.flag (F.FLOW_RX_ALARM_leg_a_lost q) = true ∧
        (s.dev.flag (F.FLOW_RX_STATUS_leg_b_lost q) = true → t.flag (F.FLOW_RX_STATUS_receiving q) = false ∧
          t.flag (F.FLOW_RX_STATUS_ssrc_locked q) = false ∧ (t.frx q).next = none) ∧
        KeepsRegs s.dev t (fun r => r = R.FLOW_RX_STATUS q ∨ r = R.FLOW_RX_ALARM q) ∧ KeepsMem s.dev t) ∧
      (Completes (.flowLegLost q 1) s fun t => t.flag (F.FLOW_RX_STATUS_leg_b_lost q) = true ∧
        t.flag (F.FLOW_RX_ALARM_leg_b_lost q) = true ∧
        (s.dev.flag (F.FLOW_RX_STATUS_leg_a_lost q) = true → t.flag (F.FLOW_RX_STATUS_receiving q) = false ∧
          t.flag (F.FLOW_RX_STATUS_ssrc_locked q) = false ∧ (t.frx q).next = none) ∧
        KeepsRegs s.dev t (fun r => r = R.FLOW_RX_STATUS q ∨ r = R.FLOW_RX_ALARM q) ∧ KeepsMem s.dev t)))

/-- TX_LAUNCH_SLOT, TX_LATE_DROP, GATE_WAIT_DROP, MAC_TX_COMPLETE, PTP_MESSAGE_TX, MAC_GATE_APPLY, GATE_LIST_INSTALL and GATE_ENTRY_CHANGE (R41, R43, R337 to R344). -/
def Obligations.PortsLaunchInOrderAndReportDepartures : Prop :=
  ∀ (m : MacId) (s : State), s.dev.live = true →
    (s.dev.fst (.mac m) = .on →
      (∀ under : Bool,
        let ready := (s.dev.macm m).queue.filter fun f => decide (f.slot ≤ (s.dev.x.time.clk : Int)) &&
          (match f.late with | some w => decide ((s.dev.x.time.clk : Int) ≤ f.slot + w) | none => true) && s.dev.gateOpen m f
        s.dev.flag (F.MAC_STATUS_link_up m) = true → (s.dev.macm m).sending = none → (∀ q, s.dev.flowMuted q = false) →
        ready ≠ [] → Completes (.txLaunchSlot m under) s fun t =>
          ∃ f g o, let egress := s.dev.x.time.ht + s.dev.fld (F.PORT_TX_LAT m) * 189
            f ∈ ready ∧ (∀ h ∈ ready, h.before f = false) ∧ (t.macm m).sending = some (g, egress) ∧
            (g = f ∨ ∃ k e, g.body = .ptp k (some e)) ∧ t.x.out = s.dev.x.out ++ .ethFrame m g under (egress / 189) :: o ∧
            (t.macm m).queue = ((s.dev.macm m).queue.erase f).filter (fun h => !s.dev.frameLate m h) ∧
            (under = true → t.flag (F.MAC_ALARM_tx_underrun m) = true ∧
              t.rd (R.MAC_CNT_TX_UNDERRUN m) = min (s.dev.rd (R.MAC_CNT_TX_UNDERRUN m) + 1) 0xFFFFFFFF) ∧ KeepsMem s.dev t) ∧
      (Completes (.txLateDrop m) s fun t =>
        (t.macm m).queue = (s.dev.macm m).queue.filter (fun h => !s.dev.frameLate m h) ∧
        t.rd (R.MAC_CNT_TX_LATE m) = min (s.dev.rd (R.MAC_CNT_TX_LATE m) +
          ((s.dev.macm m).queue.filter (s.dev.frameLate m)).length) 0xFFFFFFFF ∧
        KeepsRegs s.dev t (fun r => r.kind ∈ [RK.MAC_CNT_TX_LATE, .MAC_ALARM, .FLOW_TX_CNT_LATE, .FLOW_TX_ALARM]) ∧
        KeepsMem s.dev t) ∧
      (∀ f, (s.dev.macm m).queue.find? (fun f => f.late.isNone && decide (f.slot + secU ≤ (s.dev.x.time.clk : Int))) = some f →
        Completes (.gateWaitDrop m) s fun t => (t.macm m).queue = (s.dev.macm m).queue.erase f ∧ t.regs = s.dev.regs ∧
          KeepsMem s.dev t) ∧
      (∀ k : PtpTx, 1 ≤ s.dev.fld (F.PORT_PTP_CTRL_tb m) → s.dev.fld (F.PORT_PTP_CTRL_tb m) ≤ 4 →
        let one := s.dev.flag (F.TB_CTRL_one_step (s.dev.fld (F.PORT_PTP_CTRL_tb m) - 1)) && (k == .sync || k == .pdelayResp)
        let two := !one && k ≠ .announce
        Completes (.ptpMessageTx m k) s fun t =>
          (∃ f, (t.macm m).queue = (s.dev.macm m).queue ++ [f] ∧ f.body = .ptp k (if one then some 0 else none) ∧
            f.slot = (s.dev.x.time.clk : Int) ∧ f.tc = s.dev.fld (F.MAC_TC_ptp m) ∧
            f.tag = (if two then some (s.dev.rd R.MAC_TSQ_NEXT_TAG) else none)) ∧
          t.rd R.MAC_TSQ_NEXT_TAG = (if two then (s.dev.rd R.MAC_TSQ_NEXT_TAG + 1) % 2 ^ 16
            else s.dev.rd R.MAC_TSQ_NEXT_TAG) ∧
          KeepsRegs s.dev t (fun r => r = R.MAC_TSQ_NEXT_TAG) ∧ KeepsMem s.dev t)) ∧
    (∀ f e, (s.dev.macm m).sending = some (f, e) → Completes (.macTxComplete m) s fun t => (t.macm m).sending = none ∧
      t.rd (R.MAC_CNT_TX_FRAMES m) = min (s.dev.rd (R.MAC_CNT_TX_FRAMES m) + 1) 0xFFFFFFFF ∧
      (f.tag = none → t.x.tsq = s.dev.x.tsq) ∧
      (∀ tag, f.tag = some tag → s.dev.x.tsq.entries.length < 512 → ∃ r,
        t.x.tsq.entries = s.dev.x.tsq.entries ++ [(m * 2 ^ 16 + tag) :: r]) ∧ KeepsMem s.dev t) ∧
    (Completes (.macGateApply m .firmware) s fun t => t.flag (F.MAC_GATE_STATUS_pending m) = true ∧
      (∃ b, (t.macm m).pend = some b ∧ b.cycle = s.dev.rd (R.MAC_GATE_CYCLE m) * nsU ∧
        b.entries.length = clampN 1 256 (s.dev.fld (F.MAC_GATE_CTRL_len m)) ∧
        ∀ i < b.entries.length, b.entries[i]? = some (s.dev.rd (R.MAC_GCL_ADMIN m i))) ∧
      (t.macm m).gate = (s.dev.macm m).gate ∧ KeepsRegs s.dev t (fun r => r = R.MAC_GATE_STATUS m) ∧ KeepsMem s.dev t) ∧
    (Completes (.macGateApply m .host) s fun t => t.x.mac = s.dev.x.mac ∧
      t.rd R.GLB_CNT_AFL = min (s.dev.rd R.GLB_CNT_AFL + 1) 0xFFFFFFFF ∧
      KeepsRegs s.dev t (fun r => r.kind ∈ [RK.GLB_CNT_AFL, .GLB_CNT_AFL_DROP, .GLB_ALARM]) ∧ KeepsMem s.dev t) ∧
    (∀ b, (s.dev.macm m).pend = some b → b.entries.length ≤ 256 → Completes (.gateListInstall m) s fun t =>
      (t.macm m).gate = some b ∧ (t.macm m).pend = none ∧ t.flag (F.MAC_GATE_STATUS_pending m) = false ∧
      t.fld (F.MAC_GATE_STATUS_oper_len m) = b.entries.length ∧
      (∀ i e, b.entries[i]? = some e → t.reg (R.MAC_GCL_OPER m i) = (BitVec.ofNat 32 e &&& implMask (R.MAC_GCL_OPER m i))) ∧
      KeepsRegs s.dev t (fun r => r.kind ∈ [RK.MAC_GCL_OPER, .MAC_GATE_STATUS] ∧ r.i = m) ∧ KeepsMem s.dev t) ∧
    (∀ b i e, s.dev.flag (F.MAC_GATE_CTRL_enable m) = true → (s.dev.macm m).gate = some b →
      (gateSpans b.cycle b.entries 0)[i]? = some e → e.1 ≤ s.dev.gateNow m b → s.dev.gateNow m b < e.2.1 → i < 256 →
      Completes (.gateEntryChange m) s fun t => t.fld (F.MAC_GATE_STATUS_current m) = i ∧
        Keeps s.dev t fun r => r = R.MAC_GATE_STATUS m)

/-- HBM_BW_SAMPLE, HBM_REQUEST_SERVE, HBM_REFRESH, QOS_URGENCY_EVAL, HBM_SCRUB_STEP, SRAM_SCRUB_STEP, SPARE_COPY_DONE, HBM_RECAL, HBM_EYE_RETRAIN and HBM_TRAINING_COMPLETE (R27, R359 to R375). -/
def Obligations.MemoryServesRefreshesScrubsAndRepairs : Prop :=
  ∀ s : State, s.dev.live = true →
    (∀ rd wr chans, let above := decide (s.dev.rd R.HBM_PLAN_LIMIT < rd + wr)
      Completes (.hbmBwSample rd wr chans) s fun t => t.rd R.HBM_BW_RD = rd % 2 ^ 32 ∧ t.rd R.HBM_BW_WR = wr % 2 ^ 32 ∧
        (∀ c v, chans[c]? = some v → c < 64 → t.rd (R.HBM_CH_BW c) = v % 2 ^ 32) ∧
        t.x.hbm.overRun = (if above then s.dev.x.hbm.overRun + 1 else 0) ∧
        t.x.hbm.underRun = (if above then 0 else s.dev.x.hbm.underRun + 1) ∧
        t.flag F.HBM_STATUS_plan_exceeded = (if 10 ≤ t.x.hbm.overRun then true else if 10 ≤ t.x.hbm.underRun then false
          else s.dev.flag F.HBM_STATUS_plan_exceeded) ∧
        KeepsRegs s.dev t (fun r => r.kind ∈ [RK.HBM_BW_RD, .HBM_BW_WR, .HBM_CH_BW, .HBM_STATUS, .HBM_ALARM]) ∧
        KeepsMem s.dev t) ∧
    (∀ pc : Fin 128, s.dev.on (hbmChFn (pcChan pc)) = true →
      (∀ e, s.dev.hbmPick pc = some (e, true) → Completes (.hbmRequestServe { pc := pc }) s fun t =>
        KV.get [] t.x.hbm.writes pc = (KV.get [] s.dev.x.hbm.writes pc).erase e ∧ t.x.hbm.reads = s.dev.x.hbm.reads ∧
        KeepsRegs s.dev t (fun r => r.kind = .HBM_CNT_PNR_DROP ∨ r.kind = .HBM_QOS_LATE) ∧ KeepsMem s.dev t) ∧
      (∀ e, s.dev.hbmPick pc = some (e, false) → (∀ q ∈ txBursts e.tx.req, q ∉ s.dev.x.poison) →
        Completes (.hbmRequestServe { pc := pc }) s fun t =>
          KV.get [] t.x.hbm.reads pc = (KV.get [] s.dev.x.hbm.reads pc).erase e ∧ t.x.hbm.writes = s.dev.x.hbm.writes ∧
          (∀ f ∈ s.dev.x.mtx.flight, f.tx = e.tx → f.answer = none → ∃ g ∈ t.x.mtx.flight, g.tx = e.tx ∧
            g.answer = some (s.dev.mem.getBytes e.tx.req.addr (64 * e.tx.req.beats), false)) ∧
          KeepsRegs s.dev t (fun r => r.kind = .HBM_CNT_PNR_DROP ∨ r.kind = .HBM_QOS_LATE) ∧ KeepsMem s.dev t) ∧
      (∀ bank : Fin 32, let k := bankKey pc bank
        let urgent := (KV.get [] s.dev.x.hbm.reads pc).any fun e =>
          (s.dev.hbmLoc e.tx.req.addr).bank == bank.val && s.dev.fld (F.HBM_QOS_STATUS_u e.tx.port) == 3
        Completes (.hbmRefresh pc bank) s fun t =>
          (if urgent = true ∧ KV.get 0 s.dev.x.hbm.owed k < 8 then
            KV.get 0 t.x.hbm.owed k = KV.get 0 s.dev.x.hbm.owed k + 1 ∧ t.x.hbm.open_ = s.dev.x.hbm.open_
          else KV.get 0 t.x.hbm.owed k = 0 ∧ KV.get none t.x.hbm.open_ k = none ∧ KV.get [] t.x.hbm.pnr k = []) ∧
          t.regs = s.dev.regs ∧ KeepsMem s.dev t) ∧
      (∀ behind, s.dev.scrubs = true →
        (Completes (.hbmScrubStep pc [] behind) s fun t => t.flag F.HBM_STATUS_scrub_behind = behind ∧
          KV.get 0 t.x.hbm.scrub pc = (KV.get 0 s.dev.x.hbm.scrub pc + 1) % patrolBursts ∧
          KeepsRegs s.dev t (fun r => r = R.HBM_STATUS) ∧ KeepsMem s.dev t) ∧
        (∀ e : HbmErr, (s.dev.hbmLoc (e.burst * 64)).pc = pc →
          (e.ue = false → Completes (.hbmScrubStep pc [e] behind) s fun t => t.flag F.HBM_ALARM_ce = true ∧
            t.rd R.HBM_CNT_CE = min (s.dev.rd R.HBM_CNT_CE + 1) 0xFFFFFFFF ∧ KeepsMem s.dev t) ∧
          (e.ue = true → Completes (.hbmScrubStep pc [e] behind) s fun t => t.flag F.HBM_ALARM_ue = true ∧
            t.rd R.HBM_CNT_UE = min (s.dev.rd R.HBM_CNT_UE + 1) 0xFFFFFFFF ∧
            (∀ q ∈ (if e.check then s.dev.checkGroup e.burst else [e.burst]), q ∈ t.x.poison) ∧ KeepsMem s.dev t)))) ∧
    (∀ (pc : Fin 128) r p, s.dev.x.hbm.copying.find? (fun r => r.pc == pc.val) = some r → s.dev.spareRow r = some p →
      Completes (.spareCopyDone pc) s fun t => t.x.hbm.remap = s.dev.x.hbm.remap ++ [(r, p)] ∧
        t.x.hbm.copying = s.dev.x.hbm.copying.erase r ∧ t.flag F.HBM_ALARM_repair_done = true ∧
        t.rd R.HBM_CNT_SPARED = min (s.dev.rd R.HBM_CNT_SPARED + 1) 0xFFFFFFFF ∧ KeepsMem s.dev t) ∧
    (∀ slack, Completes (.qosUrgencyEval slack) s fun t =>
      (∀ m < 56, t.fld (F.HBM_QOS_STATUS_u m) = s.dev.urgency m (slack.getD m 0) ∧
        ∀ i, s.dev.flag (F.HBM_QOS_CTRL_source m) = false → s.dev.oldestTx m false = some i →
          let a := s.dev.x.time.clk - i
          let target := s.dev.fld (F.HBM_QOS_TARGET m) * nsU
          t.fld (F.HBM_QOS_STATUS_u m) = (if 4 * a < target then 0 else if 2 * a < target then 1 else if a < target then 2 else 3)) ∧
      Keeps s.dev t fun r => r.kind = .HBM_QOS_STATUS) ∧
    (∀ fk : Fin 256, s.dev.scrubs = true →
      (Completes (.sramScrubStep fk []) s fun t =>
        KV.get 0 t.x.hbm.sramScrub fk = (KV.get 0 s.dev.x.hbm.sramScrub fk + 1) % 32768 ∧ t.regs = s.dev.regs ∧
        KeepsMem s.dev t) ∧
      (∀ e : SramErr, e.word / 32768 = fk →
        (e.ue = true → Completes (.sramScrubStep fk [e]) s fun t => e.word ∈ t.x.hbm.sramPoison ∧
          t.rd (R.HBM_FK_CNT_UE fk) = min (s.dev.rd (R.HBM_FK_CNT_UE fk) + 1) 0xFFFFFFFF ∧
          KeepsRegs s.dev t (fun r => r = R.HBM_FK_CNT_UE fk) ∧ KeepsMem s.dev t) ∧
        (e.ue = false → Completes (.sramScrubStep fk [e]) s fun t =>
          t.rd (R.HBM_FK_CNT_CE fk) = min (s.dev.rd (R.HBM_FK_CNT_CE fk) + 1) 0xFFFFFFFF ∧
          KeepsRegs s.dev t (fun r => r = R.HBM_FK_CNT_CE fk) ∧ KeepsMem s.dev t))) ∧
    (∀ c : HbmChId, s.dev.fst (.hbmCh c) = .on →
      (Completes (.hbmRecal c 0) s fun t => t.regs = s.dev.regs ∧ KeepsMem s.dev t) ∧
      ((s.dev.fnm (.hbmCh c)).recovering = false → (s.dev.fnm (.hbmCh c)).reinits = [] →
        (Completes (.hbmRecal c 1) s fun t => t.fst (.hbmCh c) = .on ∧ (t.fw (.hbmCh c)).rung = 1 ∧ KeepsMem s.dev t) ∧
        (Completes (.hbmRecal c 2) s fun t => t.fst (.hbmCh c) = .stopping ∧ (t.fw (.hbmCh c)).rung = 2 ∧
          KeepsRegs s.dev t (fun r => r = R.HBM_CH_FSTATE c) ∧ KeepsMem s.dev t) ∧
        (Completes (.hbmEyeRetrain c false) s fun t => t.fst (.hbmCh c) = .stopping ∧ (t.fw (.hbmCh c)).rung = 2 ∧
          KeepsMem s.dev t)) ∧
      (Completes (.hbmEyeRetrain c true) s fun t =>
        KV.get 0 t.x.hbm.trainedTemp (c / 16) = s.dev.fld (F.HBM_CH_STATUS_temperature c) ∧ t.regs = s.dev.regs ∧
        KeepsMem s.dev t)) ∧
    (∀ r : HbmTraining, s.dev.fst .hbm = .waking →
      (s.dev.mapLegal = false → Completes (.hbmTrainingComplete r) s fun t => t.fst .hbm = .fault ∧ (t.fw .hbm).code = 2 ∧
        KeepsMem s.dev t) ∧
      (s.dev.mapLegal = true → (s.dev.fw .hbm).pendOff = false →
        let good := fun c : HbmChId => bitOf r.found (c / 16) && (r.chans.getD c {}).ok
        Completes (.hbmTrainingComplete r) s fun t =>
          (∀ a, t.mem.get a = if a < 84 * 2 ^ 30 then 0 else s.dev.mem.get a) ∧ t.flag F.HBM_STATUS_trained = true ∧
          (∀ c : HbmChId, s.dev.flag (F.HBM_CH_CTRL_enable c) = true → (s.dev.fw (.hbmCh c)).pendOff = false →
            if good c then t.fst (.hbmCh c) = .on
            else t.fst (.hbmCh c) = .fault ∧ (t.fw (.hbmCh c)).code = (if bitOf r.found (c / 16) then 1 else 2) ∧
              t.fst .hbm = .fault ∧ (t.fw .hbm).code = 1) ∧
          ((∀ c : HbmChId, s.dev.flag (F.HBM_CH_CTRL_enable c) = true → good c = true) → t.fst .hbm = .on)))

/-- MTX_TRANSACTION_ISSUE, MTX_GRANT, MTX_RESPONSE, MTX_WATCHDOG_EXPIRY and MTX_STREAM_IDLE (R381 to R391). -/
def Obligations.MatrixIssuesGrantsAnswersAndTimesOut : Prop :=
  ∀ s : State, s.dev.live = true → s.dev.fst .mtx = .on →
    (∀ (m : PortId) (r : MtxReq), m.val ≠ 54 → s.dev.txLegal r = true → s.dev.streamState m r.stream ≠ 3 →
      (∀ a, s.dev.mtxTarget r.addr = some a → Completes (.mtxTransactionIssue m r) s fun t =>
        t.x.mtx.waiting = s.dev.x.mtx.waiting ++ [{ port := m, req := r, issued := s.dev.x.time.clk }] ∧
        (KV.get 0 s.dev.x.mtx.streams (streamKey m r.stream) = 0 → KV.get 0 t.x.mtx.streams (streamKey m r.stream) = 1) ∧
        t.regs = s.dev.regs ∧ KeepsMem s.dev t) ∧
      (s.dev.mtxTarget r.addr = none → Completes (.mtxTransactionIssue m r) s fun t =>
        t.x.mtx.held = s.dev.x.mtx.held ++ [{ port := m, req := r, issued := s.dev.x.time.clk }] ∧
        KV.get 0 t.x.mtx.streams (streamKey m r.stream) = 2 ∧ t.flag F.MTX_ALARM_decode_fault = true ∧
        t.rd R.MTX_CNT_DECODE = min (s.dev.rd R.MTX_CNT_DECODE + 1) 0xFFFFFFFF ∧
        (∀ e ∈ streamOwners m r.stream, s.dev.fst e.1 = .on → t.fst e.1 = .fault ∧ (t.fw e.1).code = e.2))) ∧
    (∀ target : Fin 73, target.val < 72 →
      let ok := (s.dev.readyAt target [] s.dev.x.mtx.waiting).filter fun t =>
        s.dev.hasCredit target t.req.write && s.dev.limitAdmits t.port t.req.write && s.dev.poolAdmits t.port
      ok ≠ [] → (∀ t ∈ s.dev.x.mtx.waiting, t.port < 56) → s.dev.faultChans = [] →
        Completes (.mtxGrant target []) s fun t => ∃ g ∈ ok,
          (∀ h ∈ ok, s.dev.portPrio h.port target ≤ s.dev.portPrio g.port target) ∧
          t.x.mtx.waiting = s.dev.x.mtx.waiting.erase g ∧ KV.get 0 t.x.mtx.pointer target = (g.port + 1) % 56 ∧
          (∃ f ∈ t.x.mtx.flight, f.tx = g ∧ f.target = target ∧ (g.req.write = true → f.answer.isSome = true)) ∧
          (g.req.write = false → KeepsMem s.dev t) ∧
          (g.req.write = true → g.req.enables = [] → ∀ a, t.mem.get a =
            if g.req.addr ≤ a ∧ a < g.req.addr + g.req.data.length ∧ memAddr a = true then g.req.data.getD (a - g.req.addr) 0
            else s.dev.mem.get a)) ∧
    (∀ (m : PortId) (tag : Nat) f,
      (∀ b p, s.dev.x.mtx.flight.find? (fun f => f.tx.port == m.val && f.tx.req.tag == tag && f.answer.isSome) = some f →
        f.answer = some (b, p) → s.dev.txDrains f.tx = false → Completes (.mtxResponse m tag) s fun t =>
          t.x.mtx.flight = s.dev.x.mtx.flight.erase f ∧
          (∃ o, t.x.out = s.dev.x.out ++ .mtxResp m f.tx.req.stream tag b p :: o) ∧
          KeepsRegs s.dev t (fun r => r.kind = .HBM_QOS_LATE) ∧ KeepsMem s.dev t) ∧
      (s.dev.flag F.MTX_CTRL_wd_en = true → s.dev.x.mtx.flight.find? (fun f => f.tx.port == m.val && f.tx.req.tag == tag &&
          f.answer.isNone && decide (f.granted + max 10 (s.dev.rd R.MTX_WATCHDOG) * 1000 * nsU ≤ s.dev.x.time.clk)) = some f →
        s.dev.txDrains f.tx = false → Completes (.mtxWatchdogExpiry m tag) s fun t =>
          t.x.mtx.flight = s.dev.x.mtx.flight.erase f ∧ t.flag F.MTX_ALARM_timeout = true ∧
          t.rd R.MTX_CNT_TIMEOUT = min (s.dev.rd R.MTX_CNT_TIMEOUT + 1) 0xFFFFFFFF ∧
          (∃ b o, t.x.out = s.dev.x.out ++ .mtxResp m f.tx.req.stream tag b true :: o) ∧ KeepsMem s.dev t)) ∧
    (∀ (m : PortId) (stream : Nat), s.dev.streamState m stream = 1 →
      (∀ f ∈ s.dev.x.mtx.flight, ¬ (f.tx.port = m.val ∧ f.tx.req.stream = stream)) →
      (∀ u ∈ s.dev.x.mtx.waiting, ¬ (u.port = m.val ∧ u.req.stream = stream)) →
      Completes (.mtxStreamIdle m stream) s fun t => t.streamState m stream = 0 ∧ t.regs = s.dev.regs ∧ KeepsMem s.dev t)

/-- TWIN_PECK_TX, TWIN_PECK_RX, TWIN_MISS_EVAL, ROLE_ACTIVE_PECK_TIMEOUT, TWIN_SEEK_TIMEOUT, TWIN_RESYNC_COMPLETE, ADMIT_AGREEMENT, HEALTH_SWAP, TWIN_SWAP_MSG, TWIN_SWAP_BOUNDARY and TWIN_SWAP_TIMEOUT (R397 to R404, R412 to R417). -/
def Obligations.TwinPecksDecideTheRole : Prop :=
  (∀ s : State, s.dev.x.pwr.awake = true →
    (Completes .twinPeckTx s fun t => t.x.twin.peckSeq = (s.dev.x.twin.peckSeq + 1) % 256 ∧ t.x.twin.peckStale = false ∧
      (∃ p o, t.x.out = s.dev.x.out ++ .peck true p :: o ∧ p.seq_ = s.dev.x.twin.peckSeq ∧
        p.stage = s.dev.fld F.PWR_STATUS_stage ∧ p.gen = s.dev.rd R.TWIN_CFG_GEN ∧
        p.role = (if s.dev.live then s.dev.twinRole else 0)) ∧
      KeepsRegs s.dev t (fun r => r.kind ∈ [RK.TWIN_STATUS, .HLK_CNT_SEG_TX]) ∧ KeepsMem s.dev t) ∧
    (Completes .roleActivePeckTimeout s fun t => t.flag F.TWIN_STATUS_role_active = false ∧ t.x.pwr.roleActive = false ∧
      KeepsRegs s.dev t (fun r => r = R.TWIN_STATUS) ∧ KeepsMem s.dev t)) ∧
  ∀ s : State, s.dev.live = true → s.dev.fst .twin = .on → s.dev.x.boot.upd.stage = 0 →
    let grant := s.dev.flag F.TWIN_STATUS_role_grant
    let unit0 := !s.dev.flag F.TWIN_CTRL_unit
    (∀ p : Peck, Completes (.twinPeckRx none p) s fun t =>
      t.flag F.TWIN_STATUS_lvds_path_ok = true ∧ t.fld F.TWIN_PECK_lvds_miss = 0 ∧ t.fld F.TWIN_PECK_last_seq = p.seq_ % 256 ∧
      t.fld F.TWIN_PECK_far_stage = p.stage % 8 ∧ t.flag F.TWIN_STATUS_far_lockstep = p.lockstep ∧ KeepsMem s.dev t ∧
      (s.dev.tstate = 1 → t.tstate = (if p.role = 1 then 4 else
        if (grant = true ∧ p.grant = false) ∨ (grant = p.grant ∧ unit0 = true) then 2 else 1)) ∧
      (s.dev.tstate = 2 → p.role ≠ 1 → t.tstate = (if p.lockstep then 3 else 2)) ∧
      (s.dev.tstate = 3 → t.tstate = (if p.lockstep then 3 else 2) ∧
        (p.lockstep = false → t.flag F.TWIN_ALARM_lockstep_lost = true)) ∧
      (s.dev.tstate = 7 → t.tstate = (if p.role = 1 then 4 else 7))) ∧
    (∀ (l : LaneId) (p : Peck), s.dev.hlkTwin l = true → s.dev.fst (.hlk l) = .on → s.dev.rxState l = 4 →
      Completes (.twinPeckRx (some l) p) s fun t => t.flag F.TWIN_STATUS_lane_path_ok = true ∧
        t.fld F.TWIN_PECK_lane_miss = 0 ∧
        t.rd (R.HLK_CNT_PECK_RX l) = min (s.dev.rd (R.HLK_CNT_PECK_RX l) + 1) 0xFFFFFFFF ∧ KeepsMem s.dev t) ∧
    (∀ g : Bool, let limit := clampN 2 15 (s.dev.fld F.TWIN_TIMING_miss_limit)
      (Completes (.twinMissEval g) s fun t => t.flag F.TWIN_STATUS_role_grant = g ∧ t.x.twin.laneGot = false ∧
        (s.dev.x.twin.laneGot = false → t.fld F.TWIN_PECK_lane_miss = min (s.dev.fld F.TWIN_PECK_lane_miss + 1) 15 ∧
          t.rd R.TWIN_CNT_LANE_MISS = min (s.dev.rd R.TWIN_CNT_LANE_MISS + 1) 0xFFFFFFFF) ∧
        (s.dev.x.twin.lvdsGot = false → t.fld F.TWIN_PECK_lvds_miss = min (s.dev.fld F.TWIN_PECK_lvds_miss + 1) 15 ∧
          t.rd R.TWIN_CNT_LVDS_MISS = min (s.dev.rd R.TWIN_CNT_LVDS_MISS + 1) 0xFFFFFFFF) ∧ KeepsMem s.dev t) ∧
      (s.dev.x.twin.laneGot = false → s.dev.x.twin.lvdsGot = false → limit ≤ s.dev.fld F.TWIN_PECK_lane_miss →
        limit ≤ s.dev.fld F.TWIN_PECK_lvds_miss → Completes (.twinMissEval g) s fun t =>
          (4 ≤ s.dev.tstate → s.dev.tstate ≤ 6 → t.tstate = (if g then 2 else 7) ∧
            (g = true → t.flag F.TWIN_ALARM_failover = true ∧
              t.rd R.TWIN_CNT_FAILOVER = min (s.dev.rd R.TWIN_CNT_FAILOVER + 1) 0xFFFFFFFF)) ∧
          (s.dev.tstate = 2 ∨ s.dev.tstate = 3 → t.tstate = (if g then 2 else 7))) ∧
      (s.dev.x.twin.contend = true → s.dev.x.twin.laneGot = true → s.dev.fld F.TWIN_PECK_lane_miss = 0 →
        s.dev.tstate = 2 ∨ s.dev.tstate = 3 → Completes (.twinMissEval g) s fun t =>
          t.tstate = 4 ∧ t.flag F.TWIN_ALARM_contention = true)) ∧
    (s.dev.tstate = 1 → Completes (.twinSeekTimeout true) s fun t => t.tstate = 2 ∧ KeepsMem s.dev t) ∧
    (∀ m, s.dev.tstate = 4 → s.dev.x.twin.applied = true → s.dev.timeNear = true → s.dev.hogsFull = true →
      s.dev.x.twin.farAdmit = some m → Completes .twinResyncComplete s fun t =>
        t.tstate = (if s.dev.admitRefusal m = 0 then 5 else 4) ∧ t.fld F.TWIN_STATUS_refuse_reason = s.dev.admitRefusal m ∧
        (s.dev.admitRefusal m ≠ 0 → t.flag F.TWIN_ALARM_admit_refused = true) ∧ KeepsMem s.dev t) ∧
    (s.dev.tstate = 5 → Completes .admitAgreement s fun t =>
      t.tstate = (if s.dev.fld F.TWIN_ADMIT_frames ≤ s.dev.rd R.TWIN_ADMIT_COUNT then 6 else 5) ∧ KeepsMem s.dev t) ∧
    (∀ h : Hdr, s.dev.Admits h healthSwapSpec →
      (s.dev.x.twin.swap = none → s.dev.tstate = 3 → Completes (.healthSwap h) s fun t => t.tstate = 3 ∧
        t.flag F.TWIN_STATUS_swap_pending = true ∧
        (∃ w, t.x.twin.swap = some w ∧ w.frame = s.dev.refFrame + 5 ∧ w.mine = true ∧ w.agreed = false) ∧ KeepsMem s.dev t) ∧
      (s.dev.x.twin.swap = none → s.dev.tstate ≠ 3 → Completes (.healthSwap h) s fun t =>
        Answered t h healthSwapSpec .rejected Reason.noStandby [] ∧ t.tstate = s.dev.tstate ∧ KeepsMem s.dev t) ∧
      (∀ w, s.dev.x.twin.swap = some w → Completes (.healthSwap h) s fun t =>
        Answered t h healthSwapSpec .rejected Reason.swapPending [] ∧ t.x.twin.swap = some w ∧ KeepsMem s.dev t)) ∧
    (∀ reason frame, s.dev.x.twin.swap = none → Completes (.twinSwapMsg 0 reason frame) s fun t =>
      t.tstate = s.dev.tstate ∧ KeepsMem s.dev t ∧
      (s.dev.tstate ≠ 6 → t.x.twin.swap = none) ∧
      (s.dev.tstate = 6 → s.dev.rd R.PWR_REPLACE = 0 → s.dev.fld F.PWR_STATUS_stage < 4 →
        t.x.twin.swap = some { frame := frame, agreed := true } ∧ t.flag F.TWIN_STATUS_swap_pending = true)) ∧
    (∀ w reason, s.dev.x.twin.swap = some w → w.mine = true →
      (Completes (.twinSwapMsg 1 reason w.frame) s fun t => t.x.twin.swap = some { w with agreed := true } ∧
        t.regs = s.dev.regs ∧ KeepsMem s.dev t) ∧
      (reason < 256 → Completes (.twinSwapMsg 2 reason w.frame) s fun t => t.x.twin.swap = none ∧
        t.flag F.TWIN_STATUS_swap_pending = false ∧ t.tstate = s.dev.tstate ∧ KeepsMem s.dev t) ∧
      (w.agreed = false → Completes .twinSwapTimeout s fun t => t.x.twin.swap = none ∧
        t.flag F.TWIN_STATUS_swap_pending = false ∧ t.tstate = s.dev.tstate ∧ KeepsMem s.dev t)) ∧
    (∀ w, s.dev.x.twin.swap = some w → w.agreed = true → s.dev.tstate = 3 ∨ s.dev.tstate = 6 →
      Completes .twinSwapBoundary s fun t => t.tstate = (if s.dev.tstate = 3 then 6 else 3) ∧ t.x.twin.swap = none ∧
        t.flag F.TWIN_ALARM_swap_done = true ∧ t.rd R.TWIN_CNT_SWAP = min (s.dev.rd R.TWIN_CNT_SWAP + 1) 0xFFFFFFFF ∧
        KeepsMem s.dev t)

/-- TWIN_SHED_MSG, TWIN_COMMIT_MSG, TWIN_SIGNATURE_MSG, TWIN_SIGNATURE_TX, TWIN_ADMIT_MSG, TWIN_SNAPSHOT_MSG and TWIN_ADMIT_RECHECK (R400, R405 to R413). -/
def Obligations.TwinMessagesKeepThePairTogether : Prop :=
  ∀ s : State, s.dev.live = true → s.dev.fst .twin = .on →
    (∀ stage frame, 4 ≤ s.dev.tstate → Completes (.twinShedMsg stage frame) s fun t =>
      t.x.twin.shedNext = some (stage % 8, frame) ∧ t.x.twin.shedEff = s.dev.shedNow ∧ t.regs = s.dev.regs ∧ KeepsMem s.dev t) ∧
    (∀ m : CommitMsg, s.dev.tstate = 6 → s.dev.x.twin.snap = none →
      (m.counter ≠ (s.dev.rd R.TWIN_COMMIT_CNT + 1) % 2 ^ 32 → Completes (.twinCommitMsg m) s fun t => t.tstate = 4 ∧
        t.flag F.TWIN_ALARM_lockstep_lost = true ∧
        t.rd R.TWIN_CNT_RESYNC = min (s.dev.rd R.TWIN_CNT_RESYNC + 1) 0xFFFFFFFF ∧ KeepsMem s.dev t) ∧
      (∀ b : FontSetBody, m.counter = (s.dev.rd R.TWIN_COMMIT_CNT + 1) % 2 ^ 32 → m.cmd = .fontSet b → b.font < 4 →
        8 ≤ b.height → b.height ≤ 64 → b.baseline < 128 → b.defaultCp < 2 ^ 21 → Completes (.twinCommitMsg m) s fun t =>
          t.rd R.TWIN_COMMIT_CNT = m.counter ∧ t.fld (F.FONT_HDR_height b.font) = b.height ∧
          t.rd (R.FONT_DEFAULT_CP b.font) = b.defaultCp ∧ t.tstate = 6 ∧ KeepsMem s.dev t)) ∧
    (∀ (otg frame : Nat) (own far : SigEntry), 2 ≤ s.dev.tstate → s.dev.x.twin.ownSigs = [⟨otg, frame, own⟩] →
      s.dev.x.twin.farSigs = [] → own.dest = far.dest → own.dest < 1024 → s.dev.flag (F.TWIN_SIG_exclude own.dest) = false →
      Completes (.twinSignatureMsg { otg := otg, frame := frame, entries := [far] }) s fun t =>
        t.rd (R.TWIN_SIG_FAR own.dest) = far.digest % 2 ^ 32 ∧ t.x.twin.ownSigs = [] ∧ t.x.twin.farSigs = [] ∧
        KeepsMem s.dev t ∧
        (own.digest = far.digest → t.fld (F.TWIN_SIG_run own.dest) = 0 ∧
          t.rd R.TWIN_CNT_SIG_MISMATCH = s.dev.rd R.TWIN_CNT_SIG_MISMATCH) ∧
        (own.digest ≠ far.digest →
          t.rd R.TWIN_CNT_SIG_MISMATCH = min (s.dev.rd R.TWIN_CNT_SIG_MISMATCH + 1) 0xFFFFFFFF ∧
          let input := own.shown = far.shown ∧ (own.inputDiff = true ∨ far.inputDiff = true)
          t.fld (F.TWIN_SIG_cause own.dest) = (if own.shown ≠ far.shown then 2 else if own.inputDiff ∨ far.inputDiff then 1 else 3) ∧
          (input → t.fld (F.TWIN_SIG_run own.dest) = 0 ∧ t.flag F.TWIN_ALARM_input_diverged = true) ∧
          (¬ input → t.fld (F.TWIN_SIG_run own.dest) = min (s.dev.fld (F.TWIN_SIG_run own.dest) + 1) 0xFFFF))) ∧
    (∀ n : OtgId, 2 ≤ s.dev.tstate → s.dev.fst (.otg n) = .on → s.dev.x.twin.farSigs = [] →
      Completes (.twinSignatureTx n) s fun t =>
        (∀ e ∈ s.dev.sigEntries n, ⟨n, s.dev.rd (R.OTG_FRAME_LO n), e⟩ ∈ t.x.twin.ownSigs) ∧
        t.x.twin.txSeq = (s.dev.x.twin.txSeq + 1) % 2 ^ 32 ∧ KeepsMem s.dev t) ∧
    (∀ m : AdmitMsg, Completes (.twinAdmitMsg m) s fun t => t.x.twin.farAdmit = some m ∧
      t.flag F.TWIN_FAR_INFO_far_es = m.es ∧ t.fld F.TWIN_FAR_INFO_far_gen = m.gen % 2 ^ 16 ∧
      t.tstate = s.dev.tstate ∧ KeepsMem s.dev t ∧
      (s.dev.tstate = 2 → t.fld F.TWIN_STATUS_refuse_reason = s.dev.admitRefusal m ∧
        (s.dev.admitRefusal m = 0 → t.x.twin.follows = true ∧
          ∃ p, Output.snapshot p ∈ t.x.out ∧ p.frame = s.dev.refFrame ∧ p.counter = s.dev.rd R.TWIN_COMMIT_CNT) ∧
        (s.dev.admitRefusal m ≠ 0 → t.flag F.TWIN_ALARM_admit_refused = true))) ∧
    (∀ m : SnapMsg, s.dev.tstate = 4 → s.dev.x.twin.applied = false →
      (s.dev.refFrame < m.frame → Completes (.twinSnapshotMsg m) s fun t => t.x.twin.snap = some m ∧
        t.x.twin.heldCommits = [] ∧ t.regs = s.dev.regs ∧ KeepsMem s.dev t) ∧
      (m.frame ≤ s.dev.refFrame → Completes (.twinSnapshotMsg m) s fun t => t.x.twin.snap = none ∧ t.x.twin.applied = true ∧
        t.rd R.TWIN_COMMIT_CNT = m.counter % 2 ^ 32)) ∧
    (∀ m p, s.dev.tstate = 2 → s.dev.x.twin.far = some p → p.role = 2 → s.dev.x.twin.follows = false →
      s.dev.x.twin.farAdmit = some m → Completes .twinAdmitRecheck s fun t =>
        t.fld F.TWIN_STATUS_refuse_reason = s.dev.admitRefusal m ∧ t.x.twin.follows = (s.dev.admitRefusal m == 0) ∧
        KeepsMem s.dev t) ∧
    (s.dev.tstate = 4 → s.dev.timeNear = true → s.dev.x.twin.applied = false → s.dev.x.twin.snap = none →
      Completes .twinAdmitRecheck s fun t => t.x.twin.admitSent = true ∧
        t.x.twin.txSeq = (s.dev.x.twin.txSeq + 1) % 2 ^ 32 ∧ KeepsMem s.dev t)

/-- WARM_RESET, POWER_CYCLE, PWR_CYCLE_TIMEOUT, STARTUP_TIME_EXPIRY, UNDERVOLTAGE_RESET, WATCHDOG_EXPIRY and THERMAL_TRIP (R33, R34, R457, R502 to R507, R516). -/
def Obligations.ResetsKeepOnlyWhatSurvives : Prop :=
  ∀ s : State, s.dev.x.pwr.awake = true →
    let fresh := fun t : Dev => (∀ r, islandReg r.kind = false → r ≠ R.BOOT_STATUS → t.reg r = resetWord r) ∧
      (∀ a, t.mem.get a = 0) ∧ t.x.boot.fuses = s.dev.x.boot.fuses ∧ t.x.boot.flash = s.dev.x.boot.flash ∧
      t.x.pwr.roleActive = false ∧ t.x.boot.window = []
    let written := fun t : Dev => s.dev.fst .boot ≠ .fault → ∀ e ∈ s.dev.x.boot.window, e ∈ t.x.boot.mram
    let warm := fun (cause : Nat) (t : Dev) => fresh t ∧ written t ∧ t.fld F.BOOT_STATUS_phase = 1 ∧
      t.rd R.BOOT_RESET_CAUSE = cause ∧ t.live = true
    let cycle := fun t : Dev => fresh t ∧ written t ∧ t.fld F.PWR_EN_STATUS_asserted = 0 ∧ t.x.pwr.up = false ∧ t.x.pwr.cycleReq = true
    (s.dev.powered = true →
      (s.dev.x.pwr.cycleAsked = false →
        (∀ cause, cause ≠ .escalation → Completes (.warmReset cause) s fun t => warm (resetCode cause) t) ∧
        (Completes (.warmReset .escalation) s fun t =>
          if 2 ≤ (within s.dev.x.time.clk (600 * secU) s.dev.x.boot.warmResets).length then cycle t else warm 3 t)) ∧
      (∀ cause, s.dev.x.pwr.cycleAsked = true → Completes (.warmReset cause) s cycle) ∧
      (Completes .powerCycle s cycle) ∧
      (Completes .undervoltageReset s fun t => warm 3 t ∧
        t.rd R.PWR_CNT_UV_RESET = min (s.dev.rd R.PWR_CNT_UV_RESET + 1) 0xFFFFFFFF) ∧
      (s.dev.x.pwr.cycleReq = false →
        (4 ≤ s.dev.tstate ∨ s.dev.tstate = 3 → Completes .watchdogExpiry s fun t => warm 2 t ∧
          t.flag F.PWR_ALARM_wdog = true ∧ t.rd R.PWR_CNT_WDOG = min (s.dev.rd R.PWR_CNT_WDOG + 1) 0xFFFFFFFF) ∧
        (s.dev.tstate < 3 → s.dev.flag F.PWR_WDOG_alone_reset = false → Completes .watchdogExpiry s fun t =>
          bitOf (t.rd R.PWR_REPLACE) 7 = true ∧ t.flag F.PWR_ALARM_wdog = true ∧
          t.rd R.PWR_CNT_WDOG = min (s.dev.rd R.PWR_CNT_WDOG + 1) 0xFFFFFFFF ∧
          KeepsRegs s.dev t (fun r => r.kind ∈ [RK.PWR_ALARM, .PWR_CNT_WDOG, .PWR_REPLACE, .PWR_REPLACE_FIRST, .PWR_STATUS]) ∧
          KeepsMem s.dev t))) ∧
    (s.dev.x.pwr.cycleReq = true → Completes .pwrCycleTimeout s fun t => t.x.pwr.cycleReq = false ∧
      t.rd R.BOOT_RESET_CAUSE = 0 ∧ t.fld F.BOOT_STATUS_phase = 0 ∧
      (s.dev.x.pwr.warnPin = false → t.enabledPin 0 = true) ∧
      KeepsRegs s.dev t (fun r => r.kind ∈ [RK.BOOT_RESET_CAUSE, .BOOT_STATUS, .PWR_EN_STATUS]) ∧ KeepsMem s.dev t) ∧
    (s.dev.flag F.GLB_STATUS_routing = false → s.dev.fld F.BOOT_STATUS_phase ≠ 9 → s.dev.x.pwr.tripped = false →
      s.dev.x.pwr.cycleReq = false → Completes .startupTimeExpiry s cycle) ∧
    (s.dev.flag F.GLB_STATUS_routing = true → Completes .startupTimeExpiry s fun t =>
      t.regs = s.dev.regs ∧ KeepsMem s.dev t ∧ KeepsExt s.dev t) ∧
    (Completes .thermalTrip s fun t => fresh t ∧ t.x.pwr.tripped = true ∧ t.flag F.PWR_STATUS_trip_seen = true ∧
      t.fld F.PWR_EN_STATUS_asserted = 0 ∧ t.live = false)

/-- RAIL_IN_REGULATION, RAIL_FAIL, RAIL_OUT_OF_TOLERANCE, BOOT_ROM_SELECT, FIRMWARE_LOADED, CONFIG_APPLY, MRAM_RESTORE, LINKS_UP, REFERENCE_WAIT_END, ROUTING_START, TRIAL_CONFIRM, TRIAL_HANDOVER_TIMEOUT and MRAM_WINDOW_WRITE (R39, R454 to R475, R493, R528). -/
def Obligations.StartUpPassesThroughItsPhases : Prop :=
  ∀ s : State, s.dev.x.pwr.awake = true →
    let phase := s.dev.fld F.BOOT_STATUS_phase
    (∀ n : Fin 8, s.dev.enabledPin n = true → bitOf s.dev.x.pwr.regulated n = false →
      (s.dev.x.pwr.stopped = false → Completes (.railInRegulation n) s fun t => bitOf t.x.pwr.regulated n = true ∧
        bitOf (t.fld F.PWR_EN_STATUS_failed) n = false ∧ (n.val ∈ [0, 1, 2, 4, 5] → t.enabledPin (n + 1) = true) ∧
        (n = 3 → t.x.pwr.up = true ∧ t.fld F.BOOT_STATUS_phase = 1) ∧ KeepsMem s.dev t) ∧
      (Completes (.railFail n) s fun t => bitOf (t.fld F.PWR_EN_STATUS_failed) n = true ∧
        bitOf (t.rd R.PWR_REPLACE) 11 = true ∧ t.x.pwr.stopped = (s.dev.x.pwr.stopped || n != 7) ∧ KeepsMem s.dev t)) ∧
    (s.dev.live = true →
      (∀ n : Fin 9, n ≠ 0 →
        (Completes (.railOutOfTolerance n true) s fun t => t.fld F.BOOT_STATUS_phase = 1 ∧ t.rd R.BOOT_RESET_CAUSE = 3) ∧
        (Completes (.railOutOfTolerance n false) s fun t => bitOf (t.rd R.PWR_REPLACE) 11 = true ∧
          KeepsRegs s.dev t (fun r => r.kind ∈ [RK.PWR_REPLACE, .PWR_REPLACE_FIRST, .PWR_STATUS, .PWR_ALARM]) ∧
          KeepsMem s.dev t)) ∧
      (phase = 1 → s.dev.x.boot.slot = none →
        (∀ bytes, Completes (.bootRomSelect false bytes) s fun t => t.fld F.BOOT_STATUS_phase = 1 ∧
          bitOf (t.rd R.PWR_REPLACE) 10 = true ∧ KeepsMem s.dev t) ∧
        (∀ bytes a h, s.dev.x.boot.flash.isSome = true → s.dev.bootHdr = some (a, h) → h.recovery = false → h.trial = false →
          h.fwSlot < 2 →
          (s.dev.slotVerifies h.fwSlot h.cfgSlot = true → Completes (.bootRomSelect true bytes) s fun t =>
            t.x.boot.slot = some h.fwSlot ∧ t.fld F.BOOT_STATUS_fw_slot = h.fwSlot ∧ t.fld F.BOOT_STATUS_phase = 2 ∧
            t.flag F.BOOT_STATUS_trial = false ∧ t.x.boot.flash = s.dev.x.boot.flash ∧ KeepsMem s.dev t) ∧
          ((∀ k, s.dev.slotVerifies k h.cfgSlot = false) → Completes (.bootRomSelect true bytes) s fun t =>
            t.x.boot.slot = none ∧ t.fld F.BOOT_STATUS_phase = 1 ∧ bitOf (t.rd R.PWR_REPLACE) 10 = true ∧ KeepsMem s.dev t))) ∧
      (phase = 2 → Completes .firmwareLoaded s fun t => t.x.ctl.endpoint = true ∧
        t.fld F.BOOT_STATUS_phase = (if s.dev.x.boot.slot = some 2 then 9 else 3)) ∧
      (phase = 4 → (Completes .configApply s fun t => t.fld F.BOOT_STATUS_phase = 5) ∧
        (s.dev.cfgChoice = none → Completes .configApply s fun t => t.flag F.GLB_STATUS_config_defaulted = true ∧
          t.fld F.BOOT_STATUS_default_reason = 3 ∧ t.flag F.BOOT_ALARM_config_defaulted = true ∧
          KeepsRegs s.dev t (fun r => r.kind ∈ [RK.GLB_STATUS, .BOOT_STATUS, .BOOT_ALARM]) ∧ KeepsMem s.dev t)) ∧
      (phase = 5 → ∀ bad, Completes (.mramRestore bad) s fun t => t.fld F.BOOT_STATUS_phase = 6 ∧
        ∀ sec, s.dev.x.boot.htStored = some sec → t.x.time.ht = sec * secU) ∧
      (phase = 6 → Completes .linksUp s fun t => t.fld F.BOOT_STATUS_phase = 7 ∧
        (s.dev.fst .dpll = .off → t.fst .dpll = .waking) ∧ KeepsMem s.dev t) ∧
      (phase = 7 → ∀ why : RefWait, Completes (.referenceWaitEnd why) s fun t => KeepsMem s.dev t ∧
        t.fld F.BOOT_STATUS_phase = (if (match why with
          | .locked => s.dev.fld F.DPLL_STATE_state == 2 | .timeout => true | .peck => s.dev.flag F.TWIN_CTRL_enable) = true
          then 8 else 7)) ∧
      (phase = 8 → s.dev.flag F.GLB_STATUS_routing = false → Completes .routingStart s fun t =>
        t.flag F.GLB_STATUS_routing = (t.on .hbm && t.on .mtx &&
          (List.finRange 32).all fun n => !t.flag (F.OTG_CTRL_enable n) || t.on (.otg n))) ∧
      (s.dev.flag F.BOOT_STATUS_trial = true → s.dev.flag F.GLB_STATUS_routing = true →
        (s.dev.needLock = false ∨ s.dev.x.boot.lockAt.isSome = true → Completes .trialConfirm s fun t =>
          t.flag F.BOOT_STATUS_trial = false ∧ t.x.boot.fuses.vf = max s.dev.x.boot.fuses.vf s.dev.x.boot.image.secver ∧
          KeepsRegs s.dev t (fun r => r.kind ∈ [RK.BOOT_STATUS, .BOOT_SECVER]) ∧ KeepsMem s.dev t) ∧
        (s.dev.needLock = true → s.dev.x.boot.lockAt = none → Completes .trialHandoverTimeout s fun t =>
          t.fld F.BOOT_STATUS_phase = 1 ∧ t.rd R.BOOT_RESET_CAUSE = 4)) ∧
      (s.dev.fst .boot ≠ .fault → Completes .mramWindowWrite s fun t => t.x.boot.window = [] ∧
        (∀ e ∈ s.dev.x.boot.window, e ∈ t.x.boot.mram) ∧ KeepsMem s.dev t))

/-- UPDATE_BEGIN, UPDATE_ERASE_DONE, UPDATE_WRITE, UPDATE_STATUS, UPDATE_VERIFY, UPDATE_VERIFY_DONE, UPDATE_ACTIVATE, UPDATE_ACTIVATION_START, UPDATE_HANDOVER_TIMEOUT, UPDATE_ABORT, UPDATE_TRICKLE, UPDATE_REVERT, UPDATE_PROVISION and TRICKLE_PIECE (R477 to R487). -/
def Obligations.UpdatesEraseWriteVerifyAndActivate : Prop :=
  ∀ s : State, s.dev.live = true → s.dev.fst .boot ≠ .fault →
    let u := s.dev.x.boot.upd
    let flash := fun (t : Dev) (a : Nat) => KV.get 255 (t.x.boot.flash.getD []) a
    (∀ h : Hdr,
      (∀ b : UpdateBeginBody, s.dev.Admits h (updateBeginSpec b) → u.state = 0 →
        (b.length ≤ partSize (s.dev.updTarget b.kind) → (b.kind = 2 → s.dev.fld F.BOOT_STATUS_phase ≠ 9) →
          Completes (.updateBegin h b) s fun t => t.x.boot.upd.state = 1 ∧ t.x.boot.upd.kind = b.kind ∧
            t.x.boot.upd.length = b.length ∧ t.x.boot.upd.target = s.dev.updTarget b.kind ∧
            t.fld F.BOOT_UPD_STATE_state = 1 ∧ KeepsMem s.dev t) ∧
        (partSize (s.dev.updTarget b.kind) < b.length → Completes (.updateBegin h b) s fun t =>
          Answered t h (updateBeginSpec b) .rejected 0x0802 [] ∧ t.x.boot.upd = u ∧ KeepsMem s.dev t)) ∧
      (∀ b : UpdateWriteBody, s.dev.Admits h (updateWriteSpec b true) → u.source = 0 →
        (u.state = 2 → b.offset % 256 = 0 → b.data.length % 256 = 0 ∨ b.offset + b.data.length = u.length →
          b.offset + b.data.length ≤ u.length → (∀ e ∈ writeBlocks b, e.1 ∉ u.got) →
          Completes (.updateWrite h b true) s fun t => Answered t h (updateWriteSpec b true) .done 0 [] ∧
            t.x.boot.upd.got = u.got ++ (writeBlocks b).map (·.1) ∧
            (∀ i (x : Byte), b.data[i]? = some x → flash t (partBase u.target + b.offset + i) = x.toNat) ∧
            (∀ a, a < partBase u.target + b.offset ∨ partBase u.target + b.offset + b.data.length ≤ a → flash t a = flash s.dev a) ∧
            KeepsMem s.dev t) ∧
        (u.state = 1 → Completes (.updateWrite h b true) s fun t =>
          Answered t h (updateWriteSpec b true) .rejected 0x0801 [] ∧ t.x.boot.upd = u ∧ KeepsMem s.dev t)) ∧
      (∀ first, s.dev.Admits h (updateStatusSpec first) → Completes (.updateStatus h first) s fun t =>
        Answered t h (updateStatusSpec first) .done 0 ([s.dev.rd R.BOOT_UPD_STATE, s.dev.rd R.BOOT_UPD_LEN,
          s.dev.rd R.BOOT_UPD_RECEIVED, s.dev.rd R.BOOT_UPD_IMAGE_ID, s.dev.rd R.BOOT_UPD_FAIL, s.dev.rd R.BOOT_UPD_TIME_LO,
          s.dev.rd R.BOOT_UPD_TIME_HI] ++ (List.range 256).map fun i => u.bitmapWord (first + i)) ∧ KeepsMem s.dev t) ∧
      (s.dev.Admits h updateVerifySpec → u.state = 2 →
        (u.complete = true → Completes (.updateVerify h) s fun t => t.x.boot.upd.state = 3 ∧ KeepsMem s.dev t) ∧
        (u.complete = false → Completes (.updateVerify h) s fun t =>
          Answered t h updateVerifySpec .rejected 0x0805 [] ∧ t.x.boot.upd = u ∧ KeepsMem s.dev t)) ∧
      (∀ b : UpdateActivateBody, s.dev.Admits h (updateActivateSpec b) →
        (u.state = 4 → b.op = 0 → Completes (.updateActivate h b) s fun t => t.x.boot.upd.state = 6 ∧ t.x.activateDue = true ∧
          KeepsMem s.dev t) ∧
        (∀ n, u.state = 4 → b.op = 1 → s.dev.freeTimer = some n → Completes (.updateActivate h b) s fun t =>
          t.x.boot.upd.state = 5 ∧ t.x.boot.upd.timer = some n ∧ t.fld (F.EVT_STATUS_state n) = 1 ∧ KeepsMem s.dev t) ∧
        (u.state = 4 → b.op = 2 → Completes (.updateActivate h b) s fun t =>
          Answered t h (updateActivateSpec b) .done 0 [] ∧ t.x.boot.upd.state = 4 ∧ KeepsMem s.dev t) ∧
        (u.state ≤ 3 → Completes (.updateActivate h b) s fun t =>
          Answered t h (updateActivateSpec b) .rejected 0x080A [] ∧ t.x.boot.upd = u ∧ KeepsMem s.dev t)) ∧
      (s.dev.Admits h updateAbortSpec → Completes (.updateAbort h) s fun t => t.x.boot.upd.state = 0 ∧ t.x.activateDue = false ∧
        Answered t h updateAbortSpec .done 0 [] ∧ KeepsMem s.dev t) ∧
      (∀ v : Word, s.dev.Admits h (updateTrickleSpec v.toNat) → Completes (.updateTrickle h v) s fun t =>
        t.reg R.BOOT_TRICKLE_CTRL = v &&& implMask R.BOOT_TRICKLE_CTRL ∧
        Answered t h (updateTrickleSpec v.toNat) .done 0 [] ∧ KeepsMem s.dev t) ∧
      (∀ a k, s.dev.Admits h updateRevertSpec → s.dev.bootHdr = some (a, k) → k.prevSlot < 2 →
        s.dev.imageFault k.prevSlot 1 (s.dev.cfgFormat k.prevCfg) s.dev.storeFormat = none →
        Completes (.updateRevert h) s fun t => Answered t h updateRevertSpec .done 0 [] ∧ KeepsMem s.dev t ∧
          t.flashBytes (0x10000 - a) 256 = BootHdr.bytes { k with
            gen := (k.gen + 1) % 2 ^ 32, fwSlot := k.prevSlot, cfgSlot := k.prevCfg, prevSlot := k.fwSlot, prevCfg := k.cfgSlot
            trial := false, trialCount := 0, recovery := false }) ∧
      (∀ b : ProvisionBody, s.dev.Admits h (updateProvisionSpec b) → s.dev.x.boot.fuses.keys.length = 4 →
        let allowed := s.dev.actsFor h (updateProvisionSpec b) = 0 ∧ 2 ≤ b.slot ∧ b.slot ≤ 3
        (allowed → s.dev.keyDigest b.slot = none → Completes (.updateProvision h b) s fun t =>
          t.keyDigest b.slot = some b.digest ∧ bitOf (t.rd R.BOOT_KEYS) b.slot = true ∧
          t.x.boot.fuses.cfgSig = (s.dev.x.boot.fuses.cfgSig || b.sigRequired) ∧
          Answered t h (updateProvisionSpec b) .done 0 [] ∧ KeepsMem s.dev t) ∧
        (allowed → (s.dev.keyDigest b.slot).isSome = true → Completes (.updateProvision h b) s fun t =>
          Answered t h (updateProvisionSpec b) .rejected 0x080E [] ∧ t.x.boot.fuses = s.dev.x.boot.fuses ∧ KeepsMem s.dev t) ∧
        (¬ allowed → Completes (.updateProvision h b) s fun t =>
          Answered t h (updateProvisionSpec b) .rejected Reason.notPermitted [] ∧ t.x.boot.fuses = s.dev.x.boot.fuses ∧
          KeepsMem s.dev t))) ∧
    (u.state = 1 →
      (u.source = 0 → u.first = [] → Completes (.updateEraseDone true) s fun t => t.x.boot.upd.state = 2 ∧
        t.x.boot.upd.got = [] ∧ (∀ i < partSize u.target, flash t (partBase u.target + i) = 255) ∧ KeepsMem s.dev t) ∧
      (Completes (.updateEraseDone false) s fun t => t.x.boot.upd.state = 7 ∧ t.x.boot.upd.fail = 0x080C ∧
        t.flag F.BOOT_ALARM_update_failed = true ∧
        t.rd R.BOOT_CNT_FLASH_ERR = min (s.dev.rd R.BOOT_CNT_FLASH_ERR + 1) 0xFFFFFFFF ∧ KeepsMem s.dev t)) ∧
    (u.state = 3 →
      (u.source = 0 → s.dev.imageFault u.target u.kind s.dev.runningFormat s.dev.storeFormat = none →
        Completes .updateVerifyDone s fun t => t.x.boot.upd.state = 4 ∧ KeepsMem s.dev t) ∧
      (∀ r, s.dev.imageFault u.target u.kind s.dev.runningFormat s.dev.storeFormat = some r →
        Completes .updateVerifyDone s fun t => t.x.boot.upd.state = 7 ∧ t.x.boot.upd.fail = r ∧
          t.flag F.BOOT_ALARM_update_failed = true ∧ KeepsMem s.dev t)) ∧
    (s.dev.x.activateDue = true → u.state = 5 ∨ u.state = 6 →
      (4 ≤ s.dev.tstate → Completes .updateActivationStart s fun t => t.x.boot.upd.state = 7 ∧
        t.x.boot.upd.fail = Reason.notActive ∧ t.x.activateDue = false ∧ KeepsMem s.dev t) ∧
      (s.dev.tstate = 3 → s.dev.handoverFits = true → Completes .updateActivationStart s fun t => t.x.boot.upd.state = 6 ∧
        t.x.boot.upd.method = 1 ∧ t.x.boot.upd.stage = 1 ∧
        t.rd R.TWIN_COMMIT_CNT = (s.dev.rd R.TWIN_COMMIT_CNT + 1) % 2 ^ 32 ∧
        (∃ m, Output.twinCommit m ∈ t.x.out ∧ m.counter = (s.dev.rd R.TWIN_COMMIT_CNT + 1) % 2 ^ 32) ∧ KeepsMem s.dev t) ∧
      (s.dev.tstate = 0 → Completes .updateActivationStart s fun t => t.fld F.BOOT_STATUS_phase = 1 ∧
        t.rd R.BOOT_RESET_CAUSE = 4)) ∧
    (u.stage = 1 ∨ u.stage = 2 → Completes .updateHandoverTimeout s fun t => t.x.boot.upd.state = 7 ∧
      t.x.boot.upd.fail = 0x080B ∧ t.x.boot.upd.stage = 0 ∧ t.flag F.BOOT_ALARM_update_failed = true ∧ KeepsMem s.dev t) ∧
    (∀ (n : SrcId) (p : AncPacket) (ok : Bool), s.dev.trickleTakes n p = true →
      let b : List Byte := p.data.map fun w => BitVec.ofNat 8 w
      let index := leAt b 8 4
      let same := u.state ≠ 0 ∧ u.image = leAt b 4 4
      let valid := p.data.length = 244 ∧ ancSound p = true ∧ leAt b 0 4 = 0x0001545A ∧ crc32c (b.take 240) = leAt b 240 4 ∧
        index < leAt b 12 4 ∧ (same → leAt b 12 4 = u.pieces)
      u.state = 0 ∨ u.source ≠ 0 →
      (¬ valid → Completes (.tricklePiece n p ok) s fun t =>
        t.rd R.BOOT_CNT_PIECE_BAD = min (s.dev.rd R.BOOT_CNT_PIECE_BAD + 1) 0xFFFFFFFF ∧
        KeepsRegs s.dev t (fun r => r = R.BOOT_CNT_PIECE_BAD) ∧ t.x.boot = s.dev.x.boot ∧ KeepsMem s.dev t) ∧
      (valid → same → u.state = 2 → u.kind ≠ 4 → u.source = 1 →
        (index ∈ u.got → Completes (.tricklePiece n p ok) s fun t =>
          t.rd R.BOOT_CNT_PIECE_DUP = min (s.dev.rd R.BOOT_CNT_PIECE_DUP + 1) 0xFFFFFFFF ∧ t.x.boot.upd.got = u.got ∧
          KeepsMem s.dev t) ∧
        (index ∉ u.got → u.first = [] → Completes (.tricklePiece n p true) s fun t =>
          t.rd R.BOOT_CNT_PIECE_OK = min (s.dev.rd R.BOOT_CNT_PIECE_OK + 1) 0xFFFFFFFF ∧ t.x.boot.upd.got = u.got ++ [index] ∧
          KeepsMem s.dev t)))

/-- AVS_EVAL, AVS_CEILING, SHED_EVAL, SHED_STEP_DOWN, THERMAL_SAMPLE, THERM_WARN_HELD, PMBUS_POLL and PMBUS_ALERT (R496 to R503). The slew of VOUT_COMMAND per evaluation is the model's reading of R497 and R498 (log entry 72). -/
def Obligations.AvsShedThermalAndPmbusFollowTheSupply : Prop :=
  (∀ s : State, s.dev.live = true →
    (∀ vReq, (s.dev.fst .pwr ≠ .fault ∨ (s.dev.fw .pwr).code ≠ 3) → Completes (.avsEval vReq) s fun t =>
      let lo := clampN 670 850 (s.dev.fld F.PWR_AVS_WINDOW_min) * 1000
      let hi := max lo (clampN 670 850 (s.dev.fld F.PWR_AVS_WINDOW_max) * 1000)
      let req := clampN 670000 850000 vReq
      let vt := if hi < req then req else max req lo
      t.x.pwr.vt = vt ∧ t.fld F.PWR_AVS_STATUS_v_req = req / 1000 ∧ t.fld F.PWR_AVS_STATUS_v_t = vt / 1000 ∧
      t.flag F.PWR_STATUS_avs_at_ceiling = (vt == 850000) ∧
      (hi < req → t.flag F.PWR_STATUS_policy_overridden = true ∧
        (s.dev.flag F.PWR_STATUS_policy_overridden = false → t.flag F.PWR_ALARM_policy_overridden = true ∧
          t.rd R.PWR_CNT_OVERRIDE = min (s.dev.rd R.PWR_CNT_OVERRIDE + 1) 0xFFFFFFFF)) ∧
      (if s.dev.avsSends && s.dev.x.pwr.vout != vt then
        t.x.pwr.vout ≤ s.dev.x.pwr.vout + 50000 ∧ s.dev.x.pwr.vout ≤ t.x.pwr.vout + 250 ∧
          t.x.out = s.dev.x.out ++ [.vout t.x.pwr.vout]
        else t.x.pwr.vout = s.dev.x.pwr.vout ∧ t.x.out = s.dev.x.out) ∧
      KeepsRegs s.dev t (fun r => r.kind ∈ [RK.PWR_AVS_STATUS, .PWR_STATUS, .PWR_ALARM, .PWR_CNT_OVERRIDE, .PWR_REPLACE]) ∧
      KeepsMem s.dev t) ∧
    (s.dev.x.pwr.vt = 850000 → Completes .avsCeiling s fun t => bitOf (t.rd R.PWR_REPLACE) 0 = true ∧
      t.flag F.PWR_ALARM_avs_ceiling = true ∧
      KeepsRegs s.dev t (fun r => r.kind ∈ [RK.PWR_REPLACE, .PWR_REPLACE_FIRST, .PWR_STATUS, .PWR_ALARM]) ∧ KeepsMem s.dev t) ∧
    (∀ v, Completes (.shedEval v) s fun t =>
      t.fld F.PWR_STATUS_stage = max (s.dev.fld F.PWR_STATUS_stage) (max (droopStage s.dev.x.pwr.vt v) s.dev.warnStage) ∧
      t.fld F.PWR_VCORE_v_meas = v / 1000 % 1024 ∧ t.x.pwr.vMeas = some v) ∧
    (∀ t0, s.dev.shedLeaves = true → s.dev.x.pwr.shedAt + secU ≤ s.dev.x.time.clk → s.dev.x.pwr.shedOk = some t0 →
      t0 + secU ≤ s.dev.x.time.clk → Completes .shedStepDown s fun t =>
        t.fld F.PWR_STATUS_stage + 1 = s.dev.fld F.PWR_STATUS_stage ∧ t.flag F.PWR_ALARM_shed_change = true ∧
        t.rd R.PWR_CNT_SHED = min (s.dev.rd R.PWR_CNT_SHED + 1) 0xFFFFFFFF) ∧
    (∀ die : Int, let warn : Int := (clampN 80 105 (s.dev.fld F.PWR_THERM_CTRL_warn_c) : Nat)
      Completes (.thermalSample die []) s fun t =>
        t.fld F.PWR_TEMP_MAX_die = satCode 16 die ∧
        t.flag F.PWR_STATUS_therm_warn = (if warn * 8 ≤ die then true else if die ≤ (warn - 2) * 8 then false
          else s.dev.flag F.PWR_STATUS_therm_warn) ∧
        (warn * 8 ≤ die → s.dev.flag F.PWR_STATUS_therm_warn = false → t.flag F.PWR_ALARM_therm_warn = true) ∧
        KeepsRegs s.dev t (fun r => r.kind ∈ [RK.PWR_TEMP_MAX, .PWR_STATUS, .PWR_ALARM, .PWR_REPLACE]) ∧ KeepsMem s.dev t)) ∧
  ∀ s : State, s.dev.x.pwr.awake = true →
    (s.dev.flag F.PWR_STATUS_therm_warn = true → Completes .thermWarnHeld s fun t => bitOf (t.rd R.PWR_REPLACE) 12 = true ∧
      KeepsRegs s.dev t (fun r => r.kind ∈ [RK.PWR_REPLACE, .PWR_REPLACE_FIRST, .PWR_STATUS, .PWR_ALARM]) ∧ KeepsMem s.dev t) ∧
    (∀ r : RailPoll, s.dev.fst .pwr = .on → s.dev.polled r.dev = true →
      (Completes (.pmbusPoll [r]) s fun t =>
        t.rd R.PWR_CNT_PMBUS_ERR = min (s.dev.rd R.PWR_CNT_PMBUS_ERR + r.failed) 0xFFFFFFFF ∧
        (if r.ok then KV.get 0 t.x.pwr.polls r.dev = 0 ∧
            t.reg (R.PWR_RAIL_V r.dev) = BitVec.ofNat 32 r.volts &&& implMask (R.PWR_RAIL_V r.dev) ∧
            t.reg (R.PWR_RAIL_P r.dev) = BitVec.ofNat 32 r.power &&& implMask (R.PWR_RAIL_P r.dev) ∧
            t.reg (R.PWR_RAIL_STATUS r.dev) = BitVec.ofNat 32 r.status &&& implMask (R.PWR_RAIL_STATUS r.dev)
          else KV.get 0 t.x.pwr.polls r.dev = KV.get 0 s.dev.x.pwr.polls r.dev + 1 ∧
            (KV.get 0 s.dev.x.pwr.polls r.dev = 2 → t.flag F.PWR_ALARM_pmbus_err = true)) ∧
        KeepsRegs s.dev t (fun q => q.kind ∈ [RK.PWR_CNT_PMBUS_ERR, .PWR_RAIL_V, .PWR_RAIL_P, .PWR_RAIL_STATUS, .PWR_TOTAL,
          .PWR_ALARM, .PWR_STATUS, .PWR_REPLACE, .PWR_REPLACE_FIRST]) ∧ KeepsMem s.dev t) ∧
      (r.ok = true → Completes (.pmbusAlert [r]) s fun t => t.flag F.PWR_ALARM_pmbus_alert = true ∧
        t.reg (R.PWR_RAIL_STATUS r.dev) = BitVec.ofNat 32 r.status &&& implMask (R.PWR_RAIL_STATUS r.dev) ∧
        KeepsRegs s.dev t (fun q => q.kind ∈ [RK.PWR_RAIL_STATUS, .PWR_ALARM]) ∧ KeepsMem s.dev t))

/-- HEALTH_REINIT, HEALTH_RESET, HEALTH_POWER_CYCLE, HEALTH_SUBSCRIBE, HEALTH_DEBUG_CHALLENGE, HEALTH_DEBUG_RESPONSE and TELEMETRY_RECORD (R508 to R510, R514). That a subscription's records are COMMITTED is the model's reading of R440 (log entry 75). -/
def Obligations.HealthCommandsActAndTelemetryReports : Prop :=
  (∀ (h : Hdr) (s : State),
    (∀ (block inst : Nat) (f : Fn), s.dev.Admits h (healthReinitSpec block inst) → fnOf block inst = some f →
      s.dev.fst f = .on → Completes (.healthReinit h block inst) s fun t =>
        t.fst f = .stopping ∧ (t.fw f).pendOn = true ∧
        ((∀ r d, h.intake = .ring r d → f ≠ .ring r) → Answered t h (healthReinitSpec block inst) .done 0 [])) ∧
    (s.dev.Admits h healthResetSpec → Completes (.healthReset h) s fun t => t.x.pwr.resetAsked = true ∧
      Answered t h healthResetSpec .done 0 [] ∧ KeepsRegs s.dev t commandWord) ∧
    (s.dev.Admits h healthPowerCycleSpec → Completes (.healthPowerCycle h) s fun t =>
      (if s.dev.actsFor h healthPowerCycleSpec = 0 then t.x.pwr.cycleAsked = true ∧ Answered t h healthPowerCycleSpec .done 0 []
        else t.x.pwr.cycleAsked = s.dev.x.pwr.cycleAsked ∧
          Answered t h healthPowerCycleSpec .rejected Reason.notPermitted []) ∧
      KeepsRegs s.dev t commandWord) ∧
    (s.dev.Admits h (healthSubscribeSpec true) → Completes (.healthSubscribe h true) s fun t => h ∈ t.x.ctl.subs ∧
      ∀ g ∈ t.x.ctl.subs, intakeKey g.intake = intakeKey h.intake → g = h) ∧
    (s.dev.Admits h (healthSubscribeSpec false) → Completes (.healthSubscribe h false) s fun t =>
      (∀ g ∈ t.x.ctl.subs, intakeKey g.intake ≠ intakeKey h.intake) ∧
      Answered t h (healthSubscribeSpec false) .done 0 []) ∧
    (∀ level, level < 3 → s.dev.Admits h (healthChallengeSpec level) → Completes (.healthDebugChallenge h level) s fun t =>
      (if s.dev.actsFor h (healthChallengeSpec level) = 0 then t.x.pwr.nonce = some (Config.freeValue s.dev.x.freeCtr) ∧
          t.x.freeCtr = s.dev.x.freeCtr + 1 ∧ Answered t h (healthChallengeSpec level) .done 0 t.challengeWords
        else t.x.pwr.nonce = s.dev.x.pwr.nonce ∧
          Answered t h (healthChallengeSpec level) .rejected Reason.notPermitted []) ∧
      KeepsRegs s.dev t commandWord) ∧
    (∀ b : DebugResponse, b.level < 3 → s.dev.Admits h (healthResponseSpec b) → Completes (.healthDebugResponse h b) s fun t =>
      (if s.dev.unlocks b then t.flag F.GLB_STATUS_debug_unlocked = true ∧ t.fld F.PWR_DEBUG_level = b.level ∧
          Answered t h (healthResponseSpec b) .done 0 []
        else t.flag F.GLB_STATUS_debug_unlocked = s.dev.flag F.GLB_STATUS_debug_unlocked ∧
          t.fld F.PWR_DEBUG_level = s.dev.fld F.PWR_DEBUG_level ∧
          Answered t h (healthResponseSpec b) .rejected Reason.notPermitted []) ∧
      KeepsRegs s.dev t (fun r => commandWord r ∨ r = R.GLB_STATUS ∨ r = R.PWR_DEBUG))) ∧
  ∀ s : State, s.dev.live = true →
    (s.dev.fld F.PWR_STATUS_stage < 3 → Completes .telemetryRecord s fun t =>
      t.rd R.PWR_TELEM_SEQ = (s.dev.rd R.PWR_TELEM_SEQ + 1) % 2 ^ 32 ∧ t.rd (R.PWR_TELEM_W 0) = t.rd R.PWR_TELEM_SEQ ∧
      t.rd (R.PWR_TELEM_W 1) = s.dev.htSec % 2 ^ 32 ∧
      t.rd (R.PWR_TELEM_W 31) = crc32c (s.dev.telemetry.flatMap (leBytes 4)) ∧
      (s.dev.x.ctl.subs = [] → t.x.out = s.dev.x.out ∧
        KeepsRegs s.dev t (fun r => r.kind ∈ [RK.PWR_TELEM_SEQ, .PWR_TELEM_W])) ∧ KeepsMem s.dev t) ∧
    (3 ≤ s.dev.fld F.PWR_STATUS_stage → Completes .telemetryRecord s fun t =>
      t.regs = s.dev.regs ∧ KeepsMem s.dev t ∧ KeepsExt s.dev t)

/-- EXTEST, IDCODE, SAMPLE/PRELOAD, CLAMP, HIGHZ, DBG_CHALLENGE, DBG_RESPONSE, SCAN_READ, BYPASS and FREEZE (R513 to R515). That each row loads its instruction and shifts once, and that the boundary register and the chains capture a free value, are the model's choices (log entries 1 and 76). -/
def Obligations.JtagActsByItsInstructionAndDebugLevel : Prop :=
  (∀ s : State, s.dev.x.pwr.awake = true →
    let level2 := s.dev.fld F.PWR_DEBUG_level = 2
    let bypassed := fun t : Dev => t.x.pwr.jtag.instr = 0xFF ∧ t.x.pwr.jtag.drive = 0 ∧
      t.x.pwr.jtag.boundary = s.dev.x.pwr.jtag.boundary ∧ t.x.out = s.dev.x.out ++ [.tdo 0 1] ∧
      t.regs = s.dev.regs ∧ KeepsMem s.dev t
    let loaded := fun (instr drive boundary : Nat) (t : Dev) => t.x.pwr.jtag.instr = instr ∧ t.x.pwr.jtag.drive = drive ∧
      t.x.pwr.jtag.boundary = boundary ∧ t.regs = s.dev.regs ∧ KeepsMem s.dev t
    let kept := s.dev.x.pwr.jtag.boundary
    (∀ dr, (level2 → Completes (.extest dr) s (loaded 0x00 1 dr)) ∧ (¬ level2 → Completes (.extest dr) s bypassed)) ∧
    (∀ dr, Completes (.samplePreload dr) s (loaded 0x02 0 dr)) ∧
    (level2 → (Completes .clamp s (loaded 0x03 2 kept)) ∧ (Completes .highz s (loaded 0x04 3 kept)) ∧
      (Completes .scanRead s fun t => loaded 0x20 0 kept t ∧
        t.x.freeCtr = s.dev.x.freeCtr + (if s.dev.x.pwr.frozen then 1 else 0) ∧
        (s.dev.x.pwr.frozen = false → t.x.out = s.dev.x.out))) ∧
    (¬ level2 → ∀ i ∈ [Instr.clamp, .highz, .scanRead], Completes i s bypassed) ∧
    (∀ bit, Completes (.bypass bit) s bypassed) ∧
    (Completes .idcode s fun t => loaded 0x01 0 kept t ∧ ∃ v, t.x.out = s.dev.x.out ++ [.tdo v 32] ∧ v % 2 = 1 ∧
      v / 2 ^ 12 % 2 ^ 16 = 0x1024 ∧ v / 2 ^ 28 = s.dev.fld F.GLB_ID_stepping % 16) ∧
    (∀ level, level < 4 → Completes (.dbgChallenge level) s fun t => loaded 0x10 0 kept t ∧
      t.x.pwr.nonce = some (Config.freeValue s.dev.x.freeCtr) ∧ t.x.freeCtr = s.dev.x.freeCtr + 1 ∧
      t.x.out = s.dev.x.out ++ [.tdo (ofLeBytes ((t.challengeWords.flatMap (leBytes 4)).take 56)) 448]) ∧
    (∀ b, (s.dev.unlocks b = true → Completes (.dbgResponse b) s fun t => t.flag F.GLB_STATUS_debug_unlocked = true ∧
        t.fld F.PWR_DEBUG_level = b.level ∧ KeepsRegs s.dev t (fun r => r = R.GLB_STATUS ∨ r = R.PWR_DEBUG) ∧
        KeepsMem s.dev t) ∧
      (s.dev.unlocks b = false → Completes (.dbgResponse b) s (loaded 0x11 0 kept)))) ∧
  ∀ s : State, s.dev.live = true →
    let acts := s.dev.fld F.PWR_DEBUG_level = 2 ∧ s.dev.flag F.PWR_DEBUG_freeze_en = true
    (acts → Completes .freeze s fun t => t.x.pwr.frozen = true ∧ t.live = false ∧ t.x.pwr.roleActive = false ∧
      t.flag F.TWIN_STATUS_role_active = false ∧ KeepsRegs s.dev t (fun r => r = R.TWIN_STATUS) ∧ KeepsMem s.dev t) ∧
    (¬ acts → Completes .freeze s fun t => t.flag F.PWR_ALARM_freeze_ignored = true ∧ t.live = true ∧
      KeepsRegs s.dev t (fun r => r = R.PWR_ALARM) ∧ KeepsMem s.dev t)
end

