-- ==== Sys2Proof/Laws/Words.lean ====
section
/-!
SUPPORT. Laws of bit fields and of the sparse maps.
-/

namespace Sys2Proof

@[simp] theorem boolBit_true : boolBit true = 1 := rfl
@[simp] theorem boolBit_false : boolBit false = 0 := rfl
theorem boolBit_lt (b : Bool) : boolBit b < 2 := by cases b <;> decide

theorem bitsOf_lt (x lo n : Nat) : bitsOf x lo n < 2 ^ n := Nat.mod_lt _ (Nat.two_pow_pos n)

/-- A number is its bits below a field, the field, and its bits above. -/
theorem bitsOf_split (x lo n : Nat) :
    x = x % 2 ^ lo + bitsOf x lo n * 2 ^ lo + x / 2 ^ (lo + n) * 2 ^ (lo + n) := by
  have h1 := Nat.div_add_mod x (2 ^ lo)
  have h2 := Nat.div_add_mod (x / 2 ^ lo) (2 ^ n)
  rw [Nat.div_div_eq_div_mul] at h2
  unfold bitsOf
  rw [pow_add]
  calc x = 2 ^ lo * (x / 2 ^ lo) + x % 2 ^ lo := h1.symm
    _ = 2 ^ lo * (2 ^ n * (x / (2 ^ lo * 2 ^ n)) + x / 2 ^ lo % 2 ^ n) + x % 2 ^ lo := by rw [h2]
    _ = _ := by ring

/-- What a replaced field leaves below and above itself, and holds. -/
theorem putBits_eq (x lo n v : Nat) :
    putBits x lo n v = x % 2 ^ lo + v % 2 ^ n * 2 ^ lo + x / 2 ^ (lo + n) * 2 ^ (lo + n) := by
  have h := bitsOf_split x lo n
  unfold putBits
  omega

@[simp] theorem bitsOf_putBits_self (x lo n v : Nat) : bitsOf (putBits x lo n v) lo n = v % 2 ^ n := by
  have h3 : 2 ^ (lo + n) = 2 ^ lo * 2 ^ n := pow_add 2 lo n
  rw [putBits_eq, bitsOf]
  have e : x % 2 ^ lo + v % 2 ^ n * 2 ^ lo + x / 2 ^ (lo + n) * 2 ^ (lo + n) =
      x % 2 ^ lo + 2 ^ lo * (v % 2 ^ n + 2 ^ n * (x / 2 ^ (lo + n))) := by rw [h3]; ring
  rw [e, Nat.add_mul_div_left _ _ (Nat.two_pow_pos lo), Nat.div_eq_of_lt (Nat.mod_lt _ (Nat.two_pow_pos lo)),
    Nat.zero_add, Nat.add_mul_mod_self_left, Nat.mod_mod]

theorem testBit_bitsOf (x lo n i : Nat) : (bitsOf x lo n).testBit i = (decide (i < n) && x.testBit (lo + i)) := by
  rw [bitsOf, Nat.testBit_mod_two_pow, Nat.testBit_div_two_pow, Nat.add_comm]

theorem testBit_putBits (x lo n v i : Nat) :
    (putBits x lo n v).testBit i =
      if i < lo then x.testBit i else if i < lo + n then v.testBit (i - lo) else x.testBit i := by
  have hlow : (putBits x lo n v) % 2 ^ lo = x % 2 ^ lo := by
    rw [putBits_eq, pow_add]
    have e : x % 2 ^ lo + v % 2 ^ n * 2 ^ lo + x / (2 ^ lo * 2 ^ n) * (2 ^ lo * 2 ^ n) =
        x % 2 ^ lo + 2 ^ lo * (v % 2 ^ n + 2 ^ n * (x / (2 ^ lo * 2 ^ n))) := by ring
    rw [e, Nat.add_mul_mod_self_left, Nat.mod_mod]
  have hmid := bitsOf_putBits_self x lo n v
  have hhigh : (putBits x lo n v) / 2 ^ (lo + n) = x / 2 ^ (lo + n) := by
    rw [putBits_eq]
    have hlt : x % 2 ^ lo + v % 2 ^ n * 2 ^ lo < 2 ^ (lo + n) := by
      have a := Nat.mod_lt x (Nat.two_pow_pos lo)
      have b := Nat.mod_lt v (Nat.two_pow_pos n)
      have c : (v % 2 ^ n + 1) * 2 ^ lo ≤ 2 ^ n * 2 ^ lo := Nat.mul_le_mul_right _ b
      rw [pow_add, Nat.mul_comm (2 ^ lo)]
      rw [Nat.add_mul] at c
      omega
    rw [Nat.add_mul_div_right _ _ (Nat.two_pow_pos _), Nat.div_eq_of_lt hlt, Nat.zero_add]
  split
  · next h =>
    have := congrArg (fun y => y.testBit i) hlow
    simpa [Nat.testBit_mod_two_pow, h] using this
  · next h =>
    split
    · next h2 =>
      have := congrArg (fun y => y.testBit (i - lo)) hmid
      rw [testBit_bitsOf, Nat.testBit_mod_two_pow] at this
      have hi : i - lo < n := by omega
      simpa [hi, show lo + (i - lo) = i by omega] using this
    · next h2 =>
      have := congrArg (fun y => y.testBit (i - (lo + n))) hhigh
      simpa [Nat.testBit_div_two_pow, show i - (lo + n) + (lo + n) = i by omega] using this

/-- A replaced field leaves every field apart from it. -/
theorem bitsOf_putBits_apart {lo n lo' n' : Nat} (x v : Nat) (h : lo' + n' ≤ lo ∨ lo + n ≤ lo') :
    bitsOf (putBits x lo n v) lo' n' = bitsOf x lo' n' := by
  apply Nat.eq_of_testBit_eq
  intro i
  rw [testBit_bitsOf, testBit_bitsOf, testBit_putBits]
  by_cases hi : i < n'
  · rcases h with h | h
    · simp [hi, show lo' + i < lo by omega]
    · simp [hi, show ¬ lo' + i < lo by omega, show ¬ lo' + i < lo + n by omega]
  · simp [hi]

theorem putBits_lt {x lo n v w : Nat} (hx : x < 2 ^ w) (h : lo + n ≤ w) : putBits x lo n v < 2 ^ w := by
  apply Nat.lt_pow_two_of_testBit
  intro i hi
  rw [testBit_putBits, if_neg (by omega), if_neg (by omega)]
  exact Nat.testBit_lt_two_pow (lt_of_lt_of_le hx (Nat.pow_le_pow_right (by omega) hi))

/-! ### Sparse maps -/

section KV
variable {α : Type} (dflt : α)

theorem KV.get_filter_self (m : KV α) (n : Nat) : KV.get dflt (m.filter fun e => e.1 ≠ n) n = dflt := by
  induction m with
  | nil => rfl
  | cons e r ih =>
    obtain ⟨k, w⟩ := e
    by_cases h : k = n
    · simpa [h] using ih
    · simp only [ne_eq, h, not_false_eq_true, decide_true, List.filter_cons_of_pos, KV.get]
      rw [if_neg (fun e => h e.symm)]
      simpa using ih

theorem KV.get_filter_other (m : KV α) {n k : Nat} (h : k ≠ n) :
    KV.get dflt (m.filter fun e => e.1 ≠ n) k = KV.get dflt m k := by
  induction m with
  | nil => rfl
  | cons e r ih =>
    obtain ⟨j, w⟩ := e
    by_cases hj : j = n
    · subst hj
      simp only [ne_eq, not_true_eq_false, decide_false, Bool.false_eq_true, not_false_eq_true,
        List.filter_cons_of_neg, KV.get, if_neg h]
      simpa using ih
    · simp only [ne_eq, hj, not_false_eq_true, decide_true, List.filter_cons_of_pos, KV.get]
      split
      · rfl
      · simpa using ih

theorem KV.get_put_self (m : KV α) (n : Nat) (v : α) (h : ∀ e ∈ m, e.1 ≠ n) : KV.get dflt (KV.put m n v) n = v := by
  induction m with
  | nil => simp [KV.put, KV.get]
  | cons e r ih =>
    obtain ⟨k, w⟩ := e
    have hk : k ≠ n := h (k, w) (by simp)
    simp only [KV.put]
    split
    · simp [KV.get]
    · rw [KV.get, if_neg (fun e => hk e.symm)]
      exact ih fun e he => h e (by simp [he])

theorem KV.get_put_other (m : KV α) {n k : Nat} (v : α) (h : k ≠ n) :
    KV.get dflt (KV.put m n v) k = KV.get dflt m k := by
  induction m with
  | nil => simp [KV.put, KV.get, h]
  | cons e r ih =>
    obtain ⟨j, w⟩ := e
    simp only [KV.put]
    split
    · simp [KV.get, h]
    · rw [KV.get, KV.get, ih]

variable [DecidableEq α]

/-- Reading the key that was set gives the value that was set. -/
@[simp] theorem KV.get_set_self (m : KV α) (n : Nat) (v : α) : KV.get dflt (KV.set dflt m n v) n = v := by
  unfold KV.set
  split
  · next h => rw [KV.get_filter_self, h]
  · exact KV.get_put_self dflt _ n v (by simp)

/-- Setting a key leaves every other key. -/
@[simp] theorem KV.get_set_other (m : KV α) {n k : Nat} (v : α) (h : k ≠ n) :
    KV.get dflt (KV.set dflt m n v) k = KV.get dflt m k := by
  unfold KV.set
  split
  · exact KV.get_filter_other dflt m h
  · rw [KV.get_put_other dflt _ v h, KV.get_filter_other dflt m h]

@[simp] theorem KV.get_upd_self (m : KV α) (n : Nat) (f : α → α) :
    KV.get dflt (KV.upd dflt m n f) n = f (KV.get dflt m n) := KV.get_set_self dflt m n _

@[simp] theorem KV.get_upd_other (m : KV α) {n k : Nat} (f : α → α) (h : k ≠ n) :
    KV.get dflt (KV.upd dflt m n f) k = KV.get dflt m k := KV.get_set_other dflt m _ h

end KV

end Sys2Proof
end

