-- ==== Sys2Proof/Laws/Cells.lean ====
section
/-!
SUPPORT. Laws of the register file and of memory: a read after a write gives what was written, a write leaves every
other word or byte alone, and every operation keeps the canonical form.
-/

namespace Sys2Proof.Machine

/-! ### The order of register words -/

theorem RK.ctorIdx_inj {a b : RK} (h : a.ctorIdx = b.ctorIdx) : a = b := by
  rw [← RK.ofNat_ctorIdx a, h, RK.ofNat_ctorIdx]

theorem Reg.lt_iff (a b : Reg) : a.lt b = true ↔
    a.kind.ctorIdx < b.kind.ctorIdx ∨ a.kind.ctorIdx = b.kind.ctorIdx ∧ (a.i < b.i ∨ a.i = b.i ∧ (a.j < b.j ∨ a.j = b.j ∧ a.k < b.k)) := by
  simp [Reg.lt]

theorem Reg.lt_trans {a b c : Reg} (h : a.lt b = true) (g : b.lt c = true) : a.lt c = true := by
  rw [Reg.lt_iff] at *
  omega

theorem Reg.lt_or_gt {a b : Reg} (h : a ≠ b) (n : ¬ a.lt b = true) : b.lt a = true := by
  rw [Reg.lt_iff] at *
  by_contra g
  apply h
  obtain ⟨k, i, j, l⟩ := a
  obtain ⟨k', i', j', l'⟩ := b
  simp only at n g
  have e : k = k' := RK.ctorIdx_inj (by omega)
  simp only [Reg.mk.injEq]
  exact ⟨e, by omega, by omega, by omega⟩

/-! ### The register file -/

theorem RegFile.get_filter_self (m : RegFile) (r : Reg) : RegFile.get (m.filter fun e => e.1 ≠ r) r = resetWord r := by
  induction m with
  | nil => rfl
  | cons e t ih =>
    obtain ⟨k, w⟩ := e
    by_cases h : k = r
    · simpa [h] using ih
    · simp only [ne_eq, h, not_false_eq_true, decide_true, List.filter_cons_of_pos, RegFile.get]
      rw [if_neg (fun e => h e.symm)]
      simpa using ih

theorem RegFile.get_filter_other (m : RegFile) {r q : Reg} (h : q ≠ r) :
    RegFile.get (m.filter fun e => e.1 ≠ r) q = RegFile.get m q := by
  induction m with
  | nil => rfl
  | cons e t ih =>
    obtain ⟨k, w⟩ := e
    by_cases hk : k = r
    · subst hk
      simp only [ne_eq, not_true_eq_false, decide_false, Bool.false_eq_true, not_false_eq_true,
        List.filter_cons_of_neg, RegFile.get, if_neg h]
      simpa using ih
    · simp only [ne_eq, hk, not_false_eq_true, decide_true, List.filter_cons_of_pos, RegFile.get]
      split
      · rfl
      · simpa using ih

theorem RegFile.get_put_self (m : RegFile) (r : Reg) (v : Word) (h : ∀ e ∈ m, e.1 ≠ r) :
    RegFile.get (RegFile.put m r v) r = v := by
  induction m with
  | nil => simp [RegFile.put, RegFile.get]
  | cons e t ih =>
    obtain ⟨k, w⟩ := e
    have hk : k ≠ r := h (k, w) (by simp)
    simp only [RegFile.put]
    split
    · simp [RegFile.get]
    · rw [RegFile.get, if_neg (fun e => hk e.symm)]
      exact ih fun e he => h e (by simp [he])

theorem RegFile.get_put_other (m : RegFile) {r q : Reg} (v : Word) (h : q ≠ r) :
    RegFile.get (RegFile.put m r v) q = RegFile.get m q := by
  induction m with
  | nil => simp [RegFile.put, RegFile.get, h]
  | cons e t ih =>
    obtain ⟨k, w⟩ := e
    simp only [RegFile.put]
    split
    · simp [RegFile.get, h]
    · rw [RegFile.get, RegFile.get, ih]

/-- Reading the register that was set gives the word that was set. -/
@[simp] theorem RegFile.get_set_self (m : RegFile) (r : Reg) (v : Word) : (m.set r v).get r = v := by
  unfold RegFile.set
  split
  · next h => rw [RegFile.get_filter_self, h]
  · exact RegFile.get_put_self _ r v (by simp)

/-- Setting a register leaves every other register. -/
@[simp] theorem RegFile.get_set_other (m : RegFile) {r q : Reg} (v : Word) (h : q ≠ r) :
    (m.set r v).get q = m.get q := by
  unfold RegFile.set
  split
  · exact RegFile.get_filter_other m h
  · rw [RegFile.get_put_other _ v h, RegFile.get_filter_other m h]

/-- The canonical form says that keys strictly rise and no entry is at its reset value. -/
theorem RegFile.wf_iff (m : RegFile) :
    m.wf = true ↔ m.Pairwise (fun a b => a.1.lt b.1 = true) ∧ ∀ e ∈ m, e.2 ≠ resetWord e.1 := by
  induction m with
  | nil => simp [RegFile.wf]
  | cons e t ih =>
    obtain ⟨k, v⟩ := e
    cases t with
    | nil => simp [RegFile.wf]
    | cons e' t' =>
      obtain ⟨k', v'⟩ := e'
      rw [RegFile.wf]
      simp only [Bool.and_eq_true, decide_eq_true_eq, ih]
      constructor
      · rintro ⟨⟨h1, h2⟩, h3, h4⟩
        refine ⟨List.pairwise_cons.2 ⟨?_, h3⟩, ?_⟩
        · intro a ha
          rcases List.mem_cons.1 ha with rfl | ha
          · exact h2
          · exact Reg.lt_trans h2 ((List.pairwise_cons.1 h3).1 a ha)
        · intro a ha
          rcases List.mem_cons.1 ha with rfl | ha
          · exact h1
          · exact h4 a ha
      · rintro ⟨h1, h2⟩
        have h3 := List.pairwise_cons.1 h1
        exact ⟨⟨h2 _ List.mem_cons_self, h3.1 _ List.mem_cons_self⟩, h3.2, fun a ha => h2 a (List.mem_cons_of_mem _ ha)⟩

theorem RegFile.mem_put (m : RegFile) (r : Reg) (v : Word) (e : Reg × Word) :
    e ∈ m.put r v ↔ e = (r, v) ∨ e ∈ m := by
  induction m with
  | nil => simp [RegFile.put]
  | cons a t ih =>
    obtain ⟨k, w⟩ := a
    simp only [RegFile.put]
    split
    · simp
    · simp only [List.mem_cons, ih]
      tauto

theorem RegFile.pairwise_put (m : RegFile) (r : Reg) (v : Word) (h : m.Pairwise (fun a b => a.1.lt b.1 = true))
    (n : ∀ e ∈ m, e.1 ≠ r) : (m.put r v).Pairwise (fun a b => a.1.lt b.1 = true) := by
  induction m with
  | nil => simp [RegFile.put]
  | cons a t ih =>
    obtain ⟨k, w⟩ := a
    have hc := List.pairwise_cons.1 h
    simp only [RegFile.put]
    split
    · next hlt =>
      refine List.pairwise_cons.2 ⟨?_, h⟩
      intro b hb
      rcases List.mem_cons.1 hb with rfl | hb
      · exact hlt
      · exact Reg.lt_trans hlt (hc.1 b hb)
    · next hlt =>
      refine List.pairwise_cons.2 ⟨?_, ih hc.2 fun e he => n e (List.mem_cons_of_mem _ he)⟩
      intro b hb
      rcases (RegFile.mem_put t r v b).1 hb with rfl | hb
      · exact Reg.lt_or_gt (fun e => n (k, w) (by simp) e.symm) hlt
      · exact hc.1 b hb

/-- Setting a register keeps the canonical form. -/
theorem RegFile.wf_set (m : RegFile) (r : Reg) (v : Word) (h : m.wf = true) : (m.set r v).wf = true := by
  rw [RegFile.wf_iff] at h
  have hf : (m.filter fun e => e.1 ≠ r).Pairwise (fun a b => a.1.lt b.1 = true) := h.1.sublist List.filter_sublist
  unfold RegFile.set
  split
  · rw [RegFile.wf_iff]
    exact ⟨hf, fun e he => h.2 e (List.mem_filter.1 he).1⟩
  · next hv =>
    rw [RegFile.wf_iff]
    refine ⟨RegFile.pairwise_put _ r v hf (by simp), ?_⟩
    intro e he
    rcases (RegFile.mem_put _ r v e).1 he with rfl | he
    · exact hv
    · exact h.2 e (List.mem_filter.1 he).1

/-- Returning registers to their reset values keeps the canonical form. -/
theorem RegFile.wf_filter (m : RegFile) (p : Reg × Word → Bool) (h : m.wf = true) : RegFile.wf (m.filter p) = true := by
  rw [RegFile.wf_iff] at *
  exact ⟨h.1.sublist List.filter_sublist, fun e he => h.2 e (List.mem_filter.1 he).1⟩

theorem RegFile.mem_set (m : RegFile) (r : Reg) (v : Word) (e : Reg × Word) (h : e ∈ m.set r v) :
    e = (r, v) ∨ e ∈ m := by
  unfold RegFile.set at h
  split at h
  · exact .inr (List.mem_filter.1 h).1
  · rcases (RegFile.mem_put _ r v e).1 h with h | h
    · exact .inl h
    · exact .inr (List.mem_filter.1 h).1

/-! ### Memory -/

theorem Memory.get_filter_self (m : Memory) (a : Nat) : Memory.get (m.filter fun e => e.1 ≠ a) a = 0 := by
  induction m with
  | nil => rfl
  | cons e t ih =>
    obtain ⟨k, w⟩ := e
    by_cases h : k = a
    · simpa [h] using ih
    · simp only [ne_eq, h, not_false_eq_true, decide_true, List.filter_cons_of_pos, Memory.get]
      rw [if_neg (fun e => h e.symm)]
      simpa using ih

theorem Memory.get_filter_other (m : Memory) {a b : Nat} (h : b ≠ a) :
    Memory.get (m.filter fun e => e.1 ≠ a) b = Memory.get m b := by
  induction m with
  | nil => rfl
  | cons e t ih =>
    obtain ⟨k, w⟩ := e
    by_cases hk : k = a
    · subst hk
      simp only [ne_eq, not_true_eq_false, decide_false, Bool.false_eq_true, not_false_eq_true,
        List.filter_cons_of_neg, Memory.get, if_neg h]
      simpa using ih
    · simp only [ne_eq, hk, not_false_eq_true, decide_true, List.filter_cons_of_pos, Memory.get]
      split
      · rfl
      · simpa using ih

theorem Memory.get_put_self (m : Memory) (a : Nat) (v : Byte) (h : ∀ e ∈ m, e.1 ≠ a) :
    Memory.get (Memory.put m a v) a = v := by
  induction m with
  | nil => simp [Memory.put, Memory.get]
  | cons e t ih =>
    obtain ⟨k, w⟩ := e
    have hk : k ≠ a := h (k, w) (by simp)
    simp only [Memory.put]
    split
    · simp [Memory.get]
    · rw [Memory.get, if_neg (fun e => hk e.symm)]
      exact ih fun e he => h e (by simp [he])

theorem Memory.get_put_other (m : Memory) {a b : Nat} (v : Byte) (h : b ≠ a) :
    Memory.get (Memory.put m a v) b = Memory.get m b := by
  induction m with
  | nil => simp [Memory.put, Memory.get, h]
  | cons e t ih =>
    obtain ⟨k, w⟩ := e
    simp only [Memory.put]
    split
    · simp [Memory.get, h]
    · rw [Memory.get, Memory.get, ih]

/-- Reading the byte that was written gives the byte that was written. -/
@[simp] theorem Memory.get_set_self (m : Memory) (a : Nat) (v : Byte) : (Memory.set m a v).get a = v := by
  unfold Memory.set
  split
  · next h => rw [Memory.get_filter_self, h]
  · exact Memory.get_put_self _ a v (by simp)

/-- Writing a byte leaves every other byte. -/
@[simp] theorem Memory.get_set_other (m : Memory) {a b : Nat} (v : Byte) (h : b ≠ a) :
    (Memory.set m a v).get b = m.get b := by
  unfold Memory.set
  split
  · exact Memory.get_filter_other m h
  · rw [Memory.get_put_other _ v h, Memory.get_filter_other m h]

/-- The canonical form says that addresses strictly rise and no byte listed is 0. -/
theorem Memory.wf_iff (m : Memory) :
    m.wf = true ↔ m.Pairwise (fun a b => a.1 < b.1) ∧ ∀ e ∈ m, e.2 ≠ 0 := by
  induction m with
  | nil => simp [Memory.wf]
  | cons e t ih =>
    obtain ⟨k, v⟩ := e
    cases t with
    | nil => simp [Memory.wf]
    | cons e' t' =>
      obtain ⟨k', v'⟩ := e'
      rw [Memory.wf]
      simp only [Bool.and_eq_true, decide_eq_true_eq, ih]
      constructor
      · rintro ⟨⟨h1, h2⟩, h3, h4⟩
        refine ⟨List.pairwise_cons.2 ⟨?_, h3⟩, ?_⟩
        · intro a ha
          rcases List.mem_cons.1 ha with rfl | ha
          · exact h2
          · exact Nat.lt_trans h2 ((List.pairwise_cons.1 h3).1 a ha)
        · intro a ha
          rcases List.mem_cons.1 ha with rfl | ha
          · exact h1
          · exact h4 a ha
      · rintro ⟨h1, h2⟩
        have h3 := List.pairwise_cons.1 h1
        exact ⟨⟨h2 _ List.mem_cons_self, h3.1 _ List.mem_cons_self⟩, h3.2, fun a ha => h2 a (List.mem_cons_of_mem _ ha)⟩

theorem Memory.mem_put (m : Memory) (a : Nat) (v : Byte) (e : Nat × Byte) :
    e ∈ Memory.put m a v ↔ e = (a, v) ∨ e ∈ m := by
  induction m with
  | nil => simp [Memory.put]
  | cons b t ih =>
    obtain ⟨k, w⟩ := b
    simp only [Memory.put]
    split
    · simp
    · simp only [List.mem_cons, ih]
      tauto

theorem Memory.pairwise_put (m : Memory) (a : Nat) (v : Byte) (h : m.Pairwise (fun a b => a.1 < b.1))
    (n : ∀ e ∈ m, e.1 ≠ a) : (Memory.put m a v).Pairwise (fun a b => a.1 < b.1) := by
  induction m with
  | nil => simp [Memory.put]
  | cons b t ih =>
    obtain ⟨k, w⟩ := b
    have hc := List.pairwise_cons.1 h
    have hk : k ≠ a := n (k, w) (by simp)
    simp only [Memory.put]
    split
    · next hlt =>
      refine List.pairwise_cons.2 ⟨?_, h⟩
      intro b hb
      rcases List.mem_cons.1 hb with rfl | hb
      · exact hlt
      · exact Nat.lt_trans hlt (hc.1 b hb)
    · next hlt =>
      refine List.pairwise_cons.2 ⟨?_, ih hc.2 fun e he => n e (List.mem_cons_of_mem _ he)⟩
      intro b hb
      rcases (Memory.mem_put t a v b).1 hb with rfl | hb
      · show k < a
        omega
      · exact hc.1 b hb

/-- Writing a byte keeps the canonical form. -/
theorem Memory.wf_set (m : Memory) (a : Nat) (v : Byte) (h : m.wf = true) : (Memory.set m a v).wf = true := by
  rw [Memory.wf_iff] at h
  have hf : (m.filter fun e => e.1 ≠ a).Pairwise (fun a b => a.1 < b.1) := h.1.sublist List.filter_sublist
  unfold Memory.set
  split
  · rw [Memory.wf_iff]
    exact ⟨hf, fun e he => h.2 e (List.mem_filter.1 he).1⟩
  · next hv =>
    rw [Memory.wf_iff]
    refine ⟨Memory.pairwise_put _ a v hf (by simp), ?_⟩
    intro e he
    rcases (Memory.mem_put _ a v e).1 he with rfl | he
    · exact hv
    · exact h.2 e (List.mem_filter.1 he).1

/-- Zeroing bytes keeps the canonical form. -/
theorem Memory.wf_filter (m : Memory) (p : Nat × Byte → Bool) (h : m.wf = true) : Memory.wf (m.filter p) = true := by
  rw [Memory.wf_iff] at *
  exact ⟨h.1.sublist List.filter_sublist, fun e he => h.2 e (List.mem_filter.1 he).1⟩

theorem Memory.mem_set (m : Memory) (a : Nat) (v : Byte) (e : Nat × Byte) (h : e ∈ Memory.set m a v) :
    e = (a, v) ∨ e ∈ m := by
  unfold Memory.set at h
  split at h
  · exact .inr (List.mem_filter.1 h).1
  · rcases (Memory.mem_put _ a v e).1 h with h | h
    · exact .inl h
    · exact .inr (List.mem_filter.1 h).1

end Sys2Proof.Machine
end

