-- ==== Sys2Proof/Laws/Keep.lean ====
section
/-!
SUPPORT. Every operation over memory and registers keeps the canonical forms: the write of bytes, each primitive action, and
so every script; and what a write of bytes leaves in memory.
-/

namespace Sys2Proof.Machine

/-! ### Writing consecutive bytes -/

/-- Writing bytes keeps the canonical form of memory. -/
theorem memPut_wf (lost : Nat → Bool) (bs : List Byte) :
    ∀ (m : Memory) (a : Nat), m.wf = true → (memPut lost m a bs).wf = true := by
  induction bs with
  | nil => exact fun m a h => h
  | cons b r ih =>
    intro m a h
    refine ih _ _ ?_
    split
    · exact Memory.wf_set m a b h
    · exact h

/-- Writing bytes leaves every byte outside them. -/
theorem memPut_get_other (lost : Nat → Bool) (bs : List Byte) :
    ∀ (m : Memory) (a q : Nat), q < a ∨ a + bs.length ≤ q → (memPut lost m a bs).get q = m.get q := by
  induction bs with
  | nil => exact fun m a q h => rfl
  | cons b r ih =>
    intro m a q h
    rw [List.length_cons] at h
    rw [memPut, ih _ _ _ (by omega)]
    split
    · exact Memory.get_set_other m b (by omega)
    · rfl

/-- A byte that was written reads back where its address exists and is not lost; elsewhere nothing changes. -/
theorem memPut_get_at (lost : Nat → Bool) (bs : List Byte) :
    ∀ (m : Memory) (a i : Nat) (h : i < bs.length),
      (memPut lost m a bs).get (a + i) = if memAddr (a + i) && !lost (a + i) then bs[i] else m.get (a + i) := by
  induction bs with
  | nil => exact fun m a i h => absurd h (Nat.not_lt_zero i)
  | cons b r ih =>
    intro m a i h
    rw [memPut]
    match i with
    | 0 =>
      rw [memPut_get_other lost r _ _ _ (.inl (by omega))]
      split <;> simp_all
    | i + 1 =>
      have e : a + (i + 1) = a + 1 + i := by omega
      rw [e, ih _ _ i (by simpa using h)]
      simp only [List.getElem_cons_succ]
      congr 1
      split
      · exact Memory.get_set_other m b (by omega)
      · rfl

/-- Writing bytes lists no address but those it had and those that exist. -/
theorem memPut_exists (lost : Nat → Bool) (bs : List Byte) :
    ∀ (m : Memory) (a : Nat), (∀ e ∈ m, memAddr e.1 = true) → ∀ e ∈ memPut lost m a bs, memAddr e.1 = true := by
  induction bs with
  | nil => exact fun m a h => h
  | cons b r ih =>
    intro m a h
    refine ih _ _ ?_
    split
    · next g =>
      intro e he
      rcases Memory.mem_set m a b e he with rfl | he
      · simp_all
      · exact h e he
    · exact h

/-! ### Primitive actions and scripts -/

/-- Registers and memory are both in canonical form. -/
def Dev.canonical (d : Dev) : Prop := d.regs.wf = true ∧ d.mem.wf = true

/-- Every primitive action keeps both canonical forms. -/
theorem Prim.apply_canonical (p : Prim) (d : Dev) (h : d.canonical) : (p.apply d).canonical := by
  obtain ⟨hr, hm⟩ := h
  cases p with
  | wr r v =>
    rw [Prim.apply]
    split
    · exact ⟨RegFile.wf_set _ r _ hr, hm⟩
    · exact ⟨hr, hm⟩
  | fstate r w =>
    rw [Prim.apply]
    split
    · exact ⟨RegFile.wf_set _ r _ hr, hm⟩
    · exact ⟨hr, hm⟩
  | regReset p => exact ⟨RegFile.wf_filter _ _ hr, hm⟩
  | mem a bs => exact ⟨hr, memPut_wf _ bs _ a hm⟩
  | memZero p => exact ⟨hr, Memory.wf_filter _ _ hm⟩
  | ext f => exact ⟨hr, hm⟩

/-- What every primitive action keeps, every script keeps. -/
theorem Prog.run_keeps {P : Dev → Prop} (hp : ∀ (p : Prim) (d : Dev), P d → P (p.apply d)) (p : Prog) :
    ∀ d : Dev, P d → P (p.run d) := by
  induction p with
  | nop => exact fun d h => h
  | act p => exact fun d h => hp p d h
  | andThen a b ha hb => exact fun d h => hb _ (ha d h)
  | read k ih => exact fun d h => ih d d h

/-- Every script keeps both canonical forms. -/
theorem Prog.run_canonical (p : Prog) (d : Dev) (h : d.canonical) : (p.run d).canonical :=
  p.run_keeps Prim.apply_canonical d h

end Sys2Proof.Machine
end

