-- ==== Sys2Proof/Laws/Run.lean ====
section
/-!
SUPPORT. Laws of scripts: what each primitive, each way of joining scripts and each field operation does, and all that
`settle` and `perform` can do.
-/

namespace Sys2Proof.Machine

/-! ### Joining scripts -/

@[simp] theorem run_nop (d : Dev) : Prog.nop.run d = d := rfl
@[simp] theorem run_andThen (a b : Prog) (d : Dev) : (Prog.andThen a b).run d = b.run (a.run d) := rfl
@[simp] theorem run_read (k : Dev → Prog) (d : Dev) : (Prog.read k).run d = (k d).run d := rfl
theorem run_act (p : Prim) (d : Dev) : (Prog.act p).run d = p.apply d := rfl
@[simp] theorem run_seq_nil (d : Dev) : (seq []).run d = d := rfl
@[simp] theorem run_seq_cons (p : Prog) (l : List Prog) (d : Dev) : (seq (p :: l)).run d = (seq l).run (p.run d) := by
  cases l <;> rfl
@[simp] theorem run_each_nil {α : Type} (f : α → Prog) (d : Dev) : (each [] f).run d = d := rfl
@[simp] theorem run_each_cons {α : Type} (a : α) (l : List α) (f : α → Prog) (d : Dev) :
    (each (a :: l) f).run d = (each l f).run ((f a).run d) := by
  simp [each]
@[simp] theorem run_doIf (b : Bool) (p : Prog) (d : Dev) : (doIf b p).run d = if b then p.run d else d := by
  cases b <;> rfl
@[simp] theorem run_doWhen (c : Dev → Bool) (p : Prog) (d : Dev) :
    (doWhen c p).run d = if c d then p.run d else d := by
  simp only [doWhen, run_read]
  split <;> rfl

/-- What holds of a device and is kept by the script for each element holds after all of them. -/
theorem each_keeps {α : Type} (P : Dev → Prop) (f : α → Prog) (h : ∀ a d, P d → P ((f a).run d)) :
    ∀ (l : List α) (d : Dev), P d → P ((each l f).run d)
  | [], _, hd => hd
  | a :: l, d, hd => by
    rw [run_each_cons]
    exact each_keeps P f h l _ (h a d hd)

/-! ### Primitives -/

@[simp] theorem ext_regs (f : Ext → Ext) (d : Dev) : ((ext f).run d).regs = d.regs := rfl
@[simp] theorem ext_mem (f : Ext → Ext) (d : Dev) : ((ext f).run d).mem = d.mem := rfl
@[simp] theorem ext_x (f : Ext → Ext) (d : Dev) : ((ext f).run d).x = f d.x := rfl
@[simp] theorem ext_reg (f : Ext → Ext) (d : Dev) (r : Reg) : ((ext f).run d).reg r = d.reg r := rfl
@[simp] theorem ext_rd (f : Ext → Ext) (d : Dev) (r : Reg) : ((ext f).run d).rd r = d.rd r := rfl
@[simp] theorem ext_fld (f : Ext → Ext) (d : Dev) (g : Field) : ((ext f).run d).fld g = d.fld g := rfl
@[simp] theorem emit_regs (o : Output) (d : Dev) : ((emit o).run d).regs = d.regs := rfl
@[simp] theorem emit_mem (o : Output) (d : Dev) : ((emit o).run d).mem = d.mem := rfl
@[simp] theorem emit_x (o : Output) (d : Dev) : ((emit o).run d).x = { d.x with out := d.x.out ++ [o] } := rfl

@[simp] theorem wr_mem (r : Reg) (v : Nat) (d : Dev) : ((wr r v).run d).mem = d.mem := by
  simp only [wr, run_act, Prim.apply]
  split <;> rfl
@[simp] theorem wr_x (r : Reg) (v : Nat) (d : Dev) : ((wr r v).run d).x = d.x := by
  simp only [wr, run_act, Prim.apply]
  split <;> rfl

/-- A written register holds the bits of the word that it has (R8). -/
theorem wr_reg_self (r : Reg) (v : Nat) (d : Dev) (h : r.valid = true) (n : isFstate r.kind = false) :
    ((wr r v).run d).reg r = BitVec.ofNat 32 v &&& implMask r := by
  simp [wr, run_act, Prim.apply, h, n, Dev.reg]

/-- A write leaves every other register. -/
theorem wr_reg_other {r q : Reg} (v : Nat) (d : Dev) (h : q ≠ r) : ((wr r v).run d).reg q = d.reg q := by
  simp only [wr, run_act, Prim.apply]
  split
  · simp [Dev.reg, h]
  · rfl

theorem wr_rd_other {r q : Reg} (v : Nat) (d : Dev) (h : q ≠ r) : ((wr r v).run d).rd q = d.rd q := by
  simp [Dev.rd, wr_reg_other v d h]

theorem wr_fld_other {r : Reg} {f : Field} (v : Nat) (d : Dev) (h : f.reg ≠ r) : ((wr r v).run d).fld f = d.fld f := by
  simp [Dev.fld, wr_rd_other v d h]

/-! ### Which words exist -/

theorem Reg.valid_single {k : RK} (h : (regInfo k).dims = []) : Reg.valid ⟨k, 0, 0, 0⟩ = true := by
  simp [Reg.valid, h]

theorem Reg.valid_indexed {k : RK} {a s i : Nat} (h : (regInfo k).dims = [(a, s)]) (hi : i < a) :
    Reg.valid ⟨k, i, 0, 0⟩ = true := by
  simp [Reg.valid, h, hi]

theorem Reg.valid_indexed2 {k : RK} {a s b t i j : Nat} (h : (regInfo k).dims = [(a, s), (b, t)]) (hi : i < a)
    (hj : j < b) : Reg.valid ⟨k, i, j, 0⟩ = true := by
  simp [Reg.valid, h, hi, hj]

/-! ### Fields -/

@[simp] theorem setF_mem (f : Field) (v : Nat) (d : Dev) : ((setF f v).run d).mem = d.mem := by simp [setF]
@[simp] theorem setF_x (f : Field) (v : Nat) (d : Dev) : ((setF f v).run d).x = d.x := by simp [setF]
@[simp] theorem setB_mem (f : Field) (b : Bool) (d : Dev) : ((setB f b).run d).mem = d.mem := by simp [setB]
@[simp] theorem setB_x (f : Field) (b : Bool) (d : Dev) : ((setB f b).run d).x = d.x := by simp [setB]

theorem setF_reg_other {f : Field} {q : Reg} (v : Nat) (d : Dev) (h : q ≠ f.reg) :
    ((setF f v).run d).reg q = d.reg q := by
  simp only [setF, run_read]
  exact wr_reg_other _ d h

theorem setF_fld_other {f g : Field} (v : Nat) (d : Dev) (h : g.reg ≠ f.reg) : ((setF f v).run d).fld g = d.fld g := by
  simp [Dev.fld, Dev.rd, setF_reg_other v d h]

theorem bitsOf_and {x m lo n : Nat} (h : ∀ i, i < n → m.testBit (lo + i) = true) :
    bitsOf (x &&& m) lo n = bitsOf x lo n := by
  apply Nat.eq_of_testBit_eq
  intro i
  rw [testBit_bitsOf, testBit_bitsOf, Nat.testBit_and]
  by_cases hi : i < n
  · simp [hi, h i hi]
  · simp [hi]

/-- Every bit of the field is one the register has. -/
def Field.within (f : Field) : Bool :=
  f.reg.valid && !isFstate f.reg.kind && decide (f.lo + f.width ≤ 32) &&
    (List.range f.width).all fun i => (regInfo f.reg.kind).impl.testBit (f.lo + i)

theorem toNat_and_mask (v : Nat) (r : Reg) :
    (BitVec.ofNat 32 v &&& implMask r).toNat = v % 2 ^ 32 &&& (regInfo r.kind).impl % 2 ^ 32 := by
  simp [implMask]

theorem wr_fld_self {r : Reg} (f : Field) (v : Nat) (d : Dev) (e : f.reg = r) (h : f.within = true) :
    ((wr r v).run d).fld f = bitsOf v f.lo f.width := by
  subst e
  simp only [Field.within, Bool.and_eq_true, Bool.not_eq_true', decide_eq_true_eq, List.all_eq_true,
    List.mem_range] at h
  obtain ⟨⟨⟨h1, h2⟩, h3⟩, h4⟩ := h
  rw [Dev.fld, Dev.rd, wr_reg_self _ _ _ h1 h2, toNat_and_mask]
  rw [bitsOf_and]
  · apply Nat.eq_of_testBit_eq
    intro i
    rw [testBit_bitsOf, testBit_bitsOf, Nat.testBit_mod_two_pow]
    by_cases hi : i < f.width
    · simp [show f.lo + i < 32 by omega]
    · simp [hi]
  · intro i hi
    rw [Nat.testBit_mod_two_pow, h4 i hi]
    simp only [Bool.and_true, decide_eq_true_eq]
    omega

/-- A field that is set holds the value, reduced to its width. -/
theorem setF_fld_self (f : Field) (v : Nat) (d : Dev) (h : f.within = true) :
    ((setF f v).run d).fld f = v % 2 ^ f.width := by
  simp only [setF, run_read]
  rw [wr_fld_self f _ d rfl h, bitsOf_putBits_self]

/-- Setting a field leaves the word's fields apart from it. -/
theorem setF_fld_apart {f g : Field} (v : Nat) (d : Dev) (e : g.reg = f.reg) (h : g.within = true)
    (a : g.lo + g.width ≤ f.lo ∨ f.lo + f.width ≤ g.lo) : ((setF f v).run d).fld g = d.fld g := by
  simp only [setF, run_read]
  rw [wr_fld_self g _ d e h, bitsOf_putBits_apart _ _ a, Dev.fld, e]

theorem setB_flag_self (f : Field) (b : Bool) (d : Dev) (h : f.within = true) (w : f.width = 1) :
    ((setB f b).run d).flag f = b := by
  simp only [setB, Dev.flag, setF_fld_self f _ d h, w]
  cases b <;> rfl

/-! ### What a command row can do -/

@[simp] theorem sendVector_regs (v : Nat) (d : Dev) : ((sendVector v).run d).regs = d.regs := by
  simp only [sendVector, run_read]
  split <;> rfl
@[simp] theorem sendVector_mem (v : Nat) (d : Dev) : ((sendVector v).run d).mem = d.mem := by
  simp only [sendVector, run_read]
  split <;> rfl

/-- Two devices agree but for what has left the device and for the MSI-X pending bits and conditions. -/
def SameButMessages (d e : Dev) : Prop :=
  e.regs = d.regs ∧ e.mem = d.mem ∧
    e.x = { d.x with out := e.x.out, ctl := { d.x.ctl with vecPend := e.x.ctl.vecPend, vecCond := e.x.ctl.vecCond } }

theorem SameButMessages.refl (d : Dev) : SameButMessages d d := ⟨rfl, rfl, rfl⟩

theorem SameButMessages.trans {a b c : Dev} (h : SameButMessages a b) (g : SameButMessages b c) :
    SameButMessages a c := by
  obtain ⟨h1, h2, h3⟩ := h
  obtain ⟨g1, g2, g3⟩ := g
  refine ⟨g1.trans h1, g2.trans h2, ?_⟩
  rw [g3, h3]

theorem sendVector_same (v : Nat) (d : Dev) : SameButMessages d ((sendVector v).run d) := by
  simp only [sendVector, run_read]
  split <;> exact ⟨rfl, rfl, rfl⟩

/-- Bringing the interrupt conditions up to date changes nothing but messages. -/
theorem settle_same (d : Dev) : SameButMessages d (settle.run d) := by
  simp only [settle, run_read]
  split
  · exact .refl d
  · simp only [run_seq_cons, run_seq_nil]
    refine SameButMessages.trans (each_keeps (SameButMessages d) sendVector ?_ _ d (.refl d)) ⟨rfl, rfl, rfl⟩
    intro a e h
    exact h.trans (sendVector_same a e)

@[simp] theorem settle_regs (d : Dev) : (settle.run d).regs = d.regs := (settle_same d).1
@[simp] theorem settle_mem (d : Dev) : (settle.run d).mem = d.mem := (settle_same d).2.1
@[simp] theorem settle_reg (d : Dev) (r : Reg) : (settle.run d).reg r = d.reg r := by simp [Dev.reg]
@[simp] theorem settle_rd (d : Dev) (r : Reg) : (settle.run d).rd r = d.rd r := by simp [Dev.rd]
@[simp] theorem settle_fld (d : Dev) (f : Field) : (settle.run d).fld f = d.fld f := by simp [Dev.fld]
@[simp] theorem settle_flag (d : Dev) (f : Field) : (settle.run d).flag f = d.flag f := by simp [Dev.flag]

/-- A row whose domain acts runs its script, then settles; the queue is as before. -/
theorem perform_acts {dom : Domain} {p : Prog} {s : State} (h : s.dev.acts dom = true) :
    perform dom p s = .next { s with dev := settle.run (p.run s.dev) } := by
  simp [perform, h]

/-- A row whose domain does not act changes nothing. -/
theorem perform_still {dom : Domain} {p : Prog} {s : State} (h : s.dev.acts dom = false) :
    perform dom p s = .next s := by
  simp [perform, h]

/-- What every script keeps and settling keeps, every row keeps. -/
theorem perform_keeps {P : Dev → Prop} {dom : Domain} {p : Prog} {s t : State}
    (hp : P s.dev → P ((seq [p, settle]).run s.dev)) (h : perform dom p s = .next t) (hs : P s.dev) : P t.dev := by
  unfold perform at h
  injection h with h
  subst h
  split
  · exact hp hs
  · exact hs

end Sys2Proof.Machine
end

