-- ==== Sys2Proof/Laws/State.lean ====
section
/-!
SUPPORT. Laws of the state: for every update of a part of the state, what it changes and what it leaves, so that no proof
unfolds a record update.
-/

namespace Sys2Proof.Machine

/-! ### Parts of the typed state -/

@[simp] theorem timeUpd_regs (f : TimeState → TimeState) (d : Dev) : ((timeUpd f).run d).regs = d.regs := rfl
@[simp] theorem timeUpd_mem (f : TimeState → TimeState) (d : Dev) : ((timeUpd f).run d).mem = d.mem := rfl
@[simp] theorem timeUpd_x (f : TimeState → TimeState) (d : Dev) :
    ((timeUpd f).run d).x = { d.x with time := f d.x.time } := rfl
@[simp] theorem timeUpd_rd (f : TimeState → TimeState) (d : Dev) (r : Reg) : ((timeUpd f).run d).rd r = d.rd r := rfl
@[simp] theorem timeUpd_fld (f : TimeState → TimeState) (d : Dev) (g : Field) : ((timeUpd f).run d).fld g = d.fld g := rfl
@[simp] theorem audUpd_regs (f : AudState → AudState) (d : Dev) : ((audUpd f).run d).regs = d.regs := rfl
@[simp] theorem audUpd_mem (f : AudState → AudState) (d : Dev) : ((audUpd f).run d).mem = d.mem := rfl
@[simp] theorem audUpd_x (f : AudState → AudState) (d : Dev) :
    ((audUpd f).run d).x = { d.x with aud := f d.x.aud } := rfl
@[simp] theorem audUpd_rd (f : AudState → AudState) (d : Dev) (r : Reg) : ((audUpd f).run d).rd r = d.rd r := rfl
@[simp] theorem audUpd_fld (f : AudState → AudState) (d : Dev) (g : Field) : ((audUpd f).run d).fld g = d.fld g := rfl
@[simp] theorem ctlUpd_regs (f : CtlState → CtlState) (d : Dev) : ((ctlUpd f).run d).regs = d.regs := rfl
@[simp] theorem ctlUpd_mem (f : CtlState → CtlState) (d : Dev) : ((ctlUpd f).run d).mem = d.mem := rfl
@[simp] theorem ctlUpd_x (f : CtlState → CtlState) (d : Dev) :
    ((ctlUpd f).run d).x = { d.x with ctl := f d.x.ctl } := rfl
@[simp] theorem ctlUpd_rd (f : CtlState → CtlState) (d : Dev) (r : Reg) : ((ctlUpd f).run d).rd r = d.rd r := rfl
@[simp] theorem ctlUpd_fld (f : CtlState → CtlState) (d : Dev) (g : Field) : ((ctlUpd f).run d).fld g = d.fld g := rfl
@[simp] theorem bootUpd_regs (f : BootState → BootState) (d : Dev) : ((bootUpd f).run d).regs = d.regs := rfl
@[simp] theorem bootUpd_mem (f : BootState → BootState) (d : Dev) : ((bootUpd f).run d).mem = d.mem := rfl
@[simp] theorem bootUpd_x (f : BootState → BootState) (d : Dev) :
    ((bootUpd f).run d).x = { d.x with boot := f d.x.boot } := rfl
@[simp] theorem bootUpd_rd (f : BootState → BootState) (d : Dev) (r : Reg) : ((bootUpd f).run d).rd r = d.rd r := rfl
@[simp] theorem bootUpd_fld (f : BootState → BootState) (d : Dev) (g : Field) : ((bootUpd f).run d).fld g = d.fld g := rfl
@[simp] theorem pwrUpd_regs (f : PwrState → PwrState) (d : Dev) : ((pwrUpd f).run d).regs = d.regs := rfl
@[simp] theorem pwrUpd_mem (f : PwrState → PwrState) (d : Dev) : ((pwrUpd f).run d).mem = d.mem := rfl
@[simp] theorem pwrUpd_x (f : PwrState → PwrState) (d : Dev) :
    ((pwrUpd f).run d).x = { d.x with pwr := f d.x.pwr } := rfl
@[simp] theorem pwrUpd_rd (f : PwrState → PwrState) (d : Dev) (r : Reg) : ((pwrUpd f).run d).rd r = d.rd r := rfl
@[simp] theorem pwrUpd_fld (f : PwrState → PwrState) (d : Dev) (g : Field) : ((pwrUpd f).run d).fld g = d.fld g := rfl
@[simp] theorem hbmUpd_regs (f : HbmMem → HbmMem) (d : Dev) : ((hbmUpd f).run d).regs = d.regs := rfl
@[simp] theorem hbmUpd_mem (f : HbmMem → HbmMem) (d : Dev) : ((hbmUpd f).run d).mem = d.mem := rfl
@[simp] theorem hbmUpd_x (f : HbmMem → HbmMem) (d : Dev) :
    ((hbmUpd f).run d).x = { d.x with hbm := f d.x.hbm } := rfl
@[simp] theorem hbmUpd_rd (f : HbmMem → HbmMem) (d : Dev) (r : Reg) : ((hbmUpd f).run d).rd r = d.rd r := rfl
@[simp] theorem hbmUpd_fld (f : HbmMem → HbmMem) (d : Dev) (g : Field) : ((hbmUpd f).run d).fld g = d.fld g := rfl
@[simp] theorem mtxUpd_regs (f : MtxState → MtxState) (d : Dev) : ((mtxUpd f).run d).regs = d.regs := rfl
@[simp] theorem mtxUpd_mem (f : MtxState → MtxState) (d : Dev) : ((mtxUpd f).run d).mem = d.mem := rfl
@[simp] theorem mtxUpd_x (f : MtxState → MtxState) (d : Dev) :
    ((mtxUpd f).run d).x = { d.x with mtx := f d.x.mtx } := rfl
@[simp] theorem mtxUpd_rd (f : MtxState → MtxState) (d : Dev) (r : Reg) : ((mtxUpd f).run d).rd r = d.rd r := rfl
@[simp] theorem mtxUpd_fld (f : MtxState → MtxState) (d : Dev) (g : Field) : ((mtxUpd f).run d).fld g = d.fld g := rfl
@[simp] theorem twinUpd_regs (f : TwinState → TwinState) (d : Dev) : ((twinUpd f).run d).regs = d.regs := rfl
@[simp] theorem twinUpd_mem (f : TwinState → TwinState) (d : Dev) : ((twinUpd f).run d).mem = d.mem := rfl
@[simp] theorem twinUpd_x (f : TwinState → TwinState) (d : Dev) :
    ((twinUpd f).run d).x = { d.x with twin := f d.x.twin } := rfl
@[simp] theorem twinUpd_rd (f : TwinState → TwinState) (d : Dev) (r : Reg) : ((twinUpd f).run d).rd r = d.rd r := rfl
@[simp] theorem twinUpd_fld (f : TwinState → TwinState) (d : Dev) (g : Field) : ((twinUpd f).run d).fld g = d.fld g := rfl

/-! ### Parts held by index -/

@[simp] theorem ainUpd_regs (n : Nat) (f : AudIn → AudIn) (d : Dev) : ((ainUpd n f).run d).regs = d.regs := rfl
@[simp] theorem ainUpd_mem (n : Nat) (f : AudIn → AudIn) (d : Dev) : ((ainUpd n f).run d).mem = d.mem := rfl
@[simp] theorem ainUpd_rd (n : Nat) (f : AudIn → AudIn) (d : Dev) (r : Reg) : ((ainUpd n f).run d).rd r = d.rd r := rfl
@[simp] theorem ainUpd_fld (n : Nat) (f : AudIn → AudIn) (d : Dev) (g : Field) : ((ainUpd n f).run d).fld g = d.fld g := rfl
/-- The part at the index is changed. -/
@[simp] theorem ainUpd_self (n : Nat) (f : AudIn → AudIn) (d : Dev) : ((ainUpd n f).run d).ain n = f (d.ain n) :=
  KV.get_upd_self _ _ _ _
/-- Every other part is as before. -/
@[simp] theorem ainUpd_other {n k : Nat} (f : AudIn → AudIn) (d : Dev) (h : k ≠ n) :
    ((ainUpd n f).run d).ain k = d.ain k :=
  KV.get_upd_other _ _ _ h
@[simp] theorem aoutUpd_regs (n : Nat) (f : AudOut → AudOut) (d : Dev) : ((aoutUpd n f).run d).regs = d.regs := rfl
@[simp] theorem aoutUpd_mem (n : Nat) (f : AudOut → AudOut) (d : Dev) : ((aoutUpd n f).run d).mem = d.mem := rfl
@[simp] theorem aoutUpd_rd (n : Nat) (f : AudOut → AudOut) (d : Dev) (r : Reg) : ((aoutUpd n f).run d).rd r = d.rd r := rfl
@[simp] theorem aoutUpd_fld (n : Nat) (f : AudOut → AudOut) (d : Dev) (g : Field) : ((aoutUpd n f).run d).fld g = d.fld g := rfl
/-- The part at the index is changed. -/
@[simp] theorem aoutUpd_self (n : Nat) (f : AudOut → AudOut) (d : Dev) : ((aoutUpd n f).run d).aout n = f (d.aout n) :=
  KV.get_upd_self _ _ _ _
/-- Every other part is as before. -/
@[simp] theorem aoutUpd_other {n k : Nat} (f : AudOut → AudOut) (d : Dev) (h : k ≠ n) :
    ((aoutUpd n f).run d).aout k = d.aout k :=
  KV.get_upd_other _ _ _ h
@[simp] theorem ringUpd_regs (n : Nat) (f : RingMem → RingMem) (d : Dev) : ((ringUpd n f).run d).regs = d.regs := rfl
@[simp] theorem ringUpd_mem (n : Nat) (f : RingMem → RingMem) (d : Dev) : ((ringUpd n f).run d).mem = d.mem := rfl
@[simp] theorem ringUpd_rd (n : Nat) (f : RingMem → RingMem) (d : Dev) (r : Reg) : ((ringUpd n f).run d).rd r = d.rd r := rfl
@[simp] theorem ringUpd_fld (n : Nat) (f : RingMem → RingMem) (d : Dev) (g : Field) : ((ringUpd n f).run d).fld g = d.fld g := rfl
/-- The part at the index is changed. -/
@[simp] theorem ringUpd_self (n : Nat) (f : RingMem → RingMem) (d : Dev) : ((ringUpd n f).run d).ringm n = f (d.ringm n) :=
  KV.get_upd_self _ _ _ _
/-- Every other part is as before. -/
@[simp] theorem ringUpd_other {n k : Nat} (f : RingMem → RingMem) (d : Dev) (h : k ≠ n) :
    ((ringUpd n f).run d).ringm k = d.ringm k :=
  KV.get_upd_other _ _ _ h
@[simp] theorem sessUpd_regs (n : Nat) (f : SessMem → SessMem) (d : Dev) : ((sessUpd n f).run d).regs = d.regs := rfl
@[simp] theorem sessUpd_mem (n : Nat) (f : SessMem → SessMem) (d : Dev) : ((sessUpd n f).run d).mem = d.mem := rfl
@[simp] theorem sessUpd_rd (n : Nat) (f : SessMem → SessMem) (d : Dev) (r : Reg) : ((sessUpd n f).run d).rd r = d.rd r := rfl
@[simp] theorem sessUpd_fld (n : Nat) (f : SessMem → SessMem) (d : Dev) (g : Field) : ((sessUpd n f).run d).fld g = d.fld g := rfl
/-- The part at the index is changed. -/
@[simp] theorem sessUpd_self (n : Nat) (f : SessMem → SessMem) (d : Dev) : ((sessUpd n f).run d).sessm n = f (d.sessm n) :=
  KV.get_upd_self _ _ _ _
/-- Every other part is as before. -/
@[simp] theorem sessUpd_other {n k : Nat} (f : SessMem → SessMem) (d : Dev) (h : k ≠ n) :
    ((sessUpd n f).run d).sessm k = d.sessm k :=
  KV.get_upd_other _ _ _ h
@[simp] theorem refUpd_regs (n : Nat) (f : RefCand → RefCand) (d : Dev) : ((refUpd n f).run d).regs = d.regs := rfl
@[simp] theorem refUpd_mem (n : Nat) (f : RefCand → RefCand) (d : Dev) : ((refUpd n f).run d).mem = d.mem := rfl
@[simp] theorem refUpd_rd (n : Nat) (f : RefCand → RefCand) (d : Dev) (r : Reg) : ((refUpd n f).run d).rd r = d.rd r := rfl
@[simp] theorem refUpd_fld (n : Nat) (f : RefCand → RefCand) (d : Dev) (g : Field) : ((refUpd n f).run d).fld g = d.fld g := rfl
/-- The part at the index is changed. -/
@[simp] theorem refUpd_self (n : Nat) (f : RefCand → RefCand) (d : Dev) : ((refUpd n f).run d).refm n = f (d.refm n) :=
  KV.get_upd_self _ _ _ _
/-- Every other part is as before. -/
@[simp] theorem refUpd_other {n k : Nat} (f : RefCand → RefCand) (d : Dev) (h : k ≠ n) :
    ((refUpd n f).run d).refm k = d.refm k :=
  KV.get_upd_other _ _ _ h
@[simp] theorem tbUpd_regs (n : Nat) (f : TbClock → TbClock) (d : Dev) : ((tbUpd n f).run d).regs = d.regs := rfl
@[simp] theorem tbUpd_mem (n : Nat) (f : TbClock → TbClock) (d : Dev) : ((tbUpd n f).run d).mem = d.mem := rfl
@[simp] theorem tbUpd_rd (n : Nat) (f : TbClock → TbClock) (d : Dev) (r : Reg) : ((tbUpd n f).run d).rd r = d.rd r := rfl
@[simp] theorem tbUpd_fld (n : Nat) (f : TbClock → TbClock) (d : Dev) (g : Field) : ((tbUpd n f).run d).fld g = d.fld g := rfl
/-- The part at the index is changed. -/
@[simp] theorem tbUpd_self (n : Nat) (f : TbClock → TbClock) (d : Dev) : ((tbUpd n f).run d).tbm n = f (d.tbm n) :=
  KV.get_upd_self _ _ _ _
/-- Every other part is as before. -/
@[simp] theorem tbUpd_other {n k : Nat} (f : TbClock → TbClock) (d : Dev) (h : k ≠ n) :
    ((tbUpd n f).run d).tbm k = d.tbm k :=
  KV.get_upd_other _ _ _ h
@[simp] theorem otgUpd_regs (n : Nat) (f : OtgMem → OtgMem) (d : Dev) : ((otgUpd n f).run d).regs = d.regs := rfl
@[simp] theorem otgUpd_mem (n : Nat) (f : OtgMem → OtgMem) (d : Dev) : ((otgUpd n f).run d).mem = d.mem := rfl
@[simp] theorem otgUpd_rd (n : Nat) (f : OtgMem → OtgMem) (d : Dev) (r : Reg) : ((otgUpd n f).run d).rd r = d.rd r := rfl
@[simp] theorem otgUpd_fld (n : Nat) (f : OtgMem → OtgMem) (d : Dev) (g : Field) : ((otgUpd n f).run d).fld g = d.fld g := rfl
/-- The part at the index is changed. -/
@[simp] theorem otgUpd_self (n : Nat) (f : OtgMem → OtgMem) (d : Dev) : ((otgUpd n f).run d).otgm n = f (d.otgm n) :=
  KV.get_upd_self _ _ _ _
/-- Every other part is as before. -/
@[simp] theorem otgUpd_other {n k : Nat} (f : OtgMem → OtgMem) (d : Dev) (h : k ≠ n) :
    ((otgUpd n f).run d).otgm k = d.otgm k :=
  KV.get_upd_other _ _ _ h
@[simp] theorem hlkUpd_regs (n : Nat) (f : HlkMem → HlkMem) (d : Dev) : ((hlkUpd n f).run d).regs = d.regs := rfl
@[simp] theorem hlkUpd_mem (n : Nat) (f : HlkMem → HlkMem) (d : Dev) : ((hlkUpd n f).run d).mem = d.mem := rfl
@[simp] theorem hlkUpd_rd (n : Nat) (f : HlkMem → HlkMem) (d : Dev) (r : Reg) : ((hlkUpd n f).run d).rd r = d.rd r := rfl
@[simp] theorem hlkUpd_fld (n : Nat) (f : HlkMem → HlkMem) (d : Dev) (g : Field) : ((hlkUpd n f).run d).fld g = d.fld g := rfl
/-- The part at the index is changed. -/
@[simp] theorem hlkUpd_self (n : Nat) (f : HlkMem → HlkMem) (d : Dev) : ((hlkUpd n f).run d).hlkm n = f (d.hlkm n) :=
  KV.get_upd_self _ _ _ _
/-- Every other part is as before. -/
@[simp] theorem hlkUpd_other {n k : Nat} (f : HlkMem → HlkMem) (d : Dev) (h : k ≠ n) :
    ((hlkUpd n f).run d).hlkm k = d.hlkm k :=
  KV.get_upd_other _ _ _ h
@[simp] theorem ingUpd_regs (n : Nat) (f : IngMem → IngMem) (d : Dev) : ((ingUpd n f).run d).regs = d.regs := rfl
@[simp] theorem ingUpd_mem (n : Nat) (f : IngMem → IngMem) (d : Dev) : ((ingUpd n f).run d).mem = d.mem := rfl
@[simp] theorem ingUpd_rd (n : Nat) (f : IngMem → IngMem) (d : Dev) (r : Reg) : ((ingUpd n f).run d).rd r = d.rd r := rfl
@[simp] theorem ingUpd_fld (n : Nat) (f : IngMem → IngMem) (d : Dev) (g : Field) : ((ingUpd n f).run d).fld g = d.fld g := rfl
/-- The part at the index is changed. -/
@[simp] theorem ingUpd_self (n : Nat) (f : IngMem → IngMem) (d : Dev) : ((ingUpd n f).run d).ingm n = f (d.ingm n) :=
  KV.get_upd_self _ _ _ _
/-- Every other part is as before. -/
@[simp] theorem ingUpd_other {n k : Nat} (f : IngMem → IngMem) (d : Dev) (h : k ≠ n) :
    ((ingUpd n f).run d).ingm k = d.ingm k :=
  KV.get_upd_other _ _ _ h
@[simp] theorem laneUpd_regs (n : Nat) (f : LaneMem → LaneMem) (d : Dev) : ((laneUpd n f).run d).regs = d.regs := rfl
@[simp] theorem laneUpd_mem (n : Nat) (f : LaneMem → LaneMem) (d : Dev) : ((laneUpd n f).run d).mem = d.mem := rfl
@[simp] theorem laneUpd_rd (n : Nat) (f : LaneMem → LaneMem) (d : Dev) (r : Reg) : ((laneUpd n f).run d).rd r = d.rd r := rfl
@[simp] theorem laneUpd_fld (n : Nat) (f : LaneMem → LaneMem) (d : Dev) (g : Field) : ((laneUpd n f).run d).fld g = d.fld g := rfl
/-- The part at the index is changed. -/
@[simp] theorem laneUpd_self (n : Nat) (f : LaneMem → LaneMem) (d : Dev) : ((laneUpd n f).run d).lanem n = f (d.lanem n) :=
  KV.get_upd_self _ _ _ _
/-- Every other part is as before. -/
@[simp] theorem laneUpd_other {n k : Nat} (f : LaneMem → LaneMem) (d : Dev) (h : k ≠ n) :
    ((laneUpd n f).run d).lanem k = d.lanem k :=
  KV.get_upd_other _ _ _ h
@[simp] theorem macUpd_regs (n : Nat) (f : MacMem → MacMem) (d : Dev) : ((macUpd n f).run d).regs = d.regs := rfl
@[simp] theorem macUpd_mem (n : Nat) (f : MacMem → MacMem) (d : Dev) : ((macUpd n f).run d).mem = d.mem := rfl
@[simp] theorem macUpd_rd (n : Nat) (f : MacMem → MacMem) (d : Dev) (r : Reg) : ((macUpd n f).run d).rd r = d.rd r := rfl
@[simp] theorem macUpd_fld (n : Nat) (f : MacMem → MacMem) (d : Dev) (g : Field) : ((macUpd n f).run d).fld g = d.fld g := rfl
/-- The part at the index is changed. -/
@[simp] theorem macUpd_self (n : Nat) (f : MacMem → MacMem) (d : Dev) : ((macUpd n f).run d).macm n = f (d.macm n) :=
  KV.get_upd_self _ _ _ _
/-- Every other part is as before. -/
@[simp] theorem macUpd_other {n k : Nat} (f : MacMem → MacMem) (d : Dev) (h : k ≠ n) :
    ((macUpd n f).run d).macm k = d.macm k :=
  KV.get_upd_other _ _ _ h
@[simp] theorem frxUpd_regs (n : Nat) (f : FlowRxMem → FlowRxMem) (d : Dev) : ((frxUpd n f).run d).regs = d.regs := rfl
@[simp] theorem frxUpd_mem (n : Nat) (f : FlowRxMem → FlowRxMem) (d : Dev) : ((frxUpd n f).run d).mem = d.mem := rfl
@[simp] theorem frxUpd_rd (n : Nat) (f : FlowRxMem → FlowRxMem) (d : Dev) (r : Reg) : ((frxUpd n f).run d).rd r = d.rd r := rfl
@[simp] theorem frxUpd_fld (n : Nat) (f : FlowRxMem → FlowRxMem) (d : Dev) (g : Field) : ((frxUpd n f).run d).fld g = d.fld g := rfl
/-- The part at the index is changed. -/
@[simp] theorem frxUpd_self (n : Nat) (f : FlowRxMem → FlowRxMem) (d : Dev) : ((frxUpd n f).run d).frx n = f (d.frx n) :=
  KV.get_upd_self _ _ _ _
/-- Every other part is as before. -/
@[simp] theorem frxUpd_other {n k : Nat} (f : FlowRxMem → FlowRxMem) (d : Dev) (h : k ≠ n) :
    ((frxUpd n f).run d).frx k = d.frx k :=
  KV.get_upd_other _ _ _ h
@[simp] theorem mvhUpd_regs (n : Nat) (f : MvhMem → MvhMem) (d : Dev) : ((mvhUpd n f).run d).regs = d.regs := rfl
@[simp] theorem mvhUpd_mem (n : Nat) (f : MvhMem → MvhMem) (d : Dev) : ((mvhUpd n f).run d).mem = d.mem := rfl
@[simp] theorem mvhUpd_rd (n : Nat) (f : MvhMem → MvhMem) (d : Dev) (r : Reg) : ((mvhUpd n f).run d).rd r = d.rd r := rfl
@[simp] theorem mvhUpd_fld (n : Nat) (f : MvhMem → MvhMem) (d : Dev) (g : Field) : ((mvhUpd n f).run d).fld g = d.fld g := rfl
/-- The part at the index is changed. -/
@[simp] theorem mvhUpd_self (n : Nat) (f : MvhMem → MvhMem) (d : Dev) : ((mvhUpd n f).run d).mvhm n = f (d.mvhm n) :=
  KV.get_upd_self _ _ _ _
/-- Every other part is as before. -/
@[simp] theorem mvhUpd_other {n k : Nat} (f : MvhMem → MvhMem) (d : Dev) (h : k ≠ n) :
    ((mvhUpd n f).run d).mvhm k = d.mvhm k :=
  KV.get_upd_other _ _ _ h
@[simp] theorem prcUpd_regs (n : Nat) (f : PrcMem → PrcMem) (d : Dev) : ((prcUpd n f).run d).regs = d.regs := rfl
@[simp] theorem prcUpd_mem (n : Nat) (f : PrcMem → PrcMem) (d : Dev) : ((prcUpd n f).run d).mem = d.mem := rfl
@[simp] theorem prcUpd_rd (n : Nat) (f : PrcMem → PrcMem) (d : Dev) (r : Reg) : ((prcUpd n f).run d).rd r = d.rd r := rfl
@[simp] theorem prcUpd_fld (n : Nat) (f : PrcMem → PrcMem) (d : Dev) (g : Field) : ((prcUpd n f).run d).fld g = d.fld g := rfl
/-- The part at the index is changed. -/
@[simp] theorem prcUpd_self (n : Nat) (f : PrcMem → PrcMem) (d : Dev) : ((prcUpd n f).run d).prcm n = f (d.prcm n) :=
  KV.get_upd_self _ _ _ _
/-- Every other part is as before. -/
@[simp] theorem prcUpd_other {n k : Nat} (f : PrcMem → PrcMem) (d : Dev) (h : k ≠ n) :
    ((prcUpd n f).run d).prcm k = d.prcm k :=
  KV.get_upd_other _ _ _ h
@[simp] theorem sapUpd_regs (n : Nat) (f : SapMem → SapMem) (d : Dev) : ((sapUpd n f).run d).regs = d.regs := rfl
@[simp] theorem sapUpd_mem (n : Nat) (f : SapMem → SapMem) (d : Dev) : ((sapUpd n f).run d).mem = d.mem := rfl
@[simp] theorem sapUpd_rd (n : Nat) (f : SapMem → SapMem) (d : Dev) (r : Reg) : ((sapUpd n f).run d).rd r = d.rd r := rfl
@[simp] theorem sapUpd_fld (n : Nat) (f : SapMem → SapMem) (d : Dev) (g : Field) : ((sapUpd n f).run d).fld g = d.fld g := rfl
/-- The part at the index is changed. -/
@[simp] theorem sapUpd_self (n : Nat) (f : SapMem → SapMem) (d : Dev) : ((sapUpd n f).run d).sapm n = f (d.sapm n) :=
  KV.get_upd_self _ _ _ _
/-- Every other part is as before. -/
@[simp] theorem sapUpd_other {n k : Nat} (f : SapMem → SapMem) (d : Dev) (h : k ≠ n) :
    ((sapUpd n f).run d).sapm k = d.sapm k :=
  KV.get_upd_other _ _ _ h
@[simp] theorem sdiUpd_regs (n : Nat) (f : SdiMem → SdiMem) (d : Dev) : ((sdiUpd n f).run d).regs = d.regs := rfl
@[simp] theorem sdiUpd_mem (n : Nat) (f : SdiMem → SdiMem) (d : Dev) : ((sdiUpd n f).run d).mem = d.mem := rfl
@[simp] theorem sdiUpd_rd (n : Nat) (f : SdiMem → SdiMem) (d : Dev) (r : Reg) : ((sdiUpd n f).run d).rd r = d.rd r := rfl
@[simp] theorem sdiUpd_fld (n : Nat) (f : SdiMem → SdiMem) (d : Dev) (g : Field) : ((sdiUpd n f).run d).fld g = d.fld g := rfl
/-- The part at the index is changed. -/
@[simp] theorem sdiUpd_self (n : Nat) (f : SdiMem → SdiMem) (d : Dev) : ((sdiUpd n f).run d).sdim n = f (d.sdim n) :=
  KV.get_upd_self _ _ _ _
/-- Every other part is as before. -/
@[simp] theorem sdiUpd_other {n k : Nat} (f : SdiMem → SdiMem) (d : Dev) (h : k ≠ n) :
    ((sdiUpd n f).run d).sdim k = d.sdim k :=
  KV.get_upd_other _ _ _ h
@[simp] theorem storeUpd_regs (n : Nat) (f : Store → Store) (d : Dev) : ((storeUpd n f).run d).regs = d.regs := rfl
@[simp] theorem storeUpd_mem (n : Nat) (f : Store → Store) (d : Dev) : ((storeUpd n f).run d).mem = d.mem := rfl
@[simp] theorem storeUpd_rd (n : Nat) (f : Store → Store) (d : Dev) (r : Reg) : ((storeUpd n f).run d).rd r = d.rd r := rfl
@[simp] theorem storeUpd_fld (n : Nat) (f : Store → Store) (d : Dev) (g : Field) : ((storeUpd n f).run d).fld g = d.fld g := rfl
/-- The part at the index is changed. -/
@[simp] theorem storeUpd_self (n : Nat) (f : Store → Store) (d : Dev) : ((storeUpd n f).run d).store n = f (d.store n) :=
  KV.get_upd_self _ _ _ _
/-- Every other part is as before. -/
@[simp] theorem storeUpd_other {n k : Nat} (f : Store → Store) (d : Dev) (h : k ≠ n) :
    ((storeUpd n f).run d).store k = d.store k :=
  KV.get_upd_other _ _ _ h
@[simp] theorem surfUpd_regs (n : Nat) (f : SurfMem → SurfMem) (d : Dev) : ((surfUpd n f).run d).regs = d.regs := rfl
@[simp] theorem surfUpd_mem (n : Nat) (f : SurfMem → SurfMem) (d : Dev) : ((surfUpd n f).run d).mem = d.mem := rfl
@[simp] theorem surfUpd_rd (n : Nat) (f : SurfMem → SurfMem) (d : Dev) (r : Reg) : ((surfUpd n f).run d).rd r = d.rd r := rfl
@[simp] theorem surfUpd_fld (n : Nat) (f : SurfMem → SurfMem) (d : Dev) (g : Field) : ((surfUpd n f).run d).fld g = d.fld g := rfl
/-- The part at the index is changed. -/
@[simp] theorem surfUpd_self (n : Nat) (f : SurfMem → SurfMem) (d : Dev) : ((surfUpd n f).run d).surfm n = f (d.surfm n) :=
  KV.get_upd_self _ _ _ _
/-- Every other part is as before. -/
@[simp] theorem surfUpd_other {n k : Nat} (f : SurfMem → SurfMem) (d : Dev) (h : k ≠ n) :
    ((surfUpd n f).run d).surfm k = d.surfm k :=
  KV.get_upd_other _ _ _ h
@[simp] theorem dstUpd_regs (n : Nat) (f : DstMem → DstMem) (d : Dev) : ((dstUpd n f).run d).regs = d.regs := rfl
@[simp] theorem dstUpd_mem (n : Nat) (f : DstMem → DstMem) (d : Dev) : ((dstUpd n f).run d).mem = d.mem := rfl
@[simp] theorem dstUpd_rd (n : Nat) (f : DstMem → DstMem) (d : Dev) (r : Reg) : ((dstUpd n f).run d).rd r = d.rd r := rfl
@[simp] theorem dstUpd_fld (n : Nat) (f : DstMem → DstMem) (d : Dev) (g : Field) : ((dstUpd n f).run d).fld g = d.fld g := rfl
/-- The part at the index is changed. -/
@[simp] theorem dstUpd_self (n : Nat) (f : DstMem → DstMem) (d : Dev) : ((dstUpd n f).run d).dstm n = f (d.dstm n) :=
  KV.get_upd_self _ _ _ _
/-- Every other part is as before. -/
@[simp] theorem dstUpd_other {n k : Nat} (f : DstMem → DstMem) (d : Dev) (h : k ≠ n) :
    ((dstUpd n f).run d).dstm k = d.dstm k :=
  KV.get_upd_other _ _ _ h

/-! ### Common state words (R29) -/

theorem FWord.encode_eq (w : FWord) (hr : w.rung < 4) (hc : w.code < 256) : w.encode =
    w.state.code + boolBit w.pendOn * 128 + boolBit w.pendOff * 256 + boolBit w.asleep * 512 + w.rung * 262144 +
      w.code * 16777216 := by
  rw [FWord.encode, Nat.mod_eq_of_lt hr, Nat.mod_eq_of_lt hc]
  omega

theorem bit_eq_boolBit {n : Nat} {b : Bool} (h : n = boolBit b) : (n == 1) = b := by
  subst h
  cases b <;> rfl

/-- A common state word reads back as it was written. -/
theorem FWord.decode_encode (w : FWord) (hr : w.rung < 4) (hc : w.code < 256) : FWord.decode w.encode = w := by
  have e := w.encode_eq hr hc
  have h1 := boolBit_lt w.pendOn
  have h2 := boolBit_lt w.pendOff
  have h3 := boolBit_lt w.asleep
  have hs : w.state.code < 5 := by cases w.state <;> decide
  have k0 : bitsOf w.encode 0 3 = w.state.code := by simp only [e, bitsOf]; omega
  have k1 : bitOf w.encode 7 = w.pendOn := bit_eq_boolBit (by rw [e]; omega)
  have k2 : bitOf w.encode 8 = w.pendOff := bit_eq_boolBit (by rw [e]; omega)
  have k3 : bitOf w.encode 9 = w.asleep := bit_eq_boolBit (by rw [e]; omega)
  have k4 : bitsOf w.encode 18 2 = w.rung := by simp only [e, bitsOf]; omega
  have k5 : bitsOf w.encode 24 8 = w.code := by simp only [e, bitsOf]; omega
  rw [FWord.decode, k0, k1, k2, k3, k4, k5]
  obtain ⟨st, p, q, a, r, c⟩ := w
  cases st <;> rfl

theorem FWord.decode_rung (x : Nat) : (FWord.decode x).rung < 4 := bitsOf_lt x 18 2
theorem FWord.decode_code (x : Nat) : (FWord.decode x).code < 256 := bitsOf_lt x 24 8

theorem FWord.encode_lt (w : FWord) : w.encode < 2 ^ 32 := by
  have h1 := boolBit_lt w.pendOn
  have h2 := boolBit_lt w.pendOff
  have h3 := boolBit_lt w.asleep
  have hs : w.state.code < 5 := by cases w.state <;> decide
  rw [FWord.encode]
  omega

/-- A function's register is a common state word that exists. -/
theorem fnReg_valid (f : Fn) : (fnReg f).valid = true ∧ isFstate (fnReg f).kind = true := by
  cases f <;> refine ⟨?_, rfl⟩ <;> first
    | exact Reg.valid_single rfl
    | exact Reg.valid_indexed rfl (Fin.isLt _)

/-- A function's common state word is set. -/
theorem fnPut_fw (f : Fn) (w : FWord) (d : Dev) (hr : w.rung < 4) (hc : w.code < 256) : ((fnPut f w).run d).fw f = w := by
  have h := fnReg_valid f
  have e : w.encode % 4294967296 = w.encode := Nat.mod_eq_of_lt w.encode_lt
  simp [fnPut, run_act, Prim.apply, h.1, h.2, Dev.fw, Dev.rd, Dev.reg, e, FWord.decode_encode w hr hc]

/-- A common state word changes as asked. -/
theorem fnUpd_fw (f : Fn) (g : FWord → FWord) (d : Dev) (hr : (g (d.fw f)).rung < 4) (hc : (g (d.fw f)).code < 256) :
    ((fnUpd f g).run d).fw f = g (d.fw f) := fnPut_fw f _ d hr hc

@[simp] theorem fnPut_mem (f : Fn) (w : FWord) (d : Dev) : ((fnPut f w).run d).mem = d.mem := by
  simp only [fnPut, run_act, Prim.apply]
  split <;> rfl
@[simp] theorem fnPut_x (f : Fn) (w : FWord) (d : Dev) : ((fnPut f w).run d).x = d.x := by
  simp only [fnPut, run_act, Prim.apply]
  split <;> rfl

theorem fnPut_reg_other (f : Fn) (w : FWord) (d : Dev) {r : Reg} (h : r ≠ fnReg f) :
    ((fnPut f w).run d).reg r = d.reg r := by
  simp only [fnPut, run_act, Prim.apply]
  split
  · simp [Dev.reg, h]
  · rfl

end Sys2Proof.Machine
end

