-- ==== Sys2Proof/Tests/Slice0.lean ====
section
/-!
SUPPORT. Tests: a witness for the hypotheses of each statement, the checks of WellFormed, and small tests of commands on
values worked out from the spec.
-/

namespace Sys2Proof.Tests

open Sys2Proof.Machine

set_option Elab.async false

/-! ### States -/

/-- A running device: the island awake, the core powered, the endpoint enabled, and the fields given. -/
def up (l : List (Field × Nat)) : State :=
  { dev := l.foldl (fun d e => { d with
        regs := d.regs.set e.1.reg (BitVec.ofNat 32 (putBits (d.rd e.1.reg) e.1.lo e.1.width e.2)) })
      ({ x := { pwr := { awake := true, up := true }, ctl := { endpoint := true } } } : Dev)
    pending := [] }

/-- A whole register. -/
def word (r : Reg) (v : Nat) : Field × Nat := (⟨r, 0, 32⟩, v)

/-- A state with its typed state changed. -/
def withX (s : State) (f : Ext → Ext) : State := { s with dev := { s.dev with x := f s.dev.x } }

/-- A function's common state word (R29). -/
def fword (f : Fn) (w : FWord) : Field × Nat := word (fnReg f) w.encode

/-- A function in a state. -/
def inState (f : Fn) (st : FState) : Field × Nat := fword f { state := st }

/-- The device a command leaves. -/
def after (i : Instr) (s : State) : Dev := match exec i s with | .next t => t.dev | _ => {}

/-- A command ring that accepts messages, in a device that routes. -/
def ringUp : List (Field × Nat) :=
  [inState (.ring 0) .on, word (R.CMD_RING_CTRL 0) 0x41, (F.BOOT_STATUS_phase, 8)]

/-- A message of that ring. -/
def hr : Hdr := { intake := .ring 0 {}, seq := 7 }


/-! ### Witnesses: the queue, and the states of functions -/

theorem witness_IdleStepPassesOneCycle : State.reset.pending = [] ∧ State.reset.dev.live = false ∧
    (up []).pending = [] ∧ (up []).dev.live = true ∧ (up []).dev.tbOwn 3 = false := by decide +kernel

theorem witness_NoCommandStopsTheBlock : State.reset.dev.x.pwr.awake = false ∧ (Instr.freeze ≠ .porstAssert) := by decide

theorem legal_reset : State.reset.dev.Legal :=
  ⟨by decide, by decide, by decide, by decide, by decide, by decide⟩

theorem witness_RegistersStayLegal : State.reset.dev.Legal ∧ step State.reset = .next State.reset :=
  ⟨legal_reset, rfl⟩

theorem witness_UnwrittenStoresReadAsGiven : R.GLB_HEARTBEAT.valid = true ∧ isFstate R.GLB_HEARTBEAT.kind = false := by
  decide

/-- One state for each clause: OFF, STOPPING, ON, WAKING, and an enable that firmware owns, off and on. -/
theorem witness_EnablesMoveFunctions :
    fnEnableField (.src 1023) = some (F.SRC_CTRL_enable 1023) ∧
    (let s := up [word (R.SRC_CTRL 1023) 0]
     s.dev.live = true ∧ s.dev.flag (F.SRC_CTRL_enable 1023) = false ∧ s.dev.fst (.src 1023) = .off ∧
     s.dev.x.ctl.endpoint = true) ∧
    (let s := up [word (R.SRC_CTRL 1023) 0, inState (.src 1023) .stopping]
     s.dev.live = true ∧ s.dev.flag (F.SRC_CTRL_enable 1023) = false ∧ s.dev.fst (.src 1023) = .stopping) ∧
    (let s := up [(F.SRC_CTRL_enable 1023, 1), inState (.src 1023) .on]
     s.dev.live = true ∧ s.dev.flag (F.SRC_CTRL_enable 1023) = true ∧ s.dev.fst (.src 1023) = .on) ∧
    (let s := up [(F.SRC_CTRL_enable 1023, 1), inState (.src 1023) .waking]
     s.dev.live = true ∧ s.dev.flag (F.SRC_CTRL_enable 1023) = true ∧ s.dev.fst (.src 1023) = .waking ∧
     (s.dev.fnm (.src 1023)).waits = false) ∧
    fnEnableField .hbm = some F.HBM_CTRL_enable ∧ bitOf (regInfo .HBM_CTRL).fw F.HBM_CTRL_enable.lo = true ∧
    (let s := up [word R.HBM_CTRL 0]
     s.dev.x.ctl.afl.length < 32 ∧ s.dev.flag F.HBM_CTRL_enable = false) ∧
    (let s := up [(F.HBM_CTRL_enable, 1)]
     s.dev.x.ctl.afl.length < 32 ∧ s.dev.flag F.HBM_CTRL_enable = true) := by decide +kernel

theorem witness_InitialisationEndsWaking :
    (let s := up [inState (.tb 0) .waking, word (R.TB_CTRL 0) 0]
     s.dev.live = true ∧ s.dev.fst (.tb 0) = .waking ∧ s.dev.fld F.BOOT_STATUS_phase ≠ 8 ∧ s.dev.fld (F.TB_CTRL_mode 0) = 0 ∧
     (s.dev.fw (.tb 0)).pendOff = false) ∧
    (let s := up [fword .mtx { state := .waking, pendOff := true }]
     s.dev.fst .mtx = .waking ∧ s.dev.fld F.BOOT_STATUS_phase ≠ 8 ∧ (s.dev.fw .mtx).pendOff = true) := by decide +kernel

theorem witness_DrainEndsStopping :
    (let s := up [inState .dpll .stopping]
     s.dev.live = true ∧ s.dev.fst .dpll = .stopping ∧ (s.dev.fw .dpll).pendOn = false ∧
     ((fnStreamsDrain .dpll).run s.dev).streamsIdle .dpll = true) ∧
    (let s := up [fword .dpll { state := .stopping, pendOn := true }]
     s.dev.fst .dpll = .stopping ∧ (s.dev.fw .dpll).pendOn = true ∧
     ((fnStreamsDrain .dpll).run s.dev).streamsIdle .dpll = true) := by decide +kernel

theorem witness_FaultsEnterOnlyFromWakingAndOn :
    (let s := up [inState .dpll .on]
     s.dev.live = true ∧ s.dev.x.escal = [] ∧ s.dev.fst .dpll = .on ∧ (s.dev.fnm .dpll).reinits = []) ∧
    (let s := up [] ; s.dev.live = true ∧ s.dev.x.escal = [] ∧ s.dev.fst .dpll = .off) := by decide +kernel

theorem witness_LanesSleepAndWake :
    (let s := up [fword (.lane 95) { state := .off, asleep := true }, (F.LANE_CTRL_enable 95, 1)]
     s.dev.live = true ∧ s.dev.fst (.lane 95) = .off ∧ (s.dev.fw (.lane 95)).asleep = true ∧
     s.dev.flag (F.LANE_CTRL_enable 95) = true ∧ s.dev.fld F.PWR_STATUS_stage < 3) ∧
    (let s := withX (up [inState (.lane 95) .on, (F.LANE_CTRL_sleep_ok 95, 1), (F.LANE_CTRL_personality 95, 3), (F.PWR_STATUS_stage, 3)])
        fun x => { x with lane := KV.set {} x.lane 95 { woke := true } }
     s.dev.fst (.lane 95) = .on ∧ (s.dev.lanem 95).woke = true ∧ 3 ≤ s.dev.fld F.PWR_STATUS_stage ∧
     s.dev.flag (F.LANE_CTRL_sleep_ok 95) = true ∧ s.dev.laneIdle 95 = true) := by decide +kernel


/-! ### Witnesses: house timing -/

theorem witness_SnapshotCapturesAllScalesAtOnce : (up []).dev.live = true := by decide

/-- Time base 3 on its own count and slewing, and time base 0 that equals house time. -/
theorem witness_TimeBasesStepSlewAndSet :
    (let s := up [(F.TB_CTRL_mode 3, 1), (F.TB_ADJ_STATUS_slew_active 3, 1), inState (.tb 3) .on]
     s.dev.live = true ∧ s.dev.tbOwn 3 = true ∧ s.dev.flag (F.TB_ADJ_STATUS_slew_active 3) = true) ∧
    (let s := up [] ; s.dev.live = true ∧ s.dev.tbOwn 0 = false ∧ Instr.tbSet 0 ∈ [Instr.tbAdjStep 0, .tbAdjSlew 0, .tbSet 0]) := by
  decide +kernel

theorem witness_PtpServoLockFollowsItsEvents :
    let s := up [(F.TB_CTRL_mode 3, 1), inState (.tb 3) .on]
    s.dev.live = true ∧ s.dev.fst (.tb 3) = .on ∧ s.dev.tbOwn 3 = true ∧
    s.dev.flag (F.TB_LOCK_servo_locked 3) ≠ true := by decide +kernel

theorem witness_ReferencesMoveThroughQualification :
    (let s := up [(F.REF_STATE_qstate 15, 3)]
     s.dev.live = true ∧ s.dev.qstate 15 = 3 ∧ (s.dev.refm 15).causes = []) ∧
    (let s := up [(F.REF_STATE_qstate 0, 4)]
     s.dev.live = true ∧ s.dev.qstate 0 = 4 ∧ (s.dev.refm 0).causes = []) ∧
    (let s := up [(F.REF_CTRL_input_use 7, 1)] ; s.dev.live = true ∧ s.dev.fld (F.REF_CTRL_input_use 7) ≠ 2) ∧
    ((5 : RefId) = 4 ∨ (5 : RefId) = 5) := by decide +kernel

theorem witness_ReferenceTickJudgesCandidates :
    let s := withX (up []) fun x => { x with time := { x.time with ref := KV.set {} x.time.ref 15 { causes := [6] } } }
    s.dev.live = true ∧ (s.dev.refm 15).causes ≠ [] ∧ (⟨15, true, 0⟩ : RefMeas) ∈ [(⟨15, true, 0⟩ : RefMeas)] := by
  decide +kernel

theorem witness_DpllModesAreForced : (up []).dev.live = true ∧ (up [(F.REF_STATE_qstate 15, 5)]).dev.qstate 15 = 5 := by
  decide +kernel

theorem witness_DpllTransitionsComplete :
    (let s := up [(F.DPLL_STATE_state, 1)] ; s.dev.live = true ∧ s.dev.fld F.DPLL_STATE_state = 1) ∧
    (let s := up [(F.DPLL_STATE_state, 3), (F.DPLL_STATE_tphase, 1)]
     s.dev.live = true ∧ s.dev.fld F.DPLL_STATE_state = 3 ∧ s.dev.fld F.DPLL_STATE_tphase = 1) ∧
    (let s := up [(F.DPLL_STATE_state, 3), (F.DPLL_STATE_tphase, 2)]
     s.dev.live = true ∧ s.dev.fld F.DPLL_STATE_state = 3 ∧ s.dev.fld F.DPLL_STATE_tphase = 2) ∧
    (let s := up [(F.DPLL_STATE_state, 2), inState .dpll .on]
     s.dev.live = true ∧ s.dev.fld F.DPLL_STATE_state = 2 ∧ s.dev.fst .dpll = .on) := by decide +kernel

theorem witness_FramesFollowTheTimingRule :
    (let s := withX (up [inState (.otg 31) .on])
        fun x => { x with time := { x.time with otg := KV.set {} x.time.otg 31 { started := true } } }
     s.dev.live = true ∧ s.dev.fst (.otg 31) = .on ∧ (s.dev.otgm 31).started = true ∧ (s.dev.otgm 31).realign = false ∧
     s.dev.otgOffset 31 = (s.dev.otgm 31).offset ∧ s.dev.flag (F.OTG_STATUS_realigned_last 31) = false ∧
     s.dev.x.twin.snap = none) ∧
    (up []).dev.flag F.DPLL_REALIGN_STATUS_pending = false ∧
    (up [(F.DPLL_REALIGN_STATUS_pending, 1)]).dev.flag F.DPLL_REALIGN_STATUS_pending = true ∧
    (withX (up []) fun x => { x with time := { x.time with dpll := { x.time.dpll with stepPending := true } } }).dev.x.time.dpll.stepPending = true := by
  decide +kernel

theorem witness_EventTimersArmFireAndDisarm :
    (up []).dev.live = true ∧ 48 ≤ (48 : EvtId).val ∧ (47 : EvtId).val < 48 ∧
    Instr.evtArm 47 .host ∈ [Instr.evtArm 47 .host, .evtDisarm 47 .host] ∧
    (let s := up [(F.EVT_STATUS_state 63, 1)]
     s.dev.fld (F.EVT_STATUS_state 63) = 1 ∧ (s.dev.evtm 63).due ≤ s.dev.scale (s.dev.evtm 63).scale) ∧
    (let s := withX (up [(F.EVT_STATUS_state 63, 1)])
        fun x => { x with time := { x.time with evt := KV.set {} x.time.evt 63 { due := 0, scale := 0, action := 1, target := 0, late := false } } }
     s.dev.fld (F.EVT_STATUS_state 63) = 1 ∧ (s.dev.evtm 63).due ≤ s.dev.scale (s.dev.evtm 63).scale ∧
     (s.dev.evtm 63).action = 1) ∧
    (let s := up [(F.PPS_OUT_CTRL_enable, 1)]
     s.dev.flag F.PPS_OUT_CTRL_enable = true ∧ 0 ∉ s.dev.x.time.pulseRealign) := by decide +kernel

theorem witness_TimeCommandsSetHouseTiming :
    (up ringUp).dev.Admits hr (timeSetSpec { target := 0, sec := 5, ns := 7 }) ∧
    (up ringUp).dev.Admits hr timeRealignSpec ∧
    (up ringUp).dev.Admits hr (timeRefSpec { cand := 15, values := [0, 0, 0, 0, 0, 0, 0, 0] }) ∧
    (up ringUp).dev.Admits hr (timeDpllSpec { ctrl := 0, bw := 0, slew := 0, holdover := 0 }) ∧
    (let b : TimeOtgBody := { otg := 31, ctrl := 0x520, offset := 0 }
     (up ringUp).dev.Admits hr (timeOtgSpec b) ∧
     overBudget ((up ringUp).dev.opened hr (timeOtgSpec b))
       ((setF (F.OTG_CTRL_format b.otg) (bitsOf b.ctrl 4 8)).run ((up ringUp).dev.opened hr (timeOtgSpec b))) = false) := by
  decide +kernel


/-! ### Witnesses: frame stores, takes, holds, chains and surfaces -/

/-- An ingress channel that is ON with a slot store of one format. -/
def srcUp (frames : List Frame) (l : List (Field × Nat)) : State :=
  withX (up ([inState (.src 1023) .on] ++ l)) fun x => { x with
    stores := KV.set {} x.stores 1023 { alloc := true, format := 80, depth := 8, frames := frames } }

/-- A frame of that channel. -/
def someFrame : Frame :=
  { rcd := { source := 1023, format := 80, slot := 0, sampling := 0, seq := 0, t := 0 }, due := 0 }

theorem witness_FramesAreReceivedCompletedAndAbandoned :
    (let s := srcUp [] [(F.SRC_CTRL_fmt_mode 1023, 1), (F.SRC_FMT_expected 1023, 80), (F.SRC_FMT_bit_depth 1023, 1)]
     let f : FrameStart := { measured := { format := 80 } }
     s.dev.live = true ∧ s.dev.fst (.src 1023) = .on ∧ (s.dev.store 1023).alloc = true ∧
     s.dev.flag (F.SRC_CTRL_quad_member 1023) = false ∧ s.dev.flag (F.SRC_CTRL_fmt_mode 1023) = true ∧
     s.dev.srcFormatOk 1023 f = true ∧ s.dev.srcTooLarge 1023 f.measured = false ∧ (s.dev.ingm 1023).quadSkip = []) ∧
    (let s := srcUp [] [] ; s.dev.srcFormatOk 1023 { measured := { format := 1 } } = false) ∧
    (let s := srcUp [someFrame] []
     s.dev.fst (.src 1023) = .on ∧ s.dev.inProgress 1023 = [someFrame] ∧
     (∀ e ∈ (s.dev.store 1023).frames, e.rcd.seq = someFrame.rcd.seq → e = someFrame) ∧
     0 < fmtPeriod someFrame.rcd.format ∧ someFrame.phase = .writing ∧ s.dev.lockstep = false ∧
     s.dev.flag (F.SRC_STATUS_no_input 1023) = false) := by decide +kernel

theorem witness_StandbyDecidesWithTheActive :
    (let s := up [(F.TWIN_STATUS_tstate, 6)]
     s.dev.live = true ∧ s.dev.lockstep = true ∧ (s.dev.store 1023).frames = []) ∧
    (up []).dev.lockstep = false ∧
    (let s := srcUp [someFrame] [(F.TWIN_STATUS_tstate, 6)]
     s.dev.live = true ∧ s.dev.lockstep = true ∧
     someFrame ∈ s.dev.inProgress 1023 ∧ someFrame.rcd.seq = 0 ∧ someFrame.matched = false ∧ someFrame.own = false) := by
  decide +kernel

/-- A video take of PARK. -/
def parkTake (n : Nat) : TakeBody := { controller := 0, dest := n, video := true, source := 0xFFF }

/-- A destination's overlay layer 0 off. -/
def noOverlay : OverlayBody := { controller := 0, dest := 5, layer := 0, ctrl := 0xFFF, pos := 0 }

theorem witness_TakesAreAcceptedThenCommitted :
    (let s := up (ringUp ++ [inState (.dst 1023) .on])
     let b := parkTake 1023
     s.dev.Admits hr (takeSpec b) ∧
     (s.dev.opened hr (takeSpec b)).takeStatic b (s.dev.actsFor hr (takeSpec b)) = none ∧
     (s.dev.opened hr (takeSpec b)).takeDynamic b (s.dev.actsFor hr (takeSpec b)) = none) ∧
    (let s := up (ringUp ++ [inState (.dst 5) .on])
     s.dev.Admits hr (overlaySpec noOverlay) ∧
     (s.dev.opened hr (overlaySpec noOverlay)).overlayCheck noOverlay (s.dev.actsFor hr (overlaySpec noOverlay)) = none) ∧
    (let a : ArmedTake := { id := 1, dest := 1023, body := .take (parkTake 1023), controller := 0, seq := 7 }
     let s := withX (up [inState (.dst 1023) .on]) fun x => { x with armed := [a] }
     s.dev.live = true ∧ s.dev.x.armed = [a] ∧ a.dest = 1023 ∧ a.body = .take (parkTake 1023) ∧
     s.dev.flag (F.DST_CTRL_quad_member 1023) = false ∧ s.dev.dstIdle 1023 = false) ∧
    (let a : ArmedTake := { id := 1, dest := 0, body := .take (parkTake 0), controller := 0, seq := 7 }
     let s := withX (up []) fun x => { x with armed := [a] }
     s.dev.live = true ∧ s.dev.x.armed = [a] ∧ s.dev.flag (F.DST_CTRL_quad_member 0) = false ∧ s.dev.dstIdle 0 = true) := by
  decide +kernel

theorem witness_HoldsAreTakenAndReleased :
    let b : HoldBody := { controller := 0, dest := 1023 }
    let c : HoldBody := { controller := 3, dest := 1023 }
    (let s := up ringUp
     ∀ op ∈ [0, 1, 3], s.dev.Admits hr (holdSpec op b) ∧ (s.dev.opened hr (holdSpec op b)).holdCheck op b b.controller = none) ∧
    (let s := up (ringUp ++ [(F.DST_HOLD_state 1023, 1)])
     s.dev.Admits hr (holdSpec 2 b) ∧ (s.dev.opened hr (holdSpec 2 b)).holdCheck 2 b b.controller = none) ∧
    (let s := up (ringUp ++ [(F.DST_HOLD_state 1023, 2), (F.CMD_RING_CTRL_controller 0, 3)])
     s.dev.Admits hr (holdSpec 2 c) ∧ ((s.dev.opened hr (holdSpec 2 c)).holdCheck 2 c c.controller).isSome = true) := by
  decide +kernel

/-- A device in whose chain 255 something stands. -/
def chainUp (m : ChainMem) : State := withX (up ringUp) fun x => { x with chains := KV.set {} x.chains 255 m }

theorem witness_ChainsAreLoadedArmedFiredAndCancelled :
    (let b : ChainLoadBody := { chain := 255, last := true, first := 0, entries := [parkTake 3] }
     let s := up ringUp
     s.dev.Admits hr (chainLoadSpec b) ∧
     (s.dev.opened hr (chainLoadSpec b)).chainLoadCheck b (s.dev.actsFor hr (chainLoadSpec b)) = none) ∧
    (let b : ChainArmBody := { chain := 255, controller := 0, trig := .frame 1023 9 }
     let s := chainUp { state := 2, entries := [parkTake 3] }
     s.dev.Admits hr (chainArmSpec b) ∧ (s.dev.opened hr (chainArmSpec b)).chainArmCheck b.chain b.trig = none ∧
     s.dev.frameDue 1023 9 = false) ∧
    (let b : ChainArmBody := { chain := 255, controller := 0, trig := .time 4 5 999999999 }
     let s := chainUp { state := 2, entries := [parkTake 3] }
     s.dev.Admits hr (chainArmSpec b) ∧ (s.dev.opened hr (chainArmSpec b)).chainArmCheck b.chain b.trig = none) ∧
    (let b : ChainFireBody := { chain := 255, controller := 0, dest := 1023 }
     let s := chainUp { state := 2, entries := [parkTake 3] }
     s.dev.Admits hr (chainFireSpec b) ∧
     (s.dev.opened hr (chainFireSpec b)).chainArmCheck b.chain (.frame b.dest 0) = none) ∧
    (let b : ChainCancelBody := { chain := 255, controller := 0 }
     let s := chainUp { state := 3, entries := [parkTake 3], trig := some (.frame 3 99) }
     s.dev.Admits hr (chainCancelSpec b) ∧ (s.dev.chain 255).state = 3 ∧ s.dev.chainFired 255 = false ∧
     (s.dev.chain 255).cmd = none) ∧
    (up ringUp).dev.Admits hr (chainQuerySpec 255) ∧
    (let s := withX (chainUp { state := 3, entries := [parkTake 3] }) fun x => { x with chainDue := [(255, 0, 0)] }
     s.dev.live = true ∧ (s.dev.chain 255).state = 3 ∧ s.dev.x.chainDue.find? (fun e => e.1 == 255) = some (255, 0, 0)) := by
  decide +kernel

/-- A device whose surface 255 is loading. -/
def surfUp (l : List (Field × Nat)) (m : SurfMem) : State :=
  withX (up (ringUp ++ l)) fun x => { x with
    surf := KV.set {} x.surf 255 m
    stores := KV.set {} x.stores (surfCode 255) { alloc := true, format := 80, depth := 1 } }

/-- A surface of 1080p. -/
def someSurface : SurfaceAllocBody := { id := 255, double := false, sampling := 0, format := 80 }

/-- Wherever the free placement (assumption 20) would lie, an empty memory has room. -/
theorem place_empty (d : Dev) (size : Nat) (h : d.allocs = []) (hs : size ≤ hbmBytes) :
    (d.place size).isNone = false := by
  unfold Dev.place
  simp only [h]
  split
  · rfl
  · simp [rangeFree, hs]

theorem witness_SurfacesAreWrittenPublishedAndFreed_alloc :
    (up ringUp).dev.Admits hr (surfaceAllocSpec someSurface) ∧
    ((up ringUp).dev.opened hr (surfaceAllocSpec someSurface)).surfAllocCheck someSurface = none := by
  refine ⟨by decide +kernel, ?_⟩
  unfold Dev.surfAllocCheck
  rw [place_empty _ _ (by decide +kernel) (by decide +kernel)]
  decide +kernel

theorem witness_SurfacesAreWrittenPublishedAndFreed :
    (let b : SurfaceWriteBody := { id := 255, offset := 0, data := [7] }
     let s := surfUp [(F.SURF_STATE_state 255, 1)] {}
     s.dev.Admits hr (surfaceWriteSpec b) ∧ s.dev.surfaceWriteCheck b = none ∧
     (let a := (s.dev.store (surfCode 255)).imageAddr s.dev.grain (s.dev.surfm 255).loading 0
      memAddr a = true ∧ s.dev.memLost s.dev.faultChans a = false)) ∧
    (let s := surfUp [(F.SURF_STATE_state 255, 1)] { dirty := true }
     s.dev.Admits hr (surfacePublishSpec 255) ∧ (s.dev.surfm 255).dirty = true ∧ s.dev.surfState 255 ≠ 0 ∧
     s.dev.surfState 255 ≠ 4) ∧
    (let s := surfUp [(F.SURF_STATE_state 255, 2)] {}
     s.dev.Admits hr (surfaceFreeSpec 255) ∧ s.dev.surfState 255 ≠ 0 ∧ s.dev.surfState 255 ≠ 4 ∧
     s.dev.rd (R.SURF_REFS 255) = 0) ∧
    (let s := surfUp [(F.SURF_STATE_state 255, 2), word (R.SURF_REFS 255) 1] {}
     s.dev.Admits hr (surfaceFreeSpec 255) ∧ s.dev.surfState 255 ≠ 0 ∧ s.dev.surfState 255 ≠ 4 ∧
     0 < s.dev.rd (R.SURF_REFS 255)) ∧
    (up ringUp).dev.Admits hr (surfaceQuerySpec 255) ∧
    (let s := surfUp [(F.SURF_STATE_state 255, 4)] {}
     s.dev.live = true ∧ s.dev.surfState 255 = 4 ∧ (∀ e ∈ s.dev.refHolders, e.1 ≠ 255) ∧
     s.dev.rd (R.SURF_REFS 255) = (s.dev.x.surfRefs.filter fun e => e.1 == 255).length) := by decide +kernel

/-! ### Witnesses: counters, logs and the host's registers -/

theorem witness_CounterClearsClearTheirCounters :
    (up []).dev.live = true ∧ (Instr.cmdCntClear, [R.CMD_CNT_RX]) ∈ [(Instr.cmdCntClear, [R.CMD_CNT_RX])] ∧
    (∀ e ∈ (up []).dev.x.hbm.ceTimes, (within (up []).dev.x.time.clk (3600 * secU) e.2).length ≤
      (up []).dev.fld F.HBM_REPAIR_ce_rate) := by decide +kernel

theorem witness_LogsGiveUpTheirOldestEntry :
    (let s := withX (up []) fun x => { x with
        hbm := { x.hbm with elog := [[1, 2, 3, 4, 5, 6]] }
        mtx := { x.mtx with log := [[1, 2, 3, 4, 5, 6]] }
        tsq := { x.tsq with entries := [[1, 2, 3, 4]], lost := some (1, 2) } }
     s.dev.live = true ∧ s.dev.x.hbm.elog ≠ [] ∧ s.dev.x.hbm.elog.length ≤ 64 ∧ s.dev.x.mtx.log ≠ [] ∧
     s.dev.x.mtx.log.length ≤ 16 ∧ s.dev.x.tsq.entries ≠ [] ∧ s.dev.x.ctl.afl.length < 32) := by decide +kernel

theorem witness_LowWordLatchesHighWord :
    highOf (R.OTG_FRAME_LO 31) = some (R.OTG_FRAME_HI 31) ∧ (up []).dev.live = true ∧ (up []).dev.x.ctl.endpoint = true ∧
    (R.OTG_FRAME_LO 31).addr < 0x2000000 ∧ (R.OTG_FRAME_LO 31).addr % 4 = 0 ∧
    regAt (R.OTG_FRAME_LO 31).addr = some (R.OTG_FRAME_LO 31) ∧
    (∀ e ∈ (up []).dev.x.ctl.latch, e.1 ≠ R.OTG_FRAME_LO 31) ∧
    regAt (R.OTG_FRAME_HI 31).addr = some (R.OTG_FRAME_HI 31) ∧ (R.OTG_FRAME_HI 31).addr % 4 = 0 ∧
    (let s := withX (up []) fun x => { x with ctl := { x.ctl with latch := [(R.OTG_FRAME_HI 31, 9)] } }
     s.dev.live = true ∧ s.dev.x.ctl.endpoint = true ∧
     s.dev.x.ctl.latch.find? (fun e => e.1 == R.OTG_FRAME_HI 31) = some (R.OTG_FRAME_HI 31, 9)) := by decide +kernel

theorem witness_UnmappedHostAccessNeverWaits :
    (up []).dev.live = true ∧ (up []).dev.x.ctl.endpoint = true ∧ 0x1FFFFFC % 2 ^ 26 < 0x2000000 ∧
    offsetMapped (0x1FFFFFC % 2 ^ 26) = false ∧ (up []).dev.x.ctl.afl.length < 32 := by decide +kernel

/-- A register whose writable bits are all the host's, an address that is mapped, and both settings of the aperture. -/
theorem witness_HostWritesKeepReservedBits :
    (let r := R.TB_ADJ_VALUE 3
     (up []).dev.live = true ∧ (up []).dev.x.ctl.endpoint = true ∧ regAt (r.addr / 4 * 4) = some r ∧ r.valid = true ∧
     ctrlFn r = none ∧ offFn r = none ∧ (regInfo r.kind).fw = 0 ∧ (regInfo r.kind).w1c = 0 ∧ (regInfo r.kind).rw ≠ 0 ∧
     r.addr < 0x1000000 ∧ ¬ (0x46000 ≤ r.addr ∧ r.addr < 0x48000) ∧ r.kind ≠ .MAC_GATE_CMD ∧
     offsetMapped (r.addr / 4 * 4) = true) ∧
    15 % 16 ≠ 14 ∧ (0 : Nat) % 16 ≠ 15 ∧
    (up []).dev.flag F.HBM_APERTURE_write_en = false ∧
    (up [(F.HBM_APERTURE_write_en, 1)]).dev.flag F.HBM_APERTURE_write_en = true ∧
    (up []).dev.poisoned ((up []).dev.apertureAddr 0) 4 = false := by decide +kernel

theorem witness_HostWritesKeepReservedBits_plain :
    ∀ v n, regAction (R.TB_ADJ_VALUE 3) v = .nop ∧ regStore (R.TB_ADJ_VALUE 3) n = wr (R.TB_ADJ_VALUE 3) n :=
  fun _ _ => ⟨rfl, rfl⟩


/-! ### Witnesses: rings, interrupts, sessions, queries -/

/-- Ring 15 with 16 entries, ON. -/
def ring15 (m : RingMem) (l : List (Field × Nat)) : State :=
  withX (up ([inState (.ring 15) .on, word (R.CMD_RING_CTRL 15) 0x41] ++ l)) fun x =>
    { x with ctl := { x.ctl with rings := KV.set {} x.ctl.rings 15 m } }

/-- A descriptor that stands. -/
def okDesc : Desc := { msgAddr := 0, msgLen := 16, hdrLen := 16 }

theorem witness_CommandRingsCarryMessages :
    (let s := ring15 {} []
     s.dev.live = true ∧ s.dev.x.ctl.endpoint = true ∧ s.dev.fst (.ring 15) = .on ∧ s.dev.ringSize 15 = 16 ∧
     (15 + 16 - (s.dev.ringm 15).sqTail) % 16 + ((s.dev.ringm 15).sqTail + 16 - s.dev.fld (F.CMD_RING_SQ_HEAD 15)) % 16 < 16 ∧
     (0 + 16 - (s.dev.ringm 15).cqHead) % 16 ≤ (s.dev.ringm 15).cqUsed ∧
     (s.dev.ringm 15).cqUsed < (1 + 16 - (s.dev.ringm 15).cqHead) % 16) ∧
    (let s := ring15 { sqTail := 8 } []
     s.dev.ringSize 15 = 16 ∧
     16 ≤ (7 + 16 - (s.dev.ringm 15).sqTail) % 16 + ((s.dev.ringm 15).sqTail + 16 - s.dev.fld (F.CMD_RING_SQ_HEAD 15)) % 16 ∧
     (s.dev.ringm 15).fetching = none ∧ s.dev.fld (F.CMD_RING_SQ_HEAD 15) ≠ (s.dev.ringm 15).sqTail ∧ 2 ≤ s.dev.cqFree 15 ∧
     okDesc.err = false ∧ Desc.legal okDesc = true ∧ { okDesc with err := true }.err = true ∧
     Desc.legal { okDesc with msgLen := 12 } = false) ∧
    (let s := ring15 { sqTail := 1, fetching := some {} } []
     (s.dev.ringm 15).fetching = some {} ∧
     wireOf s.dev (bitsOf (0xFFFF % 2 ^ 32) 0 16) (([0xFFFF, 4, 16, 0].map (· % 2 ^ 32)).drop 4) = none) ∧
    (let s := ring15 { unsignalled := 1 } [(F.CMD_RING_COAL_time_us 15, 5)]
     0 < (s.dev.ringm 15).unsignalled ∧ 0 < s.dev.fld (F.CMD_RING_COAL_time_us 15)) := by decide +kernel

theorem witness_InterruptMessagesAndHostReset :
    (let s := ring15 { unsignalled := 1 } [(F.CMD_RING_CTRL_vector 15, 63)]
     s.dev.live = true ∧ s.dev.x.ctl.endpoint = true ∧ bitOf s.dev.vecTrue 63 = true ∧ bitOf s.dev.x.ctl.vecMask 63 = true) ∧
    (let s := withX (ring15 { unsignalled := 1 } [(F.CMD_RING_CTRL_vector 15, 63)]) fun x =>
        { x with ctl := { x.ctl with vecMask := 0, vecPend := 2 ^ 63 } }
     bitOf s.dev.vecTrue 63 = true ∧ bitOf s.dev.x.ctl.vecMask 63 = false ∧ bitOf s.dev.x.ctl.vecPend 63 = true) ∧
    (let s := up [] ; bitOf s.dev.vecTrue 0 = false ∧ s.dev.x.ctl.vecCond = s.dev.vecTrue) := by decide +kernel

/-- A device with the management transport on, a controller's key, and session 31 open under key and identifier 5. -/
def mgmtUp (m : SessMem) (clk : Nat) : State :=
  withX (up [(F.CMD_CTRL_mgmt_en, 1), (F.CMD_SESS_STATE_open 31, 1), word (R.CMD_SESS_ID 31) 5]) fun x =>
    { x with
      boot := { x.boot with cfg := some { keys := [(3, [1, 2, 3])] } }
      ctl := { x.ctl with sess := KV.set {} x.ctl.sess 31 m }
      time := { x.time with clk := clk } }

/-- A datagram with the tag its key gives it. -/
def gram (type : Nat) (key : List Byte) (session counter : Nat) (payload : List Byte) : MgmtGram :=
  { session := session, counter := counter, payload := payload, tag := gramTag key type session counter payload }

theorem gram_verifies (type : Nat) (key : List Byte) (session counter : Nat) (payload : List Byte) :
    MgmtGram.verifies (gram type key session counter payload) type key = true := by
  simp [gram, MgmtGram.verifies]

/-- A datagram whose tag is longer than any tag. -/
def badGram : MgmtGram := { session := 5, counter := 9, payload := [], tag := List.replicate 17 0 }

theorem badGram_fails (type : Nat) (key : List Byte) : MgmtGram.verifies badGram type key = false := by
  have h : ¬ (badGram.tag = gramTag key type badGram.session badGram.counter badGram.payload) := by
    intro e
    have hl := congrArg List.length e
    have : (gramTag key type badGram.session badGram.counter badGram.payload).length ≤ 16 := by
      simp only [gramTag, List.length_take]
      omega
    rw [← hl] at this
    exact absurd this (by decide)
  simpa [MgmtGram.verifies] using h

/-- An OPEN of controller 3. -/
def openPayload : List Byte := [3, 0] ++ List.replicate 18 0

theorem witness_SessionsOpenCarryDataAndEnd_open :
    (mgmtUp {} 0).dev.live = true ∧ (mgmtUp {} 0).dev.mgmtOn = true ∧
    (mgmtUp {} 0).dev.ctlKey (ofLeBytes (openPayload.take 2)) = some [1, 2, 3] ∧ openPayload.length = 20 ∧
    MgmtGram.verifies (gram 0 [1, 2, 3] 0 0 openPayload) 0 [1, 2, 3] = true ∧
    (within (mgmtUp {} 0).dev.x.time.clk secU (mgmtUp {} 0).dev.x.ctl.opens).length < 16 ∧
    (mgmtUp {} 0).dev.flag (F.CMD_SESS_STATE_open 0) = false ∧
    (mgmtUp {} 0).dev.ctlKey (ofLeBytes (([4, 0] : List Byte).take 2)) = none :=
  ⟨by decide +kernel, by decide +kernel, by decide +kernel, by decide +kernel, gram_verifies .., by decide +kernel,
    by decide +kernel, by decide +kernel⟩

/-- A verified DATA and a verified CLOSE of session 31, one that fails, and a counter seen before. -/
theorem witness_SessionsOpenCarryDataAndEnd_data :
    (let p := leBytes 4 0x0401 ++ leBytes 4 7 ++ leBytes 4 16 ++ leBytes 4 0
     (mgmtUp { key := [9] } 0).dev.sessOf (gram 2 [9] 5 64 p) = some 31 ∧
     MgmtGram.verifies (gram 2 [9] 5 64 p) 2 [9] = true ∧ MgmtGram.verifies (gram 4 [9] 5 64 []) 4 [9] = true) ∧
    (let s := mgmtUp { key := [9], rxHigh := 127 } 0
     ((s.dev.sessm 31).rxSeen.contains 64 = false ∧ (s.dev.sessm 31).rxHigh < 64 + 64 ∧ (s.dev.sessm 31).key = [9] ∧
     s.dev.duplicate { intake := .session 31, seq := 7 } = none ∧ s.dev.sessOf badGram = some 31)) ∧
    MgmtGram.verifies badGram 2 [9] = false ∧
    (mgmtUp { key := [9], rxSeen := [64] } 0).dev.sessOf (gram 2 [9] 5 64 []) = some 31 ∧
    ((mgmtUp { key := [9], rxSeen := [64] } 0).dev.sessm 31).rxSeen.contains 64 = true ∧
    (let s := mgmtUp { key := [9] } (30 * secU)
     s.dev.flag (F.CMD_SESS_STATE_open 31) = true ∧ (s.dev.sessm 31).lastAt + 30 * secU ≤ s.dev.x.time.clk) ∧
    (mgmtUp { key := [9] } 0).dev.x.time.clk < ((mgmtUp { key := [9] } 0).dev.sessm 31).lastAt + 30 * secU :=
  ⟨⟨by decide +kernel, gram_verifies .., gram_verifies ..⟩, by decide +kernel, badGram_fails .., by decide +kernel,
    by decide +kernel, by decide +kernel, by decide +kernel⟩

theorem witness_QueriesAnswerAndConfigurationLands :
    (up ringUp).dev.Admits hr (queryXptSpec 1023 1) ∧ (up ringUp).dev.Admits hr queryStatusSpec ∧
    (up ringUp).dev.Admits hr (queryRegsSpec 0x10000 256) ∧ (up ringUp).dev.Admits hr (queryCommandSpec 5) ∧
    (∀ b ∈ (up ringUp).dev.x.ctl.cmds, ¬ b.seq = 5) ∧ (up ringUp).dev.x.ctl.finished = [] ∧
    (let c : CmdRec := { id := 1, hdr := some { intake := .ring 0 {}, seq := 5 }, controller := 0, seq := 5, opcode := 0x100
                         state := .armed, received := 0, reserved := 2 }
     let s := withX (up ringUp) fun x => { x with ctl := { x.ctl with cmds := [c], nextId := 2 } }
     s.dev.Admits hr (queryCommandSpec 5) ∧ c ∈ s.dev.x.ctl.cmds ∧ c.seq = 5 ∧ c.lost = false ∧
     c.hdr = some { intake := .ring 0 {}, seq := 5 } ∧ (∀ b ∈ s.dev.x.ctl.cmds, b = c)) ∧
    (let b : ConfigBody := { block := 2, inst := 3, pairs := [(0x8, 1)] }
     (up ringUp).dev.Admits hr (configSetSpec b) ∧
     (((up ringUp).dev.opened hr (configSetSpec b)).configCheck b).isSome = true) := by decide +kernel

/-- A CONFIG_SET of TIME_UTC. -/
def utcSet : ConfigBody := { block := 2, inst := 0, pairs := [(0x8, 1)] }

theorem witness_QueriesAnswerAndConfigurationLands_config :
    (up ringUp).dev.Admits hr (configSetSpec utcSet) ∧ ((up ringUp).dev.opened hr (configSetSpec utcSet)).configCheck utcSet = none ∧
    configWords utcSet = [(R.TIME_UTC, 1)] ∧ ctrlFn R.TIME_UTC = none ∧ isFstate R.TIME_UTC.kind = false ∧
    (∀ v, regStore R.TIME_UTC v = wr R.TIME_UTC v) ∧ R.TIME_UTC.valid = true ∧ ¬ commandWord R.TIME_UTC :=
  ⟨by decide +kernel, by decide +kernel, by decide +kernel, by decide, by decide, fun _ => rfl, by decide, by unfold commandWord; decide⟩


/-! ### Witnesses: destinations and processors -/

/-- Destination 1023, running on OTG 31 at 1080p25. -/
def dstUp (m : DstMem) (l : List (Field × Nat)) (frames : List Frame) : State :=
  withX (up ([inState (.dst 1023) .on, (F.DST_CTRL_otg 1023, 31)] ++ l)) fun x => { x with
    dst := KV.set {} x.dst 1023 m
    stores := KV.set {} x.stores 5 { alloc := true, format := 80, depth := 8, frames := frames }
    time := { x.time with otg := KV.set {} x.time.otg 31 { format := 82, started := true, length := fmtPeriod 82 } } }

/-- A change that lands on the base layer. -/
def aLanding : PendTake := { id := 1, video := true, source := 5, frame := 0 }

theorem witness_DestinationsShowFramesAndLandChanges :
    (let s := dstUp {} [] []
     s.dev.live = true ∧ s.dev.dstRuns 1023 = true ∧ s.dev.flag (F.DST_CTRL_opaque 1023) = false ∧
     (s.dev.dstm 1023).fly = none ∧ s.dev.pathProc 1023 = none ∧ (s.dev.dstm 1023).resolved = [] ∧
     (s.dev.dstm 1023).modeDue = none) ∧
    (let s := dstUp { resolved := [aLanding] } [] []
     s.dev.live = true ∧ s.dev.dstRuns 1023 = true ∧ (s.dev.dstm 1023).resolved = [aLanding] ∧ aLanding.video = true ∧
     aLanding.layer = none) := by decide +kernel

/-- A complete frame of source 5. -/
def shownFrame : Frame :=
  { rcd := { source := 5, format := 80, slot := 0, sampling := 0, seq := 9, t := 0 }, due := 0, phase := .complete }

theorem witness_DestinationsFetchBuildAndMeasureLines :
    (let s := dstUp { sel := [(2, { code := 5, slot := some 0, seq := 9 })] } [] [shownFrame]
     s.dev.live = true ∧ s.dev.dstRuns 1023 = true ∧ (s.dev.layerSel 1023 2).off = false ∧
     (s.dev.layerSel 1023 2).slot.isSome = true ∧ s.dev.selFrame (s.dev.layerSel 1023 2) = some shownFrame ∧
     shownFrame.phase = .complete ∧ s.dev.rowErrors (s.dev.store (s.dev.layerSel 1023 2).code) shownFrame 0 = 0) ∧
    (let s := dstUp { sel := [(0, { code := 5, slot := some 0, seq := 9 })] } [] []
     (s.dev.layerSel 1023 0).off = false ∧ (s.dev.layerSel 1023 0).slot.isSome = true ∧
     s.dev.selFrame (s.dev.layerSel 1023 0) = none) ∧
    (let s := dstUp {} [] []
     s.dev.flag (F.DST_CTRL_opaque 1023) = false ∧ (activeLine (s.dev.dstTiming 1023).1.format 500).isSome = true ∧
     (∀ l ∈ [0, 1, 2], s.dev.missing 1023 l ((activeLine (s.dev.dstTiming 1023).1.format 500).getD 0) = false) ∧
     activeLine (s.dev.dstTiming 1023).1.format 0 = none ∧ s.dev.fst (.dst 1023) = .on) := by decide +kernel

/-- A configuration that is not enabled: a path at destination 1023, or a publishing processor. -/
def offCfg (publish : Bool) : ProcSetBody :=
  { controller := 0, proc := 511, regs := [if publish then 0x10 else 1023 * 2 ^ 16, 0, 0, 0, 3, 0, 0, 0, 0, 0, 0], mtx := List.replicate 32 0 }

theorem witness_ProcessorCommandsSetWhatTheyName_set :
    (∀ pub : Bool, let b := offCfg pub
     let s := up (ringUp ++ [inState (.prc 511) .on, inState (.dst 1023) .on])
     s.dev.Admits hr (procSetSpec b) ∧
     (s.dev.opened hr (procSetSpec b)).procCheck b.proc ⟨b.regs, b.mtx⟩ (s.dev.actsFor hr (procSetSpec b)) = none ∧
     (({ words := b.regs, mtx := b.mtx } : PrcCfg).publish = true ∨
       s.dev.dstIdle ({ words := b.regs, mtx := b.mtx } : PrcCfg).dest = false)) ∧
    (let b := offCfg false
     let s := up (ringUp ++ [inState (.prc 511) .on])
     s.dev.Admits hr (procSetSpec b) ∧
     (s.dev.opened hr (procSetSpec b)).procCheck b.proc ⟨b.regs, b.mtx⟩ (s.dev.actsFor hr (procSetSpec b)) = none ∧
     ({ words := b.regs, mtx := b.mtx } : PrcCfg).publish = false ∧ s.dev.dstIdle 1023 = true) := by decide +kernel

/-- A publishing processor that reads slot 63's table. -/
def lutUser : PrcMem := { cfg := some { words := 0x11 :: List.replicate 10 0xFFFFFFFF, mtx := [] } }

theorem witness_ProcessorCommandsSetWhatTheyName_tables :
    (let b : LutLoadBody := { slot := 63, last := true, first := 35936, entries := [(1, 2, 3)] }
     let s := up ringUp
     s.dev.Admits hr (lutLoadSpec b) ∧ (s.dev.lutUsers 63).isEmpty = true ∧ s.dev.fld (F.LUT3D_STATE_state 63) ≠ 3 ∧
     s.dev.rd (R.LUT3D_LOADED 63) ≤ 35937 ∧ s.dev.Admits hr (lutFreeSpec 63) ∧ 0 < b.entries.length) ∧
    (let s := withX (up ringUp) fun x => { x with prc := KV.set {} x.prc 0 lutUser }
     s.dev.Admits hr (lutFreeSpec 63) ∧ (s.dev.lutUsers 63).isEmpty = false) ∧
    (up ringUp).dev.Admits hr (curveLoadSpec { proc := 511, curve := 5, entries := List.replicate 1025 0 }) ∧
    (let b : CoefLoadBody := { proc := 511, bank := 0, coefs := (List.replicate 64 (1024 :: List.replicate (bankTaps 0 - 1) 0)).flatMap id }
     (up ringUp).dev.Admits hr (coefLoadSpec b) ∧ bankValid b.bank b.coefs = true) ∧
    (let b : CoefLoadBody := { proc := 511, bank := 0, coefs := List.replicate (64 * bankTaps 0) 1 }
     (up ringUp).dev.Admits hr (coefLoadSpec b) ∧ bankValid b.bank b.coefs = false) ∧
    (up ringUp).dev.Admits hr (procQuerySpec 511) := by decide +kernel

/-- A processor that publishes source 5 at 1080p unchanged. -/
def passCfg : PrcCfg := { words := [0x11, 0, 5, 82, 3, 0, 0, 0, 0, 0, 0], mtx := List.replicate 32 0 }

/-- Processor 511 in that configuration, its OTG at 1080p25, with the frames of source 5 and its own. -/
def prcUp (job : Option PrcJob) (frames own : List Frame) : State :=
  withX (up [inState (.prc 511) .on]) fun x => { x with
    prc := KV.set {} x.prc 511 { cfg := some passCfg, job := job }
    stores := KV.set {} (KV.set {} x.stores 5 { alloc := true, format := 82, depth := 8, frames := frames }) (procCode 511 passCfg)
      { alloc := true, format := 82, depth := 4, frames := own }
    time := { x.time with otg := KV.set {} x.time.otg 0 { format := 82, started := true, length := fmtPeriod 82 } } }

/-- A complete frame of source 5 in that format, a second old at house time 0. -/
def oldFrame : Frame :=
  { rcd := { source := 5, format := 82, slot := 0, sampling := 0, seq := 9, t := -secU }, due := 0, phase := .complete }

/-- A processor's frame in production. -/
def madeFrame : Frame := { rcd := { source := 0x5FF, format := 82, slot := 0, sampling := 0, seq := 4, t := 0 }, due := 0 }

/-- The input of processor 511 in that configuration, with its evaluation. -/
def inEval (s : State) : Option (VideoFmt × ProcEval) :=
  (s.dev.codeFmt (s.dev.procInput passCfg)).map fun i => (i, s.dev.procEval 511 passCfg i)

/-- The frame the processor would begin at a boundary now. -/
def jobNow (s : State) (ev : ProcEval) : Option (PrcJob × Bool × Bool) :=
  s.dev.procJob 511 passCfg (s.dev.otgFrame passCfg.otg)
    (s.dev.toHt (s.dev.otgm passCfg.otg).src (s.dev.otgm passCfg.otg).start) false ev

theorem witness_ProcessorsProduceTheirFrames :
    (let s := prcUp none [oldFrame] []
     s.dev.live = true ∧ s.dev.fst (.prc 511) = .on ∧ (s.dev.prcm 511).cfg = some passCfg ∧ passCfg.publish = true ∧
     passCfg.enable = true ∧ (s.dev.prcm 511).pend = [] ∧ (s.dev.prcm 511).job = none ∧
     ((inEval s).map fun e =>
        !(e.2.overload || (!e.2.bypass && (e.2.short || e.2.missing))) && (jobNow s e.2).isSome) = some true) ∧
    (let s := prcUp none [] []
     (s.dev.prcm 511).job = none ∧ ((inEval s).map fun e => e.2.overload) = some true) ∧
    (let j : PrcJob := { frame := 4, b := 0, code := 5, seqA := 9 }
     let s := prcUp (some j) [oldFrame] [madeFrame]
     (s.dev.prcm 511).job = some j ∧ madeFrame ∈ (s.dev.store (procCode 511 passCfg)).frames ∧ madeFrame.phase = .writing ∧
     madeFrame.rcd.seq = j.frame % 2 ^ 32 ∧
     (∀ e ∈ (s.dev.store (procCode 511 passCfg)).frames, e.rcd.seq = madeFrame.rcd.seq → e = madeFrame)) := by
  decide +kernel

/-! ### Witnesses: heads, audio and serial ports -/

/-- MV_SET of head 31 as it can stand: not enabled, format 3, one audio pair group. -/
def mvSetB : MvSetBody :=
  { controller := 0, head := 31, regs := [0, 0, 3, 0, 0, 0x1000, 0], clocks := List.replicate 12 0, palette := List.replicate 16 0 }

/-- One tile of black at the raster's first corner, 16 by 16. -/
def mvLayoutB : MvLayoutBody :=
  { controller := 0, head := 31, tiles := [{ src := 0x80000000, rectX := 0, rectY := 0, deco := 0, meter := 0 }] }

theorem witness_MultiviewerCommandsWriteTheirHeads :
    (let s := up ringUp
     s.dev.Admits hr (mvSetSpec mvSetB) ∧ mvSetB.head < 32 ∧
     (let d := s.dev.opened hr (mvSetSpec mvSetB)
      ((each (mvSetRegs 31 mvSetB) fun e => wr e.1 e.2).run d).mvhCheck d 31 = none)) ∧
    (let s := up ringUp
     let b : MvLayoutBody := { mvLayoutB with tiles := [] }
     s.dev.Admits hr (mvLayoutSpec b) ∧
     (let d := s.dev.opened hr (mvLayoutSpec b)
      ((seq [each (mvLayoutRegs 31 b.tiles) fun e => wr e.1 e.2,
         each ((List.range 64).drop b.tiles.length) fun t => setF (F.MVH_T_SRC_enable 31 t) 0]).run d).mvhCheck d 31 = none)) ∧
    (up ringUp).dev.Admits hr (mvTextSpec { head := 31, tile := 63, text := List.replicate 32 0x41 }) ∧
    (up ringUp).dev.Admits hr (mvTallySpec { head := 31, tile := 63, tally := 3 }) ∧
    (up ringUp).dev.Admits hr (mvGuardSpec { head := 31, region := 15, ctrl := 2, x := 0xFFFEFFFE, y := 0, expect := 0xFFFFFFFF }) ∧
    bitsOf 0xFFFEFFFE 16 16 % 2 = 0 ∧ bitsOf 0xFFFEFFFE 0 16 % 2 = 0 ∧
    (up ringUp).dev.Admits hr (fontSetSpec { font := 3, height := 64, baseline := 127, defaultCp := 0x1FFFFF }) ∧
    (up ringUp).dev.Admits hr (mvQuerySpec 31) := by decide +kernel

/-- A font of height 8 and a glyph for it. -/
def fontUp : State := up (ringUp ++ [(F.FONT_HDR_height 3, 8)])

def glyphB : FontLoadBody := { font := 3, slot := 8191, cp := 0x41, width := 1, bitmap := List.replicate 8 0xFF }

theorem get_other_kind : ∀ (m : RegFile) (r : Reg), (∀ e ∈ m, e.1.kind ≠ r.kind) → RegFile.get m r = resetWord r
  | [], _, _ => rfl
  | (k, v) :: t, r, h => by
    have hk : ¬ r = k := fun e => h (k, v) (by simp) (by rw [e])
    simp only [RegFile.get, hk, if_false]
    exact get_other_kind t r fun e he => h e (by simp [he])

theorem no_glyphs (g : Nat) : fontUp.dev.flag (F.GLYPH_ID_valid g) = false := by
  have h : ∀ e ∈ fontUp.dev.regs, e.1.kind ≠ RK.GLYPH_ID := by decide +kernel
  have e : fontUp.dev.regs.get (R.GLYPH_ID g) = resetWord (R.GLYPH_ID g) := get_other_kind _ _ h
  show ((bitsOf (fontUp.dev.regs.get (R.GLYPH_ID g)).toNat 31 1) == 1) = false
  have z : resetWord (R.GLYPH_ID g) = 0 := rfl
  rw [e, z]; rfl

theorem witness_MultiviewerCommandsWriteTheirHeads_glyph :
    fontUp.dev.Admits hr (fontLoadSpec glyphB) ∧ fontUp.dev.fld (F.FONT_HDR_height glyphB.font) ≠ 0 ∧
    glyphB.bitmap.length = glyphBytes (fontUp.dev.fld (F.FONT_HDR_height glyphB.font)) glyphB.width ∧
    (∀ g < 8192, g ≠ glyphB.slot → fontUp.dev.flag (F.GLYPH_ID_valid g) = true →
      fontUp.dev.fld (F.GLYPH_ID_font g) = glyphB.font → fontUp.dev.fld (F.GLYPH_ID_code_point g) ≠ glyphB.cp) :=
  ⟨by decide +kernel, by decide +kernel, by decide +kernel, fun g _ _ h => by rw [no_glyphs] at h; cases h⟩

/-- Head 31 ON, on OTG 0, with the state given. -/
def mvhUp (m : MvhMem) (l : List (Field × Nat)) (st : Store) : State :=
  withX (up ([inState (.mvh 31) .on, inState (.otg 0) .on] ++ l)) fun x => { x with
    mvh := KV.set {} x.mvh 31 m
    stores := KV.set {} x.stores (headCode 31) st }

/-- A store of eight slots. -/
def headStore (frames : List Frame) : Store := { alloc := true, format := 82, depth := 8, frames := frames }

/-- A head's frame in production. -/
def headFrame : Frame :=
  { rcd := { source := headCode 31, format := 82, slot := 1, sampling := 0, seq := 4, t := 0 }, due := 0 }

theorem witness_HeadsLandComposeAndComplete :
    (let s := mvhUp { pend := [1] } [] {} ; s.dev.live = true ∧ (s.dev.mvhm 31).pend ≠ []) ∧
    (let s := mvhUp {} [word R.PWR_STATUS 0] (headStore [])
     s.dev.live = true ∧ s.dev.fst (.mvh 31) = .on ∧ (s.dev.mvhm 31).pend = [] ∧ (s.dev.mvhm 31).job = none ∧
     (s.dev.mvhm 31).fly = none ∧ s.dev.fld (F.MVH_CTRL_otg 31) < 32 ∧
     s.dev.on (.otg (Fin.ofNat 32 (s.dev.fld (F.MVH_CTRL_otg 31)))) = true ∧ s.dev.shedStage = 0 ∧
     (s.dev.store (headCode 31)).alloc = true ∧
     (((mvhRelease 31).run s.dev).chooseSlot (((mvhRelease 31).run s.dev).store (headCode 31))
       ((s.dev.mvhTiming 31).2 % 2 ^ 32)).isSome = true) ∧
    (let s := mvhUp {} [(F.PWR_STATUS_stage, 1)] {}
     s.dev.fst (.mvh 31) = .on ∧ s.dev.on (.otg (Fin.ofNat 32 (s.dev.fld (F.MVH_CTRL_otg 31)))) = true ∧ 1 ≤ s.dev.shedStage) ∧
    (let j : MvhJob := { frame := 4, b := 0, slot := 1, tiles := [], clocks := [] }
     let s := mvhUp { job := some j, fly := some ({ format := 82 }, 4) } [] (headStore [headFrame])
     s.dev.fst (.mvh 31) = .on ∧ (s.dev.mvhm 31).job = some j ∧ 0 < tileRows (s.dev.mvhTiming 31).1.format ∧
     j.rows.contains 0 = false ∧ j.rows.length + 1 < tileRows (s.dev.mvhTiming 31).1.format) ∧
    (let j : MvhJob := { frame := 4, b := 0, slot := 1, tiles := [], clocks := [], rows := List.range 67 }
     let s := mvhUp { job := some j, fly := some ({ format := 82 }, 4) } [] (headStore [headFrame])
     (s.dev.mvhm 31).job = some j ∧ headFrame ∈ (s.dev.store (headCode 31)).frames ∧
     tileRows (s.dev.mvhTiming 31).1.format ≤ j.rows.length + 1 ∧ headFrame.phase = .writing ∧
     headFrame.rcd.seq = j.frame % 2 ^ 32 ∧
     (∀ e ∈ (s.dev.store (headCode 31)).frames, e.rcd.seq = headFrame.rcd.seq → e = headFrame)) := by decide +kernel


/-- The audio matrix ON. -/
def audUp (l : List (Field × Nat)) : State := up (ringUp ++ [inState .aud .on] ++ l)

theorem witness_AudioCommandsLandAtTheirBlock :
    (let s := audUp []
     let b : AudioMapBody := { controller := 0, first := s.dev.audCh - 1, entries := [(2 ^ 31 + (s.dev.audCh - 1), 0)] }
     s.dev.fst .aud = .on ∧ s.dev.Admits hr (audioMapSpec b) ∧ b.first + b.entries.length ≤ s.dev.audCh ∧ b.entries ≠ [] ∧
     (∀ e ∈ b.entries, (bitsOf e.1 30 2 = 1 → bitsOf e.1 0 15 < s.dev.audGs) ∧
       (bitsOf e.1 30 2 = 2 → bitsOf e.1 0 15 < s.dev.audCh)) ∧
     (s.dev.audOwner b.first).isNone = true) ∧
    (let s := audUp []
     let b : AudioBindBody := { first := s.dev.audCh - 1, entries := [0] }
     s.dev.Admits hr (audioBindSpec b) ∧ b.first + b.entries.length ≤ s.dev.audCh ∧ b.entries.all bindingOk = true) ∧
    (let s := audUp []
     let b : AudioGroupBody := { kind := 1, index := 1023, base := 0, count := 0, delay := 48000 }
     s.dev.Admits hr (audioGroupSpec b) ∧ b.base + (if b.kind = 0 then s.dev.audGs else b.count) ≤ s.dev.audCh ∧
     b.count ≤ s.dev.audCarried b.index) ∧
    (audUp []).dev.Admits hr (audioToneSpec { generator := 15, freq := 20000, level := 960 }) ∧
    (let s := audUp []
     let b : AudioMonitorBody := { kind := 0, index := 2047, values := [0x5A010000 + (s.dev.audCh - 1)] }
     s.dev.Admits hr (audioMonitorSpec b) ∧ b.index < (if b.kind = 0 then 2048 else 128) ∧
     (∀ w ∈ (if b.kind = 0 then b.values else b.values.drop 1), bitsOf w 0 15 < s.dev.audCh)) ∧
    (let s := up ringUp
     s.dev.Admits hr (audioToneSpec { generator := 15, freq := 1, level := 0 }) ∧ s.dev.fst .aud ≠ .on ∧ s.dev.x.aud.pend = [] ∧
     s.dev.Admits hr (audioQuerySpec { inputs := true, first := s.dev.audCh - 1, count := 1 })) := by decide +kernel

/-- The audio matrix ON, with one input channel's state and serial port 15 ON in a qualifier state. -/
def sapUp (l : List (Field × Nat)) (f : AudState → AudState) : State :=
  withX (up ([inState .aud .on, inState (.sap 15) .on] ++ l)) fun x => { x with aud := f x.aud }

/-- The audio matrix ON and clocked at a time, with a tone change due. -/
def toneDue : State :=
  sapUp [] fun a => { a with pend := [{ id := 1, land := 0, change := .tone 15 32767 1023 }] }

/-- An audio message for block 0. -/
def audMsg1 : AudioMsg := { block := 1, entries := [] }

/-- The word AUDIO_SAP lays for I2S at 48 kHz. -/
def sapB : AudioSapBody := { port := 15, values := [0x01000000, 0, 0, 0, 0, 0, 0x00010000] }

/-- A frame of 64 BCLKs at 48 kHz. -/
def sapF : SapFrameIn := { bclks := 64, period := secU / 48000, words := [] }

theorem witness_AudioBlocksAndSerialPortsRun :
    (let s := toneDue
     s.dev.live = true ∧ s.dev.fst .aud = .on ∧ s.dev.x.aud.pend = [{ id := 1, land := 0, change := .tone 15 32767 1023 }] ∧
     0 ≤ s.dev.audBlock) ∧
    (let s := sapUp [(F.AIN_STATE_state 32767, 5)] fun a => { a with ins := KV.set {} a.ins 32767 { complete := 8 } }
     s.dev.ainState 32767 = 5 ∧ s.dev.fld (F.AIN_BIND_kind 32767) ≠ 4 ∧ 8 ≤ (s.dev.ain 32767).complete) ∧
    (let s := sapUp [(F.AUD_SIL_CTRL_enable 2047, 1), (F.AUD_SIL_CTRL_duration 2047, 1)] fun a =>
        { a with silent := KV.set 0 a.silent 2047 1000 }
     s.dev.flag (F.AUD_SIL_CTRL_enable 2047) = true ∧
     s.dev.fld (F.AUD_SIL_CTRL_duration 2047) * 1000 ≤ KV.get 0 s.dev.x.aud.silent 2047) ∧
    (let s := withX (sapUp [(F.AIN_STATE_state 7, 2)] fun a =>
        { a with ins := KV.set {} a.ins 7 { chan := some default, syncAt := some 0 } })
        fun x => { x with time := { x.time with clk := secU } }
     s.dev.fld (F.AIN_BIND_asrc 7) = 0 ∧ s.dev.ainState 7 = 2 ∧ (s.dev.ain 7).chan.isSome = true ∧
     (s.dev.ain 7).syncAt = some 0 ∧ 0 + secU ≤ s.dev.x.time.clk) ∧
    (let s := sapUp [(F.TWIN_STATUS_tstate, 6)] id
     s.dev.lockstep = true ∧ s.dev.rd64 R.AUD_BLOCK_LO R.AUD_BLOCK_HI < audMsg1.block) ∧
    (let s := up ringUp
     s.dev.Admits hr (audioSapSpec sapB) ∧ framingOk (sapB.values.getD 0 0) (sapB.values.getD 2 0) = true ∧
     bitsOf (sapB.values.getD 5 0) 0 15 + sapSlots (sapB.values.getD 0 0) (sapB.values.getD 2 0) ≤ s.dev.audCh) ∧
    (let s := sapUp [(F.SAP_CTRL_allowed 15, 1)] id
     s.dev.fst (.sap 15) = .on ∧ s.dev.sapState 15 = 0 ∧ s.dev.sapMatch 15 sapF.period = some 1 ∧
     (s.dev.flag (F.SAP_CTRL_mode 15) = true ∨ 1 = s.dev.audRateCode) ∧ s.dev.sapCount 15 sapF = true) ∧
    (let s := sapUp [(F.SAP_CTRL_allowed 15, 1), (F.SAP_CLK_STATE_cstate 15, 1), (F.SAP_CLK_STATE_rate 15, 1), word (R.SAP_QUAL_COUNT 15) 65535] id
     s.dev.sapState 15 = 1 ∧ s.dev.sapMatch 15 sapF.period = some (s.dev.fld (F.SAP_CLK_STATE_rate 15)) ∧
     s.dev.fld (F.SAP_CLK_STATE_rate 15) = s.dev.audRateCode ∧ s.dev.sapCount 15 sapF = true ∧
     s.dev.sapQualFrames 15 ≤ s.dev.rd (R.SAP_QUAL_COUNT 15)) ∧
    (let s := sapUp [(F.SAP_CTRL_allowed 15, 0)] id
     s.dev.sapState 15 = 0 ∧ s.dev.sapMatch 15 sapF.period = none) ∧
    (let s := sapUp [(F.SAP_CLK_STATE_cstate 15, 2), (F.SAP_CLK_STATE_bad_run 15, 2), (F.SAP_CLK_STATE_rate 15, 1)] id
     s.dev.sapState 15 = 2 ∧ 2 ≤ s.dev.fld (F.SAP_CLK_STATE_bad_run 15) ∧
     (s.dev.sapCount 15 { sapF with bclks := 31 } && s.dev.sapNear 15 (s.dev.fld (F.SAP_CLK_STATE_rate 15)) sapF.period) = false) := by
  decide +kernel

/-! ### Witnesses: Holtut links -/

/-- Link 95 ON with its lane's link in a receive state. -/
def hlkUp (rx : Nat) (l : List (Field × Nat)) (m : HlkMem) : State :=
  withX (up ([inState (.hlk 95) .on, (F.HLK_STATE_rx_state 95, rx)] ++ l)) fun x => { x with hlk := KV.set {} x.hlk 95 m }

/-- A STATE block of an active unit, with its check. -/
def stateB : Block66 := ctrlBlock 0x4B [0x05, 7, 1, 2, 3, 4]

theorem witness_HoltutReceiversFollowTheirStates :
    (let s := hlkUp 0 [] {} ; s.dev.live = true ∧ s.dev.fst (.hlk 95) = .on ∧ s.dev.rxState 95 = 0) ∧
    (hlkUp 5 [] {}).dev.rxState 95 = 5 ∧
    (let s := hlkUp 4 [] { sleepAt := some 0 }
     s.dev.rxState 95 = 4 ∧ (s.dev.hlkm 95).sleepAt = some 0 ∧ s.dev.x.time.clk ≤ 0 + 1000000 * nsU) ∧
    (let s := hlkUp 4 [] {} ; s.dev.rxState 95 ≠ 0 ∧ s.dev.rxState 95 ≠ 5 ∧ (s.dev.hlkm 95).sleepAt = none) ∧
    (hlkUp 2 [] {}).dev.rxState 95 = 2 ∧ (hlkUp 3 [] {}).dev.rxState 95 = 3 ∧
    (let s := hlkUp 4 [(F.HLK_CTRL_rate 95, 1)] {} ; s.dev.rxState 95 = 4 ∧ s.dev.hlkFec 95 = true) ∧
    (let s := hlkUp 3 [] {} ; (s.dev.hlkm 95).fromIdle = false ∧ (s.dev.fnm (.hlk 95)).retries = []) ∧
    (let s := hlkUp 2 [] { fromIdle := true } ; s.dev.rxState 95 = 2 ∧ (s.dev.hlkm 95).fromIdle = true) ∧
    (stateB.header = 2 ∧ blockByte stateB 0 = 0x4B ∧ blockCrcOk stateB = true ∧ bitOf (blockByte stateB 1) 0 = true ∧
      blockCrcOk { stateB with payload := stateB.payload + 256 } = false) ∧
    (let s := hlkUp 4 [(F.HLK_CTRL_idle_en 95, 1)] {}
     s.dev.hlkSending 95 = true ∧ s.dev.flag (F.HLK_CTRL_idle_en 95) = true ∧ s.dev.fld (F.HLK_CTRL_role 95) = 0 ∧
     s.dev.hlkBound 95 = false) ∧
    (hlkUp 4 [(F.HLK_STATE_tx_state 95, 1)] {}).dev.fld (F.HLK_STATE_tx_state 95) = 1 ∧
    (hlkUp 4 [(F.HLK_STATE_tx_state 95, 2)] {}).dev.fld (F.HLK_STATE_tx_state 95) = 2 := by decide +kernel

/-- A segment with its CRC-32C: the bytes given, then the check. -/
def seg (kind flow : Nat) (b : List Byte) : Segment :=
  { kind := kind, flow := flow, seq := 65535, data := b ++ leBytes 4 (crc32c b) }

/-- The bytes of a segment: values by place, the rest 0. -/
def segBytes (n : Nat) (l : List (Nat × Nat)) : List Byte :=
  (List.range n).map fun i => BitVec.ofNat 8 (KV.get 0 l i)

/-- One pel word of line 1079 of 1080p25. -/
def videoSeg : Segment := seg 1 63 (segBytes 28 [(8, 82), (12, 0x37), (13, 4), (16, 1)])

/-- One channel, one sample. -/
def audioSeg : Segment := seg 2 63 (segBytes 20 [(8, 1), (10, 1)])

/-- A TWIN message of one fragment of no byte. -/
def twinSeg : Segment := seg 6 0 (segBytes 20 [(0, 8)])

theorem witness_HoltutLinksCountAndCarrySegments :
    (let s := hlkUp 4 [] {}
     s.dev.live = true ∧ s.dev.fst (.hlk 95) = .on ∧ s.dev.rxState 95 = 4 ∧
     kindCarried (s.dev.hlkTwin 95) 6 = false ∧ kindCarried (s.dev.hlkTwin 95) 1 = true ∧
     videoSeg.version = 1 ∧ videoSeg.kind = 1 ∧ (segWhole videoSeg && videoOk videoSeg) = true ∧
     audioSeg.kind = 2 ∧ (segWhole audioSeg && audioOk audioSeg) = true ∧
     (segWhole { videoSeg with data := videoSeg.data.drop 1 } && videoOk videoSeg) = false) ∧
    (let g := seg 3 63 (segBytes 20 [])
     g.kind = 3 ∧ (segWhole g && (decide (16 ≤ g.data.length) && (segEntries g).isSome)) = true) ∧
    (let g := seg 4 63 (segBytes 28 [(8, 12)])
     g.kind = 4 ∧ (segWhole g && (decide (12 ≤ leAt g.data 8 2) && decide (leAt g.data 8 2 ≤ 9000) &&
       g.data.length == 8 * ceilDiv (20 + leAt g.data 8 2) 8)) = true) ∧
    (let g := seg 5 63 (segBytes 44 []) ; g.kind = 5 ∧ (segWhole g && g.data.length == 48) = true) ∧
    (let s := hlkUp 4 [(F.HLK_CTRL_role 95, 1)] {}
     let g := twinSeg
     s.dev.hlkTwin 95 = true ∧ g.version = 1 ∧ g.kind = 6 ∧ segWhole g = true ∧ twinOk g = true ∧ s.dev.x.twinAsm = [] ∧
     s.dev.x.twin.delivered = none ∧ leAt g.data 2 2 = 0 ∧ leAt g.data 4 4 ≤ 9196 ∧ 16 + leAt g.data 4 4 ≤ g.data.length ∧
     1 ≤ leAt g.data 0 2 ∧ leAt g.data 0 2 ≤ 8) ∧
    (let s := withX (hlkUp 4 [] {}) fun x => { x with twinAsm := [{ seq := 1, type := 1, total := 1 }] }
     s.dev.x.twinAsm ≠ []) ∧
    (let s := hlkUp 4 [(F.HLK_STATE_link_up 95, 1)] {}
     s.dev.hlkSending 95 = true ∧ s.dev.flag (F.HLK_STATE_link_up 95) = true) := by decide +kernel

/-- A FEC frame of zeros, and one whose check symbols are off a code word by 22 symbols. -/
def fecZero : List Block66 := List.replicate 80 { header := 0, payload := 0 }
def fecBroken : List Block66 :=
  List.replicate 76 { header := 0, payload := 0 } ++
    [⟨0, 0x1EB38298E59FC801⟩, ⟨0, 0xB549A671A00BECB6⟩, ⟨0, 0x340A659394913001⟩, ⟨0, 0xD8D3961AD147⟩]

theorem syndrome_zeros (a : Nat) : ∀ n, (List.replicate n 0).foldl (fun acc s => gfMul acc a ^^^ s) 0 = 0
  | 0 => rfl
  | n + 1 => by
    have h : gfMul 0 a ^^^ 0 = 0 := by
      have e : ∀ i, gfStep a (0, 0) i = (0, 0) := fun i => by simp [gfStep]
      have f : ∀ l : List Nat, l.foldl (gfStep a) (0, 0) = (0, 0) := fun l => by
        induction l with
        | nil => rfl
        | cons i l ih => rw [List.foldl_cons, e, ih]
      simp [gfMul, f]
    rw [List.replicate_succ, List.foldl_cons, h]
    exact syndrome_zeros a n

theorem rsSyndromes_tail (w : List Nat) : rsSyndromes (List.replicate 456 0 ++ w) = rsSyndromes w := by
  simp only [rsSyndromes, List.foldl_append, syndrome_zeros]

/-- The check symbols of the broken frame. -/
def brokenChecks : List Nat := [1, 1017, 918, 332, 824, 1085, 813, 95, 416, 1230, 1318, 218, 768, 290, 1253, 812, 1034, 230, 837, 781, 1337, 433]

theorem carried_zero (b : List Block66) (h : carriedBits b = 0) :
    (List.range 456).map (fun m => bitsOf (carriedBits b) (11 * m) 11) = List.replicate 456 0 := by
  rw [h, List.eq_replicate_iff]
  exact ⟨by simp, fun x hx => by obtain ⟨m, -, rfl⟩ := List.mem_map.1 hx; simp [bitsOf]⟩

theorem fecBroken_carried : carriedBits fecBroken = 0 := by decide +kernel

theorem fecBroken_checks : (List.range 22).map (fun k => bitsOf (checkBits fecBroken) (11 * k) 11) = brokenChecks := by
  decide +kernel

theorem fecDecode_of (b : List Block66) (w : List Nat) (h : carriedBits b = 0)
    (hc : (List.range 22).map (fun k => bitsOf (checkBits b) (11 * k) 11) = w) :
    (fecDecode b).isSome = (rsDecode (List.replicate 456 0 ++ w)).isSome := by
  unfold fecDecode
  simp only [carried_zero b h, hc]
  cases rsDecode (List.replicate 456 0 ++ w) <;> rfl

theorem brokenChecks_syndromes (W : List Nat) (hW : W = List.replicate 456 0 ++ brokenChecks) :
    rsSyndromes W = List.replicate 21 0 ++ [828] := by
  rw [hW, rsSyndromes_tail]; decide +kernel

theorem brokenChecks_search :
    ((List.range 22).foldl (RsSearch.next (List.replicate 21 0 ++ [828])) {}).len = 22 := by decide +kernel

theorem brokenChecks_fail (W : List Nat) (hW : W = List.replicate 456 0 ++ brokenChecks) : rsDecode W = none := by
  unfold rsDecode
  simp only [brokenChecks_syndromes W hW, show (List.replicate 21 0 ++ [828]).all (· == 0) = false by decide +kernel,
    brokenChecks_search, Bool.false_eq_true, if_false, show ¬ ((22 : Nat) ≤ 11) by decide, false_and]

theorem fecBroken_fails : fecDecode fecBroken = none := by
  have h := fecDecode_of fecBroken brokenChecks fecBroken_carried fecBroken_checks
  rw [brokenChecks_fail _ rfl] at h
  exact Option.isNone_iff_eq_none.1 (by rw [← Option.not_isSome, h]; rfl)

theorem fecZero_carried : carriedBits fecZero = 0 := by decide +kernel

theorem fecZero_checks : (List.range 22).map (fun k => bitsOf (checkBits fecZero) (11 * k) 11) = List.replicate 22 0 := by
  decide +kernel

theorem zeroChecks_decode (W : List Nat) (hW : W = List.replicate 456 0 ++ List.replicate 22 0) :
    (rsDecode W).isSome = true := by
  have z : (rsSyndromes W).all (· == 0) = true := by rw [hW, rsSyndromes_tail]; decide +kernel
  unfold rsDecode
  simp only [z, if_true, Option.isSome]

theorem fecZero_decodes : (fecDecode fecZero).isSome = true := by
  rw [fecDecode_of fecZero _ fecZero_carried fecZero_checks]
  exact zeroChecks_decode _ rfl

theorem witness_HoltutLinksCountAndCarrySegments_fec :
    (hlkUp 4 [(F.HLK_CTRL_rate 95, 1)] {}).dev.hlkFec 95 = true ∧ (fecDecode fecZero).isSome = true ∧
    fecDecode fecBroken = none := ⟨by decide +kernel, fecZero_decodes, fecBroken_fails⟩

/-! ### Witnesses: lanes, SDI, packet media -/

/-- Lane 95 ON with the fields given. -/
def laneUp (l : List (Field × Nat)) : State := up ([inState (.lane 95) .on, (F.LANE_CTRL_rx_en 95, 1)] ++ l)

theorem witness_LanesAdaptReportAndLoseSignal :
    (let s := laneUp [(F.LANE_CTRL_personality 95, 3)]
     s.dev.live = true ∧ s.dev.fst (.lane 95) = .on ∧ s.dev.flag (F.LANE_CTRL_rx_en 95) = true ∧
     s.dev.fld (F.LANE_EQ_STATE_adapt 95) ≠ 1 ∧ s.dev.lanePers 95 ≠ 1) ∧
    (let s := laneUp [(F.LANE_EQ_STATE_adapt 95, 1), (F.LANE_EQ_MODE_mode 95, 1)]
     s.dev.fld (F.LANE_EQ_STATE_adapt 95) = 1 ∧ s.dev.eqMode 95 ≠ 2) ∧
    (let s := laneUp [(F.LANE_EQ_STATE_adapt 95, 3)]
     2 ≤ s.dev.fld (F.LANE_EQ_STATE_adapt 95) ∧ s.dev.eqMode 95 ≠ 2) ∧
    (let s := laneUp [(F.LANE_CTRL_personality 95, 2), (F.LANE_EQ_MODE_lt_en 95, 1), (F.LANE_EQ_MODE_mode 95, 2)]
     s.dev.lanePers 95 = 2 ∧ s.dev.flag (F.LANE_EQ_MODE_lt_en 95) = true ∧ s.dev.eqMode 95 = 2) ∧
    (let s := laneUp [(F.LANE_CTRL_personality 95, 2), (F.LANE_EQ_MODE_lt_en 95, 1), (F.LANE_TXFFE 95 4, 62)]
     4 ∈ s.dev.txTaps 95 ∧ s.dev.eqMode 95 = 0 ∧ s.dev.sfld (F.LANE_TXFFE 95 4) < 63 ∧ -63 ≤ s.dev.sfld (F.LANE_TXFFE 95 4)) ∧
    (let s := laneUp [(F.LANE_CTRL_personality 95, 2), (F.LANE_EQ_MODE_lt_en 95, 1), (F.LANE_TXFFE 95 4, 63)]
     4 ∈ s.dev.txTaps 95 ∧ s.dev.sfld (F.LANE_TXFFE 95 4) = 63) ∧
    (let s := laneUp [(F.LANE_MARGIN_snr_min 95, 1), word (R.LANE_SNR 95) 0]
     s.dev.rd (R.LANE_SNR 95) < s.dev.fld (F.LANE_MARGIN_snr_min 95)) ∧
    (let s := laneUp [(F.LANE_MARGIN_snr_min 95, 1), word (R.LANE_SNR 95) 12]
     s.dev.fld (F.LANE_MARGIN_snr_min 95) + 10 < s.dev.rd (R.LANE_SNR 95)) ∧
    (laneUp [(F.LANE_SCAN_RESULT_status 95, 1)]).dev.fld (F.LANE_SCAN_RESULT_status 95) = 1 ∧
    (let s := up [inState (.quad 23) .on, inState (.lane 95) .on, (F.LANE_CTRL_enable 95, 1), (F.LANE_CTRL_personality 95, 3),
        (F.LANE_CTRL_tx_en 95, 1), (F.LANE_CTRL_rate 95, 0), (F.QUAD_CTRL_pll_a_group 23, 1)]
     s.dev.fst (.quad 23) = .on ∧ (95 : LaneId) ∈ quadLanes 23 ∧ s.dev.fst (.lane 95) = .on ∧ s.dev.laneNeedsPll 95 = true ∧
     s.dev.lanePll 95 = some (0 : Fin 2).val ∧ s.dev.flag (F.LANE_CTRL_enable 95) = true) ∧
    (let s := up [fword (.quad 23) { state := .fault, code := 3 }]
     s.dev.live = true ∧ s.dev.fst (.quad 23) = .fault ∧ (s.dev.fw (.quad 23)).code = 3 ∧
     (s.dev.fnm (.quad 23)).reinits = []) := by decide +kernel

/-- SDI function 95 ON on its lane, in a receive state. -/
def sdiUp (rx : Nat) (l : List (Field × Nat)) : State :=
  laneUp ([inState (.sdi 95) .on, (F.SDI_RX_STATE_rx_state 95, rx), (F.SDI_RX_CTRL_rate_mask 95, 0x1FF)] ++ l)

/-- The same with destination 1023 at 1080p25 on it. -/
def sdiDstUp (l : List (Field × Nat)) : State :=
  withX (sdiUp 0 ([(F.LANE_CTRL_tx_en 95, 1), (F.DST_CTRL_enable 1023, 1), (F.DST_CTRL_transport 1023, 2),
    (F.DST_OUTPUT_id 1023, 95), inState (.dst 1023) .on, (F.DST_CTRL_otg 1023, 31), (F.OTG_CTRL_format 31, 82)] ++ l)) fun x =>
    { x with time := { x.time with otg := KV.set {} x.time.otg 31 { format := 82, started := true, length := fmtPeriod 82 } } }

theorem witness_SdiReceiversSearchLockCountAndSend :
    (let s := sdiUp 0 []
     s.dev.live = true ∧ s.dev.fst (.sdi 95) = .on ∧ s.dev.fst (.lane 95) = .on ∧ s.dev.flag (F.LANE_CTRL_rx_en 95) = true ∧
     s.dev.sdiState 95 = 0) ∧
    (let s := sdiUp 1 []
     s.dev.sdiState 95 = 1 ∧ s.dev.sdiCode 95 5 = true ∧ 5 ∈ searchOrder.getD (s.dev.sdim 95).try_ [] ∧
     s.dev.sdiCode 95 3 = false) ∧
    (sdiUp 2 []).dev.sdiState 95 = 2 ∧
    (let s := sdiUp 3 [(F.SDI_RX_STATE_rate 95, 4)]
     s.dev.sdiState 95 = 3 ∧ s.dev.fld (F.SDI_RX_STATE_rate 95) ≠ 0xC ∧ s.dev.sdiQuad 95 = false) ∧
    (let s := sdiDstUp []
     s.dev.live = true ∧ s.dev.flag (F.LANE_CTRL_tx_en 95) = true ∧ s.dev.sdiDest 95 = some 1023 ∧ s.dev.dstRuns 1023 = true ∧
     s.dev.sdiQuad 95 = false ∧ 1 ≤ 1125 ∧ 1125 ≤ fmtTotalLines (s.dev.dstFormat 1023) ∧ s.dev.sdiMute 95 = false ∧
     s.dev.flag (F.SDI_STATUS_tx_muted 95) = false) ∧
    (let s := sdiDstUp [(F.TWIN_STATUS_tstate, 6), (F.SDI_TX_CTRL_standby 95, 1)]
     s.dev.sdiDest 95 = some 1023 ∧ s.dev.sdiMute 95 = true) := by decide +kernel

/-- MAC 95 ON and up, with receive context 8191 and its leg A on it. -/
def macUp95 (l : List (Field × Nat)) (m : MacMem) (q : FlowRxMem) : State :=
  withX (up ([inState (.mac 95) .on, (F.MAC_STATUS_link_up 95, 1), inState (.flowRx 8191) .on, (F.FLOW_RX_CTRL_enable 8191, 1),
    (F.FLOW_RX_CTRL_kind 8191, 1), (F.FLOW_RX_CTRL_pt 8191, 96), (F.FLOW_RX_LEG_leg_en 8191 0, 1), (F.FLOW_RX_LEG_port 8191 0, 95)] ++ l))
    fun x => { x with
      mac := KV.set {} x.mac 95 m
      flowRx := KV.set {} x.flowRx 8191 q }

/-- A packet of that context, in a broadcast frame whose header has the addresses of the reset registers. -/
def rtpP : RtpPacket := { pt := 96, ssrc := 1, seq := 65535, stamp := 0, body := .audio [[0]] 0 }
def rtpFrame (s : State) (p : RtpPacket) : EthFrame :=
  { dest := 2 ^ 48 - 1, length := 64, body := .rtp p
    ip := some { v6 := !(s.dev.legKey 8191 0).v4, src := 0, dst := (s.dev.legKey 8191 0).dst, udp := (s.dev.legKey 8191 0).udp } }

theorem witness_PortsReceiveMatchAndMergeFrames :
    (let s := macUp95 [] {} {}
     let f := rtpFrame s rtpP
     s.dev.live = true ∧ s.dev.fst (.mac 95) = .on ∧ s.dev.flag (F.MAC_STATUS_link_up 95) = true ∧
     s.dev.flag (F.MAC_CTRL_deliver_bad 95) = false ∧ { f with fcs := false }.fcs = false ∧ { f with length := 63 }.length < 64 ∧
     s.dev.errorWord 95 f = 0 ∧ s.dev.macTakes 95 { f with dest := 0x020000000001 }.dest = false ∧ s.dev.macTakes 95 f.dest = true ∧
     s.dev.flowMatch 95 f = some (8191, 0) ∧ f.body = .rtp rtpP ∧ s.dev.on (flowRxFn 8191) = true ∧
     s.dev.ssrcBad 8191 rtpP = false ∧ { rtpP with version := 1 }.version ≠ 2 ∧ rtpP.version = 2 ∧
     rtpP.pt = s.dev.fld (F.FLOW_RX_CTRL_pt 8191) ∧
     ((s.dev.frx 8191).seen.any fun e => e.1 == s.dev.rxUnwrap 8191 rtpP) = false ∧ (s.dev.frx 8191).next = none) ∧
    (let s := macUp95 [] {} { seen := [(65535, 0, 0)] }
     s.dev.flowMatch 95 (rtpFrame s rtpP) = some (8191, 0) ∧
     ((s.dev.frx 8191).seen.any fun e => e.1 == s.dev.rxUnwrap 8191 rtpP) = true) ∧
    (let s := macUp95 [] {} { next := some 65536 }
     s.dev.flowMatch 95 (rtpFrame s rtpP) = some (8191, 0) ∧ (s.dev.frx 8191).next = some 65536 ∧
     seqAfter (s.dev.rxUnwrap 8191 rtpP) 65536 < 0) ∧
    (let s := macUp95 [] {} {}
     let f : EthFrame := { dest := 2 ^ 48 - 1, length := 64, body := .ptp {} }
     s.dev.errorWord 95 f = 0 ∧ s.dev.macTakes 95 f.dest = true ∧ s.dev.flowMatch 95 f = none ∧ (s.dev.macm 95).excCount < 20000) ∧
    (let s := macUp95 [(F.FLOW_RX_CTRL_merge 8191, 1), (F.FLOW_RX_STATUS_leg_b_lost 8191, 1), (F.FLOW_RX_STATUS_leg_a_lost 8191, 1)]
        {} { next := some (2 ^ 32 - 1), waiting := [(0, rtpP, 0)] }
     s.dev.fst (.flowRx 8191) = .on ∧ 2 ^ 32 - 1 < 2 ^ 32 ∧ (s.dev.frx 8191).next = some (2 ^ 32 - 1) ∧
     (∃ e ∈ (s.dev.frx 8191).waiting, 0 < seqAfter e.1 (2 ^ 32 - 1)) ∧ s.dev.flag (F.FLOW_RX_CTRL_merge 8191) = true ∧
     s.dev.flag (F.FLOW_RX_STATUS_leg_b_lost 8191) = true ∧ s.dev.flag (F.FLOW_RX_STATUS_leg_a_lost 8191) = true) := by
  decide +kernel

/-- A PTP frame that waits at slot 0. -/
def ptpF : TxFrame := { body := .ptp .sync none, tc := 7, slot := 0, length := 64, tag := some 3 }

theorem witness_PortsLaunchInOrderAndReportDepartures :
    (let s := macUp95 [] { queue := [ptpF] } {}
     s.dev.live = true ∧ s.dev.fst (.mac 95) = .on ∧ s.dev.flag (F.MAC_STATUS_link_up 95) = true ∧ (s.dev.macm 95).sending = none ∧
     s.dev.tstate = 0 ∧
     ((s.dev.macm 95).queue.filter fun f => decide (f.slot ≤ (s.dev.x.time.clk : Int)) &&
       (match f.late with | some w => decide ((s.dev.x.time.clk : Int) ≤ f.slot + w) | none => true) && s.dev.gateOpen 95 f) ≠ []) ∧
    (let s := withX (macUp95 [] { queue := [ptpF] } {}) fun x => { x with time := { x.time with clk := secU } }
     (s.dev.macm 95).queue.find? (fun f => f.late.isNone && decide (f.slot + secU ≤ (s.dev.x.time.clk : Int))) = some ptpF) ∧
    (let s := macUp95 [(F.PORT_PTP_CTRL_tb 95, 4)] {} {}
     1 ≤ s.dev.fld (F.PORT_PTP_CTRL_tb 95) ∧ s.dev.fld (F.PORT_PTP_CTRL_tb 95) ≤ 4) ∧
    (let s := macUp95 [] { sending := some (ptpF, 0) } {}
     (s.dev.macm 95).sending = some (ptpF, 0) ∧ ptpF.tag = some 3 ∧ s.dev.x.tsq.entries.length < 512) ∧
    (let s := macUp95 [(F.MAC_GATE_CTRL_enable 95, 1)]
        { pend := some { base := 0, cycle := 1000, entries := [0xFF000001] }, gate := some { base := 0, cycle := 1000, entries := [0xFF000001] } } {}
     (s.dev.macm 95).pend = some { base := 0, cycle := 1000, entries := [0xFF000001] } ∧
     s.dev.flag (F.MAC_GATE_CTRL_enable 95) = true ∧
     (gateSpans 1000 [0xFF000001] 0)[0]? = some (0, 1000, 255) ∧
     s.dev.gateNow 95 { base := 0, cycle := 1000, entries := [0xFF000001] } < 1000) := by decide +kernel

/-! ### Witnesses: memory and matrix -/

/-- The memory system with its typed state. -/
def hbmUp (l : List (Field × Nat)) (m : HbmMem) : State :=
  withX (up ([inState .hbm .on, inState (.hbmCh 63) .on, (F.HBM_SCRUB_enable, 1)] ++ l)) fun x => { x with hbm := m }

/-- A write and a read of one burst, from port 0. -/
def wrTx (a : Nat) : MtxTx := { port := 0, issued := 0, req := { stream := 0, tag := 64, write := true, addr := a, beats := 1, data := List.replicate 64 7 } }
def rdTx (a : Nat) : MtxTx := { port := 0, issued := 0, req := { stream := 0, tag := 0, write := false, addr := a, beats := 1 } }

theorem witness_MemoryServesRefreshesScrubsAndRepairs :
    (let e : HbmEntry := { tx := wrTx 0, arrived := 0 }
     let s := hbmUp [] { writes := KV.set [] [] 127 [e] }
     s.dev.live = true ∧ pcChan 127 = 63 ∧ s.dev.on (hbmChFn (pcChan 127)) = true ∧ s.dev.hbmPick 127 = some (e, true) ∧
     s.dev.scrubs = true) ∧
    (let e : HbmEntry := { tx := rdTx 0, arrived := 0 }
     let s := hbmUp [] { reads := KV.set [] [] 127 [e] }
     s.dev.hbmPick 127 = some (e, false) ∧ (∀ q ∈ txBursts e.tx.req, q ∉ s.dev.x.poison)) ∧
    (let s := hbmUp [] {}
     let b := (List.range 128).find? fun k => (s.dev.hbmLoc (k * 2 ^ s.dev.grainLog)).pc == 127
     (b.map fun k => (s.dev.hbmLoc (k * 2 ^ s.dev.grainLog / 64 * 64)).pc) = some 127) ∧
    (let r : HbmRow := { pc := 127, bank := 31, row := 5 }
     let s := hbmUp [] { copying := [r] }
     s.dev.x.hbm.copying.find? (fun r => r.pc == 127) = some r ∧ (s.dev.spareRow r).isSome = true) ∧
    (let s := withX (up []) fun x => { x with mtx := { waiting := [wrTx 0] } }
     s.dev.flag (F.HBM_QOS_CTRL_source 0) = false ∧ s.dev.oldestTx 0 false = some 0) ∧
    8388607 / 32768 = 255 ∧
    (let s := hbmUp [] {}
     s.dev.fst (.hbmCh 63) = .on ∧ (s.dev.fnm (.hbmCh 63)).recovering = false ∧ (s.dev.fnm (.hbmCh 63)).reinits = []) ∧
    (let s := up [inState .hbm .waking, (F.HBM_CTRL_grain_log2, 7)] ; s.dev.fst .hbm = .waking ∧ s.dev.mapLegal = false) ∧
    (let s := up [inState .hbm .waking, (F.HBM_CH_CTRL_enable 63, 1)]
     s.dev.fst .hbm = .waking ∧ s.dev.mapLegal = true ∧ (s.dev.fw .hbm).pendOff = false ∧
     s.dev.flag (F.HBM_CH_CTRL_enable 63) = true ∧ (s.dev.fw (.hbmCh 63)).pendOff = false) := by decide +kernel

/-- The matrix ON with its typed state. -/
def mtxUp (l : List (Field × Nat)) (m : MtxState) (clk : Nat) : State :=
  withX (up ([inState .mtx .on] ++ l)) fun x => { x with mtx := m, time := { x.time with clk := clk } }

theorem witness_MatrixIssuesGrantsAnswersAndTimesOut :
    (let s := mtxUp [] {} 0
     s.dev.live = true ∧ s.dev.fst .mtx = .on ∧ s.dev.txLegal (wrTx 0).req = true ∧ s.dev.txLegal (rdTx 0).req = true ∧
     s.dev.streamState 0 0 ≠ 3 ∧ s.dev.mtxTarget 0 = some 0 ∧ s.dev.txLegal (rdTx (84 * 2 ^ 30)).req = true ∧
     s.dev.mtxTarget (84 * 2 ^ 30) = none) ∧
    (let s := mtxUp [] { waiting := [wrTx 0], streams := KV.set 0 [] 0 1 } 0
     ((s.dev.readyAt 0 [] s.dev.x.mtx.waiting).filter fun t =>
        s.dev.hasCredit 0 t.req.write && s.dev.limitAdmits t.port t.req.write && s.dev.poolAdmits t.port) = [wrTx 0] ∧
     (∀ t ∈ s.dev.x.mtx.waiting, t.port < 56) ∧ s.dev.faultChans = []) ∧
    (let f : MtxFlight := { tx := rdTx 0, target := 0, granted := 0, answer := some ([1], false) }
     let s := mtxUp [] { flight := [f] } 0
     s.dev.x.mtx.flight.find? (fun f => f.tx.port == 0 && f.tx.req.tag == 0 && f.answer.isSome) = some f ∧
     s.dev.txDrains f.tx = false) ∧
    (let f : MtxFlight := { tx := rdTx 0, target := 0, granted := 0 }
     let s := mtxUp [(F.MTX_CTRL_wd_en, 1), word R.MTX_WATCHDOG 10] { flight := [f] } (10000 * nsU)
     s.dev.flag F.MTX_CTRL_wd_en = true ∧ s.dev.x.mtx.flight.find? (fun f => f.tx.port == 0 && f.tx.req.tag == 0 &&
       f.answer.isNone && decide (f.granted + max 10 (s.dev.rd R.MTX_WATCHDOG) * 1000 * nsU ≤ s.dev.x.time.clk)) = some f ∧
     s.dev.txDrains f.tx = false) ∧
    (let s := mtxUp [] { streams := KV.set 0 [] (streamKey 55 16383) 1 } 0
     s.dev.streamState 55 16383 = 1 ∧ s.dev.x.mtx.flight = [] ∧ s.dev.x.mtx.waiting = []) := by decide +kernel

/-! ### Witnesses: the twin -/

/-- The twin function ON in a state of R402. -/
def twinUp (st : Nat) (l : List (Field × Nat)) (m : TwinState) : State :=
  withX (up (ringUp ++ [inState .twin .on, (F.TWIN_STATUS_tstate, st)] ++ l)) fun x => { x with twin := m }

/-- An ADMIT of the other unit that suits this one. -/
def admitOf (s : State) : AdmitMsg :=
  { unit := 1 - s.dev.fld F.TWIN_CTRL_unit, es := s.dev.fld F.GLB_ID_grade == 1, compat := s.dev.rd R.TWIN_COMPAT
    gen := s.dev.rd R.TWIN_CFG_GEN }

/-- A path to the twin whose time is near. -/
def nearLink (s : State) : State := withX s fun x => { x with hlk := KV.set {} x.hlk 95 { nearRun := 3 } }

theorem hogs_full (s : State) (h : ∀ e ∈ s.dev.regs, e.1.kind ≠ RK.SRC_CTRL) : s.dev.hogsFull = true := by
  have z : ∀ n, s.dev.flag (F.SRC_CTRL_enable n) = false := fun n => by
    have e : s.dev.regs.get (R.SRC_CTRL n) = resetWord (R.SRC_CTRL n) := get_other_kind _ _ h
    have y : bitsOf (resetWord (R.SRC_CTRL n)).toNat 0 1 = 0 := by
      show bitsOf (resetWord (R.SRC_CTRL 0)).toNat 0 1 = 0; decide +kernel
    show ((bitsOf (s.dev.regs.get (R.SRC_CTRL n)).toNat 0 1) == 1) = false
    rw [e, y]; rfl
  simp [Dev.hogsFull, z]

/-- A standby that has applied the snapshot and met the other unit's ADMIT. -/
def resyncUp (m : TwinState) : State := nearLink (twinUp 4 [(F.HLK_CTRL_role 95, 1)] m)

theorem witness_TwinPecksDecideTheRole :
    (let s := twinUp 1 [] {}
     s.dev.x.pwr.awake = true ∧ s.dev.live = true ∧ s.dev.fst .twin = .on ∧ s.dev.x.boot.upd.stage = 0 ∧ s.dev.tstate = 1) ∧
    (∀ st ∈ [2, 3, 7], (twinUp st [] {}).dev.tstate = st ∧ (twinUp st [] {}).dev.fst .twin = .on) ∧
    (let s := twinUp 3 [inState (.hlk 95) .on, (F.HLK_CTRL_role 95, 1), (F.HLK_STATE_rx_state 95, 4)] {}
     s.dev.hlkTwin 95 = true ∧ s.dev.fst (.hlk 95) = .on ∧ s.dev.rxState 95 = 4) ∧
    (let s := twinUp 6 [(F.TWIN_PECK_lane_miss, 15), (F.TWIN_PECK_lvds_miss, 15)] {}
     s.dev.x.twin.laneGot = false ∧ s.dev.x.twin.lvdsGot = false ∧
     clampN 2 15 (s.dev.fld F.TWIN_TIMING_miss_limit) ≤ s.dev.fld F.TWIN_PECK_lane_miss ∧
     clampN 2 15 (s.dev.fld F.TWIN_TIMING_miss_limit) ≤ s.dev.fld F.TWIN_PECK_lvds_miss ∧ s.dev.tstate = 6) ∧
    (let s := twinUp 2 [] { contend := true, laneGot := true }
     s.dev.x.twin.contend = true ∧ s.dev.x.twin.laneGot = true ∧ s.dev.fld F.TWIN_PECK_lane_miss = 0 ∧ s.dev.tstate = 2) ∧
    (twinUp 5 [] {}).dev.tstate = 5 ∧
    (let s := twinUp 3 [] {} ; s.dev.Admits hr healthSwapSpec ∧ s.dev.x.twin.swap = none ∧ s.dev.tstate = 3) ∧
    (let s := twinUp 6 [] {} ; s.dev.Admits hr healthSwapSpec ∧ s.dev.x.twin.swap = none ∧ s.dev.tstate ≠ 3 ∧
      s.dev.rd R.PWR_REPLACE = 0 ∧ s.dev.fld F.PWR_STATUS_stage < 4) ∧
    (let w : SwapMem := { frame := 9, mine := true }
     let s := twinUp 3 [] { swap := some w }
     s.dev.Admits hr healthSwapSpec ∧ s.dev.x.twin.swap = some w ∧ w.mine = true ∧ w.agreed = false) ∧
    (let w : SwapMem := { frame := 9, agreed := true }
     (twinUp 6 [] { swap := some w }).dev.x.twin.swap = some w ∧ w.agreed = true) := by decide +kernel

theorem witness_TwinPecksDecideTheRole_resync :
    let m := admitOf (twinUp 4 [] {})
    let s := resyncUp { applied := true, farAdmit := some m }
    s.dev.tstate = 4 ∧ s.dev.x.twin.applied = true ∧ s.dev.timeNear = true ∧ s.dev.hogsFull = true ∧
    s.dev.x.twin.farAdmit = some m ∧ s.dev.admitRefusal m = 0 :=
  ⟨by decide +kernel, by decide +kernel, by decide +kernel, hogs_full _ (by decide +kernel), by decide +kernel, by decide +kernel⟩

/-- An own signature entry that waits. -/
def ownSig : SigEntry := { dest := 1023, digest := 5, shown := 9 }

/-- MV_FONT_SET as a mirrored commit. -/
def fontB : FontSetBody := { font := 3, height := 64, baseline := 127, defaultCp := 0x1FFFFF }

theorem witness_TwinMessagesKeepThePairTogether :
    (let s := twinUp 6 [] {}
     let m : CommitMsg := { counter := (s.dev.rd R.TWIN_COMMIT_CNT + 1) % 2 ^ 32, controller := 0, seq := 1, cmd := .fontSet fontB, instant := 0 }
     s.dev.live = true ∧ s.dev.fst .twin = .on ∧ 4 ≤ s.dev.tstate ∧ s.dev.tstate = 6 ∧ s.dev.x.twin.snap = none ∧
     { m with counter := 0 }.counter ≠ (s.dev.rd R.TWIN_COMMIT_CNT + 1) % 2 ^ 32 ∧ m.cmd = .fontSet fontB ∧ fontB.font < 4 ∧
     8 ≤ fontB.height ∧ fontB.height ≤ 64 ∧ fontB.baseline < 128 ∧ fontB.defaultCp < 2 ^ 21) ∧
    (let s := twinUp 2 [] { ownSigs := [⟨31, 7, ownSig⟩] }
     2 ≤ s.dev.tstate ∧ s.dev.x.twin.ownSigs = [⟨31, 7, ownSig⟩] ∧ s.dev.x.twin.farSigs = [] ∧ ownSig.dest < 1024 ∧
     s.dev.flag (F.TWIN_SIG_exclude ownSig.dest) = false) ∧
    (let s := twinUp 2 [inState (.otg 31) .on] {} ; s.dev.fst (.otg 31) = .on ∧ s.dev.x.twin.farSigs = []) ∧
    (let s := twinUp 2 [] {} ; s.dev.tstate = 2 ∧ s.dev.admitRefusal (admitOf s) = 0 ∧ s.dev.admitRefusal { admitOf s with compat := 2 ^ 32 } ≠ 0) ∧
    (let s := twinUp 4 [] {} ; s.dev.tstate = 4 ∧ s.dev.x.twin.applied = false ∧ s.dev.refFrame < s.dev.refFrame + 1) ∧
    (let p : Peck := { role := 2 }
     let s := twinUp 2 [] { far := some p, farAdmit := some (admitOf (twinUp 2 [] {})) }
     s.dev.tstate = 2 ∧ s.dev.x.twin.far = some p ∧ p.role = 2 ∧ s.dev.x.twin.follows = false ∧ s.dev.x.twin.farAdmit.isSome = true) ∧
    (let s := resyncUp {}
     s.dev.tstate = 4 ∧ s.dev.timeNear = true ∧ s.dev.x.twin.applied = false ∧ s.dev.x.twin.snap = none) := by decide +kernel

/-! ### Witnesses: resets and start-up -/

/-- A device whose power state and boot state are changed. -/
def bootUp (l : List (Field × Nat)) (p : PwrState → PwrState) (b : BootState → BootState) : State :=
  withX (up l) fun x => { x with pwr := p x.pwr, boot := b x.boot }

theorem witness_ResetsKeepOnlyWhatSurvives :
    (let s := bootUp [inState .boot .on] id id
     s.dev.x.pwr.awake = true ∧ s.dev.powered = true ∧ s.dev.x.pwr.cycleAsked = false ∧ s.dev.fst .boot ≠ .fault ∧
     ResetCause.command ≠ ResetCause.escalation ∧ s.dev.x.pwr.cycleReq = false ∧ s.dev.tstate < 3) ∧
    (let s := bootUp [(F.PWR_WDOG_alone_reset, 0)] id id ; s.dev.tstate < 3 ∧ s.dev.flag F.PWR_WDOG_alone_reset = false) ∧
    (let s := bootUp [(F.TWIN_STATUS_tstate, 6)] id id ; s.dev.powered = true ∧ 4 ≤ s.dev.tstate) ∧
    (let s := bootUp [] (fun p => { p with cycleAsked := true }) id ; s.dev.powered = true ∧ s.dev.x.pwr.cycleAsked = true) ∧
    (let s := bootUp [] (fun p => { p with cycleReq := true, up := false }) id
     s.dev.x.pwr.awake = true ∧ s.dev.x.pwr.cycleReq = true ∧ s.dev.x.pwr.warnPin = false) ∧
    (let s := bootUp [] id id
     s.dev.flag F.GLB_STATUS_routing = false ∧ s.dev.fld F.BOOT_STATUS_phase ≠ 9 ∧ s.dev.x.pwr.tripped = false ∧
     s.dev.x.pwr.cycleReq = false) ∧
    (bootUp [(F.GLB_STATUS_routing, 1)] id id).dev.flag F.GLB_STATUS_routing = true := by decide +kernel

/-- A fold whose value is a numeral at each step, for the kernel. -/
def foldS {α : Type} (f : Nat → α → Nat) : List α → Nat → Nat
  | [], c => c
  | b :: l, c => match f c b with
    | 0 => foldS f l 0
    | n + 1 => foldS f l (n + 1)

theorem foldS_eq {α : Type} (f : Nat → α → Nat) : ∀ (l : List α) (c : Nat), foldS f l c = l.foldl f c
  | [], _ => rfl
  | b :: l, c => by
    rw [foldS, List.foldl_cons]
    cases h : f c b with
    | zero => exact foldS_eq f l 0
    | succ n => exact foldS_eq f l (n + 1)

theorem crc32c_fold (l : List Byte) (v : Nat) (h : foldS crc32cByte l 0xFFFFFFFF ^^^ 0xFFFFFFFF = v) : crc32c l = v := by
  rw [crc32c, ← foldS_eq]; exact h

/-- The boot header at address 0: generation 1, slot 1 now and before, no trial. -/
def bootBytes : List Byte :=
  leBytes 4 0x4258415A ++ leBytes 4 1 ++ leBytes 4 1 ++ leBytes 4 1 ++ leBytes 4 1 ++ List.replicate 0xE8 0

theorem bootBytes_crc : crc32c bootBytes = 928092082 := crc32c_fold _ _ (by decide +kernel)

/-- The header of a signed firmware image of 768 bytes for every grade, with its five components. -/
def imgBytes0 : List Byte :=
  leBytes 4 0x4958415A ++ [1, 1, 2, 0] ++ leBytes 4 768 ++ leBytes 4 9 ++ [0, 3, 0, 0] ++ leBytes 4 0xFF00FF00 ++ [5, 0, 0, 0] ++
    leBytes 4 0 ++ ([1, 2, 3, 4, 5].flatMap fun c => leBytes 4 c ++ leBytes 4 512 ++ leBytes 4 0 ++ leBytes 4 0) ++
    List.replicate 396 0

theorem imgBytes0_crc : crc32c imgBytes0 = 3246528342 := crc32c_fold _ _ (by decide +kernel)

/-- Bytes at an address of the flash. -/
def laid (a : Nat) : List Byte → KV Nat
  | [] => []
  | b :: l => (a, b.toNat) :: laid (a + 1) l

theorem laid_get : ∀ (l : List Byte) (a i : Nat) (r : KV Nat) (h : i < l.length), KV.get 255 (laid a l ++ r) (a + i) = (l[i]).toNat
  | b :: l, a, 0, r, _ => by simp [laid, KV.get]
  | b :: l, a, i + 1, r, h => by
    have n : ¬ a + (i + 1) = a := by omega
    have := laid_get l (a + 1) i r (by simpa using h)
    rw [show a + 1 + i = a + (i + 1) by omega] at this
    simp only [laid, List.cons_append, KV.get, n, if_false, this, List.getElem_cons_succ]

theorem laid_skip : ∀ (l : List Byte) (a x : Nat) (r : KV Nat), x < a ∨ a + l.length ≤ x → KV.get 255 (laid a l ++ r) x = KV.get 255 r x
  | [], _, _, _, _ => rfl
  | b :: l, a, x, r, h => by
    have n : ¬ x = a := by simp only [List.length_cons] at h; omega
    simp only [laid, List.cons_append, KV.get, n, if_false]
    exact laid_skip l (a + 1) x r (by simp only [List.length_cons] at h; omega)

theorem flashBytes_laid (d : Dev) (l : List Byte) (a n : Nat) (m r : KV Nat) (hf : d.x.boot.flash = some m)
    (hm : ∀ x, a ≤ x → KV.get 255 m x = KV.get 255 (laid a l ++ r) x) (h : n ≤ l.length) : d.flashBytes a n = l.take n := by
  apply List.ext_getElem
  · simp [Dev.flashBytes, h]
  · intro i h1 h2
    have hi : i < l.length := by simp at h2; omega
    simp [Dev.flashBytes, hf, hm (a + i) (by omega), laid_get l a i r hi]

/-- A public key of P-384. -/
def keyX : Nat :=
  0x0fa6fda88e9cc7ac37c33c4f1be50403df554e9c1dddf06abb599f5cef2e63d5def5ccaabae79814af1208d20afaed7c

def keyY : Nat :=
  0x2bda5c3e0875ddd9acc42172b211d79aaa21e7af5a16cbc3e18c06814a05d2a51be1fa63f2cc1e64cde911512231de78

/-- The signature of that image's first 512 bytes under that key's private half. -/
def sigR : Nat :=
  0x077a41d4606ffa1464793c7e5fdc7d98cb9d3910202dcd06bea4f240d3566da6b408bbae5026580d02d7e5c70500c831

def sigS : Nat :=
  0xa5758fcc5dea3719e1b64c0f4a346c51d2ae2063008909bbb7def991e66e0bd0558bcd4d5bada8ba04b9de33ac32bc01

/-- The image's signature block (R465): key slot 0, the key and the signature. -/
def sigBlock : List Byte :=
  List.replicate 16 0 ++ leBytes 48 keyX ++ leBytes 48 keyY ++ leBytes 48 sigR ++ leBytes 48 sigS ++ List.replicate 48 0

/-- The flash with the boot header and that image in firmware slot 1. -/
def bootFlash : KV Nat :=
  laid 0 (bootBytes ++ leBytes 4 928092082) ++
    (laid 0x03000000 (imgBytes0 ++ leBytes 4 3246528342 ++ sigBlock) ++ [])

/-- A device that boots from that flash; its first key slot holds that key's digest. -/
def romUp : State :=
  bootUp [inState .boot .on, (F.BOOT_STATUS_phase, 1)] id fun b => { b with
    flash := some bootFlash
    fuses := { b.fuses with keys := [some (sha384 (leBytes 48 keyX ++ leBytes 48 keyY))] } }

theorem romUp_bytes : romUp.dev.flashBytes 0 256 = bootBytes ++ leBytes 4 928092082 := by
  rw [flashBytes_laid romUp.dev _ 0 256 bootFlash _ rfl (fun _ _ => rfl) (by decide +kernel), List.take_of_length_le (by decide +kernel)]

theorem romUp_img (n : Nat) (h : n ≤ 768) : romUp.dev.flashBytes 0x03000000 n =
    (imgBytes0 ++ leBytes 4 3246528342 ++ sigBlock).take n :=
  flashBytes_laid romUp.dev _ _ n bootFlash [] rfl
    (fun x hx => laid_skip _ 0 x _ (Or.inr (by
      have : (bootBytes ++ leBytes 4 928092082).length = 256 := by decide +kernel
      rw [this]; omega)))
    (by
      have : (imgBytes0 ++ leBytes 4 3246528342 ++ sigBlock).length = 768 := by decide +kernel
      rw [this]; exact h)

/-- The boot header those bytes spell. -/
def bootH : BootHdr := { gen := 1, fwSlot := 1, prevSlot := 1 }

theorem romUp_header : romUp.dev.bootHdr = some (0, bootH) := by
  have h0 : romUp.dev.hdrAt 0 = some bootH := by
    have c : (bootBytes ++ leBytes 4 928092082).take 0xFC = bootBytes := by decide +kernel
    unfold Dev.hdrAt
    simp only [romUp_bytes, c, bootBytes_crc]
    decide +kernel
  have h1 : romUp.dev.hdrAt 0x10000 = none := by decide +kernel
  simp only [Dev.bootHdr, h0, h1]

/-- The image's header. -/
def imgH : ImgHdr :=
  { kind := 1, signed := true, resetState := false, length := 768, version := 9, secver := 0, grades := 3, compat := 0
    formats := 0xFF00FF00, id := 3246528342
    entries := [(1, 512, 0, 0), (2, 512, 0, 0), (3, 512, 0, 0), (4, 512, 0, 0), (5, 512, 0, 0)] }

theorem romUp_image : romUp.dev.imgHdr 1 = some imgH := by
  have b : romUp.dev.flashBytes 0x03000000 512 = imgBytes0 ++ leBytes 4 3246528342 := by
    rw [romUp_img 512 (by omega)]; decide +kernel
  have c : (imgBytes0 ++ leBytes 4 3246528342).take 0x1FC = imgBytes0 := by decide +kernel
  unfold Dev.imgHdr imgHdrOf
  simp only [partBase, b, c, imgBytes0_crc]
  decide +kernel

/-- The image's bytes. -/
def imgAll : List Byte := imgBytes0 ++ leBytes 4 3246528342 ++ sigBlock

theorem romUp_all : romUp.dev.imgBytes 1 imgH = imgAll := by
  show romUp.dev.flashBytes 0x03000000 768 = _
  rw [romUp_img 768 (by omega)]
  exact List.take_of_length_le (by decide +kernel)

theorem signatureFault_none (d : Dev) (h : ImgHdr) (all b x y : List Byte) (r s : Nat) (hk : h.kind = 1) (ha : d.imgBytes 1 h = all)
    (hb : all.drop (h.length - 256) = b) (hs : leAt b 0 1 % 4 = 0) (hx : (b.drop 0x10).take 48 = x)
    (hy : (b.drop 0x40).take 48 = y) (hr : leAt b 0x70 48 = r) (hv : leAt b 0xA0 48 = s)
    (key : d.keyDigest 0 = some (sha384 (x ++ y))) (rev : d.keyRevoked 0 = false)
    (ok : ecdsaHolds (ofLeBytes x) (ofLeBytes y) (sha384 (all.take (h.length - 256))) r s = true) :
    d.signatureFault 1 h = none := by
  unfold Dev.signatureFault
  simp only [ha, hb, hs, hx, hy, hr, hv, key, rev, ok, hk]
  simp

theorem imageFault_none (d : Dev) (h : ImgHdr) (hi : d.imgHdr 1 = some h) (w : d.imgWhole 1 h = true)
    (sig : d.signatureFault 1 h = none) (hk : h.kind = 1) (hs : h.signed = true) (hv : d.x.boot.fuses.vf ≤ h.secver)
    (fit : d.firmwareFits h none none = true) : d.imageFault 1 1 none none = none := by
  unfold Dev.imageFault
  simp only [hi, w, sig, fit, hk, hs]
  simp; omega

theorem romUp_signed : ecdsaHolds keyX keyY (sha384 (imgAll.take 512)) sigR sigS = true := by decide +kernel

theorem romUp_image_sound : romUp.dev.imageFault 1 1 none none = none :=
  imageFault_none romUp.dev imgH romUp_image (by decide +kernel)
    (signatureFault_none romUp.dev imgH imgAll sigBlock (leBytes 48 keyX) (leBytes 48 keyY) sigR sigS rfl romUp_all (by decide +kernel)
      (by decide +kernel) (by decide +kernel) (by decide +kernel) (by decide +kernel) (by decide +kernel) rfl (by decide +kernel)
      (by
        have hx : ofLeBytes (leBytes 48 keyX) = keyX := by decide +kernel
        have hy : ofLeBytes (leBytes 48 keyY) = keyY := by decide +kernel
        rw [hx, hy]
        exact romUp_signed))
    rfl rfl (by decide +kernel) (by decide +kernel)

/-- The image verifies: the model runs SHA-384 and ECDSA on its bytes. -/
theorem romUp_verifies : romUp.dev.slotVerifies 1 0 = true := by
  have c : romUp.dev.cfgFormat 0 = none := by decide +kernel
  have st : romUp.dev.storeFormat = none := rfl
  simp [Dev.slotVerifies, c, st, romUp_image_sound]

/-- A device with a boot phase. -/
def phaseUp (p : Nat) (l : List (Field × Nat)) (b : BootState → BootState) : State :=
  bootUp ([inState .boot .on, (F.BOOT_STATUS_phase, p)] ++ l) id b

theorem witness_StartUpPassesThroughItsPhases :
    (let s := bootUp [(F.PWR_EN_STATUS_asserted, 0x80)] (fun p => { p with up := false }) id
     s.dev.x.pwr.awake = true ∧ s.dev.enabledPin 7 = true ∧ bitOf s.dev.x.pwr.regulated 7 = false ∧ s.dev.x.pwr.stopped = false) ∧
    (let s := romUp
     s.dev.live = true ∧ s.dev.fld F.BOOT_STATUS_phase = 1 ∧ s.dev.x.boot.slot = none ∧ s.dev.x.boot.flash.isSome = true ∧
     bootH.recovery = false ∧ bootH.trial = false ∧ bootH.fwSlot = 1 ∧ bootH.cfgSlot = 0) ∧
    (phaseUp 2 [] id).dev.fld F.BOOT_STATUS_phase = 2 ∧
    (let s := phaseUp 4 [] id ; s.dev.fld F.BOOT_STATUS_phase = 4 ∧ s.dev.cfgChoice = none) ∧
    (let s := phaseUp 5 [] fun b => { b with htStored := some 7 }
     s.dev.fld F.BOOT_STATUS_phase = 5 ∧ s.dev.x.boot.htStored = some 7) ∧
    (let s := phaseUp 6 [] id ; s.dev.fld F.BOOT_STATUS_phase = 6 ∧ s.dev.fst .dpll = .off) ∧
    (phaseUp 7 [] id).dev.fld F.BOOT_STATUS_phase = 7 ∧
    (let s := phaseUp 8 [] id ; s.dev.fld F.BOOT_STATUS_phase = 8 ∧ s.dev.flag F.GLB_STATUS_routing = false) ∧
    (let s := phaseUp 8 [(F.BOOT_STATUS_trial, 1), (F.GLB_STATUS_routing, 1)] id
     s.dev.flag F.BOOT_STATUS_trial = true ∧ s.dev.flag F.GLB_STATUS_routing = true ∧ s.dev.needLock = false ∧
     s.dev.fst .boot ≠ .fault) := by decide +kernel

/-- A boot header that names slot 1 and needs lockstep, with no image behind it. -/
def lockBytes : List Byte :=
  leBytes 4 0x4258415A ++ leBytes 4 1 ++ leBytes 4 1 ++ leBytes 4 0x20001 ++ List.replicate 0xEC 0

theorem lockBytes_crc : crc32c lockBytes = 1907432422 := crc32c_fold _ _ (by decide +kernel)

/-- A device on trial that boots from a flash with that header only. -/
def lockUp : State :=
  phaseUp 1 [(F.BOOT_STATUS_trial, 1), (F.GLB_STATUS_routing, 1)] fun b => { b with flash := some (laid 0 (lockBytes ++ leBytes 4 1907432422) ++ []) }

def lockH : BootHdr := { gen := 1, fwSlot := 1, needLock := true }

theorem lockUp_header : lockUp.dev.bootHdr = some (0, lockH) := by
  have b : lockUp.dev.flashBytes 0 256 = lockBytes ++ leBytes 4 1907432422 := by
    rw [flashBytes_laid lockUp.dev _ 0 256 _ _ rfl (fun _ _ => rfl) (by decide +kernel), List.take_of_length_le (by decide +kernel)]
  have h0 : lockUp.dev.hdrAt 0 = some lockH := by
    have c : (lockBytes ++ leBytes 4 1907432422).take 0xFC = lockBytes := by decide +kernel
    unfold Dev.hdrAt
    simp only [b, c, lockBytes_crc]
    decide +kernel
  have h1 : lockUp.dev.hdrAt 0x10000 = none := by decide +kernel
  simp only [Dev.bootHdr, h0, h1]

theorem witness_StartUpPassesThroughItsPhases_trial :
    lockUp.dev.live = true ∧ lockUp.dev.fld F.BOOT_STATUS_phase = 1 ∧ lockUp.dev.x.boot.slot = none ∧
    lockUp.dev.x.boot.flash.isSome = true ∧ lockUp.dev.bootHdr = some (0, lockH) ∧ lockH.recovery = false ∧
    lockH.trial = false ∧ lockH.fwSlot < 2 ∧ (∀ k, lockUp.dev.slotVerifies k lockH.cfgSlot = false) ∧
    lockUp.dev.flag F.BOOT_STATUS_trial = true ∧ lockUp.dev.flag F.GLB_STATUS_routing = true ∧
    lockUp.dev.needLock = true ∧ lockUp.dev.x.boot.lockAt = none := by
  refine ⟨by decide +kernel, by decide +kernel, by decide +kernel, by decide +kernel, lockUp_header, rfl, rfl, by decide, fun k => ?_,
    by decide +kernel, by decide +kernel, ?_, by decide +kernel⟩
  · match k with
    | 0 => decide +kernel
    | 1 => decide +kernel
    | 2 => decide +kernel
    | k + 3 => simp [Dev.slotVerifies]
  · simp only [Dev.needLock, lockUp_header]; rfl

/-! ### Witnesses: updates -/

/-- A device with an update in progress. -/
def updUp (u : UpdMem) (l : List (Field × Nat)) (f : Ext → Ext) : State :=
  withX (up (ringUp ++ [inState .boot .on] ++ l)) fun x => f { x with boot := { x.boot with upd := u } }

theorem witness_UpdatesEraseWriteVerifyAndActivate_write :
    (let s := updUp {} [] id
     let b : UpdateBeginBody := { kind := 2, force := false, length := partSize (s.dev.updTarget 2), imageId := 1 }
     s.dev.live = true ∧ s.dev.fst .boot ≠ .fault ∧ s.dev.Admits hr (updateBeginSpec b) ∧ s.dev.x.boot.upd.state = 0 ∧
     b.length ≤ partSize (s.dev.updTarget b.kind) ∧ s.dev.fld F.BOOT_STATUS_phase ≠ 9) ∧
    (let s := updUp {} [] id
     let b : UpdateBeginBody := { kind := 3, force := false, length := partSize (s.dev.updTarget 3) + 1, imageId := 1 }
     s.dev.Admits hr (updateBeginSpec b) ∧ partSize (s.dev.updTarget b.kind) < b.length) ∧
    (let s := updUp { state := 2, length := 260, target := 1, got := [0] } [] id
     let b : UpdateWriteBody := { offset := 256, data := [1, 2, 3, 4] }
     let u := s.dev.x.boot.upd
     s.dev.Admits hr (updateWriteSpec b true) ∧ u.source = 0 ∧ u.state = 2 ∧ b.offset % 256 = 0 ∧
     b.offset + b.data.length = u.length ∧ b.offset + b.data.length ≤ u.length ∧ (∀ e ∈ writeBlocks b, e.1 ∉ u.got)) ∧
    (let s := updUp { state := 1 } [] id
     s.dev.Admits hr (updateWriteSpec { offset := 0, data := [] } true) ∧ s.dev.x.boot.upd.source = 0 ∧
     s.dev.x.boot.upd.state = 1 ∧ s.dev.x.boot.upd.first = []) ∧
    (updUp {} [] id).dev.Admits hr (updateStatusSpec 0) ∧
    (let s := updUp { state := 2, length := 256, got := [0] } [] id
     s.dev.Admits hr updateVerifySpec ∧ s.dev.x.boot.upd.state = 2 ∧ s.dev.x.boot.upd.complete = true) ∧
    (let s := updUp { state := 2, length := 257, got := [0] } [] id
     s.dev.Admits hr updateVerifySpec ∧ s.dev.x.boot.upd.state = 2 ∧ s.dev.x.boot.upd.complete = false) := by decide +kernel

theorem witness_UpdatesEraseWriteVerifyAndActivate_activate :
    (∀ op < 3, let s := updUp { state := 4 } [] id
     s.dev.Admits hr (updateActivateSpec { op := op, scale := 0, sec := 9, ns := 0 }) ∧ s.dev.x.boot.upd.state = 4 ∧
     s.dev.freeTimer.isSome = true) ∧
    (let s := updUp { state := 3 } [] id
     s.dev.Admits hr (updateActivateSpec { op := 0, scale := 0, sec := 9, ns := 0 }) ∧ s.dev.x.boot.upd.state ≤ 3) ∧
    (updUp {} [] id).dev.Admits hr updateAbortSpec ∧ (updUp {} [] id).dev.Admits hr (updateTrickleSpec 1) ∧
    (let s := updUp {} [] fun x => { x with boot := { x.boot with fuses := { x.boot.fuses with keys := List.replicate 4 none } } }
     let b : ProvisionBody := { slot := 3, sigRequired := true, digest := List.replicate 48 0 }
     s.dev.Admits hr (updateProvisionSpec b) ∧ s.dev.x.boot.fuses.keys.length = 4 ∧
     s.dev.actsFor hr (updateProvisionSpec b) = 0 ∧ 2 ≤ b.slot ∧ b.slot ≤ 3 ∧ s.dev.keyDigest b.slot = none ∧
     s.dev.Admits hr (updateProvisionSpec { b with slot := 1 }) ∧ ¬ 2 ≤ 1) ∧
    (let s := updUp {} [] fun x => { x with boot := { x.boot with fuses := { x.boot.fuses with keys := List.replicate 4 (some [1]) } } }
     s.dev.Admits hr (updateProvisionSpec { slot := 2, sigRequired := false, digest := List.replicate 48 0 }) ∧
     s.dev.x.boot.fuses.keys.length = 4 ∧ (s.dev.keyDigest 2).isSome = true) := by decide +kernel

theorem witness_UpdatesEraseWriteVerifyAndActivate_events :
    (updUp { state := 3, target := 1, kind := 1 } [] id).dev.x.boot.upd.state = 3 ∧
    ((updUp { state := 3, target := 1, kind := 1 } [] id).dev.imageFault 1 1 none none).isSome = true ∧
    (updUp { state := 3 } [] id).dev.runningFormat = none ∧ (updUp { state := 3 } [] id).dev.storeFormat = none ∧
    (updUp { state := 5 } [(F.TWIN_STATUS_tstate, 6)] fun x => { x with activateDue := true }).dev.x.activateDue = true ∧
    (updUp { state := 5 } [(F.TWIN_STATUS_tstate, 6)] id).dev.tstate = 6 ∧
    (updUp { state := 5 } [] id).dev.tstate = 0 ∧ (updUp { stage := 2 } [] id).dev.x.boot.upd.stage = 2 := by decide +kernel

/-! The clauses that need a firmware image that verifies: they stand on the flash of `romUp`. -/

theorem imageFault_of (d e : Dev) (hf : d.x.boot.flash = e.x.boot.flash) (hk : d.x.boot.fuses = e.x.boot.fuses) (p k : Nat)
    (c s : Option Nat) : d.imageFault p k c s = e.imageFault p k c s := by
  have b : ∀ a n, d.flashBytes a n = e.flashBytes a n := fun a n => by unfold Dev.flashBytes; rw [hf]
  have i : d.imgHdr p = e.imgHdr p := by unfold Dev.imgHdr; rw [b]
  have w : ∀ h, d.imgWhole p h = e.imgWhole p h := fun h => by
    unfold Dev.imgWhole; simp only [b]
  have g : ∀ h, d.signatureFault p h = e.signatureFault p h := fun h => by
    unfold Dev.signatureFault Dev.imgBytes Dev.keyDigest Dev.keyRevoked; rw [b, hk]
  have f : ∀ h, d.firmwareFits h c s = e.firmwareFits h c s := fun h => by unfold Dev.firmwareFits; rw [hk]
  unfold Dev.imageFault
  rw [i, hk]
  cases e.imgHdr p with
  | none => rfl
  | some h => simp only [w h, g h, f h]

theorem bootHdr_of (d e : Dev) (hf : d.x.boot.flash = e.x.boot.flash) : d.bootHdr = e.bootHdr := by
  have b : ∀ a n, d.flashBytes a n = e.flashBytes a n := fun a n => by simp only [Dev.flashBytes, hf]
  simp only [Dev.bootHdr, Dev.hdrAt, b]

/-- `updUp` on that flash, with that image's key. -/
def updRom (u : UpdMem) (l : List (Field × Nat)) (f : Ext → Ext) : State :=
  updUp u l fun x => f { x with boot := { x.boot with flash := romUp.dev.x.boot.flash, fuses := romUp.dev.x.boot.fuses } }

/-- Verification, the handover and the revert with that flash. -/
def verifying : State := updRom { state := 3, target := 1, kind := 1 } [] id
def handing : State := updRom { state := 6, target := 1, kind := 1 } [(F.TWIN_STATUS_tstate, 3)] fun x => { x with activateDue := true }
def reverting : State := updRom {} [] id

theorem witness_UpdatesEraseWriteVerifyAndActivate_verified :
    verifying.dev.x.boot.upd.state = 3 ∧ verifying.dev.x.boot.upd.source = 0 ∧
    verifying.dev.imageFault 1 1 verifying.dev.runningFormat verifying.dev.storeFormat = none ∧
    verifying.dev.x.boot.upd.target = 1 ∧ verifying.dev.x.boot.upd.kind = 1 :=
  ⟨by decide +kernel, by decide +kernel,
    (imageFault_of verifying.dev romUp.dev rfl rfl 1 1 none none).trans romUp_image_sound, by decide +kernel, by decide +kernel⟩

theorem handing_image : handing.dev.imgHdr 1 = some imgH := by
  have b : handing.dev.flashBytes (partBase 1) 512 = romUp.dev.flashBytes (partBase 1) 512 := rfl
  have e : handing.dev.imgHdr 1 = romUp.dev.imgHdr 1 := by simp only [Dev.imgHdr, b]
  exact e.trans romUp_image

theorem handing_fits : handing.dev.handoverFits = true := by
  have t : handing.dev.tstate = 3 := by decide +kernel
  have c : handing.dev.rd R.TWIN_COMPAT = 0 := by decide +kernel
  have u : handing.dev.x.boot.upd.target = 1 := by decide +kernel
  have k : handing.dev.x.boot.upd.kind = 1 := by decide +kernel
  unfold Dev.handoverFits
  simp only [t, u, k, handing_image, c]
  rfl

theorem witness_UpdatesEraseWriteVerifyAndActivate_handover :
    handing.dev.x.activateDue = true ∧ handing.dev.x.boot.upd.state = 6 ∧ handing.dev.tstate = 3 ∧ handing.dev.handoverFits = true :=
  ⟨by decide +kernel, by decide +kernel, by decide +kernel, handing_fits⟩

theorem witness_UpdatesEraseWriteVerifyAndActivate_revert :
    reverting.dev.Admits hr updateRevertSpec ∧ reverting.dev.bootHdr = some (0, bootH) ∧ bootH.prevSlot = 1 ∧
    reverting.dev.cfgFormat bootH.prevCfg = none ∧ reverting.dev.imageFault 1 1 none reverting.dev.storeFormat = none :=
  ⟨by decide +kernel, (bootHdr_of reverting.dev romUp.dev rfl).trans romUp_header, rfl, by decide +kernel,
    (imageFault_of reverting.dev romUp.dev rfl rfl 1 1 none none).trans romUp_image_sound⟩

/-- The first 240 bytes of piece 1 of 2 of image 7. -/
def pieceHead : List Byte :=
  leBytes 4 0x0001545A ++ leBytes 4 7 ++ leBytes 4 1 ++ leBytes 4 2 ++ List.replicate 224 0

theorem pieceHead_crc : crc32c pieceHead = 2827894753 := crc32c_fold _ _ (by decide +kernel)

/-- The bytes of that piece, and the packet that carries them. -/
def pieceBytes : List Byte := pieceHead ++ leBytes 4 2827894753
def pieceP : AncPacket :=
  { line := 9, did := 0x5F, sdid := 0x20, data := pieceBytes.map (·.toNat)
    checksum := (0x5F :: 0x20 :: dcWord 244 :: pieceBytes.map (·.toNat)).sum % 512 }

/-- A standby that takes pieces from source 1023, with image 7 in progress. -/
def trickling (got : List Nat) : State :=
  updUp { state := 2, kind := 1, source := 1, image := 7, length := 448, got := got }
    [(F.TWIN_STATUS_tstate, 6), (F.BOOT_TRICKLE_CTRL_enable, 1), (F.BOOT_TRICKLE_CTRL_source, 1023), (F.BOOT_TRICKLE_CTRL_did, 0x5F),
      (F.BOOT_TRICKLE_CTRL_sdid, 0x20)] id

theorem piece_bytes : pieceP.data.map (fun w => BitVec.ofNat 8 w) = pieceBytes := by
  simp [pieceP, List.map_map, Function.comp_def]

theorem piece_crc : crc32c (pieceBytes.take 240) = leAt pieceBytes 240 4 := by
  have t : pieceBytes.take 240 = pieceHead := by decide +kernel
  have v : leAt pieceBytes 240 4 = 2827894753 := by decide +kernel
  rw [t, v, pieceHead_crc]

theorem witness_UpdatesEraseWriteVerifyAndActivate_trickle :
    pieceP.data.length = 244 ∧ ancSound pieceP = true ∧ leAt pieceBytes 0 4 = 0x0001545A ∧ leAt pieceBytes 8 4 = 1 ∧
    leAt pieceBytes 12 4 = 2 ∧ leAt pieceBytes 4 4 = 7 ∧ { pieceP with data := [] }.data.length ≠ 244 ∧
    (∀ got ∈ [[0], [0, 1]], let s := trickling got
     let u := s.dev.x.boot.upd
     s.dev.live = true ∧ s.dev.fst .boot ≠ .fault ∧ s.dev.trickleTakes 1023 pieceP = true ∧ u.state = 2 ∧ u.image = 7 ∧
     u.pieces = 2 ∧ u.kind ≠ 4 ∧ u.source = 1 ∧ u.first = [] ∧ u.got = got) := by decide +kernel

/-! ### Witnesses: supply, health commands, JTAG -/

/-- The power function ON, with its typed state. -/
def pwrOn (l : List (Field × Nat)) (f : PwrState → PwrState) : State :=
  withX (up ([inState .pwr .on] ++ l)) fun x => { x with pwr := f x.pwr, time := { x.time with clk := 2 * secU } }

theorem witness_AvsShedThermalAndPmbusFollowTheSupply :
    (let s := pwrOn [] id
     s.dev.live = true ∧ s.dev.fst .pwr ≠ .fault ∧
     max (clampN 670 850 (s.dev.fld F.PWR_AVS_WINDOW_min) * 1000) (clampN 670 850 (s.dev.fld F.PWR_AVS_WINDOW_max) * 1000) ≤
       clampN 670000 850000 1000000) ∧
    (let s := pwrOn [(F.BOOT_STATUS_phase, 8), (F.PWR_PMBUS_DEV_avs 0, 1), (F.PWR_PMBUS_DEV_address 0, 0x40)] id
     s.dev.avsSends = true) ∧
    (pwrOn [] fun p => { p with vt := 850000 }).dev.x.pwr.vt = 850000 ∧
    (let s := pwrOn [(F.PWR_STATUS_stage, 4)] fun p => { p with shedOk := some 0 }
     s.dev.shedLeaves = true ∧ s.dev.x.pwr.shedAt + secU ≤ s.dev.x.time.clk ∧ s.dev.x.pwr.shedOk = some 0 ∧
     0 + secU ≤ s.dev.x.time.clk) ∧
    (let s := pwrOn [(F.PWR_STATUS_therm_warn, 1)] id
     s.dev.x.pwr.awake = true ∧ s.dev.flag F.PWR_STATUS_therm_warn = true) ∧
    (let s := pwrOn [(F.PWR_PMBUS_DEV_address 8, 0x40)] fun p => { p with polls := KV.set 0 [] 8 2 }
     s.dev.fst .pwr = .on ∧ s.dev.polled 8 = true ∧ KV.get 0 s.dev.x.pwr.polls 8 = 2) := by decide +kernel

/-- The same ring for controller 5, which is not the host's. -/
def ringOther : List (Field × Nat) :=
  [inState (.ring 0) .on, word (R.CMD_RING_CTRL 0) 0x50041, (F.BOOT_STATUS_phase, 8)]

theorem witness_HealthCommandsActAndTelemetryReports :
    (let s := up (ringUp ++ [inState (.dst 1023) .on])
     ∃ block inst, s.dev.Admits hr (healthReinitSpec block inst) ∧ fnOf block inst = some (.dst 1023) ∧
       s.dev.fst (.dst 1023) = .on) ∧
    (up ringUp).dev.Admits hr healthResetSpec ∧ (up ringUp).dev.Admits hr healthPowerCycleSpec ∧
    (up ringUp).dev.actsFor hr healthPowerCycleSpec = 0 ∧ (up ringUp).dev.Admits hr (healthSubscribeSpec true) ∧
    (up ringUp).dev.Admits hr (healthSubscribeSpec false) ∧ (up ringUp).dev.Admits hr (healthChallengeSpec 2) ∧
    (up ringUp).dev.Admits hr (healthResponseSpec { level := 2, slot := 1, x := 0, y := 0, r := 0, s := 0 }) ∧
    (up ringUp).dev.unlocks { level := 2, slot := 1, x := 0, y := 0, r := 0, s := 0 } = false ∧
    (up ringOther).dev.Admits hr healthPowerCycleSpec ∧ (up ringOther).dev.actsFor hr healthPowerCycleSpec ≠ 0 ∧
    (up ringOther).dev.Admits hr (healthChallengeSpec 2) ∧
    (up [(F.PWR_STATUS_stage, 2)]).dev.fld F.PWR_STATUS_stage < 3 ∧ (up []).dev.x.ctl.subs = [] ∧
    3 ≤ (up [(F.PWR_STATUS_stage, 3)]).dev.fld F.PWR_STATUS_stage := by
  refine ⟨⟨4, 1023, ?_⟩, ?_⟩ <;> decide +kernel

/-- A device whose first key slot holds that key's digest, with a nonce drawn. -/
def debugUp : State :=
  withX (up ringUp) fun x => { x with
    pwr := { x.pwr with nonce := some 0 }
    boot := { x.boot with fuses := { x.boot.fuses with keys := [some (sha384 (leBytes 48 keyX ++ leBytes 48 keyY))] } } }

/-- A response that the private half of the key has signed. -/
def response : DebugResponse :=
  { level := 2, slot := 0, x := keyX, y := keyY, r := sigR
    s := 0x05b4f0fdb85aa4d750638c4aa1850859ffddea6ef80217ff23451f50d0cc906a4e3a17169136fd37d95fbf7c3635fcbb }

theorem witness_HealthCommandsActAndTelemetryReports_unlock : debugUp.dev.unlocks response = true := by decide +kernel

theorem witness_JtagActsByItsInstructionAndDebugLevel :
    (let s := up [(F.PWR_DEBUG_level, 2), (F.PWR_DEBUG_freeze_en, 1)]
     s.dev.x.pwr.awake = true ∧ s.dev.fld F.PWR_DEBUG_level = 2 ∧ s.dev.live = true ∧ s.dev.flag F.PWR_DEBUG_freeze_en = true) ∧
    (let s := up [] ; ¬ s.dev.fld F.PWR_DEBUG_level = 2 ∧ (∀ l < 4, s.dev.unlocks { level := l, slot := 1, x := 0, y := 0, r := 0, s := 0 } = false)) := by
  decide +kernel

/-! ### Well-formedness refuses -/

/-- A header that stands. -/
def okH : Hdr := { intake := .session 3, seq := 1 }

/-- A TAKE that stands. -/
def okTake : TakeBody := { controller := 0, dest := 5, video := true, source := 9 }

theorem wf_accepts :
    Instr.wf (.take okH okTake) = true ∧ Instr.wf (.registerWrite 0x10000 0 15) = true ∧ Instr.wf (.functionEnable .aud .host) = true ∧
    Instr.wf (.macFrameRx 95 { dest := 2 ^ 48 - 1, length := 64, body := .rtp rtpP }) = true ∧ stateB.wf = true ∧
    Instr.wf (.mtxTransactionIssue 0 (wrTx 0).req) = true ∧ videoSeg.wf = true := by decide +kernel

theorem wf_refuses_ranges :
    wordAddr 2 = false ∧ fits 4 16 = false ∧ allFit 8 [255, 256] = false ∧ Instr.wf (.registerWrite 1 0 0) = false ∧
    Instr.wf (.registerWrite 0 0 16) = false ∧ Instr.wf (.counterLowRead 0x4000000) = false ∧
    Instr.wf (.functionFault .aud 256 false) = false ∧ Instr.wf (.hbmBwSample 0 0 (List.replicate 65 0)) = false ∧
    Instr.wf (.hostUnmappedAccess true 3 0 1) = false ∧
    Instr.wf (.refTick [{ cand := 1, present := true, freq := 0 }, { cand := 1, present := false, freq := 0 }] 0) = false ∧
    Instr.wf (.decisionLocalDeadline 0 (2 ^ 32)) = false ∧ Instr.wf (.scanoutTileRowFetch 0 0 4096) = false ∧
    Instr.wf (.mvHeadRowComposed 0 0 [64]) = false ∧ Instr.wf (.hbmApertureAccess true 2 0 0) = false ∧
    Instr.wf (.mtxResponse 0 96) = false ∧ Instr.wf (.mtxStreamIdle 0 16384) = false ∧ Instr.wf (.twinShedMsg 8 0) = false ∧
    Instr.wf (.twinSwapMsg 4 0 0) = false ∧ Instr.wf (.bootRomSelect true [(2 ^ 27, 0)]) = false ∧
    Instr.wf (.mramRestore [(8, 0)]) = false ∧ Instr.wf (.avsEval 1) = false ∧ Instr.wf (.thermalSample 0 [256]) = false ∧
    Instr.wf (.dbgChallenge 4) = false ∧ Instr.wf (.sdiTxLine 0 2048) = false ∧
    Instr.wf (.cmdMessageReceived (.session 0) [2 ^ 32]) = false := by decide +kernel

theorem wf_refuses_headers :
    RingSlot.wf { respLen := 63 } = false ∧ Intake.wf (.ring 0 { sqIndex := 4096 }) = false ∧ Hdr.wf { okH with seq := 2 ^ 32 } = false ∧
    Instr.wf (.queryStatus { okH with seq := 2 ^ 32 }) = false ∧ Instr.wf (.queryRegs okH 2 1) = false := by decide +kernel

theorem wf_refuses_takes_and_processors :
    TakeBody.wf { okTake with source := 4096 } = false ∧ OverlayBody.wf { controller := 0, dest := 1024, layer := 1, ctrl := 0, pos := 0 } = false ∧
    HoldBody.wf { controller := 65536, dest := 0 } = false ∧
    ChainLoadBody.wf { chain := 0, last := true, first := 0, entries := [{ okTake with mode := 4 }] } = false ∧
    ChainTrig.wf (.time 8 0 0) = false ∧ ChainArmBody.wf { chain := 256, controller := 0, trig := .frame 0 0 } = false ∧
    ChainFireBody.wf { chain := 0, controller := 0, dest := 1024 } = false ∧ ChainCancelBody.wf { chain := 256, controller := 0 } = false ∧
    SurfaceAllocBody.wf { id := 0, double := false, sampling := 16, format := 0 } = false ∧
    SurfaceWriteBody.wf { id := 0, offset := 0, data := [] } = false ∧
    ProcSetBody.wf { controller := 0, proc := 0, regs := [], mtx := [] } = false ∧
    LutLoadBody.wf { slot := 64, last := true, first := 0, entries := [] } = false ∧
    CurveLoadBody.wf { proc := 0, curve := 0, entries := [0] } = false ∧ CoefLoadBody.wf { proc := 0, bank := 4, coefs := [] } = false := by
  decide +kernel

theorem wf_refuses_heads_and_audio :
    MvSetBody.wf { mvSetB with regs := [] } = false ∧ TileEntry.wf { src := 2 ^ 32, rectX := 0, rectY := 0, deco := 0, meter := 0 } = false ∧
    MvLayoutBody.wf { mvLayoutB with head := 32 } = false ∧ MvTextBody.wf { head := 0, tile := 64, text := [] } = false ∧
    MvTallyBody.wf { head := 0, tile := 0, tally := 4 } = false ∧
    MvGuardBody.wf { head := 0, region := 16, ctrl := 0, x := 0, y := 0, expect := 0 } = false ∧
    FontSetBody.wf { fontB with font := 4 } = false ∧ FontLoadBody.wf { glyphB with slot := 8192 } = false ∧
    AudioMapBody.wf { controller := 0, first := 32768, entries := [] } = false ∧ AudioBindBody.wf { first := 0, entries := [2 ^ 32] } = false ∧
    AudioGroupBody.wf { kind := 0, index := 1024, base := 0, count := 0, delay := 0 } = false ∧
    AudioToneBody.wf { generator := 16, freq := 0, level := 0 } = false ∧ AudioMonitorBody.wf { kind := 1, index := 0, values := [0] } = false ∧
    AudioQueryBody.wf { inputs := true, first := 32768, count := 0 } = false ∧ AudioSapBody.wf { port := 16, values := [] } = false ∧
    SapFrameIn.wf { sapF with words := List.replicate 33 0 } = false ∧ AudErr.wf (.entry 32768) = false ∧
    AudMirror.wf { input := 0, state := 0, slip := 2 } = false ∧ AudioMsg.wf { audMsg1 with block := 2 ^ 64 } = false := by decide +kernel

theorem wf_refuses_time_updates_and_configuration :
    TimeSetBody.wf { target := 8, sec := 0, ns := 0 } = false ∧ TimeRefBody.wf { cand := 0, values := [] } = false ∧
    TimeDpllBody.wf { ctrl := 2 ^ 32, bw := 0, slew := 0, holdover := 0 } = false ∧ TimeOtgBody.wf { otg := 32, ctrl := 0, offset := 0 } = false ∧
    UpdateBeginBody.wf { kind := 256, force := false, length := 0, imageId := 0 } = false ∧
    UpdateWriteBody.wf { offset := 0, data := [] } = false ∧ UpdateActivateBody.wf { op := 4, scale := 0, sec := 0, ns := 0 } = false ∧
    ProvisionBody.wf { slot := 0, sigRequired := false, digest := [] } = false ∧
    DebugResponse.wf { level := 0, slot := 4, x := 0, y := 0, r := 0, s := 0 } = false ∧
    ConfigBody.wf { block := 32, inst := 0, pairs := [] } = false ∧ Cmd.wf (.take { okTake with source := 4096 }) = false ∧
    Cmd.wf (.healthChallenge 4) = false := by decide +kernel

theorem wf_refuses_media :
    VideoFmt.wf { format := 256 } = false ∧ FrameStart.wf { measured := { format := 82 }, rtp := 2 ^ 32 } = false ∧
    AncPacket.wf { line := 9, did := 1024 } = false ∧ PelRun.wf { line := 0, first := 0, words := [65536] } = false ∧
    DecisionRec.wf { format := 0, seq := 2 ^ 32, t := 0 } = false ∧ Block66.wf { header := 4, payload := 0 } = false ∧
    FecFrame.wf { blocks := [{ header := 4, payload := 0 }] } = false ∧ Segment.wf { videoSeg with flow := 64 } = false ∧
    SdiLine.wf { line := 0 } = false ∧ SdiBody.wf (.control 9 none) = false ∧ SdiPacket.wf { body := .edh 0, stream := 3 } = false ∧
    RtpPacket.wf { rtpP with pt := 128 } = false ∧ EthBody.wf (.rtp { rtpP with seq := 65536 }) = false ∧
    EthFrame.wf { dest := 2 ^ 48, length := 64, body := .other } = false ∧ LtRequest.wf (.inc 5) = false ∧
    EqTarget.wf { ctle := 32, vga := 0, dfe := [] } = false ∧ LaneMon.wf { eyeH := (0, 0, 0), eyeW := (0, 0, 0), snr := 65536 } = false := by
  decide +kernel

theorem wf_refuses_memory_twin_and_power :
    HbmErr.wf { burst := 2 ^ 32, ue := true } = false ∧ HbmReq.wf { pc := 128 } = false ∧ HbmTraining.wf { found := 16 } = false ∧
    SramErr.wf { word := 2 ^ 32, ue := true } = false ∧ MtxReq.wf { (wrTx 0).req with tag := 63 } = false ∧
    MtxReq.wf { (rdTx 0).req with beats := 17 } = false ∧ Peck.wf { role := 4 } = false ∧
    CommitMsg.wf { counter := 2 ^ 32, controller := 0, seq := 0, cmd := .timeRealign, instant := 0 } = false ∧
    SigMsg.wf { otg := 32, frame := 0, entries := [] } = false ∧ AdmitMsg.wf { unit := 2, es := false, compat := 0, gen := 0 } = false ∧
    SnapItem.wf (.reg 1 0) = false ∧ SnapMsg.wf { frame := 0, counter := 0, items := [.cmd (.healthChallenge 4)] } = false ∧
    Desc.wf { okDesc with msgLen := 2 ^ 32 } = false ∧ MgmtGram.wf { badGram with session := 2 ^ 32 } = false ∧
    Fuses.wf { revoked := [4] } = false ∧ RailPoll.wf { dev := 9 } = false := by decide +kernel

/-! ### Small tests on the spec's own figures

Each test's expected values stand in the worked example or table named beside it. -/

/-- 13_memory.md, "decoding one address": G = 12, the hash on, A = 0x2_4B3C_1240. -/
theorem test_hbm_address_decodes :
    hbmDecode 12 true 0x24B3C1240 =
      { pc := 65, bank := 16, index := 2348, row := 2641, check := 2645, col := 9, checkBurst := 9 } ∧
    pcLocal 12 0x24B3C1240 = 76968512 ∧ pcChan 65 = 16 := by decide +kernel

/-- 03_frame_stores.md, "capacity of the UHD-centred frame", and 05_processors.md, "an HLG-to-SDR derived source". -/
theorem test_hogshead_sizes :
    hogBytes 4096 0x69 0 3 true = 79462400 ∧ hogBytes 4096 0x69 0 3 false = 74756096 ∧ hogBytes 4096 0x52 0 3 true = 20123648 ∧
    slotBytes 4096 0x69 0 = 24915968 ∧ hogBytes 4096 0x52 0 3 false = 18870272 := by decide +kernel

/-- 09_holtut_link.md, "eight UHD flows on one lane": eight fit a lane of 106.25 Gb/s, nine do not. -/
def flows (n : Nat) : State :=
  up ((F.OTG_CTRL_format 0, 0x69) :: (List.range n).flatMap fun k =>
    [(F.DST_CTRL_enable k, 1), (F.DST_CTRL_transport k, 0), (F.DST_OUTPUT_id k, 64 * 5 + k), (F.AUD_DGRP_count k, 32)])

theorem test_holtut_flow_demand :
    ((lineSegments 3840).map fun e => videoBlocks e.2) = [389, 389, 389, 293] ∧ bundleBlocks 32 6 = 76 ∧
    (flows 1).dev.hlkDemand 0 = 189962360 * 1001 ∧ (flows 8).dev.hlkOver 5 = false ∧ (flows 9).dev.hlkOver 5 = true := by
  decide +kernel

/-- 12_packet_media.md, "pacing a UHD flow": 8 packets a line of 240 pgroups, 17,280 a frame, TRS 10/9 µs. -/
theorem test_st2110_packing :
    (let k := linePack 0x67 0 1 1200
     (k.groups * k.octets, k.packets, k.each, slotCount 0x67 k) = (9600, 8, 240, 17280)) ∧
    slotOffset 0x67 0 17280 9 = 10 * 1000 * nsU := by decide +kernel

/-- A processor that only scales. -/
def scaler : PrcCfg := { words := [1, 0, 0, 0, 0, 2, 0, 0, 0, 0, 0], mtx := [] }

/-- 05_processors.md, "ells on engine 12" and "an HLG-to-SDR derived source". -/
theorem test_processor_ells_and_load :
    scaler.need { format := 0x27 } { format := 0x57 } 6 = 14 ∧ scaler.need { format := 0x27 } { format := 0x57 } 8 = 18 ∧
    scaler.need { format := 0x27, sampling := 4 } { format := 0x57 } 6 = 20 ∧
    scaler.need { format := 0x27, sampling := 4 } { format := 0x57 } 2 = 8 ∧
    scaler.load { format := 0x27, sampling := 4 } { format := 0x57 } = 10368 ∧
    scaler.load { format := 0x67 } { format := 0x57 } = 41472 ∧ scaler.need { format := 0x67 } { format := 0x57 } 8 = 18 := by
  decide +kernel

/-- 05_processors.md, the matrices of the HLG-to-SDR example: white maps to 65,535 and back to code 3,760. -/
theorem test_colour_matrices :
    Matrix3.apply { k := [19152, -3081, -10698, 19152, 35228, 0, 19152, 0, 27611], pre := [-4096, -32768, -32768], post := [0, 0, 0] }
      [60160, 32768, 32768] = [65535, 65535, 65535] ∧
    Matrix3.apply { k := [10024, 1012, 2980, -5526, 7168, -1642, -6511, -657, 7168], pre := [0, 0, 0], post := [4096, 32768, 32768] }
      [65535, 65535, 65535] = [60159, 32768, 32768] := by decide +kernel

/-- 06_multiviewer.md, "a 64-tile UHD head": 31.104 Mpel/s a tile, and 64 of them within 2,376 Mpel/s. -/
theorem test_tile_load :
    tileArea2 (proxyWidth 0x69, proxyLines 0x69, 2) 480 270 = 2 * 518400 ∧ tileOver (64 * 2 * 518400) 9 = false ∧
    tileOver (77 * 2 * 518400) 9 = true ∧ tileRatioOk (960, 540, 2) 480 270 = true := by decide +kernel

/-- 14_matrix.md, "four ports at HBM channel 16": the grants of cycles n to n + 5. -/
def fourPorts (pointer : Nat) : Dev :=
  (withX (up [(⟨R.MTX_P_PRIO 3 2, 0, 3⟩, 3), (⟨R.MTX_P_PRIO 20 2, 0, 3⟩, 4), (⟨R.MTX_P_PRIO 35 2, 0, 3⟩, 1), (⟨R.MTX_P_PRIO 42 2, 0, 3⟩, 0),
    (F.HBM_QOS_STATUS_u 3, 1), (F.HBM_QOS_STATUS_u 35, 3), (F.HBM_QOS_STATUS_u 42, 2)]) fun x =>
    { x with mtx := { pointer := KV.set 0 [] 16 pointer } }).dev

theorem test_matrix_grants :
    (fourPorts 20).grantPort 16 [3, 20, 35, 42] = some 20 ∧ (fourPorts 21).grantPort 16 [3, 20, 35, 42] = some 35 ∧
    (fourPorts 36).grantPort 16 [3, 20, 42] = some 3 ∧ (fourPorts 4).grantPort 16 [3, 20, 42] = some 20 ∧
    (fourPorts 21).grantPort 16 [3, 42] = some 3 ∧ (fourPorts 4).grantPort 16 [42] = some 42 := by decide +kernel

/-- 18_power_health.md, "a supply sag": V_t = 780 mV. -/
theorem test_droop_stages :
    droopStage 780000 755000 = 1 ∧ droopStage 780000 739000 = 2 ∧ droopStage 780000 756600 = 1 ∧ droopStage 780000 756601 = 0 ∧
    droopStage 780000 741000 = 2 ∧ droopStage 780000 725400 = 3 ∧ droopStage 780000 709800 = 4 := by decide +kernel

/-- The check values of CRC-32C and CRC-32 over "123456789", as their definitions give them. -/
theorem test_crcs :
    crc32c ([0x31, 0x32, 0x33, 0x34, 0x35, 0x36, 0x37, 0x38, 0x39] : List Byte) = 0xE3069283 ∧
    crc32 ([0x31, 0x32, 0x33, 0x34, 0x35, 0x36, 0x37, 0x38, 0x39] : List Byte) = 0xCBF43926 := by decide +kernel

/-- An empty queue: the tick of house time; and a command in front is taken off the queue. -/
theorem test_tick_counts_house_time :
    (match step (up []) with | .next t => t.dev.x.time.clk | _ => 0) = (up []).dev.x.time.clk + 2016 ∧
    (match step { up [] with pending := [.loudnessUpdate, .linksUp] } with | .next t => t.pending | _ => []) = [.linksUp] := by
  decide +kernel

/-- Memory reads 0 where nothing has been written, and a register its reset value. -/
theorem test_reset_reads :
    State.reset.dev.mem.get 0 = 0 ∧ State.reset.dev.rd (R.MVH_OUT 31) = 0x81000003 ∧ State.reset.dev.rd (R.SRC_CTRL 1023) = 0x80030000 ∧
    State.reset.pending = [] := by decide +kernel

/-- The examples of FIPS 180-4 for the message "abc". -/
theorem test_sha_abc :
    sha256 [0x61, 0x62, 0x63] = beBytes 32 0xBA7816BF8F01CFEA414140DE5DAE2223B00361A396177A9CB410FF61F20015AD ∧
    sha384 [0x61, 0x62, 0x63] = beBytes 48
      0xCB00753F45A35E8BB5A03D699AC65007272C32AB0EDED1631A8B605A43FF5BED8086072BA1E7CC2358BAECA134C825A7 := by decide +kernel

/-- Test case 2 of RFC 4231: HMAC-SHA-256 under the key "Jefe". -/
theorem test_hmac_jefe :
    hmacSha256 [0x4A, 0x65, 0x66, 0x65] ([0x77, 0x68, 0x61, 0x74, 0x20, 0x64, 0x6F, 0x20, 0x79, 0x61, 0x20, 0x77, 0x61, 0x6E, 0x74, 0x20, 0x66, 0x6F,
        0x72, 0x20, 0x6E, 0x6F, 0x74, 0x68, 0x69, 0x6E, 0x67, 0x3F]) =
      beBytes 32 0x5BDCC146BF60754E6A042426089575C75A003F089D2739839DEC58B964EC3843 := by decide +kernel

end Sys2Proof.Tests
end

section
/-!
PROOFS. Completion of a command of the core domain, what settling appends to the output and leaves of the control state,
and the host's reads: R5.
-/

namespace Sys2Proof.Machine

/-! ### Completion and settling -/

/-- A core command of a running device completes, and what its settled script reaches is its device. -/
theorem completes_of_live {i : Instr} {p : Prog} {s : State} {P : Dev → Prop} (hi : exec i s = perform .core p s)
    (hl : s.dev.live = true) (hP : P (settle.run (p.run s.dev))) : Completes i s P :=
  ⟨_, hi.trans (perform_acts hl), rfl, hP⟩

/-- A host access of a device whose endpoint is enabled runs its script (R454). -/
theorem run_hostDo {p : Prog} {d : Dev} (h : d.x.ctl.endpoint = true) : (hostDo p).run d = p.run d := by
  simp [hostDo, h]

/-- Settling only appends to what has left the device. -/
theorem settle_out (d : Dev) : ∃ l, (settle.run d).x.out = d.x.out ++ l := by
  simp only [settle, run_read]
  split
  · exact ⟨[], (List.append_nil _).symm⟩
  · simp only [run_seq_cons, run_seq_nil, ext_x]
    refine each_keeps (fun e => ∃ l, e.x.out = d.x.out ++ l) sendVector ?_ _ d ⟨[], (List.append_nil _).symm⟩
    rintro v e ⟨l, hl⟩
    simp only [sendVector, run_read]
    split
    · exact ⟨l, hl⟩
    · exact ⟨l ++ [.msix v], by rw [emit_x, hl, List.append_assoc]⟩

/-- What leaves the device as the last act of a script stands in front of what settling sends. -/
theorem settle_out_append {d e : Dev} {o : Output} (h : e.x.out = d.x.out ++ [o]) :
    ∃ l, (settle.run e).x.out = d.x.out ++ o :: l := by
  obtain ⟨l, hl⟩ := settle_out e
  exact ⟨l, by rw [hl, h, List.append_assoc]; rfl⟩

@[simp] theorem settle_latch (d : Dev) : (settle.run d).x.ctl.latch = d.x.ctl.latch := by
  obtain ⟨-, -, hx⟩ := settle_same d
  rw [hx]

/-! ### Reads of 64-bit values (R5) -/

/-- A kind with the dimensions of another and a base a distance above lies that distance above it at every index. -/
theorem Reg.addr_of_base {r : Reg} {k : RK} {n : Nat} (hd : (regInfo k).dims = (regInfo r.kind).dims)
    (hb : (regInfo k).base = (regInfo r.kind).base + n) : Reg.addr { r with kind := k } = r.addr + n := by
  simp only [Reg.addr, hd, hb]
  split <;> omega

/-- The high word of a 64-bit value lies right above its low word. -/
theorem highOf_addr {r h : Reg} (e : highOf r = some h) : h.addr = r.addr + 4 := by
  unfold highOf at e
  split at e
  case h_14 => cases e
  all_goals
    next hk =>
      cases e
      exact Reg.addr_of_base (by rw [hk]; rfl) (by rw [hk]; rfl)

/-- An offset below the aperture that holds a register word is mapped. -/
theorem offsetMapped_of_regAt {off : Nat} {r : Reg} (hoff : off < 0x2000000) (h : regAt (off / 4 * 4) = some r) :
    offsetMapped off = true := by
  simp [offsetMapped, hoff, h]

/-- A host read of a register word's address reads that register. -/
theorem hostReadAt_of_regAt {a : Nat} {r : Reg} (ha : a < 0x2000000) (h4 : a % 4 = 0) (h : regAt a = some r) :
    hostReadAt a = regRead r := by
  have e : a % 2 ^ 26 / 4 * 4 = a := by omega
  have hm : offsetMapped a = true := offsetMapped_of_regAt ha (by rwa [show a / 4 * 4 = a by omega])
  simp only [hostReadAt, e, hm, h, if_neg (Nat.not_le.mpr ha), Bool.not_true, Bool.false_eq_true, if_false]

/-- What is latched for a register after its former latch is removed is what the register's next read finds. -/
theorem find?_latched (l : List (Reg × Word)) (h : Reg) (w : Word) :
    ((l.filter fun e => e.1 ≠ h) ++ [(h, w)]).find? (fun e => e.1 == h) = some (h, w) := by
  have hnone : (l.filter fun e => e.1 ≠ h).find? (fun e => e.1 == h) = none := by simp [List.find?_eq_none]
  rw [List.find?_append, hnone]
  simp

/-- A read of a low word whose own value is not latched: it leaves the device, and its high word is latched. -/
theorem regRead_low {r h : Reg} {d : Dev} (hh : highOf r = some h) (hn : ∀ e ∈ d.x.ctl.latch, e.1 ≠ r) :
    (regRead r).run d =
      (ctlUpd fun c => { c with latch := (c.latch.filter fun e => e.1 ≠ h) ++ [(h, BitVec.ofNat 32 (d.regWord h))] }).run
        ((emit (.hostRead (d.regWord r))).run d) := by
  have hnone : d.x.ctl.latch.find? (fun e => e.1 == r) = none := List.find?_eq_none.2 (by simpa using hn)
  simp [regRead, hnone, hh]

/-- A read of a latched high word: what was latched leaves the device, and the latch ends. -/
theorem regRead_latched {h : Reg} {w : Word} {d : Dev} (hl : d.x.ctl.latch.find? (fun e => e.1 == h) = some (h, w)) :
    (regRead h).run d = (emit (.hostRead w.toNat)).run
      ((ctlUpd fun c => { c with latch := c.latch.filter fun e => e.1 ≠ h }).run d) := by
  simp [regRead, hl]

/-- A host read of a register's address completes as the read of that register. -/
theorem counterLowRead_completes {a : Nat} {r : Reg} {s : State} {P : Dev → Prop} (hl : s.dev.live = true)
    (he : s.dev.x.ctl.endpoint = true) (ha : a < 0x2000000) (h4 : a % 4 = 0) (h : regAt a = some r)
    (hP : P (settle.run ((regRead r).run s.dev))) : Completes (.counterLowRead a) s P := by
  refine completes_of_live (p := hostDo (hostReadAt a)) rfl hl ?_
  rwa [run_hostDo he, hostReadAt_of_regAt ha h4 h]

/-- Settles O30: the read of the low word latches the high word, and the latched read ends the latch; each changes the
latch and the output only. -/
theorem lowWordLatchesHighWord : Obligations.LowWordLatchesHighWord := by
  intro r h a s hh hl he ha h4
  refine ⟨highOf_addr hh, fun hr hn => ?_, fun w hr hw => ?_⟩
  · refine counterLowRead_completes hl he ha h4 hr ?_
    rw [regRead_low hh hn]
    refine ⟨settle_out_append rfl, ?_, by simp, by simp⟩
    rw [settle_latch]
    exact find?_latched _ h _
  · refine counterLowRead_completes hl he ha h4 hr ?_
    rw [regRead_latched hw]
    exact ⟨settle_out_append rfl, by simp, by simp, by simp⟩

end Sys2Proof.Machine
end

section
/-!
PROOFS. What logging an access changes (R449, R450) and what raising an alarm and counting change.
-/

namespace Sys2Proof.Machine

/-! ### Raising an alarm, and counting -/

/-- An event enters the alarm history, and nothing else changes. -/
theorem histAdd_run (kind block inst code : Nat) (d : Dev) :
    ∃ g, (histAdd kind block inst code).run d = (bootUpd g).run d :=
  ⟨fun b => { b with
      histSeq := b.histSeq + 1
      hist := ({ kind, block, inst, code, sec := d.htSec % 2 ^ 32, ns := d.htNs, seq := b.histSeq % 2 ^ 32,
                 clk := d.x.time.clk } :: b.hist).take 2048 }, rfl⟩

/-- Raising an alarm that stands changes nothing; otherwise its bit is set, and nothing else changes but the alarm history. -/
theorem raise_run (f : Field) (d : Dev) :
    (d.flag f = true ∧ (raise f).run d = d) ∨ ∃ g, (raise f).run d = (bootUpd g).run ((setB f true).run d) := by
  simp only [raise, run_read]
  split
  · next h => exact .inl ⟨h, rfl⟩
  · refine .inr ?_
    simp only [run_seq_cons, run_seq_nil]
    split
    · rw [run_doIf]
      split
      · exact histAdd_run _ _ _ _ _
      · exact ⟨id, rfl⟩
    · exact ⟨id, rfl⟩

@[simp] theorem raise_mem (f : Field) (d : Dev) : ((raise f).run d).mem = d.mem := by
  obtain ⟨-, h⟩ | ⟨g, h⟩ := raise_run f d <;> simp [h]

/-- A raised alarm leaves every register but its own. -/
theorem raise_reg_other {f : Field} {q : Reg} (d : Dev) (h : q ≠ f.reg) : ((raise f).run d).reg q = d.reg q := by
  obtain ⟨-, e⟩ | ⟨g, e⟩ := raise_run f d
  · rw [e]
  · rw [e]
    exact setF_reg_other _ d h

/-- A raised alarm stands. -/
theorem raise_flag_self (f : Field) (d : Dev) (h : f.within = true) (w : f.width = 1) :
    ((raise f).run d).flag f = true := by
  obtain ⟨hf, e⟩ | ⟨g, e⟩ := raise_run f d
  · rw [e, hf]
  · rw [e]
    exact setB_flag_self f true d h w

/-- A raised alarm leaves the fields of its register apart from it. -/
theorem raise_fld_apart {f g : Field} (d : Dev) (e : g.reg = f.reg) (h : g.within = true)
    (a : g.lo + g.width ≤ f.lo ∨ f.lo + f.width ≤ g.lo) : ((raise f).run d).fld g = d.fld g := by
  obtain ⟨-, hr⟩ | ⟨u, hr⟩ := raise_run f d
  · rw [hr]
  · rw [hr]
    exact setF_fld_apart _ d e h a

@[simp] theorem inc_mem (r : Reg) (d : Dev) : ((inc r).run d).mem = d.mem := wr_mem _ _ _
@[simp] theorem inc_x (r : Reg) (d : Dev) : ((inc r).run d).x = d.x := wr_x _ _ _

theorem inc_reg_other {r q : Reg} (d : Dev) (h : q ≠ r) : ((inc r).run d).reg q = d.reg q := wr_reg_other _ d h

/-- A counter of 32 bits counts one more, and stays at its top. -/
theorem inc_rd_self {r : Reg} (d : Dev) (h : r.valid = true) (n : isFstate r.kind = false)
    (m : (regInfo r.kind).impl = 0xFFFFFFFF) : ((inc r).run d).rd r = min (d.rd r + 1) 0xFFFFFFFF := by
  have hw : ((inc r).run d).reg r = BitVec.ofNat 32 (min (d.rd r + 1) 0xFFFFFFFF) &&& implMask r := wr_reg_self r _ d h n
  rw [Dev.rd, hw, toNat_and_mask, m]
  have hlt : min (d.rd r + 1) 0xFFFFFFFF < 2 ^ 32 := by omega
  rw [Nat.mod_eq_of_lt hlt]
  exact (Nat.and_two_pow_sub_one_eq_mod _ 32).trans (Nat.mod_eq_of_lt hlt)

/-! ### The access-fault log (R449, R450) -/

/-- Logging raises ACCESS_FAULT and counts; then the entry is added, or the overflow is counted and raised. -/
theorem aflPush_run (master : Nat) (kind : AflKind) (be c off data : Nat) (d : Dev) :
    let e := (inc R.GLB_CNT_AFL).run ((raise F.GLB_ALARM_access_fault).run d)
    (∃ w, (aflPush master kind be c off data).run d = (ctlUpd fun c => { c with afl := c.afl ++ [w] }).run e) ∨
    (aflPush master kind be c off data).run d = (raise F.GLB_ALARM_afl_overflow).run ((inc R.GLB_CNT_AFL_DROP).run e) := by
  simp only [aflPush, run_seq_cons, run_seq_nil, run_read]
  split
  · exact .inl ⟨_, rfl⟩
  · exact .inr rfl

@[simp] theorem aflPush_mem (master : Nat) (kind : AflKind) (be c off data : Nat) (d : Dev) :
    ((aflPush master kind be c off data).run d).mem = d.mem := by
  obtain ⟨w, h⟩ | h := aflPush_run master kind be c off data d <;> simp [h]

/-- Logging leaves every register but the two counters and the alarm of the log. -/
theorem aflPush_reg_other (master : Nat) (kind : AflKind) (be c off data : Nat) (d : Dev) {q : Reg}
    (hc : q ≠ R.GLB_CNT_AFL) (hd : q ≠ R.GLB_CNT_AFL_DROP) (ha : q ≠ R.GLB_ALARM) :
    ((aflPush master kind be c off data).run d).reg q = d.reg q := by
  have he : ((inc R.GLB_CNT_AFL).run ((raise F.GLB_ALARM_access_fault).run d)).reg q = d.reg q := by
    rw [inc_reg_other _ hc, raise_reg_other _ ha]
  obtain ⟨w, h⟩ | h := aflPush_run master kind be c off data d
  · rw [h]
    exact he
  · rw [h, raise_reg_other _ ha, inc_reg_other _ hd, he]

/-- Every logged access is counted. -/
theorem aflPush_count (master : Nat) (kind : AflKind) (be c off data : Nat) (d : Dev) :
    ((aflPush master kind be c off data).run d).rd R.GLB_CNT_AFL = min (d.rd R.GLB_CNT_AFL + 1) 0xFFFFFFFF := by
  have he : ((inc R.GLB_CNT_AFL).run ((raise F.GLB_ALARM_access_fault).run d)).rd R.GLB_CNT_AFL =
      min (d.rd R.GLB_CNT_AFL + 1) 0xFFFFFFFF := by
    rw [inc_rd_self _ rfl rfl rfl, Dev.rd, raise_reg_other _ (by decide), ← Dev.rd]
  obtain ⟨w, h⟩ | h := aflPush_run master kind be c off data d
  · rw [h]
    exact he
  · rw [h, Dev.rd, raise_reg_other _ (by decide), inc_reg_other _ (by decide), ← Dev.rd, he]

/-- Every logged access raises ACCESS_FAULT. -/
theorem aflPush_flag (master : Nat) (kind : AflKind) (be c off data : Nat) (d : Dev) :
    ((aflPush master kind be c off data).run d).flag F.GLB_ALARM_access_fault = true := by
  have he : ((inc R.GLB_CNT_AFL).run ((raise F.GLB_ALARM_access_fault).run d)).flag F.GLB_ALARM_access_fault = true := by
    rw [← raise_flag_self F.GLB_ALARM_access_fault d (by decide) rfl]
    exact congrArg (· == 1) (wr_fld_other _ _ (by decide))
  obtain ⟨w, h⟩ | h := aflPush_run master kind be c off data d
  · rw [h]
    exact he
  · rw [h, Dev.flag, raise_fld_apart (f := F.GLB_ALARM_afl_overflow) (g := F.GLB_ALARM_access_fault) _ rfl (by decide)
      (by decide)]
    exact (congrArg (· == 1) (wr_fld_other _ _ (by decide))).trans he

end Sys2Proof.Machine
end

section
/-!
PROOFS. Scripts that neither read nor change the access-fault log: they commute with replacing it. Two writes of a register
that differ in reserved bits differ in what the log quotes, and everything after the log entry is such a script.
-/

namespace Sys2Proof.Machine

/-- The device with its access-fault log replaced. -/
def Dev.setAfl (d : Dev) (l : List LogWords) : Dev :=
  { d with x := { d.x with ctl := { d.x.ctl with afl := l } } }

/-- The script neither reads nor changes the access-fault log. -/
def AflBlind (p : Prog) : Prop := ∀ (d : Dev) (l : List LogWords), p.run (d.setAfl l) = (p.run d).setAfl l

/-! ### Ways of joining scripts -/

@[simp] theorem aflBlind_nop : AflBlind .nop := fun _ _ => rfl

theorem AflBlind.andThen {a b : Prog} (ha : AflBlind a) (hb : AflBlind b) : AflBlind (.andThen a b) := by
  intro d l
  rw [run_andThen, run_andThen, ha, hb]

theorem aflBlind_seq {ps : List Prog} (h : ∀ p ∈ ps, AflBlind p) : AflBlind (seq ps) := by
  induction ps with
  | nil => exact aflBlind_nop
  | cons p ps ih =>
    intro d l
    rw [run_seq_cons, run_seq_cons, h p List.mem_cons_self, ih fun q hq => h q (List.mem_cons_of_mem p hq)]

theorem aflBlind_each {α : Type} {f : α → Prog} (as : List α) (h : ∀ a, AflBlind (f a)) : AflBlind (each as f) :=
  aflBlind_seq (by simpa using fun a _ => h a)

theorem AflBlind.doIf {p : Prog} (b : Bool) (h : AflBlind p) : AflBlind (doIf b p) := by
  cases b
  · exact aflBlind_nop
  · exact h

theorem AflBlind.ite {c : Prop} [Decidable c] {p q : Prog} (hp : AflBlind p) (hq : AflBlind q) :
    AflBlind (if c then p else q) := by
  split <;> assumption

/-- A script that depends on the state reached is blind to the log if its choice is and every choice is. -/
theorem AflBlind.read {k : Dev → Prog} (hk : ∀ d l, k (d.setAfl l) = k d) (h : ∀ d, AflBlind (k d)) : AflBlind (.read k) := by
  intro d l
  rw [run_read, run_read, hk, h]

theorem AflBlind.doWhen {c : Dev → Bool} {p : Prog} (hc : ∀ d l, c (d.setAfl l) = c d) (h : AflBlind p) :
    AflBlind (doWhen c p) :=
  .read (fun d l => by rw [hc]) fun _ => h.ite aflBlind_nop

/-! ### Primitives -/

@[simp] theorem aflBlind_wr (r : Reg) (v : Nat) : AflBlind (wr r v) := by
  intro d l
  simp only [wr, run_act, Prim.apply]
  split <;> rfl

@[simp] theorem aflBlind_fnPut (f : Fn) (w : FWord) : AflBlind (fnPut f w) := by
  intro d l
  simp only [fnPut, run_act, Prim.apply]
  split <;> rfl

@[simp] theorem aflBlind_setF (f : Field) (v : Nat) : AflBlind (setF f v) :=
  .read (fun _ _ => rfl) fun _ => aflBlind_wr _ _

@[simp] theorem aflBlind_setB (f : Field) (b : Bool) : AflBlind (setB f b) := aflBlind_setF f _

@[simp] theorem aflBlind_inc (r : Reg) : AflBlind (inc r) := .read (fun _ _ => rfl) fun _ => aflBlind_wr _ _

@[simp] theorem aflBlind_histAdd (kind block inst code : Nat) : AflBlind (histAdd kind block inst code) :=
  .read (fun _ _ => rfl) fun _ _ _ => rfl

@[simp] theorem aflBlind_raise (f : Field) : AflBlind (raise f) := by
  refine .read (fun _ _ => rfl) fun d => .ite aflBlind_nop (.andThen (aflBlind_setF f 1) ?_)
  split
  · exact (aflBlind_histAdd _ _ _ _).doIf _
  · exact aflBlind_nop

/-! ### Settling -/

@[simp] theorem aflBlind_sendVector (v : Nat) : AflBlind (sendVector v) :=
  .read (fun _ _ => rfl) fun _ => .ite (fun _ _ => rfl) fun _ _ => rfl

theorem aflBlind_settle : AflBlind settle := by
  refine .read (fun _ _ => rfl) fun d => .ite aflBlind_nop (.andThen ?_ fun _ _ => rfl)
  exact aflBlind_each _ aflBlind_sendVector

/-! ### The function machine -/

@[simp] theorem aflBlind_fnMem (f : Fn) (g : FnMem → FnMem) : AflBlind (fnMem f g) := fun _ _ => rfl

@[simp] theorem aflBlind_fnUpd (f : Fn) (g : FWord → FWord) : AflBlind (fnUpd f g) :=
  .read (fun _ _ => rfl) fun _ => aflBlind_fnPut _ _

@[simp] theorem aflBlind_fnEnable (f : Fn) : AflBlind (fnEnable f) := by
  refine .andThen (aflBlind_fnMem _ _) (.read (fun _ _ => rfl) fun d => ?_)
  split <;> simp

@[simp] theorem aflBlind_fnDisable (f : Fn) : AflBlind (fnDisable f) := by
  refine .read (fun _ _ => rfl) fun d => ?_
  split
  case h_2 => exact .ite (aflBlind_seq (by simp)) (aflBlind_fnUpd _ _)
  case h_4 => exact aflBlind_seq (by simp)
  all_goals exact aflBlind_fnUpd _ _

@[simp] theorem aflBlind_streamDrained (port stream : Nat) : AflBlind (streamDrained port stream) :=
  .read (fun _ _ => rfl) fun _ => .doIf _ fun _ _ => rfl

@[simp] theorem aflBlind_fnStreamsDrain (f : Fn) : AflBlind (fnStreamsDrain f) :=
  .read (fun _ _ => rfl) fun _ => aflBlind_each _ fun _ => aflBlind_streamDrained _ _

@[simp] theorem aflBlind_fnUnfaulted (f : Fn) : AflBlind (fnUnfaulted f) := by
  refine .andThen (fun _ _ => rfl) (.doWhen (fun _ _ => rfl) (.andThen (aflBlind_setF _ _) ?_))
  exact .read (fun _ _ => rfl) fun _ => aflBlind_setB _ _

/-! ### Processors, heads and serial audio ports -/

@[simp] theorem aflBlind_storeUpd (n : Nat) (g : Store → Store) : AflBlind (storeUpd n g) := fun _ _ => rfl
@[simp] theorem aflBlind_prcUpd (n : Nat) (g : PrcMem → PrcMem) : AflBlind (prcUpd n g) := fun _ _ => rfl
@[simp] theorem aflBlind_procRelease (p : Nat) : AflBlind (procRelease p) := fun _ _ => rfl
@[simp] theorem aflBlind_mvhUpd (n : Nat) (g : MvhMem → MvhMem) : AflBlind (mvhUpd n g) := fun _ _ => rfl
@[simp] theorem aflBlind_mvhRelease (h : Nat) : AflBlind (mvhRelease h) := fun _ _ => rfl
@[simp] theorem aflBlind_sapUpd (n : Nat) (g : SapMem → SapMem) : AflBlind (sapUpd n g) := fun _ _ => rfl
@[simp] theorem aflBlind_ainUpd (n : Nat) (g : AudIn → AudIn) : AflBlind (ainUpd n g) := fun _ _ => rfl

@[simp] theorem aflBlind_procDrop (p : Nat) : AflBlind (procDrop p) := by
  refine .read (fun _ _ => rfl) fun d => ?_
  split
  · exact aflBlind_seq (by simp [AflBlind.doIf])
  · exact aflBlind_nop

@[simp] theorem aflBlind_procStopped (p : Nat) : AflBlind (procStopped p) := by
  refine aflBlind_seq ?_
  simp only [List.forall_mem_cons, aflBlind_procDrop, aflBlind_procRelease, aflBlind_setF, true_and]
  refine ⟨.read (fun _ _ => rfl) fun d => ?_, by simp⟩
  split
  · exact (aflBlind_storeUpd _ _).doIf _
  · exact aflBlind_nop

@[simp] theorem aflBlind_engUpdate (e : Nat) : AflBlind (engUpdate e) :=
  .read (fun _ _ => rfl) fun _ => aflBlind_each _ fun _ => aflBlind_seq (by simp)

@[simp] theorem aflBlind_procOff (p : Nat) : AflBlind (procOff p) := aflBlind_seq (by simp)

@[simp] theorem aflBlind_mvhAbandon (h : Nat) : AflBlind (mvhAbandon h) := by
  refine .read (fun _ _ => rfl) fun d => ?_
  split
  · exact aflBlind_seq (by simp)
  · exact aflBlind_nop

@[simp] theorem aflBlind_mvhStopped (h : Nat) : AflBlind (mvhStopped h) := aflBlind_seq (by simp)

@[simp] theorem aflBlind_audLose (i : Nat) (count : Bool) : AflBlind (audLose i count) :=
  .read (fun _ _ => rfl) fun _ => .andThen ((aflBlind_ainUpd _ _).doIf _) <|
    .andThen (.doIf _ (aflBlind_seq (by simp))) (aflBlind_seq (by simp))

@[simp] theorem aflBlind_asrcCount : AflBlind asrcCount := .read (fun _ _ => rfl) fun _ => aflBlind_setF _ _

@[simp] theorem aflBlind_sapDrop (p st : Nat) : AflBlind (sapDrop p st) := by
  refine .read (fun _ _ => rfl) fun d => aflBlind_seq ?_
  have lose : AflBlind (each (d.sapInputs p) fun i => audLose i true) := aflBlind_each _ fun i => aflBlind_audLose i true
  have chans : AflBlind (ext fun x => { x with aud := { x.aud with
      sapChans := x.aud.sapChans.filter fun e => e.1 / 32 ≠ p } }) := fun _ _ => rfl
  simpa [lose.doIf] using chans

@[simp] theorem aflBlind_sapStopped (p : Nat) : AflBlind (sapStopped p) := aflBlind_seq (by simp)

/-! ### The switch of a function that firmware configures and the host enables -/

/-- The functions whose control word holds the host's enable beside fields that firmware writes (R449): processors, heads
and serial audio ports. -/
def HostSwitched (f : Fn) : Prop := (∃ n, f = .prc n) ∨ (∃ n, f = .mvh n) ∨ ∃ n, f = .sap n

theorem aflBlind_fnLeft {f : Fn} (h : HostSwitched f) : AflBlind (fnLeft f) := by
  obtain ⟨n, rfl⟩ | ⟨n, rfl⟩ | ⟨n, rfl⟩ := h
  · exact aflBlind_procStopped n
  · exact aflBlind_mvhStopped n
  · exact aflBlind_sapStopped n

theorem aflBlind_fnFaulted {f : Fn} (h : HostSwitched f) : AflBlind (fnFaulted f) := by
  obtain ⟨n, rfl⟩ | ⟨n, rfl⟩ | ⟨n, rfl⟩ := h
  · exact aflBlind_nop
  · exact aflBlind_nop
  · exact .doWhen (fun _ _ => rfl) (aflBlind_raise _)

theorem aflBlind_fnRests {f : Fn} (h : HostSwitched f) : AflBlind (fnRests f) := by
  obtain ⟨n, rfl⟩ | ⟨n, rfl⟩ | ⟨n, rfl⟩ := h
  · exact aflBlind_procOff n
  · exact aflBlind_nop
  · exact aflBlind_nop

/-- A processor, a head or a serial audio port does nothing of its own as it enters WAKING or reaches ON. -/
theorem fnWaking_fnStarted_of_hostSwitched {f : Fn} (h : HostSwitched f) : fnWaking f = .nop ∧ fnStarted f = .nop := by
  obtain ⟨n, rfl⟩ | ⟨n, rfl⟩ | ⟨n, rfl⟩ := h <;> exact ⟨rfl, rfl⟩

theorem aflBlind_fnFollow {f : Fn} (h : HostSwitched f) (was : FState) : AflBlind (fnFollow f was) := by
  obtain ⟨hw, hs⟩ := fnWaking_fnStarted_of_hostSwitched h
  refine .read (fun _ _ => rfl) fun d => .ite aflBlind_nop <|
    .andThen ((aflBlind_fnUnfaulted f).doIf _) <| .andThen ((aflBlind_fnLeft h).doIf _) ?_
  split
  · exact hw ▸ aflBlind_nop
  · exact hs ▸ aflBlind_nop
  · exact aflBlind_fnFaulted h
  · exact aflBlind_fnRests h
  · refine .andThen (aflBlind_fnStreamsDrain f) ?_
    obtain ⟨n, rfl⟩ | ⟨n, rfl⟩ | ⟨n, rfl⟩ := h <;> exact aflBlind_nop

theorem aflBlind_fnStep {f : Fn} {p : Prog} (h : HostSwitched f) (hp : AflBlind p) : AflBlind (fnStep f p) :=
  .read (fun _ _ => rfl) fun _ => .andThen hp (aflBlind_fnFollow h _)

theorem fnGo_of_hostSwitched {f : Fn} (h : HostSwitched f) (p : Prog) : fnGo f p = fnStep f p := by
  obtain ⟨n, rfl⟩ | ⟨n, rfl⟩ | ⟨n, rfl⟩ := h <;> rfl

theorem aflBlind_fnSwitch {f : Fn} (h : HostSwitched f) (on : Bool) : AflBlind (fnSwitch f on) := by
  have enabled : ∀ d l, (Dev.setAfl d l).enabled f = d.enabled f := fun d l => by
    obtain ⟨n, rfl⟩ | ⟨n, rfl⟩ | ⟨n, rfl⟩ := h <;> rfl
  refine .read (fun d l => by simp only [enabled]) fun d => .andThen ?_ ?_
  · split
    · exact aflBlind_setB _ _
    · exact aflBlind_nop
  · rw [fnGo_of_hostSwitched h, fnGo_of_hostSwitched h]
    exact .andThen ((aflBlind_fnStep h (aflBlind_fnEnable f)).doIf _) ((aflBlind_fnStep h (aflBlind_fnDisable f)).doIf _)

end Sys2Proof.Machine
end

section
/-!
PROOFS. Host writes: R4, R8, R356, R448, R449.
-/

namespace Sys2Proof.Machine

/-! ### Masked bits -/

/-- Taking away the bits that two numbers share takes away no other bit. -/
theorem testBit_sub_and (i : Nat) : ∀ a b : Nat, (a - (a &&& b)).testBit i = (a.testBit i && !b.testBit i) := by
  induction i with
  | zero =>
    intro a b
    have hle : a &&& b ≤ a := Nat.and_le_left
    have hodd := @Nat.and_mod_two_eq_one a b
    rw [Nat.testBit_zero, Nat.testBit_zero, Nat.testBit_zero, ← decide_not, ← Bool.decide_and, decide_eq_decide]
    omega
  | succ i ih =>
    intro a b
    have hle : a &&& b ≤ a := Nat.and_le_left
    have hodd := @Nat.and_mod_two_eq_one a b
    have hd : (a - (a &&& b)) / 2 = a / 2 - (a / 2 &&& b / 2) := by
      rw [← Nat.and_div_two]
      omega
    rw [Nat.testBit_succ, hd, ih, Nat.testBit_succ, Nat.testBit_succ]

/-- Words that agree on a mask agree on what is left of it when bits are taken away. -/
theorem and_sub_and_congr {v w a : Nat} (b : Nat) (h : v &&& a = w &&& a) : v &&& (a - (a &&& b)) = w &&& (a - (a &&& b)) := by
  have e : a &&& (a - (a &&& b)) = a - (a &&& b) := by
    apply Nat.eq_of_testBit_eq
    intro i
    rw [Nat.testBit_and, testBit_sub_and]
    cases a.testBit i <;> rfl
  rw [← e, ← Nat.and_assoc, h, Nat.and_assoc]

theorem bitOf_eq_testBit (x b : Nat) : bitOf x b = x.testBit b := by
  rw [Nat.testBit_eq_decide_div_mod_eq, bitOf]
  rfl

theorem bitOf_and_of_testBit {m b : Nat} (v : Nat) (h : m.testBit b = true) : bitOf (v &&& m) b = bitOf v b := by
  simp [bitOf_eq_testBit, h]

theorem and_mod_two_pow_of_low {m n : Nat} (v : Nat) (h : m % 2 ^ n = 2 ^ n - 1) : (v &&& m) % 2 ^ n = v % 2 ^ n := by
  rw [Nat.and_mod_two_pow, h, Nat.and_two_pow_sub_one_eq_mod, Nat.mod_mod]

/-! ### What the register tables say of host-written words -/

/-- Only these four kinds of word hold bits of firmware beside bits that the host writes. -/
theorem kind_of_fw_of_host {k : RK} (hf : (regInfo k).fw ≠ 0) (h : (regInfo k).rw ≠ 0 ∨ (regInfo k).w1c ≠ 0) :
    k = .PRC_CTRL ∨ k = .MVH_CTRL ∨ k = .SAP_CTRL ∨ k = .HBM_APERTURE := by
  revert hf h
  cases k <;> decide

/-- No common state word has a bit that the host writes (R29). -/
theorem isFstate_eq_false_of_rw {k : RK} (h : (regInfo k).rw ≠ 0) : isFstate k = false := by
  revert h
  cases k <;> decide

/-! ### What a written word asks for -/

/-- The action of a written word depends on its W1S and WO bits only. -/
theorem regAction_and (r : Reg) (v : Nat) :
    regAction r (v &&& ((regInfo r.kind).w1s ||| (regInfo r.kind).wo)) = regAction r v := by
  have bits : ∀ {b m : Nat}, (regInfo r.kind).w1s ||| (regInfo r.kind).wo = m → m.testBit b = true →
      bitOf (v &&& ((regInfo r.kind).w1s ||| (regInfo r.kind).wo)) b = bitOf v b := by
    rintro b m rfl h
    exact bitOf_and_of_testBit v h
  have low : ∀ (n : Nat) {m : Nat}, (regInfo r.kind).w1s ||| (regInfo r.kind).wo = m → m % 2 ^ n = 2 ^ n - 1 →
      (v &&& ((regInfo r.kind).w1s ||| (regInfo r.kind).wo)) % 2 ^ n = v % 2 ^ n := by
    rintro n m rfl h
    exact and_mod_two_pow_of_low v h
  unfold regAction
  split
  case h_2 hk =>
    have h := low 2 (by rw [hk]) (by decide)
    simp only [Nat.reducePow] at h
    simp only [h]
  case h_5 hk => simp only [bits (b := 0) (by rw [hk]) (by decide), bits (b := 1) (by rw [hk]) (by decide)]
  case h_6 hk => simp only [bits (b := 31) (by rw [hk]) (by decide)]
  case h_18 hk =>
    have h : Fin.ofNat 8192 (v &&& ((regInfo r.kind).w1s ||| (regInfo r.kind).wo)) = Fin.ofNat 8192 v :=
      Fin.ext (low 13 (by rw [hk]) (by decide))
    simp only [h, bits (b := 16) (by rw [hk]) (by decide)]
  case h_26 hk =>
    have h := low 6 (by rw [hk]) (by decide)
    simp only [Nat.reducePow] at h
    simp only [irqEoi, h]
  case h_30 => rfl
  all_goals
    next hk => simp only [bits (b := 0) (by rw [hk]) (by decide)]

/-- Words with the same W1S and WO bits ask for the same. -/
theorem regAction_congr {r : Reg} {v w : Nat} (hs : v &&& (regInfo r.kind).w1s = w &&& (regInfo r.kind).w1s)
    (ho : v &&& (regInfo r.kind).wo = w &&& (regInfo r.kind).wo) : regAction r v = regAction r w := by
  rw [← regAction_and r v, ← regAction_and r w, Nat.and_or_distrib_left, Nat.and_or_distrib_left, hs, ho]

/-- A word with firmware's fields has no action. -/
theorem regAction_of_fw {r : Reg} (hf : (regInfo r.kind).fw ≠ 0) (v : Nat) : regAction r v = .nop := by
  unfold regAction
  split
  case h_30 => rfl
  all_goals
    next hk =>
      rw [hk] at hf
      exact absurd rfl hf

/-! ### Writes that differ in reserved bits -/

/-- The log entries of two accesses that differ in what they quote are the only difference between what they leave. -/
theorem aflPush_setAfl (master : Nat) (kind : AflKind) (be c off v w : Nat) (d : Dev) :
    ∃ l, (aflPush master kind be c off w).run d = ((aflPush master kind be c off v).run d).setAfl l := by
  simp only [aflPush, run_seq_cons, run_seq_nil, run_read]
  split
  · exact ⟨_, rfl⟩
  · exact ⟨_, rfl⟩

/-- A control word that the host shares with firmware is stored, and its function switched, blindly to the log. -/
theorem aflBlind_regApply {r : Reg} (hf : (regInfo r.kind).fw ≠ 0)
    (h : (regInfo r.kind).rw ≠ 0 ∨ (regInfo r.kind).w1c ≠ 0) (n : Nat) : AflBlind (regApply r n) := by
  have ctrl : AflBlind (.read fun d => wr r (putBits n 0 1 (d.rd r))) := .read (fun _ _ => rfl) fun _ => aflBlind_wr _ _
  obtain hk | hk | hk | hk := kind_of_fw_of_host hf h
  · simp only [regApply, regStore, regSwitch, ctrlFn, hk]
    exact .andThen ctrl (aflBlind_fnSwitch (.inl ⟨_, rfl⟩) _)
  · simp only [regApply, regStore, regSwitch, ctrlFn, hk]
    exact .andThen ctrl (aflBlind_fnSwitch (.inr (.inl ⟨_, rfl⟩)) _)
  · simp only [regApply, regStore, regSwitch, ctrlFn, hk]
    exact .andThen ctrl (aflBlind_fnSwitch (.inr (.inr ⟨_, rfl⟩)) _)
  · simp only [regApply, regStore, regSwitch, ctrlFn, hk]
    exact .andThen (aflBlind_wr r n) aflBlind_nop

/-- Two words agree on every bit of a register that a write can touch. -/
def SameWrittenBits (r : Reg) (v w : Nat) : Prop :=
  let i := regInfo r.kind
  ∀ m ∈ [i.rw, i.fw, i.w1c, i.w1s, i.wo], v &&& m = w &&& m

theorem mergeBits_congr {m v w : Nat} (old : Nat) (h : v &&& m = w &&& m) : mergeBits old m v = mergeBits old m w := by
  rw [mergeBits, mergeBits, h]

/-- Whole host writes of a register with the same written bits leave the same but for what the log quotes. -/
theorem hostWriteReg_setAfl {r : Reg} {v w : Nat} (h : SameWrittenBits r v w) (master off : Nat) (d : Dev) :
    ∃ l, (hostWriteReg master r off w).run d = ((hostWriteReg master r off v).run d).setAfl l := by
  simp only [SameWrittenBits, List.forall_mem_cons] at h
  obtain ⟨hrw, hfw, hw1c, hw1s, hwo, -⟩ := h
  simp only [hostWriteReg, run_read, run_seq_cons, run_seq_nil, regAction_congr hw1s hwo, hfw, hw1c,
    mergeBits_congr _ (and_sub_and_congr _ hrw)]
  by_cases hf : (regInfo r.kind).fw = 0
  · exact ⟨_, by simp only [hf]; rfl⟩
  · have stored : ∀ n, AflBlind (doIf ((regInfo r.kind).rw ≠ 0 || (regInfo r.kind).w1c ≠ 0) (regApply r n)) := fun n => by
      by_cases hc : (regInfo r.kind).rw ≠ 0 ∨ (regInfo r.kind).w1c ≠ 0
      · exact (aflBlind_regApply hf hc n).doIf _
      · simp [not_or.1 hc, doIf]
    rw [regAction_of_fw hf, run_nop, run_nop]
    rw [run_doIf _ (aflPush _ _ _ _ _ _), run_doIf _ (aflPush _ _ _ _ _ _)]
    split
    · obtain ⟨l, hl⟩ := aflPush_setAfl master .fwOwned 15 0 off v w d
      exact ⟨l, by rw [hl, stored]⟩
    · exact ⟨_, rfl⟩

/-- The way of a whole host write to a register word: refused with a log entry, or to the register. -/
theorem hostWrite_of_regAt {addr : Nat} {r : Reg} (master v : Nat) (ha : addr < 0x2000000)
    (h : regAt (addr / 4 * 4) = some r) : hostWrite master addr v 15 =
      if 0x1000000 ≤ addr / 4 * 4 ∧ r.kind ≠ .PRC_VIEW then aflPush master .windowWrite 15 0 (addr / 4 * 4) v
      else if 0x46000 ≤ addr / 4 * 4 ∧ addr / 4 * 4 < 0x48000 ∧ r.i < 48 ∧ r.kind ≠ .EVT_STATUS then
        aflPush master .fwTimer 15 0 (addr / 4 * 4) v
      else if r.kind = .MAC_TSQ_POP then aflPush master .fwPop 15 0 (addr / 4 * 4) v
      else if r.kind = .MAC_GATE_CMD then aflPush master .fwOwned 15 0 (addr / 4 * 4) v
      else hostWriteReg master r (addr / 4 * 4) v := by
  have e : addr % 2 ^ 26 = addr := by omega
  have hn : ¬ 0x2000000 ≤ addr / 4 * 4 := by omega
  have h4 : addr / 4 * 4 / 4 * 4 = addr / 4 * 4 := by omega
  have hm : offsetMapped (addr / 4 * 4) = true := offsetMapped_of_regAt (by omega) (by rwa [h4])
  simp only [hostWrite, e, if_neg hn, hm, h, Bool.not_true, Bool.false_eq_true, if_false, Nat.reduceMod, ne_eq,
    not_true_eq_false]

/-- Whole host writes to a register's address with the same written bits leave the same but for what the log quotes. -/
theorem hostWrite_setAfl {addr : Nat} {r : Reg} {v w : Nat} (ha : addr < 0x2000000) (hr : regAt (addr / 4 * 4) = some r)
    (h : SameWrittenBits r v w) (d : Dev) :
    ∃ l, (hostWrite 0 addr w 15).run d = ((hostWrite 0 addr v 15).run d).setAfl l := by
  rw [hostWrite_of_regAt 0 v ha hr, hostWrite_of_regAt 0 w ha hr]
  split_ifs
  · exact aflPush_setAfl _ _ _ _ _ _ _ _
  · exact aflPush_setAfl _ _ _ _ _ _ _ _
  · exact aflPush_setAfl _ _ _ _ _ _ _ _
  · exact aflPush_setAfl _ _ _ _ _ _ _ _
  · exact hostWriteReg_setAfl h _ _ _

/-! ### A write of a plain register -/

/-- A register whose write does nothing beside storing it: no action, no enable, no firmware-written, write-1-to-clear or
OFF-only bit. -/
structure PlainReg (r : Reg) : Prop where
  valid : r.valid = true
  noAction : ∀ v, regAction r v = .nop
  stores : ∀ n, regStore r n = wr r n
  noEnable : ctrlFn r = none
  noOff : offFn r = none
  noFw : (regInfo r.kind).fw = 0
  noW1c : (regInfo r.kind).w1c = 0
  writable : (regInfo r.kind).rw ≠ 0

/-- A whole host write of a plain register merges its RW bits into what it held. -/
theorem hostWriteReg_plain {r : Reg} (h : PlainReg r) (master off v : Nat) (d : Dev) :
    (hostWriteReg master r off v).run d = (wr r (mergeBits (d.rd r) (regInfo r.kind).rw v)).run d := by
  simp [hostWriteReg, regApply, regSwitch, Dev.offMask, h.noAction, h.stores, h.noEnable, h.noOff, h.noFw, h.noW1c, h.writable]

/-- A whole host write to a plain register's address, below the windows and outside the timers, reaches the register. -/
theorem hostWrite_plain {addr : Nat} {r : Reg} (h : PlainReg r) (v : Nat) (d : Dev) (ha : addr < 0x1000000)
    (hr : regAt (addr / 4 * 4) = some r) (ht : ¬ (0x46000 ≤ addr ∧ addr < 0x48000)) (hg : r.kind ≠ .MAC_GATE_CMD) :
    (hostWrite 0 addr v 15).run d = (wr r (mergeBits (d.rd r) (regInfo r.kind).rw v)).run d := by
  have hpop : r.kind ≠ .MAC_TSQ_POP := fun e => h.writable (by rw [e]; rfl)
  rw [hostWrite_of_regAt 0 v (by omega) hr, if_neg (by omega), if_neg (by omega), if_neg hpop, if_neg hg,
    hostWriteReg_plain h]

/-! ### A partial write -/

/-- A host write with a byte enable clear, to a mapped offset below the aperture, is logged and nothing else. -/
theorem hostWrite_partial {addr be : Nat} (master v : Nat) (ha : addr < 0x2000000)
    (hm : offsetMapped (addr / 4 * 4) = true) (hb : be % 16 ≠ 15) :
    hostWrite master addr v be = aflPush master .partialWrite be 0 (addr / 4 * 4) v := by
  have e : addr % 2 ^ 26 = addr := by omega
  have hn : ¬ 0x2000000 ≤ addr / 4 * 4 := by omega
  simp only [hostWrite, e, if_neg hn, hm, Bool.not_true, Bool.false_eq_true, if_false, if_pos hb]

/-! ### The aperture (R356) -/

@[simp] theorem memWrite_regs (a : Nat) (bs : List Byte) (d : Dev) : ((memWrite a bs).run d).regs = d.regs := rfl

/-- A write of bytes changes no byte outside them. -/
theorem memWrite_get_other {a q : Nat} {bs : List Byte} (d : Dev) (h : q < a ∨ a + bs.length ≤ q) :
    ((memWrite a bs).run d).mem.get q = d.mem.get q := memPut_get_other _ bs d.mem a q h

/-- The bytes of a written word lie at the offsets its byte enables name. -/
theorem mem_laneBytes {v be : Nat} {e : Nat × Byte} (h : e ∈ laneBytes v be) : e.1 < 4 ∧ bitOf be e.1 = true := by
  simp only [laneBytes, List.mem_map, List.mem_filter, List.mem_range] at h
  obtain ⟨i, ⟨hi, hb⟩, rfl⟩ := h
  exact ⟨hi, hb⟩

/-- Writing single bytes at offsets changes no register, and memory at those offsets only. -/
theorem each_memWrite (a : Nat) (l : List (Nat × Byte)) (d : Dev) :
    ((each l fun e => memWrite (a + e.1) [e.2]).run d).regs = d.regs ∧
      ∀ q, (∀ e ∈ l, q ≠ a + e.1) → ((each l fun e => memWrite (a + e.1) [e.2]).run d).mem.get q = d.mem.get q := by
  induction l generalizing d with
  | nil => exact ⟨rfl, fun _ _ => rfl⟩
  | cons e l ih =>
    rw [run_each_cons]
    obtain ⟨hr, hm⟩ := ih ((memWrite (a + e.1) [e.2]).run d)
    refine ⟨hr, fun q hq => ?_⟩
    rw [hm q fun b hb => hq b (List.mem_cons_of_mem _ hb)]
    have hne := hq e List.mem_cons_self
    exact memWrite_get_other d (by rw [List.length_singleton]; omega)

/-! ### The commands -/

theorem keepsExt_settle {d e : Dev} (h : e.x = d.x) : KeepsExt d (settle.run e) := by
  obtain ⟨-, -, hx⟩ := settle_same e
  rwa [h] at hx

/-- A host write completes as what it writes. -/
theorem registerWrite_completes {addr be : Nat} {v : Word} {s : State} {P : Dev → Prop} (hl : s.dev.live = true)
    (he : s.dev.x.ctl.endpoint = true) (hP : P (settle.run ((hostWrite 0 addr v.toNat be).run s.dev))) :
    Completes (.registerWrite addr v be) s P := by
  refine completes_of_live (p := hostDo (hostWrite 0 addr v.toNat be)) rfl hl ?_
  rwa [run_hostDo he]

/-- What is left once a plain register is written and the interrupts are settled: the merged word, and all else kept. -/
theorem settle_wr_plain {r : Reg} (h : PlainReg r) (n : Nat) (d : Dev) :
    (settle.run ((wr r n).run d)).reg r = BitVec.ofNat 32 n &&& implMask r ∧
      Keeps d (settle.run ((wr r n).run d)) fun q => q = r := by
  refine ⟨?_, fun q hq => ?_, fun a => ?_, keepsExt_settle (wr_x r n d)⟩
  · rw [settle_reg, wr_reg_self r n d h.valid (isFstate_eq_false_of_rw h.writable)]
  · rw [settle_reg, wr_reg_other n d hq]
  · rw [settle_mem, wr_mem]

/-- What is left once an access is logged and the interrupts are settled: it is counted and raised, registers but those of
the log are kept, and memory. -/
theorem settle_aflPush (master : Nat) (kind : AflKind) (be c off v : Nat) (d : Dev) :
    let t := settle.run ((aflPush master kind be c off v).run d)
    t.rd R.GLB_CNT_AFL = min (d.rd R.GLB_CNT_AFL + 1) 0xFFFFFFFF ∧ t.flag F.GLB_ALARM_access_fault = true ∧
      KeepsRegs d t (fun r => r.kind ∈ [RK.GLB_CNT_AFL, .GLB_CNT_AFL_DROP, .GLB_ALARM]) ∧ KeepsMem d t := by
  refine ⟨?_, ?_, fun q hq => ?_, fun a => ?_⟩
  · rw [settle_rd, aflPush_count]
  · rw [settle_flag, aflPush_flag]
  · rw [settle_reg]
    exact aflPush_reg_other master kind be c off v d (by rintro rfl; exact hq (by decide)) (by rintro rfl; exact hq (by decide))
      (by rintro rfl; exact hq (by decide))
  · rw [settle_mem, aflPush_mem]

/-- Two whole host writes to a register's address with the same written bits: what they leave differs in the log only. -/
theorem registerWrite_setAfl {addr : Nat} {r : Reg} {v w : Word} {s : State} (hl : s.dev.live = true)
    (he : s.dev.x.ctl.endpoint = true) (ha : addr < 0x2000000) (hr : regAt (addr / 4 * 4) = some r)
    (h : SameWrittenBits r v.toNat w.toNat) :
    ∃ (t : State) (l : List LogWords), exec (.registerWrite addr v 15) s = .next t ∧
      exec (.registerWrite addr w 15) s = .next { t with dev := t.dev.setAfl l } := by
  obtain ⟨l, hw⟩ := hostWrite_setAfl ha hr h s.dev
  have run : ∀ x : Word, exec (.registerWrite addr x 15) s =
      .next { s with dev := settle.run ((hostWrite 0 addr x.toNat 15).run s.dev) } := fun x => by
    rw [← run_hostDo he]
    exact perform_acts hl
  exact ⟨_, l, run v, by rw [run w, hw, aflBlind_settle]⟩

/-- An access through the aperture completes as its script. -/
theorem hbmApertureAccess_completes {write : Bool} {off be : Nat} {v : Word} {s : State} {P : Dev → Prop}
    (hl : s.dev.live = true) (hP : P (settle.run ((apertureAccess write off v.toNat be).run s.dev))) :
    Completes (.hbmApertureAccess write off v be) s P :=
  completes_of_live (p := apertureAccess write off v.toNat be) rfl hl hP

/-- A write through the aperture while write_en is 0 is logged. -/
theorem apertureAccess_refused {d : Dev} (off v be : Nat) (h : d.flag F.HBM_APERTURE_write_en = false) :
    (apertureAccess true off v be).run d = (aflPush 0 .apertureWrite be 0 (0x2000000 + off % 2 ^ 25) v).run d := by
  simp [apertureAccess, h]

/-- A write through the aperture while write_en is 1 writes the enabled bytes of the word's place. -/
theorem apertureAccess_taken {d : Dev} (off v be : Nat) (h : d.flag F.HBM_APERTURE_write_en = true) :
    (apertureAccess true off v be).run d =
      (each (laneBytes v be) fun e => memWrite (d.apertureAddr (off / 4 * 4) + e.1) [e.2]).run d := by
  simp [apertureAccess, h]

/-- A read through the aperture of a burst that is not poisoned answers the four bytes at the word's place. -/
theorem apertureAccess_read {d : Dev} (off v be : Nat) (h : d.poisoned (d.apertureAddr (off / 4 * 4)) 4 = false) :
    (apertureAccess false off v be).run d =
      (emit (.hostRead (ofLeBytes (d.mem.getBytes (d.apertureAddr (off / 4 * 4)) 4)))).run d := by
  simp [apertureAccess, h]

/-- Settles O32: a plain register merges its RW bits, a partial write is logged only, reserved bits reach nothing but the
log, and the aperture reaches the bytes of its word's place. -/
theorem hostWritesKeepReservedBits : Obligations.HostWritesKeepReservedBits := by
  intro s hl he
  refine ⟨?_, ?_, ?_, ?_⟩
  · intro addr r v _ hr hv hp hc ho hf h1 hw ha ht hg
    have plain : PlainReg r := ⟨hv, fun v => (hp v 0).1, fun n => (hp 0 n).2, hc, ho, hf, h1, hw⟩
    refine registerWrite_completes hl he ?_
    rw [hostWrite_plain plain _ _ ha hr ht hg]
    exact settle_wr_plain plain _ _
  · intro addr be v ha hm hb
    refine registerWrite_completes hl he ?_
    rw [hostWrite_partial 0 _ ha hm hb]
    exact settle_aflPush ..
  · intro addr r v w ha hr h
    obtain ⟨t, l, hv, hw⟩ := registerWrite_setAfl hl he ha hr h
    exact ⟨t, _, hv, hw, rfl, rfl, rfl⟩
  · intro off be v
    refine ⟨fun hen => ?_, fun hen => ?_, fun hp => ?_⟩
    · refine hbmApertureAccess_completes hl ?_
      rw [apertureAccess_refused _ _ _ hen]
      obtain ⟨hcount, -, -, hmem⟩ := settle_aflPush 0 .apertureWrite be 0 (0x2000000 + off % 2 ^ 25) v.toNat s.dev
      exact ⟨hmem, hcount⟩
    · refine hbmApertureAccess_completes hl ?_
      rw [apertureAccess_taken _ _ _ hen]
      obtain ⟨hregs, hmem⟩ := each_memWrite (s.dev.apertureAddr (off / 4 * 4)) (laneBytes v.toNat be) s.dev
      refine ⟨fun q hq => ?_, fun q _ => ?_⟩
      · rw [settle_mem] at hq
        by_contra hno
        refine hq (hmem q fun e h e' => hno ?_)
        obtain ⟨hk, hb⟩ := mem_laneBytes h
        exact ⟨e.1, hk, hb, e'⟩
      · rw [settle_reg, Dev.reg, hregs, Dev.reg]
    · refine hbmApertureAccess_completes hl ?_
      rw [apertureAccess_read _ _ _ hp]
      exact ⟨settle_out_append rfl, by simp, by simp⟩

end Sys2Proof.Machine
end

section
/-!
PROOFS. The actions a script can take, whatever devices it reads: what every action of a kind keeps, a script of such
actions keeps.
-/

namespace Sys2Proof.Machine

/-- Every action that a script can take, whatever devices it reads, satisfies `Q`. -/
def Prog.Acts (Q : Prim → Prop) : Prog → Prop
  | .nop => True
  | .act p => Q p
  | .andThen a b => a.Acts Q ∧ b.Acts Q
  | .read k => ∀ d, (k d).Acts Q

section
variable {Q : Prim → Prop}

@[simp] theorem acts_nop : Prog.nop.Acts Q := trivial

@[simp] theorem acts_andThen (a b : Prog) : (Prog.andThen a b).Acts Q ↔ a.Acts Q ∧ b.Acts Q := .rfl

@[simp] theorem acts_read (k : Dev → Prog) : (Prog.read k).Acts Q ↔ ∀ d, (k d).Acts Q := .rfl

@[simp] theorem acts_seq_nil : (seq []).Acts Q := trivial

@[simp] theorem acts_seq_cons (p : Prog) (l : List Prog) : (seq (p :: l)).Acts Q ↔ p.Acts Q ∧ (seq l).Acts Q := by
  cases l with
  | nil => exact (and_iff_left trivial).symm
  | cons q r => exact .rfl

@[simp] theorem acts_each {α : Type} (l : List α) (f : α → Prog) : (each l f).Acts Q ↔ ∀ a ∈ l, (f a).Acts Q := by
  induction l with
  | nil => exact iff_of_true trivial fun _ h => nomatch h
  | cons a l ih =>
    rw [each, List.map_cons, acts_seq_cons, List.forall_mem_cons]
    exact and_congr_right fun _ => ih

@[simp] theorem acts_doIf (b : Bool) (p : Prog) : (doIf b p).Acts Q ↔ (b = true → p.Acts Q) := by
  cases b <;> simp [doIf]

@[simp] theorem acts_ite {c : Prop} [Decidable c] (p q : Prog) :
    (if c then p else q).Acts Q ↔ (c → p.Acts Q) ∧ (¬ c → q.Acts Q) := by
  split <;> simp_all

@[simp] theorem acts_doWhen (c : Dev → Bool) (p : Prog) : (doWhen c p).Acts Q ↔ ∀ d, c d = true → p.Acts Q := by
  simp [doWhen]

/-- A script whose every action satisfies `Q` only does what a reflexive, transitive relation that such actions respect
allows. -/
theorem Prog.Acts.run_rel {R : Dev → Dev → Prop} (refl : ∀ d, R d d) (trans : ∀ {a b c}, R a b → R b c → R a c)
    (h : ∀ p d, Q p → R d (p.apply d)) : ∀ {p : Prog}, p.Acts Q → ∀ d, R d (p.run d)
  | .nop, _, d => refl d
  | .act p, hp, d => h p d hp
  | .andThen _ _, hp, d => trans (hp.1.run_rel refl trans h d) (hp.2.run_rel refl trans h _)
  | .read _, hp, d => (hp d).run_rel refl trans h d

/-- A script of actions of a kind is one of actions of a wider kind. -/
theorem Prog.Acts.mono {Q' : Prim → Prop} (h : ∀ p, Q p → Q' p) : ∀ {p : Prog}, p.Acts Q → p.Acts Q'
  | .nop, _ => trivial
  | .act p, hp => h p hp
  | .andThen _ _, hp => ⟨hp.1.mono h, hp.2.mono h⟩
  | .read _, hp => fun d => (hp d).mono h

end

/-! ### Scripts that leave memory alone -/

/-- The action writes no byte of memory. -/
def Prim.MemFree : Prim → Prop
  | .mem .. => False
  | .memZero _ => False
  | _ => True

theorem Prog.Acts.run_mem {p : Prog} (h : p.Acts Prim.MemFree) (d : Dev) : (p.run d).mem = d.mem := by
  refine h.run_rel (R := fun d e => e.mem = d.mem) (fun _ => rfl) (fun h g => g.trans h) (fun q d hq => ?_) d
  cases q with
  | wr r v => exact wr_mem r v d
  | fstate r w =>
    rw [Prim.apply]
    split <;> rfl
  | regReset P => rfl
  | mem a bs => exact hq.elim
  | memZero P => exact hq.elim
  | ext g => rfl

@[simp] theorem memFree_wr (r : Reg) (v : Nat) : (wr r v).Acts Prim.MemFree := trivial
@[simp] theorem memFree_setF (f : Field) (v : Nat) : (setF f v).Acts Prim.MemFree := fun _ => trivial
@[simp] theorem memFree_setB (f : Field) (b : Bool) : (setB f b).Acts Prim.MemFree := fun _ => trivial
@[simp] theorem memFree_ext (g : Ext → Ext) : (ext g).Acts Prim.MemFree := trivial
@[simp] theorem memFree_fnUpd (f : Fn) (g : FWord → FWord) : (fnUpd f g).Acts Prim.MemFree := fun _ => trivial

end Sys2Proof.Machine
end

section
/-!
PROOFS. Scripts that disturb no function: they change no common state word, no enable, neither GLB_FAULT_STATUS nor
BOOT_STATUS, no memory and nothing a function holds beside its state word, and they record events but decide on no
escalation.
-/

namespace Sys2Proof.Machine

/-- The kinds of word that hold a function's enable, the blocks in FAULT and the phase of start-up. -/
def guardedKinds : List RK :=
  [.TB_CTRL, .OTG_CTRL, .SRC_CTRL, .DST_CTRL, .PRC_CTRL, .MVH_CTRL, .AUD_CTRL, .SAP_CTRL, .HLK_CTRL, .LANE_CTRL, .QUAD_CTRL,
    .SDI_CTRL, .MAC_CTRL, .FLOW_RX_CTRL, .FLOW_TX_CTRL, .HBM_CTRL, .HBM_CH_CTRL, .TWIN_CTRL, .CMD_RING_CTRL,
    .GLB_FAULT_STATUS, .BOOT_STATUS]

/-- What the functions hold stays, no escalation comes up, and the alarm history only grows. -/
structure QuietExt (x y : Ext) : Prop where
  fns : y.fns = x.fns
  escal : x.escal = [] → y.escal = []
  hist : x.boot.histSeq ≤ y.boot.histSeq

theorem quietExt_iff (x y : Ext) :
    QuietExt x y ↔ y.fns = x.fns ∧ (x.escal = [] → y.escal = []) ∧ x.boot.histSeq ≤ y.boot.histSeq :=
  ⟨fun h => ⟨h.fns, h.escal, h.hist⟩, fun ⟨a, b, c⟩ => ⟨a, b, c⟩⟩

/-- The action disturbs no function. -/
def Prim.Quiet : Prim → Prop
  | .wr r _ => r.kind ∉ guardedKinds
  | .ext g => ∀ x, QuietExt x (g x)
  | _ => False

/-- The script disturbs no function. -/
abbrev Prog.Quiet (p : Prog) : Prop := p.Acts Prim.Quiet

theorem Prog.Quiet.memFree {p : Prog} (h : p.Quiet) : p.Acts Prim.MemFree :=
  h.mono fun q hq => by cases q <;> trivial

/-! ### Primitives -/

@[simp] theorem quiet_wr (r : Reg) (v : Nat) : (wr r v).Quiet ↔ r.kind ∉ guardedKinds := .rfl
@[simp] theorem quiet_setF (f : Field) (v : Nat) : (setF f v).Quiet ↔ f.reg.kind ∉ guardedKinds :=
  ⟨fun h => h {}, fun h _ => h⟩
@[simp] theorem quiet_setB (f : Field) (b : Bool) : (setB f b).Quiet ↔ f.reg.kind ∉ guardedKinds := quiet_setF f _
@[simp] theorem quiet_addCnt (r : Reg) (n : Nat) : (addCnt r n).Quiet ↔ r.kind ∉ guardedKinds :=
  ⟨fun h => h {}, fun h _ => h⟩
@[simp] theorem quiet_inc (r : Reg) : (inc r).Quiet ↔ r.kind ∉ guardedKinds := quiet_addCnt r 1
@[simp] theorem quiet_ext (g : Ext → Ext) : (ext g).Quiet ↔
    ∀ x, (g x).fns = x.fns ∧ (x.escal = [] → (g x).escal = []) ∧ x.boot.histSeq ≤ (g x).boot.histSeq :=
  forall_congr' fun x => quietExt_iff x (g x)
@[simp] theorem quiet_emit (o : Output) : (emit o).Quiet := by simp [emit]
@[simp] theorem quiet_histAdd (k b i c : Nat) : (histAdd k b i c).Quiet := by simp [histAdd]

@[simp] theorem quiet_raise {f : Field} (h : f.reg.kind ∉ guardedKinds) : (raise f).Quiet := by
  simp only [raise, acts_read, acts_ite, acts_nop, acts_seq_cons, quiet_setF, h]
  intro d
  refine ⟨fun _ => trivial, fun _ => ⟨not_false, ?_⟩⟩
  split <;> simp

@[simp] theorem quiet_statusAlarm {s a : Field} (b : Bool) (hs : s.reg.kind ∉ guardedKinds) (ha : a.reg.kind ∉ guardedKinds) :
    (statusAlarm s a b).Quiet := by
  simp [statusAlarm, hs, ha]

/-! ### Parts of the typed state -/

@[simp] theorem quiet_timeUpd (g : TimeState → TimeState) : (timeUpd g).Quiet := by simp [timeUpd]
@[simp] theorem quiet_otgUpd (n : Nat) (g : OtgMem → OtgMem) : (otgUpd n g).Quiet := quiet_timeUpd _
@[simp] theorem quiet_dpllUpd (g : DpllMem → DpllMem) : (dpllUpd g).Quiet := quiet_timeUpd _
@[simp] theorem quiet_storeUpd (n : Nat) (g : Store → Store) : (storeUpd n g).Quiet := by simp [storeUpd]
@[simp] theorem quiet_ingUpd (n : Nat) (g : IngMem → IngMem) : (ingUpd n g).Quiet := by simp [ingUpd]
@[simp] theorem quiet_ctlUpd (g : CtlState → CtlState) : (ctlUpd g).Quiet := by simp [ctlUpd]
@[simp] theorem quiet_ringUpd (n : Nat) (g : RingMem → RingMem) : (ringUpd n g).Quiet := quiet_ctlUpd _
@[simp] theorem quiet_sessUpd (n : Nat) (g : SessMem → SessMem) : (sessUpd n g).Quiet := quiet_ctlUpd _
@[simp] theorem quiet_dstUpd (n : Nat) (g : DstMem → DstMem) : (dstUpd n g).Quiet := by simp [dstUpd]
@[simp] theorem quiet_prcUpd (n : Nat) (g : PrcMem → PrcMem) : (prcUpd n g).Quiet := by simp [prcUpd]
@[simp] theorem quiet_mvhUpd (n : Nat) (g : MvhMem → MvhMem) : (mvhUpd n g).Quiet := by simp [mvhUpd]
@[simp] theorem quiet_audUpd (g : AudState → AudState) : (audUpd g).Quiet := by simp [audUpd]
@[simp] theorem quiet_ainUpd (n : Nat) (g : AudIn → AudIn) : (ainUpd n g).Quiet := quiet_audUpd _
@[simp] theorem quiet_laneUpd (n : Nat) (g : LaneMem → LaneMem) : (laneUpd n g).Quiet := by simp [laneUpd]
@[simp] theorem quiet_hlkUpd (n : Nat) (g : HlkMem → HlkMem) : (hlkUpd n g).Quiet := by simp [hlkUpd]
@[simp] theorem quiet_sdiUpd (n : Nat) (g : SdiMem → SdiMem) : (sdiUpd n g).Quiet := by simp [sdiUpd]
@[simp] theorem quiet_macUpd (n : Nat) (g : MacMem → MacMem) : (macUpd n g).Quiet := by simp [macUpd]
@[simp] theorem quiet_sapUpd (n : Nat) (g : SapMem → SapMem) : (sapUpd n g).Quiet := by simp [sapUpd]
@[simp] theorem quiet_pwrUpd (g : PwrState → PwrState) : (pwrUpd g).Quiet := by simp [pwrUpd]
@[simp] theorem quiet_twinUpd (g : TwinState → TwinState) : (twinUpd g).Quiet := by simp [twinUpd]
@[simp] theorem quiet_mtxUpd (g : MtxState → MtxState) : (mtxUpd g).Quiet := by simp [mtxUpd]
@[simp] theorem quiet_hbmUpd (g : HbmMem → HbmMem) : (hbmUpd g).Quiet := by simp [hbmUpd]
@[simp] theorem quiet_mramPut (k : MramKey) (v : MramVal) : (mramPut k v).Quiet := by simp [mramPut]

/-- A change of the start-up state that counts no event backwards disturbs no function. -/
theorem quiet_bootUpd {g : BootState → BootState} (h : ∀ b, b.histSeq ≤ (g b).histSeq) : (bootUpd g).Quiet := by
  simp [bootUpd, h]

/-! ### House timing -/

@[simp] theorem quiet_servoLock (n : Nat) (locked : Bool) : (servoLock n locked).Quiet := by simp [servoLock, guardedKinds]
@[simp] theorem quiet_otgLatch (n : Nat) : (otgLatch n).Quiet := by simp [otgLatch, guardedKinds]
@[simp] theorem quiet_otgRealigned (n : Nat) : (otgRealigned n).Quiet := by simp [otgRealigned, guardedKinds]
@[simp] theorem quiet_dpllEnter (st : Nat) : (dpllEnter st).Quiet := by simp [dpllEnter, dpllBw, guardedKinds]
@[simp] theorem quiet_dpllReinit : dpllReinit.Quiet := by simp [dpllReinit]

/-! ### Commands -/

@[simp] theorem quiet_dropCpl : dropCpl.Quiet := by simp [dropCpl, guardedKinds]
@[simp] theorem quiet_cqWrite (r : RingId) (slot : RingSlot) (c : Completion) : (cqWrite r slot c).Quiet := by
  simp [cqWrite, guardedKinds]
@[simp] theorem quiet_sessSend (s : SessId) (final : Bool) (c : Completion) : (sessSend s final c).Quiet := by
  simp [sessSend]
@[simp] theorem quiet_deliver (i : Intake) (final : Bool) (c : Completion) : (deliver i final c).Quiet := by
  cases i <;> simp [deliver]
@[simp] theorem quiet_deliverHandover (n : Nat) (final : Bool) (c : Completion) : (deliverHandover n final c).Quiet := by
  simp [deliverHandover]
@[simp] theorem quiet_cmdStatus : cmdStatus.Quiet := by simp [cmdStatus, guardedKinds]

@[simp] theorem quiet_sendCompletion (id : Nat) (final : Bool) (st : CmdState) (reason flags : Nat) (body : List Nat) :
    (sendCompletion id final st reason flags body).Quiet := by
  simp only [sendCompletion, acts_read]
  intro d
  split
  · exact acts_nop
  · simp only [acts_seq_cons]
    refine ⟨?_, ?_, acts_seq_nil⟩
    · split
      · simp
      · simp
    · split
      · simp only [acts_seq_cons, quiet_ctlUpd, quiet_cmdStatus, acts_doIf, quiet_inc, acts_seq_nil, and_true, true_and]
        refine ⟨?_, fun _ => by decide⟩
        split <;> simp
      · simp only [acts_seq_cons, quiet_ctlUpd, acts_seq_nil, and_true, true_and]
        split <;> simp

@[simp] theorem quiet_finish (id flags : Nat) (body : List Nat) : (finish id flags body).Quiet := quiet_sendCompletion _ _ _ _ _ _
@[simp] theorem quiet_reject (id reason : Nat) : (reject id reason).Quiet := quiet_sendCompletion _ _ _ _ _ _
@[simp] theorem quiet_subsEnd (p : Intake → Bool) : (subsEnd p).Quiet := by simp [subsEnd]
@[simp] theorem quiet_intakeEnd (key : Nat) : (intakeEnd key).Quiet := by simp [intakeEnd]

/-! ### Sources, processors, heads and destinations -/

@[simp] theorem quiet_srcUnlock (n : Nat) : (srcUnlock n).Quiet := by simp [srcUnlock, guardedKinds]
@[simp] theorem quiet_srcAbandon1 (n s : Nat) : (srcAbandon1 n s).Quiet := by simp [srcAbandon1, guardedKinds]
@[simp] theorem quiet_srcAbandon (n : Nat) : (srcAbandon n).Quiet := by simp [srcAbandon]
@[simp] theorem quiet_srcStopped (n : SrcId) : (srcStopped n).Quiet := by simp [srcStopped, guardedKinds]
@[simp] theorem quiet_srcLeft (n : SrcId) : (srcLeft n).Quiet := by simp [srcLeft]
@[simp] theorem quiet_srcFresh (n : SrcId) : (srcFresh n).Quiet := by simp [srcFresh, srcLatch, clearRegs, guardedKinds]

@[simp] theorem quiet_procRelease (p : Nat) : (procRelease p).Quiet := by simp [procRelease]
@[simp] theorem quiet_procDrop (p : Nat) : (procDrop p).Quiet := by
  simp only [procDrop, acts_read]
  intro d
  split <;> simp
@[simp] theorem quiet_procStopped (p : Nat) : (procStopped p).Quiet := by
  simp only [procStopped, acts_seq_cons, quiet_procDrop, quiet_procRelease, quiet_setF, acts_read, acts_seq_nil, and_true,
    true_and]
  refine ⟨by simp [guardedKinds], fun d => ?_⟩
  split <;> simp
@[simp] theorem quiet_procOff (p : Nat) : (procOff p).Quiet := by simp [procOff, engUpdate, guardedKinds]

@[simp] theorem quiet_mvhAbandon (h : Nat) : (mvhAbandon h).Quiet := by
  simp only [mvhAbandon, acts_read]
  intro d
  split <;> simp
@[simp] theorem quiet_mvhStopped (h : Nat) : (mvhStopped h).Quiet := by simp [mvhStopped, mvhRelease, guardedKinds]
@[simp] theorem quiet_mvhFlyStart (h : Nat) : (mvhFlyStart h).Quiet := by simp [mvhFlyStart]

@[simp] theorem quiet_releaseLayer (n layer keep : Nat) : (releaseLayer n layer keep).Quiet := by simp [releaseLayer]
@[simp] theorem quiet_flyStart (n : Nat) : (flyStart n).Quiet := by simp [flyStart, guardedKinds]
@[simp] theorem quiet_dmonRestart (n : Nat) : (dmonRestart n).Quiet := by simp [dmonRestart, guardedKinds]
@[simp] theorem quiet_dstStopped (n : Nat) : (dstStopped n).Quiet := by simp [dstStopped, guardedKinds]
@[simp] theorem quiet_otgLost (n : Nat) : (otgLost n).Quiet := by simp [otgLost, guardedKinds]

/-! ### Audio -/

@[simp] theorem quiet_audLose (i : Nat) (count : Bool) : (audLose i count).Quiet := by simp [audLose, guardedKinds]
@[simp] theorem quiet_asrcCount : asrcCount.Quiet := by simp [asrcCount, guardedKinds]
@[simp] theorem quiet_audStopped : audStopped.Quiet := by simp [audStopped, guardedKinds]
@[simp] theorem quiet_sapDrop (p st : Nat) : (sapDrop p st).Quiet := by simp [sapDrop, guardedKinds]
@[simp] theorem quiet_sapStopped (p : Nat) : (sapStopped p).Quiet := by simp [sapStopped, sapNoClock, guardedKinds]

/-! ### Lanes, links, SDI, MACs and flows -/

@[simp] theorem quiet_laneStopped (l : Nat) : (laneStopped l).Quiet := by simp [laneStopped, scanAbort, guardedKinds]
@[simp] theorem quiet_laneWaking (l : Nat) : (laneWaking l).Quiet := by simp [laneWaking, guardedKinds]
@[simp] theorem quiet_laneStarted (l : Nat) : (laneStarted l).Quiet := by simp [laneStarted, guardedKinds]
@[simp] theorem quiet_hlkPlan (l : Nat) : (hlkPlan l).Quiet := by
  simp only [hlkPlan, acts_read, acts_seq_cons, acts_each, quiet_wr, acts_seq_nil, and_true]
  refine fun d => ⟨by simp [guardedKinds], fun f _ => ?_⟩
  split <;> simp [guardedKinds]
@[simp] theorem quiet_hlkSendStates : hlkSendStates.Quiet := by simp [hlkSendStates, hlkSendState]
@[simp] theorem quiet_hlkStopped (l : Nat) : (hlkStopped l).Quiet := by simp [hlkStopped, hlkAudioLost, guardedKinds]
@[simp] theorem quiet_hlkStarted (l : Nat) : (hlkStarted l).Quiet := by simp [hlkStarted, guardedKinds]
@[simp] theorem quiet_sdiGo (l st : Nat) : (sdiGo l st).Quiet := by simp [sdiGo, sdiLeave, guardedKinds]
@[simp] theorem quiet_sdiStopped (l : Nat) : (sdiStopped l).Quiet := by simp [sdiStopped, guardedKinds]
@[simp] theorem quiet_macStopped (m : Nat) : (macStopped m).Quiet := by simp [macStopped, guardedKinds]
@[simp] theorem quiet_gateStatus (m : Nat) : (gateStatus m).Quiet := by simp [gateStatus, guardedKinds]
@[simp] theorem quiet_flowRxStopped (q : Nat) : (flowRxStopped q).Quiet := by simp [flowRxStopped, guardedKinds]
@[simp] theorem quiet_flowTxStopped (q : Nat) : (flowTxStopped q).Quiet := by simp [flowTxStopped, guardedKinds]

/-! ### Replacement, the twin and escalations -/

@[simp] theorem quiet_replaceSet (code : Nat) : (replaceSet code).Quiet := by simp [replaceSet, guardedKinds]
@[simp] theorem quiet_replaceClear (code : Nat) : (replaceClear code).Quiet := by simp [replaceClear, guardedKinds]
@[simp] theorem quiet_updUpd (g : UpdMem → UpdMem) : (updUpd g).Quiet := by
  simp [updUpd, updSync, quiet_bootUpd, guardedKinds]
@[simp] theorem quiet_updFail (reason : Nat) : (updFail reason).Quiet := by simp [updFail, guardedKinds]
@[simp] theorem quiet_roleSync : roleSync.Quiet := by simp [roleSync, guardedKinds]
@[simp] theorem quiet_hlkSend (l kind flow : Nat) (b : List Byte) : (hlkSend l kind flow b).Quiet := by
  simp [hlkSend, guardedKinds]
@[simp] theorem quiet_twinPost (type : Nat) (body : List Byte) : (twinPost type body).Quiet := by simp [twinPost, twinSend]
@[simp] theorem quiet_swapPost (op reason frame : Nat) : (swapPost op reason frame).Quiet := quiet_twinPost _ _
@[simp] theorem quiet_swapStart (id : Option Nat) : (swapStart id).Quiet := by simp [swapStart, set64, guardedKinds]
@[simp] theorem quiet_escalHold : escalHold.Quiet := by simp [escalHold]
@[simp] theorem quiet_escalDo : escalDo.Quiet := by simp [escalDo]
@[simp] theorem quiet_swapAbandon : swapAbandon.Quiet := by
  simp only [swapAbandon, acts_read]
  intro d
  split <;> simp [swapClear, guardedKinds]
@[simp] theorem quiet_twinGo (t : Nat) : (twinGo t).Quiet := by
  simp [twinGo, resyncStart, quiet_bootUpd, guardedKinds]
@[simp] theorem quiet_handoverEnds : handoverEnds.Quiet := by simp [handoverEnds]
@[simp] theorem quiet_lockstepLost : lockstepLost.Quiet := by simp [lockstepLost, guardedKinds]
@[simp] theorem quiet_twinStarted : twinStarted.Quiet := by simp [twinStarted, guardedKinds]
@[simp] theorem quiet_twinStopped : twinStopped.Quiet := by simp [twinStopped]
@[simp] theorem quiet_twinFaulted : twinFaulted.Quiet := by simp [twinFaulted]

/-! ### Streams -/

@[simp] theorem quiet_streamDrained (port stream : Nat) : (streamDrained port stream).Quiet := by simp [streamDrained]
@[simp] theorem quiet_fnStreamsDrain (f : Fn) : (fnStreamsDrain f).Quiet := by simp [fnStreamsDrain]
@[simp] theorem quiet_sramSpare (f : Fn) : (sramSpare f).Quiet := by simp [sramSpare, guardedKinds]

end Sys2Proof.Machine
end

section
/-!
PROOFS. What the function machine's own operations change (R28 to R34, R541).
-/

namespace Sys2Proof.Machine

/-! ### Registers and keys of functions -/

/-- The kind of a function's state word and its index name the function. -/
theorem fnReg_injective : Function.Injective fnReg := by
  intro f g h
  have hk := congrArg Reg.kind h
  have hi := congrArg Reg.i h
  cases f <;> cases g <;> simp_all [fnReg, Fin.val_inj]

theorem fnInst_lt (f : Fn) : fnInst f < 65536 := by
  cases f <;> simp only [fnInst] <;> omega

theorem fnBlock_lt (f : Fn) : fnBlock f < 19 := by
  cases f <;> simp only [fnBlock] <;> omega

/-- A function is the one that its block and number name (R542). -/
theorem fnOf_fnBlock_fnInst (f : Fn) : fnOf (fnBlock f) (fnInst f) = some f := by
  cases f with
  | tb n =>
    simp only [fnBlock, fnInst, fnOf, Nat.le_add_right, true_and, Nat.add_sub_cancel_left]
    exact dif_pos (by omega)
  | otg n =>
    have hlow : ¬ 22 + n.val ≤ 4 := by omega
    have hdpll : 22 + n.val ≠ 5 := by omega
    simp [fnBlock, fnInst, fnOf, hlow, hdpll]
    omega
  | _ => simp [fnBlock, fnInst, fnOf] <;> omega

theorem fnKey_injective : Function.Injective fnKey := by
  intro f g h
  have hf := fnInst_lt f
  have hg := fnInst_lt g
  simp only [fnKey] at h
  have hb : fnBlock f = fnBlock g := by omega
  have hi : fnInst f = fnInst g := by omega
  rw [← Option.some_inj, ← fnOf_fnBlock_fnInst f, hb, hi, fnOf_fnBlock_fnInst]

/-- Bit 0 of every guarded kind but BOOT_STATUS is a bit that the word has. -/
theorem guardedKinds_impl {k : RK} (h : k ∈ guardedKinds) (hb : k ≠ .BOOT_STATUS) :
    isFstate k = false ∧ (regInfo k).impl.testBit 0 = true := by
  revert k
  decide

/-- A function's enable is bit 0 of a guarded word. -/
theorem fnEnableField_spec {f : Fn} {e : Field} (h : fnEnableField f = some e) :
    e.reg.kind ∈ guardedKinds ∧ e.within = true ∧ e.lo = 0 ∧ e.width = 1 := by
  have spec : ∀ {r : Reg}, r.valid = true → r.kind ∈ guardedKinds → r.kind ≠ .BOOT_STATUS →
      r.kind ∈ guardedKinds ∧ Field.within ⟨r, 0, 1⟩ = true ∧ 0 = 0 ∧ 1 = 1 := by
    intro r hv hg hb
    obtain ⟨hf, hi⟩ := guardedKinds_impl hg hb
    exact ⟨hg, by simp [Field.within, hv, hf, hi], rfl, rfl⟩
  cases f with
  | dpll | mtx | boot | pwr => cases h
  | aud | hbm | twin =>
    cases h
    exact spec (Reg.valid_single rfl) (by simp [guardedKinds]) (by simp)
  | _ =>
    cases h
    exact spec (Reg.valid_indexed rfl (Fin.isLt _)) (by simp [guardedKinds]) (by simp)

theorem enabled_of_field {f : Fn} {e : Field} (h : fnEnableField f = some e) (d : Dev) : d.enabled f = d.flag e := by
  simp [Dev.enabled, h]

theorem guardedKinds_not_fstate {k : RK} (h : k ∈ guardedKinds) : isFstate k = false := by
  revert k
  decide

/-- The register kind has the bits, and they are no common state word's. -/
def hasBits (k : RK) (lo n : Nat) : Bool :=
  !isFstate k && decide (lo + n ≤ 32) && (List.range n).all fun i => (regInfo k).impl.testBit (lo + i)

theorem Field.within_of_hasBits {r : Reg} {lo n : Nat} (hv : r.valid = true) (h : hasBits r.kind lo n = true) :
    Field.within ⟨r, lo, n⟩ = true := by
  rw [Field.within, hv]
  exact h

/-! ### What a script that is about other things keeps of a function -/

/-- The block of a function is shown in FAULT (R444). -/
def faultShown (f : Fn) : Field := ⟨R.GLB_FAULT_STATUS, fnBlock f, 1⟩

theorem faultShown_within (f : Fn) : (faultShown f).within = true := by
  have h : ∀ b < 19, Field.within ⟨R.GLB_FAULT_STATUS, b, 1⟩ = true := by decide
  exact h _ (fnBlock_lt f)

/-- A function's state word, what it holds beside it and its enable are as before, and so is the phase of start-up; its
block is still shown in FAULT if it was, no escalation has come up, and the alarm history has only grown. -/
structure KeepsFn (f : Fn) (d e : Dev) : Prop where
  word : e.fw f = d.fw f
  held : e.fnm f = d.fnm f
  enabled : e.enabled f = d.enabled f
  phase : e.reg R.BOOT_STATUS = d.reg R.BOOT_STATUS
  shown : d.flag (faultShown f) = true → e.flag (faultShown f) = true
  escal : d.x.escal = [] → e.x.escal = []
  hist : d.x.boot.histSeq ≤ e.x.boot.histSeq

theorem KeepsFn.refl (f : Fn) (d : Dev) : KeepsFn f d d := ⟨rfl, rfl, rfl, rfl, id, id, le_rfl⟩

theorem KeepsFn.trans {f : Fn} {a b c : Dev} (h : KeepsFn f a b) (g : KeepsFn f b c) : KeepsFn f a c where
  word := g.word.trans h.word
  held := g.held.trans h.held
  enabled := g.enabled.trans h.enabled
  phase := g.phase.trans h.phase
  shown := g.shown ∘ h.shown
  escal := g.escal ∘ h.escal
  hist := h.hist.trans g.hist

theorem KeepsFn.fst {f : Fn} {d e : Dev} (h : KeepsFn f d e) : e.fst f = d.fst f := congrArg FWord.state h.word

theorem enabled_congr {f : Fn} {d e : Dev} (h : ∀ r : Reg, r.kind ∈ guardedKinds → e.reg r = d.reg r) :
    e.enabled f = d.enabled f := by
  cases hf : fnEnableField f with
  | none => simp [Dev.enabled, hf]
  | some g =>
    obtain ⟨hg, -⟩ := fnEnableField_spec hf
    simp [enabled_of_field hf, Dev.flag, Dev.fld, Dev.rd, h _ hg]

/-- A device whose state words and guarded words are as before keeps every function. -/
theorem KeepsFn.of_regs {f : Fn} {d e : Dev} (hs : e.reg (fnReg f) = d.reg (fnReg f))
    (hr : ∀ r : Reg, r.kind ∈ guardedKinds → e.reg r = d.reg r) (hx : QuietExt d.x e.x) : KeepsFn f d e where
  word := by simp [Dev.fw, Dev.rd, hs]
  held := by simp [Dev.fnm, hx.fns]
  enabled := enabled_congr hr
  phase := hr _ (by simp [guardedKinds])
  shown h := by
    have hg := hr R.GLB_FAULT_STATUS (by simp [guardedKinds])
    rw [← h]
    simp [Dev.flag, Dev.fld, Dev.rd, faultShown, hg]
  escal := hx.escal
  hist := hx.hist

theorem QuietExt.refl (x : Ext) : QuietExt x x := ⟨rfl, id, le_rfl⟩

/-- A write of a word leaves every common state word (R29). -/
theorem wr_reg_fstate {q : Reg} (h : isFstate q.kind = true) (r : Reg) (v : Nat) (d : Dev) :
    ((wr r v).run d).reg q = d.reg q := by
  by_cases e : q = r
  · subst e
    simp [wr, run_act, Prim.apply, h]
  · exact wr_reg_other v d e

/-- A script that disturbs no function keeps every function. -/
theorem Prog.Quiet.keepsFn {p : Prog} (h : p.Quiet) (f : Fn) (d : Dev) : KeepsFn f d (p.run d) := by
  refine h.run_rel (KeepsFn.refl f) KeepsFn.trans (fun q d hq => ?_) d
  cases q with
  | wr r v =>
    refine .of_regs (wr_reg_fstate (fnReg_valid f).2 r v d) (fun q hg => wr_reg_other v d ?_) (wr_x r v d ▸ .refl _)
    rintro rfl
    exact hq hg
  | ext g => exact .of_regs rfl (fun _ _ => rfl) (hq d.x)
  | fstate r w => exact hq.elim
  | regReset P => exact hq.elim
  | mem a bs => exact hq.elim
  | memZero P => exact hq.elim

/-- The script keeps the function, whatever device it runs on. -/
def Prog.Spares (f : Fn) (p : Prog) : Prop := ∀ d, KeepsFn f d (p.run d)

section
variable {f : Fn} {p q : Prog}

theorem Prog.Quiet.spares (h : p.Quiet) : p.Spares f := h.keepsFn f

@[simp] theorem spares_nop : Prog.nop.Spares f := KeepsFn.refl f

@[simp] theorem spares_seq_nil : (seq []).Spares f := KeepsFn.refl f

theorem Prog.Spares.cons {l : List Prog} (hp : p.Spares f) (hl : (seq l).Spares f) : (seq (p :: l)).Spares f := by
  intro d
  rw [run_seq_cons]
  exact (hp d).trans (hl _)

theorem Prog.Spares.read {k : Dev → Prog} (h : ∀ d, (k d).Spares f) : (Prog.read k).Spares f := fun d => h d d

theorem Prog.Spares.doIf {b : Bool} (h : b = true → p.Spares f) : (doIf b p).Spares f := by
  cases b
  · exact spares_nop
  · exact h rfl

theorem Prog.Spares.doWhen {c : Dev → Bool} (h : p.Spares f) : (doWhen c p).Spares f := by
  refine .read fun d => ?_
  split
  · exact h
  · exact spares_nop

theorem spares_each {α : Type} {l : List α} {g : α → Prog} (h : ∀ a ∈ l, (g a).Spares f) : (each l g).Spares f := by
  induction l with
  | nil => exact spares_seq_nil
  | cons a l ih =>
    exact .cons (h a List.mem_cons_self) (ih fun b hb => h b (List.mem_cons_of_mem a hb))

end

/-! ### The function machine's own operations -/

/-- Setting another function's state word keeps the function. -/
theorem fnPut_keepsFn {f g : Fn} (h : f ≠ g) (w : FWord) (d : Dev) : KeepsFn f d ((fnPut g w).run d) := by
  refine .of_regs (fnPut_reg_other g w d (fnReg_injective.ne h)) (fun r hr => fnPut_reg_other g w d ?_) ?_
  · rintro rfl
    have := guardedKinds_not_fstate hr
    simp [(fnReg_valid g).2] at this
  · rw [fnPut_x]
    exact .refl _

theorem fnUpd_spares {f g : Fn} (h : f ≠ g) (u : FWord → FWord) : (fnUpd g u).Spares f := fun d => fnPut_keepsFn h _ d

@[simp] theorem fnMem_self (f : Fn) (u : FnMem → FnMem) (d : Dev) : ((fnMem f u).run d).fnm f = u (d.fnm f) :=
  KV.get_upd_self _ _ _ _

theorem fnMem_spares {f g : Fn} (h : f ≠ g) (u : FnMem → FnMem) : (fnMem g u).Spares f := fun d =>
  { KeepsFn.refl f d with held := KV.get_upd_other _ _ _ (fnKey_injective.ne h) }

/-- Showing a block in FAULT keeps every function. -/
theorem showFault_spares (f g : Fn) : (setF (faultShown g) 1).Spares f := by
  intro d
  have other : ∀ r, r ≠ R.GLB_FAULT_STATUS → ((setF (faultShown g) 1).run d).reg r = d.reg r := fun r h =>
    setF_reg_other 1 d h
  have hs := other (fnReg f) fun h => by
    have := (fnReg_valid f).2
    rw [h] at this
    exact absurd this (by decide)
  refine ⟨by simp [Dev.fw, Dev.rd, hs], rfl, ?_, other _ (by decide), fun h => ?_, by simp, by simp⟩
  · cases hf : fnEnableField f with
    | none => simp [Dev.enabled, hf]
    | some e =>
      have hne : e.reg ≠ R.GLB_FAULT_STATUS := by
        cases f <;> cases hf <;> simp
      simp [enabled_of_field hf, Dev.flag, Dev.fld, Dev.rd, other _ hne]
  · by_cases hb : fnBlock f = fnBlock g
    · have e : faultShown f = faultShown g := by rw [faultShown, hb, faultShown]
      rw [e]
      exact setB_flag_self (faultShown g) true d (faultShown_within g) rfl
    · rw [← h]
      have hfld : ((setF (faultShown g) 1).run d).fld (faultShown f) = d.fld (faultShown f) :=
        setF_fld_apart 1 d rfl (faultShown_within f) (by simp only [faultShown]; omega)
      rw [Dev.flag, hfld, Dev.flag]

/-- A fault of another function keeps the function. -/
theorem fnFault_spares {f g : Fn} (h : f ≠ g) (code : Nat) : (fnFault g code).Spares f :=
  .read fun _ => .cons (Prog.Quiet.spares (quiet_histAdd _ _ _ _)) <| .cons (.doIf fun _ => .cons (fnMem_spares h _) <|
    .cons (fnUpd_spares h _) <| .cons (showFault_spares f g) spares_seq_nil) spares_seq_nil

end Sys2Proof.Machine
end

section
/-!
PROOFS. What follows a function's passage from one state to another (R136, R281, R287, R316, R347, R348): it reaches the
functions below it, and leaves its own state word, what it holds beside it and its enable.
-/

namespace Sys2Proof.Machine

/-- How far up a function stands among those that a change of one can reach: a quad takes its lanes with it, a lane its link,
SDI function or MAC, these and a time base the functions that name them, a flow context and an OTG sources and
destinations, and a channel the memory system. -/
def fnRank : Fn → Nat
  | .quad _ => 4
  | .lane _ => 3
  | .hlk _ | .sdi _ | .mac _ | .aud | .tb _ => 2
  | .otg _ | .flowRx _ | .flowTx _ | .hbmCh _ => 1
  | _ => 0

/-- The function is the given one, or stands above it. -/
def AtOrAbove (f g : Fn) : Prop := f = g ∨ fnRank g < fnRank f

theorem fnUnfaulted_quiet (f : Fn) : (fnUnfaulted f).Quiet := by simp [fnUnfaulted]

theorem fnRests_quiet (f : Fn) : (fnRests f).Quiet := by
  cases f with
  | prc n => exact quiet_procOff n
  | lane n => exact fun d => (quiet_setB _ _).2 (by simp [guardedKinds])
  | _ => exact acts_nop

theorem fnLeft_quiet (f : Fn) : (fnLeft f).Quiet := by
  cases f with
  | src n => exact quiet_srcLeft n
  | prc n => exact quiet_procStopped n
  | mvh n => exact quiet_mvhStopped n
  | dst n => exact quiet_dstStopped n
  | aud => exact quiet_audStopped
  | sap n => exact quiet_sapStopped n
  | lane n => exact quiet_laneStopped n
  | hlk n => exact quiet_hlkStopped n
  | sdi n => exact quiet_sdiStopped n
  | mac n => exact quiet_macStopped n
  | flowRx n => exact quiet_flowRxStopped n
  | flowTx n => exact quiet_flowTxStopped n
  | otg n => exact quiet_otgLost n
  | tb n => exact quiet_servoLock n false
  | twin => exact (acts_doWhen _ _).2 fun _ _ => quiet_twinStopped
  | ring n => exact fun d => (acts_doIf _ _).2 fun _ => quiet_ringUpd n _
  | quad q => exact ⟨(quiet_setF _ _).2 (by simp [guardedKinds]), (quiet_setF _ _).2 (by simp [guardedKinds])⟩
  | dpll | hbm | hbmCh | mtx | boot | pwr => exact acts_nop

/-- Only a channel's passage to WAKING does more than start the function afresh: it clears the channel's memory. -/
theorem fnWaking_quiet {f : Fn} (h : ∀ n, f ≠ .hbmCh n) : (fnWaking f).Quiet := by
  cases f with
  | hbmCh n => exact absurd rfl (h n)
  | otg n => exact quiet_otgLatch n
  | src n => exact quiet_srcFresh n
  | lane n => exact quiet_laneWaking n
  | ring n => simp [fnWaking, clearRegs, guardedKinds]
  | _ => exact acts_nop

theorem fnWaking_spares (f g : Fn) : (fnWaking g).Spares f := by
  cases g with
  | hbmCh n => exact fun d => KeepsFn.of_regs rfl (fun _ _ => rfl) ⟨rfl, id, le_rfl⟩
  | _ => exact (fnWaking_quiet (by simp)).spares

/-- Only a channel that reaches ON changes another function's state: the memory system's. -/
theorem fnStarted_quiet {f : Fn} (h : ∀ n, f ≠ .hbmCh n) : (fnStarted f).Quiet := by
  cases f with
  | hbmCh n => exact absurd rfl (h n)
  | src n => exact quiet_srcStopped n
  | aud => exact (quiet_setF _ _).2 (by simp [guardedKinds])
  | lane n => exact quiet_laneStarted n
  | hlk n => exact quiet_hlkStarted n
  | mac n => exact quiet_gateStatus n
  | dst n => exact (acts_doWhen _ _).2 fun _ _ => quiet_flyStart n
  | twin => exact quiet_twinStarted
  | quad q =>
    have h : ∀ {g : Field} (b : Bool), g.reg = R.QUAD_STATUS q → (setB g b).Quiet := fun b e =>
      (quiet_setB _ _).2 (by simp [e, guardedKinds])
    exact fun d => ⟨h true rfl, h _ rfl, h _ rfl⟩
  | _ => exact acts_nop

theorem fnStarted_spares {f g : Fn} (h : AtOrAbove f g) : (fnStarted g).Spares f := by
  cases g with
  | hbmCh n =>
    have hne : f ≠ .hbm := by rintro rfl; simp [AtOrAbove, fnRank] at h
    exact .read fun d => .doIf fun _ => fnUpd_spares hne _
  | _ => exact (fnStarted_quiet (by simp)).spares

/-- Only a channel that enters FAULT takes another function with it here: the memory system. -/
theorem fnFaulted_quiet {f : Fn} (h : ∀ n, f ≠ .hbmCh n) : (fnFaulted f).Quiet := by
  cases f with
  | hbmCh n => exact absurd rfl (h n)
  | otg n => exact quiet_raise (by simp [guardedKinds])
  | sap n => exact (acts_doWhen _ _).2 fun _ _ => quiet_raise (by simp [guardedKinds])
  | boot => exact (acts_doWhen _ _).2 fun _ _ => quiet_replaceSet 8
  | twin => exact quiet_twinFaulted
  | ring n => exact quiet_raise (by simp [guardedKinds])
  | _ => exact acts_nop

theorem fnFaulted_spares {f g : Fn} (h : AtOrAbove f g) : (fnFaulted g).Spares f := by
  cases g with
  | hbmCh n =>
    have hne : f ≠ .hbm := by rintro rfl; simp [AtOrAbove, fnRank] at h
    exact fnFault_spares hne 1
  | _ => exact (fnFaulted_quiet (by simp)).spares

/-- What follows a function's change of state keeps it and every function above it. -/
theorem fnFollow_spares {f g : Fn} (h : AtOrAbove f g) (was : FState) : (fnFollow g was).Spares f := by
  refine .read fun e => ?_
  dsimp only
  split
  · exact spares_nop
  · refine .cons (.doIf fun _ => (fnUnfaulted_quiet g).spares) (.cons (.doIf fun _ => (fnLeft_quiet g).spares) (.cons ?_ spares_seq_nil))
    split
    · exact fnWaking_spares f g
    · exact fnStarted_spares h
    · exact fnFaulted_spares h
    · exact (fnRests_quiet g).spares
    · refine .cons (quiet_fnStreamsDrain g).spares (.cons ?_ spares_seq_nil)
      split
      · exact Prog.Quiet.spares (quiet_intakeEnd _)
      · exact Prog.Quiet.spares quiet_dpllReinit
      · exact spares_nop

theorem fnStep_run (f : Fn) (p : Prog) (d : Dev) :
    (fnStep f p).run d = (fnFollow f (d.fst f)).run (p.run d) := rfl

theorem fnStep_spares {f g : Fn} {p : Prog} (h : fnRank g < fnRank f) (hp : p.Spares f) : (fnStep g p).Spares f := by
  intro d
  exact (hp d).trans (fnFollow_spares (.inr h) _ _)

/-! ### Functions that name another, and are taken with it -/

section
variable {f : Fn}

theorem fnCut_spares {g : Fn} (h : fnRank g < fnRank f) (code : Nat) : (fnCut g code).Spares f :=
  .doWhen (fnStep_spares h (fnFault_spares (by rintro rfl; omega) code))

theorem bindLost_spares (h : 0 < fnRank f) (src dst : Dev → List Nat) : (bindLost src dst).Spares f :=
  .read fun _ => .cons (spares_each fun n _ => .doIf fun _ => fnCut_spares (g := .src (Fin.ofNat 1024 n)) h 4) <|
    .cons (spares_each fun n _ => .doIf fun _ => fnCut_spares (g := dstFn n) h 4) spares_seq_nil

/-- The end of WAKING of another function keeps the function. -/
theorem fnWoken_spares {g : Fn} (h : f ≠ g) : (fnWoken g).Spares f := by
  refine .read fun d => ?_
  split
  · exact .cons (fnMem_spares h _) (.cons (fnUpd_spares h _) spares_seq_nil)
  · exact .read fun e => .cons (fnUpd_spares h _) (.cons (fnMem_spares h _) spares_seq_nil)

theorem fnWaiters_spares {l : List Fn} (h : ∀ g ∈ l, fnRank g < fnRank f) : (fnWaiters l).Spares f :=
  spares_each fun g hg => .doWhen (fnStep_spares (h g hg) (fnWoken_spares (by rintro rfl; exact absurd (h f hg) (by omega))))

end

/-- A script changes a function's state by another script, and what follows reaches only functions below it. -/
def Carries (f : Fn) (p go : Prog) : Prop :=
  ∀ d, ∃ c : Prog, (∀ g, AtOrAbove g f → c.Spares g) ∧ go.run d = c.run ((fnStep f p).run d)

section
variable {f : Fn} {p go : Prog}

/-- Whatever the script leaves of its function, what follows leaves. -/
theorem Carries.keepsFn (h : Carries f p go) (d : Dev) : KeepsFn f (p.run d) (go.run d) := by
  obtain ⟨c, hc, e⟩ := h d
  rw [e]
  exact (fnFollow_spares (.inl rfl) _ _).trans (hc f (.inl rfl) _)

/-- Functions above are kept. -/
theorem Carries.spares {g : Fn} (h : Carries f p go) (hg : fnRank f < fnRank g) (hp : p.Spares g) : go.Spares g := by
  intro d
  obtain ⟨c, hc, e⟩ := h d
  rw [e]
  exact (fnStep_spares hg hp d).trans (hc g (.inr hg) _)

theorem AtOrAbove.rank_le {g : Fn} (h : AtOrAbove g f) : fnRank f ≤ fnRank g := by
  rcases h with rfl | h
  · exact le_rfl
  · exact h.le

theorem fnStep_carries (f : Fn) (p : Prog) : Carries f p (fnStep f p) := fun _ => ⟨.nop, fun _ _ => spares_nop, rfl⟩

/-- A flow context's fault takes the sources or destinations bound to it. -/
theorem flowStep_carries (f : Fn) (p : Prog) : Carries f p (flowStep f p) := by
  refine fun d => ⟨_, fun g hg => .read fun e => .doIf fun _ => ?_, rfl⟩
  have hr := hg.rank_le
  split
  · exact bindLost_spares hr _ _
  · exact bindLost_spares hr _ _
  · exact spares_nop

theorem flowStep_fault_spares {g : Fn} (h : fnRank f < fnRank g) (code : Nat) : (flowStep f (fnFault f code)).Spares g :=
  (flowStep_carries f _).spares h (fnFault_spares (by rintro rfl; omega) code)

/-- A port's fault takes the sources and destinations that name it, or the flow contexts; the audio matrix that leaves ON
takes the serial audio ports, a time base its OTGs; a MAC or an OTG that reaches ON lets the functions that wait for it go. -/
theorem portStep_carries (f : Fn) (p : Prog) : Carries f p (portStep f p) := by
  refine fun d => ⟨_, fun g hg => .read fun e => .cons (.doIf fun _ => ?_) (.cons (.doIf fun _ => ?_) (.cons (.doIf fun _ => ?_) spares_seq_nil)), rfl⟩
  all_goals have hr := hg.rank_le
  · split
    · exact bindLost_spares (Nat.lt_of_succ_lt hr) _ _
    · exact bindLost_spares (Nat.lt_of_succ_lt hr) _ _
    · have flow : ∀ q, fnRank (flowRxFn q) < fnRank g ∧ fnRank (flowTxFn q) < fnRank g := fun q => ⟨hr, hr⟩
      exact .cons (spares_each fun q _ => flowStep_fault_spares (flow q).1 1)
        (.cons (spares_each fun q _ => flowStep_fault_spares (flow q).2 1) spares_seq_nil)
    · exact spares_nop
  · split
    · exact spares_each fun q _ => .doIf fun _ => fnCut_spares (g := .sap q) (Nat.lt_of_succ_lt hr) 2
    · exact spares_each fun k _ => fnStep_spares hr (fnFault_spares (by rintro rfl; simp [fnRank] at hr) 2)
    · exact spares_nop
  · split
    · refine fnWaiters_spares fun w hw => ?_
      simp only [List.mem_append, List.mem_map] at hw
      obtain ⟨q, -, rfl⟩ | ⟨q, -, rfl⟩ := hw
      · exact hr
      · exact hr
    · refine fnWaiters_spares fun w hw => ?_
      obtain ⟨q, -, rfl⟩ := List.mem_map.1 hw
      exact hr
    · exact spares_nop

theorem portStep_fault_spares {g : Fn} (h : fnRank f < fnRank g) (code : Nat) : (portStep f (fnFault f code)).Spares g :=
  (portStep_carries f _).spares h (fnFault_spares (by rintro rfl; omega) code)

/-- A lane's fault takes its link, MAC or SDI function. -/
theorem laneStep_carries (f : Fn) (p : Prog) : Carries f p (laneStep_ f p) := by
  refine fun d => ⟨_, fun g hg => .read fun e => .doIf fun _ => ?_, rfl⟩
  have hr := hg.rank_le
  split
  · split
    · exact .doIf fun _ => portStep_fault_spares (f := .hlk _) hr 4
    · exact .doIf fun _ => portStep_fault_spares (f := .mac _) hr 3
    · exact .doIf fun _ => portStep_fault_spares (f := .sdi _) hr 3
    · exact spares_nop
  · exact spares_nop

/-- A quad's fault takes its lanes. -/
theorem quadStep_carries (f : Fn) (p : Prog) : Carries f p (quadStep f p) := by
  refine fun d => ⟨_, fun g hg => .read fun e => .doIf fun _ => ?_, rfl⟩
  have hr := hg.rank_le
  split
  · exact spares_each fun k _ => .doIf fun _ =>
      (laneStep_carries _ _).spares hr (fnFault_spares (by rintro rfl; simp [fnRank] at hr) 4)
  · exact spares_nop

/-- A script that changes a function's state, with everything that follows: the function itself is left as the script left
it. -/
theorem fnGo_carries (f : Fn) (p : Prog) : Carries f p (fnGo f p) := by
  unfold fnGo
  split
  · exact quadStep_carries _ p
  · exact laneStep_carries _ p
  iterate 6 exact portStep_carries _ p
  iterate 2 exact flowStep_carries _ p
  · exact fnStep_carries f p

theorem fnGo_keepsFn (f : Fn) (p : Prog) (d : Dev) : KeepsFn f (p.run d) ((fnGo f p).run d) := (fnGo_carries f p).keepsFn d

end

end Sys2Proof.Machine
end

section
/-!
PROOFS. Functions pass through the states of R28: R30, R32, R33, R295, R449, R541.
-/

namespace Sys2Proof.Machine

/-! ### The function machine's own operations on their function -/

section
variable (f g : Fn) (d : Dev)

@[simp] theorem settle_fw : (settle.run d).fw f = d.fw f := by simp [Dev.fw]
@[simp] theorem settle_fst : (settle.run d).fst f = d.fst f := by simp [Dev.fst]
@[simp] theorem settle_fnm : (settle.run d).fnm f = d.fnm f := by
  obtain ⟨-, -, hx⟩ := settle_same d
  rw [Dev.fnm, hx, Dev.fnm]
@[simp] theorem settle_boot : (settle.run d).x.boot = d.x.boot := by
  obtain ⟨-, -, hx⟩ := settle_same d
  rw [hx]

@[simp] theorem settle_afl : (settle.run d).x.ctl.afl = d.x.ctl.afl := by
  obtain ⟨-, -, hx⟩ := settle_same d
  rw [hx]

@[simp] theorem ext_fw (u : Ext → Ext) : ((ext u).run d).fw f = d.fw f := rfl
@[simp] theorem fnMem_reg (u : FnMem → FnMem) (r : Reg) : ((fnMem g u).run d).reg r = d.reg r := rfl
@[simp] theorem fnMem_fw (u : FnMem → FnMem) : ((fnMem g u).run d).fw f = d.fw f := rfl
@[simp] theorem fnMem_fst (u : FnMem → FnMem) : ((fnMem g u).run d).fst f = d.fst f := rfl
@[simp] theorem fnMem_enabled (u : FnMem → FnMem) : ((fnMem g u).run d).enabled f = d.enabled f := rfl
@[simp] theorem histAdd_fw (k b i c : Nat) : ((histAdd k b i c).run d).fw f = d.fw f := rfl
@[simp] theorem histAdd_fnm (k b i c : Nat) : ((histAdd k b i c).run d).fnm f = d.fnm f := rfl
@[simp] theorem histAdd_enabled (k b i c : Nat) : ((histAdd k b i c).run d).enabled f = d.enabled f := rfl

@[simp] theorem fnUpd_fnm (u : FWord → FWord) : ((fnUpd g u).run d).fnm f = d.fnm f := by
  simp [fnUpd, Dev.fnm]

/-- A change of a state word leaves every register that is none. -/
theorem fnUpd_reg (u : FWord → FWord) {r : Reg} (h : isFstate r.kind = false) :
    ((fnUpd g u).run d).reg r = d.reg r := by
  refine fnPut_reg_other g _ d ?_
  rintro rfl
  rw [(fnReg_valid g).2] at h
  cases h

@[simp] theorem fnUpd_enabled (u : FWord → FWord) : ((fnUpd g u).run d).enabled f = d.enabled f :=
  enabled_congr fun _ h => fnUpd_reg g d u (guardedKinds_not_fstate h)

end

section
variable {f : Fn} {d : Dev}

/-- A change of a function's state word that leaves its rung and code, or gives ones it can hold, happens as asked. -/
theorem fnUpd_fw_keep {u : FWord → FWord} (hr : (u (d.fw f)).rung = (d.fw f).rung)
    (hc : (u (d.fw f)).code = (d.fw f).code) : ((fnUpd f u).run d).fw f = u (d.fw f) :=
  fnUpd_fw f u d (hr ▸ FWord.decode_rung _) (hc ▸ FWord.decode_code _)

theorem fnUpd_fst_keep {u : FWord → FWord} (hr : (u (d.fw f)).rung = (d.fw f).rung)
    (hc : (u (d.fw f)).code = (d.fw f).code) : ((fnUpd f u).run d).fst f = (u (d.fw f)).state :=
  congrArg FWord.state (fnUpd_fw_keep hr hc)

/-! ### Enable and disable (R30) -/

/-- An enable of a function that is OFF begins its wake. -/
theorem fnEnable_off (h : d.fst f = .off) : ((fnEnable f).run d).fst f = .waking := by
  simp only [fnEnable, run_seq_cons, run_seq_nil, run_read, fnMem_fst, h]
  exact fnUpd_fst_keep rfl rfl

/-- An enable of a function that stops is recorded. -/
theorem fnEnable_stopping (h : d.fst f = .stopping) :
    ((fnEnable f).run d).fst f = .stopping ∧ (((fnEnable f).run d).fw f).pendOn = true := by
  simp only [fnEnable, run_seq_cons, run_seq_nil, run_read, fnMem_fst, h]
  rw [fnUpd_fst_keep rfl rfl, fnUpd_fw_keep rfl rfl]
  exact ⟨h, rfl⟩

/-- An enable changes no enable field. -/
theorem fnEnable_enabled : ((fnEnable f).run d).enabled f = d.enabled f := by
  simp only [fnEnable, run_seq_cons, run_seq_nil, run_read]
  split <;> simp

/-- A disable stops a function that is ON or in FAULT. -/
theorem fnDisable_stops (h : d.fst f = .on ∨ d.fst f = .fault) : ((fnDisable f).run d).fst f = .stopping := by
  rcases h with h | h <;> simp only [fnDisable, run_read, h] <;> exact fnUpd_fst_keep rfl rfl

/-- A disable of a function that wakes and waits for nothing is recorded. -/
theorem fnDisable_waking (h : d.fst f = .waking) (hw : (d.fnm f).waits = false) :
    ((fnDisable f).run d).fw f = { d.fw f with pendOff := true, pendOn := false } := by
  simp only [fnDisable, run_read, h, hw, Bool.false_eq_true, if_false]
  exact fnUpd_fw_keep rfl rfl

theorem fnDisable_enabled : ((fnDisable f).run d).enabled f = d.enabled f := by
  simp only [fnDisable, run_read]
  split
  · simp
  · split <;> simp
  all_goals simp

end

/-! ### A write of an enable (R30, R449) -/

section
variable {f : Fn} {e : Field} {d : Dev}

/-- A write of a function's enable field leaves its state word and what it holds. -/
theorem setEnable_keeps (he : fnEnableField f = some e) (b : Bool) :
    ((setB e b).run d).fw f = d.fw f ∧ ((setB e b).run d).fnm f = d.fnm f ∧ ((setB e b).run d).enabled f = b := by
  obtain ⟨hg, hw, -, h1⟩ := fnEnableField_spec he
  refine ⟨?_, by simp [Dev.fnm], ?_⟩
  · have hne : fnReg f ≠ e.reg := by
      intro h
      have := guardedKinds_not_fstate hg
      rw [← h, (fnReg_valid f).2] at this
      cases this
    simp only [Dev.fw, Dev.rd]
    rw [show ((setB e b).run d).reg (fnReg f) = d.reg (fnReg f) from setF_reg_other _ d hne]
  · rw [enabled_of_field he]
    exact setB_flag_self e b d hw h1

/-- Firmware's write of an enable that changes it applies it, with everything that follows. -/
theorem fnSwitch_changes (he : fnEnableField f = some e) (on : Bool) (h : d.flag e = !on) :
    (fnSwitch f on).run d = (fnGo f (if on then fnEnable f else fnDisable f)).run ((setB e on).run d) := by
  have hen : d.enabled f = !on := (enabled_of_field he d).trans h
  cases on <;> simp [fnSwitch, he, hen]

/-- What firmware's write of an enable that changes it leaves of the function. -/
theorem functionEnable_firmware (he : fnEnableField f = some e) (h : d.flag e = false) :
    let d' := (setB e true).run d
    KeepsFn f ((fnEnable f).run d') ((enableWrite f .firmware true).run d) ∧
      ((enableWrite f .firmware true).run d).flag e = true := by
  have hr : (enableWrite f .firmware true).run d = (fnGo f (fnEnable f)).run ((setB e true).run d) := by
    simp only [enableWrite, he, run_read]
    exact fnSwitch_changes he true h
  rw [hr]
  have hk := fnGo_keepsFn f (fnEnable f) ((setB e true).run d)
  refine ⟨hk, ?_⟩
  rw [← enabled_of_field he, hk.enabled, fnEnable_enabled]
  exact (setEnable_keeps he true).2.2

/-- What firmware's clearing of an enable that was set leaves of the function. -/
theorem functionDisable_firmware (he : fnEnableField f = some e) (h : d.flag e = true) :
    let d' := (setB e false).run d
    KeepsFn f ((fnDisable f).run d') ((enableWrite f .firmware false).run d) ∧
      ((enableWrite f .firmware false).run d).flag e = false := by
  have hr : (enableWrite f .firmware false).run d = (fnGo f (fnDisable f)).run ((setB e false).run d) := by
    simp only [enableWrite, he, run_read]
    exact fnSwitch_changes he false h
  rw [hr]
  have hk := fnGo_keepsFn f (fnDisable f) ((setB e false).run d)
  refine ⟨hk, ?_⟩
  rw [← enabled_of_field he, hk.enabled, fnDisable_enabled]
  exact (setEnable_keeps he false).2.2

/-- Logging keeps every function. -/
theorem aflPush_spares (master : Nat) (kind : AflKind) (be c off data : Nat) : (aflPush master kind be c off data).Spares f := by
  refine Prog.Quiet.spares ?_
  simp only [aflPush, acts_seq_cons, acts_read, acts_ite, acts_seq_nil, quiet_inc, and_true]
  exact ⟨quiet_raise (by decide), by decide, fun d => ⟨fun _ => by simp, fun _ => ⟨by decide, quiet_raise (by decide)⟩⟩⟩

theorem raise_ctl (g : Field) (d : Dev) : ((raise g).run d).x.ctl = d.x.ctl := by
  obtain ⟨-, h⟩ | ⟨u, h⟩ := raise_run g d
  · rw [h]
  · rw [h]
    change ((setB g true).run d).x.ctl = _
    rw [setB_x]

/-- While it has room the log gains an entry. -/
theorem aflPush_length (master : Nat) (kind : AflKind) (be c off data : Nat) (h : d.x.ctl.afl.length < 32) :
    ((aflPush master kind be c off data).run d).x.ctl.afl.length = d.x.ctl.afl.length + 1 := by
  have hx : ((inc R.GLB_CNT_AFL).run ((raise F.GLB_ALARM_access_fault).run d)).x.ctl = d.x.ctl := by rw [inc_x, raise_ctl]
  simp only [aflPush, run_seq_cons, run_seq_nil, run_read, hx, h, if_true]
  change (_ ++ [_]).length = _
  rw [hx, List.length_append, List.length_singleton]

/-- A host's write that would change an enable that firmware owns changes nothing of the function and is logged. -/
theorem enableWrite_refused (he : fnEnableField f = some e) (hep : d.x.ctl.endpoint = true)
    (ho : bitOf (regInfo e.reg.kind).fw e.lo = true) (hl : d.x.ctl.afl.length < 32) {on : Bool} (h : d.flag e = !on) :
    let t := settle.run ((enableWrite f .host on).run d)
    t.fw f = d.fw f ∧ t.flag e = !on ∧ t.x.ctl.afl.length = d.x.ctl.afl.length + 1 := by
  have hr : ∃ off v, (enableWrite f .host on).run d = (aflPush 0 .fwOwned 15 0 off v).run d := by
    have hne : decide (d.flag e ≠ on) = true := by simp [h]
    refine ⟨e.reg.addr, putBits (d.rd e.reg) e.lo e.width (boolBit on), ?_⟩
    simp only [enableWrite, he, run_read]
    rw [run_hostDo hep, if_pos ho, run_doIf, if_pos hne]
  obtain ⟨off, v, hr⟩ := hr
  have hk := aflPush_spares (f := f) 0 .fwOwned 15 0 off v d
  refine ⟨?_, ?_, ?_⟩
  · rw [settle_fw, hr, hk.word]
  · rw [settle_flag, hr, ← enabled_of_field he, hk.enabled, enabled_of_field he, h]
  · rw [settle_afl, hr]
    exact aflPush_length 0 .fwOwned 15 0 off v hl

end

/-- Settles O7: an enable's own script moves the function, what follows keeps it, and a write the host may not make is only
logged. -/
theorem enablesMoveFunctions : Obligations.EnablesMoveFunctions := by
  intro f e s hl he
  have keeps := setEnable_keeps (d := s.dev) he
  refine ⟨fun h hf => ?_, fun h hf => ?_, fun h hf => ?_, fun h hf hw => ?_, fun hep ho hlen => ⟨fun h => ?_, fun h => ?_⟩⟩
  · obtain ⟨hk, hen⟩ := functionEnable_firmware he h
    refine completes_of_live rfl hl ⟨by rwa [settle_flag], ?_⟩
    rw [settle_fst, hk.fst]
    exact fnEnable_off ((congrArg FWord.state (keeps true).1).trans hf)
  · obtain ⟨hk, hen⟩ := functionEnable_firmware he h
    refine completes_of_live rfl hl ⟨by rwa [settle_flag], ?_⟩
    rw [settle_fst, settle_fw, hk.fst, hk.word]
    exact fnEnable_stopping ((congrArg FWord.state (keeps true).1).trans hf)
  · obtain ⟨hk, hen⟩ := functionDisable_firmware he h
    refine completes_of_live rfl hl ⟨by rwa [settle_flag], ?_⟩
    rw [settle_fst, hk.fst]
    exact fnDisable_stops (by rwa [Dev.fst, (keeps false).1])
  · obtain ⟨hk, hen⟩ := functionDisable_firmware he h
    obtain ⟨hfw, hfnm, -⟩ := keeps false
    have hd := fnDisable_waking ((congrArg FWord.state hfw).trans hf) (hfnm ▸ hw)
    refine completes_of_live rfl hl ⟨by rwa [settle_flag], ?_⟩
    rw [settle_fst, settle_fw, hk.fst, hk.word, Dev.fst, hd]
    exact ⟨(congrArg FWord.state hfw).trans hf, rfl, rfl⟩
  · exact completes_of_live rfl hl (enableWrite_refused he hep ho hlen (on := true) h)
  · exact completes_of_live rfl hl (enableWrite_refused he hep ho hlen (on := false) h)

end Sys2Proof.Machine
end

section
/-!
PROOFS. The ends of WAKING and STOPPING: R30.
-/

namespace Sys2Proof.Machine

/-! ### Memory: only a channel's passage to WAKING clears any -/

@[simp] theorem fnMem_memFree (f : Fn) (u : FnMem → FnMem) : (fnMem f u).Acts Prim.MemFree := trivial

theorem fnFault_memFree (f : Fn) (code : Nat) : (fnFault f code).Acts Prim.MemFree := by
  simp [fnFault, (quiet_histAdd _ _ _ _).memFree]

theorem fnWoken_memFree (f : Fn) : (fnWoken f).Acts Prim.MemFree := by
  simp [fnWoken, fnReachOn]

theorem fnStarted_memFree (f : Fn) : (fnStarted f).Acts Prim.MemFree := by
  cases f with
  | hbmCh n => exact fun d => (acts_doIf _ _).2 fun _ => memFree_fnUpd _ _
  | _ => exact (fnStarted_quiet (by simp)).memFree

theorem fnFaulted_memFree (f : Fn) : (fnFaulted f).Acts Prim.MemFree := by
  cases f with
  | hbmCh n => exact fnFault_memFree .hbm 1
  | _ => exact (fnFaulted_quiet (by simp)).memFree

/-- What follows a change of state clears memory only where a channel wakes. -/
theorem fnFollow_mem (was : FState) (d : Dev) (h : d.fst f = .waking → ∀ n, f ≠ .hbmCh n) :
    ((fnFollow f was).run d).mem = d.mem := by
  simp only [fnFollow, run_read]
  refine Prog.Acts.run_mem ?_ d
  simp only [acts_ite, acts_nop, acts_seq_cons, acts_doIf, acts_seq_nil, implies_true, true_and, and_true]
  refine fun _ => ⟨fun _ => (fnUnfaulted_quiet f).memFree, fun _ => (fnLeft_quiet f).memFree, ?_⟩
  split
  · next hw => exact (fnWaking_quiet (h hw)).memFree
  · exact fnStarted_memFree f
  · exact fnFaulted_memFree f
  · exact (fnRests_quiet f).memFree
  · refine (acts_seq_cons _ _).2 ⟨(quiet_fnStreamsDrain f).memFree, (acts_seq_cons _ _).2 ⟨?_, acts_seq_nil⟩⟩
    split
    · exact (quiet_intakeEnd _).memFree
    · exact quiet_dpllReinit.memFree
    · exact acts_nop

theorem fnStep_mem {p : Prog} (hp : p.Acts Prim.MemFree) (d : Dev) (h : (p.run d).fst f = .waking → ∀ n, f ≠ .hbmCh n) :
    ((fnStep f p).run d).mem = d.mem := by
  rw [fnStep_run, fnFollow_mem _ _ h, hp.run_mem]

/-- A time base's change of state takes its OTGs with it, none of which clears memory. -/
theorem portStep_tb_mem (n : Fin 4) {p : Prog} (hp : p.Acts Prim.MemFree) (d : Dev) :
    ((portStep (.tb n) p).run d).mem = d.mem := by
  have cascade : ∀ (l : List (Fin 32)) (e : Dev),
      ((each l fun k => fnStep (.otg k) (fnFault (.otg k) 0x02)).run e).mem = e.mem := by
    intro l
    induction l with
    | nil => exact fun e => rfl
    | cons k l ih =>
      intro e
      rw [each, List.map_cons, run_seq_cons, ← each, ih, fnStep_mem (fnFault_memFree _ _) _ (by simp)]
  have hf := fnStep_mem (f := .tb n) hp d (by simp)
  simp only [portStep, run_read, run_seq_cons, run_seq_nil, run_doIf, run_nop, ite_self]
  split
  · rw [cascade, hf]
  · exact hf

/-! ### The end of WAKING -/

/-- At the end of WAKING a function reaches ON, or stops where a disable is recorded. -/
theorem fnWoken_fw (f : Fn) (d : Dev) :
    let w := ((fnWoken f).run d).fw f
    if (d.fw f).pendOff then w.state = .stopping ∧ w.pendOff = false
    else w.state = .on ∧ w.pendOn = false ∧ w.pendOff = false := by
  simp only [fnWoken, run_read]
  split
  · simp only [run_seq_cons, run_seq_nil]
    rw [fnUpd_fw_keep rfl rfl]
    exact ⟨rfl, rfl⟩
  · simp only [fnReachOn, run_read, run_seq_cons, run_seq_nil, fnMem_fw]
    rw [fnUpd_fw]
    · exact ⟨rfl, rfl, rfl⟩
    · dsimp only
      split
      · omega
      · exact FWord.decode_rung _
    · exact FWord.decode_code _

theorem fnWoken_reg_guarded (f : Fn) (d : Dev) {r : Reg} (h : r.kind ∈ guardedKinds) :
    ((fnWoken f).run d).reg r = d.reg r := by
  simp only [fnWoken, fnReachOn, run_read]
  split <;> simp [fnUpd_reg f _ _ (guardedKinds_not_fstate h)]

theorem fnWoken_fst_ne_waking (f : Fn) (d : Dev) : ((fnWoken f).run d).fst f ≠ .waking := by
  have h := fnWoken_fw f d
  dsimp only at h
  rw [Dev.fst]
  split at h <;> simp [h.1]

/-- The function's configuration gives no fault, or can give none, and it waits for no other. -/
def Dev.plain (d : Dev) (f : Fn) : Prop :=
  (∃ n, f = .tb n ∧ d.fld (F.TB_CTRL_mode n) = 0) ∨ f = .dpll ∨ (∃ n, f = .hbmCh n) ∨ f = .mtx ∨ (∃ n, f = .ring n) ∨
    f = .pwr ∨ f = .boot

/-- Nothing holds up the initialisation of such a function. -/
theorem fnInit_plain {d : Dev} {f : Fn} (h : d.plain f) (hw : d.fst f = .waking) :
    (fnInit f).run d = (fnGo f (fnWoken f)).run d := by
  have free : f ≠ .hbm ∧ fnReserve f = .nop ∧ d.fnConfigFault f = none ∧ d.fnMustWait f = false := by
    rcases h with ⟨n, rfl, h0⟩ | rfl | ⟨n, rfl⟩ | rfl | ⟨n, rfl⟩ | rfl | rfl
    · exact ⟨by simp, rfl, by simp [Dev.fnConfigFault, h0], rfl⟩
    all_goals exact ⟨by simp, rfl, rfl, rfl⟩
  obtain ⟨hh, hr, hc, hm⟩ := free
  simp [fnInit, hw, hh, hr, hc, hm]

theorem fnGo_woken_mem {d : Dev} {f : Fn} (h : d.plain f) : ((fnGo f (fnWoken f)).run d).mem = d.mem := by
  have step : ((fnStep f (fnWoken f)).run d).mem = d.mem :=
    fnStep_mem (fnWoken_memFree f) d fun hw => absurd hw (fnWoken_fst_ne_waking f d)
  rcases h with ⟨n, rfl, -⟩ | rfl | ⟨n, rfl⟩ | rfl | ⟨n, rfl⟩ | rfl | rfl
  · exact portStep_tb_mem n (fnWoken_memFree _) d
  all_goals exact step

/-- Routing is looked at only while start-up sets it. -/
theorem routingCheck_nop {d : Dev} (h : d.fld F.BOOT_STATUS_phase ≠ 8) : routingCheck.run d = d := by
  simp [routingCheck, h]

/-- Settles O8: the end of WAKING is the function's own script, and what follows keeps the function and memory. -/
theorem initialisationEndsWaking : Obligations.InitialisationEndsWaking := by
  intro f s hl hw hp hf
  have hk := fnGo_keepsFn f (fnWoken f) s.dev
  have hphase : ((fnGo f (fnWoken f)).run s.dev).fld F.BOOT_STATUS_phase ≠ 8 := by
    rwa [Dev.fld, Dev.rd, hk.phase, fnWoken_reg_guarded f s.dev (by simp [guardedKinds])]
  have hrun : (seq [fnInit f, routingCheck]).run s.dev = (fnGo f (fnWoken f)).run s.dev := by
    rw [run_seq_cons, run_seq_cons, run_seq_nil, fnInit_plain hf hw, routingCheck_nop hphase]
  have hend := fnWoken_fw f s.dev
  refine completes_of_live rfl hl ?_
  rw [hrun]
  refine ⟨fun a => ?_, ?_⟩
  · rw [settle_mem, fnGo_woken_mem hf]
  · rw [settle_fst, settle_fw, hk.fst, hk.word]
    exact hend

/-! ### The end of STOPPING -/

/-- A drained function is OFF, asleep where a sleep request was recorded, or wakes where an enable was recorded. -/
theorem fnDrained_fw (f : Fn) (d : Dev) :
    let w := ((fnDrained f).run d).fw f
    (((fnDrained f).run d).fnm f).sleepReq = false ∧
    if (d.fw f).pendOn then w.state = .waking ∧ w.pendOn = false
    else w.state = .off ∧ w.asleep = (d.fnm f).sleepReq := by
  simp only [fnDrained, run_read, run_seq_cons, run_seq_nil, fnMem_self, fnMem_fw, true_and]
  split
  · rw [fnUpd_fw_keep rfl rfl]
    exact ⟨rfl, rfl⟩
  · rw [fnUpd_fw_keep rfl rfl]
    exact ⟨rfl, rfl⟩

/-- Settles O9: a completed drain disturbs no function, and the function then leaves STOPPING by its own script. -/
theorem drainEndsStopping : Obligations.DrainEndsStopping := by
  intro f s hl hst hidle
  have hdrain := (quiet_fnStreamsDrain f).keepsFn f s.dev
  have hspare := (quiet_sramSpare f).keepsFn f ((fnStreamsDrain f).run s.dev)
  have hbefore := hdrain.trans hspare
  have hrun : (fnDrain f).run s.dev =
      (fnGo f (fnDrained f)).run ((sramSpare f).run ((fnStreamsDrain f).run s.dev)) := by
    simp [fnDrain, hst, hidle]
  have hk := fnGo_keepsFn f (fnDrained f) ((sramSpare f).run ((fnStreamsDrain f).run s.dev))
  have hend := fnDrained_fw f ((sramSpare f).run ((fnStreamsDrain f).run s.dev))
  rw [hbefore.word, hbefore.held] at hend
  refine completes_of_live rfl hl ?_
  rwa [hrun, settle_fnm, settle_fst, settle_fw, hk.held, hk.fst, hk.word]

end Sys2Proof.Machine
end

section
/-!
PROOFS. Faults of functions and their re-initialisation: R30, R33, R541.
-/

namespace Sys2Proof.Machine

/-! ### A fault's own operations -/

section
variable {f : Fn} {d : Dev}

/-- The fault of a function that wakes or is ON enters FAULT with its code and shows its block. -/
theorem fnFault_enters (code : Nat) (h : d.fst f = .waking ∨ d.fst f = .on) :
    let e := (fnFault f code).run d
    e.fst f = .fault ∧ (e.fw f).code = code % 256 ∧ e.flag (faultShown f) = true ∧
      d.x.boot.histSeq < e.x.boot.histSeq ∧ (e.fnm f).reinits = (d.fnm f).reinits ∧ e.enabled f = d.enabled f := by
  have hs := showFault_spares f f
  have he : (d.fst f == .waking || d.fst f == .on) = true := by simpa using h
  simp only [fnFault, run_read, he, run_seq_cons, run_seq_nil, run_doIf, if_true]
  rw [show (⟨R.GLB_FAULT_STATUS, fnBlock f, 1⟩ : Field) = faultShown f from rfl, (hs _).fst, (hs _).word, (hs _).held,
    (hs _).enabled, Dev.fst, fnUpd_fw _ _ _ (FWord.decode_rung _) (Nat.mod_lt _ (by decide))]
  refine ⟨rfl, rfl, setB_flag_self (faultShown f) true _ (faultShown_within f) rfl, ?_, by simp, by simp⟩
  refine lt_of_lt_of_le (Nat.lt_succ_self _) (le_trans (le_of_eq ?_) (hs _).hist)
  simp [fnUpd, histAdd, fnMem]

/-- The fault of a function in another state enters the alarm history only. -/
theorem fnFault_records (code : Nat) (h : ¬ (d.fst f = .waking ∨ d.fst f = .on)) :
    (fnFault f code).run d = (histAdd 1 (fnBlock f) (fnInst f) (code % 256)).run d := by
  have he : (d.fst f == .waking || d.fst f == .on) = false := by simpa using h
  simp [fnFault, he]

/-- Re-initialisation of a function in FAULT stops it; it wakes again exactly if it is enabled. -/
theorem fnReinit_fault (h : d.fst f = .fault) :
    let e := (fnReinit f).run d
    e.fst f = .stopping ∧ (e.fw f).pendOn = d.enabled f := by
  simp only [fnReinit, run_read, h, run_seq_cons, run_seq_nil]
  rw [Dev.fst, fnUpd_fw_keep rfl rfl]
  exact ⟨rfl, rfl⟩

/-- Rung 2 of a function in FAULT that has not been re-initialised re-initialises it. -/
theorem fnEscalate_fault (h : d.fst f = .fault) (hr : (d.fnm f).reinits = []) :
    let e := (fnEscalate f).run d
    e.fst f = .stopping ∧ (e.fw f).pendOn = d.enabled f := by
  simp only [fnEscalate, run_read, hr, counted, List.length_nil]
  exact fnReinit_fault (by rwa [fnMem_fst])

end

/-! ### A script that leaves the function's state brings nothing with it -/

section
variable {f : Fn} {p : Prog} {d : Dev} (h : (p.run d).fst f = d.fst f)
include h

theorem fnStep_of_fst : (fnStep f p).run d = p.run d := by
  simp [fnStep_run, fnFollow, h]

theorem flowStep_of_fst : (flowStep f p).run d = p.run d := by
  simp [flowStep, fnStep_of_fst h, h]

theorem portStep_of_fst : (portStep f p).run d = p.run d := by
  simp [portStep, fnStep_of_fst h, h, Dev.on]

theorem laneStep_of_fst : (laneStep_ f p).run d = p.run d := by
  simp [laneStep_, fnStep_of_fst h, h]

theorem quadStep_of_fst : (quadStep f p).run d = p.run d := by
  simp [quadStep, fnStep_of_fst h, h]

theorem fnGo_of_fst : (fnGo f p).run d = p.run d := by
  unfold fnGo
  split
  · exact quadStep_of_fst h
  · exact laneStep_of_fst h
  iterate 6 exact portStep_of_fst h
  iterate 2 exact flowStep_of_fst h
  · exact fnStep_of_fst h

end

theorem flag_eq_bitOf {g : Field} (h : g.width = 1) (d : Dev) : d.flag g = bitOf (d.rd g.reg) g.lo := by
  simp [Dev.flag, Dev.fld, bitsOf, bitOf, h]

/-- Without a waiting escalation nothing is done about one. -/
theorem escalDo_nop {d : Dev} (h : d.x.escal = []) : escalDo.run d = d := by
  simp [escalDo, h]

/-- Settles O10: a fault enters from WAKING and ON and is only recorded elsewhere, and what follows keeps the function; rung
2 is the function's own script once more. -/
theorem faultsEnterOnlyFromWakingAndOn : Obligations.FaultsEnterOnlyFromWakingAndOn := by
  intro f code s hl hesc
  have hk := fnGo_keepsFn f (fnFault f code) s.dev
  refine ⟨completes_of_live (p := functionFault f code false) rfl hl ?_, fun h hr => completes_of_live rfl hl ?_⟩
  · have hrun : (functionFault f code false).run s.dev = escalDo.run ((fnGo f (fnFault f code)).run s.dev) := rfl
    rw [hrun]
    split
    · next h =>
      obtain ⟨hst, hcode, hshown, hhist, -⟩ := fnFault_enters code h
      have hk := hk.trans (quiet_escalDo.keepsFn f _)
      rw [settle_fst, settle_fw, settle_rd, settle_boot, hk.fst, hk.word]
      exact ⟨hst, hcode, (flag_eq_bitOf rfl _).symm.trans (hk.shown hshown), lt_of_lt_of_le hhist hk.hist⟩
    · next h =>
      have hrec := fnFault_records code h
      rw [fnGo_of_fst (by rw [hrec]; rfl), hrec, settle_fw, settle_boot]
      rw [escalDo_nop (d := (histAdd _ _ _ _).run s.dev) hesc]
      exact ⟨rfl, rfl⟩
  · obtain ⟨hst, -, -, -, hre, hen⟩ := fnFault_enters code h
    have hrun : (functionFault f code true).run s.dev =
        escalDo.run ((fnGo f (doWhen (fun d => d.fst f == .fault) (fnEscalate f))).run ((fnGo f (fnFault f code)).run s.dev)) := rfl
    have hk' := (fnGo_keepsFn f (doWhen (fun d => d.fst f == .fault) (fnEscalate f)) ((fnGo f (fnFault f code)).run s.dev)).trans
      (quiet_escalDo.keepsFn f _)
    have hf := hk.fst.trans hst
    have hend := fnEscalate_fault hf ((congrArg FnMem.reinits hk.held).trans (hre.trans hr))
    rw [hrun, settle_fst, settle_fw, hk'.fst, hk'.word, run_doWhen, if_pos (by simp [hf])]
    rwa [hk.enabled, hen] at hend

/-! ### Sleeping lanes (R32, R295) -/

theorem laneFn_val (l : LaneId) : laneFn l = .lane l := by simp [laneFn]

theorem laneSignal_within (l : LaneId) : (F.LANE_STATUS_signal l).within = true :=
  Field.within_of_hasBits (Reg.valid_indexed rfl l.isLt) (show hasBits .LANE_STATUS 5 1 = true by decide)

theorem laneWaking_signal (l : LaneId) (d : Dev) :
    ((laneWaking l).run d).flag (F.LANE_STATUS_signal l) = d.flag (F.LANE_STATUS_signal l) := by
  simp only [laneWaking, run_read, run_seq_cons, run_seq_nil]
  exact congrArg (· == 1) (setF_fld_apart (f := F.LANE_STATUS_asleep l) 0 _ rfl (laneSignal_within l)
    (.inr (show 2 ≤ 5 by decide)))

/-- A sleeping lane that is enabled wakes, and what it shows of the far end's signal stays. -/
theorem laneWake_run {l : LaneId} {d : Dev} (h : d.fst (.lane l) = .off) (ha : (d.fw (.lane l)).asleep = true)
    (he : d.flag (F.LANE_CTRL_enable l) = true) :
    let e := (laneWake l).run d
    e.fst (.lane l) = .waking ∧ (e.fw (.lane l)).asleep = false ∧
      e.flag (F.LANE_STATUS_signal l) = d.flag (F.LANE_STATUS_signal l) := by
  have hrun : (laneWake l).run d =
      (laneUpd l fun m => { m with woke := true }).run ((laneWaking l).run ((fnUpd (.lane l) fun w =>
        { w with state := .waking, asleep := false }).run d)) := by
    simp [laneWake, fnWake, laneFn_val, he, h, ha]
  rw [hrun]
  have hk := ((quiet_laneWaking l).keepsFn (.lane l) ((fnUpd (.lane l) fun w =>
    { w with state := .waking, asleep := false }).run d)).trans
    ((quiet_laneUpd l fun m => { m with woke := true }).keepsFn (.lane l) _)
  dsimp only
  rw [hk.fst, hk.word, fnUpd_fst_keep rfl rfl, fnUpd_fw_keep rfl rfl]
  refine ⟨rfl, rfl, (laneWaking_signal l _).trans ?_⟩
  simp only [Dev.flag, Dev.fld, Dev.rd, fnUpd_reg (.lane l) d _ (show isFstate (F.LANE_STATUS_signal l).reg.kind = false from rfl)]

/-- What follows the wake of a lane is its wake's own start. -/
theorem laneGo_run {l : LaneId} {p : Prog} {d : Dev} (h : d.fst (.lane l) = .off) (hp : (p.run d).fst (.lane l) = .waking) :
    (fnGo (.lane l) p).run d = (laneWaking l).run (p.run d) := by
  have hstep : (fnStep (.lane l) p).run d = (laneWaking l).run (p.run d) := by
    simp [fnStep_run, fnFollow, h, hp, fnWaking]
  have hk := (quiet_laneWaking l).keepsFn (.lane l) (p.run d)
  simp [fnGo, laneStep_, hstep, hk.fst, hp]

/-- An idle lane that may sleep stops with a sleep request. -/
theorem laneSleep_go {l : LaneId} {d : Dev} (h : d.fst (.lane l) = .on) (hs : d.flag (F.LANE_CTRL_sleep_ok l) = true)
    (hi : d.laneIdle l = true) :
    let e := (fnGo (.lane l) (laneSleep l)).run d
    e.fst (.lane l) = .stopping ∧ (e.fnm (.lane l)).sleepReq = true ∧ e.enabled (.lane l) = d.enabled (.lane l) := by
  have hu := (quiet_laneUpd l fun m => { m with woke := false }).keepsFn (.lane l) d
  have hon : ((laneUpd l fun m => { m with woke := false }).run d).on (.lane l) = true := by
    rw [Dev.on, hu.fst, h]
    rfl
  have hk := fnGo_keepsFn (.lane l) (laneSleep l) d
  dsimp only
  rw [hk.fst, hk.held, hk.enabled]
  simp only [laneSleep, run_doWhen, hs, hi, Bool.and_self, if_true, run_seq_cons, run_seq_nil, fnSleep, laneFn_val, hon]
  rw [fnUpd_fst_keep rfl rfl]
  simpa using hu.enabled

/-- A sleeping lane that is enabled wakes with all that follows. -/
theorem laneWake_go {l : LaneId} {d : Dev} (h : d.fst (.lane l) = .off) (ha : (d.fw (.lane l)).asleep = true)
    (he : d.flag (F.LANE_CTRL_enable l) = true) :
    let e := (fnGo (.lane l) (laneWake l)).run d
    e.fst (.lane l) = .waking ∧ (e.fw (.lane l)).asleep = false ∧
      e.flag (F.LANE_STATUS_signal l) = d.flag (F.LANE_STATUS_signal l) := by
  obtain ⟨hst, has, hsig⟩ := laneWake_run h ha he
  have hk := fnGo_keepsFn (.lane l) (laneWake l) d
  dsimp only
  rw [hk.fst, hk.word, laneGo_run h hst, laneWaking_signal, hsig]
  exact ⟨hst, has, rfl⟩

/-- Settles O11: the lane's own script wakes it or puts it to sleep, and what follows keeps the lane. -/
theorem lanesSleepAndWake : Obligations.LanesSleepAndWake := by
  intro l s hl
  refine ⟨fun h ha he => ⟨completes_of_live (p := laneRouse l .farSignal) rfl hl ?_,
    fun hst => completes_of_live (p := laneRouse l .stageLeft) rfl hl ?_⟩, fun h hw hst hs hi => completes_of_live rfl hl ?_⟩
  · have hrun : (laneRouse l .farSignal).run s.dev =
        (fnGo (.lane l) (laneWake l)).run ((setF (F.LANE_STATUS_signal l) 1).run s.dev) := by
      simp [laneRouse, h, ha]
    have hk := ((quiet_setF (F.LANE_STATUS_signal l) 1).2 (by simp [guardedKinds])).keepsFn (.lane l) s.dev
    obtain ⟨hw, has, hsig⟩ := laneWake_go (hk.fst.trans h) ((congrArg FWord.asleep hk.word).trans ha) (hk.enabled.trans he)
    rw [hrun, settle_fst, settle_fw, settle_flag]
    exact ⟨hw, has, hsig.trans (setB_flag_self _ true _ (laneSignal_within l) rfl)⟩
  · have hrun : (laneRouse l .stageLeft).run s.dev = (fnGo (.lane l) (laneWake l)).run s.dev := by
      simp [laneRouse, h, ha, hst]
    obtain ⟨hw, has, -⟩ := laneWake_go h ha he
    rw [hrun, settle_fst, settle_fw]
    exact ⟨hw, has⟩
  · have hon : s.dev.on (.lane l) = true := by simp [Dev.on, h]
    have hend := laneSleep_go h hs hi
    rw [run_doWhen, if_pos (by simp [hon, hw, hst]), settle_fst, settle_fnm, settle_flag]
    exact hend

end Sys2Proof.Machine
end

section
/-!
PROOFS. Frames of scripts: the registers a script can write, and what it leaves of the typed state.
-/

namespace Sys2Proof.Machine

/-- The action writes no register but those named, and no memory. -/
def Prim.Writes (but : Reg → Prop) : Prim → Prop
  | .wr r _ => but r
  | .fstate r _ => but r
  | .ext _ => True
  | _ => False

/-- The script writes no register but those named, and no memory. -/
abbrev Prog.Writes (but : Reg → Prop) (p : Prog) : Prop := p.Acts (Prim.Writes but)

/-- The action leaves what `π` shows of the typed state, and memory. -/
def Prim.Fixes {α : Type} (π : Ext → α) : Prim → Prop
  | .wr _ _ => True
  | .ext g => ∀ x, π (g x) = π x
  | .fstate _ _ => True
  | .regReset _ => True
  | _ => False

/-- The script leaves what `π` shows of the typed state, and memory. -/
abbrev Prog.Fixes {α : Type} (π : Ext → α) (p : Prog) : Prop := p.Acts (Prim.Fixes π)

section
variable {but : Reg → Prop} {α : Type} {π : Ext → α}

theorem Prog.Writes.keepsRegs {p : Prog} (h : p.Writes but) (d : Dev) : KeepsRegs d (p.run d) but := by
  refine h.run_rel (R := fun d e => KeepsRegs d e but) (fun _ _ _ => rfl) (fun h g r hr => (g r hr).trans (h r hr))
    (fun q d hq r hr => ?_) d
  have hne : ∀ s, but s → r ≠ s := fun s hs e => hr (e ▸ hs)
  cases q with
  | wr s v => exact wr_reg_other v d (hne s hq)
  | ext g => rfl
  | fstate s w =>
    rw [Prim.apply]
    split
    · simp [Dev.reg, hne s hq]
    · rfl
  | regReset P => exact hq.elim
  | mem a bs => exact hq.elim
  | memZero P => exact hq.elim

theorem Prog.Writes.widen {but' : Reg → Prop} {p : Prog} (h : p.Writes but) (hb : ∀ r, but r → but' r) : p.Writes but' := by
  refine Prog.Acts.mono (fun q hq => ?_) h
  cases q with
  | wr r v => exact hb r hq
  | fstate r w => exact hb r hq
  | ext g => trivial
  | regReset P => exact hq.elim
  | mem a bs => exact hq.elim
  | memZero P => exact hq.elim

theorem Prog.Writes.fld {p : Prog} (h : p.Writes but) {f : Field} (hr : ¬ but f.reg) (d : Dev) : (p.run d).fld f = d.fld f := by
  rw [Dev.fld, Dev.rd, h.keepsRegs d _ hr, Dev.fld, Dev.rd]

theorem Prog.Writes.flag {p : Prog} (h : p.Writes but) {f : Field} (hr : ¬ but f.reg) (d : Dev) :
    (p.run d).flag f = d.flag f := by
  rw [Dev.flag, h.fld hr, Dev.flag]

theorem Prog.Writes.memFree {p : Prog} (h : p.Writes but) : p.Acts Prim.MemFree :=
  h.mono fun q hq => by cases q <;> trivial

theorem Prog.Fixes.proj {p : Prog} (h : p.Fixes π) (d : Dev) : π (p.run d).x = π d.x := by
  refine h.run_rel (R := fun d e => π e.x = π d.x) (fun _ => rfl) (fun h g => g.trans h) (fun q d hq => ?_) d
  cases q with
  | wr s v => exact congrArg π (wr_x s v d)
  | ext g => exact hq d.x
  | fstate s w =>
    rw [Prim.apply]
    split <;> rfl
  | regReset P => rfl
  | mem a bs => exact hq.elim
  | memZero P => exact hq.elim

@[simp] theorem writes_wr (r : Reg) (v : Nat) : (wr r v).Writes but ↔ but r := .rfl
@[simp] theorem writes_setF (f : Field) (v : Nat) : (setF f v).Writes but ↔ but f.reg := ⟨fun h => h {}, fun h _ => h⟩
@[simp] theorem writes_setB (f : Field) (b : Bool) : (setB f b).Writes but ↔ but f.reg := writes_setF f _
@[simp] theorem writes_inc (r : Reg) : (inc r).Writes but ↔ but r := ⟨fun h => h {}, fun h _ => h⟩
@[simp] theorem writes_ext (g : Ext → Ext) : (ext g).Writes but := trivial
@[simp] theorem writes_histAdd (k b i c : Nat) : (histAdd k b i c).Writes but := fun _ => trivial
@[simp] theorem writes_fnUpd (f : Fn) (g : FWord → FWord) : (fnUpd f g).Writes but ↔ but (fnReg f) :=
  ⟨fun h => h {}, fun h _ => h⟩
@[simp] theorem writes_fnMem (f : Fn) (u : FnMem → FnMem) : (fnMem f u).Writes but := trivial
theorem writes_raise {f : Field} (h : but f.reg) : (raise f).Writes but := by
  simp only [raise, acts_read, acts_ite, acts_nop, acts_seq_cons, writes_setF, h]
  intro d
  refine ⟨fun _ => trivial, fun _ => ⟨trivial, ?_⟩⟩
  split <;> simp

@[simp] theorem fixes_wr (r : Reg) (v : Nat) : (wr r v).Fixes π := trivial
@[simp] theorem fixes_setF (f : Field) (v : Nat) : (setF f v).Fixes π := fun _ => trivial
@[simp] theorem fixes_setB (f : Field) (b : Bool) : (setB f b).Fixes π := fun _ => trivial
@[simp] theorem fixes_inc (r : Reg) : (inc r).Fixes π := fun _ => trivial
@[simp] theorem fixes_ext (g : Ext → Ext) : (ext g).Fixes π ↔ ∀ x, π (g x) = π x := .rfl

/-- Raising an alarm leaves what an entry of the alarm history leaves. -/
theorem fixes_raise (f : Field) (h : ∀ k b i c, (histAdd k b i c).Fixes π) : (raise f).Fixes π := by
  simp only [raise, acts_read, acts_ite, acts_nop, acts_seq_cons, fixes_setF]
  intro d
  refine ⟨fun _ => trivial, fun _ => ⟨trivial, ?_⟩⟩
  split <;> simp [h]

end

end Sys2Proof.Machine
end

section
/-!
PROOFS. Resets and what survives them: R33, R34, R457, R502 to R507, R516.
-/

namespace Sys2Proof.Machine

@[simp] theorem settle_pwr (d : Dev) : (settle.run d).x.pwr = d.x.pwr := by
  obtain ⟨-, -, hx⟩ := settle_same d
  rw [hx]

/-- A command of the island of an awake device completes, and what its settled script reaches is its device. -/
theorem completes_of_awake {i : Instr} {p : Prog} {s : State} {P : Dev → Prop} (hi : exec i s = perform .island p s)
    (ha : s.dev.x.pwr.awake = true) (hP : P (settle.run (p.run s.dev))) : Completes i s P :=
  ⟨_, hi.trans (perform_acts ha), rfl, hP⟩

/-! ### What a reset writes before and after the domains lose their state -/

/-- The registers a reset writes before the domains lose their state. -/
def writtenBefore (r : Reg) : Prop :=
  r.kind ∈ [RK.BOOT_MRAM_STATUS, .BOOT_MRAM_WEAR, .BOOT_MRAM_RATE, .PWR_REPLACE, .PWR_REPLACE_FIRST, .PWR_STATUS, .PWR_ALARM,
    .GLB_STATUS, .TWIN_STATUS]

/-- The registers a reset writes afterwards: those of the island, and the phase. -/
def writtenAfter (r : Reg) : Prop := islandReg r.kind = true ∨ r = R.BOOT_STATUS

theorem replaceSet_writes (code : Nat) : (replaceSet code).Writes
    fun r => r.kind ∈ [RK.PWR_REPLACE, .PWR_REPLACE_FIRST, .PWR_STATUS, .PWR_ALARM] := by
  simp [replaceSet, writes_raise]

theorem mramFlush_writes : mramFlush.Writes writtenBefore := by
  have hs : (replaceSet 9).Writes writtenBefore :=
    (replaceSet_writes 9).widen fun r hr => by simp only [writtenBefore, List.mem_cons] at hr ⊢; tauto
  simp [mramFlush, mramWritePages, bootUpd, hs, writtenBefore]

theorem roleDrop_writes : roleDrop.Writes fun r => r = R.GLB_STATUS ∨ r = R.TWIN_STATUS := by
  simp [roleDrop, roleSync, pwrUpd]

/-! ### Before the domains lose their state -/

/-- What no script before the reset of the domains changes of the typed state. -/
def survives (x : Ext) : Fuses × Option (KV Nat) × PwrState := (x.boot.fuses, x.boot.flash, { x.pwr with roleActive := false })

theorem replaceSet_fixes {α : Type} {π : Ext → α} (h : ∀ k b i c, (histAdd k b i c).Fixes π) (code : Nat) :
    (replaceSet code).Fixes π := by
  simp [replaceSet, fixes_raise _ h]

theorem mramWritePages_fixes {α : Type} {π : Ext → α} (h : ∀ k b i c, (histAdd k b i c).Fixes π)
    (hb : ∀ x a b c, π { x with boot := { x.boot with pagesFree := a, pagesEver := b, pageWrites := c } } = π x) (n : Nat) :
    (mramWritePages n).Fixes π := by
  simp [mramWritePages, bootUpd, replaceSet_fixes h, hb]

theorem mramFlush_fixes : mramFlush.Fixes survives := by
  have hp := mramWritePages_fixes (π := survives) (by simp [histAdd, survives]) (by simp [survives])
  simp [mramFlush, bootUpd, survives] at hp ⊢
  simp [hp]

/-- Outside FAULT of the boot function the open window reaches MRAM. -/
theorem mramFlush_written {d : Dev} (h : d.fst .boot ≠ .fault) :
    ∀ e ∈ d.x.boot.window, e ∈ (mramFlush.run d).x.boot.mram := by
  intro e he
  have hne : d.x.boot.window.isEmpty = false := by
    cases hw : d.x.boot.window with
    | nil => simp [hw] at he
    | cons a l => rfl
  have hdue : (!d.x.boot.window.isEmpty && !(d.fst .boot == .fault && (d.fw .boot).code == 2)) = true := by simp [h, hne]
  rw [mramFlush, run_read, run_doIf, if_pos hdue, run_seq_cons, run_seq_cons, run_seq_nil]
  have hp := (mramWritePages_fixes (π := fun x => x.boot.mram) (by simp [histAdd]) (by simp)
    (mramPages (d.x.boot.window.map (·.2)))).proj
  rw [hp]
  exact List.mem_append_right _ he

theorem roleSync_x (d : Dev) : (roleSync.run d).x = { d.x with pwr := { d.x.pwr with roleActive := d.roleOut } } := by
  rw [roleSync, run_read, run_seq_cons, run_seq_cons, run_seq_nil, setB_x, pwrUpd_x]

theorem roleDrop_role (d : Dev) : (roleDrop.run d).x.pwr.roleActive = false := by
  have hr : ((setB F.GLB_STATUS_routing false).run d).flag F.GLB_STATUS_routing = false :=
    setB_flag_self _ false d (by decide) rfl
  rw [roleDrop, run_seq_cons, run_seq_cons, run_seq_nil, roleSync_x]
  simp only [Dev.roleOut, hr, Bool.and_false, Bool.false_and]

theorem roleDrop_fixes : roleDrop.Fixes survives := by
  simp [roleDrop, roleSync, pwrUpd, survives]

/-- A device as the reset of the domains finds it: ROLE_ACTIVE is low, and what survives is as it was. -/
structure Ready (d e : Dev) : Prop where
  regs : KeepsRegs d e writtenBefore
  kept : survives e.x = survives d.x
  role : e.x.pwr.roleActive = false

theorem ready_of_roleDrop {p : Prog} (hw : p.Writes writtenBefore) (hx : p.Fixes survives) (d : Dev) :
    Ready d (roleDrop.run (p.run d)) where
  regs r hr := by
    have hrole : ¬ (r = R.GLB_STATUS ∨ r = R.TWIN_STATUS) := by
      rintro (rfl | rfl) <;> simp [writtenBefore] at hr
    exact (roleDrop_writes.keepsRegs _ r hrole).trans (hw.keepsRegs d r hr)
  kept := (roleDrop_fixes.proj _).trans (hx.proj d)
  role := roleDrop_role _

/-- The open window has reached MRAM, unless the boot function was in FAULT. -/
def Written (d e : Dev) : Prop := d.fst .boot ≠ .fault → ∀ w ∈ d.x.boot.window, w ∈ e.x.boot.mram

/-- Steps 1 and 2 of a warm reset or a power cycle (R506, R507): seconds and window are stored, the rung is recorded and the
role dropped. -/
def storeAndDrop (kind block inst code : Nat) : Prog := seq [htStore, mramFlush, histAdd kind block inst code, roleDrop]

theorem storeAndDrop_ready (kind block inst code : Nat) (d : Dev) :
    Ready d ((storeAndDrop kind block inst code).run d) := by
  refine ready_of_roleDrop (p := seq [htStore, mramFlush, histAdd kind block inst code]) ?_ ?_ d
  · simp [htStore, bootUpd, mramFlush_writes]
  · simp [htStore, bootUpd, mramFlush_fixes, histAdd, survives]

theorem storeAndDrop_written (kind block inst code : Nat) (d : Dev) :
    Written d ((storeAndDrop kind block inst code).run d) := by
  intro h w hw
  have hx : (seq [histAdd kind block inst code, roleDrop]).Fixes fun x => x.boot.mram := by
    simp [roleDrop, roleSync, pwrUpd, histAdd]
  have hrun : (storeAndDrop kind block inst code).run d =
      (seq [histAdd kind block inst code, roleDrop]).run (mramFlush.run (htStore.run d)) := by
    rw [storeAndDrop, run_seq_cons, run_seq_cons]
  rw [hrun, hx.proj]
  exact mramFlush_written (d := htStore.run d) h w hw

/-! ### The domains lose their state -/

theorem RegFile.get_filter_kind (P : Reg → Bool) (m : RegFile) (r : Reg) :
    RegFile.get (m.filter fun e => !P e.1) r = if P r then resetWord r else m.get r := by
  induction m with
  | nil => simp [RegFile.get]
  | cons e m ih =>
    obtain ⟨k, v⟩ := e
    by_cases hr : r = k
    · subst hr
      by_cases hp : P r <;> simp_all [RegFile.get]
    · by_cases hp : P k <;> simp_all [RegFile.get]

/-- The reset of the domains leaves the island's registers and gives every other its reset value; of the debug level only
the island's word changes. -/
theorem coreReset_reg (d : Dev) (r : Reg) (h : r ≠ R.PWR_DEBUG) :
    (coreReset.run d).reg r = if islandReg r.kind then d.reg r else resetWord r := by
  have hf := RegFile.get_filter_kind (fun r => !islandReg r.kind) d.regs r
  simp only [coreReset, run_seq_cons, run_seq_nil]
  rw [setF_reg_other 0 _ (show r ≠ F.PWR_DEBUG_level.reg from h)]
  change RegFile.get (d.regs.filter fun e => !!islandReg e.1.kind) r = _
  rw [hf]
  cases islandReg r.kind <;> rfl

theorem coreReset_island (d : Dev) {r : Reg} (h : r ≠ R.PWR_DEBUG) (hi : islandReg r.kind = true) :
    (coreReset.run d).reg r = d.reg r := by
  rw [coreReset_reg d r h, hi]
  rfl

theorem coreReset_mem (d : Dev) (a : Nat) : (coreReset.run d).mem.get a = 0 := by
  simp only [coreReset, run_seq_cons, run_seq_nil, setF_mem]
  change Memory.get (d.mem.filter fun _ => !true) a = 0
  simp [Memory.get]

theorem coreReset_x (d : Dev) : (coreReset.run d).x = d.x.coreReset := by
  simp only [coreReset, run_seq_cons, run_seq_nil, setF_x]
  rfl

/-- What a reset leaves: every register outside the island but the phase of start-up at its reset value, memory at 0, fuses
and flash as they were, ROLE_ACTIVE low and no window open. -/
structure Fresh (d t : Dev) : Prop where
  regs : ∀ r, islandReg r.kind = false → r ≠ R.BOOT_STATUS → t.reg r = resetWord r
  mem : ∀ a, t.mem.get a = 0
  fuses : t.x.boot.fuses = d.x.boot.fuses
  flash : t.x.boot.flash = d.x.boot.flash
  role : t.x.pwr.roleActive = false
  window : t.x.boot.window = []

/-- Once the domains have lost their state, scripts on the island leave the device fresh. -/
theorem Ready.fresh {d e : Dev} (h : Ready d e) {post : Prog} (hw : post.Writes writtenAfter)
    (hx : post.Fixes fun x => (x.boot, x.pwr.roleActive)) : Fresh d (post.run (coreReset.run e)) := by
  have hb := hx.proj (coreReset.run e)
  rw [coreReset_x] at hb
  obtain ⟨hboot, hrole⟩ := Prod.mk.inj hb
  obtain ⟨hfuses, hrest⟩ := Prod.mk.inj h.kept
  obtain ⟨hflash, -⟩ := Prod.mk.inj hrest
  refine ⟨fun r hi hr => ?_, fun a => ?_, ?_, ?_, ?_, ?_⟩
  · have hd : r ≠ R.PWR_DEBUG := by rintro rfl; cases hi
    rw [hw.keepsRegs _ r (by simp [writtenAfter, hi, hr]), coreReset_reg e r hd, hi]
    rfl
  · rw [hw.memFree.run_mem, coreReset_mem]
  · rw [hboot, ← hfuses]
    rfl
  · rw [hboot, ← hflash]
    rfl
  · rw [hrole, ← h.role]
    rfl
  · rw [hboot]
    rfl

theorem Written.after {d e : Dev} (h : Written d e) {post : Prog} (hx : post.Fixes fun x => (x.boot, x.pwr.roleActive)) :
    Written d (post.run (coreReset.run e)) := by
  have hb := hx.proj (coreReset.run e)
  rw [coreReset_x] at hb
  obtain ⟨hboot, -⟩ := Prod.mk.inj hb
  intro hf w hw
  rw [hboot]
  exact h hf w hw

end Sys2Proof.Machine
end

section
/-!
PROOFS. The resets and their causes: R34, R457, R502 to R507, R516.
-/

namespace Sys2Proof.Machine

/-! ### A warm reset (R506) -/

theorem run_seq_append (l m : List Prog) (d : Dev) : (seq (l ++ m)).run d = (seq m).run ((seq l).run d) := by
  induction l generalizing d with
  | nil => rfl
  | cons p l ih => rw [List.cons_append, run_seq_cons, ih, run_seq_cons]

/-- A reset records when it came. -/
def recordWarm : Prog :=
  seq [bootUpd fun b => { b with warmResets := b.warmResets.take 15 },
    .read fun d => bootUpd fun b => { b with warmResets := d.x.time.clk :: b.warmResets }]

/-- Start-up begins at phase ROM. -/
def romStart (cause : Nat) : Prog :=
  seq [wr R.BOOT_RESET_CAUSE cause, setF F.BOOT_STATUS_phase 1, enablePin 7 false, each [6, 7, 8] replaceClear]

/-- The device as a warm reset's loss of state finds it. -/
def Dev.beforeWarm (d : Dev) (cause : Nat) : Dev := recordWarm.run ((storeAndDrop 2 18 0 cause).run d)

theorem warmReset_run (cause : Nat) (d : Dev) :
    (warmReset cause).run d = (romStart cause).run (coreReset.run (d.beforeWarm cause)) := by
  rw [Dev.beforeWarm, storeAndDrop, recordWarm, romStart, ← run_seq_append, ← run_seq_cons, ← run_seq_append]
  rfl

theorem beforeWarm_ready (d : Dev) (cause : Nat) : Ready d (d.beforeWarm cause) := by
  obtain ⟨hr, hk, hrole⟩ := storeAndDrop_ready 2 18 0 cause d
  have hw : recordWarm.Writes fun _ => False := by simp [recordWarm, bootUpd]
  have hx : recordWarm.Fixes fun x => (survives x, x.pwr.roleActive) := by simp [recordWarm, bootUpd, survives]
  obtain ⟨hs, hact⟩ := Prod.mk.inj (hx.proj ((storeAndDrop 2 18 0 cause).run d))
  exact ⟨fun r h => (hw.keepsRegs _ r id).trans (hr r h), hs.trans hk, hact.trans hrole⟩

theorem beforeWarm_written (d : Dev) (cause : Nat) : Written d (d.beforeWarm cause) := by
  have hx : recordWarm.Fixes fun x => x.boot.mram := by simp [recordWarm, bootUpd]
  intro h w hw
  rw [Dev.beforeWarm, hx.proj]
  exact storeAndDrop_written 2 18 0 cause d h w hw

theorem replaceClear_writes (code : Nat) :
    (replaceClear code).Writes fun r => r = R.PWR_REPLACE ∨ r = R.PWR_STATUS := by
  simp [replaceClear]

theorem romStart_fixes (cause : Nat) {α : Type} (π : Ext → α) : (romStart cause).Fixes π := by
  simp [romStart, enablePin, replaceClear]

theorem romStart_writes (cause : Nat) : (romStart cause).Writes fun r =>
    r ∈ [R.BOOT_RESET_CAUSE, R.BOOT_STATUS, R.PWR_EN_STATUS, R.PWR_REPLACE, R.PWR_STATUS] := by
  simp [romStart, enablePin, replaceClear]

/-- The cause and the phase are shown. -/
theorem romStart_shows {cause : Nat} (h : cause < 8) (d : Dev) :
    ((romStart cause).run d).rd R.BOOT_RESET_CAUSE = cause ∧ ((romStart cause).run d).fld F.BOOT_STATUS_phase = 1 := by
  have hend : (seq [enablePin 7 false, each [6, 7, 8] replaceClear]).Writes fun r =>
      r ∈ [R.PWR_EN_STATUS, R.PWR_REPLACE, R.PWR_STATUS] := by simp [enablePin, replaceClear]
  have hcause : (seq [setF F.BOOT_STATUS_phase 1, enablePin 7 false, each [6, 7, 8] replaceClear]).Writes fun r =>
      r ∈ [R.BOOT_STATUS, R.PWR_EN_STATUS, R.PWR_REPLACE, R.PWR_STATUS] := by simp [enablePin, replaceClear]
  have hword : ∀ c < 8, (BitVec.ofNat 32 c &&& implMask R.BOOT_RESET_CAUSE).toNat = c := by decide
  constructor
  · rw [romStart, run_seq_cons, Dev.rd, hcause.keepsRegs _ _ (by simp), wr_reg_self _ _ _ rfl rfl, hword cause h]
  · rw [romStart, run_seq_cons, run_seq_cons, hend.fld (by simp), setF_fld_self _ _ _ (by decide)]
    rfl

/-- What a warm reset for a cause leaves. -/
structure Warm (cause : Nat) (d t : Dev) : Prop where
  fresh : Fresh d t
  written : Written d t
  phase : t.fld F.BOOT_STATUS_phase = 1
  cause : t.rd R.BOOT_RESET_CAUSE = cause
  live : t.live = true

theorem warmReset_warm {cause : Nat} (h : cause < 8) {d : Dev} (ha : d.x.pwr.awake = true) (hp : d.powered = true) :
    Warm cause d ((warmReset cause).run d) := by
  have hr := beforeWarm_ready d cause
  obtain ⟨hcause, hphase⟩ := romStart_shows h (coreReset.run (d.beforeWarm cause))
  rw [warmReset_run]
  refine ⟨hr.fresh ((romStart_writes cause).widen fun r hr => ?_) (romStart_fixes cause _),
    (beforeWarm_written d cause).after (romStart_fixes cause _), hphase, hcause, ?_⟩
  · simp only [List.mem_cons, List.not_mem_nil, or_false] at hr
    rcases hr with rfl | rfl | rfl | rfl | rfl
    exacts [.inl rfl, .inr rfl, .inl rfl, .inl rfl, .inl rfl]
  · have hpwr := (romStart_fixes cause fun x => x.pwr).proj (coreReset.run (d.beforeWarm cause))
    obtain ⟨-, hk⟩ := Prod.mk.inj hr.kept
    obtain ⟨-, hk⟩ := Prod.mk.inj hk
    have hawake := congrArg PwrState.awake hk
    have hup := congrArg PwrState.up hk
    have htrip := congrArg PwrState.tripped hk
    simp only [Dev.powered, Bool.and_eq_true, Bool.not_eq_true'] at hp
    rw [coreReset_x] at hpwr
    change (d.beforeWarm cause).x.pwr.awake = d.x.pwr.awake at hawake
    change (d.beforeWarm cause).x.pwr.up = d.x.pwr.up at hup
    change (d.beforeWarm cause).x.pwr.tripped = d.x.pwr.tripped at htrip
    rw [Dev.live, hpwr]
    change ((d.beforeWarm cause).x.pwr.awake && (d.beforeWarm cause).x.pwr.up && !false &&
      !(d.beforeWarm cause).x.pwr.tripped) = true
    rw [hawake, hup, htrip, ha, hp.1, hp.2]
    rfl

/-- A warm reset leaves the island's registers that it does not name. -/
theorem warmReset_island {cause : Nat} {d : Dev} {r : Reg} (hi : islandReg r.kind = true) (hb : ¬ writtenBefore r)
    (ha : r ∉ [R.PWR_DEBUG, R.BOOT_RESET_CAUSE, R.BOOT_STATUS, R.PWR_EN_STATUS, R.PWR_REPLACE, R.PWR_STATUS]) :
    ((warmReset cause).run d).reg r = d.reg r := by
  rw [List.mem_cons, not_or] at ha
  rw [warmReset_run, (romStart_writes cause).keepsRegs _ r ha.2, coreReset_island _ ha.1 hi,
    (beforeWarm_ready d cause).regs r hb]

/-! ### A power cycle and a thermal trip (R504, R507) -/

/-- The enables are released. -/
def release : Prog := seq [setF F.PWR_EN_STATUS_asserted 0, pwrUpd fun m => { m with up := false, regulated := 0 }]

theorem railsOff_run (d : Dev) : railsOff.run d = release.run (coreReset.run (roleDrop.run d)) := by
  rw [railsOff, run_seq_cons, run_seq_cons]
  rfl

theorem release_writes : release.Writes fun r => r = R.PWR_EN_STATUS := by simp [release, pwrUpd]

theorem release_fixes : release.Fixes fun x => (x.boot, x.pwr.roleActive) := by simp [release, pwrUpd]

/-- After the release no enable is asserted and the core domain does not run. -/
theorem release_off (d : Dev) :
    (release.run d).fld F.PWR_EN_STATUS_asserted = 0 ∧ (release.run d).x.pwr = { d.x.pwr with up := false, regulated := 0 } := by
  constructor
  · rw [release, run_seq_cons, run_seq_cons, run_seq_nil, pwrUpd_fld, setF_fld_self _ _ _ (by decide)]
    rfl
  · rw [release, run_seq_cons, run_seq_cons, run_seq_nil, pwrUpd_x, setF_x]

/-- What a power cycle leaves. -/
structure Cycled (d t : Dev) : Prop where
  fresh : Fresh d t
  written : Written d t
  enables : t.fld F.PWR_EN_STATUS_asserted = 0
  up : t.x.pwr.up = false
  asked : t.x.pwr.cycleReq = true

theorem powerCycle_run (d : Dev) : powerCycle.run d =
    (pwrUpd fun m => { m with cycleReq := true }).run (release.run (coreReset.run ((storeAndDrop 2 17 0 4).run d))) := by
  rw [powerCycle, storeAndDrop, run_seq_cons, run_seq_cons, run_seq_cons, run_seq_cons, run_seq_cons, run_seq_nil, railsOff_run,
    run_seq_cons, run_seq_cons, run_seq_cons, run_seq_cons, run_seq_nil]

theorem powerCycle_cycled (d : Dev) : Cycled d (powerCycle.run d) := by
  obtain ⟨hen, hpwr⟩ := release_off (coreReset.run ((storeAndDrop 2 17 0 4).run d))
  have hw : (seq [release, pwrUpd fun m => { m with cycleReq := true }]).Writes writtenAfter := by
    rw [Prog.Writes, acts_seq_cons, acts_seq_cons]
    exact ⟨release_writes.widen fun r hr => by subst hr; exact .inl rfl, writes_ext _, acts_seq_nil⟩
  have hx : (seq [release, pwrUpd fun m => { m with cycleReq := true }]).Fixes fun x => (x.boot, x.pwr.roleActive) := by
    rw [Prog.Fixes, acts_seq_cons, acts_seq_cons]
    exact ⟨release_fixes, fun _ => rfl, acts_seq_nil⟩
  have hrun : powerCycle.run d = (seq [release, pwrUpd fun m => { m with cycleReq := true }]).run
      (coreReset.run ((storeAndDrop 2 17 0 4).run d)) := by
    rw [powerCycle_run, run_seq_cons, run_seq_cons, run_seq_nil]
  refine ⟨?_, ?_, ?_, ?_, ?_⟩
  · rw [hrun]
    exact (storeAndDrop_ready 2 17 0 4 d).fresh hw hx
  · rw [hrun]
    exact (storeAndDrop_written 2 17 0 4 d).after hx
  · rw [powerCycle_run, pwrUpd_fld, hen]
  · rw [powerCycle_run, pwrUpd_x, hpwr]
  · rw [powerCycle_run, pwrUpd_x]

/-- The trip is recorded. -/
def markTrip : Prog :=
  seq [pwrUpd fun m => { m with tripped := true, cycleReq := false }, setF F.PWR_STATUS_trip_seen 1]

theorem markTrip_x (d : Dev) :
    (markTrip.run d).x = { d.x with pwr := { d.x.pwr with tripped := true, cycleReq := false } } := by
  rw [markTrip, run_seq_cons, run_seq_cons, run_seq_nil, setF_x, pwrUpd_x]

theorem thermalTrip_run (d : Dev) :
    thermalTrip.run d = release.run (coreReset.run (roleDrop.run (markTrip.run d))) := by
  rw [thermalTrip, markTrip, ← railsOff_run, run_seq_cons, run_seq_cons, run_seq_cons, run_seq_cons, run_seq_cons, run_seq_nil,
    run_seq_nil]

/-- A thermal trip leaves a fresh device that is tripped, shows it, and drives no rail. -/
theorem thermalTrip_trips (d : Dev) :
    let t := thermalTrip.run d
    Fresh d t ∧ t.x.pwr.tripped = true ∧ t.flag F.PWR_STATUS_trip_seen = true ∧ t.fld F.PWR_EN_STATUS_asserted = 0 := by
  have hready : Ready (markTrip.run d) (roleDrop.run (markTrip.run d)) :=
    ready_of_roleDrop (p := .nop) acts_nop acts_nop _
  obtain ⟨hen, hpwr⟩ := release_off (coreReset.run (roleDrop.run (markTrip.run d)))
  have hfresh := hready.fresh (release_writes.widen fun r hr => by subst hr; exact .inl rfl) release_fixes
  rw [thermalTrip_run]
  refine ⟨⟨hfresh.regs, hfresh.mem, hfresh.fuses.trans ?_, hfresh.flash.trans ?_, hfresh.role, hfresh.window⟩, ?_, ?_, hen⟩
  · rw [markTrip_x]
  · rw [markTrip_x]
  · obtain ⟨-, hk⟩ := Prod.mk.inj hready.kept
    obtain ⟨-, hk⟩ := Prod.mk.inj hk
    rw [hpwr, coreReset_x]
    exact (congrArg PwrState.tripped hk).trans (by rw [markTrip_x])
  · have hseen : (markTrip.run d).flag F.PWR_STATUS_trip_seen = true := by
      rw [markTrip, run_seq_cons, run_seq_cons, run_seq_nil]
      exact setB_flag_self F.PWR_STATUS_trip_seen true _ (by decide) rfl
    rw [release_writes.flag (by simp), ← hseen,
      ← roleDrop_writes.flag (f := F.PWR_STATUS_trip_seen) (by simp) (markTrip.run d)]
    simp only [Dev.flag, Dev.fld, Dev.rd]
    rw [coreReset_island _ (by simp) rfl]

/-! ### The watchdog and an undervoltage (R502, R505) -/

theorem replaceSet_fld (code : Nat) {f : Field} (d : Dev) (hk : f.reg.kind ∉ [RK.PWR_REPLACE, .PWR_REPLACE_FIRST, .PWR_STATUS])
    (ha : ∀ e : Dev, ((raise F.PWR_ALARM_replace_req).run e).fld f = e.fld f) : ((replaceSet code).run d).fld f = d.fld f := by
  simp only [List.mem_cons, List.not_mem_nil, or_false, not_or] at hk
  obtain ⟨hr, hf, hs⟩ := hk
  have ne : ∀ {q : Reg}, f.reg.kind ≠ q.kind → f.reg ≠ q := fun h e => h (congrArg Reg.kind e)
  rw [replaceSet, run_read, run_seq_cons, run_seq_cons, run_seq_nil, setF_fld_other _ _ (ne hr), run_doIf]
  split
  · rw [run_seq_cons, run_seq_cons, run_seq_cons, run_seq_nil, ha, setF_fld_other _ _ (ne hs), wr_fld_other _ _ (ne hf)]
  · rfl

/-- The watchdog's alarm stands apart from the others of its register. -/
theorem raise_replaceReq_wdog (d : Dev) : ((raise F.PWR_ALARM_replace_req).run d).fld F.PWR_ALARM_wdog = d.fld F.PWR_ALARM_wdog :=
  raise_fld_apart (g := F.PWR_ALARM_wdog) d rfl (by decide) (by decide)

theorem mramWritePages_wdog (n : Nat) (d : Dev) : ((mramWritePages n).run d).fld F.PWR_ALARM_wdog = d.fld F.PWR_ALARM_wdog := by
  rw [mramWritePages, run_read]
  dsimp only
  generalize (if d.x.boot.pagesFree - n < 3276 then _ else _ : Nat × Nat) = pages
  rw [run_seq_cons, run_seq_cons, run_seq_cons, run_seq_cons, run_seq_cons, run_seq_nil, run_read, wr_fld_other _ _ (by simp),
    run_doIf]
  split
  · rw [replaceSet_fld 9 _ (by simp) raise_replaceReq_wdog, wr_fld_other _ _ (by simp), setF_fld_other _ _ (by simp), bootUpd_fld]
  · rw [wr_fld_other _ _ (by simp), setF_fld_other _ _ (by simp), bootUpd_fld]

/-- A warm reset leaves the watchdog's alarm. -/
theorem warmReset_wdog (cause : Nat) (d : Dev) :
    ((warmReset cause).run d).flag F.PWR_ALARM_wdog = d.flag F.PWR_ALARM_wdog := by
  have hstore : htStore.Writes fun _ => False := by simp [htStore, bootUpd]
  have hflush : (mramFlush.run (htStore.run d)).fld F.PWR_ALARM_wdog = d.fld F.PWR_ALARM_wdog := by
    rw [mramFlush, run_read, run_doIf]
    split
    · rw [run_seq_cons, run_seq_cons, run_seq_nil, mramWritePages_wdog, bootUpd_fld, hstore.fld id]
    · exact hstore.fld id d
  have hbefore : (d.beforeWarm cause).fld F.PWR_ALARM_wdog = d.fld F.PWR_ALARM_wdog := by
    have hw : recordWarm.Writes fun _ => False := by simp [recordWarm, bootUpd]
    rw [Dev.beforeWarm, hw.fld id, storeAndDrop, run_seq_cons, run_seq_cons, run_seq_cons, run_seq_cons, run_seq_nil,
      roleDrop_writes.fld (by simp), (writes_histAdd (but := fun _ => False) 2 18 0 cause).fld id, hflush]
  rw [Dev.flag, Dev.flag, ← hbefore, warmReset_run, (romStart_writes cause).fld (by simp)]
  simp only [Dev.fld, Dev.rd]
  rw [coreReset_island _ (by simp) rfl]

/-- A script before a reset that leaves the stores and the boot function's state leaves the reset's outcome. -/
theorem Warm.of_before {cause : Nat} {d e t : Dev} (h : Warm cause e t) (hx : e.x.boot.fuses = d.x.boot.fuses ∧
    e.x.boot.flash = d.x.boot.flash ∧ e.x.boot.window = d.x.boot.window) (hf : e.fst .boot = d.fst .boot) : Warm cause d t := by
  obtain ⟨hfuses, hflash, hwindow⟩ := hx
  obtain ⟨hfresh, hwritten, hphase, hcause, hlive⟩ := h
  refine ⟨⟨hfresh.regs, hfresh.mem, hfresh.fuses.trans hfuses, hfresh.flash.trans hflash, hfresh.role, hfresh.window⟩,
    fun hb w hw => hwritten (hf ▸ hb) w (hwindow ▸ hw), hphase, hcause, hlive⟩

/-- The watchdog's expiry is raised and counted. -/
def noteWdog : Prog := seq [raise F.PWR_ALARM_wdog, inc R.PWR_CNT_WDOG]

theorem watchdogExpiry_run (d : Dev) : watchdogExpiry.run d =
    (if (noteWdog.run d).standbyUnit || (noteWdog.run d).tstate == 3 then warmReset 2
      else seq [replaceSet 7, doIf ((noteWdog.run d).flag F.PWR_WDOG_alone_reset) (warmReset 2)]).run (noteWdog.run d) := by
  rw [watchdogExpiry, noteWdog, run_seq_cons, run_seq_cons, run_seq_cons, run_seq_nil, run_read, run_seq_cons, run_seq_cons,
    run_seq_nil]

theorem noteWdog_writes : noteWdog.Writes fun r => r = R.PWR_ALARM ∨ r = R.PWR_CNT_WDOG := by
  simp [noteWdog, writes_raise]

theorem noteWdog_fixes : noteWdog.Fixes fun x => (x.pwr, x.boot.fuses, x.boot.flash, x.boot.window) := by
  have hr := fixes_raise (π := fun x => (x.pwr, x.boot.fuses, x.boot.flash, x.boot.window)) F.PWR_ALARM_wdog
    (by simp [histAdd])
  simp [noteWdog, hr]

theorem noteWdog_shows (d : Dev) : (noteWdog.run d).flag F.PWR_ALARM_wdog = true ∧
    (noteWdog.run d).rd R.PWR_CNT_WDOG = min (d.rd R.PWR_CNT_WDOG + 1) 0xFFFFFFFF := by
  rw [noteWdog, run_seq_cons, run_seq_cons, run_seq_nil]
  constructor
  · have hw : (inc R.PWR_CNT_WDOG).Writes fun r => r = R.PWR_CNT_WDOG := (writes_inc _).2 rfl
    rw [hw.flag (by simp), raise_flag_self _ _ (by decide) rfl]
  · rw [inc_rd_self _ rfl rfl rfl, Dev.rd, raise_reg_other _ (by decide), ← Dev.rd]

/-- A reset by the watchdog leaves what a warm reset leaves, and shows and counts the expiry. -/
theorem watchdogExpiry_warm {d : Dev} (ha : d.x.pwr.awake = true) (hp : d.powered = true) (ht : 4 ≤ d.tstate ∨ d.tstate = 3) :
    let t := watchdogExpiry.run d
    Warm 2 d t ∧ t.flag F.PWR_ALARM_wdog = true ∧ t.rd R.PWR_CNT_WDOG = min (d.rd R.PWR_CNT_WDOG + 1) 0xFFFFFFFF := by
  have hts : (noteWdog.run d).tstate = d.tstate := noteWdog_writes.fld (by simp) d
  have hrun : watchdogExpiry.run d = (warmReset 2).run (noteWdog.run d) := by
    rw [watchdogExpiry_run, Dev.standbyUnit, hts, if_pos (by simpa using ht)]
  obtain ⟨hflag, hcnt⟩ := noteWdog_shows d
  obtain ⟨hpwr, hstores⟩ := Prod.mk.inj (noteWdog_fixes.proj d)
  obtain ⟨hfuses, hstores⟩ := Prod.mk.inj hstores
  obtain ⟨hflash, hwindow⟩ := Prod.mk.inj hstores
  have hboot : (noteWdog.run d).fst .boot = d.fst .boot := by
    rw [Dev.fst, Dev.fw, Dev.rd, noteWdog_writes.keepsRegs d (fnReg .boot) (by simp [fnReg])]
    rfl
  have hwarm := warmReset_warm (cause := 2) (d := noteWdog.run d) (by decide) (by rw [hpwr, ha])
    (by rw [Dev.powered, hpwr, ← Dev.powered, hp])
  rw [hrun]
  refine ⟨hwarm.of_before ⟨hfuses, hflash, hwindow⟩ hboot, (warmReset_wdog 2 _).trans hflag, ?_⟩
  rw [← hcnt, Dev.rd, warmReset_island rfl (by simp [writtenBefore]) (by simp), ← Dev.rd]

/-- A unit that no other can replace asks to be replaced when its watchdog expires. -/
theorem watchdogExpiry_alone {d : Dev} (ht : d.tstate < 3) (hal : d.flag F.PWR_WDOG_alone_reset = false) :
    let t := watchdogExpiry.run d
    bitOf (t.rd R.PWR_REPLACE) 7 = true ∧ t.flag F.PWR_ALARM_wdog = true ∧
      t.rd R.PWR_CNT_WDOG = min (d.rd R.PWR_CNT_WDOG + 1) 0xFFFFFFFF ∧
      KeepsRegs d t (fun r => r.kind ∈ [RK.PWR_ALARM, .PWR_CNT_WDOG, .PWR_REPLACE, .PWR_REPLACE_FIRST, .PWR_STATUS]) ∧
      KeepsMem d t := by
  have hts : (noteWdog.run d).tstate = d.tstate := noteWdog_writes.fld (by simp) d
  have hrun : watchdogExpiry.run d = (replaceSet 7).run (noteWdog.run d) := by
    rw [watchdogExpiry_run, Dev.standbyUnit, hts, if_neg (by simp; omega), noteWdog_writes.flag (by simp), hal, run_seq_cons,
      run_seq_cons, run_seq_nil]
    rfl
  obtain ⟨hflag, hcnt⟩ := noteWdog_shows d
  rw [hrun]
  refine ⟨?_, ?_, ?_, fun r hr => ?_, fun a => ?_⟩
  · rw [← flag_eq_bitOf (g := ⟨R.PWR_REPLACE, 7, 1⟩) rfl]
    simp only [replaceSet, run_read, run_seq_cons, run_seq_nil]
    exact setB_flag_self ⟨R.PWR_REPLACE, 7, 1⟩ true _ (by decide) rfl
  · rw [← hflag, Dev.flag, replaceSet_fld 7 _ (by simp) raise_replaceReq_wdog, ← Dev.flag]
  · rw [← hcnt, Dev.rd, (replaceSet_writes 7).keepsRegs _ _ (by simp), ← Dev.rd]
  · simp only [List.mem_cons, List.not_mem_nil, or_false, not_or] at hr
    obtain ⟨halarm, hc, hrep, hfirst, hstatus⟩ := hr
    rw [(replaceSet_writes 7).keepsRegs _ r (by simp [*]), noteWdog_writes.keepsRegs d r]
    rintro (rfl | rfl)
    · exact halarm rfl
    · exact hc rfl
  · rw [(replaceSet_writes 7).memFree.run_mem, noteWdog_writes.memFree.run_mem]

/-- An undervoltage counts and resets. -/
theorem undervoltage_warm {d : Dev} (ha : d.x.pwr.awake = true) (hp : d.powered = true) :
    let t := (warmReset 3).run ((inc R.PWR_CNT_UV_RESET).run d)
    Warm 3 d t ∧ t.rd R.PWR_CNT_UV_RESET = min (d.rd R.PWR_CNT_UV_RESET + 1) 0xFFFFFFFF := by
  have hwarm := warmReset_warm (cause := 3) (d := (inc R.PWR_CNT_UV_RESET).run d) (by decide) (by rw [inc_x, ha])
    (by rw [Dev.powered, inc_x, ← Dev.powered, hp])
  have hboot : ((inc R.PWR_CNT_UV_RESET).run d).fst .boot = d.fst .boot := by
    rw [Dev.fst, Dev.fw, Dev.rd, inc_reg_other d (by decide)]
    rfl
  refine ⟨hwarm.of_before (by rw [inc_x]; exact ⟨rfl, rfl, rfl⟩) hboot, ?_⟩
  rw [Dev.rd, warmReset_island rfl (by simp [writtenBefore]) (by simp), ← Dev.rd, inc_rd_self _ rfl rfl rfl]

/-! ### The end of a power-cycle request (R507) -/

/-- The request ends unanswered. -/
def requestEnds : Prog :=
  seq [pwrUpd fun m => { m with cycleReq := false, stopped := false }, wr R.BOOT_RESET_CAUSE 0, histAdd 2 18 0 0, aonStart]

theorem requestEnds_writes : requestEnds.Writes fun r => r.kind ∈ [RK.BOOT_RESET_CAUSE, .BOOT_STATUS, .PWR_EN_STATUS] := by
  simp [requestEnds, pwrUpd, aonStart, bootUpd, enablePin]

theorem enabledPin_zero (d : Dev) : d.enabledPin 0 = d.flag ⟨R.PWR_EN_STATUS, 0, 1⟩ := by
  simp only [Dev.enabledPin, bitOf, Dev.flag, Dev.fld, bitsOf, Nat.pow_zero, Nat.div_one, Nat.pow_one]
  congr 1
  exact Nat.mod_mod_of_dvd _ (by decide)

/-- Start-up begins at phase AON, and the first rail is enabled while the supply is good. -/
theorem aonStart_starts (d : Dev) :
    (aonStart.run d).x.pwr = d.x.pwr ∧ (aonStart.run d).fld F.BOOT_STATUS_phase = 0 ∧
      (d.x.pwr.warnPin = false → (aonStart.run d).enabledPin 0 = true) := by
  have hx : aonStart.Fixes fun x => x.pwr := by simp [aonStart, bootUpd, enablePin]
  have hpin : ∀ b, (doIf b (enablePin 0 true)).Writes fun r => r = R.PWR_EN_STATUS := by simp [enablePin]
  refine ⟨hx.proj d, ?_, fun hwarn => ?_⟩
  · rw [aonStart, run_seq_cons, run_seq_cons, run_seq_nil, run_read, run_seq_cons, run_seq_cons, run_seq_nil,
      (hpin _).fld (by simp), bootUpd_fld, setF_fld_self _ _ _ (by decide)]
    rfl
  · have hw : ((setF F.BOOT_STATUS_phase 0).run d).x.pwr.warnPin = false := by rw [setF_x, hwarn]
    rw [enabledPin_zero, aonStart, run_seq_cons, run_seq_cons, run_seq_nil, run_read, run_seq_cons, run_seq_cons, run_seq_nil,
      hw, run_doIf]
    exact setB_flag_self ⟨R.PWR_EN_STATUS, 0, 1⟩ true _ (by decide) rfl

theorem requestEnds_starts (d : Dev) :
    let t := requestEnds.run d
    t.x.pwr.cycleReq = false ∧ t.rd R.BOOT_RESET_CAUSE = 0 ∧ t.fld F.BOOT_STATUS_phase = 0 ∧
      (d.x.pwr.warnPin = false → t.enabledPin 0 = true) := by
  have hbefore : (seq [wr R.BOOT_RESET_CAUSE 0, histAdd 2 18 0 0]).Fixes fun x => x.pwr := by simp [histAdd]
  have hafter : (seq [histAdd 2 18 0 0, aonStart]).Writes fun r => r ∈ [R.BOOT_STATUS, R.PWR_EN_STATUS] := by
    simp [aonStart, bootUpd, enablePin]
  have hpwr := hbefore.proj ((pwrUpd fun m => { m with cycleReq := false, stopped := false }).run d)
  rw [run_seq_cons, run_seq_cons, run_seq_nil, pwrUpd_x] at hpwr
  rw [requestEnds, run_seq_cons, run_seq_cons]
  refine ⟨?_, ?_, ?_⟩
  · rw [run_seq_cons, run_seq_cons, run_seq_nil, (aonStart_starts _).1, hpwr]
  · rw [Dev.rd, hafter.keepsRegs _ _ (by simp), wr_reg_self _ _ _ rfl rfl]
    decide
  · rw [run_seq_cons, run_seq_cons, run_seq_nil]
    obtain ⟨-, hphase, hpin⟩ := aonStart_starts ((histAdd 2 18 0 0).run ((wr R.BOOT_RESET_CAUSE 0).run
      ((pwrUpd fun m => { m with cycleReq := false, stopped := false }).run d)))
    exact ⟨hphase, fun hw => hpin (by rw [hpwr, hw])⟩

/-! ### The obligation -/

theorem Fresh.settled {d t : Dev} (h : Fresh d t) : Fresh d (settle.run t) where
  regs r hi hr := by rw [settle_reg, h.regs r hi hr]
  mem a := by rw [settle_mem, h.mem]
  fuses := by rw [settle_boot, h.fuses]
  flash := by rw [settle_boot, h.flash]
  role := by rw [settle_pwr, h.role]
  window := by rw [settle_boot, h.window]

theorem Warm.settled {cause : Nat} {d t : Dev} (h : Warm cause d t) : Warm cause d (settle.run t) where
  fresh := h.fresh.settled
  written hf w hw := by
    rw [settle_boot]
    exact h.written hf w hw
  phase := by rw [settle_fld, h.phase]
  cause := by rw [settle_rd, h.cause]
  live := by rw [Dev.live, settle_pwr, ← Dev.live, h.live]

theorem Cycled.settled {d t : Dev} (h : Cycled d t) : Cycled d (settle.run t) where
  fresh := h.fresh.settled
  written hf w hw := by
    rw [settle_boot]
    exact h.written hf w hw
  enables := by rw [settle_fld, h.enables]
  up := by rw [settle_pwr, h.up]
  asked := by rw [settle_pwr, h.asked]

theorem Fresh.spread {d t : Dev} (h : Fresh d t) :
    (∀ r, islandReg r.kind = false → r ≠ R.BOOT_STATUS → t.reg r = resetWord r) ∧ (∀ a, t.mem.get a = 0) ∧
      t.x.boot.fuses = d.x.boot.fuses ∧ t.x.boot.flash = d.x.boot.flash ∧ t.x.pwr.roleActive = false ∧ t.x.boot.window = [] :=
  ⟨h.regs, h.mem, h.fuses, h.flash, h.role, h.window⟩

theorem resetCode_lt (cause : ResetCause) : resetCode cause < 8 := by cases cause <;> decide

/-- Settles O55: the stores are closed and the role dropped before the domains lose their state, and what follows the loss is
on the island. -/
theorem resetsKeepOnlyWhatSurvives : Obligations.ResetsKeepOnlyWhatSurvives := by
  intro s ha fresh written warm cycle
  have toFresh : ∀ {t}, Fresh s.dev t → fresh t := Fresh.spread
  have toWarm : ∀ {c t}, Warm c s.dev t → warm c t := fun h => ⟨h.fresh.spread, h.written, h.phase, h.cause, h.live⟩
  have toCycle : ∀ {t}, Cycled s.dev t → cycle t := fun h => ⟨h.fresh.spread, h.written, h.enables, h.up, h.asked⟩
  have cycled := (powerCycle_cycled s.dev).settled
  refine ⟨fun hp => ⟨fun hno => ⟨fun cause hc => ?_, ?_⟩, fun cause hask => ?_, ?_, ?_, fun hreq => ⟨fun ht => ?_, fun ht hal => ?_⟩⟩,
    fun hreq => ?_, fun hrt hph htr hreq => ?_, fun hrt => ?_, ?_⟩
  · refine completes_of_awake rfl ha ?_
    rw [run_doWhen, if_pos hp, run_read, hno, if_neg (by simp), if_neg (by simpa using hc)]
    exact toWarm (warmReset_warm (resetCode_lt cause) ha hp).settled
  · refine completes_of_awake rfl ha ?_
    rw [run_doWhen, if_pos hp, run_read, hno]
    simp only [Bool.false_eq_true, if_false, beq_self_eq_true, if_true, rung3, run_read]
    by_cases hn : 2 ≤ (within s.dev.x.time.clk (600 * secU) s.dev.x.boot.warmResets).length
    · simp only [hn, if_true]
      exact toCycle cycled
    · simp only [hn, if_false]
      exact toWarm (warmReset_warm (by decide) ha hp).settled
  · refine completes_of_awake rfl ha ?_
    rw [run_doWhen, if_pos hp, run_read, hask, if_pos rfl]
    exact toCycle cycled
  · refine completes_of_awake rfl ha ?_
    rw [run_doWhen, if_pos hp]
    exact toCycle cycled
  · refine completes_of_awake rfl ha ?_
    obtain ⟨hw, hcnt⟩ := undervoltage_warm ha hp
    rw [run_doWhen, if_pos hp, run_seq_cons, run_seq_cons, run_seq_nil]
    exact ⟨toWarm hw.settled, by rw [settle_rd, hcnt]⟩
  · refine completes_of_awake rfl ha ?_
    obtain ⟨hw, hflag, hcnt⟩ := watchdogExpiry_warm ha hp ht
    rw [run_doWhen, if_pos (by simp [hp, hreq])]
    exact ⟨toWarm hw.settled, by rw [settle_flag, hflag], by rw [settle_rd, hcnt]⟩
  · refine completes_of_awake rfl ha ?_
    obtain ⟨hrep, hflag, hcnt, hregs, hmem⟩ := watchdogExpiry_alone ht hal
    rw [run_doWhen, if_pos (by simp [hp, hreq]), settle_rd, settle_flag, settle_rd]
    exact ⟨hrep, hflag, hcnt, fun r hr => (settle_reg _ r).trans (hregs r hr), fun a => by rw [settle_mem, hmem]⟩
  · refine completes_of_awake rfl ha ?_
    obtain ⟨hend, hcause, hphase, hpin⟩ := requestEnds_starts s.dev
    rw [run_doWhen, if_pos hreq, ← requestEnds, settle_pwr, settle_rd, settle_fld, Dev.enabledPin, settle_fld, ← Dev.enabledPin]
    exact ⟨hend, hcause, hphase, hpin, fun r hr => (settle_reg _ r).trans (requestEnds_writes.keepsRegs _ r hr),
      fun a => by rw [settle_mem, requestEnds_writes.memFree.run_mem]⟩
  · refine completes_of_awake rfl ha ?_
    rw [run_doWhen, if_pos (by simp [hrt, hph, htr, hreq])]
    exact toCycle cycled
  · refine completes_of_awake rfl ha ?_
    rw [run_doWhen, if_neg (by simp [hrt])]
    exact ⟨settle_regs _, fun a => by rw [settle_mem], keepsExt_settle rfl⟩
  · refine completes_of_awake (p := thermalTrip) rfl ha ?_
    obtain ⟨hf, htrip, hseen, hen⟩ := thermalTrip_trips s.dev
    refine ⟨toFresh hf.settled, by rw [settle_pwr, htrip], by rw [settle_flag, hseen], by rw [settle_fld, hen], ?_⟩
    rw [Dev.live, settle_pwr, htrip, Bool.not_true, Bool.and_false]

end Sys2Proof.Machine
end

section
/-!
PROOFS. The memory system's commands outside training: R27, R359 to R368, R372, R374.
-/

namespace Sys2Proof.Machine

/-! ### Alarms that stand -/

/-- Once the flag is set the script leaves it set. -/
def Prog.KeepsFlag (g : Field) (p : Prog) : Prop := ∀ d, d.flag g = true → (p.run d).flag g = true

section
variable {g : Field} {p q : Prog}

theorem Prog.Writes.keepsFlag {but : Reg → Prop} (h : p.Writes but) (hg : ¬ but g.reg) : p.KeepsFlag g := fun d hd =>
  (h.flag hg d).trans hd

@[simp] theorem keepsFlag_nop : Prog.nop.KeepsFlag g := fun _ h => h

@[simp] theorem keepsFlag_seq_nil : (seq []).KeepsFlag g := fun _ h => h

theorem Prog.KeepsFlag.cons {l : List Prog} (hp : p.KeepsFlag g) (hl : (seq l).KeepsFlag g) : (seq (p :: l)).KeepsFlag g := by
  intro d h
  rw [run_seq_cons]
  exact hl _ (hp d h)

theorem Prog.KeepsFlag.doIf {b : Bool} (h : p.KeepsFlag g) : (doIf b p).KeepsFlag g := by
  cases b
  · exact keepsFlag_nop
  · exact h

theorem Prog.KeepsFlag.read {k : Dev → Prog} (h : ∀ d, (k d).KeepsFlag g) : (Prog.read k).KeepsFlag g := fun d => h d d

theorem Prog.KeepsFlag.doWhen {c : Dev → Bool} (h : p.KeepsFlag g) : (doWhen c p).KeepsFlag g := by
  refine .read fun d => ?_
  split
  · exact h
  · exact keepsFlag_nop

/-- Raising an alarm lowers none. -/
theorem raise_keepsFlag {f : Field} (hg : g.within = true) (hgw : g.width = 1) (hf : f.within = true) (hfw : f.width = 1) :
    (raise f).KeepsFlag g := by
  intro d h
  by_cases hr : g.reg = f.reg
  · by_cases hl : g.lo = f.lo
    · have e : g = f := by
        cases g
        cases f
        simp_all
      rw [e]
      exact raise_flag_self f d hf hfw
    · rw [Dev.flag, raise_fld_apart d hr hg (by omega)]
      exact h
  · rw [← h, Dev.flag, Dev.fld, Dev.rd, raise_reg_other d hr, Dev.flag, Dev.fld, Dev.rd]

end

/-- Two alarms of the memory system stand beside each other. -/
theorem raise_hbmAlarm {a b : Nat} (ha : a < 8) (hb : b < 8) : (raise ⟨R.HBM_ALARM, a, 1⟩).KeepsFlag ⟨R.HBM_ALARM, b, 1⟩ := by
  have hw : ∀ a < 8, Field.within ⟨R.HBM_ALARM, a, 1⟩ = true := by decide
  exact raise_keepsFlag (hw b hb) rfl (hw a ha) rfl

/-! ### Errors (R364, R365, R368, R370, R377) -/

section
variable {but : Reg → Prop}

theorem hbmUpd_hbm (u : HbmMem → HbmMem) (d : Dev) : ((hbmUpd u).run d).x.hbm = u d.x.hbm := rfl

@[simp] theorem writes_hbmUpd (u : HbmMem → HbmMem) : (hbmUpd u).Writes but := trivial

theorem statusAlarm_writes {s a : Field} (hs : but s.reg) (ha : but a.reg) (b : Bool) : (statusAlarm s a b).Writes but := by
  simp [statusAlarm, hs, writes_raise ha]

end

/-- A register that an error in memory can change beside the two counts of errors: of the memory system, of the log, of a
request for replacement, and the blocks in FAULT. -/
def errorReg (r : Reg) : Prop :=
  r.kind ∈ [RK.HBM_ALARM, .HBM_STATUS, .HBM_ELOG_STATUS, .HBM_ELOG_E, .HBM_CH_CNT_CE, .HBM_CH_CNT_UE, .PWR_REPLACE,
    .PWR_REPLACE_FIRST, .PWR_STATUS, .PWR_ALARM, .GLB_FAULT_STATUS, .HBM_FSTATE, .HBM_CH_FSTATE]

/-- An alarm of the memory system. -/
def hbmAlarm (b : Nat) : Field := ⟨R.HBM_ALARM, b, 1⟩

@[simp] theorem raise_errorReg (b : Nat) : (raise ⟨R.HBM_ALARM, b, 1⟩).Writes errorReg := writes_raise (by simp [errorReg])

@[simp] theorem replaceSet_errorReg (code : Nat) : (replaceSet code).Writes errorReg :=
  (replaceSet_writes code).widen fun r hr => by
    simp only [List.mem_cons, List.not_mem_nil, or_false] at hr
    rcases hr with h | h | h | h <;> simp [errorReg, h]

theorem replaceSet_keepsFlag (code b : Nat) : (replaceSet code).KeepsFlag (hbmAlarm b) :=
  (replaceSet_writes code).keepsFlag (by simp [hbmAlarm])

theorem elogSync_writes : elogSync.Writes fun r => r.kind = .HBM_ELOG_STATUS ∨ r.kind = .HBM_ELOG_E := by simp [elogSync]

@[simp] theorem elogPush_errorReg (port : Nat) (scrub : Bool) (e : HbmErr) : (elogPush port scrub e).Writes errorReg := by
  have hs : elogSync.Writes errorReg := elogSync_writes.widen fun r hr => by rcases hr with h | h <;> simp [errorReg, h]
  have hf : errorReg R.HBM_ELOG_STATUS := by simp [errorReg]
  simp [elogPush, hs, hf]

theorem elogPush_keepsFlag (port : Nat) (scrub : Bool) (e : HbmErr) {b : Nat} (h : b < 8) :
    (elogPush port scrub e).KeepsFlag (hbmAlarm b) := by
  refine .read fun d => ?_
  split
  · have hf : (setF F.HBM_ELOG_STATUS_full 1).Writes fun r => r = R.HBM_ELOG_STATUS := (writes_setF _ _).2 rfl
    exact .cons (hf.keepsFlag (by simp [hbmAlarm])) (.cons (raise_hbmAlarm (by decide) h) keepsFlag_seq_nil)
  · exact .cons (fun _ h => h) (.cons (elogSync_writes.keepsFlag (by simp [hbmAlarm])) keepsFlag_seq_nil)

@[simp] theorem repairCandidate_errorReg (r : HbmRow) : (repairCandidate r).Writes errorReg := by
  have hs : (statusAlarm F.HBM_STATUS_repair_exhausted F.HBM_ALARM_repair_exhausted true).Writes errorReg :=
    statusAlarm_writes (by simp [errorReg]) (by simp [errorReg]) _
  simp [repairCandidate, hs]

theorem repairCandidate_keepsFlag (r : HbmRow) {b : Nat} (h : b < 8) : (repairCandidate r).KeepsFlag (hbmAlarm b) := by
  have hset : (setB F.HBM_STATUS_repair_exhausted true).Writes fun r => r = R.HBM_STATUS := (writes_setB _ _).2 rfl
  refine .read fun d => ?_
  dsimp only
  split
  · exact keepsFlag_nop
  · split
    · exact fun _ h => h
    · refine .doIf (.cons (.read fun e => ?_) (.cons (replaceSet_keepsFlag 1 b) keepsFlag_seq_nil))
      split
      · exact keepsFlag_nop
      · exact .cons (hset.keepsFlag (by simp [hbmAlarm])) (.cons (.doIf (raise_hbmAlarm (by decide) h)) keepsFlag_seq_nil)

theorem fnFault_writes (f : Fn) (code : Nat) : (fnFault f code).Writes fun r => r = fnReg f ∨ r = R.GLB_FAULT_STATUS := by
  simp [fnFault]

theorem hbmFault_writes {f : Fn} (h : f = .hbm ∨ ∃ c, f = .hbmCh c) (code : Nat) :
    (fnFault f code).Writes fun r => r.kind ∈ [RK.GLB_FAULT_STATUS, .HBM_FSTATE, .HBM_CH_FSTATE] :=
  (fnFault_writes f code).widen fun r hr => by
    rcases h with rfl | ⟨c, rfl⟩ <;> rcases hr with rfl | rfl <;> simp [fnReg]

@[simp] theorem hbmFault_errorReg {f : Fn} (h : f = .hbm ∨ ∃ c, f = .hbmCh c) (code : Nat) : (fnFault f code).Writes errorReg :=
  (hbmFault_writes h code).widen fun r hr => by
    simp only [List.mem_cons, List.not_mem_nil, or_false] at hr
    rcases hr with h | h | h <;> simp [errorReg, h]

theorem hbmFault_keepsFlag {f : Fn} (h : f = .hbm ∨ ∃ c, f = .hbmCh c) (code b : Nat) :
    (fnFault f code).KeepsFlag (hbmAlarm b) := (hbmFault_writes h code).keepsFlag (by simp [hbmAlarm])

/-- A correctable error is counted and raised; what follows changes no count of errors and lowers no alarm. -/
theorem hbmCorrected_run (port : Nat) (scrub : Bool) (e : HbmErr) (d : Dev) : ∃ rest : Prog,
    rest.Writes errorReg ∧ rest.KeepsFlag (hbmAlarm 0) ∧
    (hbmCorrected port scrub e).run d = rest.run ((raise (hbmAlarm 0)).run
      ((inc (R.HBM_CH_CNT_CE (pcChan (d.hbmLoc (e.burst * 64)).pc))).run ((inc R.HBM_CNT_CE).run d))) := by
  refine ⟨_, ?_, ?_, (run_seq_cons _ _ _).trans ((run_seq_cons _ _ _).trans (run_seq_cons _ _ _))⟩
  · simp
  · refine .cons (fun _ h => h) (.cons (.doIf ?_) (.cons (.doIf ?_) (.cons (.doWhen ?_) keepsFlag_seq_nil)))
    · exact .cons (raise_hbmAlarm (by decide) (by decide)) (.cons (replaceSet_keepsFlag 3 0) keepsFlag_seq_nil)
    · exact .cons (elogPush_keepsFlag _ _ _ (by decide)) (.cons (fun _ h => h) keepsFlag_seq_nil)
    · exact repairCandidate_keepsFlag _ (by decide)

/-- The bursts an uncorrectable error reaches. -/
def Dev.errorReach (d : Dev) (e : HbmErr) : List Nat := if e.check then d.checkGroup e.burst else [e.burst]

/-- What an alarm history entry leaves of the poison. -/
theorem histAdd_fixes_poison (k b i c : Nat) : (histAdd k b i c).Fixes fun x => x.poison := fun _ _ => rfl

theorem elogPush_fixes_poison (port : Nat) (scrub : Bool) (e : HbmErr) : (elogPush port scrub e).Fixes fun x => x.poison := by
  simp [elogPush, elogSync, hbmUpd, fixes_raise _ histAdd_fixes_poison]

theorem repairCandidate_fixes_poison (r : HbmRow) : (repairCandidate r).Fixes fun x => x.poison := by
  simp [repairCandidate, statusAlarm, hbmUpd, fixes_raise _ histAdd_fixes_poison, replaceSet_fixes histAdd_fixes_poison]

theorem fnFault_fixes_poison (f : Fn) (code : Nat) : (fnFault f code).Fixes fun x => x.poison := by
  have hu : ∀ u, (fnUpd f u).Fixes fun x => x.poison := fun _ _ => trivial
  simp [fnFault, histAdd_fixes_poison, fnMem, hu]

/-- An uncorrectable error is counted and raised, and what it reaches is poisoned; what follows changes no count of errors,
lowers no alarm and clears no poison. -/
theorem hbmUncorrected_run (port : Nat) (scrub : Bool) (e : HbmErr) (d : Dev) : ∃ rest : Prog,
    rest.Writes errorReg ∧ rest.KeepsFlag (hbmAlarm 2) ∧ (rest.Fixes fun x => x.poison) ∧
    (hbmUncorrected port scrub e).run d = rest.run ((ext fun x => { x with
        poison := x.poison ++ (d.errorReach e).filter fun q => !x.poison.contains q }).run ((raise (hbmAlarm 2)).run
      ((inc (R.HBM_CH_CNT_UE (pcChan (d.hbmLoc (e.burst * 64)).pc))).run ((inc R.HBM_CNT_UE).run d)))) := by
  refine ⟨_, ?_, ?_, ?_, (run_seq_cons _ _ _).trans ((run_seq_cons _ _ _).trans ((run_seq_cons _ _ _).trans (run_seq_cons _ _ _)))⟩
  · simp [hbmFault_errorReg, hbmChFn]
  · refine .cons (fun _ h => h) (.cons (elogPush_keepsFlag _ _ _ (by decide)) (.cons (.doIf ?_) (.cons (.doIf ?_) keepsFlag_seq_nil)))
    · exact repairCandidate_keepsFlag _ (by decide)
    · exact .cons (hbmFault_keepsFlag (.inr ⟨_, rfl⟩) _ _) (.cons (hbmFault_keepsFlag (.inl rfl) _ _) keepsFlag_seq_nil)
  · have hu := fun u => (show (hbmUpd u).Fixes fun x => x.poison from fun _ => rfl)
    simp [elogPush_fixes_poison, repairCandidate_fixes_poison, fnFault_fixes_poison, hu]

/-- The bursts an error reaches do not depend on the registers a patrol step writes. -/
theorem hbmLoc_congr {d e : Dev} (h : e.rd R.HBM_CTRL = d.rd R.HBM_CTRL) (a : Nat) : e.hbmLoc a = d.hbmLoc a := by
  simp [Dev.hbmLoc, Dev.grainLog, Dev.flag, Dev.fld, h]

theorem errorReach_congr {d e : Dev} (h : e.rd R.HBM_CTRL = d.rd R.HBM_CTRL) (x : HbmErr) : e.errorReach x = d.errorReach x := by
  simp [Dev.errorReach, Dev.checkGroup, Dev.grainLog, Dev.fld, h]

/-! ### The patrol scrubber (R367) -/

/-- The patrol goes to the next burst, and shows whether it is behind. -/
def patrol (pc : Nat) (behind : Bool) : Prog :=
  seq [hbmUpd fun h => { h with scrub := KV.upd 0 h.scrub pc fun n => (n + 1) % patrolBursts }, setB F.HBM_STATUS_scrub_behind behind]

theorem patrol_writes (pc : Nat) (behind : Bool) : (patrol pc behind).Writes fun r => r = R.HBM_STATUS := by simp [patrol]

/-- A patrol step of a channel that is ON steps, then handles the errors found in its pseudo-channel. -/
theorem hbmScrub_run {pc : Fin 128} {d : Dev} (hs : d.scrubs = true) (hon : d.on (hbmChFn (pcChan pc)) = true) (es : List HbmErr)
    (behind : Bool) (he : ∀ e ∈ es, (d.hbmLoc (e.burst * 64)).pc = pc) :
    (hbmScrub pc es behind).run d = (each es (hbmError 0x3F true)).run ((patrol pc behind).run d) := by
  have hf : (es.filter fun e => (d.hbmLoc (e.burst * 64)).pc == pc) = es := by
    rw [List.filter_eq_self]
    intro e h
    simp [he e h]
  rw [hbmScrub, run_doWhen, if_pos (by simp [hs, hon]), run_read, hf, run_seq_cons, run_seq_cons, run_seq_cons, run_seq_nil, patrol,
    run_seq_cons, run_seq_cons, run_seq_nil]

theorem patrol_steps (pc : Nat) (behind : Bool) (d : Dev) :
    ((patrol pc behind).run d).flag F.HBM_STATUS_scrub_behind = behind ∧
      KV.get 0 ((patrol pc behind).run d).x.hbm.scrub pc = (KV.get 0 d.x.hbm.scrub pc + 1) % patrolBursts := by
  rw [patrol, run_seq_cons, run_seq_cons, run_seq_nil]
  refine ⟨setB_flag_self _ _ _ (by decide) rfl, ?_⟩
  rw [setB_x, hbmUpd_hbm]
  exact KV.get_upd_self 0 d.x.hbm.scrub pc fun n => (n + 1) % patrolBursts

/-- A patrol step that finds a correctable error counts and raises it. -/
theorem scrub_corrected {pc : Fin 128} {d : Dev} (hs : d.scrubs = true) (hon : d.on (hbmChFn (pcChan pc)) = true) {e : HbmErr}
    (he : (d.hbmLoc (e.burst * 64)).pc = pc) (hu : e.ue = false) (behind : Bool) :
    let t := (hbmScrub pc [e] behind).run d
    t.flag F.HBM_ALARM_ce = true ∧ t.rd R.HBM_CNT_CE = min (d.rd R.HBM_CNT_CE + 1) 0xFFFFFFFF ∧ t.mem = d.mem := by
  obtain ⟨rest, hw, hk, hrun⟩ := hbmCorrected_run 0x3F true e ((patrol pc behind).run d)
  have hrun : (hbmScrub pc [e] behind).run d = _ := (hbmScrub_run hs hon [e] behind (by simpa using he)).trans <| by
    rw [run_each_cons, run_each_nil, hbmError, hu, if_neg Bool.false_ne_true, hrun]
  rw [hrun]
  refine ⟨hk _ (raise_flag_self _ _ (by decide) rfl), ?_, ?_⟩
  · rw [Dev.rd, hw.keepsRegs _ _ (by simp [errorReg]), raise_reg_other _ (by simp [hbmAlarm]), inc_reg_other _ (by simp), ← Dev.rd,
      inc_rd_self _ rfl rfl rfl, Dev.rd, (patrol_writes pc behind).keepsRegs _ _ (by simp), ← Dev.rd]
  · rw [hw.memFree.run_mem, raise_mem, inc_mem, inc_mem, (patrol_writes pc behind).memFree.run_mem]

theorem mem_poison_append {q : Nat} {l hit : List Nat} (h : q ∈ hit) : q ∈ l ++ hit.filter fun q => !l.contains q := by
  by_cases hl : q ∈ l
  · exact List.mem_append_left _ hl
  · exact List.mem_append_right _ (by simp [h, hl])

/-- A patrol step that finds an uncorrectable error counts and raises it, and poisons what it reaches. -/
theorem scrub_uncorrected {pc : Fin 128} {d : Dev} (hs : d.scrubs = true) (hon : d.on (hbmChFn (pcChan pc)) = true) {e : HbmErr}
    (he : (d.hbmLoc (e.burst * 64)).pc = pc) (hu : e.ue = true) (behind : Bool) :
    let t := (hbmScrub pc [e] behind).run d
    t.flag F.HBM_ALARM_ue = true ∧ t.rd R.HBM_CNT_UE = min (d.rd R.HBM_CNT_UE + 1) 0xFFFFFFFF ∧
      (∀ q ∈ d.errorReach e, q ∈ t.x.poison) ∧ t.mem = d.mem := by
  obtain ⟨rest, hw, hk, hx, hrun⟩ := hbmUncorrected_run 0x3F true e ((patrol pc behind).run d)
  have hrun : (hbmScrub pc [e] behind).run d = _ := (hbmScrub_run hs hon [e] behind (by simpa using he)).trans <| by
    rw [run_each_cons, run_each_nil, hbmError, hu, if_pos rfl, hrun]
  have hreach : ((patrol pc behind).run d).errorReach e = d.errorReach e :=
    errorReach_congr (by rw [Dev.rd, (patrol_writes pc behind).keepsRegs _ _ (by simp), ← Dev.rd]) e
  rw [hrun, hreach]
  refine ⟨hk _ (raise_flag_self _ _ (by decide) rfl), ?_, fun q hq => ?_, ?_⟩
  · rw [Dev.rd, hw.keepsRegs _ _ (by simp [errorReg]), (writes_ext (but := fun _ => False) _).keepsRegs _ _ id,
      raise_reg_other _ (by simp [hbmAlarm]), inc_reg_other _ (by simp), ← Dev.rd,
      inc_rd_self _ rfl rfl rfl, Dev.rd, (patrol_writes pc behind).keepsRegs _ _ (by simp), ← Dev.rd]
  · rw [hx.proj]
    exact mem_poison_append hq
  · rw [hw.memFree.run_mem, (memFree_ext _).run_mem, raise_mem, inc_mem, inc_mem, (patrol_writes pc behind).memFree.run_mem]

end Sys2Proof.Machine
end

section
/-!
PROOFS. The memory controllers' requests and refreshes, the demand, urgency, spares and the SRAM: R27, R359, R361, R362, R368,
R374.
-/

namespace Sys2Proof.Machine

/-- A register that has every bit holds the low 32 bits of what is written. -/
theorem wr_rd_full {r : Reg} (v : Nat) (d : Dev) (h : r.valid = true) (n : isFstate r.kind = false)
    (m : (regInfo r.kind).impl = 0xFFFFFFFF) : ((wr r v).run d).rd r = v % 2 ^ 32 := by
  rw [Dev.rd, wr_reg_self r v d h n, toNat_and_mask, m]
  exact (Nat.and_two_pow_sub_one_eq_mod _ 32).trans (Nat.mod_mod _ _)

@[simp] theorem settle_hbm (d : Dev) : (settle.run d).x.hbm = d.x.hbm := by
  obtain ⟨-, -, hx⟩ := settle_same d
  rw [hx]

/-! ### The measured demand (R27) -/

/-- An alarm's status is shown as asked. -/
theorem statusAlarm_flag {s a : Field} (hs : s.within = true) (hw : s.width = 1) (h : s.reg ≠ a.reg) (b : Bool) (d : Dev) :
    ((statusAlarm s a b).run d).flag s = b := by
  rw [statusAlarm, run_read]
  split
  · next hb => exact (eq_of_beq hb).symm
  · have hr : (doIf b (raise a)).Writes fun r => r = a.reg := by simp [writes_raise]
    rw [run_seq_cons, run_seq_cons, run_seq_nil, hr.flag h]
    exact setB_flag_self s b d hs hw

/-- A list of words is written to the channels' registers, in order. -/
def chanWords (l : List (Nat × Nat)) : Prog := each l fun e => doIf (decide (e.2 < 64)) (wr (R.HBM_CH_BW e.2) e.1)

theorem chanWords_writes (l : List (Nat × Nat)) : (chanWords l).Writes fun r => ∃ e ∈ l, r = R.HBM_CH_BW e.2 := by
  simp only [chanWords, acts_each, acts_doIf, writes_wr]
  exact fun e he _ => ⟨e, he, rfl⟩

theorem chanWords_rd {l : List Nat} {k c v : Nat} (h : l[c]? = some v) (hc : k + c < 64) (d : Dev) :
    ((chanWords (l.zipIdx k)).run d).rd (R.HBM_CH_BW (k + c)) = v % 2 ^ 32 := by
  induction l generalizing k c d with
  | nil => simp at h
  | cons a l ih =>
    rw [List.zipIdx_cons, chanWords, run_each_cons, ← chanWords]
    cases c with
    | zero =>
      have ha : a = v := by simpa using h
      have hk : decide (k < 64) = true := by simpa using hc
      have hlate : ¬ ∃ e ∈ l.zipIdx (k + 1), R.HBM_CH_BW (k + 0) = R.HBM_CH_BW e.2 := by
        rintro ⟨e, he, hr⟩
        have hle := List.le_snd_of_mem_zipIdx he
        have := congrArg Reg.i hr
        simp only at this
        omega
      rw [Dev.rd, (chanWords_writes _).keepsRegs _ _ hlate, run_doIf, if_pos hk, ha,
        ← Dev.rd]
      exact wr_rd_full (r := R.HBM_CH_BW k) v d (Reg.valid_indexed rfl hc) rfl rfl
    | succ c =>
      have := ih (k := k + 1) (c := c) (by simpa using h) (by omega) ((doIf (decide (k < 64)) (wr (R.HBM_CH_BW k) a)).run d)
      rwa [show k + 1 + c = k + (c + 1) by omega] at this

/-- The demand is above what the plan allows. -/
def Dev.overPlan (d : Dev) (rd wr : Nat) : Bool := decide (d.rd R.HBM_PLAN_LIMIT < rd + wr)

/-- The runs of samples above the plan, and of samples within it. -/
def Dev.overRun (d : Dev) (rd wr : Nat) : Nat := if d.overPlan rd wr then d.x.hbm.overRun + 1 else 0
def Dev.underRun (d : Dev) (rd wr : Nat) : Nat := if d.overPlan rd wr then 0 else d.x.hbm.underRun + 1

/-- A run of ten samples is shown and raised, or cleared. -/
def planStatus (o u : Nat) : Prog :=
  seq [doIf (decide (10 ≤ o)) (statusAlarm F.HBM_STATUS_plan_exceeded F.HBM_ALARM_plan_exceeded true),
    doIf (decide (10 ≤ u)) (setF F.HBM_STATUS_plan_exceeded 0)]

/-- The measured demand is shown and the runs counted. -/
def showDemand (rd wr_ : Nat) (chans : List Nat) (o u : Nat) : Prog :=
  seq [wr R.HBM_BW_RD rd, wr R.HBM_BW_WR wr_, chanWords chans.zipIdx, hbmUpd fun h => { h with overRun := o, underRun := u }]

theorem bwSample_run (rd wr_ : Nat) (chans : List Nat) (d : Dev) : (bwSample rd wr_ chans).run d =
    (planStatus (d.overRun rd wr_) (d.underRun rd wr_)).run
      ((showDemand rd wr_ chans (d.overRun rd wr_) (d.underRun rd wr_)).run d) :=
  (run_seq_append [_, _, _, _] _ d)

theorem planStatus_writes (o u : Nat) : (planStatus o u).Writes fun r => r.kind = .HBM_STATUS ∨ r.kind = .HBM_ALARM := by
  have hs := statusAlarm_writes (but := fun r => r.kind = .HBM_STATUS ∨ r.kind = .HBM_ALARM) (s := F.HBM_STATUS_plan_exceeded)
    (a := F.HBM_ALARM_plan_exceeded) (.inl rfl) (.inr rfl) true
  simp [planStatus, hs]

theorem planStatus_fixes (o u : Nat) : (planStatus o u).Fixes fun x => x.hbm := by
  have hh : ∀ k b i c, (histAdd k b i c).Fixes fun x => x.hbm := fun _ _ _ _ _ _ => rfl
  simp [planStatus, statusAlarm, fixes_raise _ hh]

/-- Ten samples in a row above the plan show it exceeded, ten within it clear it. -/
theorem planStatus_flag {o u : Nat} (h : o = 0 ∨ u = 0) (d : Dev) : ((planStatus o u).run d).flag F.HBM_STATUS_plan_exceeded =
    if 10 ≤ o then true else if 10 ≤ u then false else d.flag F.HBM_STATUS_plan_exceeded := by
  have raised := statusAlarm_flag (s := F.HBM_STATUS_plan_exceeded) (a := F.HBM_ALARM_plan_exceeded) (by decide) rfl (by decide) true
  have cleared := fun e : Dev => setB_flag_self F.HBM_STATUS_plan_exceeded false e (by decide) rfl
  rw [planStatus, run_seq_cons, run_seq_cons, run_seq_nil]
  by_cases ho : 10 ≤ o
  · have hu : ¬ 10 ≤ u := by omega
    simp only [run_doIf, ho, hu, decide_true, decide_false, if_true, Bool.false_eq_true, if_false]
    exact raised d
  · by_cases hu : 10 ≤ u
    · simp only [run_doIf, ho, hu, decide_true, decide_false, if_true, Bool.false_eq_true, if_false]
      exact cleared d
    · simp only [run_doIf, ho, hu, decide_false, Bool.false_eq_true, if_false]

theorem showDemand_writes (rd wr_ : Nat) (chans : List Nat) (o u : Nat) : (showDemand rd wr_ chans o u).Writes
    fun r => r.kind ∈ [RK.HBM_BW_RD, .HBM_BW_WR, .HBM_CH_BW] := by
  have hc : (chanWords chans.zipIdx).Writes fun r => r.kind ∈ [RK.HBM_BW_RD, .HBM_BW_WR, .HBM_CH_BW] :=
    (chanWords_writes _).widen fun r ⟨e, _, hr⟩ => by simp [hr]
  simp only [showDemand, acts_seq_cons, writes_wr, writes_hbmUpd, acts_seq_nil, hc]
  simp

theorem showDemand_shows (rd wr_ : Nat) (chans : List Nat) (o u : Nat) (d : Dev) :
    let t := (showDemand rd wr_ chans o u).run d
    t.rd R.HBM_BW_RD = rd % 2 ^ 32 ∧ t.rd R.HBM_BW_WR = wr_ % 2 ^ 32 ∧
      (∀ c v, chans[c]? = some v → c < 64 → t.rd (R.HBM_CH_BW c) = v % 2 ^ 32) ∧ t.x.hbm.overRun = o ∧ t.x.hbm.underRun = u := by
  have hc : (chanWords chans.zipIdx).Writes fun r => r.kind = .HBM_CH_BW :=
    (chanWords_writes _).widen fun r ⟨e, _, hr⟩ => by simp [hr]
  have hx : ∀ e : Dev, ((hbmUpd fun h => { h with overRun := o, underRun := u }).run e).rd = e.rd := fun e => rfl
  rw [showDemand, run_seq_cons, run_seq_cons, run_seq_cons, run_seq_cons, run_seq_nil]
  refine ⟨?_, ?_, fun c v h hlt => ?_, rfl, rfl⟩
  · rw [hx, Dev.rd, hc.keepsRegs _ _ (by simp), ← Dev.rd, wr_rd_other _ _ (by simp), wr_rd_full _ _ rfl rfl rfl]
  · rw [hx, Dev.rd, hc.keepsRegs _ _ (by simp), ← Dev.rd, wr_rd_full _ _ rfl rfl rfl]
  · have := chanWords_rd h (k := 0) (by omega) ((wr R.HBM_BW_WR wr_).run ((wr R.HBM_BW_RD rd).run d))
    rwa [Nat.zero_add] at this

/-- HBM_BW_SAMPLE. -/
theorem bwSample_completes {s : State} (hl : s.dev.live = true) (rd wr : Nat) (chans : List Nat) :
    Completes (.hbmBwSample rd wr chans) s fun t => t.rd R.HBM_BW_RD = rd % 2 ^ 32 ∧ t.rd R.HBM_BW_WR = wr % 2 ^ 32 ∧
      (∀ c v, chans[c]? = some v → c < 64 → t.rd (R.HBM_CH_BW c) = v % 2 ^ 32) ∧
      t.x.hbm.overRun = s.dev.overRun rd wr ∧ t.x.hbm.underRun = s.dev.underRun rd wr ∧
      t.flag F.HBM_STATUS_plan_exceeded = (if 10 ≤ t.x.hbm.overRun then true else if 10 ≤ t.x.hbm.underRun then false
        else s.dev.flag F.HBM_STATUS_plan_exceeded) ∧
      KeepsRegs s.dev t (fun r => r.kind ∈ [RK.HBM_BW_RD, .HBM_BW_WR, .HBM_CH_BW, .HBM_STATUS, .HBM_ALARM]) ∧
      KeepsMem s.dev t := by
  have hw := planStatus_writes (s.dev.overRun rd wr) (s.dev.underRun rd wr)
  have hd := showDemand_writes rd wr chans (s.dev.overRun rd wr) (s.dev.underRun rd wr)
  obtain ⟨hrd, hwr, hch, ho, hu⟩ := showDemand_shows rd wr chans (s.dev.overRun rd wr) (s.dev.underRun rd wr) s.dev
  have hx := (planStatus_fixes (s.dev.overRun rd wr) (s.dev.underRun rd wr)).proj
    ((showDemand rd wr chans (s.dev.overRun rd wr) (s.dev.underRun rd wr)).run s.dev)
  have hzero : s.dev.overRun rd wr = 0 ∨ s.dev.underRun rd wr = 0 := by
    rw [Dev.overRun, Dev.underRun]
    cases s.dev.overPlan rd wr
    · exact .inl rfl
    · exact .inr rfl
  have keep : ∀ r : Reg, r.kind ≠ .HBM_STATUS → r.kind ≠ .HBM_ALARM → ∀ e,
      ((planStatus (s.dev.overRun rd wr) (s.dev.underRun rd wr)).run e).rd r = e.rd r := fun r h h' e => by
    rw [Dev.rd, hw.keepsRegs e r (by simp [h, h']), ← Dev.rd]
  refine completes_of_live rfl hl ?_
  rw [bwSample_run, settle_rd, settle_rd, settle_flag, settle_hbm, hx, ho, hu, keep _ (by simp) (by simp),
    keep _ (by simp) (by simp), planStatus_flag hzero, hd.flag (by simp)]
  refine ⟨hrd, hwr, fun c v hc hlt => ?_, rfl, rfl, rfl, fun r hr => ?_, fun a => ?_⟩
  · rw [settle_rd, keep _ (by simp) (by simp), hch c v hc hlt]
  · simp only [List.mem_cons, List.not_mem_nil, or_false, not_or] at hr
    rw [settle_reg, hw.keepsRegs _ r (by simp [hr]), hd.keepsRegs _ r (by simp [hr])]
  · rw [settle_mem, hw.memFree.run_mem, hd.memFree.run_mem]

/-! ### Requests (R361, R364) -/

theorem hbmActivate_writes (l : HbmLoc) : (hbmActivate l).Writes fun r => r.kind = .HBM_CNT_PNR_DROP := by
  simp [hbmActivate]

theorem hbmActivate_fixes (l : HbmLoc) : (hbmActivate l).Fixes fun x => (x.hbm.reads, x.hbm.writes, x.mtx, x.poison) := by
  simp [hbmActivate, hbmUpd]

theorem cacheCheck_fixes (l : HbmLoc) : (cacheCheck l).Fixes fun x => (x.hbm.reads, x.hbm.writes, x.mtx, x.poison) :=
  fun _ => rfl

/-- The request leaves its queue. -/
def dequeue (pc : Nat) (e : HbmEntry) (write : Bool) : Prog :=
  hbmUpd fun h => if write then { h with writes := KV.upd [] h.writes pc (·.erase e) }
    else { h with reads := KV.upd [] h.reads pc (·.erase e) }

/-- A row is opened and the check bursts are held. -/
def reach (d : Dev) (t : MtxReq) : Prog :=
  seq [hbmActivate (d.hbmLoc t.addr), each (txBursts t) fun q => cacheCheck (d.hbmLoc (q * 64))]

/-- A request served late is counted. -/
def countLate (d : Dev) (port : Nat) : Prog := doIf (d.fld (F.HBM_QOS_STATUS_u port) == 3) (inc (R.HBM_QOS_LATE port))

theorem reach_writes (d : Dev) (t : MtxReq) : (reach d t).Writes fun r => r.kind = .HBM_CNT_PNR_DROP := by
  simp [reach, hbmActivate_writes, cacheCheck]

theorem reach_fixes (d : Dev) (t : MtxReq) : (reach d t).Fixes fun x => (x.hbm.reads, x.hbm.writes, x.mtx, x.poison) := by
  simp [reach, hbmActivate_fixes, cacheCheck_fixes]

theorem countLate_writes (d : Dev) (port : Nat) : (countLate d port).Writes fun r => r.kind = .HBM_QOS_LATE := by
  simp [countLate]

theorem countLate_fixes (d : Dev) (port : Nat) {α : Type} (π : Ext → α) : (countLate d port).Fixes π := by
  simp [countLate]

/-- The transaction's bytes are its answer, with the poison of its bursts. -/
def answerRead (t : MtxTx) : Prog :=
  .read fun d => txAnswer t (d.mem.getBytes t.req.addr (64 * t.req.beats)) ((txBursts t.req).any fun q => d.x.poison.contains q)

/-- A request that is picked, without errors and, if it reads, without poison, leaves its queue, and a read is answered. -/
theorem hbmServe_run {pc : Nat} {d : Dev} (hon : d.on (hbmChFn (pcChan pc)) = true) {e : HbmEntry} {write : Bool}
    (hp : d.hbmPick pc = some (e, write)) (hc : write = false → ∀ q ∈ txBursts e.tx.req, q ∉ d.x.poison) :
    (hbmServe { pc := pc }).run d = (countLate d e.tx.port).run ((doIf (!write) (answerRead e.tx)).run
      ((reach d e.tx.req).run ((dequeue pc e write).run d))) := by
  have hold : (if write then [] else (txBursts e.tx.req).filter fun q => d.x.poison.contains q) = [] := by
    cases write with
    | true => rfl
    | false =>
      rw [if_neg Bool.false_ne_true, List.filter_eq_nil_iff]
      exact fun q hq => by simpa using hc rfl q hq
  rw [hbmServe, run_doWhen, if_pos hon, run_read, hp]
  dsimp only
  rw [run_seq_cons, run_seq_cons, run_seq_cons, run_seq_cons, run_seq_cons, run_seq_cons, run_seq_cons, run_seq_nil,
    List.filter_nil, run_each_nil, hold, reach, run_seq_cons, run_seq_cons, run_seq_nil]
  rfl

theorem txAnswer_writes {but : Reg → Prop} (t : MtxTx) (data : List Byte) (p : Bool) : (txAnswer t data p).Writes but := trivial

theorem answerRead_writes {but : Reg → Prop} (b : Bool) (t : MtxTx) : (doIf b (answerRead t)).Writes but := by
  simp [answerRead, txAnswer_writes]

theorem answerRead_fixes (b : Bool) (t : MtxTx) : (doIf b (answerRead t)).Fixes fun x => (x.hbm.reads, x.hbm.writes) := by
  simp [answerRead, txAnswer]

/-- Serving a request changes only the two counters, and no memory. -/
theorem hbmServe_keeps {pc : Nat} {d : Dev} (hon : d.on (hbmChFn (pcChan pc)) = true) {e : HbmEntry} {write : Bool}
    (hp : d.hbmPick pc = some (e, write)) (hc : write = false → ∀ q ∈ txBursts e.tx.req, q ∉ d.x.poison) :
    let t := (hbmServe { pc := pc }).run d
    KeepsRegs d t (fun r => r.kind = .HBM_CNT_PNR_DROP ∨ r.kind = .HBM_QOS_LATE) ∧ t.mem = d.mem ∧
      (t.x.hbm.reads, t.x.hbm.writes) =
        (((dequeue pc e write).run d).x.hbm.reads, ((dequeue pc e write).run d).x.hbm.writes) := by
  have hq : (dequeue pc e write).Writes fun _ => False := trivial
  have hr := reach_writes d e.tx.req
  have ha : (doIf (!write) (answerRead e.tx)).Writes fun _ => False := answerRead_writes _ _
  have hl := countLate_writes d e.tx.port
  rw [hbmServe_run hon hp hc]
  refine ⟨fun r h => ?_, ?_, ?_⟩
  · rw [not_or] at h
    rw [hl.keepsRegs _ r h.2, ha.keepsRegs _ r id, hr.keepsRegs _ r h.1, hq.keepsRegs _ r id]
  · rw [hl.memFree.run_mem, ha.memFree.run_mem, hr.memFree.run_mem, hq.memFree.run_mem]
  · have hx := (reach_fixes d e.tx.req).proj ((dequeue pc e write).run d)
    rw [(countLate_fixes d e.tx.port fun x => (x.hbm.reads, x.hbm.writes)).proj, (answerRead_fixes _ e.tx).proj]
    exact congrArg (fun p => (p.1, p.2.1)) hx

theorem txAnswer_flight {t : MtxTx} {f : MtxFlight} {d : Dev} (hf : f ∈ d.x.mtx.flight) (ht : f.tx = t) (ha : f.answer = none)
    (data : List Byte) (p : Bool) :
    { f with answer := some (data, p) } ∈ ((txAnswer t data p).run d).x.mtx.flight := by
  refine List.mem_map.2 ⟨f, hf, ?_⟩
  rw [if_pos ⟨ht, by rw [ha]; rfl⟩]

theorem answerRead_run (t : MtxTx) (d : Dev) : (answerRead t).run d =
    (txAnswer t (d.mem.getBytes t.req.addr (64 * t.req.beats)) ((txBursts t.req).any fun q => d.x.poison.contains q)).run d := by
  rw [answerRead, run_read]

/-- A transaction in flight that is not answered is answered with the bytes there and no poison. -/
theorem hbmServe_answers {pc : Nat} {d : Dev} (hon : d.on (hbmChFn (pcChan pc)) = true) {e : HbmEntry}
    (hp : d.hbmPick pc = some (e, false)) (hc : ∀ q ∈ txBursts e.tx.req, q ∉ d.x.poison) {f : MtxFlight}
    (hf : f ∈ d.x.mtx.flight) (ht : f.tx = e.tx) (ha : f.answer = none) :
    ∃ g ∈ ((hbmServe { pc := pc }).run d).x.mtx.flight, g.tx = e.tx ∧
      g.answer = some (d.mem.getBytes e.tx.req.addr (64 * e.tx.req.beats), false) := by
  have hx := (reach_fixes d e.tx.req).proj ((dequeue pc e false).run d)
  have hmtx : ((reach d e.tx.req).run ((dequeue pc e false).run d)).x.mtx = d.x.mtx := congrArg (fun p => p.2.2.1) hx
  have hpoison : ((reach d e.tx.req).run ((dequeue pc e false).run d)).x.poison = d.x.poison := congrArg (fun p => p.2.2.2) hx
  have hmem : ((reach d e.tx.req).run ((dequeue pc e false).run d)).mem = d.mem := (reach_writes d e.tx.req).memFree.run_mem _
  have hclean : ((txBursts e.tx.req).any fun q => d.x.poison.contains q) = false := by
    rw [List.any_eq_false]
    exact fun q hq => by simpa using hc q hq
  rw [hbmServe_run hon hp fun _ => hc, (countLate_fixes d e.tx.port fun x => x.mtx.flight).proj, run_doIf,
    if_pos (show (!false) = true from rfl), answerRead_run, hmem, hpoison, hclean]
  exact ⟨_, txAnswer_flight (by rwa [hmtx]) ht ha _ _, ht, rfl⟩

theorem dequeue_write (pc : Nat) (e : HbmEntry) (d : Dev) :
    KV.get [] ((dequeue pc e true).run d).x.hbm.writes pc = (KV.get [] d.x.hbm.writes pc).erase e ∧
      ((dequeue pc e true).run d).x.hbm.reads = d.x.hbm.reads :=
  ⟨KV.get_upd_self [] d.x.hbm.writes pc (·.erase e), rfl⟩

theorem dequeue_read (pc : Nat) (e : HbmEntry) (d : Dev) :
    KV.get [] ((dequeue pc e false).run d).x.hbm.reads pc = (KV.get [] d.x.hbm.reads pc).erase e ∧
      ((dequeue pc e false).run d).x.hbm.writes = d.x.hbm.writes :=
  ⟨KV.get_upd_self [] d.x.hbm.reads pc (·.erase e), rfl⟩

@[simp] theorem settle_mtx (d : Dev) : (settle.run d).x.mtx = d.x.mtx := by
  obtain ⟨-, -, hx⟩ := settle_same d
  rw [hx]

/-- HBM_REQUEST_SERVE of a write. -/
theorem hbmServe_write_completes {s : State} (hl : s.dev.live = true) {pc : Fin 128}
    (hon : s.dev.on (hbmChFn (pcChan pc)) = true) {e : HbmEntry} (hp : s.dev.hbmPick pc = some (e, true)) :
    Completes (.hbmRequestServe { pc := pc }) s fun t =>
      KV.get [] t.x.hbm.writes pc = (KV.get [] s.dev.x.hbm.writes pc).erase e ∧ t.x.hbm.reads = s.dev.x.hbm.reads ∧
      KeepsRegs s.dev t (fun r => r.kind = .HBM_CNT_PNR_DROP ∨ r.kind = .HBM_QOS_LATE) ∧ KeepsMem s.dev t := by
  obtain ⟨hregs, hmem, hx⟩ := hbmServe_keeps hon hp (by simp)
  obtain ⟨hr, hw⟩ := Prod.mk.inj hx
  obtain ⟨hq, hkeep⟩ := dequeue_write pc e s.dev
  refine completes_of_live rfl hl ?_
  rw [settle_hbm, hw, hr]
  exact ⟨hq, hkeep, fun r h => (settle_reg _ r).trans (hregs r h), fun a => by rw [settle_mem, hmem]⟩

/-- HBM_REQUEST_SERVE of a read. -/
theorem hbmServe_read_completes {s : State} (hl : s.dev.live = true) {pc : Fin 128}
    (hon : s.dev.on (hbmChFn (pcChan pc)) = true) {e : HbmEntry} (hp : s.dev.hbmPick pc = some (e, false))
    (hc : ∀ q ∈ txBursts e.tx.req, q ∉ s.dev.x.poison) :
    Completes (.hbmRequestServe { pc := pc }) s fun t =>
      KV.get [] t.x.hbm.reads pc = (KV.get [] s.dev.x.hbm.reads pc).erase e ∧ t.x.hbm.writes = s.dev.x.hbm.writes ∧
      (∀ f ∈ s.dev.x.mtx.flight, f.tx = e.tx → f.answer = none → ∃ g ∈ t.x.mtx.flight, g.tx = e.tx ∧
        g.answer = some (s.dev.mem.getBytes e.tx.req.addr (64 * e.tx.req.beats), false)) ∧
      KeepsRegs s.dev t (fun r => r.kind = .HBM_CNT_PNR_DROP ∨ r.kind = .HBM_QOS_LATE) ∧ KeepsMem s.dev t := by
  obtain ⟨hregs, hmem, hx⟩ := hbmServe_keeps hon hp fun _ => hc
  obtain ⟨hr, hw⟩ := Prod.mk.inj hx
  obtain ⟨hq, hkeep⟩ := dequeue_read pc e s.dev
  refine completes_of_live rfl hl ?_
  rw [settle_hbm, settle_mtx, hw, hr]
  exact ⟨hq, hkeep, fun f hf ht ha => hbmServe_answers hon hp hc hf ht ha, fun r h => (settle_reg _ r).trans (hregs r h),
    fun a => by rw [settle_mem, hmem]⟩

/-! ### Refresh (R362) -/

/-- Reads at the highest urgency wait for the bank. -/
def Dev.bankUrgent (d : Dev) (pc bank : Nat) : Bool :=
  (KV.get [] d.x.hbm.reads pc).any fun e =>
    (d.hbmLoc e.tx.req.addr).bank == bank && d.fld (F.HBM_QOS_STATUS_u e.tx.port) == 3

theorem hbmRefresh_writes {but : Reg → Prop} (pc bank : Nat) : (hbmRefresh pc bank).Writes but := by simp [hbmRefresh]

/-- HBM_REFRESH. -/
theorem hbmRefresh_completes {s : State} (hl : s.dev.live = true) {pc : Fin 128}
    (hon : s.dev.on (hbmChFn (pcChan pc)) = true) (bank : Fin 32) :
    Completes (.hbmRefresh pc bank) s fun t =>
      (if s.dev.bankUrgent pc bank = true ∧ KV.get 0 s.dev.x.hbm.owed (bankKey pc bank) < 8 then
        KV.get 0 t.x.hbm.owed (bankKey pc bank) = KV.get 0 s.dev.x.hbm.owed (bankKey pc bank) + 1 ∧
          t.x.hbm.open_ = s.dev.x.hbm.open_
      else KV.get 0 t.x.hbm.owed (bankKey pc bank) = 0 ∧ KV.get none t.x.hbm.open_ (bankKey pc bank) = none ∧
        KV.get [] t.x.hbm.pnr (bankKey pc bank) = []) ∧
      t.regs = s.dev.regs ∧ KeepsMem s.dev t := by
  have hrun : (hbmRefresh pc bank).run s.dev =
      (if (s.dev.bankUrgent pc bank && decide (KV.get 0 s.dev.x.hbm.owed (bankKey pc bank) < 8)) = true then
        hbmUpd fun h => { h with owed := KV.upd 0 h.owed (bankKey pc bank) (· + 1) }
      else hbmUpd fun h => { h with
        owed := KV.set 0 h.owed (bankKey pc bank) 0, open_ := KV.set none h.open_ (bankKey pc bank) none
        pnr := KV.set [] h.pnr (bankKey pc bank) [] }).run s.dev := by
    rw [hbmRefresh, run_doWhen, if_pos hon, run_read]
    rfl
  refine completes_of_live rfl hl ?_
  rw [hrun]
  by_cases h : s.dev.bankUrgent pc bank = true ∧ KV.get 0 s.dev.x.hbm.owed (bankKey pc bank) < 8
  · rw [if_pos h, if_pos (by simpa using h), settle_hbm, settle_regs, hbmUpd_hbm]
    exact ⟨⟨KV.get_upd_self 0 s.dev.x.hbm.owed _ (· + 1), rfl⟩, rfl, fun a => by rw [settle_mem, hbmUpd_mem]⟩
  · rw [if_neg h, if_neg (by simpa using h), settle_hbm, settle_regs, hbmUpd_hbm]
    exact ⟨⟨KV.get_set_self 0 s.dev.x.hbm.owed _ 0, KV.get_set_self none s.dev.x.hbm.open_ _ none,
      KV.get_set_self [] s.dev.x.hbm.pnr _ []⟩, rfl,
      fun a => by rw [settle_mem, hbmUpd_mem]⟩

end Sys2Proof.Machine
end

section
/-!
PROOFS. Urgency, spares, the SRAM, and channels that recalibrate and retrain: R359, R367, R368, R372, R374.
-/

namespace Sys2Proof.Machine

/-! ### Urgency (R359) -/

/-- Fields of different registers, each set once, hold what was set. -/
theorem each_setF_fld {l : List Nat} {g : Nat → Field} {m : Nat} (hn : l.Nodup) (hinj : ∀ a, (g a).reg = (g m).reg → a = m)
    (hw : (g m).within = true) (hm : m ∈ l) (v : Nat → Nat) (d : Dev) :
    ((each l fun a => setF (g a) (v a)).run d).fld (g m) = v m % 2 ^ (g m).width := by
  induction l generalizing d with
  | nil => simp at hm
  | cons a l ih =>
    rw [List.nodup_cons] at hn
    rw [run_each_cons]
    by_cases ha : m ∈ l
    · exact ih hn.2 ha _
    · have e : m = a := by simpa [ha] using hm
      subst e
      have hl : (each l fun a => setF (g a) (v a)).Writes fun r => ∃ a ∈ l, r = (g a).reg := by
        simp only [acts_each, writes_setF]
        exact fun b hb => ⟨b, hb, rfl⟩
      rw [hl.fld, setF_fld_self _ _ _ hw]
      rintro ⟨b, hb, hr⟩
      exact ha (hinj b hr.symm ▸ hb)

theorem urgency_lt (d : Dev) (m slack : Nat) : d.urgency m slack < 4 := by
  have four : ∀ {a b c : Prop} [Decidable a] [Decidable b] [Decidable c], (if a then 0 else if b then 1 else if c then 2 else 3) < 4 := by
    intros
    split_ifs <;> decide
  simp only [Dev.urgency]
  split <;> split
  · decide
  · exact four
  · decide
  · exact four

/-- QOS_URGENCY_EVAL. -/
theorem urgencyEval_completes {s : State} (hl : s.dev.live = true) (slack : List Nat) :
    Completes (.qosUrgencyEval slack) s fun t =>
      (∀ m < 56, t.fld (F.HBM_QOS_STATUS_u m) = s.dev.urgency m (slack.getD m 0)) ∧
      Keeps s.dev t fun r => r.kind = .HBM_QOS_STATUS := by
  have hw : (urgencyEval slack).Writes fun r => r.kind = .HBM_QOS_STATUS := by simp [urgencyEval]
  have hx : (urgencyEval slack).Fixes id := by simp [urgencyEval]
  refine completes_of_live rfl hl ⟨fun m hm => ?_, fun r hr => (settle_reg _ r).trans (hw.keepsRegs _ r hr), fun a => ?_,
    keepsExt_settle (hx.proj s.dev)⟩
  · rw [settle_fld, urgencyEval, run_read,
      each_setF_fld (g := F.HBM_QOS_STATUS_u) List.nodup_range (fun a h => congrArg Reg.i h)
        (Field.within_of_hasBits (Reg.valid_indexed rfl hm) (show hasBits .HBM_QOS_STATUS 0 2 = true by decide)) (List.mem_range.2 hm)]
    exact Nat.mod_eq_of_lt (urgency_lt _ _ _)
  · rw [settle_mem, hw.memFree.run_mem]

/-- A port's urgency by the age of its oldest transaction. -/
theorem urgency_by_age {d : Dev} {m i : Nat} (hs : d.flag (F.HBM_QOS_CTRL_source m) = false) (ho : d.oldestTx m false = some i)
    (slack : Nat) : d.urgency m slack =
      (if 4 * (d.x.time.clk - i) < d.fld (F.HBM_QOS_TARGET m) * nsU then 0
      else if 2 * (d.x.time.clk - i) < d.fld (F.HBM_QOS_TARGET m) * nsU then 1
      else if d.x.time.clk - i < d.fld (F.HBM_QOS_TARGET m) * nsU then 2 else 3) := by
  simp only [Dev.urgency, hs, ho, Bool.false_eq_true, if_false]

/-! ### Spare rows (R368) -/

/-- A completed copy remaps its row, counts and raises; what follows changes neither the map nor the count nor the alarm. -/
theorem spareDone_run {pc : Nat} {r : HbmRow} {p : Nat} {d : Dev} (hf : d.x.hbm.copying.find? (fun r => r.pc == pc) = some r)
    (hp : d.spareRow r = some p) : ∃ rest : Prog, (rest.Writes fun r => r.kind = .HBM_CH_STATUS) ∧ (rest.Fixes fun x => x.hbm) ∧
      (spareDone pc).run d = rest.run ((raise F.HBM_ALARM_repair_done).run ((inc R.HBM_CNT_SPARED).run
        ((hbmUpd fun h => { h with copying := h.copying.erase r, remap := h.remap ++ [(r, p)] }).run d))) := by
  refine ⟨seq [remapCount pc, .read fun e => mramPut ⟨.training, 0x100000 + pc⟩ (.words
    ((e.x.hbm.remap.filter fun x => x.1.pc == pc).flatMap fun x => [x.1.bank, x.1.row, x.2]))], ?_, ?_, ?_⟩
  · simp [remapCount, mramPut]
  · simp [remapCount, mramPut]
  · rw [spareDone, run_read, hf]
    dsimp only
    rw [hp]
    dsimp only
    rw [run_seq_cons, run_seq_cons, run_seq_cons]

/-- SPARE_COPY_DONE. -/
theorem spareDone_completes {s : State} (hl : s.dev.live = true) {pc : Fin 128} {r : HbmRow} {p : Nat}
    (hf : s.dev.x.hbm.copying.find? (fun r => r.pc == pc.val) = some r) (hp : s.dev.spareRow r = some p) :
    Completes (.spareCopyDone pc) s fun t => t.x.hbm.remap = s.dev.x.hbm.remap ++ [(r, p)] ∧
      t.x.hbm.copying = s.dev.x.hbm.copying.erase r ∧ t.flag F.HBM_ALARM_repair_done = true ∧
      t.rd R.HBM_CNT_SPARED = min (s.dev.rd R.HBM_CNT_SPARED + 1) 0xFFFFFFFF ∧ KeepsMem s.dev t := by
  obtain ⟨rest, hw, hx, hrun⟩ := spareDone_run hf hp
  have hh : (raise F.HBM_ALARM_repair_done).Fixes fun x => x.hbm := fixes_raise _ fun _ _ _ _ _ _ => rfl
  refine completes_of_live (p := spareDone pc) rfl hl ?_
  rw [hrun, settle_hbm, settle_flag, settle_rd, hx.proj, hh.proj, inc_x, hbmUpd_hbm]
  refine ⟨rfl, rfl, ?_, ?_, fun a => ?_⟩
  · rw [hw.flag (by simp)]
    exact raise_flag_self _ _ (by decide) rfl
  · rw [Dev.rd, hw.keepsRegs _ _ (by simp), raise_reg_other _ (by simp), ← Dev.rd, inc_rd_self _ rfl rfl rfl, hbmUpd_rd]
  · rw [settle_mem, hw.memFree.run_mem, raise_mem, inc_mem, hbmUpd_mem]

/-! ### The SRAM (R367, R374) -/

/-- The scrubber goes to the firkin's next word. -/
def sramStep (f : Nat) : Prog := hbmUpd fun h => { h with sramScrub := KV.upd 0 h.sramScrub f fun n => (n + 1) % 32768 }

theorem sramScrub_run {f : Nat} {d : Dev} (hs : d.scrubs = true) (es : List SramErr) :
    (sramScrub f es).run d = (each (es.filter fun e => e.word / 32768 == f) sramError).run ((sramStep f).run d) := by
  rw [sramScrub, run_doWhen, if_pos hs, run_seq_cons, run_seq_cons, run_seq_nil, sramStep]

/-- The register that counts an error of the SRAM. -/
def sramCount (e : SramErr) : Reg := if e.ue then R.HBM_FK_CNT_UE (e.word / 32768) else R.HBM_FK_CNT_CE (e.word / 32768)

theorem sramCount_spec {e : SramErr} (h : e.word / 32768 < 256) :
    (sramCount e).valid = true ∧ isFstate (sramCount e).kind = false ∧ (regInfo (sramCount e).kind).impl = 0xFFFFFFFF := by
  cases hu : e.ue <;> simp only [sramCount, hu, if_true, if_false, Bool.false_eq_true]
  · exact ⟨Reg.valid_indexed rfl h, rfl, rfl⟩
  · exact ⟨Reg.valid_indexed rfl h, rfl, rfl⟩

/-- An SRAM error is counted; beyond that it changes only the memory system's typed state, where an uncorrectable one poisons
its word. -/
theorem sramError_run (e : SramErr) (d : Dev) : ∃ u : HbmMem → HbmMem,
    (sramError e).run d = (hbmUpd u).run ((inc (sramCount e)).run d) ∧ (e.ue = true → ∀ h, e.word ∈ (u h).sramPoison) := by
  rw [sramError, run_read, sramCount]
  cases hu : e.ue
  · exact ⟨_, by rw [if_neg Bool.false_ne_true, if_neg Bool.false_ne_true, run_seq_cons, run_seq_cons, run_seq_nil], by simp⟩
  · exact ⟨_, by rw [if_pos rfl, if_pos rfl, run_seq_cons, run_seq_cons, run_seq_nil], fun _ h => by simp⟩

/-- SRAM_SCRUB_STEP without an error. -/
theorem sramScrub_completes {s : State} (hl : s.dev.live = true) {fk : Fin 256} (hs : s.dev.scrubs = true) :
    Completes (.sramScrubStep fk []) s fun t =>
      KV.get 0 t.x.hbm.sramScrub fk = (KV.get 0 s.dev.x.hbm.sramScrub fk + 1) % 32768 ∧ t.regs = s.dev.regs ∧
      KeepsMem s.dev t := by
  refine completes_of_live (p := sramScrub fk []) rfl hl ?_
  rw [sramScrub_run hs, List.filter_nil, run_each_nil, settle_hbm, settle_regs, sramStep, hbmUpd_hbm]
  exact ⟨KV.get_upd_self 0 s.dev.x.hbm.sramScrub fk fun n => (n + 1) % 32768, rfl, fun a => by rw [settle_mem, hbmUpd_mem]⟩

/-- SRAM_SCRUB_STEP with an error counts it in its firkin's register. -/
theorem sramScrub_error_completes {s : State} (hl : s.dev.live = true) {fk : Fin 256} (hs : s.dev.scrubs = true) {e : SramErr}
    (he : e.word / 32768 = fk) : Completes (.sramScrubStep fk [e]) s fun t =>
      (e.ue = true → e.word ∈ t.x.hbm.sramPoison) ∧
      t.rd (sramCount e) = min (s.dev.rd (sramCount e) + 1) 0xFFFFFFFF ∧
      KeepsRegs s.dev t (fun r => r = sramCount e) ∧ KeepsMem s.dev t := by
  obtain ⟨u, hrun, hp⟩ := sramError_run e ((sramStep fk).run s.dev)
  obtain ⟨hv, hn, hi⟩ := sramCount_spec (e := e) (he ▸ fk.isLt)
  have hf : ([e].filter fun e => e.word / 32768 == fk.val) = [e] := by simp [he]
  refine completes_of_live (p := sramScrub fk [e]) rfl hl ?_
  rw [sramScrub_run hs, hf, run_each_cons, run_each_nil, hrun, settle_hbm, settle_rd, hbmUpd_hbm, hbmUpd_rd,
    inc_rd_self _ hv hn hi, sramStep, hbmUpd_rd]
  refine ⟨fun hu => hp hu _, rfl, fun r hr => ?_, fun a => ?_⟩
  · rw [settle_reg]
    exact inc_reg_other _ hr
  · rw [settle_mem, hbmUpd_mem, inc_mem, hbmUpd_mem]

/-! ### Channels that recalibrate and retrain (R372) -/

section
variable {f : Fn} {d : Dev}

/-- The first rung of a recovery is shown as it is, a later one only where it is higher. -/
theorem fnRung_fw {r : Nat} (hr : r < 4) :
    ((fnRung f r).run d).fw f = { d.fw f with rung := if (d.fnm f).recovering then max (d.fw f).rung r else r } := by
  have hlt := FWord.decode_rung (d.rd (fnReg f))
  rw [fnRung, run_read, run_seq_cons, run_seq_cons, run_seq_cons, run_seq_nil, histAdd_fw, fnMem_fw, fnUpd_fw]
  · dsimp only [Dev.fw]
    split <;> omega
  · exact FWord.decode_code _

theorem fnRung_fnm (r : Nat) : ((fnRung f r).run d).fnm f = { d.fnm f with recovering := true } := by
  rw [fnRung, run_read, run_seq_cons, run_seq_cons, run_seq_cons, run_seq_nil, histAdd_fnm, fnMem_self, fnUpd_fnm]

theorem fnRung_writes (r : Nat) : (fnRung f r).Writes fun q => q = fnReg f := by simp [fnRung]

theorem fnReinit_writes : (fnReinit f).Writes fun q => q = fnReg f := by
  simp only [fnReinit, acts_read]
  intro d
  split <;> simp [fnRung_writes]

theorem fnEscalate_writes : (fnEscalate f).Writes fun q => q = fnReg f := by simp [fnEscalate, fnReinit_writes]

/-- Re-initialisation of a function that is ON and recovers stops it, and shows rung 2. -/
theorem fnReinit_on (h : d.fst f = .on) (hrec : (d.fnm f).recovering = true) (hle : (d.fw f).rung ≤ 2) :
    ((fnReinit f).run d).fst f = .stopping ∧ (((fnReinit f).run d).fw f).rung = 2 := by
  rw [fnReinit, run_read, h]
  dsimp only
  rw [run_seq_cons, run_seq_cons, run_seq_nil, fnUpd_fst_keep rfl rfl, fnUpd_fw_keep rfl rfl, fnRung_fw (by decide), hrec]
  exact ⟨rfl, max_eq_right hle⟩

/-- Rung 2 of a function that is ON and recovers stops it. -/
theorem fnEscalate_on (h : d.fst f = .on) (hr : (d.fnm f).reinits = []) (hrec : (d.fnm f).recovering = true)
    (hle : (d.fw f).rung ≤ 2) : ((fnEscalate f).run d).fst f = .stopping ∧ (((fnEscalate f).run d).fw f).rung = 2 := by
  simp only [fnEscalate, run_read, hr, counted, List.length_nil]
  exact fnReinit_on (by rwa [fnMem_fst]) (by rwa [fnMem_self]) (by rwa [fnMem_fw])

/-- Rung 1 that fails again passes to rung 2. -/
def retryFails (f : Fn) : Prog := seq [fnRung f 1, fnRetryFailed f, fnEscalate f]

theorem retryFails_stops (h : d.fst f = .on) (hr : (d.fnm f).reinits = []) (hrec : (d.fnm f).recovering = false) :
    ((retryFails f).run d).fst f = .stopping ∧ (((retryFails f).run d).fw f).rung = 2 := by
  have hfw := fnRung_fw (f := f) (d := d) (r := 1) (by decide)
  have hfnm := fnRung_fnm (f := f) (d := d) 1
  rw [hrec, if_neg Bool.false_ne_true] at hfw
  rw [retryFails, run_seq_cons, run_seq_cons, run_seq_cons, run_seq_nil, fnRetryFailed, run_read]
  refine fnEscalate_on ?_ ?_ ?_ ?_
  · rw [fnMem_fst, Dev.fst, hfw]
    exact h
  · rw [fnMem_self, hfnm]
    exact hr
  · rw [fnMem_self, hfnm]
  · rw [fnMem_fw, hfw]
    exact one_le_two

theorem retryFails_writes : (retryFails f).Writes fun q => q = fnReg f := by
  simp [retryFails, fnRung_writes, fnEscalate_writes, fnRetryFailed]

end

theorem hbmChFn_val (c : HbmChId) : hbmChFn c = .hbmCh c := by simp [hbmChFn]

section
variable {s : State} {c : HbmChId}

/-- HBM_RECAL without failure. -/
theorem hbmRecal_ok_completes (hl : s.dev.live = true) :
    Completes (.hbmRecal c 0) s fun t => t.regs = s.dev.regs ∧ KeepsMem s.dev t := by
  have hrun : (hbmRecal c 0).run s.dev = s.dev := by
    rw [hbmRecal, run_doWhen]
    split <;> rfl
  refine completes_of_live (p := hbmRecal c 0) rfl hl ?_
  rw [hrun]
  exact ⟨settle_regs _, fun a => by rw [settle_mem]⟩

/-- HBM_RECAL with one failure. -/
theorem hbmRecal_once_completes (hl : s.dev.live = true) (hon : s.dev.fst (.hbmCh c) = .on)
    (hrec : (s.dev.fnm (.hbmCh c)).recovering = false) :
    Completes (.hbmRecal c 1) s fun t => t.fst (.hbmCh c) = .on ∧ (t.fw (.hbmCh c)).rung = 1 ∧ KeepsMem s.dev t := by
  have hrun : (hbmRecal c 1).run s.dev = (fnRung (.hbmCh c) 1).run s.dev := by
    rw [hbmRecal, run_doWhen, hbmChFn_val, Dev.on, hon]
    rfl
  have hfw := fnRung_fw (f := .hbmCh c) (d := s.dev) (r := 1) (by decide)
  rw [hrec, if_neg Bool.false_ne_true] at hfw
  refine completes_of_live (p := hbmRecal c 1) rfl hl ?_
  rw [hrun, settle_fst, settle_fw, Dev.fst, hfw]
  exact ⟨hon, rfl, fun a => by rw [settle_mem, (fnRung_writes 1).memFree.run_mem]⟩

/-- A channel that stops for rung 2. -/
theorem retryFails_completes {i : Instr} {p : Prog} (hi : exec i s = perform .core p s) (hl : s.dev.live = true)
    (hrun : p.run s.dev = (retryFails (.hbmCh c)).run s.dev) (hon : s.dev.fst (.hbmCh c) = .on)
    (hrec : (s.dev.fnm (.hbmCh c)).recovering = false) (hre : (s.dev.fnm (.hbmCh c)).reinits = []) :
    Completes i s fun t => t.fst (.hbmCh c) = .stopping ∧ (t.fw (.hbmCh c)).rung = 2 ∧
      KeepsRegs s.dev t (fun r => r = R.HBM_CH_FSTATE c) ∧ KeepsMem s.dev t := by
  obtain ⟨hst, hrung⟩ := retryFails_stops hon hre hrec
  have hw := retryFails_writes (f := .hbmCh c)
  refine completes_of_live hi hl ?_
  rw [hrun, settle_fst, settle_fw]
  exact ⟨hst, hrung, fun r hr => (settle_reg _ r).trans (hw.keepsRegs _ r hr), fun a => by rw [settle_mem, hw.memFree.run_mem]⟩

/-- Two failures pass to rung 2. -/
theorem hbmRecal_twice_run {d : Dev} (hon : d.fst (.hbmCh c) = .on) :
    (hbmRecal c 2).run d = (retryFails (.hbmCh c)).run d := by
  have hc : d.on (.hbmCh c) = true := by rw [Dev.on, hon]; rfl
  rw [hbmRecal, run_doWhen, hbmChFn_val, if_pos hc, retryFails]
  simp only [run_seq_cons, run_seq_nil, run_doIf, one_le_two, le_refl, decide_true, if_true]

/-- So does a data eye that does not retrain. -/
theorem hbmRetrain_fails_run {d : Dev} (hon : d.fst (.hbmCh c) = .on) :
    (hbmRetrain c false).run d = (retryFails (.hbmCh c)).run d := by
  have hc : d.on (.hbmCh c) = true := by rw [Dev.on, hon]; rfl
  rw [hbmRetrain, run_doWhen, hbmChFn_val, if_pos hc, run_read, if_neg Bool.false_ne_true, retryFails]

/-- HBM_EYE_RETRAIN that succeeds. -/
theorem hbmRetrain_ok_completes (hl : s.dev.live = true) (hon : s.dev.fst (.hbmCh c) = .on) :
    Completes (.hbmEyeRetrain c true) s fun t =>
      KV.get 0 t.x.hbm.trainedTemp (c / 16) = s.dev.fld (F.HBM_CH_STATUS_temperature c) ∧ t.regs = s.dev.regs ∧
      KeepsMem s.dev t := by
  have hrun : (hbmRetrain c true).run s.dev = (hbmUpd fun h => { h with
      trainedTemp := KV.set 0 h.trainedTemp (c / 16) (s.dev.fld (F.HBM_CH_STATUS_temperature c)) }).run s.dev := by
    rw [hbmRetrain, run_doWhen, hbmChFn_val, Dev.on, hon]
    rfl
  refine completes_of_live (p := hbmRetrain c true) rfl hl ?_
  rw [hrun, settle_hbm, settle_regs, hbmUpd_hbm]
  exact ⟨KV.get_set_self 0 s.dev.x.hbm.trainedTemp _ _, rfl, fun a => by rw [settle_mem, hbmUpd_mem]⟩

end

end Sys2Proof.Machine
end

section
/-!
PROOFS. Training of the memory system (R369 to R371, R375), and the obligation about memory.
-/

namespace Sys2Proof.Machine

/-! ### Functions that are settled one after the other -/

/-- Of scripts for each of several functions, only its own changes a function. -/
theorem each_settles {f : Fn} {l : List Nat} {g : Nat → Prog} {m : Nat} (hn : l.Nodup) (hm : m ∈ l)
    (hs : ∀ a ∈ l, a ≠ m → (g a).Spares f) (d : Dev) :
    ∃ e, KeepsFn f d e ∧ KeepsFn f ((g m).run e) ((each l g).run d) := by
  induction l generalizing d with
  | nil => simp at hm
  | cons a l ih =>
    rw [List.nodup_cons] at hn
    rw [run_each_cons]
    by_cases ha : a = m
    · subst ha
      have hl : (each l g).Spares f := spares_each fun b hb =>
        hs b (List.mem_cons_of_mem _ hb) fun e => hn.1 (e ▸ hb)
      exact ⟨d, .refl f d, hl _⟩
    · have hml : m ∈ l := by simpa [Ne.symm ha] using hm
      obtain ⟨e, he, hend⟩ := ih hn.2 hml (fun b hb => hs b (List.mem_cons_of_mem _ hb)) ((g a).run d)
      exact ⟨e, (hs a List.mem_cons_self ha d).trans he, hend⟩

theorem Memory.get_filter_not (P : Nat → Bool) (m : Memory) (a : Nat) :
    Memory.get (m.filter fun e => !P e.1) a = if P a then 0 else Memory.get m a := by
  induction m with
  | nil => simp [Memory.get]
  | cons e m ih =>
    obtain ⟨k, v⟩ := e
    by_cases hr : a = k
    · subst hr
      by_cases hp : P a <;> simp_all [Memory.get]
    · by_cases hp : P k <;> simp_all [Memory.get]

/-! ### What training decides of the channels and the memory system -/

/-- The reason for which a channel enters FAULT after training. -/
def trainBad (t : HbmTraining) (c : Nat) : Option Nat :=
  if !bitOf t.found (c / 16) then some 2 else if !(t.chans.getD c {}).ok then some 1 else none

/-- A channel's fate. -/
def trainFate (t : HbmTraining) (c : Nat) : Prog :=
  match trainBad t c with
  | some k => seq [fnUpd (hbmChFn c) fun w => { w with state := .waking }, fnFault (hbmChFn c) k]
  | none => fnWoken (hbmChFn c)

/-- The channels that are enabled. -/
def Dev.hbmEnabled (d : Dev) : List Nat := (List.range 64).filter fun c => d.flag (F.HBM_CH_CTRL_enable c)

/-- The memory system wakes, and enters FAULT with its channels. -/
def trainWake (t : HbmTraining) (on : List Nat) : Prog :=
  seq [fnWoken .hbm, doIf (on.any fun c => (trainBad t c).isSome) (fnFault .hbm 1)]

/-- Start-up goes on once the memory system is there. -/
def memoryReady : Prog :=
  doWhen (fun d => d.fld F.BOOT_STATUS_phase == 3 && (d.on .hbm || (d.fst .hbm == .fault && (d.fw .hbm).code == 1)))
    (setF F.BOOT_STATUS_phase 4)

/-- Memory is written with zeros, and nothing is poisoned there. -/
def zeroMemory : Prog :=
  seq [.act (.memZero fun a => decide (a < 84 * 2 ^ 30)),
    ext fun x => { x with poison := x.poison.filter fun q => decide (84 * 2 ^ 30 ≤ 64 * q) }]

/-- Training is recorded and shown. -/
def trainRecord (t : HbmTraining) : Prog :=
  seq [mramPut ⟨.training, 0⟩ (.words (t.found :: t.temps)), setF F.HBM_STATUS_trained 1, setF F.HBM_INFO_capacity_mib 43008]

theorem hbmTrained_run {t : HbmTraining} {d : Dev} (hw : d.fst .hbm = .waking) (hm : d.mapLegal = true) :
    ∃ prep : Prog, prep.Quiet ∧ (hbmTrained t).run d =
      (seq [memoryReady]).run ((trainWake t d.hbmEnabled).run ((trainRecord t).run
        ((seq [each d.hbmEnabled (trainFate t)]).run (zeroMemory.run (prep.run d))))) := by
  have hwake : (d.fst .hbm == .waking) = true := by rw [hw]; rfl
  rw [hbmTrained, run_doWhen, if_pos hwake, run_read, hm, if_neg (by simp)]
  dsimp only
  refine ⟨seq [?info, ?uses, ?queues, ?channels, ?counts], ?quiet, ?run⟩
  case run =>
    rw [trainWake, trainRecord, zeroMemory, ← run_seq_append, ← run_seq_append, ← run_seq_append, ← run_seq_append, ← run_seq_append]
    rfl
  case quiet => simp [remapCount, guardedKinds]

/-! ### What each part of training leaves -/

theorem Prog.Writes.fw {but : Reg → Prop} {p : Prog} (h : p.Writes but) {f : Fn} (hf : ¬ but (fnReg f)) (d : Dev) :
    (p.run d).fw f = d.fw f := by
  rw [Dev.fw, Dev.rd, h.keepsRegs d _ hf, Dev.fw, Dev.rd]

theorem memoryReady_writes : (seq [memoryReady]).Writes fun r => r = R.BOOT_STATUS := by simp [memoryReady]

theorem trainRecord_writes (t : HbmTraining) : (trainRecord t).Writes fun r => r = R.HBM_STATUS ∨ r = R.HBM_INFO := by
  simp [trainRecord, mramPut]

theorem fnWoken_writes (f : Fn) : (fnWoken f).Writes fun r => r = fnReg f := by simp [fnWoken, fnReachOn]

theorem trainWake_writes (t : HbmTraining) (on : List Nat) :
    (trainWake t on).Writes fun r => r = R.HBM_FSTATE ∨ r = R.GLB_FAULT_STATUS := by
  have hw : (fnWoken .hbm).Writes fun r => r = R.HBM_FSTATE ∨ r = R.GLB_FAULT_STATUS :=
    (fnWoken_writes .hbm).widen fun r hr => .inl hr
  have hf : (fnFault .hbm 1).Writes fun r => r = R.HBM_FSTATE ∨ r = R.GLB_FAULT_STATUS := fnFault_writes .hbm 1
  simp [trainWake, hw, hf]

/-- A channel's fate is its own. -/
theorem trainFate_spares (t : HbmTraining) {f : Fn} {c : Nat} (h : f ≠ hbmChFn c) : (trainFate t c).Spares f := by
  rw [trainFate]
  split
  · exact .cons (fnUpd_spares h _) (.cons (fnFault_spares h _) spares_seq_nil)
  · exact fnWoken_spares h

theorem trainFate_memFree (t : HbmTraining) (c : Nat) : (trainFate t c).Acts Prim.MemFree := by
  rw [trainFate]
  split
  · exact (acts_seq_cons _ _).2 ⟨memFree_fnUpd _ _, (acts_seq_cons _ _).2 ⟨fnFault_memFree _ _, acts_seq_nil⟩⟩
  · exact fnWoken_memFree _

theorem trainFate_good {t : HbmTraining} {c : Nat} (h : trainBad t c = none) {d : Dev} (hp : (d.fw (hbmChFn c)).pendOff = false) :
    ((trainFate t c).run d).fst (hbmChFn c) = .on := by
  have hend := fnWoken_fw (hbmChFn c) d
  rw [hp, if_neg Bool.false_ne_true] at hend
  rw [trainFate, h]
  exact hend.1

theorem trainFate_bad {t : HbmTraining} {c k : Nat} (h : trainBad t c = some k) (d : Dev) :
    ((trainFate t c).run d).fst (hbmChFn c) = .fault ∧ (((trainFate t c).run d).fw (hbmChFn c)).code = k % 256 := by
  rw [trainFate, h]
  dsimp only
  rw [run_seq_cons, run_seq_cons, run_seq_nil]
  obtain ⟨hst, hcode, -⟩ := fnFault_enters (d := (fnUpd (hbmChFn c) fun w => { w with state := .waking }).run d) k
    (.inl (fnUpd_fst_keep rfl rfl))
  exact ⟨hst, hcode⟩

/-- The memory system is ON after training, or in FAULT with its channels. -/
theorem trainWake_fst (t : HbmTraining) (on : List Nat) {d : Dev} (hp : (d.fw .hbm).pendOff = false) :
    let e := (trainWake t on).run d
    if (on.any fun c => (trainBad t c).isSome) = true then e.fst .hbm = .fault ∧ (e.fw .hbm).code = 1 else e.fst .hbm = .on := by
  have hwoken := fnWoken_fw .hbm d
  rw [hp, if_neg Bool.false_ne_true] at hwoken
  rw [trainWake, run_seq_cons, run_seq_cons, run_seq_nil, run_doIf]
  dsimp only
  split
  · obtain ⟨hst, hcode, -⟩ := fnFault_enters (d := (fnWoken .hbm).run d) 1 (.inr hwoken.1)
    exact ⟨hst, hcode⟩
  · exact hwoken.1

theorem trainWake_spares (t : HbmTraining) (on : List Nat) {f : Fn} (h : f ≠ .hbm) : (trainWake t on).Spares f :=
  .cons (fnWoken_spares h) (.cons (.doIf fun _ => fnFault_spares h 1) spares_seq_nil)

theorem zeroMemory_mem (d : Dev) (a : Nat) :
    (zeroMemory.run d).mem.get a = if a < 84 * 2 ^ 30 then 0 else d.mem.get a := by
  have h := Memory.get_filter_not (fun a => decide (a < 84 * 2 ^ 30)) d.mem a
  rw [zeroMemory, run_seq_cons, run_seq_cons, run_seq_nil]
  change Memory.get (d.mem.filter fun e => !decide (e.1 < 84 * 2 ^ 30)) a = _
  rw [h]
  simp

theorem mem_hbmEnabled {d : Dev} {c : Nat} : c ∈ d.hbmEnabled ↔ c < 64 ∧ d.flag (F.HBM_CH_CTRL_enable c) = true := by
  simp [Dev.hbmEnabled]

theorem hbmChFn_injective {a b : Nat} (ha : a < 64) (hb : b < 64) (h : hbmChFn a = hbmChFn b) : a = b := by
  simp only [hbmChFn, Fn.hbmCh.injEq, Fin.ofNat, Fin.mk.injEq] at h
  omega

/-! ### Training (R371, R375) -/

/-- The device at the end of the channels' fates. -/
structure Fates (t : HbmTraining) (d c : Dev) : Prop where
  mem : ∀ a, c.mem.get a = if a < 84 * 2 ^ 30 then 0 else d.mem.get a
  hbm : c.fw .hbm = d.fw .hbm
  good : ∀ k ∈ d.hbmEnabled, trainBad t k = none → (d.fw (hbmChFn k)).pendOff = false → c.fst (hbmChFn k) = .on
  bad : ∀ k ∈ d.hbmEnabled, ∀ n, trainBad t k = some n → c.fst (hbmChFn k) = .fault ∧ (c.fw (hbmChFn k)).code = n % 256

theorem fates (t : HbmTraining) {d : Dev} {prep : Prog} (hq : prep.Quiet) :
    Fates t d ((seq [each d.hbmEnabled (trainFate t)]).run (zeroMemory.run (prep.run d))) := by
  have hz : ∀ f, (zeroMemory.run (prep.run d)).fw f = d.fw f := fun f => (hq.keepsFn f d).word
  have settles : ∀ k ∈ d.hbmEnabled, ∃ e, e.fw (hbmChFn k) = d.fw (hbmChFn k) ∧ KeepsFn (hbmChFn k) ((trainFate t k).run e)
      ((each d.hbmEnabled (trainFate t)).run (zeroMemory.run (prep.run d))) := by
    intro k hk
    obtain ⟨e, he, hend⟩ := each_settles (f := hbmChFn k) (g := trainFate t) (List.nodup_range.filter _) hk
      (fun a ha hne => trainFate_spares t fun h =>
        hne (hbmChFn_injective (mem_hbmEnabled.1 hk).1 (mem_hbmEnabled.1 ha).1 h).symm) (zeroMemory.run (prep.run d))
    exact ⟨e, he.word.trans (hz _), hend⟩
  rw [run_seq_cons, run_seq_nil]
  refine ⟨fun a => ?_, ?_, fun k hk hb hp => ?_, fun k hk n hb => ?_⟩
  · have hm : (each d.hbmEnabled (trainFate t)).Acts Prim.MemFree := (acts_each _ _).2 fun k _ => trainFate_memFree t k
    rw [hm.run_mem, zeroMemory_mem, hq.memFree.run_mem]
  · have hs : (each d.hbmEnabled (trainFate t)).Spares .hbm := spares_each fun k _ => trainFate_spares t (by simp [hbmChFn])
    rw [(hs _).word, hz]
  · obtain ⟨e, he, hend⟩ := settles k hk
    rw [hend.fst]
    exact trainFate_good hb (by rw [he, hp])
  · obtain ⟨e, -, hend⟩ := settles k hk
    rw [hend.fst, hend.word]
    exact trainFate_bad hb e

/-- What follows the channels' fates leaves them, shows the training, and decides on the memory system. -/
theorem afterFates {t : HbmTraining} {on : List Nat} {c : Dev} (hp : (c.fw .hbm).pendOff = false) :
    let e := (seq [memoryReady]).run ((trainWake t on).run ((trainRecord t).run c))
    (∀ k, e.fw (hbmChFn k) = c.fw (hbmChFn k)) ∧ e.mem = c.mem ∧ e.flag F.HBM_STATUS_trained = true ∧
      if (on.any fun c => (trainBad t c).isSome) = true then e.fst .hbm = .fault ∧ (e.fw .hbm).code = 1 else e.fst .hbm = .on := by
  have hrec : ((trainRecord t).run c).fw .hbm = c.fw .hbm := (trainRecord_writes t).fw (by simp [fnReg]) c
  have hwake := trainWake_fst t on (d := (trainRecord t).run c) (by rw [hrec, hp])
  have hend : ((seq [memoryReady]).run ((trainWake t on).run ((trainRecord t).run c))).fw .hbm =
      ((trainWake t on).run ((trainRecord t).run c)).fw .hbm := memoryReady_writes.fw (by simp [fnReg]) _
  refine ⟨fun k => ?_, ?_, ?_, ?_⟩
  · rw [memoryReady_writes.fw (by simp [hbmChFn, fnReg]), (trainWake_spares t on (by simp [hbmChFn]) _).word,
      (trainRecord_writes t).fw (by simp [hbmChFn, fnReg])]
  · rw [memoryReady_writes.memFree.run_mem, (trainWake_writes t on).memFree.run_mem, (trainRecord_writes t).memFree.run_mem]
  · have hcap : (setF F.HBM_INFO_capacity_mib 43008).Writes fun r => r = R.HBM_INFO := (writes_setF _ _).2 rfl
    rw [memoryReady_writes.flag (by simp), (trainWake_writes t on).flag (by simp), trainRecord, run_seq_cons, run_seq_cons,
      run_seq_cons, run_seq_nil, hcap.flag (by simp)]
    exact setB_flag_self F.HBM_STATUS_trained true _ (by decide) rfl
  · rw [Dev.fst, hend]
    exact hwake

/-- A channel is good if its stack is there and it trained. -/
def trainGood (t : HbmTraining) (c : Nat) : Bool := bitOf t.found (c / 16) && (t.chans.getD c {}).ok

theorem trainBad_eq (t : HbmTraining) (c : Nat) :
    trainBad t c = if trainGood t c then none else some (if bitOf t.found (c / 16) then 1 else 2) := by
  rw [trainBad, trainGood]
  cases bitOf t.found (c / 16) <;> cases (t.chans.getD c {}).ok <;> rfl

section
variable {s : State} {t : HbmTraining}

/-- HBM_TRAINING_COMPLETE with an illegal map. -/
theorem hbmTrained_illegal_completes (hl : s.dev.live = true) (hw : s.dev.fst .hbm = .waking) (hm : s.dev.mapLegal = false) :
    Completes (.hbmTrainingComplete t) s fun e => e.fst .hbm = .fault ∧ (e.fw .hbm).code = 2 ∧ KeepsMem s.dev e := by
  have hrun : (hbmTrained t).run s.dev = (fnFault .hbm 2).run s.dev := by
    rw [hbmTrained, run_doWhen, if_pos (by rw [hw]; rfl), run_read, hm, if_pos (by rfl)]
  obtain ⟨hst, hcode, -⟩ := fnFault_enters 2 (.inl hw)
  refine completes_of_live (p := hbmTrained t) rfl hl ?_
  rw [hrun, settle_fst, settle_fw]
  exact ⟨hst, hcode, fun a => by rw [settle_mem, (fnFault_memFree _ _).run_mem]⟩

/-- HBM_TRAINING_COMPLETE with a legal map. -/
theorem hbmTrained_completes (hl : s.dev.live = true) (hw : s.dev.fst .hbm = .waking) (hm : s.dev.mapLegal = true)
    (hp : (s.dev.fw .hbm).pendOff = false) : Completes (.hbmTrainingComplete t) s fun e =>
      (∀ a, e.mem.get a = if a < 84 * 2 ^ 30 then 0 else s.dev.mem.get a) ∧ e.flag F.HBM_STATUS_trained = true ∧
      (∀ c : HbmChId, s.dev.flag (F.HBM_CH_CTRL_enable c) = true → (s.dev.fw (.hbmCh c)).pendOff = false →
        if trainGood t c then e.fst (.hbmCh c) = .on
        else e.fst (.hbmCh c) = .fault ∧ (e.fw (.hbmCh c)).code = (if bitOf t.found (c / 16) then 1 else 2) ∧
          e.fst .hbm = .fault ∧ (e.fw .hbm).code = 1) ∧
      ((∀ c : HbmChId, s.dev.flag (F.HBM_CH_CTRL_enable c) = true → trainGood t c = true) → e.fst .hbm = .on) := by
  obtain ⟨prep, hq, hrun⟩ := hbmTrained_run (t := t) hw hm
  have hf := fates t (d := s.dev) hq
  obtain ⟨hch, hmem, htr, hhbm⟩ := afterFates (t := t) (on := s.dev.hbmEnabled)
    (c := (seq [each s.dev.hbmEnabled (trainFate t)]).run (zeroMemory.run (prep.run s.dev))) (by rw [hf.hbm, hp])
  rw [← hrun] at hch hmem htr hhbm
  refine completes_of_live (p := hbmTrained t) rfl hl ?_
  rw [settle_flag, settle_fst, settle_fw]
  refine ⟨fun a => by rw [settle_mem, hmem, hf.mem], htr, fun c hen hpc => ?_, fun hall => ?_⟩
  · have hmemb : c.val ∈ s.dev.hbmEnabled := mem_hbmEnabled.2 ⟨c.isLt, hen⟩
    rw [settle_fst, settle_fw]
    split
    · next hg =>
      rw [← hbmChFn_val, Dev.fst, hch]
      exact hf.good c hmemb (by rw [trainBad_eq, if_pos hg]) (by rw [hbmChFn_val, hpc])
    · next hg =>
      have hb : trainBad t c = some (if bitOf t.found (c / 16) then 1 else 2) := by rw [trainBad_eq, if_neg hg]
      obtain ⟨hst, hcode⟩ := hf.bad c hmemb _ hb
      have hany : (s.dev.hbmEnabled.any fun c => (trainBad t c).isSome) = true :=
        List.any_eq_true.2 ⟨c, hmemb, by rw [hb]; rfl⟩
      rw [if_pos hany] at hhbm
      rw [← hbmChFn_val, Dev.fst, hch]
      refine ⟨hst, hcode.trans ?_, hhbm⟩
      split <;> rfl
  · have hnone : ¬ (s.dev.hbmEnabled.any fun c => (trainBad t c).isSome) = true := by
      rw [Bool.not_eq_true, List.any_eq_false]
      intro c hc
      obtain ⟨hlt, hen⟩ := mem_hbmEnabled.1 hc
      rw [trainBad_eq, if_pos (hall ⟨c, hlt⟩ hen)]
      simp
    rwa [if_neg hnone] at hhbm

end

/-! ### The patrol scrubber's command (R367) -/

section
variable {s : State} {pc : Fin 128}

/-- HBM_SCRUB_STEP without an error. -/
theorem hbmScrub_completes (hl : s.dev.live = true) (hon : s.dev.on (hbmChFn (pcChan pc)) = true) (hs : s.dev.scrubs = true)
    (behind : Bool) : Completes (.hbmScrubStep pc [] behind) s fun t => t.flag F.HBM_STATUS_scrub_behind = behind ∧
      KV.get 0 t.x.hbm.scrub pc = (KV.get 0 s.dev.x.hbm.scrub pc + 1) % patrolBursts ∧
      KeepsRegs s.dev t (fun r => r = R.HBM_STATUS) ∧ KeepsMem s.dev t := by
  have hw := patrol_writes pc behind
  obtain ⟨hb, hstep⟩ := patrol_steps pc behind s.dev
  refine completes_of_live (p := hbmScrub pc [] behind) rfl hl ?_
  rw [hbmScrub_run hs hon [] behind (by simp), run_each_nil, settle_flag, settle_hbm]
  exact ⟨hb, hstep, fun r hr => (settle_reg _ r).trans (hw.keepsRegs _ r hr), fun a => by rw [settle_mem, hw.memFree.run_mem]⟩

/-- HBM_SCRUB_STEP with a correctable error. -/
theorem hbmScrub_corrected_completes (hl : s.dev.live = true) (hon : s.dev.on (hbmChFn (pcChan pc)) = true)
    (hs : s.dev.scrubs = true) {e : HbmErr} (he : (s.dev.hbmLoc (e.burst * 64)).pc = pc) (hu : e.ue = false) (behind : Bool) :
    Completes (.hbmScrubStep pc [e] behind) s fun t => t.flag F.HBM_ALARM_ce = true ∧
      t.rd R.HBM_CNT_CE = min (s.dev.rd R.HBM_CNT_CE + 1) 0xFFFFFFFF ∧ KeepsMem s.dev t := by
  obtain ⟨hf, hc, hm⟩ := scrub_corrected hs hon he hu behind
  refine completes_of_live (p := hbmScrub pc [e] behind) rfl hl ?_
  rw [settle_flag, settle_rd]
  exact ⟨hf, hc, fun a => by rw [settle_mem, hm]⟩

/-- HBM_SCRUB_STEP with an uncorrectable error. -/
theorem hbmScrub_uncorrected_completes (hl : s.dev.live = true) (hon : s.dev.on (hbmChFn (pcChan pc)) = true)
    (hs : s.dev.scrubs = true) {e : HbmErr} (he : (s.dev.hbmLoc (e.burst * 64)).pc = pc) (hu : e.ue = true) (behind : Bool) :
    Completes (.hbmScrubStep pc [e] behind) s fun t => t.flag F.HBM_ALARM_ue = true ∧
      t.rd R.HBM_CNT_UE = min (s.dev.rd R.HBM_CNT_UE + 1) 0xFFFFFFFF ∧ (∀ q ∈ s.dev.errorReach e, q ∈ t.x.poison) ∧
      KeepsMem s.dev t := by
  obtain ⟨hf, hc, hp, hm⟩ := scrub_uncorrected hs hon he hu behind
  obtain ⟨-, -, hx⟩ := settle_same ((hbmScrub pc [e] behind).run s.dev)
  refine completes_of_live (p := hbmScrub pc [e] behind) rfl hl ?_
  rw [settle_flag, settle_rd]
  refine ⟨hf, hc, fun q hq => ?_, fun a => by rw [settle_mem, hm]⟩
  rw [hx]
  exact hp q hq

end

/-! ### The obligation -/

theorem Completes.mono {i : Instr} {s : State} {P Q : Dev → Prop} (h : Completes i s P) (hpq : ∀ t, P t → Q t) :
    Completes i s Q := by
  obtain ⟨t, he, hp, ht⟩ := h
  exact ⟨t, he, hp, hpq _ ht⟩

/-- Settles O51: each command of the memory system by its own lemma. -/
theorem memoryServesRefreshesScrubsAndRepairs : Obligations.MemoryServesRefreshesScrubsAndRepairs := by
  intro s hl
  refine ⟨bwSample_completes hl, fun pc hon => ⟨fun e => hbmServe_write_completes hl hon, fun e => hbmServe_read_completes hl hon,
      hbmRefresh_completes hl hon, fun behind hs => ⟨hbmScrub_completes hl hon hs behind, fun e he =>
        ⟨fun hu => hbmScrub_corrected_completes hl hon hs he hu behind,
          fun hu => hbmScrub_uncorrected_completes hl hon hs he hu behind⟩⟩⟩,
    fun pc r p => spareDone_completes hl, fun slack => ?_, fun fk hs => ⟨sramScrub_completes hl hs, fun e he => ⟨fun hu => ?_, fun hu => ?_⟩⟩,
    fun c hon => ⟨hbmRecal_ok_completes hl, fun hrec hre => ⟨hbmRecal_once_completes hl hon hrec,
      retryFails_completes rfl hl (hbmRecal_twice_run hon) hon hrec hre, ?_⟩, hbmRetrain_ok_completes hl hon⟩,
    fun r hw => ⟨hbmTrained_illegal_completes hl hw, fun hm hp => hbmTrained_completes hl hw hm hp⟩⟩
  · refine (urgencyEval_completes hl slack).mono fun t ⟨hu, hk⟩ => ⟨fun m hm => ⟨hu m hm, fun i hsrc hold => ?_⟩, hk⟩
    rw [hu m hm, urgency_by_age hsrc hold]
  · refine (sramScrub_error_completes hl hs he).mono fun t ⟨hp, hc, hk, hm⟩ => ?_
    simp only [sramCount, hu, if_true, he] at hc hk
    exact ⟨hp hu, hc, hk, hm⟩
  · refine (sramScrub_error_completes hl hs he).mono fun t ⟨_, hc, hk, hm⟩ => ?_
    simp only [sramCount, hu, Bool.false_eq_true, if_false, he] at hc hk
    exact ⟨hc, hk, hm⟩
  · exact (retryFails_completes rfl hl (hbmRetrain_fails_run hon) hon hrec hre).mono fun t ⟨hst, hr, _, hm⟩ => ⟨hst, hr, hm⟩

end Sys2Proof.Machine
end

section
/-!
PROOFS. Scripts beside a destination's route: they change neither the route in force nor the record of its takes, and they
leave what an observer shows of what the destination holds.
-/

namespace Sys2Proof.Machine

/-- The kinds of word that hold a destination's route in force and the record of its takes. -/
def routeKinds : List RK := [.DST_CUR_VIDEO, .DST_CUR_BREAK, .DST_CNT_TAKES, .DST_LANDED_LO, .DST_LANDED_HI]

/-- The action changes no route, no record of takes and no memory, and leaves what `ρ` shows of a destination. -/
def Prim.Leaves {α : Type} (n : Nat) (ρ : DstMem → α) : Prim → Prop
  | .wr r _ => r.kind ∉ routeKinds
  | .fstate r _ => r.kind ∉ routeKinds
  | .ext g => ∀ x, ρ (KV.get {} (g x).dst n) = ρ (KV.get {} x.dst n)
  | _ => False

/-- The script changes no route, no record of takes and no memory, and leaves what `ρ` shows of a destination. -/
abbrev Prog.Leaves {α : Type} (n : Nat) (ρ : DstMem → α) (p : Prog) : Prop := p.Acts (Prim.Leaves n ρ)

section
variable {α : Type} {n : Nat} {ρ : DstMem → α}

theorem Prog.Leaves.writes {p : Prog} (h : p.Leaves n ρ) : p.Writes fun r => r.kind ∉ routeKinds :=
  h.mono fun q hq => by
    cases q with
    | wr r v => exact hq
    | fstate r w => exact hq
    | ext g => trivial
    | regReset P => exact hq
    | mem a bs => exact hq
    | memZero P => exact hq

theorem Prog.Leaves.shows {p : Prog} (h : p.Leaves n ρ) (d : Dev) : ρ ((p.run d).dstm n) = ρ (d.dstm n) :=
  Prog.Fixes.proj (π := fun x => ρ (KV.get {} x.dst n)) (h.mono fun q hq => by
    cases q with
    | wr r v => trivial
    | fstate r w => trivial
    | ext g => exact hq
    | regReset P => exact hq.elim
    | mem a bs => exact hq
    | memZero P => exact hq) d

theorem Prog.Leaves.mem {p : Prog} (h : p.Leaves n ρ) (d : Dev) : (p.run d).mem = d.mem := h.writes.memFree.run_mem d

theorem Prog.Leaves.rd {p : Prog} (h : p.Leaves n ρ) {r : Reg} (hr : r.kind ∈ routeKinds) (d : Dev) :
    (p.run d).rd r = d.rd r := by
  rw [Dev.rd, h.writes.keepsRegs d r (not_not_intro hr), Dev.rd]

theorem Prog.Leaves.fld {p : Prog} (h : p.Leaves n ρ) {f : Field} (hr : f.reg.kind ∈ routeKinds) (d : Dev) :
    (p.run d).fld f = d.fld f := h.writes.fld (not_not_intro hr) d

theorem Prog.Leaves.flag {p : Prog} (h : p.Leaves n ρ) {f : Field} (hr : f.reg.kind ∈ routeKinds) (d : Dev) :
    (p.run d).flag f = d.flag f := h.writes.flag (not_not_intro hr) d

theorem Prog.Leaves.route {p : Prog} (h : p.Leaves n ρ) (m : Nat) (d : Dev) : (p.run d).route m = d.route m := by
  have hv : RK.DST_CUR_VIDEO ∈ routeKinds := by simp [routeKinds]
  have hb : RK.DST_CUR_BREAK ∈ routeKinds := by simp [routeKinds]
  rw [Dev.route, h.fld hv, h.flag hv, h.fld hb, h.flag hb, h.fld hb, h.flag hb, Dev.route]

/-! ### Primitives -/

@[simp] theorem leaves_wr (r : Reg) (v : Nat) : (wr r v).Leaves n ρ ↔ r.kind ∉ routeKinds := .rfl
@[simp] theorem leaves_setF (f : Field) (v : Nat) : (setF f v).Leaves n ρ ↔ f.reg.kind ∉ routeKinds :=
  ⟨fun h => h {}, fun h _ => h⟩
@[simp] theorem leaves_setB (f : Field) (b : Bool) : (setB f b).Leaves n ρ ↔ f.reg.kind ∉ routeKinds := leaves_setF f _
@[simp] theorem leaves_addCnt (r : Reg) (k : Nat) : (addCnt r k).Leaves n ρ ↔ r.kind ∉ routeKinds :=
  ⟨fun h => h {}, fun h _ => h⟩
@[simp] theorem leaves_inc (r : Reg) : (inc r).Leaves n ρ ↔ r.kind ∉ routeKinds := leaves_addCnt r 1
@[simp] theorem leaves_ext (g : Ext → Ext) :
    (ext g).Leaves n ρ ↔ ∀ x, ρ (KV.get {} (g x).dst n) = ρ (KV.get {} x.dst n) := .rfl
@[simp] theorem leaves_emit (o : Output) : (emit o).Leaves n ρ := fun _ => rfl
@[simp] theorem leaves_histAdd (k b i c : Nat) : (histAdd k b i c).Leaves n ρ := fun _ _ => rfl
@[simp] theorem leaves_fnPut (f : Fn) (w : FWord) : (fnPut f w).Leaves n ρ ↔ (fnReg f).kind ∉ routeKinds := .rfl
@[simp] theorem leaves_fnUpd (f : Fn) (g : FWord → FWord) : (fnUpd f g).Leaves n ρ ↔ (fnReg f).kind ∉ routeKinds :=
  ⟨fun h => h {}, fun h _ => h⟩
@[simp] theorem leaves_fnMem (f : Fn) (u : FnMem → FnMem) : (fnMem f u).Leaves n ρ := fun _ => rfl

@[simp] theorem leaves_raise {f : Field} (h : f.reg.kind ∉ routeKinds) : (raise f).Leaves n ρ := by
  simp only [raise, acts_read, acts_ite, acts_nop, acts_seq_cons, leaves_setF, h]
  intro d
  refine ⟨fun _ => trivial, fun _ => ⟨not_false, ?_⟩⟩
  split <;> simp

@[simp] theorem leaves_statusAlarm {s a : Field} (b : Bool) (hs : s.reg.kind ∉ routeKinds) (ha : a.reg.kind ∉ routeKinds) :
    (statusAlarm s a b).Leaves n ρ := by
  simp [statusAlarm, hs, ha]

theorem leaves_dstUpd {u : DstMem → DstMem} (h : ∀ m, ρ (u m) = ρ m) : (dstUpd n u).Leaves n ρ := fun x => by
  rw [KV.get_upd_self, h]

@[simp] theorem leaves_storeUpd (c : Nat) (u : Store → Store) : (storeUpd c u).Leaves n ρ := fun _ => rfl
@[simp] theorem leaves_hold (c : Nat) (h : Holder) (s : Option Nat) : (hold c h s).Leaves n ρ := fun _ => rfl
@[simp] theorem leaves_ctlUpd (u : CtlState → CtlState) : (ctlUpd u).Leaves n ρ := fun _ => rfl
@[simp] theorem leaves_ringUpd (r : Nat) (u : RingMem → RingMem) : (ringUpd r u).Leaves n ρ := fun _ => rfl
@[simp] theorem leaves_sessUpd (s : Nat) (u : SessMem → SessMem) : (sessUpd s u).Leaves n ρ := fun _ => rfl
@[simp] theorem leaves_prcUpd (p : Nat) (u : PrcMem → PrcMem) : (prcUpd p u).Leaves n ρ := fun _ => rfl
@[simp] theorem leaves_hlkUpd (l : Nat) (u : HlkMem → HlkMem) : (hlkUpd l u).Leaves n ρ := fun _ => rfl
@[simp] theorem leaves_macUpd (m : Nat) (u : MacMem → MacMem) : (macUpd m u).Leaves n ρ := fun _ => rfl
@[simp] theorem leaves_mramPut (k : MramKey) (v : MramVal) : (mramPut k v).Leaves n ρ := fun _ => rfl
@[simp] theorem leaves_releaseLayer (m layer keep : Nat) : (releaseLayer m layer keep).Leaves n ρ := fun _ => rfl
@[simp] theorem leaves_procRelease (p : Nat) : (procRelease p).Leaves n ρ := fun _ => rfl

/-! ### Completions of commands -/

@[simp] theorem leaves_dropCpl : dropCpl.Leaves n ρ := by simp [dropCpl, routeKinds]
@[simp] theorem leaves_cqWrite (r : RingId) (slot : RingSlot) (c : Completion) : (cqWrite r slot c).Leaves n ρ := by
  simp [cqWrite, routeKinds]
@[simp] theorem leaves_sessSend (s : SessId) (final : Bool) (c : Completion) : (sessSend s final c).Leaves n ρ := by
  simp [sessSend]
@[simp] theorem leaves_deliver (i : Intake) (final : Bool) (c : Completion) : (deliver i final c).Leaves n ρ := by
  cases i <;> simp [deliver]
@[simp] theorem leaves_deliverHandover (k : Nat) (final : Bool) (c : Completion) : (deliverHandover k final c).Leaves n ρ := by
  simp [deliverHandover]
@[simp] theorem leaves_cmdStatus : cmdStatus.Leaves n ρ := by simp [cmdStatus, routeKinds]

@[simp] theorem leaves_sendCompletion (id : Nat) (final : Bool) (st : CmdState) (reason flags : Nat) (body : List Nat) :
    (sendCompletion id final st reason flags body).Leaves n ρ := by
  simp only [sendCompletion, acts_read]
  intro d
  split
  · exact acts_nop
  · simp only [acts_seq_cons]
    refine ⟨?_, ?_, acts_seq_nil⟩
    · split
      · simp
      · simp
    · split
      · simp only [acts_seq_cons, leaves_ctlUpd, leaves_cmdStatus, acts_doIf, leaves_inc, acts_seq_nil, and_true, true_and]
        refine ⟨?_, fun _ => by decide⟩
        split <;> simp
      · simp only [acts_seq_cons, leaves_ctlUpd, acts_seq_nil, and_true, true_and]
        split <;> simp

@[simp] theorem leaves_finish (id flags : Nat) (body : List Nat) : (finish id flags body).Leaves n ρ :=
  leaves_sendCompletion _ _ _ _ _ _

/-! ### Takes, chains and references -/

@[simp] theorem leaves_xptSave (m : Nat) : (xptSave m).Leaves n ρ := by simp [xptSave]
@[simp] theorem leaves_refSync : refSync.Leaves n ρ := by simp [refSync, routeKinds]
@[simp] theorem leaves_planUpdate : planUpdate.Leaves n ρ := by simp [planUpdate, routeKinds]
@[simp] theorem leaves_chainUpd (c : Nat) (u : ChainMem → ChainMem) : (chainUpd c u).Leaves n ρ := by simp [chainUpd]

@[simp] theorem leaves_chainEnd (c : Nat) : (chainEnd c).Leaves n ρ := by
  simp only [chainEnd, acts_doWhen, acts_read, acts_seq_cons, leaves_chainUpd, true_and, acts_seq_nil, and_true]
  intro _ _ d
  split
  · exact leaves_finish _ _ _
  · exact acts_nop

@[simp] theorem leaves_takeDone (m : Nat) (t : PendTake) (frame : Nat) (sup : Bool) (flags : Nat) :
    (takeDone m t frame sup flags).Leaves n ρ := by
  simp only [takeDone, acts_read, acts_seq_cons, acts_doIf, leaves_inc, acts_seq_nil, and_true]
  refine fun d => ⟨fun _ => ⟨by simp [routeKinds], leaves_raise (by simp [routeKinds])⟩, fun _ => ?_⟩
  split <;> simp

/-! ### Processors -/

@[simp] theorem leaves_engUpdate (e : Nat) : (engUpdate e).Leaves n ρ := by simp [engUpdate, routeKinds]
@[simp] theorem leaves_procRestart (p : Nat) : (procRestart p).Leaves n ρ := by simp [procRestart]
@[simp] theorem leaves_lutSync (l : List Nat) : (lutSync l).Leaves n ρ := by simp [lutSync, routeKinds]

theorem prcFstate_apart (p : Nat) : (fnReg (prcFn p)).kind ∉ routeKinds := by simp [prcFn, fnReg, routeKinds]

@[simp] theorem leaves_procMirror (p : Nat) : (procMirror p).Leaves n ρ := by
  simp only [procMirror, acts_read]
  intro d
  split <;> simp [prcFstate_apart]

@[simp] theorem leaves_procDrop (p : Nat) : (procDrop p).Leaves n ρ := by
  simp only [procDrop, acts_read]
  intro d
  split <;> simp

@[simp] theorem leaves_procStopped (p : Nat) : (procStopped p).Leaves n ρ := by
  simp only [procStopped, acts_seq_cons, leaves_procDrop, leaves_procRelease, leaves_setF, acts_read, acts_seq_nil, and_true,
    true_and]
  refine ⟨by simp [routeKinds], fun d => ?_⟩
  split <;> simp

@[simp] theorem leaves_procAlloc (p : Nat) (c : PrcCfg) : (procAlloc p c).Leaves n ρ := by
  simp only [procAlloc, acts_read, acts_seq_cons, acts_ite, acts_doIf, acts_nop, leaves_storeUpd, leaves_ext, acts_seq_nil]
  refine fun d => ⟨⟨by simp, fun _ => ⟨by simp, fun _ => ⟨trivial, fun e => ?_, trivial⟩⟩⟩, by simp, by simp, fun _ e => ?_,
    trivial⟩
  · split <;> simp
  · split <;> simp

theorem leaves_fnEnable {f : Fn} (h : (fnReg f).kind ∉ routeKinds) : (fnEnable f).Leaves n ρ := by
  simp only [fnEnable, acts_seq_cons, leaves_fnMem, acts_read, acts_seq_nil, and_true, true_and]
  intro d
  split <;> simp [h]

theorem leaves_fnDisable {f : Fn} (h : (fnReg f).kind ∉ routeKinds) : (fnDisable f).Leaves n ρ := by
  simp only [fnDisable, acts_read]
  intro d
  split <;> simp [h]

theorem leaves_fnFault {f : Fn} (h : (fnReg f).kind ∉ routeKinds) (code : Nat) : (fnFault f code).Leaves n ρ := by
  have hg : RK.GLB_FAULT_STATUS ∉ routeKinds := by simp [routeKinds]
  simp [fnFault, h, hg]

@[simp] theorem leaves_procLand1 (p : Nat) (c : PrcCfg) : (procLand1 p c).Leaves n ρ := by
  simp only [procLand1, acts_read, acts_seq_cons, acts_ite, acts_doIf, acts_doWhen, leaves_procDrop, leaves_procRestart,
    leaves_prcUpd, leaves_procAlloc, leaves_fnEnable (prcFstate_apart p), leaves_fnDisable (prcFstate_apart p),
    leaves_fnFault (prcFstate_apart p), leaves_procStopped, leaves_procMirror, acts_seq_nil, implies_true, true_and, and_true]
  intro d
  split <;> simp [routeKinds]

@[simp] theorem leaves_procLand (p frame : Nat) (pick : Nat × Nat × PrcCfg → Bool) : (procLand p frame pick).Leaves n ρ := by
  simp only [procLand, acts_read]
  intro d
  split <;> simp

@[simp] theorem leaves_procLandPath (m frame : Nat) : (procLandPath m frame).Leaves n ρ := by simp [procLandPath]

@[simp] theorem leaves_procRouteLanded (m : Nat) : (procRouteLanded m).Leaves n ρ := by
  simp only [procRouteLanded, acts_read]
  intro d
  split <;> simp

@[simp] theorem leaves_procStatus (p : Nat) (e : ProcEval) : (procStatus p e).Leaves n ρ := by simp [procStatus, routeKinds]
@[simp] theorem leaves_procNoFrame (p : Nat) : (procNoFrame p).Leaves n ρ := by simp [procNoFrame, routeKinds]

@[simp] theorem leaves_procStart (p frame : Nat) (b : Int) (line : Bool) : (procStart p frame b line).Leaves n ρ := by
  simp only [procStart, acts_read]
  intro d
  split
  · exact acts_nop
  split
  · exact leaves_procNoFrame p
  · simp only [acts_seq_cons, leaves_procStatus, acts_ite, leaves_procNoFrame, implies_true, true_and, acts_seq_nil, and_true]
    intro _
    split
    · exact leaves_procNoFrame p
    · simp only [acts_seq_cons, leaves_procRelease, leaves_hold, leaves_prcUpd, acts_seq_nil, and_true, true_and]
      refine ⟨leaves_statusAlarm _ (by simp [routeKinds]) (by simp [routeKinds]), ?_⟩
      split <;> simp

@[simp] theorem leaves_procPathStart (m frame : Nat) (b : Int) (line : Bool) : (procPathStart m frame b line).Leaves n ρ := by
  simp only [procPathStart, acts_read]
  intro d
  split
  · exact acts_nop
  · split <;> simp [routeKinds]

/-! ### Transports -/

@[simp] theorem leaves_hlkSend (l kind flow : Nat) (b : List Byte) : (hlkSend l kind flow b).Leaves n ρ := by
  simp [hlkSend, routeKinds]
@[simp] theorem leaves_hlkAncTx (q : Nat) (b : Int) (k : Nat) (ps : List AncPacket) : (hlkAncTx q b k ps).Leaves n ρ := by
  simp [hlkAncTx]
@[simp] theorem leaves_txParked (q : Nat) : (txParked q).Leaves n ρ := by simp [txParked, routeKinds]
@[simp] theorem leaves_flowTxArm (q : Nat) : (flowTxArm q).Leaves n ρ := by simp [flowTxArm]

@[simp] theorem leaves_txBuild (q : Nat) (p : RtpPacket) (slot : Int) (late payload : Nat) :
    (txBuild q p slot late payload).Leaves n ρ := by
  simp only [txBuild, acts_doWhen, acts_read, acts_seq_cons, leaves_wr, leaves_inc, leaves_setF, leaves_setB, acts_each,
    acts_doIf, leaves_macUpd, acts_seq_nil, implies_true, and_true, true_and]
  refine fun _ _ d => ⟨by simp [routeKinds], by simp [routeKinds], by simp [routeKinds], by simp [routeKinds],
    by simp [routeKinds], ?_⟩
  split <;> simp

@[simp] theorem leaves_txAncFrame (m : Nat) : (txAncFrame m).Leaves n ρ := by simp [txAncFrame]
@[simp] theorem leaves_flowBoundary (m : Nat) : (flowBoundary m).Leaves n ρ := by simp [flowBoundary, routeKinds]

/-! ### Layers of the destination -/

@[simp] theorem leaves_dmonRestart (m : Nat) : (dmonRestart m).Leaves n ρ := by simp [dmonRestart, routeKinds]

/-- A layer that takes a selection into use leaves what its own selection leaves. -/
theorem leaves_useLayer {layer : Nat} {s : LayerSel} (h : ∀ m, ρ { m with sel := KV.set {} m.sel layer s } = ρ m) :
    (useLayer n layer s).Leaves n ρ := by
  simp [useLayer, leaves_dstUpd h, notReadyField, notReadyAlarm, routeKinds]

/-- The ancillary frame of a destination is apart from what does not show it. -/
theorem leaves_ancLayer (h : ∀ m a f, ρ { m with anc := a, ancFresh := f } = ρ m) (b : Int) : (ancLayer n b).Leaves n ρ := by
  simp only [ancLayer, acts_read, acts_seq_cons, leaves_releaseLayer, acts_seq_nil, and_true, true_and]
  refine fun d => ⟨?_, leaves_dstUpd fun m => h m _ _⟩
  split <;> simp

@[simp] theorem leaves_syncCount (m : Nat) (old : LayerSel) : (syncCount m old).Leaves n ρ := by simp [syncCount, routeKinds]

theorem leaves_overlayLayer {i : Nat} (h : ∀ m s, ρ { m with sel := KV.set {} m.sel (1 + i) s } = ρ m) (b : Int) :
    (overlayLayer n i b).Leaves n ρ := by
  simp [overlayLayer, leaves_useLayer fun m => h m _]

theorem leaves_baseLayer (h : ∀ m s, ρ { m with sel := KV.set {} m.sel 0 s } = ρ m) (k : Nat) (b : Int) :
    (baseLayer n k b).Leaves n ρ := by
  have hu : ∀ s, (useLayer n 0 s).Leaves n ρ := fun s => leaves_useLayer fun m => h m s
  simp only [baseLayer, acts_read]
  intro d
  split
  · simp [hu]
  · simp only [acts_seq_cons, leaves_procPathStart, acts_read, acts_seq_nil, and_true, true_and]
    intro e
    split
    · simp [hu]
    · simp [hu]
    · simp [hu]
    · simp [hu]
    · split <;> simp [hu]

end

end Sys2Proof.Machine
end

section
/-!
PROOFS. A destination's frame boundary, switch point and switch line: R18, R109, R113, R127.
-/

namespace Sys2Proof.Machine

/-! ### Scripts of the typed state -/

/-- The action changes neither a register nor memory. -/
def Prim.Typed : Prim → Prop
  | .ext _ => True
  | _ => False

@[simp] theorem typed_dstUpd (n : Nat) (u : DstMem → DstMem) : (dstUpd n u).Acts Prim.Typed := trivial
@[simp] theorem typed_hold (c : Nat) (h : Holder) (s : Option Nat) : (hold c h s).Acts Prim.Typed := trivial

theorem Prog.Acts.typed_regs {p : Prog} (h : p.Acts Prim.Typed) (d : Dev) : (p.run d).regs = d.regs := by
  refine h.run_rel (R := fun d e => e.regs = d.regs) (fun _ => rfl) (fun h g => g.trans h) (fun q d hq => ?_) d
  cases q with
  | ext g => rfl
  | wr r v => exact hq.elim
  | fstate r w => exact hq.elim
  | regReset P => exact hq.elim
  | mem a bs => exact hq.elim
  | memZero P => exact hq.elim

@[simp] theorem settle_dstm (n : Nat) (d : Dev) : (settle.run d).dstm n = d.dstm n := by
  rw [Dev.dstm, (settle_same d).2.2]
  rfl

@[simp] theorem settle_route (n : Nat) (d : Dev) : (settle.run d).route n = d.route n := by simp [Dev.route]

theorem keepsMem_of_eq {d e : Dev} (h : e.mem = d.mem) : KeepsMem d e := fun a => by rw [h]

variable {n : Nat} {d : Dev}

/-! ### The switch point (R109) -/

/-- The changes that a switch point of the field resolves at a frame. -/
def dueAt (k : Nat) (field2 : Bool) (t : PendTake) : Bool := decide (t.frame ≤ k) && t.field2 == field2

/-- What a switch point leaves of the changes on their way. -/
def resolve (k : Nat) (field2 : Bool) (m : DstMem) : List PendTake × List PendTake :=
  (m.resolved ++ m.pend.filter (dueAt k field2), m.pend.filter fun t => !dueAt k field2 t)

/-- To drop the elements found among those that a predicate keeps is to keep those it drops. -/
theorem filter_not_contains_filter {α : Type} [DecidableEq α] (p : α → Bool) (l : List α) :
    (l.filter fun t => !(l.filter p).contains t) = l.filter fun t => !p t := by
  refine List.filter_congr fun t ht => ?_
  rw [Bool.eq_iff_iff]
  simp [ht]

/-- A switch point of a destination that is not opaque moves the due changes behind the resolved ones; what follows only
chooses frames. -/
theorem switchPoint_run (field2 : Bool) (ho : d.flag (F.DST_CTRL_opaque n) = false) : ∃ (u : DstMem → DstMem) (rest : Prog),
    (∀ m, m = d.dstm n → ((u m).resolved, (u m).pend) = resolve (d.dstTiming n).2 field2 m) ∧
    rest.Leaves n (fun m => (m.resolved, m.pend)) ∧ rest.Acts Prim.Typed ∧
    (switchPoint n field2).run d = rest.run ((dstUpd n u).run d) := by
  refine ⟨_, _, ?_, ?_, ?_, run_seq_cons _ _ _⟩
  · rintro m rfl
    rw [ho, if_neg Bool.false_ne_true, Nat.add_zero]
    exact congrArg _ (filter_not_contains_filter (dueAt (d.dstTiming n).2 field2) _)
  · simp only [acts_seq_cons, acts_doIf, acts_each, leaves_hold, acts_seq_nil, implies_true, and_true]
    refine fun _ => ⟨fun _ => leaves_dstUpd fun _ => rfl, fun i _ => ?_⟩
    split
    · exact acts_nop
    · exact (acts_seq_cons _ _).2 ⟨leaves_dstUpd fun _ => rfl, by simp⟩
  · simp only [acts_seq_cons, acts_doIf, acts_each, typed_dstUpd, typed_hold, acts_seq_nil, implies_true, and_true, true_and]
    refine fun _ i _ => ?_
    split <;> simp

theorem switchPoint_completes {n : DstId} {s : State} (hl : s.dev.live = true) (field2 : Bool)
    (ho : s.dev.flag (F.DST_CTRL_opaque n) = false) : Completes (.destSwitchPoint n field2) s fun t =>
      ((t.dstm n).resolved, (t.dstm n).pend) = resolve (s.dev.dstTiming n).2 field2 (s.dev.dstm n) ∧
      t.regs = s.dev.regs ∧ KeepsMem s.dev t := by
  obtain ⟨u, rest, hu, hr, ht, hrun⟩ := switchPoint_run field2 ho
  refine completes_of_live rfl hl ⟨?_, ?_, keepsMem_of_eq ?_⟩
  · rw [settle_dstm, hrun, hr.shows, dstUpd_self, hu _ rfl]
  · rw [settle_regs, hrun, ht.typed_regs, dstUpd_regs]
  · rw [settle_mem, hrun, hr.mem, dstUpd_mem]

/-! ### The frame boundary (R18, R127) -/

/-- Two devices agree on all that a destination chooses its frames by: they differ only in the chains that are due and in
what destinations hold beside this one's own copy of its timing. -/
def SameChoices (n : Nat) (d e : Dev) : Prop :=
  ∃ c t, (KV.get {} t n).fly = (d.dstm n).fly ∧ e = { d with x := { d.x with chainDue := c, dst := t } }

/-- The action only changes what the choice of frames does not depend on. -/
def Prim.Prepares (n : Nat) : Prim → Prop
  | .ext g => ∀ x, ∃ c t, (KV.get {} t n).fly = (KV.get {} x.dst n).fly ∧ g x = { x with chainDue := c, dst := t }
  | _ => False

theorem SameChoices.trans {a b c : Dev} (h : SameChoices n a b) (g : SameChoices n b c) : SameChoices n a c := by
  obtain ⟨c, t, ht, rfl⟩ := h
  obtain ⟨c', t', ht', rfl⟩ := g
  exact ⟨c', t', ht'.trans ht, rfl⟩

theorem Prog.Acts.sameChoices {p : Prog} (h : p.Acts (Prim.Prepares n)) (d : Dev) : SameChoices n d (p.run d) := by
  refine h.run_rel (R := SameChoices n) (fun d => ⟨_, _, rfl, rfl⟩) .trans (fun q d hq => ?_) d
  cases q with
  | ext g =>
    obtain ⟨c, t, ht, hg⟩ := hq d.x
    exact ⟨c, t, ht, congrArg (Dev.mk d.regs d.mem) hg⟩
  | wr r v => exact hq.elim
  | fstate r w => exact hq.elim
  | regReset P => exact hq.elim
  | mem a bs => exact hq.elim
  | memZero P => exact hq.elim

theorem prepares_dstUpd {u : DstMem → DstMem} (h : ∀ m, (u m).fly = m.fly) : (dstUpd n u).Acts (Prim.Prepares n) := fun x =>
  ⟨x.chainDue, _, by rw [KV.get_upd_self, h], rfl⟩

theorem chainFrames_prepares (m : Nat) : (chainFrames m).Acts (Prim.Prepares n) := by
  simp only [chainFrames, acts_read, acts_each]
  exact fun d e _ x => ⟨_, x.dst, rfl, rfl⟩

theorem lineJudge_prepares : (lineJudge n).Acts (Prim.Prepares n) := by
  simp only [lineJudge, acts_read, acts_ite]
  refine fun d => ⟨fun _ => ⟨fun _ => ?_, fun _ => ?_⟩, fun _ => ⟨fun _ => ⟨fun _ => ?_, fun _ => ?_⟩, fun _ => ?_⟩⟩ <;>
    exact prepares_dstUpd fun _ => rfl

section
variable {e : Dev} (h : SameChoices n d e)
include h

theorem SameChoices.regs : e.regs = d.regs := by
  obtain ⟨c, t, ht, rfl⟩ := h
  rfl

theorem SameChoices.mem : e.mem = d.mem := by
  obtain ⟨c, t, ht, rfl⟩ := h
  rfl

theorem SameChoices.fld (f : Field) : e.fld f = d.fld f := by
  obtain ⟨c, t, ht, rfl⟩ := h
  rfl

theorem SameChoices.flag (f : Field) : e.flag f = d.flag f := by rw [Dev.flag, h.fld, Dev.flag]

theorem SameChoices.route : e.route n = d.route n := by simp only [Dev.route, h.fld, h.flag]

theorem SameChoices.pathProc : e.pathProc n = d.pathProc n := by
  obtain ⟨c, t, ht, rfl⟩ := h
  rfl

theorem SameChoices.dstTiming : e.dstTiming n = d.dstTiming n := by
  obtain ⟨c, t, ht, rfl⟩ := h
  simp only [Dev.dstTiming, Dev.dstm] at ht ⊢
  rw [ht]
  rfl

theorem SameChoices.boundary : e.boundary n = d.boundary n := by
  rw [Dev.boundary, h.dstTiming, Dev.boundary]
  obtain ⟨c, t, ht, rfl⟩ := h
  rfl

theorem SameChoices.directHead (code : Nat) : e.directHead n code = d.directHead n code := by
  rw [Dev.directHead, h.dstTiming, Dev.directHead]
  obtain ⟨c, t, ht, rfl⟩ := h
  rfl

theorem SameChoices.layerChoice (layer code : Nat) (line : Bool) (b : Int) :
    e.layerChoice n layer code line b = d.layerChoice n layer code line b := by
  rw [Dev.layerChoice, h.directHead, Dev.layerChoice]
  obtain ⟨c, t, ht, rfl⟩ := h
  rfl

end

theorem lineJudge_leaves : (lineJudge n).Leaves n fun m => m.lines := by
  simp only [lineJudge, acts_read, acts_ite]
  refine fun d => ⟨fun _ => ⟨fun _ => ?_, fun _ => ?_⟩, fun _ => ⟨fun _ => ⟨fun _ => ?_, fun _ => ?_⟩, fun _ => ?_⟩⟩ <;>
    exact leaves_dstUpd fun _ => rfl

/-- What a frame boundary settles for a frame: the lines built of it, and the base layer's selection. -/
def frameBase (m : DstMem) : List (Nat × List Nat) × LayerSel := (m.lines, KV.get {} m.sel 0)

theorem frameBase_set {layer : Nat} (h : layer ≠ 0) (m : DstMem) (s : LayerSel) :
    frameBase { m with sel := KV.set {} m.sel layer s } = frameBase m :=
  congrArg (Prod.mk m.lines) (KV.get_set_other _ _ _ h.symm)

/-- Taking a selection into use for the base layer sets it, and what follows leaves it. -/
theorem useLayer_base_run (s : LayerSel) (d : Dev) : ∃ rest : Prog, rest.Leaves n frameBase ∧
    (useLayer n 0 s).run d = rest.run ((dstUpd n fun m => { m with sel := KV.set {} m.sel 0 s }).run d) := by
  refine ⟨_, ?_, run_seq_cons _ _ _⟩
  simp [notReadyField, notReadyAlarm, routeKinds]

theorem flyStep_none (h : (d.dstm n).fly = none) : (flyStep n).run d = d := by
  rw [flyStep, run_read, h]
  rfl

theorem SameChoices.dstRuns {e : Dev} (h : SameChoices n d e) : e.dstRuns n = d.dstRuns n := by
  obtain ⟨c, t, ht, rfl⟩ := h
  rfl

/-- The base layer of a destination without a path processor shows the choice for its route. -/
theorem baseLayer_run (hp : d.pathProc n = none) (k : Nat) (b : Int) : (baseLayer n k b).run d =
    (useLayer n 0 (d.layerChoice n 0 (d.fld (F.DST_CUR_VIDEO_source n)) (d.flag (F.DST_CUR_VIDEO_line_mode n)) b)).run
      ((releaseLayer n 0 (d.fld (F.DST_CUR_VIDEO_source n))).run d) := by
  rw [baseLayer, run_read, hp]
  exact run_seq_cons _ _ _

/-- A frame boundary prepares the frame, takes the choice for the base layer into use, and does the rest beside it. -/
theorem dstBoundary_run (hr : d.dstRuns n = true) (hf : (d.dstm n).fly = none) (ho : d.flag (F.DST_CTRL_opaque n) = false)
    (hp : d.pathProc n = none) : ∃ (e : Dev) (rest : Prog), SameChoices n d e ∧ (e.dstm n).lines = [] ∧
      rest.Leaves n frameBase ∧
      (dstBoundary n).run d = rest.run ((useLayer n 0 (d.layerChoice n 0 (d.fld (F.DST_CUR_VIDEO_source n))
        (d.flag (F.DST_CUR_VIDEO_line_mode n)) (d.boundary n))).run
          ((releaseLayer n 0 (d.fld (F.DST_CUR_VIDEO_source n))).run e)) := by
  have h1 := (chainFrames_prepares (n := n) n).sameChoices d
  rw [dstBoundary, run_seq_cons, run_doWhen, if_pos hr, flyStep_none hf, run_seq_cons, run_seq_cons, run_doWhen,
    if_pos (h1.dstRuns.trans hr), run_seq_nil, run_seq_cons, run_seq_cons, run_seq_cons, run_seq_nil]
  have h2 := h1.trans ((prepares_dstUpd (n := n) (u := fun m => { m with lines := [], point2 := none })
    fun _ => rfl).sameChoices _)
  have l2 := congrArg DstMem.lines (dstUpd_self n (fun m => { m with lines := [], point2 := none }) ((chainFrames n).run d))
  generalize (dstUpd n _).run _ = d2 at h2 l2 ⊢
  generalize hd : (Prog.read _).run d2 = d3
  have h3 : SameChoices n d d3 := by
    rw [← hd]
    refine h2.trans (Prog.Acts.sameChoices ?_ d2)
    exact fun _ => prepares_dstUpd fun _ => rfl
  have l3 : (d3.dstm n).lines = [] := by
    rw [← hd]
    refine (Prog.Leaves.shows (ρ := DstMem.lines) ?_ d2).trans l2
    exact fun _ => leaves_dstUpd fun _ => rfl
  rw [run_read, if_neg (h3.flag _ ▸ ho ▸ Bool.false_ne_true), run_seq_cons, run_seq_cons]
  have h4 := h3.trans (lineJudge_prepares.sameChoices d3)
  have l4 := (lineJudge_leaves.shows d3).trans l3
  rw [baseLayer_run (h4.pathProc.trans hp), h4.layerChoice, h4.fld, h4.flag, h3.boundary]
  refine ⟨_, _, h4, l4, ?_, rfl⟩
  have hs : ∀ i m s, frameBase { m with sel := KV.set {} m.sel (1 + i) s } = frameBase m :=
    fun i m s => frameBase_set (Nat.add_comm i 1 ▸ Nat.succ_ne_zero i) m s
  simp [leaves_overlayLayer (hs _), leaves_ancLayer (ρ := frameBase) fun _ _ _ => rfl, routeKinds]

theorem destBoundary_completes {n : DstId} {s : State} (hl : s.dev.live = true) (hr : s.dev.dstRuns n = true)
    (ho : s.dev.flag (F.DST_CTRL_opaque n) = false) (hf : (s.dev.dstm n).fly = none) (hp : s.dev.pathProc n = none) :
    Completes (.destFrameBoundary n) s fun t =>
      frameBase (t.dstm n) = ([], s.dev.layerChoice n 0 (s.dev.fld (F.DST_CUR_VIDEO_source n))
        (s.dev.flag (F.DST_CUR_VIDEO_line_mode n)) (s.dev.boundary n)) ∧
      t.route n = s.dev.route n ∧ KeepsMem s.dev t := by
  obtain ⟨e, rest, he, hlines, hrest, hrun⟩ := dstBoundary_run hr hf ho hp
  obtain ⟨use, huse, hurun⟩ := useLayer_base_run (n := n) (s.dev.layerChoice n 0 (s.dev.fld (F.DST_CUR_VIDEO_source n))
    (s.dev.flag (F.DST_CUR_VIDEO_line_mode n)) (s.dev.boundary n))
    ((releaseLayer n 0 (s.dev.fld (F.DST_CUR_VIDEO_source n))).run e)
  have hflow : (seq [doWhen (fun d => d.dstRuns n) (flowBoundary n)]).Leaves (n : Nat) frameBase := by simp
  refine completes_of_live rfl hl ?_
  rw [destBoundary, run_seq_cons, hrun, hurun]
  refine ⟨?_, ?_, keepsMem_of_eq ?_⟩
  · rw [settle_dstm, hflow.shows, hrest.shows, huse.shows, dstUpd_self]
    exact Prod.ext hlines (KV.get_set_self _ _ _ _)
  · rw [settle_route, hflow.route, hrest.route, huse.route]
    exact he.route
  · rw [settle_mem, hflow.mem, hrest.mem, huse.mem, dstUpd_mem]
    exact he.mem

/-! ### The switch line (R108, R109, R113) -/

theorem destSwitch_run (field2 : Bool) (d : Dev) : ∃ rest : Prog, rest.Leaves n DstMem.resolved ∧
    (destSwitch n field2).run d = rest.run ((switchLine n field2).run d) := by
  refine ⟨_, ?_, run_seq_cons _ _ _⟩
  have ha : ∀ b, (ancLayer n b).Leaves n DstMem.resolved := leaves_ancLayer fun _ _ _ => rfl
  have ho : ∀ o, (dstUpd n fun m => { m with opqOld := o }).Leaves n DstMem.resolved := fun _ => leaves_dstUpd fun _ => rfl
  simp [ha, ho]

theorem leaves_useNext (k : Nat) (route : Bool) : (useNext n k route).Leaves n DstMem.resolved := by
  have hu : ∀ layer s, (useLayer n layer s).Leaves n DstMem.resolved := fun _ _ => leaves_useLayer fun _ => rfl
  have hb : ∀ b, (baseLayer n k b).Leaves n DstMem.resolved := leaves_baseLayer (fun _ _ => rfl) k
  have hn : (dstUpd n fun m => { m with next := [] }).Leaves n DstMem.resolved := leaves_dstUpd fun _ => rfl
  simp only [useNext, acts_read, acts_seq_cons, acts_ite, acts_doIf, acts_each, hb, hn, acts_seq_nil, implies_true, true_and,
    and_true]
  refine fun d => ⟨fun _ => ?_, fun l _ => ?_⟩
  · split <;> simp [hu]
  · split <;> simp [hu]

/-- After the mode change that is due, a switch line lands the resolved changes; what follows leaves the route. -/
theorem switchLine_run (field2 : Bool) (d : Dev) : ∃ rest : Prog, rest.Leaves n DstMem.resolved ∧
    (switchLine n field2).run d = rest.run ((landResolved n (d.dstTiming n).2).run
      ((doIf (d.dstRuns n && !field2 && !d.flag (F.DST_CTRL_opaque n)) (modeLand n)).run d)) := by
  refine ⟨_, ?_, (run_seq_cons _ _ _).trans (run_seq_cons _ _ _)⟩
  simp [leaves_useNext]

theorem modeLand_none (h : (d.dstm n).modeDue = none) : (modeLand n).run d = d := by
  rw [modeLand, run_read, h]
  rfl

theorem modeLand_writes (n : Nat) : (modeLand n).Writes fun r => r.kind ∈ [RK.DST_CUR_VIDEO, .DST_STATUS, .DST_ALARM] := by
  simp only [modeLand, acts_read]
  intro d
  split
  · exact acts_nop
  · simp [statusAlarm_writes, xptSave, mramPut, dstUpd]

theorem modeLand_fixes (n : Nat) : (modeLand n).Fixes fun x => (KV.get {} x.dst n).resolved := by
  have hr : (raise (F.DST_ALARM_line_mode_fallback n)).Fixes fun x => (KV.get {} x.dst n).resolved :=
    fixes_raise _ fun _ _ _ _ _ _ => rfl
  simp only [modeLand, acts_read]
  intro d
  split
  · exact acts_nop
  · simp [statusAlarm, hr, xptSave, mramPut, dstUpd]

theorem landResolved_nil (h : (d.dstm n).resolved = []) (k : Nat) : (landResolved n k).run d = d := by
  rw [landResolved, run_read, h]
  rfl

/-- One resolved change is applied, recorded and counted; once it is no longer resolved, the rest leaves the route. -/
theorem landResolved_run {p : PendTake} (h : (d.dstm n).resolved = [p]) (k : Nat) : ∃ mid rest : Prog,
    mid.Leaves n (fun _ => ()) ∧ rest.Leaves n DstMem.resolved ∧
    (landResolved n k).run d = rest.run ((dstUpd n fun m => { m with resolved := [] }).run (mid.run
      ((inc (R.DST_CNT_TAKES n)).run ((set64 (R.DST_LANDED_LO n) (R.DST_LANDED_HI n) k).run ((applyChanges n [p]).run d))))) := by
  refine ⟨seq [?mode, ?fallback], ?after, ?_, ?_, ?run⟩
  case run =>
    rw [landResolved, run_read, h, run_doIf, if_pos (show (!List.isEmpty [p]) = true from rfl), run_seq_cons, run_seq_cons,
      run_seq_cons, run_seq_cons, run_seq_cons, run_seq_cons, run_seq_cons, run_seq_cons, run_seq_nil]
    rfl
  · simp [leaves_dstUpd, routeKinds]
  · simp [routeKinds]

/-- A change of no layer only puts a route in force. -/
theorem applyChanges_single {p : PendTake} (h : p.layer = none) (d : Dev) :
    (applyChanges n [p]).run d = (putRoute n (p.applyTo (d.route n))).run d := by
  rw [applyChanges, run_read, run_seq_cons, run_seq_cons, run_seq_nil, run_each_cons, run_each_nil, h, run_nop,
    List.foldl_cons, List.foldl_nil]

theorem putRoute_writes (n : Nat) (r : Route) : (putRoute n r).Writes fun r => r.kind ∈ [RK.DST_CUR_VIDEO, .DST_CUR_BREAK] := by
  simp [putRoute]

theorem putRoute_source (n : DstId) (r : Route) (d : Dev) :
    ((putRoute n r).run d).fld (F.DST_CUR_VIDEO_source n) = r.video % 4096 := by
  have hw : (F.DST_CUR_VIDEO_source n).within = true :=
    Field.within_of_hasBits (Reg.valid_indexed rfl n.isLt) (show hasBits .DST_CUR_VIDEO 0 12 = true by decide)
  have hline : ∀ v e, ((setF (F.DST_CUR_VIDEO_line_mode n) v).run e).fld (F.DST_CUR_VIDEO_source n) =
      e.fld (F.DST_CUR_VIDEO_source n) := fun v e => setF_fld_apart v e rfl hw (by simp)
  have hbreak : ∀ f : Field, f.reg = R.DST_CUR_BREAK n → ∀ v e, ((setF f v).run e).fld (F.DST_CUR_VIDEO_source n) =
      e.fld (F.DST_CUR_VIDEO_source n) := fun f hf v e => setF_fld_other v e (by rw [hf]; simp)
  rw [putRoute, run_seq_cons, run_seq_cons, run_seq_cons, run_seq_cons, run_seq_cons, run_seq_cons, run_seq_nil, setB, setB,
    setB, hbreak _ rfl, hbreak _ rfl, hbreak _ rfl, hbreak _ rfl, hline, setF_fld_self _ _ _ hw]
  rfl

/-- A 64-bit value held in two registers that have every bit. -/
theorem set64_rd64 {lo hi : Reg} (hl : lo.valid = true) (hh : hi.valid = true) (nl : isFstate lo.kind = false)
    (nh : isFstate hi.kind = false) (ml : (regInfo lo.kind).impl = 0xFFFFFFFF) (mh : (regInfo hi.kind).impl = 0xFFFFFFFF)
    (hne : lo ≠ hi) (v : Nat) (d : Dev) : ((set64 lo hi v).run d).rd64 lo hi = v % 2 ^ 64 := by
  rw [Dev.rd64, set64, run_seq_cons, run_seq_cons, run_seq_nil, wr_rd_other _ _ hne, wr_rd_full _ _ hl nl ml,
    wr_rd_full _ _ hh nh mh]
  omega

/-- One resolved video take lands: its source is in force, it is no longer resolved, counted, and its frame is shown. -/
theorem landResolved_single {n : DstId} {p : PendTake} (h : (d.dstm n).resolved = [p]) (hv : p.video = true)
    (hl : p.layer = none) (k : Nat) {e : Dev} (he : e = (landResolved n k).run d) :
    e.fld (F.DST_CUR_VIDEO_source n) = p.source % 4096 ∧ (e.dstm n).resolved = [] ∧
    e.rd (R.DST_CNT_TAKES n) = min (d.rd (R.DST_CNT_TAKES n) + 1) 0xFFFFFFFF ∧
    e.rd64 (R.DST_LANDED_LO n) (R.DST_LANDED_HI n) = k % 2 ^ 64 ∧ e.mem = d.mem := by
  obtain ⟨mid, rest, hm, hr, hrun⟩ := landResolved_run h k
  rw [applyChanges_single hl] at hrun
  have hlo : (R.DST_LANDED_LO n).valid = true := Reg.valid_indexed rfl n.isLt
  have hhi : (R.DST_LANDED_HI n).valid = true := Reg.valid_indexed rfl n.isLt
  have hset : (set64 (R.DST_LANDED_LO n) (R.DST_LANDED_HI n) k).Writes
      fun r => r = R.DST_LANDED_LO n ∨ r = R.DST_LANDED_HI n := by simp [set64]
  have hinc : (inc (R.DST_CNT_TAKES n)).Writes fun r => r = R.DST_CNT_TAKES n := (writes_inc _).2 rfl
  have happly := putRoute_writes n (p.applyTo (d.route n))
  have hk : ∀ {r : Reg}, r.kind ∈ routeKinds → e.rd r =
      ((inc (R.DST_CNT_TAKES n)).run ((set64 (R.DST_LANDED_LO n) (R.DST_LANDED_HI n) k).run
        ((putRoute n (p.applyTo (d.route n))).run d))).rd r :=
    fun {r} hr' => by rw [he, hrun, hr.rd hr', dstUpd_rd, hm.rd hr']
  refine ⟨?_, ?_, ?_, ?_, ?_⟩
  · rw [Dev.fld, hk (by simp [routeKinds]), ← Dev.fld, hinc.fld (by simp), hset.fld (by simp), putRoute_source]
    simp [PendTake.applyTo, hv, hl]
  · rw [he, hrun, hr.shows, dstUpd_self]
  · rw [hk (by simp [routeKinds]), inc_rd_self _ (Reg.valid_indexed rfl n.isLt) rfl rfl, Dev.rd, hset.keepsRegs _ _ (by simp),
      happly.keepsRegs _ _ (by simp), Dev.rd]
  · rw [Dev.rd64, hk (by simp [routeKinds]), hk (by simp [routeKinds])]
    have hrd : ∀ {r : Reg} (e : Dev), r ≠ R.DST_CNT_TAKES n → ((inc (R.DST_CNT_TAKES n)).run e).rd r = e.rd r :=
      fun _ hne => by rw [Dev.rd, inc_reg_other _ hne, Dev.rd]
    rw [hrd _ (by simp), hrd _ (by simp)]
    exact set64_rd64 hlo hhi rfl rfl rfl rfl (by simp) k _
  · rw [he, hrun, hr.mem, dstUpd_mem, hm.mem, inc_mem, hset.memFree.run_mem, happly.memFree.run_mem]

theorem destSwitch_single_completes {n : DstId} {s : State} (hl : s.dev.live = true) (field2 : Bool) {p : PendTake}
    (h : (s.dev.dstm n).resolved = [p]) (hv : p.video = true) (hp : p.layer = none) :
    Completes (.destSwitchLine n field2) s fun t =>
      t.fld (F.DST_CUR_VIDEO_source n) = p.source % 4096 ∧ (t.dstm n).resolved = [] ∧
      t.rd (R.DST_CNT_TAKES n) = min (s.dev.rd (R.DST_CNT_TAKES n) + 1) 0xFFFFFFFF ∧
      t.rd64 (R.DST_LANDED_LO n) (R.DST_LANDED_HI n) = (s.dev.dstTiming n).2 % 2 ^ 64 ∧ KeepsMem s.dev t := by
  obtain ⟨post, hpost, hrun⟩ := destSwitch_run (n := n) field2 s.dev
  obtain ⟨rest, hrest, hline⟩ := switchLine_run (n := n) field2 s.dev
  have hmode : ∀ b, (doIf b (modeLand n)).Writes fun r => r.kind ∈ [RK.DST_CUR_VIDEO, .DST_STATUS, .DST_ALARM] :=
    fun b => (acts_doIf _ _).2 fun _ => modeLand_writes n
  have hfix : ∀ b, (doIf b (modeLand n)).Fixes fun x => (KV.get {} x.dst n).resolved :=
    fun b => (acts_doIf _ _).2 fun _ => modeLand_fixes n
  obtain ⟨hsrc, hres, hcnt, hland, hmem⟩ := landResolved_single (((hfix _).proj s.dev).trans h) hv hp (s.dev.dstTiming n).2 rfl
  refine completes_of_live rfl hl ?_
  rw [hrun, hline]
  refine ⟨?_, ?_, ?_, ?_, keepsMem_of_eq ?_⟩
  · rw [settle_fld, hpost.fld (by simp [routeKinds]), hrest.fld (by simp [routeKinds]), hsrc]
  · rw [settle_dstm]
    exact (hpost.shows _).trans ((hrest.shows _).trans hres)
  · rw [settle_rd, hpost.rd (by simp [routeKinds]), hrest.rd (by simp [routeKinds]), hcnt, Dev.rd,
      (hmode _).keepsRegs _ _ (by simp), Dev.rd]
  · rw [Dev.rd64, settle_rd, settle_rd, hpost.rd (by simp [routeKinds]), hpost.rd (by simp [routeKinds]),
      hrest.rd (by simp [routeKinds]), hrest.rd (by simp [routeKinds]), ← Dev.rd64, hland]
  · rw [settle_mem, hpost.mem, hrest.mem, hmem, (hmode _).memFree.run_mem]

theorem destSwitch_none_completes {n : DstId} {s : State} (hl : s.dev.live = true) (field2 : Bool)
    (h : (s.dev.dstm n).resolved = []) (hm : (s.dev.dstm n).modeDue = none) :
    Completes (.destSwitchLine n field2) s fun t => t.route n = s.dev.route n ∧
      t.rd (R.DST_CNT_TAKES n) = s.dev.rd (R.DST_CNT_TAKES n) ∧ KeepsMem s.dev t := by
  obtain ⟨post, hpost, hrun⟩ := destSwitch_run (n := n) field2 s.dev
  obtain ⟨rest, hrest, hline⟩ := switchLine_run (n := n) field2 s.dev
  rw [run_doIf, modeLand_none hm, ite_self, landResolved_nil h] at hline
  refine completes_of_live rfl hl ?_
  rw [hrun, hline]
  refine ⟨?_, ?_, keepsMem_of_eq ?_⟩
  · rw [settle_route, hpost.route, hrest.route]
  · rw [settle_rd, hpost.rd (by simp [routeKinds]), hrest.rd (by simp [routeKinds])]
  · rw [settle_mem, hpost.mem, hrest.mem]

/-- Settles O37: each command is cut into what the statement shows and scripts beside a destination's route. -/
theorem destinationsShowFramesAndLandChanges : Obligations.DestinationsShowFramesAndLandChanges := by
  unfold Obligations.DestinationsShowFramesAndLandChanges
  intro n s hl hr
  refine ⟨fun ho hf hp => ?_, fun field2 ho => ?_, fun field2 p h hv hp => destSwitch_single_completes hl field2 h hv hp,
    fun field2 h hm => destSwitch_none_completes hl field2 h hm⟩
  · refine (destBoundary_completes hl hr ho hf hp).mono fun t ⟨hbase, hroute, hmem⟩ => ?_
    obtain ⟨hlines, hsel⟩ := Prod.mk.inj hbase
    exact ⟨hsel, hlines, hroute, hmem⟩
  · refine (switchPoint_completes hl field2 ho).mono fun t ⟨hpair, hregs, hmem⟩ => ?_
    obtain ⟨hres, hpend⟩ := Prod.mk.inj hpair
    exact ⟨hres, hpend, hregs, hmem⟩

end Sys2Proof.Machine
end

section
/-!
PROOFS. What settling leaves of the time state, fields that a script leaves, and the idle step: R37.
-/

namespace Sys2Proof.Machine

/-! ### Settling -/

section
variable (d : Dev)

@[simp] theorem settle_time : (settle.run d).x.time = d.x.time := by
  obtain ⟨-, -, hx⟩ := settle_same d
  rw [hx]

@[simp] theorem settle_sfld (f : Field) : (settle.run d).sfld f = d.sfld f := by simp [Dev.sfld]
@[simp] theorem settle_tbm (n : Nat) : (settle.run d).tbm n = d.tbm n := by simp [Dev.tbm]
@[simp] theorem settle_otgm (n : Nat) : (settle.run d).otgm n = d.otgm n := by simp [Dev.otgm]
@[simp] theorem settle_refm (n : Nat) : (settle.run d).refm n = d.refm n := by simp [Dev.refm]
@[simp] theorem settle_evtm (n : Nat) : (settle.run d).evtm n = d.evtm n := by simp [Dev.evtm]
@[simp] theorem settle_qstate (n : Nat) : (settle.run d).qstate n = d.qstate n := by simp [Dev.qstate]

theorem keepsMem_settle {d e : Dev} (h : e.mem = d.mem) : KeepsMem d (settle.run e) := keepsMem_of_eq (by rw [settle_mem, h])

theorem keepsRegs_settle {d e : Dev} {but : Reg → Prop} (h : KeepsRegs d e but) : KeepsRegs d (settle.run e) but := fun r hr => by
  rw [settle_reg, h r hr]

/-- A script that leaves the typed state keeps everything but the registers it writes. -/
theorem Prog.Writes.keeps {p : Prog} {but : Reg → Prop} (hw : p.Writes but) (hx : p.Fixes id) (d : Dev) :
    Keeps d (settle.run (p.run d)) but :=
  ⟨keepsRegs_settle (hw.keepsRegs d), keepsMem_settle (hw.memFree.run_mem d), keepsExt_settle (hx.proj d)⟩

end

/-! ### Fields that a script leaves -/

/-- The script leaves the field. -/
def Prog.KeepsFld (g : Field) (p : Prog) : Prop := ∀ d, (p.run d).fld g = d.fld g

section
variable {g : Field} {p q : Prog}

theorem Prog.Writes.keepsFld {but : Reg → Prop} (h : p.Writes but) (hg : ¬ but g.reg) : p.KeepsFld g := h.fld hg

theorem Prog.KeepsFld.flag (h : p.KeepsFld g) (d : Dev) : (p.run d).flag g = d.flag g := by rw [Dev.flag, h, Dev.flag]

@[simp] theorem keepsFld_nop : Prog.nop.KeepsFld g := fun _ => rfl

@[simp] theorem keepsFld_ext (f : Ext → Ext) : (ext f).KeepsFld g := fun _ => rfl

@[simp] theorem keepsFld_seq_nil : (seq []).KeepsFld g := fun _ => rfl

theorem Prog.KeepsFld.cons {l : List Prog} (hp : p.KeepsFld g) (hl : (seq l).KeepsFld g) : (seq (p :: l)).KeepsFld g := by
  intro d
  rw [run_seq_cons, hl, hp]

theorem Prog.KeepsFld.read {k : Dev → Prog} (h : ∀ d, (k d).KeepsFld g) : (Prog.read k).KeepsFld g := fun d => h d d

theorem Prog.KeepsFld.doIf {b : Bool} (h : p.KeepsFld g) : (doIf b p).KeepsFld g := by
  cases b
  · exact keepsFld_nop
  · exact h

theorem Prog.KeepsFld.doWhen {c : Dev → Bool} (h : p.KeepsFld g) : (doWhen c p).KeepsFld g := by
  refine .read fun d => ?_
  split
  · exact h
  · exact keepsFld_nop

theorem keepsFld_each {α : Type} {l : List α} {f : α → Prog} (h : ∀ a ∈ l, (f a).KeepsFld g) : (each l f).KeepsFld g := by
  induction l with
  | nil => exact keepsFld_seq_nil
  | cons a l ih => exact .cons (h a List.mem_cons_self) (ih fun b hb => h b (List.mem_cons_of_mem a hb))

/-- A field that is set leaves every field of another word, and those of its own word apart from it. -/
theorem setF_keepsFld {f : Field} (hg : g.within = true)
    (h : g.reg = f.reg → g.lo + g.width ≤ f.lo ∨ f.lo + f.width ≤ g.lo) (v : Nat) : (setF f v).KeepsFld g := by
  intro d
  by_cases e : g.reg = f.reg
  · exact setF_fld_apart v d e hg (h e)
  · exact setF_fld_other v d e

/-- A raised alarm leaves every field of another word. -/
theorem raise_keepsFld {f : Field} (h : g.reg ≠ f.reg) : (raise f).KeepsFld g := fun d => by
  rw [Dev.fld, Dev.rd, raise_reg_other d h, Dev.fld, Dev.rd]

end

/-! ### The idle step (R37) -/

/-- Changing some keys of a sparse map leaves those that are not changed. -/
theorem get_foldl_upd_other {α : Type} [DecidableEq α] (dflt : α) (own : Nat → Bool) (u : Nat → α → α) {k : Nat}
    (hk : own k = false) (l : List Nat) (m : KV α) :
    KV.get dflt (l.foldl (fun m n => if own n then KV.upd dflt m n (u n) else m) m) k = KV.get dflt m k := by
  induction l generalizing m with
  | nil => rfl
  | cons n l ih =>
    rw [List.foldl_cons, ih]
    split
    · next hn => exact KV.get_upd_other dflt m _ (by rintro rfl; simp [hk] at hn)
    · rfl

/-- A house clock cycle leaves every time base that does not run on its own count. -/
theorem houseCycle_tbm {d : Dev} {n : Nat} (h : d.tbOwn n = false) : (houseCycle.run d).tbm n = d.tbm n :=
  get_foldl_upd_other ({} : TbClock) d.tbOwn (fun n => tbAdvance cycleU (d.sfld (F.TB_FREQ_ADJ n)) (d.fld (F.TB_SLEW n))) h
    (List.range 4) d.x.time.tb

/-- Settles O2: an idle step is one house clock cycle of a core that runs, and nothing otherwise. -/
theorem idleStepPassesOneCycle : Obligations.IdleStepPassesOneCycle := by
  intro s hs
  refine ⟨tick s, by simp only [step, hs], ?_⟩
  by_cases hl : s.dev.live = true
  · rw [tick, if_pos hl]
    exact ⟨hs, rfl, rfl, rfl, fun h => absurd hl (by simp [h]), fun _ => ⟨rfl, rfl, fun n _ h => houseCycle_tbm h⟩⟩
  · rw [tick, if_neg hl]
    exact ⟨hs, rfl, rfl, rfl, fun _ => rfl, fun h => absurd h hl⟩

end Sys2Proof.Machine
end

section
/-!
PROOFS. Snapshots of the five scales and the seconds kept in MRAM: R36, R38, R39.
-/

namespace Sys2Proof.Machine

/-- What the script for each element of a list keeps, all of them keep. -/
theorem each_keeps_of_mem {α : Type} {l : List α} {f : α → Prog} {P : Dev → Prop} (h : ∀ a ∈ l, ∀ d, P d → P ((f a).run d)) (d : Dev)
    (hd : P d) : P ((each l f).run d) := by
  induction l generalizing d with
  | nil => exact hd
  | cons a l ih =>
    rw [run_each_cons]
    exact ih (fun b hb => h b (List.mem_cons_of_mem a hb)) _ (h a List.mem_cons_self d hd)

/-- What the script for one element brings about, and the scripts for the others keep, holds after all of them. -/
theorem each_reaches {α : Type} {l : List α} {f : α → Prog} {a : α} {P : Dev → Prop} (hm : a ∈ l) (ha : ∀ d, P ((f a).run d))
    (hk : ∀ b ∈ l, b ≠ a → ∀ d, P d → P ((f b).run d)) (d : Dev) : P ((each l f).run d) := by
  have keep : ∀ b ∈ l, ∀ d, P d → P ((f b).run d) := fun b hb d hd => by
    by_cases h : b = a
    · exact h ▸ ha d
    · exact hk b hb h d hd
  induction l generalizing d with
  | nil => cases hm
  | cons b l ih =>
    have hl := fun c hc => keep c (List.mem_cons_of_mem b hc)
    rw [run_each_cons]
    rcases List.mem_cons.1 hm with rfl | h
    · exact each_keeps_of_mem hl _ (ha d)
    · exact ih h (fun c hc => hk c (List.mem_cons_of_mem b hc)) _ hl

/-- A register whose bits are the lowest `k` holds the low `k` bits of what is written. -/
theorem wr_rd_low {r : Reg} {k : Nat} (v : Nat) (d : Dev) (h : r.valid = true) (n : isFstate r.kind = false)
    (m : (regInfo r.kind).impl = 2 ^ k - 1) (hk : k ≤ 32) : ((wr r v).run d).rd r = v % 2 ^ k := by
  have hle : 2 ^ k ≤ 2 ^ 32 := Nat.pow_le_pow_right (by decide) hk
  have hpos := Nat.two_pow_pos k
  rw [Dev.rd, wr_reg_self r v d h n, toNat_and_mask, m, Nat.mod_eq_of_lt (a := 2 ^ k - 1) (by omega),
    Nat.and_two_pow_sub_one_eq_mod, Nat.mod_mod_of_dvd _ (Nat.pow_dvd_pow 2 hk)]

/-- One scale's snapshot is written (R38). -/
def snapPut (n t : Nat) : Prog :=
  seq [wr (R.TIME_SNAP_FRAC n) (t % nsU / 189), wr (R.TIME_SNAP_NS n) (t % secU / nsU),
    wr (R.TIME_SNAP_SEC_LO n) (t / secU % 2 ^ 32), wr (R.TIME_SNAP_SEC_HI n) (t / secU / 2 ^ 32 % 2 ^ 16)]

/-- The registers of a scale's snapshot show a time (R36). -/
def SnapShows (n t : Nat) (e : Dev) : Prop :=
  e.rd (R.TIME_SNAP_FRAC n) = t % 3024 / 189 ∧ e.rd (R.TIME_SNAP_NS n) = t % secU / 3024 ∧
    e.rd64 (R.TIME_SNAP_SEC_LO n) (R.TIME_SNAP_SEC_HI n) = t / secU % 2 ^ 48

theorem snapPut_writes (n t : Nat) : (snapPut n t).Writes fun r =>
    r.i = n ∧ r.kind ∈ [RK.TIME_SNAP_FRAC, .TIME_SNAP_NS, .TIME_SNAP_SEC_LO, .TIME_SNAP_SEC_HI] := by
  simp [snapPut]

theorem snapPut_shows {n : Nat} (h : n < 5) (t : Nat) (d : Dev) : SnapShows n t ((snapPut n t).run d) := by
  have hns : t % secU / nsU < 2 ^ 30 := by simp only [secU, nsU]; omega
  have hfrac : t % nsU / 189 < 2 ^ 4 := by simp only [nsU]; omega
  simp only [snapPut, run_seq_cons, run_seq_nil]
  refine ⟨?_, ?_, ?_⟩
  · rw [wr_rd_other _ _ (by simp), wr_rd_other _ _ (by simp), wr_rd_other _ _ (by simp),
      wr_rd_low (k := 4) _ _ (Reg.valid_indexed rfl h) rfl rfl (by decide), Nat.mod_eq_of_lt hfrac]
    rfl
  · rw [wr_rd_other _ _ (by simp), wr_rd_other _ _ (by simp),
      wr_rd_low (k := 30) _ _ (Reg.valid_indexed rfl h) rfl rfl (by decide), Nat.mod_eq_of_lt hns]
    rfl
  · rw [Dev.rd64, wr_rd_other _ _ (by simp), wr_rd_low (k := 32) _ _ (Reg.valid_indexed rfl h) rfl rfl (by decide),
      wr_rd_low (k := 16) _ _ (Reg.valid_indexed rfl h) rfl rfl (by decide)]
    omega

/-- A snapshot by the host: the five scales' registers, then snap_valid. -/
theorem timeSnap_host_run (d : Dev) : (timeSnap .host).run d =
    (setF F.TIME_STATUS_snap_valid 1).run ((each (List.range 5) fun n => snapPut n (d.scale n)).run d) := rfl

theorem SnapShows.kept {n m : Nat} {t u : Nat} (h : m ≠ n) {d : Dev} (hs : SnapShows n t d) :
    SnapShows n t ((snapPut m u).run d) := by
  have hk : ∀ r : Reg, r.i = n → ((snapPut m u).run d).rd r = d.rd r := fun r hr => by
    rw [Dev.rd, (snapPut_writes m u).keepsRegs d r (fun hb => h (hb.1.symm.trans hr)), Dev.rd]
  obtain ⟨hf, hn, hsec⟩ := hs
  exact ⟨(hk _ rfl).trans hf, (hk _ rfl).trans hn, by rwa [Dev.rd64, hk _ rfl, hk _ rfl]⟩

theorem timeSnap_host_writes : (timeSnap .host).Writes fun r => r = R.TIME_STATUS ∨
    r.kind ∈ [RK.TIME_SNAP_FRAC, .TIME_SNAP_NS, .TIME_SNAP_SEC_LO, .TIME_SNAP_SEC_HI] := by
  simp [timeSnap]

theorem timeSnap_host_fixes : (timeSnap .host).Fixes id := by simp [timeSnap]

/-- A snapshot by the host shows every scale as it is. -/
theorem timeSnap_host_shows {n : Nat} (h : n < 5) (d : Dev) : SnapShows n (d.scale n) (settle.run ((timeSnap .host).run d)) := by
  have hall : SnapShows n (d.scale n) ((each (List.range 5) fun m => snapPut m (d.scale m)).run d) :=
    each_reaches (P := SnapShows n (d.scale n)) (List.mem_range.2 h) (snapPut_shows h _) (fun m _ hm e he => he.kept hm) d
  have hset : (setF F.TIME_STATUS_snap_valid 1).Writes fun r => r = R.TIME_STATUS := (writes_setF _ _).2 rfl
  have hk : ∀ k, k ≠ RK.TIME_STATUS → ∀ e : Dev, (settle.run ((setF F.TIME_STATUS_snap_valid 1).run e)).rd ⟨k, n, 0, 0⟩ =
      e.rd ⟨k, n, 0, 0⟩ := fun k hne e => by
    rw [settle_rd, Dev.rd, hset.keepsRegs e _ (by simp [hne]), Dev.rd]
  obtain ⟨hf, hn, hsec⟩ := hall
  rw [timeSnap_host_run]
  exact ⟨(hk _ (by simp) _).trans hf, (hk _ (by simp) _).trans hn, by rwa [Dev.rd64, hk _ (by simp), hk _ (by simp)]⟩

/-- Settles O12: the host's snapshot by its own registers, firmware's and the kept seconds by the typed state. -/
theorem snapshotCapturesAllScalesAtOnce : Obligations.SnapshotCapturesAllScalesAtOnce := by
  intro s hl
  refine ⟨completes_of_live (p := timeSnap .host) rfl hl ⟨fun n hn => timeSnap_host_shows hn s.dev, ?_,
      timeSnap_host_writes.keeps timeSnap_host_fixes s.dev⟩,
    completes_of_live (p := timeSnap .firmware) rfl hl ⟨?_, ?_, ?_⟩, completes_of_live rfl hl ⟨?_, ?_, ?_⟩⟩
  · rw [settle_flag, timeSnap_host_run]
    exact setB_flag_self F.TIME_STATUS_snap_valid true _ (by decide) rfl
  · rw [settle_time]
    rfl
  · rw [settle_regs]
    rfl
  · rw [settle_mem]
    rfl
  · rw [settle_boot]
    rfl
  · rw [settle_regs]
    rfl
  · rw [settle_mem]
    rfl

end Sys2Proof.Machine
end

section
/-!
PROOFS. Steps, slews and sets of a time base: R40, R44, R67.
-/

namespace Sys2Proof.Machine

/-! ### What a step of a scale reaches -/

/-- The registers that follow a step of a scale: the OTGs' phases, the event timers and the interrupts (R44, R64, R67). -/
def stepWord (r : Reg) : Prop := r.kind ∈ [RK.OTG_STATUS, .EVT_CTRL, .EVT_STATUS, .TIME_IRQ_STATUS]

/-- The control state, the clocks, the candidates and the DPLL. -/
def houseView (x : Ext) : CtlState × Nat × Nat × KV TbClock × KV RefCand × DpllMem :=
  (x.ctl, x.time.clk, x.time.ht, x.time.tb, x.time.ref, x.time.dpll)

theorem Prog.Fixes.run_mem {α : Type} {π : Ext → α} {p : Prog} (h : p.Fixes π) (d : Dev) : (p.run d).mem = d.mem :=
  Prog.Acts.run_mem (h.mono fun q hq => by cases q <;> trivial) d

@[simp] theorem raise_houseView (f : Field) : (raise f).Fixes houseView := fixes_raise f fun _ _ _ _ _ _ => rfl

@[simp] theorem otgMisaligned_writes (n : Nat) : (otgMisaligned n).Writes stepWord := by simp [otgMisaligned, stepWord]
@[simp] theorem otgMisaligned_fixes {α : Type} (π : Ext → α) (n : Nat) : (otgMisaligned n).Fixes π := by simp [otgMisaligned]

theorem scaleShift_writes (scales : List Nat) (by_ : Int) : (scaleShift scales by_).Writes stepWord := by
  simp [scaleShift, otgUpd, timeUpd]

theorem scaleShift_fixes (scales : List Nat) (by_ : Int) : (scaleShift scales by_).Fixes houseView := by
  simp [scaleShift, otgUpd, timeUpd, houseView]

theorem evtFire_writes (n : Nat) (stepped : Bool) : (evtFire n stepped).Writes stepWord := by
  have hr : (raise F.TIME_IRQ_STATUS_evt_fired).Writes stepWord := writes_raise (by simp [stepWord])
  simp only [evtFire, acts_read, acts_seq_cons, writes_setF, writes_setB, acts_seq_nil, and_true]
  refine fun d => ⟨by simp [stepWord], by simp [stepWord], by simp [stepWord], ?_, ?_, by simp [timeUpd]⟩
  · split <;> simp [hr, gpioSet, emit]
  · split <;> simp

theorem evtFire_fixes (n : Nat) (stepped : Bool) : (evtFire n stepped).Fixes houseView := by
  simp only [evtFire, acts_read, acts_seq_cons, fixes_setF, fixes_setB, acts_seq_nil, and_true, true_and]
  refine fun d => ⟨?_, ?_, by simp [timeUpd, houseView]⟩
  · split <;> simp [gpioSet, emit, houseView]
  · split <;> simp [houseView]

theorem scaleCross_writes (scales : List Nat) (old now : Nat) : (scaleCross scales old now).Writes stepWord := by
  simp [scaleCross, evtFire_writes]

theorem scaleCross_fixes (scales : List Nat) (old now : Nat) : (scaleCross scales old now).Fixes houseView := by
  simp [scaleCross, evtFire_fixes]

/-- A time base's step moves its count; the outputs and timers that follow leave the clocks. -/
theorem tbMove_run (n : Nat) (by_ : Int) (d : Dev) : ∃ rest : Prog, rest.Writes stepWord ∧ rest.Fixes houseView ∧
    (tbMove n by_).run d = rest.run ((tbUpd n fun b => { b with t := (((d.tbm n).t : Int) + by_).toNat }).run d) := by
  refine ⟨_, ?_, ?_, run_seq_cons _ _ _⟩
  · simp [scaleShift_writes, scaleCross_writes]
  · simp [scaleShift_fixes, scaleCross_fixes]

/-- A step of HT moves HT; the outputs and timers that follow leave the clocks. -/
theorem htMove_run (by_ : Int) (d : Dev) : ∃ rest : Prog, rest.Writes stepWord ∧ rest.Fixes houseView ∧
    (htMove by_).run d = rest.run ((timeUpd fun t => { t with ht := ((d.x.time.ht : Int) + by_).toNat }).run d) := by
  refine ⟨_, ?_, ?_, run_seq_cons _ _ _⟩
  · simp [scaleShift_writes, scaleCross_writes]
  · simp [scaleShift_fixes, scaleCross_fixes]

section
variable {p : Prog} (h : p.Fixes houseView) (d : Dev)
include h

theorem Prog.Fixes.house_ctl : (p.run d).x.ctl = d.x.ctl := congrArg Prod.fst (h.proj d)
theorem Prog.Fixes.house_ht : (p.run d).x.time.ht = d.x.time.ht := congrArg (·.2.2.1) (h.proj d)
theorem Prog.Fixes.house_tb : (p.run d).x.time.tb = d.x.time.tb := congrArg (·.2.2.2.1) (h.proj d)
theorem Prog.Fixes.house_tbm (n : Nat) : (p.run d).tbm n = d.tbm n := by rw [Dev.tbm, h.house_tb, Dev.tbm]
theorem Prog.Fixes.house_ref : (p.run d).x.time.ref = d.x.time.ref := congrArg (·.2.2.2.2.1) (h.proj d)
theorem Prog.Fixes.house_dpll : (p.run d).x.time.dpll = d.x.time.dpll := congrArg (·.2.2.2.2.2) (h.proj d)

end

/-! ### The other scales -/

/-- HT, memory and the other time bases are as before. -/
def OthersStay (n : TbId) (d t : Dev) : Prop :=
  t.x.time.ht = d.x.time.ht ∧ KeepsMem d t ∧ ∀ k : TbId, k ≠ n → t.tbm k = d.tbm k

section
variable {n : TbId}

theorem OthersStay.trans {a b c : Dev} (h : OthersStay n a b) (g : OthersStay n b c) : OthersStay n a c := by
  obtain ⟨hh, hm, ht⟩ := h
  obtain ⟨gh, gm, gt⟩ := g
  exact ⟨gh.trans hh, fun a => (gm a).trans (hm a), fun k hk => (gt k hk).trans (ht k hk)⟩

theorem othersStay_tbUpd (u : TbClock → TbClock) (d : Dev) : OthersStay n d ((tbUpd n u).run d) :=
  ⟨rfl, fun _ => rfl, fun _ hk => tbUpd_other u d (Fin.val_ne_of_ne hk)⟩

theorem Prog.Fixes.othersStay {p : Prog} (h : p.Fixes houseView) (d : Dev) : OthersStay n d (p.run d) :=
  ⟨h.house_ht d, keepsMem_of_eq (h.run_mem d), fun k _ => h.house_tbm d k⟩

theorem OthersStay.settled {d t : Dev} (h : OthersStay n d t) : OthersStay n d (settle.run t) :=
  h.trans ⟨by rw [settle_time], keepsMem_settle rfl, fun k _ => settle_tbm t k⟩

theorem slewActive_within (n : TbId) : (F.TB_ADJ_STATUS_slew_active n).within = true :=
  Field.within_of_hasBits (Reg.valid_indexed rfl n.isLt) (show hasBits .TB_ADJ_STATUS 0 1 = true by decide)

/-- A running slew is given up. -/
def slewEnd (n : Nat) : Prog :=
  seq [tbUpd n fun b => { b with slewLeft := 0, slewAcc := 0 }, setF (F.TB_ADJ_STATUS_slew_active n) 0]

theorem slewEnd_spec (d : Dev) : let e := (slewEnd n).run d
    OthersStay n d e ∧ e.tbm n = { d.tbm n with slewLeft := 0, slewAcc := 0 } ∧
      e.flag (F.TB_ADJ_STATUS_slew_active n) = false := by
  have hset : (setF (F.TB_ADJ_STATUS_slew_active n) 0).Fixes houseView := fixes_setF _ _
  refine ⟨(othersStay_tbUpd _ d).trans (hset.othersStay _), ?_, setB_flag_self _ false _ (slewActive_within n) rfl⟩
  rw [slewEnd, run_seq_cons, run_seq_cons, run_seq_nil, hset.house_tbm, tbUpd_self]

/-- A step moves the count and leaves the rest of what the time base holds. -/
theorem tbMove_spec (by_ : Int) (d : Dev) : let e := (tbMove n by_).run d
    OthersStay n d e ∧ e.tbm n = { d.tbm n with t := (((d.tbm n).t : Int) + by_).toNat } ∧
      e.flag (F.TB_ADJ_STATUS_slew_active n) = d.flag (F.TB_ADJ_STATUS_slew_active n) := by
  obtain ⟨rest, hw, hx, hrun⟩ := tbMove_run n by_ d
  dsimp only
  rw [hrun]
  refine ⟨(othersStay_tbUpd _ d).trans (hx.othersStay _), ?_, ?_⟩
  · rw [hx.house_tbm, tbUpd_self]
  · rw [hw.flag (by simp [stepWord])]
    rfl

theorem tbStep_run {d : Dev} (h : d.tbOwn n = true) : (tbStep n).run d =
    (tbMove n (d.sfld (F.TB_ADJ_VALUE n) * 189)).run ((slewEnd n).run d) := by
  rw [tbStep, run_doWhen, if_pos h, run_read, run_seq_cons, run_seq_cons, run_seq_cons, run_seq_nil, slewEnd, run_seq_cons,
    run_seq_cons, run_seq_nil]

/-- TB_ADJ_STEP on its own count. -/
theorem tbStep_completes {s : State} (hl : s.dev.live = true) (h : s.dev.tbOwn n = true) :
    Completes (.tbAdjStep n) s fun t => OthersStay n s.dev t ∧
      (t.tbm n).t = ((s.dev.tbm n).t + s.dev.sfld (F.TB_ADJ_VALUE n) * 189 : Int).toNat ∧ (t.tbm n).slewLeft = 0 ∧
      t.flag (F.TB_ADJ_STATUS_slew_active n) = false := by
  obtain ⟨hend, hclk, hflag⟩ := slewEnd_spec (n := n) s.dev
  obtain ⟨hmove, hclk', hflag'⟩ := tbMove_spec (n := n) (s.dev.sfld (F.TB_ADJ_VALUE n) * 189) ((slewEnd n).run s.dev)
  refine completes_of_live rfl hl ?_
  rw [tbStep_run h]
  refine ⟨(hend.trans hmove).settled, ?_, ?_, ?_⟩
  · rw [settle_tbm, hclk', hclk]
  · rw [settle_tbm, hclk', hclk]
  · rw [settle_flag, hflag', hflag]

/-- A slew's start or completion: the time base is changed, and slew_active follows. -/
theorem slewPut_spec (u : TbClock → TbClock) (b : Bool) (d : Dev) :
    let e := settle.run ((setB (F.TB_ADJ_STATUS_slew_active n) b).run ((tbUpd n u).run d))
    OthersStay n d e ∧ e.tbm n = u (d.tbm n) ∧ e.flag (F.TB_ADJ_STATUS_slew_active n) = b ∧
      KeepsRegs d e fun r => r = R.TB_ADJ_STATUS n := by
  have hset : (setB (F.TB_ADJ_STATUS_slew_active n) b).Fixes houseView := fixes_setB _ _
  have hw : (setB (F.TB_ADJ_STATUS_slew_active n) b).Writes fun r => r = R.TB_ADJ_STATUS n := (writes_setB _ _).2 rfl
  refine ⟨((othersStay_tbUpd u d).trans (hset.othersStay _)).settled, ?_, ?_, keepsRegs_settle (hw.keepsRegs _)⟩
  · rw [settle_tbm, hset.house_tbm, tbUpd_self]
  · rw [settle_flag, setB_flag_self _ b _ (slewActive_within n) rfl]

/-- TB_ADJ_SLEW on its own count. -/
theorem tbSlew_completes {s : State} (hl : s.dev.live = true) (h : s.dev.tbOwn n = true) :
    Completes (.tbAdjSlew n) s fun t => OthersStay n s.dev t ∧
      (t.tbm n).t = (s.dev.tbm n).t ∧ (t.tbm n).slewLeft = s.dev.sfld (F.TB_ADJ_VALUE n) * 189 ∧
      t.flag (F.TB_ADJ_STATUS_slew_active n) = decide (s.dev.sfld (F.TB_ADJ_VALUE n) ≠ 0) ∧
      KeepsRegs s.dev t fun r => r = R.TB_ADJ_STATUS n := by
  obtain ⟨ho, hclk, hflag, hregs⟩ := slewPut_spec (n := n)
    (fun b => { b with slewLeft := s.dev.sfld (F.TB_ADJ_VALUE n) * 189, slewAcc := 0 })
    (decide (s.dev.sfld (F.TB_ADJ_VALUE n) ≠ 0)) s.dev
  refine completes_of_live rfl hl ?_
  rw [tbSlew, run_doWhen, if_pos h, run_read, run_seq_cons, run_seq_cons, run_seq_nil]
  exact ⟨ho, by rw [hclk], by rw [hclk], hflag, hregs⟩

/-- TB_SLEW_COMPLETE. -/
theorem tbSlewComplete_completes {s : State} (hl : s.dev.live = true) (h : s.dev.flag (F.TB_ADJ_STATUS_slew_active n) = true) :
    Completes (.tbSlewComplete n) s fun t => OthersStay n s.dev t ∧
      (t.tbm n).t = ((s.dev.tbm n).t + (s.dev.tbm n).slewLeft : Int).toNat ∧ (t.tbm n).slewLeft = 0 ∧
      t.flag (F.TB_ADJ_STATUS_slew_active n) = false ∧ KeepsRegs s.dev t fun r => r = R.TB_ADJ_STATUS n := by
  obtain ⟨ho, hclk, hflag, hregs⟩ := slewPut_spec (n := n)
    (fun b => { b with t := ((b.t : Int) + b.slewLeft).toNat, slewLeft := 0, slewAcc := 0 }) false s.dev
  refine completes_of_live rfl hl ?_
  rw [run_doWhen, if_pos h, run_seq_cons, run_seq_cons, run_seq_nil]
  exact ⟨ho, congrArg TbClock.t hclk, congrArg TbClock.slewLeft hclk, hflag, hregs⟩

/-- TB_SET on its own count. -/
theorem tbSet_completes {s : State} (hl : s.dev.live = true) (h : s.dev.tbOwn n = true) :
    Completes (.tbSet n) s fun t => OthersStay n s.dev t ∧ (t.tbm n).t =
      timeOf (s.dev.fld (F.TB_SET_SEC_LO n) + s.dev.fld (F.TB_SET_SEC_HI n) * 2 ^ 32) (s.dev.fld (F.TB_SET_NS n)) := by
  refine completes_of_live rfl hl ?_
  rw [run_read, tbSetTo, run_doWhen, if_pos h, run_read]
  obtain ⟨hmove, hclk, -⟩ := tbMove_spec (n := n) ((timeOf (s.dev.fld (F.TB_SET_SEC_LO n) + s.dev.fld (F.TB_SET_SEC_HI n) * 2 ^ 32)
    (s.dev.fld (F.TB_SET_NS n)) : Int) - (s.dev.tbm n).t) s.dev
  refine ⟨hmove.settled, ?_⟩
  rw [settle_tbm, hclk]
  simp only
  omega

/-- A time base that does not run on its own count takes no step, no slew and no set (R40). -/
theorem tbOwn_false_completes {s : State} (hl : s.dev.live = true) (h : s.dev.tbOwn n = false) {c : Instr}
    (hc : c ∈ [Instr.tbAdjStep n, .tbAdjSlew n, .tbSet n]) :
    Completes c s fun t => t.regs = s.dev.regs ∧ t.mem = s.dev.mem ∧ t.x.time = s.dev.x.time := by
  have still : ∀ {p : Prog}, p.run s.dev = s.dev → exec c s = perform .core p s →
      Completes c s fun t => t.regs = s.dev.regs ∧ t.mem = s.dev.mem ∧ t.x.time = s.dev.x.time := fun {p} hp he =>
    completes_of_live he hl (by rw [hp]; exact ⟨settle_regs _, settle_mem _, settle_time _⟩)
  have hn : ¬ s.dev.tbOwn n = true := by simp [h]
  simp only [List.mem_cons, List.not_mem_nil, or_false] at hc
  rcases hc with rfl | rfl | rfl
  · exact still (p := tbStep n) (by rw [tbStep, run_doWhen, if_neg hn]) rfl
  · exact still (p := tbSlew n) (by rw [tbSlew, run_doWhen, if_neg hn]) rfl
  · refine still ?_ rfl
    rw [run_read, tbSetTo, run_doWhen, if_neg hn]

end

/-- Settles O13: each command by its own lemma. -/
theorem timeBasesStepSlewAndSet : Obligations.TimeBasesStepSlewAndSet := by
  intro n s hl others
  exact ⟨fun h => ⟨tbStep_completes hl h, tbSlew_completes hl h, tbSet_completes hl h⟩, tbSlewComplete_completes hl,
    fun h _ hc => tbOwn_false_completes hl h hc⟩

end Sys2Proof.Machine
end

section
/-!
PROOFS. The lock of a time base's servo: R41, R69.
-/

namespace Sys2Proof.Machine

theorem servoLocked_within (n : TbId) : (F.TB_LOCK_servo_locked n).within = true :=
  Field.within_of_hasBits (Reg.valid_indexed rfl n.isLt) (show hasBits .TB_LOCK 0 1 = true by decide)

theorem servoLock_writes (n : Nat) (b : Bool) : (servoLock n b).Writes fun r => r = R.TB_LOCK n ∨ r = R.TIME_IRQ_STATUS := by
  have hr : (raise F.TIME_IRQ_STATUS_tb_lock).Writes fun r => r = R.TB_LOCK n ∨ r = R.TIME_IRQ_STATUS := writes_raise (.inr rfl)
  simp [servoLock, hr]

/-- The servo's lock is as asked, and a change is raised. -/
theorem servoLock_spec (n : TbId) (b : Bool) (d : Dev) : let e := (servoLock n b).run d
    e.flag (F.TB_LOCK_servo_locked n) = b ∧
      (d.flag (F.TB_LOCK_servo_locked n) ≠ b → e.flag F.TIME_IRQ_STATUS_tb_lock = true) := by
  rw [servoLock, run_doWhen]
  split
  · rw [run_seq_cons, run_seq_cons, run_seq_nil]
    refine ⟨?_, fun _ => raise_flag_self _ _ (by decide) rfl⟩
    rw [(raise_keepsFld (by simp)).flag, setB_flag_self _ b d (servoLocked_within n) rfl]
  · next h =>
    simp only [decide_eq_true_eq, not_not] at h
    exact ⟨h, fun hn => absurd h hn⟩

/-- An event of a servo that runs sets its lock. -/
theorem servoEvent_completes {n : TbId} {b : Bool} {c : Instr} {s : State} (hl : s.dev.live = true) (h : s.dev.servoRuns n = true)
    (hc : exec c s = perform .core (doWhen (fun d => d.servoRuns n) (servoLock n b)) s) : Completes c s fun t =>
      t.flag (F.TB_LOCK_servo_locked n) = b ∧
      (s.dev.flag (F.TB_LOCK_servo_locked n) ≠ b → t.flag F.TIME_IRQ_STATUS_tb_lock = true) ∧
      KeepsRegs s.dev t (fun r => r = R.TB_LOCK n ∨ r = R.TIME_IRQ_STATUS) ∧ KeepsMem s.dev t := by
  obtain ⟨hflag, hraise⟩ := servoLock_spec n b s.dev
  have hw := servoLock_writes n b
  refine completes_of_live hc hl ?_
  rw [run_doWhen, if_pos h, settle_flag, settle_flag]
  exact ⟨hflag, hraise, keepsRegs_settle (hw.keepsRegs _), keepsMem_settle (hw.memFree.run_mem _)⟩

/-! ### A servo out of range (R69) -/

/-- The registers a time base's fault reaches are no servo's lock. -/
def noLock (r : Reg) : Prop := r.kind ≠ .TB_LOCK

theorem otgLost_noLock (n : Nat) : (otgLost n).Writes noLock := by
  have hr : (raise F.TIME_IRQ_STATUS_realign_done).Writes noLock := writes_raise (by simp [noLock])
  have ha : ∀ q, (statusAlarm (F.DST_STATUS_otg_flywheel q) (F.DST_ALARM_otg_flywheel q) true).Writes noLock := fun q =>
    statusAlarm_writes (by simp [noLock]) (by simp [noLock]) true
  simp [otgLost, flyStart, mvhFlyStart, otgRealigned, otgUpd, timeUpd, dstUpd, mvhUpd, hr, ha, noLock]

theorem otgLatch_noLock (n : Nat) : (otgLatch n).Writes noLock := by simp [otgLatch, otgUpd, timeUpd, noLock]

/-- The fault of an OTG on the time base, with what follows. -/
theorem otgStep_noLock (k : Fin 32) : (fnStep (.otg k) (fnFault (.otg k) 0x02)).Writes noLock := by
  have hf : (fnFault (.otg k) 0x02).Writes noLock := (fnFault_writes _ _).widen fun r hr => by
    rcases hr with rfl | rfl <;> simp [noLock, fnReg]
  have hu : (fnUnfaulted (.otg k)).Writes noLock := by simp [fnUnfaulted, replaceClear, pwrUpd, noLock]
  have hd : (fnStreamsDrain (.otg k)).Writes noLock := by simp [fnStreamsDrain, streamDrained, mtxUpd]
  simp only [fnStep, fnFollow, acts_read, acts_seq_cons, acts_ite, acts_doIf, acts_nop, acts_seq_nil, and_true]
  refine fun d => ⟨hf, fun e => ⟨fun _ => trivial, fun _ => ⟨fun _ => hu, fun _ => otgLost_noLock _, ?_⟩⟩⟩
  cases e.fst (.otg k)
  · exact acts_nop
  · exact otgLatch_noLock _
  · exact acts_nop
  · exact (acts_seq_cons _ _).2 ⟨hd, (acts_seq_cons _ _).2 ⟨acts_nop, acts_seq_nil⟩⟩
  · exact writes_raise (by simp [noLock])

/-- The script leaves a lock that is off as it is. -/
def Prog.StaysUnlocked (n : Nat) (p : Prog) : Prop :=
  ∀ d, d.flag (F.TB_LOCK_servo_locked n) = false → (p.run d).flag (F.TB_LOCK_servo_locked n) = false

section
variable {n : Nat} {p : Prog}

theorem Prog.Writes.staysUnlocked {but : Reg → Prop} (h : p.Writes but) (hn : ¬ but (R.TB_LOCK n)) : p.StaysUnlocked n :=
  fun d hd => by rw [h.flag hn d, hd]

theorem Prog.StaysUnlocked.cons {l : List Prog} (hp : p.StaysUnlocked n) (hl : (seq l).StaysUnlocked n) :
    (seq (p :: l)).StaysUnlocked n := fun d hd => by
  rw [run_seq_cons]
  exact hl _ (hp d hd)

theorem Prog.StaysUnlocked.doIf {b : Bool} (h : p.StaysUnlocked n) : (doIf b p).StaysUnlocked n := by
  cases b
  · exact fun _ hd => hd
  · exact h

end

/-- A time base that leaves ON gives up its lock; its other steps leave it. -/
theorem fnFollow_tb_staysUnlocked (n : TbId) (was : FState) : (fnFollow (.tb n) was).StaysUnlocked n := by
  have hu : (fnUnfaulted (.tb n)).StaysUnlocked n :=
    Prog.Writes.staysUnlocked (but := noLock) (by simp [fnUnfaulted, replaceClear, pwrUpd, noLock]) (by simp [noLock])
  have hd : (fnStreamsDrain (.tb n)).StaysUnlocked n :=
    Prog.Writes.staysUnlocked (but := noLock) (by simp [fnStreamsDrain, streamDrained, mtxUpd]) (by simp [noLock])
  have hl : (servoLock n false).StaysUnlocked n := fun d _ => (servoLock_spec n false d).1
  have hn : Prog.nop.StaysUnlocked n := fun _ h => h
  have hz : (seq []).StaysUnlocked n := fun _ h => h
  refine fun e => ?_
  simp only [fnFollow, run_read]
  split
  · exact id
  · refine (Prog.StaysUnlocked.doIf hu).cons (.cons (.doIf hl) (.cons ?_ hz)) e
    cases e.fst (.tb n)
    · exact hn
    · exact hn
    · exact hn
    · exact hd.cons (.cons hn hz)
    · exact hn

/-- The fault of a time base, with what it takes along, leaves a lock that is off. -/
theorem portStep_tb_staysUnlocked (n : TbId) (code : Nat) : (portStep (.tb n) (fnFault (.tb n) code)).StaysUnlocked n := by
  have hf : (fnFault (.tb n) code).StaysUnlocked n := (fnFault_writes _ _).staysUnlocked (by simp [fnReg])
  have hs : (fnStep (.tb n) (fnFault (.tb n) code)).StaysUnlocked n := fun d hd => by
    rw [fnStep_run]
    exact fnFollow_tb_staysUnlocked n _ _ (hf d hd)
  have hc : ∀ l : List (Fin 32), (each l fun k => fnStep (.otg k) (fnFault (.otg k) 0x02)).StaysUnlocked n := fun l =>
    Prog.Writes.staysUnlocked (but := noLock) (by simp [otgStep_noLock]) (by simp [noLock])
  refine fun d hd => ?_
  simp only [portStep, run_read, run_seq_cons, run_seq_nil, run_doIf, run_nop, ite_self]
  split
  · exact hc _ _ (hs d hd)
  · exact hs d hd

/-- A servo out of range gives up its lock and takes its time base to FAULT (R69). -/
theorem servoRange_completes {n : TbId} {s : State} (hl : s.dev.live = true) (hon : s.dev.fst (.tb n) = .on)
    (h : s.dev.servoRuns n = true) : Completes (.servoRange n) s fun t =>
      t.flag (F.TB_LOCK_servo_locked n) = false ∧ t.fst (.tb n) = .fault ∧ (t.fw (.tb n)).code = 2 ∧ KeepsMem s.dev t := by
  have hk := (quiet_servoLock n false).keepsFn (f := .tb n) s.dev
  have hg := fnGo_keepsFn (.tb n) (fnFault (.tb n) 2) ((servoLock n false).run s.dev)
  obtain ⟨hst, hcode, -⟩ := fnFault_enters (f := .tb n) (d := (servoLock n false).run s.dev) 2 (.inr (hk.fst.trans hon))
  refine completes_of_live rfl hl ?_
  rw [run_doWhen, if_pos h, run_seq_cons, run_seq_cons, run_seq_nil]
  refine ⟨?_, ?_, ?_, keepsMem_settle ?_⟩
  · rw [settle_flag]
    exact portStep_tb_staysUnlocked n 2 _ (servoLock_spec n false s.dev).1
  · rw [settle_fst, hg.fst, hst]
  · rw [settle_fw, hg.word, hcode]
  · exact (portStep_tb_mem n (fnFault_memFree _ _) _).trans ((servoLock_writes n false).memFree.run_mem _)

/-- Settles O14: three events by the servo's lock, the fourth by its fault. -/
theorem ptpServoLockFollowsItsEvents : Obligations.PtpServoLockFollowsItsEvents := by
  intro n s hl hon hown locks
  have h : s.dev.servoRuns n = true := by simp [Dev.servoRuns, Dev.on, hon, hown]
  exact ⟨servoEvent_completes hl h rfl, servoEvent_completes hl h rfl, servoEvent_completes hl h rfl,
    servoRange_completes hl hon h⟩

end Sys2Proof.Machine
end

section
/-!
PROOFS. Candidate references through their qualification: R46 to R49.
-/

namespace Sys2Proof.Machine

/-! ### One bit of a word -/

theorem bitOf_putBits_self (x lo : Nat) (b : Bool) : bitOf (putBits x lo 1 (boolBit b)) lo = b := by
  cases b <;> simp [bitOf_eq_testBit, testBit_putBits, boolBit]

theorem bitOf_putBits_apart {lo k : Nat} (x v : Nat) (h : k ≠ lo) : bitOf (putBits x lo 1 v) k = bitOf x k := by
  rw [bitOf_eq_testBit, testBit_putBits, bitOf_eq_testBit]
  split
  · rfl
  · rw [if_neg (by omega)]

/-- A flag of a register that is written is the bit of the word. -/
theorem wr_flag_self {r : Reg} (f : Field) (v : Nat) (d : Dev) (e : f.reg = r) (h : f.within = true) (w : f.width = 1) :
    ((wr r v).run d).flag f = bitOf v f.lo := by
  rw [Dev.flag, wr_fld_self f v d e h, w]
  simp [bitsOf, bitOf]

theorem codeOf_lt (n : Nat) (x : Int) : codeOf n x < 2 ^ n := by
  have hpos : (0 : Int) < 2 ^ n := by positivity
  have h1 := Int.emod_nonneg x hpos.ne'
  have h2 := Int.emod_lt_of_pos x hpos
  have h3 : ((codeOf n x : Nat) : Int) = x % 2 ^ n := Int.toNat_of_nonneg h1
  exact_mod_cast h3 ▸ h2

/-! ### A candidate's state -/

/-- What the candidates hold. -/
def candView (x : Ext) : KV RefCand := x.time.ref

theorem Prog.Fixes.refm {p : Prog} (h : p.Fixes candView) (d : Dev) (n : Nat) : (p.run d).refm n = d.refm n := by
  rw [Dev.refm, Dev.refm]
  exact congrArg (fun m => KV.get {} m n) (h.proj d)

section
variable {n : RefId}

theorem qstate_within (n : RefId) : (F.REF_STATE_qstate n).within = true :=
  Field.within_of_hasBits (Reg.valid_indexed rfl n.isLt) (show hasBits .REF_STATE 0 3 = true by decide)
theorem wtrOwed_within (n : RefId) : (F.REF_STATE_wtr_owed n).within = true :=
  Field.within_of_hasBits (Reg.valid_indexed rfl n.isLt) (show hasBits .REF_STATE 15 1 = true by decide)
theorem refEnable_within (n : RefId) : (F.REF_CTRL_enable n).within = true :=
  Field.within_of_hasBits (Reg.valid_indexed rfl n.isLt) (show hasBits .REF_CTRL 0 1 = true by decide)
theorem refLockout_within (n : RefId) : (F.REF_CTRL_lockout n).within = true :=
  Field.within_of_hasBits (Reg.valid_indexed rfl n.isLt) (show hasBits .REF_CTRL 1 1 = true by decide)
theorem wtrLeft_within (n : RefId) : (F.REF_WTR_LEFT n).within = true :=
  Field.within_of_hasBits (Reg.valid_indexed rfl n.isLt) (show hasBits .REF_WTR_LEFT 0 12 = true by decide)

theorem refPut_writes (n q : Nat) : (refPut n q).Writes fun r => r = R.REF_STATE n ∨ r = R.TIME_IRQ_STATUS := by
  have hr : (raise F.TIME_IRQ_STATUS_ref_state).Writes fun r => r = R.REF_STATE n ∨ r = R.TIME_IRQ_STATUS := writes_raise (.inr rfl)
  simp [refPut, hr]

theorem refPut_fixes (n q : Nat) : (refPut n q).Fixes candView := by
  have hr : (raise F.TIME_IRQ_STATUS_ref_state).Fixes candView := fixes_raise _ fun _ _ _ _ _ _ => rfl
  simp [refPut, hr]

/-- The candidate's state is as put. -/
theorem refPut_qstate {q : Nat} (hq : q < 8) (d : Dev) : ((refPut n q).run d).qstate n = q := by
  rw [refPut, run_doWhen]
  split
  · have hr : (raise F.TIME_IRQ_STATUS_ref_state).KeepsFld (F.REF_STATE_qstate n) := raise_keepsFld (by simp)
    rw [run_seq_cons, run_seq_cons, run_seq_nil, Dev.qstate, hr, setF_fld_self _ _ _ (qstate_within n)]
    exact Nat.mod_eq_of_lt hq
  · next h => simpa using h

/-- A state that is put leaves the other fields of the candidate's word. -/
theorem refPut_keepsFld {g : Field} (hg : g.within = true) (hlo : 3 ≤ g.lo) (hr : g.reg ≠ R.TIME_IRQ_STATUS) (n q : Nat) :
    (refPut n q).KeepsFld g :=
  .doWhen (.cons (setF_keepsFld (f := F.REF_STATE_qstate n) hg (fun _ => .inr (by simpa using hlo)) q) (.cons (raise_keepsFld hr) keepsFld_seq_nil))

/-- The state that a word written to REF_CTRL leaves a candidate in (R49). -/
def refMoved (v q : Nat) : Nat := if bitOf v 0 = false then 0 else if bitOf v 1 then 1 else if q ≤ 1 then 2 else q

theorem refMoved_lt {v q : Nat} (h : q < 8) : refMoved v q < 8 := by
  unfold refMoved
  split_ifs <;> omega

theorem refWriteCtrl_run (v : Nat) (d : Dev) : ∃ rest : Prog, rest.Writes (fun r => r = R.REF_STATE n ∨ r = R.TIME_IRQ_STATUS) ∧
    (refWriteCtrl n v).run d = rest.run ((wr (R.REF_CTRL n) v).run d) ∧
    (rest.run ((wr (R.REF_CTRL n) v).run d)).qstate n = refMoved v (d.qstate n) := by
  have hm : (if !bitOf v 0 then 0 else if bitOf v 1 then 1 else if d.qstate n ≤ 1 then 2 else d.qstate n) =
      refMoved v (d.qstate n) := by
    simp [refMoved]
  refine ⟨_, ?_, run_seq_cons _ _ _, ?_⟩
  · simp [refPut_writes, refUpd, timeUpd]
  · rw [hm, run_seq_cons, run_seq_cons, run_seq_nil, run_doIf, run_doIf]
    have hq : ∀ (c : Bool) (u : RefCand → RefCand) (e : Dev), (if c then (refUpd n u).run e else e).qstate n = e.qstate n := by
      intro c u e
      split <;> rfl
    rw [hq]
    split
    · exact refPut_qstate (refMoved_lt (bitsOf_lt _ 0 3)) _
    · next h =>
      rw [Dev.qstate, wr_fld_other _ _ (by simp)]
      exact (not_not.1 fun hne => h (decide_eq_true hne)).symm

/-- A write of REF_CTRL puts its bits in force and moves the candidate (R49). -/
theorem refWriteCtrl_spec (v : Nat) (d : Dev) : let e := (refWriteCtrl n v).run d
    e.flag (F.REF_CTRL_enable n) = bitOf v 0 ∧ e.flag (F.REF_CTRL_lockout n) = bitOf v 1 ∧
      e.qstate n = refMoved v (d.qstate n) := by
  obtain ⟨rest, hw, hrun, hq⟩ := refWriteCtrl_run (n := n) v d
  rw [← hrun] at hq
  refine ⟨?_, ?_, hq⟩
  · rw [hrun, hw.flag (by simp), wr_flag_self _ _ _ rfl (refEnable_within n) rfl]
  · rw [hrun, hw.flag (by simp), wr_flag_self _ _ _ rfl (refLockout_within n) rfl]

/-- A cause that may be kept leaves a candidate's last edge, its offsets, and the registers. -/
theorem refCause_keeps (n k : Nat) (c : Bool) (d : Dev) : let e := (doIf c (refCause n k)).run d
    (e.refm n).lastEdge = (d.refm n).lastEdge ∧ (e.refm n).drift = (d.refm n).drift ∧ e.regs = d.regs := by
  cases c <;> simp [refCause]

/-! ### The six events -/

section
variable {s : State} (hl : s.dev.live = true)
include hl

theorem refEnableWrite_completes (on : Bool) : Completes (.refEnableWrite n on) s fun t =>
    t.flag (F.REF_CTRL_enable n) = on ∧ t.qstate n = (if on = false then 0 else
      if s.dev.flag (F.REF_CTRL_lockout n) then 1 else if s.dev.qstate n ≤ 1 then 2 else s.dev.qstate n) := by
  obtain ⟨he, -, hq⟩ := refWriteCtrl_spec (n := n) (putBits (s.dev.rd (R.REF_CTRL n)) 0 1 (boolBit on)) s.dev
  refine completes_of_live rfl hl ⟨?_, ?_⟩
  · rw [settle_flag, run_read, he, bitOf_putBits_self]
  · rw [settle_qstate, run_read, hq, refMoved, bitOf_putBits_self, bitOf_putBits_apart _ _ (by decide),
      flag_eq_bitOf (g := F.REF_CTRL_lockout n) rfl]

theorem refLockoutWrite_completes (on : Bool) : Completes (.refLockoutWrite n on) s fun t =>
    t.flag (F.REF_CTRL_lockout n) = on ∧ t.qstate n = (if s.dev.flag (F.REF_CTRL_enable n) = false then 0 else
      if on then 1 else if s.dev.qstate n ≤ 1 then 2 else s.dev.qstate n) := by
  obtain ⟨-, he, hq⟩ := refWriteCtrl_spec (n := n) (putBits (s.dev.rd (R.REF_CTRL n)) 1 1 (boolBit on)) s.dev
  refine completes_of_live rfl hl ⟨?_, ?_⟩
  · rw [settle_flag, run_read, he, bitOf_putBits_self]
  · rw [settle_qstate, run_read, hq, refMoved, bitOf_putBits_self, bitOf_putBits_apart _ _ (by decide),
      flag_eq_bitOf (g := F.REF_CTRL_enable n) rfl]

theorem refQualComplete_completes (hq : s.dev.qstate n = 3) (hc : (s.dev.refm n).causes = []) :
    Completes (.refQualComplete n) s fun t => KeepsMem s.dev t ∧
      t.qstate n = (if s.dev.flag (F.REF_STATE_wtr_owed n) then 4 else 5) := by
  refine completes_of_live rfl hl ?_
  have hg : (s.dev.qstate n == 3 && (s.dev.refm n).causes.isEmpty) = true := by simp [hq, hc]
  rw [run_doWhen, if_pos hg, run_read, settle_qstate]
  split
  · have hset : (setF (F.REF_WTR_LEFT n) (min 3600 (s.dev.fld (F.REF_WTR n)))).Writes fun r => r = R.REF_WTR_LEFT n :=
      (writes_setF _ _).2 rfl
    rw [run_seq_cons, run_seq_cons, run_seq_nil]
    refine ⟨keepsMem_settle ?_, ?_⟩
    · rw [hset.memFree.run_mem, (refPut_writes n 4).memFree.run_mem]
    · rw [Dev.qstate, hset.fld (by simp)]
      exact refPut_qstate (by decide) _
  · exact ⟨keepsMem_settle ((refPut_writes n 5).memFree.run_mem _), refPut_qstate (by decide) _⟩

theorem refWtrComplete_completes (hq : s.dev.qstate n = 4) (hc : (s.dev.refm n).causes = []) :
    Completes (.refWtrComplete n) s fun t => KeepsMem s.dev t ∧
      t.qstate n = 5 ∧ t.flag (F.REF_STATE_wtr_owed n) = false ∧ t.fld (F.REF_WTR_LEFT n) = 0 := by
  refine completes_of_live rfl hl ?_
  have hg : (s.dev.qstate n == 4 && (s.dev.refm n).causes.isEmpty) = true := by simp [hq, hc]
  have howed := refPut_keepsFld (wtrOwed_within n) (by simp) (by simp) n 5
  have hleft := (refPut_writes n 5).keepsFld (g := F.REF_WTR_LEFT n) (by simp)
  rw [run_doWhen, if_pos hg, run_seq_cons, run_seq_cons, run_seq_cons, run_seq_nil, settle_qstate, settle_flag, settle_fld]
  refine ⟨keepsMem_settle (((refPut_writes n 5).memFree.run_mem _).trans (by simp)), refPut_qstate (by decide) _, ?_, ?_⟩
  · rw [howed.flag, Dev.flag, setF_fld_other _ _ (by simp)]
    exact setB_flag_self _ false _ (wtrOwed_within n) rfl
  · rw [hleft, setF_fld_self _ _ _ (wtrLeft_within n), Nat.zero_mod]

theorem refPulseEdge_frame_completes (lines : Nat) (hn : n = 4 ∨ n = 5) :
    Completes (.refPulseEdge n (.frame false lines)) s fun t =>
      (t.refm n).causes = (s.dev.refm n).causes ++ [6] ∧ t.regs = s.dev.regs := by
  have hv : (n.val == 4 || n.val == 5) = true := by
    rcases hn with rfl | rfl <;> rfl
  refine completes_of_live rfl hl ?_
  rw [refPulse, run_read, settle_refm, settle_regs]
  simp [hv, refCause]

theorem refPulseEdge_pps_completes (u : Nat) (f : Nat) (hn : n = 6 ∨ n = 7) (hu : s.dev.fld (F.REF_CTRL_input_use n) ≠ 2) :
    Completes (.refPulseEdge n (.pps u f)) s fun t => (t.refm n).lastEdge = some u ∧ t.regs = s.dev.regs := by
  have hv : (n.val == 6 || n.val == 7) = true := by
    rcases hn with rfl | rfl <;> rfl
  refine completes_of_live rfl hl ?_
  rw [refPulse, run_read, settle_refm, settle_regs]
  simp only [hv, hu, ne_eq, not_false_eq_true, decide_true, Bool.and_true, doIf, if_true, run_seq_cons, run_seq_nil]
  obtain ⟨hedge, -, hregs⟩ := refCause_keeps n 2 _ ((refUpd n _).run s.dev)
  exact ⟨hedge.trans (by rw [refUpd_self]), hregs⟩

theorem refDriftSample_completes (freq : Int) : Completes (.refDriftSample n freq) s fun t =>
    (t.refm n).drift = (freq :: (s.dev.refm n).drift).take (s.dev.driftWindow n) ∧ t.rd (R.REF_FREQ n) = codeOf 32 freq := by
  refine completes_of_live rfl hl ?_
  have hw : ∀ (r : Reg) (v : Nat) (e : Dev), ((wr r v).run e).refm n = e.refm n := fun r v e =>
    Prog.Fixes.refm (fixes_wr r v) e n
  rw [refDrift, run_read, settle_refm, settle_rd, run_seq_cons, run_seq_cons, run_seq_cons, run_seq_cons, run_seq_nil]
  obtain ⟨-, hdrift, hregs⟩ := refCause_keeps n 4 _ ((wr (R.REF_DRIFT_MEAN n) _).run ((wr (R.REF_FREQ n) (codeOf 32 freq)).run
    ((refUpd n _).run s.dev)))
  refine ⟨hdrift.trans ?_, ?_⟩
  · rw [hw, hw, refUpd_self]
  · rw [Dev.rd, Dev.reg, hregs, ← Dev.reg, ← Dev.rd, wr_rd_other _ _ (by simp),
      wr_rd_full _ _ (Reg.valid_indexed rfl n.isLt) rfl rfl]
    exact Nat.mod_eq_of_lt (codeOf_lt 32 freq)

end

end

/-- Settles O15: each event by its own lemma. -/
theorem referencesMoveThroughQualification : Obligations.ReferencesMoveThroughQualification := by
  intro n s hl q
  exact ⟨refEnableWrite_completes hl, refLockoutWrite_completes hl, refQualComplete_completes hl, refWtrComplete_completes hl,
    refPulseEdge_frame_completes hl, refPulseEdge_pps_completes hl, refDriftSample_completes hl⟩

end Sys2Proof.Machine
end

section
/-!
PROOFS. The DPLL's states and selection, and the 1 ms tick: R47, R52, R53, R57, R69.
-/

namespace Sys2Proof.Machine

/-! ### What selection reaches -/

/-- The registers that selection and the DPLL's changes of state write. -/
def dpllWord (r : Reg) : Prop := r.kind ∈ [RK.DPLL_STATE, .DPLL_HO_VALUE, .DPLL_HO_SPAN, .TIME_IRQ_STATUS]

/-- What the candidates hold, and the tick counter. -/
def tickView (x : Ext) : KV RefCand × Nat := (x.time.ref, x.time.dpll.ticks)

theorem Prog.Fixes.tick_ticks {p : Prog} (h : p.Fixes tickView) (d : Dev) : (p.run d).x.time.dpll.ticks = d.x.time.dpll.ticks :=
  congrArg Prod.snd (h.proj d)

theorem Prog.Fixes.tick_cand {p : Prog} (h : p.Fixes tickView) (d : Dev) (n : Nat) : (p.run d).refm n = d.refm n := by
  rw [Dev.refm, Dev.refm]
  exact congrArg (fun v => KV.get {} v.1 n) (h.proj d)

@[simp] theorem raise_tickView (f : Field) : (raise f).Fixes tickView := fixes_raise f fun _ _ _ _ _ _ => rfl

@[simp] theorem dpllBw_fixes {α : Type} (π : Ext → α) : dpllBw.Fixes π := by simp [dpllBw]
@[simp] theorem dpllBw_writes : dpllBw.Writes dpllWord := by simp [dpllBw, dpllWord]

@[simp] theorem dpllEnter_fixes (st : Nat) : (dpllEnter st).Fixes tickView := by simp [dpllEnter]
@[simp] theorem dpllEnter_writes (st : Nat) : (dpllEnter st).Writes dpllWord := by
  have hr : ∀ f : Field, f.reg = R.TIME_IRQ_STATUS → (raise f).Writes dpllWord := fun f hf =>
    writes_raise (by simp [dpllWord, hf])
  simp [dpllEnter, hr, dpllWord]

@[simp] theorem holdover_fixes (ref : Nat) : (holdover ref).Fixes tickView := by simp [holdover, dpllUpd, timeUpd, tickView]
@[simp] theorem holdover_writes (ref : Nat) : (holdover ref).Writes dpllWord := by
  simp [holdover, dpllUpd, timeUpd, dpllWord]

@[simp] theorem dpllHold_fixes (ref : Nat) : (dpllHold ref).Fixes tickView := by simp [dpllHold]
@[simp] theorem dpllHold_writes (ref : Nat) : (dpllHold ref).Writes dpllWord := by simp [dpllHold]

@[simp] theorem dpllTransition_fixes (c : Nat) (lost : Bool) (ref : Nat) : (dpllTransition c lost ref).Fixes tickView := by
  simp [dpllTransition, dpllUpd, timeUpd, tickView]
@[simp] theorem dpllTransition_writes (c : Nat) (lost : Bool) (ref : Nat) : (dpllTransition c lost ref).Writes dpllWord := by
  simp [dpllTransition, dpllUpd, timeUpd]
  simp [dpllWord]

theorem dpllSelect_fixes (ref : Nat) : (dpllSelect ref).Fixes tickView := by
  simp only [dpllSelect, acts_read, acts_seq_cons, acts_doIf, fixes_setF, acts_seq_nil, acts_ite, acts_nop, implies_true, true_and,
    and_true]
  intro d _ e
  split
  · split <;> simp
  all_goals simp

theorem dpllSelect_writes (ref : Nat) : (dpllSelect ref).Writes dpllWord := by
  have hs : ∀ f v, f.reg = R.DPLL_STATE → (setF f v).Writes dpllWord := fun f v hf => by simp [dpllWord, hf]
  simp only [dpllSelect, acts_read, acts_seq_cons, acts_doIf, acts_seq_nil, acts_ite, acts_nop, implies_true, true_and,
    and_true]
  refine fun d => ⟨fun _ => hs _ _ rfl, fun _ e => ?_⟩
  split
  · split <;> simp [hs]
  all_goals simp [hs]

/-! ### The house frequency (R69) -/

/-- A 32-bit code reads back as the integer it codes. -/
theorem signedOf_codeOf {x : Int} (h1 : -2 ^ 31 ≤ x) (h2 : x < 2 ^ 31) : signedOf 32 (codeOf 32 x) = x := by
  have hm : ((codeOf 32 x : Nat) : Int) = x % 2 ^ 32 := Int.toNat_of_nonneg (Int.emod_nonneg x (by decide))
  unfold signedOf
  split <;> omega

theorem clampI_bounds {lo hi : Int} (x : Int) (h : lo ≤ hi) : lo ≤ clampI lo hi x ∧ clampI lo hi x ≤ hi := by
  unfold clampI
  omega

/-- The control word reads back as the integer it is given. -/
theorem wr_cw {x : Int} (h1 : -2 ^ 31 ≤ x) (h2 : x < 2 ^ 31) (d : Dev) : ((wr R.DPLL_CW (codeOf 32 x)).run d).sfld F.DPLL_CW = x := by
  have hbits : bitsOf (codeOf 32 x) 0 32 = codeOf 32 x := by
    rw [bitsOf, pow_zero, Nat.div_one, Nat.mod_eq_of_lt (codeOf_lt 32 x)]
  rw [Dev.sfld, wr_fld_self F.DPLL_CW _ _ rfl (by decide)]
  exact (congrArg _ hbits).trans (signedOf_codeOf h1 h2)

theorem dpllFreq_spec (want : Int) (d : Dev) : let e := (dpllFreq want).run d
    e.x.time.dpll.ticks = d.x.time.dpll.ticks + 1 ∧ e.x.time.ref = d.x.time.ref ∧ (e.sfld F.DPLL_CW).natAbs ≤ 109951162 := by
  have hcw : ∀ x, (((wr R.DPLL_CW (codeOf 32 (clampI (-cwMax) cwMax x))).run d).sfld F.DPLL_CW).natAbs ≤ 109951162 := by
    intro x
    obtain ⟨hlo, hhi⟩ := clampI_bounds x (lo := -cwMax) (hi := cwMax) (by decide)
    simp only [cwMax] at hlo hhi
    rw [cwMax, wr_cw (by omega) (by omega)]
    omega
  simp only [dpllFreq, run_read, run_seq_cons, run_seq_nil]
  refine ⟨?_, ?_, hcw _⟩
  · rw [dpllUpd, timeUpd_x, wr_x]
  · rw [dpllUpd, timeUpd_x, wr_x]

theorem dpllFreq_writes (want : Int) : (dpllFreq want).Writes fun r => r = R.DPLL_CW := by simp [dpllFreq, dpllUpd, timeUpd]

/-! ### The tick's judgement of a candidate (R47, R49) -/

/-- The candidate's fall to UNQUALIFIED in one tick's judgement. -/
def refFall (causes : List Nat) (n : Nat) (m : RefMeas) : Prog :=
  .read fun d => match causes with
    | [] => doIf ((d.qstate n == 3 || d.qstate n == 4) && !d.refCrit n m) (refPut n 2)
    | c :: _ => doIf (3 ≤ d.qstate n) (seq [setF (F.REF_STATE_last_disq n) c,
        doIf (d.qstate n == 5) (setF (F.REF_STATE_wtr_owed n) 1), refPut n 2])

theorem refDisqualify_run (n : Nat) (m : RefMeas) (d : Dev) : (refDisqualify n m).run d =
    (refUpd n fun r => { r with causes := [], driftLost := (d.refCauses n m).contains 4 }).run
      ((refFall (d.refCauses n m) n m).run d) := rfl

theorem refFall_writes (causes : List Nat) (n : Nat) (m : RefMeas) :
    (refFall causes n m).Writes fun r => r = R.REF_STATE n ∨ r = R.TIME_IRQ_STATUS := by
  cases causes <;> simp [refFall, refPut_writes]

theorem refFall_fixes (causes : List Nat) (n : Nat) (m : RefMeas) : (refFall causes n m).Fixes tickView := by
  cases causes <;> simp [refFall, refPut]

/-- A cause leaves the candidate UNQUALIFIED at best; without one it does not rise. -/
theorem refFall_qstate (causes : List Nat) (n : RefId) (m : RefMeas) (d : Dev) (h : causes ≠ [] ∨ d.qstate n ≤ 2) :
    ((refFall causes n m).run d).qstate n ≤ 2 := by
  have hp : ∀ e, ((refPut n 2).run e).qstate n ≤ 2 := fun e => le_of_eq (refPut_qstate (by decide) e)
  match causes with
  | [] =>
    rw [refFall, run_read, run_doIf]
    split
    · exact hp d
    · exact h.resolve_left (by simp)
  | c :: l =>
    rw [refFall, run_read, run_doIf]
    split
    · exact hp _
    · next hq => exact Nat.le_of_lt_succ (by simpa using hq)

/-- A candidate holds no cause, and where it held one before the tick it is in state `q` at best. -/
def Judged (c : RefId) (held : List Nat) (q : Nat) (e : Dev) : Prop := (e.refm c).causes = [] ∧ (held ≠ [] → e.qstate c ≤ q)

/-- A candidate is not judged yet, or is. -/
def Judging (c : RefId) (held : List Nat) (e : Dev) : Prop := (e.refm c).causes = held ∨ Judged c held 2 e

/-- What a script leaves of a candidate. -/
theorem Judged.of_same {c : RefId} {held : List Nat} {q : Nat} {d e : Dev} (h : Judged c held q d)
    (hc : (e.refm c).causes = (d.refm c).causes) (hq : e.qstate c = d.qstate c) : Judged c held q e := by
  rwa [Judged, hc, hq]

theorem qstate_other {c : RefId} {n : Nat} {p : Prog} (h : p.Writes fun r => r = R.REF_STATE n ∨ r = R.TIME_IRQ_STATUS)
    (hn : c.val ≠ n) (d : Dev) : (p.run d).qstate c = d.qstate c :=
  h.fld (by simp [hn]) d

theorem refDisqualify_other {c : RefId} {m : RefMeas} (h : c ≠ m.cand) (d : Dev) : let e := (refDisqualify m.cand m).run d
    (e.refm c).causes = (d.refm c).causes ∧ e.qstate c = d.qstate c := by
  have hn : c.val ≠ m.cand.val := Fin.val_ne_of_ne h
  simp only [refDisqualify_run]
  refine ⟨?_, ?_⟩
  · rw [refUpd_other _ _ hn, (refFall_fixes _ _ _).tick_cand]
  · exact qstate_other (refFall_writes _ _ _) hn d

/-- Its own judgement settles a candidate. -/
theorem refDisqualify_judged {m : RefMeas} {held : List Nat} {d : Dev} (h : Judging m.cand held d) :
    Judged m.cand held 2 ((refDisqualify m.cand m).run d) := by
  rw [refDisqualify_run]
  refine ⟨by rw [refUpd_self], fun hne => refFall_qstate _ _ _ _ ?_⟩
  rcases h with hc | ⟨-, hq⟩
  · left
    simp [Dev.refCauses, hc, hne]
  · exact .inr (hq hne)

/-- Any candidate's judgement leaves one that is settled settled. -/
theorem refDisqualify_keeps {c : RefId} {held : List Nat} (m : RefMeas) {d : Dev} (h : Judged c held 2 d) :
    Judged c held 2 ((refDisqualify m.cand m).run d) := by
  by_cases hc : c = m.cand
  · subst hc
    exact refDisqualify_judged (.inr h)
  · obtain ⟨hcs, hq⟩ := refDisqualify_other hc d
    exact h.of_same hcs hq

/-- All the tick's judgements settle every candidate that is measured. -/
theorem each_refDisqualify {m : RefMeas} {held : List Nat} {meas : List RefMeas} (hm : m ∈ meas) (d : Dev)
    (hd : Judging m.cand held d) : Judged m.cand held 2 ((each meas fun m => refDisqualify m.cand m).run d) := by
  induction meas generalizing d with
  | nil => cases hm
  | cons b l ih =>
    rw [run_each_cons]
    by_cases hb : m.cand = b.cand
    · have hj : Judged m.cand held 2 ((refDisqualify b.cand b).run d) := by
        rw [hb] at hd ⊢
        exact refDisqualify_judged hd
      refine each_keeps (Judged m.cand held 2) _ ?_ l _ hj
      intro a e he
      exact refDisqualify_keeps a he
    · have hl : m ∈ l := (List.mem_cons.1 hm).resolve_left fun h => hb (congrArg RefMeas.cand h)
      obtain ⟨hcs, hq⟩ := refDisqualify_other hb d
      refine ih hl _ ?_
      rcases hd with hc | hj
      · exact .inl (hcs.trans hc)
      · exact .inr (hj.of_same hcs hq)

/-- A qualification starts from UNQUALIFIED and gets no further than QUALIFYING. -/
theorem refQualify_keeps {c : RefId} {held : List Nat} (m : RefMeas) {d : Dev} (h : Judged c held 3 d) :
    Judged c held 3 ((refQualify m.cand m).run d) := by
  rw [refQualify, run_read, run_doIf]
  split
  · have hp : ((refPut m.cand 3).run d).refm c = d.refm c := (refPut_fixes _ _).refm d c
    rw [run_seq_cons, run_seq_cons, run_seq_nil]
    by_cases hc : c = m.cand
    · subst hc
      exact ⟨by rw [refUpd_self, hp]; exact h.1, fun _ => le_of_eq (refPut_qstate (by decide) d)⟩
    · have hn : c.val ≠ m.cand.val := Fin.val_ne_of_ne hc
      exact h.of_same (by rw [refUpd_other _ _ hn, hp]) (qstate_other (refPut_writes _ _) hn d)
  · exact h

/-- Selection, where the DPLL is ON, leaves the candidates and the counter. -/
theorem tickSelect_spec (d : Dev) : let e := (doWhen (fun d => d.on .dpll) (.read fun d => dpllSelect d.lossTick)).run d
    e.x.time.dpll.ticks = d.x.time.dpll.ticks ∧ (∀ n, e.refm n = d.refm n) ∧ ∀ n, e.qstate n = d.qstate n := by
  have hx : (doWhen (fun d => d.on .dpll) (.read fun d => dpllSelect d.lossTick)).Fixes tickView := by simp [dpllSelect_fixes]
  have hw : (doWhen (fun d => d.on .dpll) (.read fun d => dpllSelect d.lossTick)).Writes dpllWord := by simp [dpllSelect_writes]
  exact ⟨hx.tick_ticks d, hx.tick_cand d, fun n => hw.fld (by simp [dpllWord]) d⟩

/-- What each measurement's script leaves of the tick counter, all of them leave. -/
theorem each_ticks {f : RefMeas → Prog} (h : ∀ m d, ((f m).run d).x.time.dpll.ticks = d.x.time.dpll.ticks) (meas : List RefMeas)
    (d : Dev) : ((each meas f).run d).x.time.dpll.ticks = d.x.time.dpll.ticks :=
  each_keeps (fun e => e.x.time.dpll.ticks = d.x.time.dpll.ticks) f (fun m e he => (h m e).trans he) meas d rfl

theorem refDisqualify_ticks (m : RefMeas) (d : Dev) : ((refDisqualify m.cand m).run d).x.time.dpll.ticks = d.x.time.dpll.ticks := by
  rw [refDisqualify_run]
  exact (refFall_fixes _ _ _).tick_ticks d

theorem refQualify_ticks (m : RefMeas) (d : Dev) : ((refQualify m.cand m).run d).x.time.dpll.ticks = d.x.time.dpll.ticks := by
  have hp : (refPut m.cand 3).Fixes tickView := by simp [refPut]
  rw [refQualify, run_read, run_doIf]
  split
  · exact hp.tick_ticks d
  · rfl

/-- Settles O16: candidates that are judged stay so through qualification, selection and the house frequency. -/
theorem referenceTickJudgesCandidates : Obligations.ReferenceTickJudgesCandidates := by
  intro meas cw s hl
  refine completes_of_live rfl hl ?_
  rw [refTick, run_seq_cons, run_seq_cons, run_seq_cons, run_seq_cons, run_seq_cons, run_seq_nil, settle_time, Dev.sfld, settle_fld]
  generalize hd1 : (each meas fun m => refDisqualify m.cand m).run s.dev = d1
  generalize hd2 : (each meas fun m => refQualify m.cand m).run d1 = d2
  obtain ⟨hticks3, hcand3, hq3⟩ := tickSelect_spec d2
  generalize hd3 : (doWhen (fun d => d.on .dpll) (.read fun d => dpllSelect d.lossTick)).run d2 = d3 at hticks3 hcand3 hq3 ⊢
  obtain ⟨hticks4, href4, hcw4⟩ := dpllFreq_spec cw d3
  have hq4 : ∀ n, ((dpllFreq cw).run d3).qstate n = d3.qstate n := fun n => (dpllFreq_writes cw).fld (by simp) d3
  generalize hd4 : (dpllFreq cw).run d3 = d4 at hticks4 href4 hcw4 hq4 ⊢
  refine ⟨?_, fun m hm => ?_, ?_⟩
  · rw [(dpllBw_fixes tickView).tick_ticks, hticks4, hticks3, ← hd2, each_ticks refQualify_ticks, ← hd1,
      each_ticks refDisqualify_ticks]
  · have h1 : Judged m.cand (s.dev.refm m.cand).causes 2 d1 := hd1 ▸ each_refDisqualify hm s.dev (.inl rfl)
    obtain ⟨hc1, hq1⟩ := h1
    have h2 : Judged m.cand (s.dev.refm m.cand).causes 3 d2 := by
      rw [← hd2]
      refine each_keeps (Judged m.cand (s.dev.refm m.cand).causes 3) _ ?_ meas d1 ⟨hc1, fun hne => (hq1 hne).trans (by decide)⟩
      intro a e he
      exact refQualify_keeps a he
    obtain ⟨hc2, hq2⟩ := h2
    have hcand4 : d4.refm m.cand = d3.refm m.cand := by rw [Dev.refm, href4, Dev.refm]
    refine ⟨?_, fun hne => ?_⟩
    · rw [settle_refm, (dpllBw_fixes tickView).tick_cand, hcand4, hcand3, hc2]
    · rw [settle_qstate, Dev.qstate, dpllBw_writes.fld (by simp [dpllWord]), ← Dev.qstate, hq4, hq3]
      exact hq2 hne
  · rwa [dpllBw_writes.fld (by simp [dpllWord])]

end Sys2Proof.Machine
end

section
/-!
PROOFS. The DPLL's modes and the ends of its transitions: R39, R51, R53, R54, R57, R69.
-/

namespace Sys2Proof.Machine

/-! ### A DPLL state is entered -/

theorem dpllBw_keepsFld {g : Field} (hg : g.within = true) (h : g.reg = R.DPLL_STATE → g.lo + g.width ≤ 24 ∨ 28 ≤ g.lo) :
    dpllBw.KeepsFld g :=
  .read fun _ => setF_keepsFld (f := F.DPLL_STATE_bw_eff) hg h _

/-- A DPLL state that is entered is the state. -/
theorem dpllEnter_state {st : Nat} (h : st < 8) (d : Dev) : ((dpllEnter st).run d).fld F.DPLL_STATE_state = st := by
  have hz : ∀ f, F.DPLL_STATE_state.lo + F.DPLL_STATE_state.width ≤ f.lo → ∀ v, (setF f v).KeepsFld F.DPLL_STATE_state :=
    fun f hf => setF_keepsFld (by decide) fun _ => .inl hf
  have hbw : dpllBw.KeepsFld F.DPLL_STATE_state := dpllBw_keepsFld (by decide) fun _ => .inl (by decide)
  have hrest : (seq [doIf (st ≠ 3) (seq [setF F.DPLL_STATE_tphase 0, setF F.DPLL_STATE_target_ref 0]),
      doIf (st == 0 || st == 4) (setF F.DPLL_STATE_selected_ref 0), dpllBw]).KeepsFld F.DPLL_STATE_state :=
    .cons (.doIf (.cons (hz _ (by decide) 0) (.cons (hz _ (by decide) 0) keepsFld_seq_nil)))
      (.cons (.doIf (hz _ (by decide) 0)) (.cons hbw keepsFld_seq_nil))
  rw [dpllEnter, run_read, run_seq_cons, run_seq_cons, run_seq_cons, run_seq_cons, hrest, setF_fld_self _ _ _ (by decide)]
  exact Nat.mod_eq_of_lt h

/-- A DPLL state that is entered leaves the holdover and force flags. -/
theorem dpllEnter_keepsFld {g : Field} (hg : g.within = true) (h : g.reg = R.DPLL_STATE) (hlo : 28 ≤ g.lo) (st : Nat) :
    (dpllEnter st).KeepsFld g := by
  have hr : ∀ f : Field, f.reg = R.TIME_IRQ_STATUS → (raise f).KeepsFld g := fun f hf => raise_keepsFld (by simp [h, hf])
  have hs : ∀ f : Field, f.lo + f.width ≤ 28 → ∀ v, (setF f v).KeepsFld g := fun f hf => setF_keepsFld hg fun _ => .inr (hf.trans hlo)
  exact .read fun d => .cons (.doIf (hr _ rfl)) (.cons (.doIf (hr _ rfl)) (.cons (.doIf (hr _ rfl)) (.cons (hs _ (by decide) st)
    (.cons (.doIf (.cons (hs _ (by decide) 0) (.cons (hs _ (by decide) 0) keepsFld_seq_nil)))
      (.cons (.doIf (hs _ (by decide) 0)) (.cons (dpllBw_keepsFld hg fun _ => .inr hlo) keepsFld_seq_nil))))))

/-- HOLDOVER where 60 s of LOCKED history lie in the window, FREE_RUN otherwise (R57). -/
theorem dpllHold_state (ref : Nat) (d : Dev) : ((dpllHold ref).run d).fld F.DPLL_STATE_state =
    if 60000 ≤ (d.holdoverSamples ref).length then 4 else 0 := by
  have hok : ((holdover ref).run d).x.time.dpll.hoOk = decide (60000 ≤ (d.holdoverSamples ref).length) := rfl
  rw [dpllHold, run_seq_cons, run_seq_cons, run_seq_nil, run_read, hok]
  simp only [decide_eq_true_eq]
  exact dpllEnter_state (by split <;> decide) _

/-! ### A write of DPLL_CTRL (R51, R53) -/

theorem putBits_bitsOf_self (x lo n : Nat) : putBits x lo n (bitsOf x lo n) = x := by
  have h := bitsOf_split x lo n
  rw [putBits_eq, Nat.mod_eq_of_lt (bitsOf_lt x lo n)]
  exact h.symm

/-- A written mode in force, with both force flags clear. -/
def ctrlPut (v : Nat) : Prog := seq [wr R.DPLL_CTRL v, setF F.DPLL_STATE_force_lost 0, setF F.DPLL_STATE_force_refused 0]

/-- What a mode does at its write. -/
def modeActs (usable : Prop) [Decidable usable] (m : Nat) : Prog :=
  match m with
  | 1 => if usable then .nop else seq [setF F.DPLL_STATE_force_refused 1, raise F.TIME_IRQ_STATUS_force_refused]
  | 2 => .read fun e => dpllHold e.x.time.dpll.ticks
  | 3 => seq [dpllUpd fun x => { x with target := 0, hoOk := false }, dpllEnter 0]
  | _ => .nop

theorem modeActs_auto (usable : Prop) [Decidable usable] : modeActs usable 0 = .nop := rfl

theorem modeActs_writes (usable : Prop) [Decidable usable] (m : Nat) : (modeActs usable m).Writes dpllWord := by
  have hr : (raise F.TIME_IRQ_STATUS_force_refused).Writes dpllWord := writes_raise (by simp [dpllWord])
  unfold modeActs
  split
  · split <;> simp [hr, dpllWord]
  · simp
  · simp [dpllUpd, timeUpd]
  · exact acts_nop

/-- A word with a mode that exists is written as it is, and its mode acts. -/
theorem dpllWriteCtrl_run {v : Nat} (h : bitsOf v 0 3 < 4) (d : Dev) : (dpllWriteCtrl v).run d =
    (modeActs (d.qstate (bitsOf v 8 4) = 5 ∨ d.qstate (bitsOf v 8 4) = 4) (bitsOf v 0 3)).run ((ctrlPut v).run d) := by
  have hm : (if 4 ≤ bitsOf v 0 3 then d.dpllMode else bitsOf v 0 3) = bitsOf v 0 3 := if_neg (Nat.not_le.2 h)
  rw [dpllWriteCtrl, run_read]
  simp only [hm, putBits_bitsOf_self]
  rw [run_seq_cons, run_seq_cons, run_seq_cons, run_seq_cons, run_seq_nil, ctrlPut, run_seq_cons, run_seq_cons, run_seq_cons,
    run_seq_nil]
  refine congrArg (fun p => Prog.run p _) ?_
  rfl

theorem ctrlPut_fld (g : Field) (hg : g.within = true) (h : g.reg = R.DPLL_CTRL) (v : Nat) (d : Dev) :
    ((ctrlPut v).run d).fld g = bitsOf v g.lo g.width := by
  rw [ctrlPut, run_seq_cons, run_seq_cons, run_seq_cons, run_seq_nil, setF_fld_other _ _ (by simp [h]),
    setF_fld_other _ _ (by simp [h]), wr_fld_self _ _ _ h hg]

theorem ctrlPut_refused (v : Nat) (d : Dev) : ((ctrlPut v).run d).flag F.DPLL_STATE_force_refused = false := by
  rw [ctrlPut, run_seq_cons, run_seq_cons, run_seq_cons, run_seq_nil]
  exact setB_flag_self F.DPLL_STATE_force_refused false _ (by decide) rfl

/-- A written word's fields stand once its mode has acted. -/
theorem dpllWriteCtrl_fld {v : Nat} (h : bitsOf v 0 3 < 4) (g : Field) (hg : g.within = true) (hr : g.reg = R.DPLL_CTRL) (d : Dev) :
    ((dpllWriteCtrl v).run d).fld g = bitsOf v g.lo g.width := by
  rw [dpllWriteCtrl_run h, (modeActs_writes _ _).fld (by simp [dpllWord, hr]), ctrlPut_fld g hg hr]

/-- The word of DPLL_CTRL with a mode. -/
theorem modeWord_bits {m : Nat} (h : m < 8) (d : Dev) : bitsOf (putBits (d.rd R.DPLL_CTRL) 0 3 m) 0 3 = m := by
  rw [bitsOf_putBits_self]
  exact Nat.mod_eq_of_lt h

section
variable {s : State} (hl : s.dev.live = true)
include hl

theorem dpllModeAuto_completes : Completes .dpllModeAuto s fun t => t.dpllMode = 0 ∧ t.flag F.DPLL_STATE_force_refused = false := by
  have hm := modeWord_bits (m := 0) (by decide) s.dev
  refine completes_of_live rfl hl ?_
  rw [run_read, Dev.dpllMode, settle_fld, settle_flag]
  generalize putBits (s.dev.rd R.DPLL_CTRL) 0 3 0 = v at hm ⊢
  refine ⟨(dpllWriteCtrl_fld (by omega) _ (by decide) rfl _).trans hm, ?_⟩
  rw [dpllWriteCtrl_run (by omega), hm, modeActs_auto, run_nop, ctrlPut_refused]

theorem dpllModeForced_completes (c : RefId) : Completes (.dpllModeForced c) s fun t => t.dpllMode = 1 ∧
    t.fld F.DPLL_CTRL_forced_ref = c ∧ t.flag F.DPLL_STATE_force_refused = decide (s.dev.qstate c ≠ 4 ∧ s.dev.qstate c ≠ 5) := by
  have hm : bitsOf (putBits (putBits (s.dev.rd R.DPLL_CTRL) 0 3 1) 8 4 c) 0 3 = 1 :=
    (bitsOf_putBits_apart _ _ (by decide)).trans (modeWord_bits (by decide) _)
  have hc : bitsOf (putBits (putBits (s.dev.rd R.DPLL_CTRL) 0 3 1) 8 4 c) 8 4 = c := by
    rw [bitsOf_putBits_self]
    exact Nat.mod_eq_of_lt c.isLt
  refine completes_of_live rfl hl ?_
  rw [run_read, Dev.dpllMode, settle_fld, settle_fld, settle_flag]
  refine ⟨(dpllWriteCtrl_fld (by omega) _ (by decide) rfl _).trans hm, (dpllWriteCtrl_fld (by omega) _ (by decide) rfl _).trans hc, ?_⟩
  rw [dpllWriteCtrl_run (by omega), hm, modeActs, hc]
  split
  · next h =>
    rw [run_nop, ctrlPut_refused, eq_comm, decide_eq_false_iff_not]
    omega
  · next h =>
    have hr : (raise F.TIME_IRQ_STATUS_force_refused).KeepsFld F.DPLL_STATE_force_refused := raise_keepsFld (by decide)
    rw [run_seq_cons, run_seq_cons, run_seq_nil, hr.flag]
    refine (setB_flag_self F.DPLL_STATE_force_refused true _ (by decide) rfl).trans (decide_eq_true ?_).symm
    omega

theorem holdoverForce_completes : Completes .holdoverForce s fun t => t.dpllMode = 2 ∧ t.fld F.DPLL_STATE_state =
    if 60000 ≤ (s.dev.holdoverSamples s.dev.x.time.dpll.ticks).length then 4 else 0 := by
  have hm := modeWord_bits (m := 2) (by decide) s.dev
  refine completes_of_live rfl hl ?_
  rw [run_read, Dev.dpllMode, settle_fld, settle_fld]
  refine ⟨(dpllWriteCtrl_fld (by omega) _ (by decide) rfl _).trans hm, ?_⟩
  generalize hv : putBits (s.dev.rd R.DPLL_CTRL) 0 3 2 = v at hm ⊢
  have hw : (ctrlPut v).Writes fun r => r = R.DPLL_CTRL ∨ r = R.DPLL_STATE := by simp [ctrlPut]
  have hx : ((ctrlPut v).run s.dev).x = s.dev.x := Prog.Fixes.proj (π := id) (by simp [ctrlPut]) s.dev
  have hs : ∀ ref, ((ctrlPut v).run s.dev).holdoverSamples ref = s.dev.holdoverSamples ref := fun ref => by
    rw [Dev.holdoverSamples, hw.fld (by simp), hw.fld (by simp), hx, Dev.holdoverSamples]
  rw [dpllWriteCtrl_run (by omega), hm, modeActs, run_read, dpllHold_state, hs, hx]

theorem freeRunForce_completes : Completes .freeRunForce s fun t => t.dpllMode = 3 ∧ t.fld F.DPLL_STATE_state = 0 ∧
    t.flag F.DPLL_CTRL_revertive = s.dev.flag F.DPLL_CTRL_revertive := by
  have hm := modeWord_bits (m := 3) (by decide) s.dev
  refine completes_of_live rfl hl ?_
  rw [run_read, Dev.dpllMode, settle_fld, settle_fld, settle_flag]
  refine ⟨(dpllWriteCtrl_fld (by omega) _ (by decide) rfl _).trans hm, ?_, ?_⟩
  · rw [dpllWriteCtrl_run (by omega), hm, modeActs, run_seq_cons, run_seq_cons, run_seq_nil]
    exact dpllEnter_state (by decide) _
  · rw [Dev.flag, dpllWriteCtrl_fld (by omega) _ (by decide) rfl, bitsOf_putBits_apart _ _ (by decide)]
    rfl

end

/-- Settles O17: each mode by its own lemma. -/
theorem dpllModesAreForced : Obligations.DpllModesAreForced := fun _ hl =>
  ⟨dpllModeAuto_completes hl, dpllModeForced_completes hl, holdoverForce_completes hl, freeRunForce_completes hl⟩

end Sys2Proof.Machine
end

section
/-!
PROOFS. The ends of the DPLL's transitions and its faults: R39, R53, R54, R69.
-/

namespace Sys2Proof.Machine

/-- The time state as a whole. -/
def timeView (x : Ext) : TimeState := x.time

@[simp] theorem raise_timeView (f : Field) : (raise f).Fixes timeView := fixes_raise f fun _ _ _ _ _ _ => rfl

theorem Prog.Fixes.time {p : Prog} (h : p.Fixes timeView) (d : Dev) : (p.run d).x.time = d.x.time := h.proj d

theorem dpllEnter_time (st : Nat) : (dpllEnter st).Fixes timeView := by simp [dpllEnter]

theorem fnFault_time (f : Fn) (code : Nat) : (fnFault f code).Fixes timeView := by
  have hh : ∀ k b i c, (histAdd k b i c).Fixes timeView := fun _ _ _ _ _ _ => rfl
  have hu : ∀ u, (fnUpd f u).Fixes timeView := fun u => by
    simp only [fnUpd, acts_read]
    exact fun _ => trivial
  simp [fnFault, hh, hu, fnMem, timeView]

/-- Entering LOCKED leaves the selected candidate. -/
theorem dpllEnter_locked_selected (d : Dev) :
    ((dpllEnter 2).run d).fld F.DPLL_STATE_selected_ref = d.fld F.DPLL_STATE_selected_ref := by
  have hr : ∀ f : Field, f.reg = R.TIME_IRQ_STATUS → (raise f).KeepsFld F.DPLL_STATE_selected_ref := fun f hf =>
    raise_keepsFld (by rw [hf]; decide)
  have hs : ∀ f : Field, f.lo + f.width ≤ 12 ∨ 16 ≤ f.lo → ∀ v, (setF f v).KeepsFld F.DPLL_STATE_selected_ref := fun f hf =>
    setF_keepsFld (by decide) fun _ => hf.symm
  have hsel : (doIf ((2 : Nat) == 0 || (2 : Nat) == 4) (setF F.DPLL_STATE_selected_ref 0)).KeepsFld F.DPLL_STATE_selected_ref :=
    keepsFld_nop
  exact Prog.KeepsFld.read (fun d => .cons (.doIf (hr _ rfl)) (.cons (.doIf (hr _ rfl)) (.cons (.doIf (hr _ rfl))
    (.cons (hs _ (by decide) 2) (.cons (.doIf (.cons (hs _ (by decide) 0) (.cons (hs _ (by decide) 0) keepsFld_seq_nil)))
      (.cons hsel (.cons (dpllBw_keepsFld (by decide) fun _ => .inl (by decide)) keepsFld_seq_nil))))))) d

/-- The relock that is tried first leaves the function's state (R69). -/
theorem synthRung_fst (relocked : Bool) (d : Dev) :
    ((dpllUpd fun m => { m with synthLock := relocked }).run ((fnRung .dpll 1).run d)).fst .dpll = d.fst .dpll := by
  rw [Dev.fst, Dev.fw, dpllUpd, timeUpd_rd, ← Dev.fw, fnRung_fw (by decide), Dev.fst]

section
variable {s : State} (hl : s.dev.live = true)
include hl

/-- The rest of acquisition's end leaves the state that is entered. -/
theorem dpllAcqLocked_completes (adj : Int) (h : s.dev.fld F.DPLL_STATE_state = 1) : Completes (.dpllAcqLocked adj) s fun t =>
    t.fld F.DPLL_STATE_state = 2 ∧ t.flag F.TIME_STATUS_acq_done = true ∧
      t.x.time.ht = ((s.dev.x.time.ht : Int) + adj).toNat ∧ KeepsMem s.dev t := by
  have hg : (s.dev.fld F.DPLL_STATE_state == 1) = true := by simp [h]
  obtain ⟨rest, -, hx, hrun⟩ := htMove_run adj s.dev
  have htrace : (doWhen (fun d => d.timeLocked) (setF F.TIME_STATUS_ht_traceable 1)).Writes fun r => r = R.TIME_STATUS := by simp
  have htx : (doWhen (fun d => d.timeLocked) (setF F.TIME_STATUS_ht_traceable 1)).Fixes timeView := by simp
  have hacq : (setF F.TIME_STATUS_acq_done 1).Writes fun r => r = R.TIME_STATUS := by simp
  have hax : (setF F.TIME_STATUS_acq_done 1).Fixes timeView := by simp
  have hk : (doWhen (fun d => d.timeLocked) (setF F.TIME_STATUS_ht_traceable 1)).KeepsFld F.TIME_STATUS_acq_done :=
    .doWhen (setF_keepsFld (by decide) (fun _ => by decide) 1)
  refine completes_of_live rfl hl ?_
  rw [run_doWhen, if_pos hg, run_seq_cons, run_seq_cons, run_seq_cons, run_seq_cons, run_seq_nil, settle_fld, settle_flag, settle_time]
  refine ⟨?_, ?_, ?_, keepsMem_settle ?_⟩
  · rw [htrace.fld (by decide), hacq.fld (by decide), dpllEnter_state (by decide)]
  · rw [hk.flag]
    exact setB_flag_self F.TIME_STATUS_acq_done true _ (by decide) rfl
  · rw [htx.time, hax.time, (dpllEnter_time 2).time, hrun, hx.house_ht]
    rfl
  · rw [htrace.memFree.run_mem, hacq.memFree.run_mem, (dpllEnter_time 2).run_mem, hrun, hx.run_mem]
    rfl

theorem dpllCaptureComplete_completes (off : Int) (hst : s.dev.fld F.DPLL_STATE_state = 3) (hph : s.dev.fld F.DPLL_STATE_tphase = 1) :
    Completes (.dpllCaptureComplete off) s fun t => t.fld F.DPLL_STATE_tphase = 2 ∧
      t.rd R.DPLL_BUILDOUT = (if 8 ≤ s.dev.fld F.DPLL_STATE_target_ref ∨
          ((s.dev.fld F.DPLL_STATE_target_ref = 6 ∨ s.dev.fld F.DPLL_STATE_target_ref = 7) ∧
            s.dev.fld (F.REF_CTRL_input_use (s.dev.fld F.DPLL_STATE_target_ref)) = 2) then 0 else satCode 32 off) ∧
      Keeps s.dev t fun r => r = R.DPLL_BUILDOUT ∨ r = R.DPLL_STATE := by
  have hg : (s.dev.fld F.DPLL_STATE_state == 3 && s.dev.fld F.DPLL_STATE_tphase == 1) = true := by simp [hst, hph]
  have hw : ∀ v, (seq [wr R.DPLL_BUILDOUT v, setF F.DPLL_STATE_tphase 2]).Writes
      fun r => r = R.DPLL_BUILDOUT ∨ r = R.DPLL_STATE := fun v => by simp
  have hx : ∀ v, (seq [wr R.DPLL_BUILDOUT v, setF F.DPLL_STATE_tphase 2]).Fixes id := fun v => by simp
  refine completes_of_live rfl hl ?_
  rw [run_doWhen, if_pos hg, run_read]
  refine ⟨?_, ?_, (hw _).keeps (hx _) _⟩
  · rw [settle_fld, run_seq_cons, run_seq_cons, run_seq_nil]
    exact setF_fld_self F.DPLL_STATE_tphase 2 _ (by decide)
  · rw [settle_rd, run_seq_cons, run_seq_cons, run_seq_nil, Dev.rd, setF_reg_other _ _ (by decide), ← Dev.rd,
      wr_rd_full _ _ (by decide) rfl rfl, Nat.mod_eq_of_lt]
    · simp
    · split
      · decide
      · exact codeOf_lt 32 _

theorem dpllPullComplete_completes (hst : s.dev.fld F.DPLL_STATE_state = 3) (hph : s.dev.fld F.DPLL_STATE_tphase = 2) :
    Completes .dpllPullComplete s fun t => t.fld F.DPLL_STATE_state = 2 ∧
      t.fld F.DPLL_STATE_selected_ref = s.dev.fld F.DPLL_STATE_target_ref ∧ t.flag F.TIME_STATUS_acq_done = true := by
  have hg : (s.dev.fld F.DPLL_STATE_state == 3 && s.dev.fld F.DPLL_STATE_tphase == 2) = true := by simp [hst, hph]
  refine completes_of_live rfl hl ?_
  rw [run_doWhen, if_pos hg, run_read, run_seq_cons, run_seq_cons, run_seq_cons, run_seq_nil, settle_fld, settle_fld, settle_flag]
  refine ⟨?_, ?_, setB_flag_self F.TIME_STATUS_acq_done true _ (by decide) rfl⟩
  · rw [setF_fld_other _ _ (by decide), dpllEnter_state (by decide)]
  · rw [setF_fld_other _ _ (by decide), dpllEnter_locked_selected, setF_fld_self _ _ _ (by decide)]
    exact Nat.mod_eq_of_lt (bitsOf_lt _ 16 4)

theorem dpllCwLimit_completes (hst : s.dev.fld F.DPLL_STATE_state = 2) (hon : s.dev.fst .dpll = .on) :
    Completes .dpllCwLimit s fun t => t.fst .dpll = .fault ∧ (t.fw .dpll).code = 1 := by
  have hg : (s.dev.fld F.DPLL_STATE_state == 2) = true := by simp [hst]
  obtain ⟨hf, hc, -⟩ := fnFault_enters (f := .dpll) (d := s.dev) 1 (.inr hon)
  refine completes_of_live rfl hl ?_
  rw [run_doWhen, if_pos hg, settle_fst, settle_fw]
  exact ⟨hf, hc⟩

theorem synthLockLoss_relocked_completes :
    Completes (.synthLockLoss true) s fun t => t.fst .dpll = s.dev.fst .dpll ∧ t.x.time.dpll.synthLock = true := by
  refine completes_of_live rfl hl ?_
  rw [run_seq_cons, run_seq_cons, run_seq_cons, run_seq_nil, run_doIf, if_neg (by decide), settle_fst, settle_time]
  exact ⟨synthRung_fst true s.dev, rfl⟩

theorem synthLockLoss_failed_completes (hon : s.dev.fst .dpll = .on) : Completes (.synthLockLoss false) s fun t =>
    t.fst .dpll = .fault ∧ (t.fw .dpll).code = 2 ∧ t.x.time.dpll.synthLock = false := by
  obtain ⟨hf, hc, -⟩ := fnFault_enters (f := .dpll) 2 (.inr ((synthRung_fst false s.dev).trans hon))
  refine completes_of_live rfl hl ?_
  rw [run_seq_cons, run_seq_cons, run_seq_cons, run_seq_nil, run_doIf, if_pos (by decide), settle_fst, settle_fw, settle_time]
  refine ⟨hf, hc, ?_⟩
  rw [(fnFault_time _ _).time]
  rfl

end

/-- Settles O18: each event by its own lemma. -/
theorem dpllTransitionsComplete : Obligations.DpllTransitionsComplete := fun _ hl =>
  ⟨dpllAcqLocked_completes hl, dpllCaptureComplete_completes hl, dpllPullComplete_completes hl, dpllCwLimit_completes hl,
    synthLockLoss_relocked_completes hl, synthLockLoss_failed_completes hl⟩

end Sys2Proof.Machine
end

section
/-!
PROOFS. Output timing generators and realignment: R61 to R64.
-/

namespace Sys2Proof.Machine

/-! ### A frame boundary without a move (R61, R62) -/

section
variable {n : OtgId} {d : Dev}

/-- The next frame of an OTG that goes on by its rule. -/
def otgNext (n : Nat) (d : Dev) : Dev :=
  (otgUpd n fun m => { m with start := (d.otgm n).start + (d.otgm n).length
                              started := true
                              realign := false
                              offset := d.otgOffset n
                              length := fmtPeriod (d.otgm n).format }).run d

theorem otgBoundary_run (hs : (d.otgm n).started = true) (hr : (d.otgm n).realign = false)
    (ho : d.otgOffset n = (d.otgm n).offset) (hl : d.flag (F.OTG_STATUS_realigned_last n) = false) :
    ∃ rest : Prog, rest.Writes stepWord ∧ rest.Fixes id ∧ (otgBoundary n).run d =
      rest.run ((set64 (R.OTG_FRAME_LO n) (R.OTG_FRAME_HI n) (d.otgFrame n + 1)).run (otgNext n d)) := by
  refine ⟨seq [setB (F.OTG_STATUS_realigned_last n) false, setF (F.OTG_STATUS_realign_pending n) 0, otgMisaligned n], ?_, ?_, ?_⟩
  · simp [stepWord]
  · simp
  · simp [otgBoundary, hs, hr, hl, ho, otgNext, run_seq_cons]

theorem set64_fixes {α : Type} (π : Ext → α) (lo hi : Reg) (v : Nat) : (set64 lo hi v).Fixes π := by simp [set64]

theorem otgFrame_regs (n : OtgId) : (R.OTG_FRAME_LO n).valid = true ∧ (R.OTG_FRAME_HI n).valid = true :=
  ⟨Reg.valid_indexed rfl n.isLt, Reg.valid_indexed rfl n.isLt⟩

/-- The frame that begins at a boundary without a move. -/
theorem otgBoundary_spec (hs : (d.otgm n).started = true) (hr : (d.otgm n).realign = false)
    (ho : d.otgOffset n = (d.otgm n).offset) (hl : d.flag (F.OTG_STATUS_realigned_last n) = false) :
    let e := (otgBoundary n).run d
    e.x = (otgNext n d).x ∧ e.mem = d.mem ∧ e.otgFrame n = (d.otgFrame n + 1) % 2 ^ 64 := by
  obtain ⟨rest, hw, hx, hrun⟩ := otgBoundary_run hs hr ho hl
  obtain ⟨hlo, hhi⟩ := otgFrame_regs n
  dsimp only
  rw [hrun]
  refine ⟨?_, ?_, ?_⟩
  · exact (hx.proj _).trans ((set64_fixes id _ _ _).proj _)
  · rw [hx.run_mem, (set64_fixes id _ _ _).run_mem, otgNext, otgUpd_mem]
  · have hk : ∀ r : Reg, ¬ stepWord r → ∀ e, (rest.run e).rd r = e.rd r := fun r hn e => by
      rw [Dev.rd, hw.keepsRegs e r hn, Dev.rd]
    rw [Dev.otgFrame, Dev.rd64, hk _ (by simp [stepWord]), hk _ (by simp [stepWord]), ← Dev.rd64,
      set64_rd64 hlo hhi rfl rfl rfl rfl (by simp)]

end

theorem otgFrameBoundary_completes {n : OtgId} {s : State} (hl : s.dev.live = true) (hon : s.dev.fst (.otg n) = .on)
    (hs : (s.dev.otgm n).started = true) (hr : (s.dev.otgm n).realign = false)
    (ho : s.dev.otgOffset n = (s.dev.otgm n).offset) (hlast : s.dev.flag (F.OTG_STATUS_realigned_last n) = false)
    (hsnap : s.dev.x.twin.snap = none) : Completes (.otgFrameBoundary n) s fun t => KeepsMem s.dev t ∧
      (t.otgm n).start = (s.dev.otgm n).start + (s.dev.otgm n).length ∧ (t.otgm n).started = true ∧
      (t.otgm n).length = fmtPeriod (s.dev.otgm n).format ∧
      t.otgFrame n = (s.dev.otgFrame n + 1) % 2 ^ 64 ∧ ∀ k : OtgId, k ≠ n → t.otgm k = s.dev.otgm k := by
  have hg : s.dev.on (.otg n) = true := by simp [Dev.on, hon]
  obtain ⟨hx, hm, hk⟩ := otgBoundary_spec hs hr ho hlast
  have hotg : ∀ k, ((otgBoundary n).run s.dev).otgm k = (otgNext n s.dev).otgm k := fun k => by rw [Dev.otgm, hx, Dev.otgm]
  have hself : (otgNext n s.dev).otgm n = _ := otgUpd_self _ _ _
  have hdue : (snapDue n).run ((otgBoundary n).run s.dev) = (otgBoundary n).run s.dev := by
    have hn : ((otgBoundary n).run s.dev).x.twin.snap = none := by
      rw [hx]
      exact hsnap
    simp only [snapDue, run_read, hn, run_nop]
  refine completes_of_live rfl hl ?_
  rw [run_doWhen, if_pos hg, run_seq_cons, run_seq_cons, run_seq_nil, hdue]
  refine ⟨keepsMem_settle hm, ?_, ?_, ?_, ?_, fun k hne => ?_⟩
  · rw [settle_otgm, hotg, hself]
  · rw [settle_otgm, hotg, hself]
  · rw [settle_otgm, hotg, hself]
  · rw [Dev.otgFrame, Dev.rd64, settle_rd, settle_rd]
    exact hk
  · rw [settle_otgm, hotg]
    exact otgUpd_other _ _ (Fin.val_ne_of_ne hne)

/-! ### Realignment (R63) -/

/-- A realignment is armed where none is pending. -/
theorem realignArm_spec (d : Dev) (h : d.flag F.DPLL_REALIGN_STATUS_pending = false) : let e := realignArm.run d
    e.flag F.DPLL_REALIGN_STATUS_pending = true ∧ e.flag F.DPLL_REALIGN_STATUS_ht_stepped = false ∧
      e.x.time.dpll.stepPending = true := by
  have hg : (!d.flag F.DPLL_REALIGN_STATUS_pending) = true := by simp [h]
  have hp : (setF F.DPLL_REALIGN_STATUS_ht_stepped 0).KeepsFld F.DPLL_REALIGN_STATUS_pending :=
    setF_keepsFld (by decide) (fun _ => by decide) 0
  simp only [realignArm, run_doWhen, if_pos hg, run_seq_cons, run_seq_nil]
  refine ⟨?_, setB_flag_self F.DPLL_REALIGN_STATUS_ht_stepped false _ (by decide) rfl, rfl⟩
  exact (hp.flag _).trans (setB_flag_self F.DPLL_REALIGN_STATUS_pending true _ (by decide) rfl)

theorem realignArm_pending {d : Dev} (h : d.flag F.DPLL_REALIGN_STATUS_pending = true) : realignArm.run d = d := by
  simp [realignArm, h]

theorem realignArm_writes : realignArm.Writes fun r => r = R.DPLL_REALIGN_STATUS := by simp [realignArm, timeUpd]

theorem dpllRealign_armed_completes {s : State} (hl : s.dev.live = true) (h : s.dev.flag F.DPLL_REALIGN_STATUS_pending = false) :
    Completes .dpllRealign s fun t => t.flag F.DPLL_REALIGN_STATUS_pending = true ∧
      t.flag F.DPLL_REALIGN_STATUS_ht_stepped = false ∧ t.x.time.dpll.stepPending = true ∧
      KeepsRegs s.dev t (fun r => r = R.DPLL_REALIGN_STATUS) ∧ KeepsMem s.dev t := by
  obtain ⟨hp, hh, hst⟩ := realignArm_spec s.dev h
  refine completes_of_live rfl hl ?_
  rw [settle_flag, settle_flag, settle_time]
  exact ⟨hp, hh, hst, keepsRegs_settle (realignArm_writes.keepsRegs _), keepsMem_settle (realignArm_writes.memFree.run_mem _)⟩

theorem dpllRealign_pending_completes {s : State} (hl : s.dev.live = true) (h : s.dev.flag F.DPLL_REALIGN_STATUS_pending = true) :
    Completes .dpllRealign s fun t => Keeps s.dev t fun _ => False := by
  refine completes_of_live rfl hl ?_
  rw [realignArm_pending h]
  exact Prog.Writes.keeps (p := .nop) trivial trivial s.dev

/-- HT and the step that waits. -/
def stepView (x : Ext) : Nat × Bool := (x.time.ht, x.time.dpll.stepPending)

/-- What follows the step: the OTGs that realign, and the end of a realignment that none has. -/
def realignRest (left : List Nat) : Prog := seq [
  each left fun n => seq [otgUpd n fun o => { o with realign := true }, setF (F.OTG_STATUS_realign_pending n) 1],
  doIf left.isEmpty (seq [setF F.DPLL_REALIGN_STATUS_pending 0, raise F.TIME_IRQ_STATUS_realign_done])]

theorem realignRest_fixes (left : List Nat) : (realignRest left).Fixes stepView := by
  have hr : (raise F.TIME_IRQ_STATUS_realign_done).Fixes stepView := fixes_raise _ fun _ _ _ _ _ _ => rfl
  simp [realignRest, otgUpd, timeUpd, hr, stepView]

/-- The registers that the end of a realignment writes. -/
def realignWord (r : Reg) : Prop := r.kind ∈ [RK.OTG_STATUS, .DPLL_REALIGN_STATUS, .TIME_IRQ_STATUS]

theorem realignRest_writes (left : List Nat) : (realignRest left).Writes realignWord := by
  have hr : (raise F.TIME_IRQ_STATUS_realign_done).Writes realignWord := writes_raise (by simp [realignWord])
  simp [realignRest, otgUpd, timeUpd, hr, realignWord]

theorem realignRest_stepped (left : List Nat) : (realignRest left).KeepsFld F.DPLL_REALIGN_STATUS_ht_stepped := by
  have hp : (setF F.DPLL_REALIGN_STATUS_pending 0).KeepsFld F.DPLL_REALIGN_STATUS_ht_stepped :=
    setF_keepsFld (by decide) (fun _ => by decide) 0
  have ho : ∀ n, (seq [otgUpd n fun o => { o with realign := true }, setF (F.OTG_STATUS_realign_pending n) 1]).Writes
      fun r => r.kind = .OTG_STATUS := fun n => by simp [otgUpd, timeUpd]
  exact .cons (keepsFld_each fun n _ => (ho n).keepsFld (by simp))
    (.cons (.doIf (.cons hp (.cons (raise_keepsFld (by decide)) keepsFld_seq_nil))) keepsFld_seq_nil)

/-- The step itself: HT moves, the build-out reads 0, the step is shown, and a locked HT is traceable. -/
def realignTake (d : Dev) : Prog := seq [htMove (-(d.sfld F.DPLL_BUILDOUT) * nsU), wr R.DPLL_BUILDOUT 0,
  setF F.DPLL_REALIGN_STATUS_ht_stepped 1, doIf d.timeLocked (setF F.TIME_STATUS_ht_traceable 1)]

theorem realignTake_spec (d : Dev) : let e := (realignTake d).run d
    e.x.time.ht = ((d.x.time.ht : Int) - d.sfld F.DPLL_BUILDOUT * 3024).toNat ∧ e.rd R.DPLL_BUILDOUT = 0 ∧
      e.flag F.DPLL_REALIGN_STATUS_ht_stepped = true ∧ e.mem = d.mem := by
  obtain ⟨rest, -, hx, hrun⟩ := htMove_run (-(d.sfld F.DPLL_BUILDOUT) * nsU) d
  have hw : (doIf d.timeLocked (setF F.TIME_STATUS_ht_traceable 1)).Writes fun r => r = R.TIME_STATUS := by simp
  have hx' : (seq [wr R.DPLL_BUILDOUT 0, setF F.DPLL_REALIGN_STATUS_ht_stepped 1,
      doIf d.timeLocked (setF F.TIME_STATUS_ht_traceable 1)]).Fixes houseView := by simp
  simp only [realignTake]
  rw [run_seq_cons, hrun]
  refine ⟨?_, ?_, ?_, ?_⟩
  · rw [hx'.house_ht, hx.house_ht, timeUpd_x]
    simp only [nsU]
    congr 1
    omega
  · rw [run_seq_cons, run_seq_cons, run_seq_cons, run_seq_nil, Dev.rd, hw.keepsRegs _ _ (by decide),
      setF_reg_other _ _ (by decide), ← Dev.rd, wr_rd_full _ _ (by decide) rfl rfl, Nat.zero_mod]
  · rw [run_seq_cons, run_seq_cons, run_seq_cons, run_seq_nil, hw.flag (by decide)]
    exact setB_flag_self F.DPLL_REALIGN_STATUS_ht_stepped true _ (by decide) rfl
  · rw [hx'.run_mem, hx.run_mem, timeUpd_mem]

theorem realignStep_run {d : Dev} (h : d.x.time.dpll.stepPending = true) : ∃ left : List Nat, realignStep.run d =
    (realignRest left).run ((timeUpd fun t => { t with
      dpll := { t.dpll with stepPending := false, realignLeft := left }
      pulseRealign := [0, 16, 17, 18, 19] }).run ((realignTake d).run d)) := by
  refine ⟨(List.range 32).filter fun n => d.fst (.otg (Fin.ofNat 32 n)) == .on && (d.otgm n).started, ?_⟩
  rw [realignStep, run_doWhen, if_pos h, run_read]
  simp only [run_seq_cons, run_seq_nil, realignTake, realignRest]

/-- The step of a realignment: HT loses the build-out, which then reads 0. -/
theorem realignStep_spec (d : Dev) (h : d.x.time.dpll.stepPending = true) : let e := realignStep.run d
    e.x.time.ht = ((d.x.time.ht : Int) - d.sfld F.DPLL_BUILDOUT * 3024).toNat ∧ e.rd R.DPLL_BUILDOUT = 0 ∧
      e.flag F.DPLL_REALIGN_STATUS_ht_stepped = true ∧ e.x.time.dpll.stepPending = false ∧ e.mem = d.mem := by
  obtain ⟨left, hrun⟩ := realignStep_run h
  obtain ⟨hht, hb, hst, hm⟩ := realignTake_spec d
  have hw := realignRest_writes left
  have hx := realignRest_fixes left
  dsimp only
  rw [hrun]
  refine ⟨?_, ?_, ?_, ?_, ?_⟩
  · exact (congrArg Prod.fst (hx.proj _)).trans hht
  · rw [Dev.rd, hw.keepsRegs _ _ (by simp [realignWord])]
    exact hb
  · rw [(realignRest_stepped left).flag]
    exact hst
  · exact congrArg Prod.snd (hx.proj _)
  · rw [hx.run_mem, timeUpd_mem, hm]

/-- Settles O19: frames by the boundary without a move, realignment by its arming and its step. -/
theorem framesFollowTheTimingRule : Obligations.FramesFollowTheTimingRule := by
  intro s hl
  refine ⟨fun n hon hs hr ho hlast hsnap => otgFrameBoundary_completes hl hon hs hr ho hlast hsnap,
    dpllRealign_armed_completes hl, dpllRealign_pending_completes hl, fun h => ?_⟩
  obtain ⟨hht, hb, hst, hp, hm⟩ := realignStep_spec s.dev h
  refine completes_of_live rfl hl ?_
  rw [settle_time, settle_rd, settle_flag]
  exact ⟨hht, hb, hst, hp, keepsMem_settle hm⟩

end Sys2Proof.Machine
end

section
/-!
PROOFS. Event timers and the PPS output: R65 to R67.
-/

namespace Sys2Proof.Machine

section
variable {n : EvtId}

theorem evtArm_within (n : EvtId) : (F.EVT_CTRL_arm n).within = true :=
  Field.within_of_hasBits (Reg.valid_indexed rfl n.isLt) (show hasBits .EVT_CTRL 0 1 = true by decide)
theorem evtState_within (n : EvtId) : (F.EVT_STATUS_state n).within = true :=
  Field.within_of_hasBits (Reg.valid_indexed rfl n.isLt) (show hasBits .EVT_STATUS 0 2 = true by decide)
theorem evtStepped_within (n : EvtId) : (F.EVT_STATUS_stepped n).within = true :=
  Field.within_of_hasBits (Reg.valid_indexed rfl n.isLt) (show hasBits .EVT_STATUS 2 1 = true by decide)

/-- The state is apart from the flag beside it. -/
theorem setStepped_keepsState (n : EvtId) (v : Nat) : (setF (F.EVT_STATUS_stepped n) v).KeepsFld (F.EVT_STATUS_state n) :=
  setF_keepsFld (evtState_within n) (fun _ => .inl (le_refl 2)) v

/-! ### Arming (R67) -/

/-- What a timer is armed with: the time, scale, action and target of its registers. -/
def Dev.evtArmed (d : Dev) (n : Nat) : EvtMem :=
  let due := timeOf (d.fld (F.EVT_SEC_LO n) + d.fld (F.EVT_SEC_HI n) * 2 ^ 32) (d.fld (F.EVT_NS n))
  let sc := d.fld (F.EVT_CTRL_scale n)
  { due := due, scale := sc, action := d.fld (F.EVT_CTRL_action n), target := d.fld (F.EVT_CTRL_target n)
    late := decide (due < d.scale sc) }

theorem evtArm_run (n : Nat) (d : Dev) : (evtArm n).run d = (seq [
    timeUpd fun t => { t with evt := KV.set {} t.evt n (d.evtArmed n) },
    setF (F.EVT_CTRL_arm n) 1, setF (F.EVT_STATUS_state n) 1, setF (F.EVT_STATUS_stepped n) 0]).run d := rfl

theorem evtArm_spec (d : Dev) : let e := (evtArm n).run d
    e.evtm n = d.evtArmed n ∧ e.flag (F.EVT_CTRL_arm n) = true ∧ e.fld (F.EVT_STATUS_state n) = 1 := by
  dsimp only
  rw [evtArm_run, run_seq_cons, run_seq_cons, run_seq_cons, run_seq_cons, run_seq_nil]
  refine ⟨?_, ?_, ?_⟩
  · rw [Dev.evtm, setF_x, setF_x, setF_x, timeUpd_x, KV.get_set_self]
  · rw [Dev.flag, setF_fld_other _ _ (by simp), setF_fld_other _ _ (by simp)]
    exact setB_flag_self (F.EVT_CTRL_arm n) true _ (evtArm_within n) rfl
  · rw [setStepped_keepsState n 0, setF_fld_self _ _ _ (evtState_within n)]
    rfl

theorem evtArm_writes (n : Nat) : (evtArm n).Writes fun r => r = R.EVT_CTRL n ∨ r = R.EVT_STATUS n := by
  simp [evtArm, timeUpd]

theorem evtDisarm_spec (d : Dev) : let e := (evtDisarm n).run d
    e.flag (F.EVT_CTRL_arm n) = false ∧ e.fld (F.EVT_STATUS_state n) =
      if d.fld (F.EVT_STATUS_state n) = 1 then 0 else d.fld (F.EVT_STATUS_state n) := by
  have harm : ∀ e, ((setF (F.EVT_CTRL_arm n) 0).run e).fld (F.EVT_STATUS_state n) = e.fld (F.EVT_STATUS_state n) := fun e =>
    setF_fld_other _ _ (by simp)
  have hst : (doWhen (fun d => d.fld (F.EVT_STATUS_state n) == 1) (setF (F.EVT_STATUS_state n) 0)).Writes
      fun r => r = R.EVT_STATUS n := by simp
  simp only [evtDisarm, run_seq_cons, run_seq_nil]
  refine ⟨?_, ?_⟩
  · rw [Dev.flag, timeUpd_fld, hst.fld (by simp)]
    exact setB_flag_self (F.EVT_CTRL_arm n) false _ (evtArm_within n) rfl
  · rw [timeUpd_fld, run_doWhen, harm]
    simp only [beq_iff_eq]
    split
    · rw [setF_fld_self _ _ _ (evtState_within n), Nat.zero_mod]
    · rw [harm]

theorem evtDisarm_writes (n : Nat) : (evtDisarm n).Writes fun r => r = R.EVT_CTRL n ∨ r = R.EVT_STATUS n := by
  simp [evtDisarm, timeUpd]

/-- A timer that firmware writes, or one of the host's own, is written. -/
theorem evtOwned_own {who : Writer} (h : who = .firmware ∨ 48 ≤ n.val) (data : Nat) (p : Prog) : evtOwned n who data p = p := by
  rw [evtOwned, if_neg]
  rintro ⟨hn, rfl⟩
  exact h.elim nofun (Nat.not_le.2 hn)

/-- Logging a refused access leaves the time state. -/
theorem aflPush_time (master : Nat) (kind : AflKind) (be c off data : Nat) : (aflPush master kind be c off data).Fixes timeView := by
  simp only [aflPush, acts_seq_cons, acts_read, acts_ite, acts_seq_nil, raise_timeView, true_and, and_true, fixes_inc, implies_true]
  exact fun d _ _ => rfl

/-! ### Firing (R66, R67) -/

/-- What a timer does at its target. -/
def evtAct (n : Nat) (e : EvtMem) : Prog :=
  match e.action with
  | 1 => raise F.TIME_IRQ_STATUS_evt_fired
  | 2 => doIf (decide (e.target < 32)) (gpioSet e.target true)
  | 3 => doIf (decide (e.target < 32)) (gpioSet e.target false)
  | 4 => doIf (decide (e.target < 32)) (emit (.gpioPulse e.target))
  | 5 => doIf (decide (n < 48)) (ext fun x => { x with chainDue := x.chainDue ++ [(e.target, e.due, e.scale)] })
  | _ => .nop

/-- What a timer's firing does for firmware. -/
def evtHand (n : Nat) (e : EvtMem) (fw : Option FwAction) : Prog := seq [
  match fw with
  | some .activate => ext fun x => { x with activateDue := true }
  | some (.chain c) => ext fun x => { x with chainDue := x.chainDue ++ [(c, e.due, e.scale)] }
  | none => .nop,
  timeUpd fun t => { t with evtFw := KV.set none t.evtFw n none }]

theorem evtHand_writes (n : Nat) (e : EvtMem) (fw : Option FwAction) (but : Reg → Prop) : (evtHand n e fw).Writes but := by
  simp only [evtHand, acts_seq_cons, acts_seq_nil, and_true]
  refine ⟨?_, trivial⟩
  split <;> trivial

theorem evtAct_writes (n : Nat) (e : EvtMem) : (evtAct n e).Writes fun r => r = R.TIME_IRQ_STATUS := by
  have hr : (raise F.TIME_IRQ_STATUS_evt_fired).Writes fun r => r = R.TIME_IRQ_STATUS := writes_raise rfl
  unfold evtAct
  split <;> simp [hr, gpioSet, emit]

theorem evtFire_run (n : Nat) (stepped : Bool) (d : Dev) : (evtFire n stepped).run d =
    (evtHand n (d.evtm n) (KV.get none d.x.time.evtFw n)).run ((evtAct n (d.evtm n)).run ((setB (F.EVT_STATUS_stepped n) stepped).run
      ((setF (F.EVT_STATUS_state n) (if (d.evtm n).late then 3 else 2)).run ((setF (F.EVT_CTRL_arm n) 0).run d)))) := by
  rw [evtFire, run_read]
  simp only [run_seq_cons, run_seq_nil, evtHand]
  rfl

theorem evtFire_spec (d : Dev) : let e := (evtFire n false).run d
    e.flag (F.EVT_CTRL_arm n) = false ∧ e.fld (F.EVT_STATUS_state n) = (if (d.evtm n).late then 3 else 2) ∧
      e.flag (F.EVT_STATUS_stepped n) = false ∧ ((d.evtm n).action = 1 → e.flag F.TIME_IRQ_STATUS_evt_fired = true) := by
  have ha := evtAct_writes n (d.evtm n)
  have hh := evtHand_writes n (d.evtm n) (KV.get none d.x.time.evtFw n) fun _ => False
  dsimp only
  rw [evtFire_run, hh.flag nofun, hh.fld nofun, hh.flag nofun, hh.flag nofun, ha.flag (by simp), ha.fld (by simp), ha.flag (by simp)]
  refine ⟨?_, ?_, setB_flag_self _ _ _ (evtStepped_within n) rfl, fun h => ?_⟩
  · rw [Dev.flag, setB, setF_fld_other _ _ (by simp), setF_fld_other _ _ (by simp)]
    exact setB_flag_self (F.EVT_CTRL_arm n) false _ (evtArm_within n) rfl
  · rw [setB, setStepped_keepsState n, setF_fld_self _ _ _ (evtState_within n)]
    split <;> rfl
  · rw [evtAct, h]
    exact raise_flag_self _ _ (by decide) rfl

/-! ### The PPS output (R65) -/

/-- Outside a realignment the PPS output keeps its skew. -/
theorem pulseEdge_pps_run {d : Dev} (h : d.flag F.PPS_OUT_CTRL_enable = true) (h0 : 0 ∉ d.x.time.pulseRealign) :
    ∃ u : TimeState → TimeState, (pulseEdge .pps).run d = (emit (.pulse .pps
      (nextInstant secU (KV.get 0 d.x.time.pulseSkew 0) (d.scale (d.fld F.PPS_OUT_CTRL_scale)))
      (d.fld F.PPS_OUT_CTRL_width) (!d.flag F.PPS_OUT_CTRL_polarity))).run ((timeUpd u).run d) := by
  have hskew : (if d.x.time.pulseRealign.contains 0 then 0 else KV.get 0 d.x.time.pulseSkew 0) = KV.get 0 d.x.time.pulseSkew 0 :=
    if_neg (by simpa using h0)
  refine ⟨fun t => { t with pulseSkew := KV.set 0 t.pulseSkew 0 (KV.get 0 d.x.time.pulseSkew 0)
                            pulseRealign := t.pulseRealign.filter (· ≠ 0) }, ?_⟩
  rw [pulseEdge, run_doWhen, if_pos h, run_read]
  simp only [hskew]
  rw [run_seq_cons, run_seq_cons, run_seq_nil]

end

/-! ### The six rows -/

section
variable {n : EvtId} {s : State} (hl : s.dev.live = true)
include hl

theorem evtArm_completes {who : Writer} (h : who = .firmware ∨ 48 ≤ n.val) : Completes (.evtArm n who) s fun t => KeepsMem s.dev t ∧
    t.evtm n = s.dev.evtArmed n ∧ t.flag (F.EVT_CTRL_arm n) = true ∧ t.fld (F.EVT_STATUS_state n) = 1 ∧
    KeepsRegs s.dev t fun r => r = R.EVT_CTRL n ∨ r = R.EVT_STATUS n := by
  obtain ⟨hm, ha, hst⟩ := evtArm_spec (n := n) s.dev
  have hw := evtArm_writes n
  refine completes_of_live rfl hl ?_
  rw [run_read, evtOwned_own h, settle_evtm, settle_flag, settle_fld]
  exact ⟨keepsMem_settle (hw.memFree.run_mem _), hm, ha, hst, keepsRegs_settle (hw.keepsRegs _)⟩

theorem evtDisarm_completes {who : Writer} (h : who = .firmware ∨ 48 ≤ n.val) :
    Completes (.evtDisarm n who) s fun t => KeepsMem s.dev t ∧ t.flag (F.EVT_CTRL_arm n) = false ∧
      t.fld (F.EVT_STATUS_state n) = (if s.dev.fld (F.EVT_STATUS_state n) = 1 then 0 else s.dev.fld (F.EVT_STATUS_state n)) ∧
      KeepsRegs s.dev t fun r => r = R.EVT_CTRL n ∨ r = R.EVT_STATUS n := by
  obtain ⟨ha, hst⟩ := evtDisarm_spec (n := n) s.dev
  have hw := evtDisarm_writes n
  refine completes_of_live rfl hl ?_
  rw [run_read, evtOwned_own h, settle_flag, settle_fld]
  exact ⟨keepsMem_settle (hw.memFree.run_mem _), ha, hst, keepsRegs_settle (hw.keepsRegs _)⟩

/-- The host's write of one of firmware's timers is logged, and has no other effect (R66). -/
theorem evtRefused_completes (h : n.val < 48) {c : Instr} (hc : c ∈ [Instr.evtArm n .host, .evtDisarm n .host]) :
    Completes c s fun t => t.flag F.GLB_ALARM_access_fault = true ∧ t.evtm n = s.dev.evtm n ∧
      t.reg (R.EVT_CTRL n) = s.dev.reg (R.EVT_CTRL n) ∧ t.reg (R.EVT_STATUS n) = s.dev.reg (R.EVT_STATUS n) := by
  have refused : ∀ (data : Dev → Nat) (p : Prog), exec c s = perform .core (.read fun d => evtOwned n .host (data d) p) s →
      Completes c s fun t => t.flag F.GLB_ALARM_access_fault = true ∧ t.evtm n = s.dev.evtm n ∧
        t.reg (R.EVT_CTRL n) = s.dev.reg (R.EVT_CTRL n) ∧ t.reg (R.EVT_STATUS n) = s.dev.reg (R.EVT_STATUS n) := by
    intro data p he
    refine completes_of_live he hl ?_
    rw [run_read, evtOwned, if_pos ⟨h, rfl⟩, settle_flag, settle_evtm, settle_reg, settle_reg]
    refine ⟨aflPush_flag .., ?_, aflPush_reg_other _ _ _ _ _ _ _ (by simp) (by simp) (by simp),
      aflPush_reg_other _ _ _ _ _ _ _ (by simp) (by simp) (by simp)⟩
    rw [Dev.evtm, (aflPush_time _ _ _ _ _ _).time, Dev.evtm]
  simp only [List.mem_cons, List.not_mem_nil, or_false] at hc
  rcases hc with rfl | rfl
  · exact refused (fun d => putBits (d.rd (R.EVT_CTRL n)) 0 1 1) (evtArm n) rfl
  · exact refused (fun d => putBits (d.rd (R.EVT_CTRL n)) 0 2 2) (evtDisarm n) rfl

theorem evtFire_completes (hst : s.dev.fld (F.EVT_STATUS_state n) = 1) (hdue : (s.dev.evtm n).due ≤ s.dev.scale (s.dev.evtm n).scale) :
    Completes (.evtFire n) s fun t => KeepsMem s.dev t ∧ t.flag (F.EVT_CTRL_arm n) = false ∧
      t.fld (F.EVT_STATUS_state n) = (if (s.dev.evtm n).late then 3 else 2) ∧ t.flag (F.EVT_STATUS_stepped n) = false ∧
      ((s.dev.evtm n).action = 1 → t.flag F.TIME_IRQ_STATUS_evt_fired = true) := by
  have hg : (s.dev.fld (F.EVT_STATUS_state n) == 1 && decide ((s.dev.evtm n).due ≤ s.dev.scale (s.dev.evtm n).scale)) = true := by
    simp [hst, hdue]
  obtain ⟨ha, hs, hp, hi⟩ := evtFire_spec (n := n) s.dev
  refine completes_of_live rfl hl ?_
  rw [run_doWhen, if_pos hg, settle_flag, settle_fld, settle_flag, settle_flag]
  exact ⟨keepsMem_settle ((evtFire_writes n false).memFree.run_mem _), ha, hs, hp, hi⟩

theorem pulseOutputEdge_pps_completes (h : s.dev.flag F.PPS_OUT_CTRL_enable = true) (h0 : 0 ∉ s.dev.x.time.pulseRealign) :
    Completes (.pulseOutputEdge .pps) s fun t => t.regs = s.dev.regs ∧ t.mem = s.dev.mem ∧
      Output.pulse .pps (nextInstant secU (KV.get 0 s.dev.x.time.pulseSkew 0) (s.dev.scale (s.dev.fld F.PPS_OUT_CTRL_scale)))
        (s.dev.fld F.PPS_OUT_CTRL_width) (!s.dev.flag F.PPS_OUT_CTRL_polarity) ∈ t.x.out := by
  obtain ⟨u, hrun⟩ := pulseEdge_pps_run h h0
  refine completes_of_live rfl hl ?_
  rw [hrun, settle_regs, settle_mem]
  refine ⟨rfl, rfl, ?_⟩
  obtain ⟨l, hl'⟩ := settle_out_append (d := (timeUpd u).run s.dev) (e := (emit _).run ((timeUpd u).run s.dev)) rfl
  rw [hl']
  simp

end

/-- Settles O20: each row by its own lemma. -/
theorem eventTimersArmFireAndDisarm : Obligations.EventTimersArmFireAndDisarm := fun _ hl =>
  ⟨fun _ _ h => ⟨evtArm_completes hl h, evtDisarm_completes hl h⟩, fun _ h _ hc => evtRefused_completes hl h hc,
    fun _ => evtFire_completes hl, pulseOutputEdge_pps_completes hl⟩

end Sys2Proof.Machine
end

section
/-!
PROOFS. Launches, drops and the PTP messages of a port: R337, R338, R341, R343, R344.
-/

namespace Sys2Proof.Machine

/-! ### What a port's scripts leave -/

@[simp] theorem settle_mac (d : Dev) : (settle.run d).x.mac = d.x.mac := by
  obtain ⟨-, -, hx⟩ := settle_same d
  rw [hx]

@[simp] theorem settle_tsq (d : Dev) : (settle.run d).x.tsq = d.x.tsq := by
  obtain ⟨-, -, hx⟩ := settle_same d
  rw [hx]

@[simp] theorem settle_macm (d : Dev) (m : Nat) : (settle.run d).macm m = d.macm m := by simp [Dev.macm]

theorem macFn_val (m : MacId) : macFn m = .mac m := by simp [macFn]

/-- What the MACs hold, the outputs, the reports, and the time state. -/
def portView (x : Ext) : KV MacMem × List Output × TsQueue × TimeState := (x.mac, x.out, x.tsq, x.time)

@[simp] theorem raise_portView (f : Field) : (raise f).Fixes portView := fixes_raise f fun _ _ _ _ _ _ => rfl

section
variable {p : Prog} (h : p.Fixes portView) (d : Dev)
include h

theorem Prog.Fixes.port_mac : (p.run d).x.mac = d.x.mac := congrArg Prod.fst (h.proj d)
theorem Prog.Fixes.port_macm (m : Nat) : (p.run d).macm m = d.macm m := by rw [Dev.macm, h.port_mac, Dev.macm]
theorem Prog.Fixes.port_out : (p.run d).x.out = d.x.out := congrArg (·.2.1) (h.proj d)
theorem Prog.Fixes.port_tsq : (p.run d).x.tsq = d.x.tsq := congrArg (·.2.2.1) (h.proj d)
theorem Prog.Fixes.port_time : (p.run d).x.time = d.x.time := congrArg (·.2.2.2) (h.proj d)

end

/-! ### Late frames (R338) -/

/-- The registers that count and report drops. -/
def lateWord (m : Nat) (r : Reg) : Prop :=
  r = R.MAC_CNT_TX_LATE m ∨ r = R.MAC_ALARM m ∨ r.kind = .FLOW_TX_CNT_LATE ∨ r.kind = .FLOW_TX_ALARM

/-- What a drop counts of its context. -/
def lateFlow (f : TxFrame) : Prog :=
  match f.body with
  | .media q _ _ _ => seq [inc (R.FLOW_TX_CNT_LATE q), raise (F.FLOW_TX_ALARM_late q)]
  | .ptp _ _ => .nop

theorem lateCount_run (m : Nat) (f : TxFrame) (d : Dev) :
    (lateCount m f).run d = (lateFlow f).run ((raise (F.MAC_ALARM_tx_late m)).run ((inc (R.MAC_CNT_TX_LATE m)).run d)) := rfl

theorem lateFlow_writes (f : TxFrame) : (lateFlow f).Writes fun r => r.kind = .FLOW_TX_CNT_LATE ∨ r.kind = .FLOW_TX_ALARM := by
  have hq : ∀ q, (raise (F.FLOW_TX_ALARM_late q)).Writes fun r => r.kind = .FLOW_TX_CNT_LATE ∨ r.kind = .FLOW_TX_ALARM :=
    fun q => writes_raise (.inr rfl)
  unfold lateFlow
  split
  · simp [hq]
  · exact acts_nop

theorem lateCount_writes (m : Nat) (f : TxFrame) : (lateCount m f).Writes (lateWord m) := by
  have hm : (raise (F.MAC_ALARM_tx_late m)).Writes (lateWord m) := writes_raise (.inr (.inl rfl))
  have hf : (lateFlow f).Writes (lateWord m) := (lateFlow_writes f).widen fun _ h => .inr (.inr h)
  exact (acts_seq_cons _ _).2 ⟨(writes_inc _).2 (.inl rfl), (acts_seq_cons _ _).2 ⟨hm, (acts_seq_cons _ _).2 ⟨hf, acts_seq_nil⟩⟩⟩

theorem lateCount_fixes (m : Nat) (f : TxFrame) : (lateCount m f).Fixes portView := by
  simp only [lateCount, acts_seq_cons, acts_seq_nil, fixes_inc, raise_portView, true_and, and_true]
  split <;> simp

/-- Each drop is counted. -/
theorem lateCount_rd (m : MacId) (f : TxFrame) (d : Dev) :
    ((lateCount m f).run d).rd (R.MAC_CNT_TX_LATE m) = min (d.rd (R.MAC_CNT_TX_LATE m) + 1) 0xFFFFFFFF := by
  rw [lateCount_run, Dev.rd, (lateFlow_writes f).keepsRegs _ _ (by simp), raise_reg_other _ (by simp), ← Dev.rd,
    inc_rd_self _ (Reg.valid_indexed rfl m.isLt) rfl rfl]

theorem each_lateCount_rd (m : MacId) (l : List TxFrame) (d : Dev) :
    ((each l (lateCount m)).run d).rd (R.MAC_CNT_TX_LATE m) = min (d.rd (R.MAC_CNT_TX_LATE m) + l.length) 0xFFFFFFFF := by
  induction l generalizing d with
  | nil =>
    have h : d.rd (R.MAC_CNT_TX_LATE m) < 2 ^ 32 := (d.reg _).isLt
    rw [each, List.map_nil, run_seq_nil, List.length_nil]
    omega
  | cons f l ih =>
    rw [run_each_cons, ih, lateCount_rd, List.length_cons]
    omega

theorem each_lateCount_writes (m : Nat) (l : List TxFrame) : (each l (lateCount m)).Writes (lateWord m) := by
  simp [lateCount_writes]

theorem each_lateCount_fixes (m : Nat) (l : List TxFrame) : (each l (lateCount m)).Fixes portView := by
  simp [lateCount_fixes]

/-- The queue without its late frames. -/
def lateOut (m : Nat) (d : Dev) : Prog := macUpd m fun k => { k with queue := k.queue.filter fun f => !d.frameLate m f }

theorem txLate_run (m : Nat) (d : Dev) : (txLate m).run d =
    (each ((d.macm m).queue.filter (d.frameLate m)) (lateCount m)).run ((lateOut m d).run d) := by
  rw [txLate, run_read, run_seq_cons, run_seq_cons, run_seq_nil, lateOut]

theorem txLate_writes (m : Nat) : (txLate m).Writes (lateWord m) := by
  simp [txLate, macUpd, lateCount_writes]

theorem txLate_macm (m : Nat) (d : Dev) : ((txLate m).run d).macm m =
    { d.macm m with queue := (d.macm m).queue.filter fun f => !d.frameLate m f } := by
  rw [txLate_run, (each_lateCount_fixes m _).port_macm, lateOut, macUpd_self]

theorem txLate_out (m : Nat) (d : Dev) : ((txLate m).run d).x.out = d.x.out := by
  rw [txLate_run, (each_lateCount_fixes m _).port_out]
  rfl

theorem txLateDrop_completes {m : MacId} {s : State} (hl : s.dev.live = true) (hon : s.dev.fst (.mac m) = .on) :
    Completes (.txLateDrop m) s fun t => (t.macm m).queue = (s.dev.macm m).queue.filter (fun h => !s.dev.frameLate m h) ∧
      t.rd (R.MAC_CNT_TX_LATE m) = min (s.dev.rd (R.MAC_CNT_TX_LATE m) +
        ((s.dev.macm m).queue.filter (s.dev.frameLate m)).length) 0xFFFFFFFF ∧
      KeepsRegs s.dev t (fun r => r.kind ∈ [RK.MAC_CNT_TX_LATE, .MAC_ALARM, .FLOW_TX_CNT_LATE, .FLOW_TX_ALARM]) ∧
      KeepsMem s.dev t := by
  have hg : s.dev.on (macFn m) = true := by simp [Dev.on, macFn_val, hon]
  have hw : (txLate m).Writes fun r => r.kind ∈ [RK.MAC_CNT_TX_LATE, .MAC_ALARM, .FLOW_TX_CNT_LATE, .FLOW_TX_ALARM] :=
    (txLate_writes m).widen fun r hr => by rcases hr with rfl | rfl | h | h <;> simp_all
  refine completes_of_live rfl hl ?_
  rw [run_doWhen, if_pos hg, settle_macm, settle_rd, txLate_macm]
  refine ⟨rfl, ?_, keepsRegs_settle (hw.keepsRegs _), keepsMem_settle (hw.memFree.run_mem _)⟩
  rw [txLate_run, each_lateCount_rd]
  rfl

/-! ### A frame that waits too long for its gate (R341) -/

theorem gateWaitDrop_completes {m : MacId} {s : State} (hl : s.dev.live = true) (hon : s.dev.fst (.mac m) = .on) {f : TxFrame}
    (hf : (s.dev.macm m).queue.find? (fun f => f.late.isNone && decide (f.slot + secU ≤ (s.dev.x.time.clk : Int))) = some f) :
    Completes (.gateWaitDrop m) s fun t => (t.macm m).queue = (s.dev.macm m).queue.erase f ∧ t.regs = s.dev.regs ∧
      KeepsMem s.dev t := by
  have hg : s.dev.on (macFn m) = true := by simp [Dev.on, macFn_val, hon]
  refine completes_of_live rfl hl ?_
  rw [run_doWhen, if_pos hg, settle_macm, settle_regs, gateDrop, run_read]
  simp only [hf]
  exact ⟨by rw [macUpd_self], rfl, keepsMem_settle rfl⟩

/-! ### PTP messages (R41, R43, R344) -/

/-- A PTP message's frame. -/
def ptpFrame (d : Dev) (m : Nat) (k : PtpTx) (one two : Bool) : TxFrame :=
  { body := .ptp k (if one then some 0 else none), tc := d.fld (F.MAC_TC_ptp m), slot := d.x.time.clk
    length := ptpLength k, tag := if two then some (d.rd R.MAC_TSQ_NEXT_TAG) else none }

theorem ptpSend_run {m : Nat} {d : Dev} (hon : d.on (macFn m) = true) (k : PtpTx) (h1 : 1 ≤ d.fld (F.PORT_PTP_CTRL_tb m))
    (h4 : d.fld (F.PORT_PTP_CTRL_tb m) ≤ 4) {one two : Bool}
    (ho : (d.flag (F.TB_CTRL_one_step (d.fld (F.PORT_PTP_CTRL_tb m) - 1)) && (k == .sync || k == .pdelayResp)) = one)
    (ht : (!one && decide (k ≠ .announce)) = two) : (ptpSend m k).run d =
      (doIf two (wr R.MAC_TSQ_NEXT_TAG ((d.rd R.MAC_TSQ_NEXT_TAG + 1) % 2 ^ 16))).run
        ((macUpd m fun q => { q with queue := q.queue ++ [ptpFrame d m k one two] }).run d) := by
  subst ht ho
  simp only [ptpSend, run_doWhen, hon, if_true, run_read, h1, h4, decide_true, Bool.true_and, run_seq_cons, run_seq_nil, ptpFrame,
    run_doIf]

theorem ptpMessageTx_completes {m : MacId} {s : State} (hl : s.dev.live = true) (hon : s.dev.fst (.mac m) = .on) (k : PtpTx)
    (h1 : 1 ≤ s.dev.fld (F.PORT_PTP_CTRL_tb m)) (h4 : s.dev.fld (F.PORT_PTP_CTRL_tb m) ≤ 4) :
    let one := s.dev.flag (F.TB_CTRL_one_step (s.dev.fld (F.PORT_PTP_CTRL_tb m) - 1)) && (k == .sync || k == .pdelayResp)
    let two := !one && k ≠ .announce
    Completes (.ptpMessageTx m k) s fun t =>
      (∃ f, (t.macm m).queue = (s.dev.macm m).queue ++ [f] ∧ f.body = .ptp k (if one then some 0 else none) ∧
        f.slot = (s.dev.x.time.clk : Int) ∧ f.tc = s.dev.fld (F.MAC_TC_ptp m) ∧
        f.tag = (if two then some (s.dev.rd R.MAC_TSQ_NEXT_TAG) else none)) ∧
      t.rd R.MAC_TSQ_NEXT_TAG = (if two then (s.dev.rd R.MAC_TSQ_NEXT_TAG + 1) % 2 ^ 16 else s.dev.rd R.MAC_TSQ_NEXT_TAG) ∧
      KeepsRegs s.dev t (fun r => r = R.MAC_TSQ_NEXT_TAG) ∧ KeepsMem s.dev t := by
  have hg : s.dev.on (macFn m) = true := by simp [Dev.on, macFn_val, hon]
  have htag : ∀ (b : Bool) (v : Nat), (doIf b (wr R.MAC_TSQ_NEXT_TAG v)).Writes fun r => r = R.MAC_TSQ_NEXT_TAG := by simp
  have hfix : ∀ (b : Bool) (v : Nat), (doIf b (wr R.MAC_TSQ_NEXT_TAG v)).Fixes portView := by simp
  intro one two
  refine completes_of_live (p := ptpSend m k) rfl hl ?_
  rw [ptpSend_run (one := one) (two := two) hg k h1 h4 rfl rfl, settle_macm, settle_rd, (hfix _ _).port_macm, macUpd_self]
  refine ⟨⟨_, rfl, rfl, rfl, rfl, rfl⟩, ?_, keepsRegs_settle ((htag _ _).keepsRegs _), keepsMem_settle ((htag _ _).memFree.run_mem _)⟩
  rw [run_doIf]
  split
  · rw [wr_rd_low (k := 16) _ _ (by decide) rfl rfl (by decide), Nat.mod_mod]
  · rfl

end Sys2Proof.Machine
end

section
/-!
PROOFS. A port launches its first eligible frame: R337, R341, R343.
-/

namespace Sys2Proof.Machine

/-! ### The order of launches (R337) -/

theorem TxFrame.before_iff (a b : TxFrame) : a.before b = true ↔ a.slot < b.slot ∨ a.slot = b.slot ∧
    (b.tc < a.tc ∨ a.tc = b.tc ∧ (a.place.1 < b.place.1 ∨ a.place.1 = b.place.1 ∧ a.place.2 < b.place.2)) := by
  unfold TxFrame.before
  split_ifs <;> simp only [decide_eq_true_eq] <;> omega

theorem TxFrame.before_asymm {a b : TxFrame} (h : a.before b = true) : b.before a = false := by
  rw [← Bool.not_eq_true, TxFrame.before_iff]
  rw [TxFrame.before_iff] at h
  omega

theorem TxFrame.not_before_trans {a b c : TxFrame} (h : a.before b = false) (g : b.before c = false) : a.before c = false := by
  rw [← Bool.not_eq_true, TxFrame.before_iff] at h g ⊢
  omega

/-- The first frame is one of the frames, and none goes before it. -/
theorem firstFrame_least : ∀ {l : List TxFrame}, l ≠ [] → ∃ f, firstFrame l = some f ∧ f ∈ l ∧ ∀ h ∈ l, h.before f = false
  | [f], _ => ⟨f, rfl, List.mem_singleton_self f, fun h hh => by
      rw [List.mem_singleton.1 hh, ← Bool.not_eq_true, TxFrame.before_iff]
      omega⟩
  | f :: a :: r, _ => by
    obtain ⟨g, hg, hm, hmin⟩ := firstFrame_least (l := a :: r) (by simp)
    rw [firstFrame, hg]
    by_cases hb : g.before f = true
    · refine ⟨g, by simp [hb], List.mem_cons_of_mem f hm, fun h hh => ?_⟩
      rcases List.mem_cons.1 hh with rfl | hh
      · exact TxFrame.before_asymm hb
      · exact hmin h hh
    · have hgf : g.before f = false := by simpa using hb
      refine ⟨f, by simp [hb], List.mem_cons_self, fun h hh => ?_⟩
      rcases List.mem_cons.1 hh with rfl | hh
      · rw [← Bool.not_eq_true, TxFrame.before_iff]
        omega
      · exact TxFrame.not_before_trans (hmin h hh) hgf

/-! ### What the choice of a frame depends on -/

/-- The registers, the time state, the outputs and what the port holds are the same. -/
def SamePort (m : Nat) (d e : Dev) : Prop :=
  e.regs = d.regs ∧ e.mem = d.mem ∧ e.x.time = d.x.time ∧ e.x.out = d.x.out ∧ e.macm m = d.macm m

section
variable {m : Nat} {d e : Dev}

theorem rd_of_regs (h : e.regs = d.regs) (r : Reg) : e.rd r = d.rd r := by rw [Dev.rd, Dev.reg, h, Dev.rd, Dev.reg]
theorem fld_of_regs (h : e.regs = d.regs) (f : Field) : e.fld f = d.fld f := by rw [Dev.fld, rd_of_regs h, Dev.fld]
theorem flag_of_regs (h : e.regs = d.regs) (f : Field) : e.flag f = d.flag f := by rw [Dev.flag, fld_of_regs h, Dev.flag]
theorem on_of_regs (h : e.regs = d.regs) (f : Fn) : e.on f = d.on f := by
  rw [Dev.on, Dev.fst, Dev.fw, rd_of_regs h, Dev.on, Dev.fst, Dev.fw]

theorem scale_of_same (hr : e.regs = d.regs) (ht : e.x.time = d.x.time) (n : Nat) : e.scale n = d.scale n := by
  have hb : ∀ k, e.tbm k = d.tbm k := fun k => by rw [Dev.tbm, ht, Dev.tbm]
  rw [Dev.scale, Dev.tbOwn, hb, fld_of_regs hr, ht, Dev.scale, Dev.tbOwn]

theorem SamePort.gateOpen (h : SamePort m d e) (f : TxFrame) : e.gateOpen m f = d.gateOpen m f := by
  obtain ⟨hr, -, ht, -, hm⟩ := h
  simp only [Dev.gateOpen, Dev.gateNow, Dev.gateScale, Dev.wireTime, flag_of_regs hr, fld_of_regs hr, scale_of_same hr ht, hm]
  rfl

theorem SamePort.macUp (h : SamePort m d e) : e.macUp m = d.macUp m := by
  obtain ⟨hr, -⟩ := h
  rw [Dev.macUp, on_of_regs hr, flag_of_regs hr, Dev.macUp]

theorem frameLate_congr (hu : e.macUp m = d.macUp m) (ht : e.x.time = d.x.time) : e.frameLate m = d.frameLate m := by
  funext f
  simp only [Dev.frameLate, hu, ht]

/-- Where no context is muted, nothing leaves the queue for it. -/
theorem txMuted_same (h : ∀ q, d.flowMuted q = false) : SamePort m d ((txMuted m).run d) := by
  refine ⟨rfl, rfl, rfl, rfl, ?_⟩
  rw [txMuted, run_read, macUpd_self]
  refine congrArg (fun l => { d.macm m with queue := l }) (List.filter_eq_self.2 fun f _ => ?_)
  split
  · simp [h]
  · rfl

end

/-! ### The frame goes out (R43, R343) -/

/-- The frames of a port that may start. -/
def Dev.portReady (d : Dev) (m : Nat) : List TxFrame :=
  (d.macm m).queue.filter fun f => decide (f.slot ≤ (d.x.time.clk : Int)) &&
    (match f.late with | some w => decide ((d.x.time.clk : Int) ≤ f.slot + w) | none => true) && d.gateOpen m f

/-- The frame as it leaves: one-step insertion writes its egress time (R43). -/
def Dev.txStamp (d : Dev) (m : Nat) (f : TxFrame) : TxFrame :=
  match f.body with
  | .ptp k (some _) =>
    { f with body := .ptp k (some ((d.scale (d.fld (F.PORT_PTP_CTRL_tb m)) + d.fld (F.PORT_TX_LAT m) * 189) / 189)) }
  | _ => f

/-- A frame's egress time. -/
def Dev.txEgress (d : Dev) (m : Nat) : Nat := d.x.time.ht + d.fld (F.PORT_TX_LAT m) * 189

theorem txStamp_body (d : Dev) (m : Nat) (f : TxFrame) : d.txStamp m f = f ∨ ∃ k e, (d.txStamp m f).body = .ptp k (some e) := by
  unfold Dev.txStamp
  split
  · exact .inr ⟨_, _, rfl⟩
  · exact .inl rfl

/-- A frame is on the wire and is emitted. -/
def txSend (m : Nat) (f g : TxFrame) (egress : Nat) (under : Bool) : Prog := seq [
  macUpd m fun k => { k with queue := k.queue.erase f, sending := some (g, egress) },
  emit (.ethFrame m g under (egress / 189)), doIf under (txUnderrun m g)]

/-- The first frame that may start goes out. -/
def txChoose (m : Nat) (under : Bool) : Prog :=
  .read fun d => match firstFrame (d.portReady m) with
    | none => .nop
    | some f => txSend m f (d.txStamp m f) (d.txEgress m) under

theorem txLaunch_eq (m : Nat) (under : Bool) : txLaunch m under = doWhen (fun d => d.on (macFn m)) (seq [
    txMuted m, doWhen (fun d => d.macUp m && (d.macm m).sending.isNone) (txChoose m under), txLate m]) := rfl

/-- A port that is up and free sends its first frame, and then drops the late ones. -/
theorem txLaunch_run {m : Nat} {d : Dev} {f : TxFrame} (under : Bool) (hon : d.on (macFn m) = true)
    (hup : d.flag (F.MAC_STATUS_link_up m) = true) (hfree : (d.macm m).sending = none) (hm : ∀ q, d.flowMuted q = false)
    (hf : firstFrame (d.portReady m) = some f) : (txLaunch m under).run d =
      (txLate m).run ((txSend m f (d.txStamp m f) (d.txEgress m) under).run ((txMuted m).run d)) := by
  have hsame := txMuted_same (m := m) hm
  have hgate := hsame.gateOpen
  have hmu := hsame.macUp
  obtain ⟨hr, -, ht, -, hmac⟩ := hsame
  have hu : d.macUp m = true := by rw [Dev.macUp, hon, hup]; rfl
  rw [txLaunch_eq, run_doWhen, if_pos hon, run_seq_cons, run_seq_cons, run_seq_cons, run_seq_nil]
  generalize (txMuted m).run d = e at *
  have hready : e.portReady m = d.portReady m := by simp only [Dev.portReady, hmac, ht, hgate]
  have hstamp : e.txStamp m f = d.txStamp m f := by simp only [Dev.txStamp, scale_of_same hr ht, fld_of_regs hr]
  have hegress : e.txEgress m = d.txEgress m := by simp only [Dev.txEgress, ht, fld_of_regs hr]
  rw [run_doWhen, if_pos (by rw [hmu, hu, hmac, hfree]; rfl), txChoose, run_read, hready, hf]
  simp only [hstamp, hegress]

/-! ### What an underrun reaches (R343) -/

/-- The registers of a frame that runs out of data. -/
def underWord (m : Nat) (r : Reg) : Prop :=
  r = R.MAC_CNT_TX_UNDERRUN m ∨ r = R.MAC_ALARM m ∨ r.kind = .FLOW_TX_ALARM ∨ r = R.MAC_TX_THRESH m

/-- The rest of an underrun, after its count. -/
def underRest (m : Nat) (f : TxFrame) (thresh : Nat) : Prog := seq [
  match f.body with | .media q _ _ _ => raise (F.FLOW_TX_ALARM_underrun q) | .ptp _ _ => .nop, wr (R.MAC_TX_THRESH m) thresh]

theorem txUnderrun_run (m : Nat) (f : TxFrame) (d : Dev) : ∃ v, (txUnderrun m f).run d =
    (underRest m f v).run ((raise (F.MAC_ALARM_tx_underrun m)).run ((inc (R.MAC_CNT_TX_UNDERRUN m)).run d)) := ⟨_, rfl⟩

theorem underRest_writes (m : Nat) (f : TxFrame) (v : Nat) :
    (underRest m f v).Writes fun r => r.kind = .FLOW_TX_ALARM ∨ r = R.MAC_TX_THRESH m := by
  have hq : ∀ q, (raise (F.FLOW_TX_ALARM_underrun q)).Writes fun r => r.kind = .FLOW_TX_ALARM ∨ r = R.MAC_TX_THRESH m :=
    fun q => writes_raise (.inl rfl)
  simp only [underRest, acts_seq_cons, acts_seq_nil, writes_wr, and_true]
  refine ⟨?_, by simp⟩
  split
  · exact hq _
  · exact acts_nop

theorem underRest_fixes (m : Nat) (f : TxFrame) (v : Nat) : (underRest m f v).Fixes portView := by
  simp only [underRest, acts_seq_cons, acts_seq_nil, fixes_wr, and_true]
  split <;> simp

theorem txUnderrun_writes (m : Nat) (f : TxFrame) : (txUnderrun m f).Writes (underWord m) := by
  have hm : (raise (F.MAC_ALARM_tx_underrun m)).Writes (underWord m) := writes_raise (.inr (.inl rfl))
  have hf : ∀ v, (underRest m f v).Writes (underWord m) := fun v => (underRest_writes m f v).widen fun _ h => .inr (.inr h)
  exact (acts_read _).2 fun d => (acts_seq_cons _ _).2 ⟨(writes_inc _).2 (.inl rfl), (acts_seq_cons _ _).2 ⟨hm, hf _⟩⟩

theorem txUnderrun_fixes (m : Nat) (f : TxFrame) : (txUnderrun m f).Fixes portView :=
  (acts_read _).2 fun _ => (acts_seq_cons _ _).2 ⟨fixes_inc _, (acts_seq_cons _ _).2 ⟨raise_portView _, underRest_fixes m f _⟩⟩

/-- An underrun is counted and raised. -/
theorem txUnderrun_shows (m : MacId) (f : TxFrame) (d : Dev) : let e := (txUnderrun m f).run d
    e.flag (F.MAC_ALARM_tx_underrun m) = true ∧
      e.rd (R.MAC_CNT_TX_UNDERRUN m) = min (d.rd (R.MAC_CNT_TX_UNDERRUN m) + 1) 0xFFFFFFFF := by
  obtain ⟨v, hrun⟩ := txUnderrun_run m f d
  have hw := underRest_writes m f v
  dsimp only
  rw [hrun]
  refine ⟨?_, ?_⟩
  · rw [hw.flag (by simp)]
    exact raise_flag_self _ _ (Field.within_of_hasBits (Reg.valid_indexed rfl m.isLt) (show hasBits .MAC_ALARM 5 1 = true by decide)) rfl
  · rw [Dev.rd, hw.keepsRegs _ _ (by simp), raise_reg_other _ (by simp), ← Dev.rd, inc_rd_self _ (Reg.valid_indexed rfl m.isLt) rfl rfl]

/-- Drops leave the alarm of an underrun, and its count. -/
theorem txLate_keepsUnder (m : MacId) (d : Dev) : let e := (txLate m).run d
    (d.flag (F.MAC_ALARM_tx_underrun m) = true → e.flag (F.MAC_ALARM_tx_underrun m) = true) ∧
      e.rd (R.MAC_CNT_TX_UNDERRUN m) = d.rd (R.MAC_CNT_TX_UNDERRUN m) := by
  have hu : (F.MAC_ALARM_tx_underrun m).within = true :=
    Field.within_of_hasBits (Reg.valid_indexed rfl m.isLt) (show hasBits .MAC_ALARM 5 1 = true by decide)
  have hlt : (F.MAC_ALARM_tx_late m).within = true :=
    Field.within_of_hasBits (Reg.valid_indexed rfl m.isLt) (show hasBits .MAC_ALARM 6 1 = true by decide)
  have hk : ∀ f e, e.flag (F.MAC_ALARM_tx_underrun m) = true → ((lateCount m f).run e).flag (F.MAC_ALARM_tx_underrun m) = true := by
    intro f e he
    rw [lateCount_run, (lateFlow_writes f).flag (by simp)]
    refine raise_keepsFlag hu rfl hlt rfl _ ?_
    rw [Dev.flag, Dev.fld, Dev.rd, inc_reg_other _ (by simp), ← Dev.rd, ← Dev.fld, ← Dev.flag, he]
  refine ⟨fun h => ?_, ?_⟩
  · rw [txLate_run]
    exact each_keeps (fun e => e.flag (F.MAC_ALARM_tx_underrun m) = true) (lateCount m) hk _ _ h
  · rw [Dev.rd, (txLate_writes m).keepsRegs _ _ (by simp [lateWord]), Dev.rd]

/-! ### A launch -/

theorem txSend_writes (m : Nat) (f g : TxFrame) (egress : Nat) (under : Bool) : (txSend m f g egress under).Writes (underWord m) := by
  simp [txSend, macUpd, emit, txUnderrun_writes]

/-- What a frame that goes out leaves: the queue without it, the frame on the wire, one more output. -/
theorem txSend_spec (m : MacId) (f g : TxFrame) (egress : Nat) (under : Bool) (d : Dev) : let e := (txSend m f g egress under).run d
    e.macm m = { d.macm m with queue := (d.macm m).queue.erase f, sending := some (g, egress) } ∧
      e.x.out = d.x.out ++ [.ethFrame m g under (egress / 189)] ∧ e.x.time = d.x.time ∧
      (under = true → e.flag (F.MAC_ALARM_tx_underrun m) = true ∧
        e.rd (R.MAC_CNT_TX_UNDERRUN m) = min (d.rd (R.MAC_CNT_TX_UNDERRUN m) + 1) 0xFFFFFFFF) := by
  have hx : (doIf under (txUnderrun m g)).Fixes portView := by simp [txUnderrun_fixes]
  simp only [txSend]
  rw [run_seq_cons, run_seq_cons, run_seq_cons, run_seq_nil, hx.port_macm, hx.port_out, hx.port_time]
  have hemit : ∀ o e, ((emit o).run e).macm m = e.macm m := fun _ _ => rfl
  refine ⟨by rw [hemit, macUpd_self], rfl, rfl, ?_⟩
  rintro rfl
  exact txUnderrun_shows m g _

theorem macUp_of_writes {m : MacId} {p : Prog} (h : p.Writes (underWord m)) (d : Dev) : (p.run d).macUp m = d.macUp m := by
  have hf : (p.run d).rd (fnReg (macFn m)) = d.rd (fnReg (macFn m)) := by
    rw [Dev.rd, h.keepsRegs _ _ (by simp [underWord, fnReg, macFn_val]), Dev.rd]
  rw [Dev.macUp, Dev.on, Dev.fst, Dev.fw, hf, h.flag (by simp [underWord]), Dev.macUp, Dev.on, Dev.fst, Dev.fw]

theorem txLaunchSlot_completes {m : MacId} {s : State} (hl : s.dev.live = true) (hon : s.dev.fst (.mac m) = .on) (under : Bool)
    (hup : s.dev.flag (F.MAC_STATUS_link_up m) = true) (hfree : (s.dev.macm m).sending = none)
    (hm : ∀ q, s.dev.flowMuted q = false) (hready : s.dev.portReady m ≠ []) : Completes (.txLaunchSlot m under) s fun t =>
      ∃ f g o, let egress := s.dev.x.time.ht + s.dev.fld (F.PORT_TX_LAT m) * 189
        f ∈ s.dev.portReady m ∧ (∀ h ∈ s.dev.portReady m, h.before f = false) ∧ (t.macm m).sending = some (g, egress) ∧
        (g = f ∨ ∃ k e, g.body = .ptp k (some e)) ∧ t.x.out = s.dev.x.out ++ .ethFrame m g under (egress / 189) :: o ∧
        (t.macm m).queue = ((s.dev.macm m).queue.erase f).filter (fun h => !s.dev.frameLate m h) ∧
        (under = true → t.flag (F.MAC_ALARM_tx_underrun m) = true ∧
          t.rd (R.MAC_CNT_TX_UNDERRUN m) = min (s.dev.rd (R.MAC_CNT_TX_UNDERRUN m) + 1) 0xFFFFFFFF) ∧ KeepsMem s.dev t := by
  have hg : s.dev.on (macFn m) = true := by simp [Dev.on, macFn_val, hon]
  obtain ⟨f, hf, hmem, hmin⟩ := firstFrame_least hready
  obtain ⟨hr1, hm1, ht1, ho1, hmac1⟩ := txMuted_same (m := m) hm
  have hup1 := (txMuted_same (m := m) hm).macUp
  have hrun := txLaunch_run under hg hup hfree hm hf
  generalize (txMuted m).run s.dev = d1 at *
  obtain ⟨hmac2, hout2, ht2, hu2⟩ := txSend_spec m f (s.dev.txStamp m f) (s.dev.txEgress m) under d1
  have hw2 := txSend_writes m f (s.dev.txStamp m f) (s.dev.txEgress m) under
  have hmem2 := hw2.memFree.run_mem d1
  have hup2 := macUp_of_writes hw2 d1
  generalize (txSend m f (s.dev.txStamp m f) (s.dev.txEgress m) under).run d1 = d2 at *
  obtain ⟨hflag3, hcnt3⟩ := txLate_keepsUnder m d2
  have hlate : d2.frameLate m = s.dev.frameLate m := frameLate_congr (hup2.trans hup1) (ht2.trans ht1)
  obtain ⟨l, hl'⟩ := settle_out ((txLate m).run d2)
  refine completes_of_live rfl hl ⟨f, s.dev.txStamp m f, l, hmem, hmin, ?_, txStamp_body _ _ _, ?_, ?_, fun hu => ?_, ?_⟩
  · rw [hrun, settle_macm, txLate_macm, hmac2]
    rfl
  · rw [hrun, hl', txLate_out, hout2, ho1, List.append_assoc]
    rfl
  · rw [hrun, settle_macm, txLate_macm, hmac2, hmac1, hlate]
  · obtain ⟨hf2, hc2⟩ := hu2 hu
    rw [hrun, settle_flag, settle_rd]
    exact ⟨hflag3 hf2, by rw [hcnt3, hc2, rd_of_regs hr1]⟩
  · rw [hrun]
    exact keepsMem_settle (((txLate_writes m).memFree.run_mem _).trans (hmem2.trans hm1))

end Sys2Proof.Machine
end

section
/-!
PROOFS. Departures and gate lists of a port: R337, R340, R342, R344.
-/

namespace Sys2Proof.Machine

/-! ### A departure (R337, R344) -/

theorem tsqSync_writes : tsqSync.Writes fun r => r.kind ∈ [RK.MAC_TSQ_STATUS, .MAC_TSQ_E] := by simp [tsqSync]

theorem tsqSync_fixes {α : Type} (π : Ext → α) : tsqSync.Fixes π := by simp [tsqSync]

theorem tsqPush_writes (port tag sixteenth : Nat) :
    (tsqPush port tag sixteenth).Writes fun r => r.kind ∈ [RK.MAC_TSQ_STATUS, .MAC_TSQ_E, .MAC_CNT_TSQ_DROP] := by
  have hs : tsqSync.Writes fun r => r.kind ∈ [RK.MAC_TSQ_STATUS, .MAC_TSQ_E, .MAC_CNT_TSQ_DROP] :=
    tsqSync_writes.widen fun r h => by simp only [List.mem_cons] at h ⊢; tauto
  simp only [tsqPush, acts_read, acts_ite, acts_seq_cons, acts_seq_nil, hs, and_true]
  exact fun d => ⟨fun _ => ⟨trivial, by simp⟩, fun _ => trivial⟩

theorem tsqPush_mac (port tag sixteenth : Nat) : (tsqPush port tag sixteenth).Fixes fun x => x.mac := by
  simp only [tsqPush, acts_read, acts_ite, acts_seq_cons, acts_seq_nil, tsqSync_fixes, fixes_inc, and_true]
  exact fun d => ⟨fun _ _ => rfl, fun _ _ => rfl⟩

/-- A report takes the next entry of a queue that has room. -/
theorem tsqPush_entries {d : Dev} (h : d.x.tsq.entries.length < 512) (port tag sixteenth : Nat) :
    ∃ r, ((tsqPush port tag sixteenth).run d).x.tsq.entries = d.x.tsq.entries ++ [(port * 2 ^ 16 + tag) :: r] := by
  refine ⟨[sixteenth / 16 % 1000000000, sixteenth / 16 / 1000000000 % 2 ^ 32,
    sixteenth % 16 * 2 ^ 28 + sixteenth / 16 / 1000000000 / 2 ^ 32 % 2 ^ 16], ?_⟩
  rw [tsqPush, run_read]
  simp only [if_neg (Nat.not_le.2 h), run_seq_cons, run_seq_nil]
  exact congrArg TsQueue.entries ((tsqSync_fixes fun x => x.tsq).proj _)

/-- What a departure reports. -/
def txReport (m : Nat) (f : TxFrame) (egress : Nat) : Prog :=
  match f.tag with
  | some t => tsqPush m t (egress / 189)
  | none => .nop

theorem txComplete_run {m : Nat} {d : Dev} {f : TxFrame} {egress : Nat} (h : (d.macm m).sending = some (f, egress)) :
    (txComplete m).run d = (txReport m f egress).run ((inc (R.MAC_CNT_TX_FRAMES m)).run
      ((macUpd m fun k => { k with sending := none }).run d)) := by
  rw [txComplete, run_read]
  simp only [h]
  rw [run_seq_cons, run_seq_cons, run_seq_cons, run_seq_nil]
  rfl

theorem txReport_writes (m : Nat) (f : TxFrame) (egress : Nat) :
    (txReport m f egress).Writes fun r => r.kind ∈ [RK.MAC_TSQ_STATUS, .MAC_TSQ_E, .MAC_CNT_TSQ_DROP] := by
  unfold txReport
  split
  · exact tsqPush_writes _ _ _
  · exact acts_nop

theorem txReport_mac (m : Nat) (f : TxFrame) (egress : Nat) : (txReport m f egress).Fixes fun x => x.mac := by
  unfold txReport
  split
  · exact tsqPush_mac _ _ _
  · exact acts_nop

theorem macTxComplete_completes {m : MacId} {s : State} (hl : s.dev.live = true) {f : TxFrame} {e : Nat}
    (h : (s.dev.macm m).sending = some (f, e)) : Completes (.macTxComplete m) s fun t => (t.macm m).sending = none ∧
      t.rd (R.MAC_CNT_TX_FRAMES m) = min (s.dev.rd (R.MAC_CNT_TX_FRAMES m) + 1) 0xFFFFFFFF ∧
      (f.tag = none → t.x.tsq = s.dev.x.tsq) ∧
      (∀ tag, f.tag = some tag → s.dev.x.tsq.entries.length < 512 → ∃ r,
        t.x.tsq.entries = s.dev.x.tsq.entries ++ [(m * 2 ^ 16 + tag) :: r]) ∧ KeepsMem s.dev t := by
  have hw := txReport_writes m f e
  have hinc : (inc (R.MAC_CNT_TX_FRAMES m)).Fixes id := fixes_inc _
  refine completes_of_live rfl hl ?_
  rw [txComplete_run h, settle_macm, settle_rd, settle_tsq]
  refine ⟨?_, ?_, fun ht => ?_, fun tag ht hlen => ?_, keepsMem_settle ?_⟩
  · rw [Dev.macm, (txReport_mac m f e).proj, inc_x, ← Dev.macm, macUpd_self]
  · rw [Dev.rd, hw.keepsRegs _ _ (by simp), ← Dev.rd, inc_rd_self _ (Reg.valid_indexed rfl m.isLt) rfl rfl, macUpd_rd]
  · rw [txReport, ht, run_nop, inc_x]
    rfl
  · rw [txReport, ht]
    have hx : ((inc (R.MAC_CNT_TX_FRAMES m)).run ((macUpd m fun k => { k with sending := none }).run s.dev)).x.tsq = s.dev.x.tsq := by
      rw [inc_x]
      rfl
    obtain ⟨r, hr⟩ := tsqPush_entries (d := (inc (R.MAC_CNT_TX_FRAMES m)).run ((macUpd m fun k => { k with sending := none }).run s.dev))
      (by rwa [hx]) m tag (e / 189)
    exact ⟨r, by rw [hr, hx]⟩
  · rw [hw.memFree.run_mem, inc_mem, macUpd_mem]

/-- Logging a refused access leaves what the ports hold. -/
theorem aflPush_port (master : Nat) (kind : AflKind) (be c off data : Nat) : (aflPush master kind be c off data).Fixes portView := by
  simp only [aflPush, acts_seq_cons, acts_read, acts_ite, acts_seq_nil, raise_portView, true_and, and_true, fixes_inc, implies_true]
  exact fun d _ _ => rfl

/-! ### A gate list is armed (R342, R349) -/

section
variable {m : MacId} {s : State} (hl : s.dev.live = true)
include hl

theorem macGateApply_firmware_completes : Completes (.macGateApply m .firmware) s fun t =>
    t.flag (F.MAC_GATE_STATUS_pending m) = true ∧
    (∃ b, (t.macm m).pend = some b ∧ b.cycle = s.dev.rd (R.MAC_GATE_CYCLE m) * nsU ∧
      b.entries.length = clampN 1 256 (s.dev.fld (F.MAC_GATE_CTRL_len m)) ∧
      ∀ i < b.entries.length, b.entries[i]? = some (s.dev.rd (R.MAC_GCL_ADMIN m i))) ∧
    (t.macm m).gate = (s.dev.macm m).gate ∧ KeepsRegs s.dev t (fun r => r = R.MAC_GATE_STATUS m) ∧ KeepsMem s.dev t := by
  have hset : (setF (F.MAC_GATE_STATUS_pending m) 1).Writes fun r => r = R.MAC_GATE_STATUS m := by simp
  have hmac : ∀ e, ((setF (F.MAC_GATE_STATUS_pending m) 1).run e).macm m = e.macm m := fun e => by rw [Dev.macm, setF_x, Dev.macm]
  refine completes_of_live rfl hl ?_
  rw [gateApply, run_read, run_seq_cons, run_seq_cons, run_seq_nil, settle_flag, settle_macm, hmac, macUpd_self]
  refine ⟨setB_flag_self (F.MAC_GATE_STATUS_pending m) true _ ?_ rfl, ⟨_, rfl, rfl, by simp, fun i hi => ?_⟩, rfl,
    keepsRegs_settle (hset.keepsRegs _), keepsMem_settle (hset.memFree.run_mem _)⟩
  · exact Field.within_of_hasBits (Reg.valid_indexed rfl m.isLt) (show hasBits .MAC_GATE_STATUS 31 1 = true by decide)
  · simp only [List.length_map, List.length_range] at hi
    simp [hi]

theorem macGateApply_host_completes : Completes (.macGateApply m .host) s fun t => t.x.mac = s.dev.x.mac ∧
    t.rd R.GLB_CNT_AFL = min (s.dev.rd R.GLB_CNT_AFL + 1) 0xFFFFFFFF ∧
    KeepsRegs s.dev t (fun r => r.kind ∈ [RK.GLB_CNT_AFL, .GLB_CNT_AFL_DROP, .GLB_ALARM]) ∧ KeepsMem s.dev t := by
  refine completes_of_live rfl hl ⟨?_, ?_, keepsRegs_settle fun r hr => ?_, keepsMem_settle (aflPush_mem ..)⟩
  · rw [settle_mac]
    exact (aflPush_port _ _ _ _ _ _).port_mac _
  · rw [settle_rd]
    exact aflPush_count ..
  · simp only [List.mem_cons, List.not_mem_nil, or_false, not_or] at hr
    obtain ⟨h1, h2, h3⟩ := hr
    exact aflPush_reg_other _ _ _ _ _ _ _ (by rintro rfl; simp at h1) (by rintro rfl; simp at h2) (by rintro rfl; simp at h3)

end

/-! ### The entry that runs (R340) -/

/-- The entries' spans start at or after the first instant, and none starts before an earlier one ends. -/
theorem gateSpans_ordered (cycle : Nat) (l : List Nat) (at_ : Nat) : (∀ e ∈ gateSpans cycle l at_, at_ ≤ e.1) ∧
    (gateSpans cycle l at_).Pairwise fun a b => a.2.1 ≤ b.1 := by
  induction l generalizing at_ with
  | nil => simp [gateSpans]
  | cons e r ih =>
    by_cases h : at_ < cycle
    · match r with
      | [] => simp [gateSpans, h]
      | f :: r =>
        obtain ⟨hfrom, hpair⟩ := ih (min cycle (at_ + bitsOf e 0 24 * nsU))
        simp only [gateSpans, h, if_true, List.mem_cons, List.pairwise_cons]
        refine ⟨?_, hfrom, hpair⟩
        rintro g (rfl | hg)
        · exact le_refl _
        · exact le_trans (by omega) (hfrom g hg)
    · match r with
      | [] => simp [gateSpans, h]
      | f :: r => simp [gateSpans, h]

/-- The span that holds an instant is the first that does. -/
theorem gateSpans_findIdx {cycle : Nat} {l : List Nat} {o i : Nat} {e : Nat × Nat × Nat} (he : (gateSpans cycle l 0)[i]? = some e)
    (h1 : e.1 ≤ o) (h2 : o < e.2.1) :
    (gateSpans cycle l 0).findIdx? (fun e => decide (e.1 ≤ o) && decide (o < e.2.1)) = some i := by
  obtain ⟨hi, hget⟩ := List.getElem?_eq_some_iff.1 he
  rw [List.findIdx?_eq_some_iff_getElem]
  refine ⟨hi, by simp [hget, h1, h2], fun j hj => ?_⟩
  have hord := List.pairwise_iff_getElem.1 (gateSpans_ordered cycle l 0).2 j i (hj.trans hi) hi hj
  rw [hget] at hord
  simp only [Bool.and_eq_true, decide_eq_true_eq, not_and, not_lt]
  omega

theorem gateEntry_writes (m : Nat) : (gateEntry m).Writes fun r => r = R.MAC_GATE_STATUS m := by
  simp only [gateEntry, acts_read]
  intro d
  split <;> simp

theorem gateEntry_fixes {α : Type} (π : Ext → α) (m : Nat) : (gateEntry m).Fixes π := by
  simp only [gateEntry, acts_read]
  intro d
  split <;> simp

/-- Showing the entry that runs leaves the fields beside it. -/
theorem gateEntry_keepsFld {g : Field} (hg : g.within = true) (hlo : 8 ≤ g.lo) (m : Nat) : (gateEntry m).KeepsFld g := by
  refine .read fun d => ?_
  split
  · exact keepsFld_nop
  · exact setF_keepsFld (f := F.MAC_GATE_STATUS_current m) hg (fun _ => .inr (by simpa using hlo)) _

section
variable {m : MacId}

theorem gateCurrent_within (m : MacId) : (F.MAC_GATE_STATUS_current m).within = true :=
  Field.within_of_hasBits (Reg.valid_indexed rfl m.isLt) (show hasBits .MAC_GATE_STATUS 0 8 = true by decide)
theorem gatePending_within (m : MacId) : (F.MAC_GATE_STATUS_pending m).within = true :=
  Field.within_of_hasBits (Reg.valid_indexed rfl m.isLt) (show hasBits .MAC_GATE_STATUS 31 1 = true by decide)
theorem gateOperLen_within (m : MacId) : (F.MAC_GATE_STATUS_oper_len m).within = true :=
  Field.within_of_hasBits (Reg.valid_indexed rfl m.isLt) (show hasBits .MAC_GATE_STATUS 16 9 = true by decide)

theorem gateEntryChange_completes {s : State} (hl : s.dev.live = true) {b : GateList} {i : Nat} {e : Nat × Nat × Nat}
    (hen : s.dev.flag (F.MAC_GATE_CTRL_enable m) = true) (hb : (s.dev.macm m).gate = some b)
    (he : (gateSpans b.cycle b.entries 0)[i]? = some e) (h1 : e.1 ≤ s.dev.gateNow m b) (h2 : s.dev.gateNow m b < e.2.1)
    (hi : i < 256) : Completes (.gateEntryChange m) s fun t => t.fld (F.MAC_GATE_STATUS_current m) = i ∧
      Keeps s.dev t fun r => r = R.MAC_GATE_STATUS m := by
  refine completes_of_live rfl hl ?_
  rw [run_doWhen, if_pos hen]
  refine ⟨?_, (gateEntry_writes m).keeps (gateEntry_fixes id m) _⟩
  rw [settle_fld, gateEntry, run_read]
  simp only [hb, gateSpans_findIdx he h1 h2, Option.getD_some]
  rw [setF_fld_self _ _ _ (gateCurrent_within m)]
  exact Nat.mod_eq_of_lt hi

/-! ### A gate list is installed (R342) -/

/-- The registers of the list in force hold its entries. -/
theorem gateOper_spec {l : List Nat} (hlen : l.length ≤ 256) {i e : Nat} (h : l[i]? = some e) (d : Dev) :
    ((each l.zipIdx fun e => wr (R.MAC_GCL_OPER m e.2) e.1).run d).reg (R.MAC_GCL_OPER m i) =
      (BitVec.ofNat 32 e &&& implMask (R.MAC_GCL_OPER m i)) := by
  obtain ⟨hi, -⟩ := List.getElem?_eq_some_iff.1 h
  refine each_reaches (P := fun t => t.reg (R.MAC_GCL_OPER m i) = (BitVec.ofNat 32 e &&& implMask (R.MAC_GCL_OPER m i)))
    (List.mk_mem_zipIdx_iff_getElem?.2 h) (fun t => ?_) (fun c hc hne t ht => ?_) d
  · exact wr_reg_self _ e t (Reg.valid_indexed2 rfl m.isLt (lt_of_lt_of_le hi hlen)) rfl
  · have hidx : i ≠ c.2 := by
      rintro rfl
      rw [List.mem_zipIdx_iff_getElem?, h, Option.some_inj] at hc
      exact hne (Prod.ext hc.symm rfl)
    refine (wr_reg_other _ _ ?_).trans ht
    simp [hidx]

/-- The status of a list that is put in force: its length, none waiting, and the entry that runs. -/
def gateShow (m n : Nat) : Prog :=
  seq [setF (F.MAC_GATE_STATUS_oper_len m) n, setF (F.MAC_GATE_STATUS_pending m) 0, gateEntry m]

theorem gateShow_writes (m n : Nat) : (gateShow m n).Writes fun r => r = R.MAC_GATE_STATUS m := by
  simp [gateShow, gateEntry_writes]

theorem gateShow_fixes {α : Type} (π : Ext → α) (m n : Nat) : (gateShow m n).Fixes π := by simp [gateShow, gateEntry_fixes]

theorem gateShow_spec {n : Nat} (hn : n ≤ 256) (d : Dev) : let e := (gateShow m n).run d
    e.flag (F.MAC_GATE_STATUS_pending m) = false ∧ e.fld (F.MAC_GATE_STATUS_oper_len m) = n := by
  have hpend := gateEntry_keepsFld (gatePending_within m) (by simp) m
  have hlen := gateEntry_keepsFld (gateOperLen_within m) (by simp) m
  have hapart : (setF (F.MAC_GATE_STATUS_pending m) 0).KeepsFld (F.MAC_GATE_STATUS_oper_len m) :=
    setF_keepsFld (gateOperLen_within m) (fun _ => .inl (by simp)) 0
  simp only [gateShow]
  rw [run_seq_cons, run_seq_cons, run_seq_cons, run_seq_nil]
  refine ⟨?_, ?_⟩
  · rw [hpend.flag]
    exact setB_flag_self (F.MAC_GATE_STATUS_pending m) false _ (gatePending_within m) rfl
  · rw [hlen, hapart, setF_fld_self _ _ _ (gateOperLen_within m)]
    exact Nat.mod_eq_of_lt (lt_of_le_of_lt hn (show 256 < 2 ^ 9 by decide))

theorem gateInstall_run {d : Dev} {b : GateList} (hb : (d.macm m).pend = some b) : (gateInstall m).run d =
    (gateShow m b.entries.length).run ((each b.entries.zipIdx fun e => wr (R.MAC_GCL_OPER m e.2) e.1).run
      ((macUpd m fun k => { k with gate := some b, pend := none }).run d)) := by
  rw [gateInstall, run_read]
  simp only [hb, run_seq_cons, run_seq_nil, gateShow]

theorem gateListInstall_completes {s : State} (hl : s.dev.live = true) {b : GateList} (hb : (s.dev.macm m).pend = some b)
    (hlen : b.entries.length ≤ 256) : Completes (.gateListInstall m) s fun t =>
      (t.macm m).gate = some b ∧ (t.macm m).pend = none ∧ t.flag (F.MAC_GATE_STATUS_pending m) = false ∧
      t.fld (F.MAC_GATE_STATUS_oper_len m) = b.entries.length ∧
      (∀ i e, b.entries[i]? = some e → t.reg (R.MAC_GCL_OPER m i) = (BitVec.ofNat 32 e &&& implMask (R.MAC_GCL_OPER m i))) ∧
      KeepsRegs s.dev t (fun r => r.kind ∈ [RK.MAC_GCL_OPER, .MAC_GATE_STATUS] ∧ r.i = m) ∧ KeepsMem s.dev t := by
  have hx : (each b.entries.zipIdx fun e => wr (R.MAC_GCL_OPER m e.2) e.1).Fixes fun x => x.mac := by simp
  have hw : (each b.entries.zipIdx fun e => wr (R.MAC_GCL_OPER m e.2) e.1).Writes
      fun r => r.kind ∈ [RK.MAC_GCL_OPER, .MAC_GATE_STATUS] ∧ r.i = m := by simp
  have hsw := gateShow_writes m b.entries.length
  have hsw' : (gateShow m b.entries.length).Writes fun r => r.kind ∈ [RK.MAC_GCL_OPER, .MAC_GATE_STATUS] ∧ r.i = m :=
    hsw.widen fun r hr => by simp [hr]
  obtain ⟨hpend, hoper⟩ := gateShow_spec (m := m) hlen ((each b.entries.zipIdx fun e => wr (R.MAC_GCL_OPER m e.2) e.1).run
      ((macUpd m fun k => { k with gate := some b, pend := none }).run s.dev))
  have hmac : ((gateInstall m).run s.dev).macm m = { s.dev.macm m with gate := some b, pend := none } := by
    rw [gateInstall_run hb, Dev.macm, (gateShow_fixes (fun x => x.mac) m _).proj, hx.proj, ← Dev.macm, macUpd_self]
  refine completes_of_live rfl hl ?_
  rw [settle_macm, hmac, settle_flag, settle_fld, gateInstall_run hb]
  refine ⟨rfl, rfl, hpend, hoper, fun i e he => ?_, keepsRegs_settle fun r hr => ?_, keepsMem_settle ?_⟩
  · rw [settle_reg, hsw.keepsRegs _ _ (by simp), gateOper_spec hlen he]
  · rw [hsw'.keepsRegs _ r hr, hw.keepsRegs _ r hr]
    rfl
  · rw [hsw.memFree.run_mem, hw.memFree.run_mem, macUpd_mem]

end

/-- Settles O50: each row by its own lemma. -/
theorem portsLaunchInOrderAndReportDepartures : Obligations.PortsLaunchInOrderAndReportDepartures := fun _ _ hl =>
  ⟨fun hon => ⟨fun under hup hfree hm hready => txLaunchSlot_completes hl hon under hup hfree hm hready,
      txLateDrop_completes hl hon, fun _ hf => gateWaitDrop_completes hl hon hf, ptpMessageTx_completes hl hon⟩,
    fun _ _ h => macTxComplete_completes hl h, macGateApply_firmware_completes hl, macGateApply_host_completes hl,
    fun _ hb hlen => gateListInstall_completes hl hb hlen,
    fun _ _ _ hen hb he h1 h2 hi => gateEntryChange_completes hl hen hb he h1 h2 hi⟩

end Sys2Proof.Machine
end

section
/-!
PROOFS. A command that is admitted and has its effect is answered: R405, R429, R433, R437, R440.
-/

namespace Sys2Proof.Machine

/-! ### The record of a new command -/

theorem le_foldl_max (l : List CmdRec) (n : Nat) : n ≤ l.foldl (fun n e => max n (e.id + 1)) n ∧
    ∀ e ∈ l, e.id < l.foldl (fun n e => max n (e.id + 1)) n := by
  induction l generalizing n with
  | nil => simp
  | cons a l ih =>
    obtain ⟨hle, hmem⟩ := ih (max n (a.id + 1))
    rw [List.foldl_cons]
    refine ⟨by omega, fun e he => ?_⟩
    rcases List.mem_cons.1 he with rfl | he
    · omega
    · exact hmem e he

/-- The number of the next command is above that of every command in progress. -/
theorem CtlState.lt_fresh {c : CtlState} {e : CmdRec} (h : e ∈ c.cmds) : e.id < c.fresh := (le_foldl_max c.cmds c.nextId).2 e h

/-- A record with a new number, appended, is the one found by it. -/
theorem find_appended {l : List CmdRec} {r : CmdRec} (h : ∀ e ∈ l, e.id < r.id) :
    (l ++ [r]).find? (fun c => c.id == r.id) = some r := by
  have hl : l.find? (fun c => c.id == r.id) = none :=
    List.find?_eq_none.2 fun e he => by simpa using (h e he).ne
  simp [List.find?_append, hl]

/-! ### What opening, committing and completing reach -/

/-- The registers of commands, memory and the time state. -/
structure CmdFrame (d e : Dev) : Prop where
  regs : KeepsRegs d e commandWord
  mem : e.mem = d.mem
  time : e.x.time = d.x.time

theorem CmdFrame.trans {a b c : Dev} (h : CmdFrame a b) (g : CmdFrame b c) : CmdFrame a c :=
  ⟨fun r hr => (g.regs r hr).trans (h.regs r hr), g.mem.trans h.mem, g.time.trans h.time⟩

theorem CmdFrame.settled (d : Dev) : CmdFrame d (settle.run d) :=
  ⟨fun r _ => settle_reg d r, settle_mem d, settle_time d⟩

theorem CmdFrame.of_writes {p : Prog} (hw : p.Writes commandWord) (hx : p.Fixes timeView) (d : Dev) : CmdFrame d (p.run d) :=
  ⟨hw.keepsRegs d, hw.memFree.run_mem d, hx.time d⟩

@[simp] theorem ctlUpd_timeView (f : CtlState → CtlState) : (ctlUpd f).Fixes timeView := by simp [ctlUpd, timeView]
@[simp] theorem ctlUpd_writes (f : CtlState → CtlState) (but : Reg → Prop) : (ctlUpd f).Writes but := trivial

theorem cmdStatus_writes : cmdStatus.Writes commandWord := by simp [cmdStatus, commandWord]
theorem cmdStatus_fixes {α : Type} (π : Ext → α) : cmdStatus.Fixes π := by simp [cmdStatus]

theorem cqWrite_writes (r : RingId) (slot : RingSlot) (c : Completion) : (cqWrite r slot c).Writes commandWord := by
  simp [cqWrite, dropCpl, ringUpd, emit, commandWord]
theorem cqWrite_fixes (r : RingId) (slot : RingSlot) (c : Completion) : (cqWrite r slot c).Fixes timeView := by
  simp [cqWrite, dropCpl, ringUpd, emit, timeView]

theorem sessSend_writes (s : SessId) (final : Bool) (c : Completion) : (sessSend s final c).Writes commandWord := by
  simp [sessSend, dropCpl, sessUpd, emit, commandWord]
theorem sessSend_fixes (s : SessId) (final : Bool) (c : Completion) : (sessSend s final c).Fixes timeView := by
  simp [sessSend, dropCpl, sessUpd, emit, timeView]

theorem deliver_frame (i : Intake) (final : Bool) (c : Completion) (d : Dev) : CmdFrame d ((deliver i final c).run d) := by
  cases i with
  | ring r slot => exact .of_writes (cqWrite_writes r slot c) (cqWrite_fixes r slot c) d
  | session s => exact .of_writes (sessSend_writes s final c) (sessSend_fixes s final c) d

/-! ### A completion leaves the device (R429, R433) -/

/-- A completion has been sent to where its message came from. -/
def SentTo (i : Intake) (c : Completion) (id : Nat → Nat) (out : List Output) : Prop :=
  match i with
  | .ring r _ => ∃ tail written phase trunc sq, Output.cq r tail c written phase trunc sq ∈ out
  | .session k => ∃ counter, Output.datagram (id k) counter c ∈ out

theorem SentTo.mono {i : Intake} {c : Completion} {id : Nat → Nat} {l m : List Output} (h : SentTo i c id l) (hm : ∀ o ∈ l, o ∈ m) :
    SentTo i c id m := by
  cases i with
  | ring r slot =>
    obtain ⟨tail, written, phase, trunc, sq, hmem⟩ := h
    exact ⟨tail, written, phase, trunc, sq, hm _ hmem⟩
  | session k =>
    obtain ⟨counter, hmem⟩ := h
    exact ⟨counter, hm _ hmem⟩

theorem emit_out (o : Output) (d : Dev) : ((emit o).run d).x.out = d.x.out ++ [o] := rfl
theorem ringUpd_out (r : Nat) (f : RingMem → RingMem) (d : Dev) : ((ringUpd r f).run d).x.out = d.x.out := rfl
theorem sessUpd_out (s : Nat) (f : SessMem → SessMem) (d : Dev) : ((sessUpd s f).run d).x.out = d.x.out := rfl

/-- An open intake's completion is sent. -/
theorem deliver_sends {i : Intake} {d : Dev} (h : d.intakeOpen i = true) (final : Bool) (c : Completion) :
    SentTo i c (fun k => d.rd (R.CMD_SESS_ID k)) ((deliver i final c).run d).x.out := by
  cases i with
  | ring r slot =>
    have hon : d.on (.ring r) = true := h
    simp only [SentTo, deliver, cqWrite, run_read, hon, Bool.true_or, Bool.not_true, Bool.false_eq_true, if_false, run_seq_cons,
      run_seq_nil, ringUpd_out, inc_x, setB_x, setF_x, emit_out]
    exact ⟨_, _, _, _, _, List.mem_append_right _ (List.mem_singleton_self _)⟩
  | session k =>
    have hopen : d.flag (F.CMD_SESS_STATE_open k) = true := h
    simp only [SentTo, deliver, sessSend, run_read, hopen, Bool.not_true, Bool.false_eq_true, if_false, run_seq_cons, run_seq_nil,
      sessUpd_out, emit_out]
    exact ⟨_, List.mem_append_right _ (List.mem_singleton_self _)⟩

/-- The outputs. -/
def outView (x : Ext) : List Output := x.out

@[simp] theorem ctlUpd_outView (f : CtlState → CtlState) : (ctlUpd f).Fixes outView := by simp [ctlUpd, outView]

/-- A final completion is delivered, and its command ends. -/
theorem finish_run {id : Nat} {rec : CmdRec} {h : Hdr} {d : Dev} (hf : d.x.ctl.cmds.find? (fun c => c.id == id) = some rec)
    (hh : rec.hdr = some h) (hlost : rec.lost = false) (flags : Nat) (body : List Nat) : ∃ rest : Prog,
    rest.Writes commandWord ∧ rest.Fixes timeView ∧ rest.Fixes outView ∧ (finish id flags body).run d =
      rest.run ((deliver h.intake true { opcode := rec.opcode, seq := rec.seq, status := statusWord .done 0, body := body
                                         flags := 1 + boolBit true * 2 + flags }).run d) := by
  rw [finish, sendCompletion, run_read]
  simp only [hf, hh, hlost]
  refine ⟨_, ?_, ?_, ?_, run_seq_cons _ _ _⟩
  · obtain ⟨i, q⟩ := h
    cases i <;> simp [ringUpd, cmdStatus_writes]
  · obtain ⟨i, q⟩ := h
    cases i <;> simp [ringUpd, cmdStatus_fixes]
  · obtain ⟨i, q⟩ := h
    cases i <;> simp [ringUpd, cmdStatus_fixes]

/-! ### A message is received and its command opened (R437) -/

/-- The record of a command that is opened. -/
def cmdOpened (d : Dev) (h : Hdr) (sp : CmdSpec) : CmdRec :=
  { id := d.x.ctl.fresh, hdr := some h, controller := d.actsFor h sp, seq := h.seq, opcode := sp.opcode
    state := .accepted, received := d.x.time.clk, reserved := 2 }

theorem countRx_writes (i : Intake) : (countRx i).Writes commandWord := by
  cases i <;> simp [countRx, commandWord]
theorem countRx_fixes {α : Type} (π : Ext → α) (i : Intake) : (countRx i).Fixes π := by
  cases i <;> simp [countRx]

theorem openCmd_writes (h : Hdr) (c op : Nat) : (openCmd h c op).Writes commandWord := by
  obtain ⟨i, q⟩ := h
  cases i <;> simp [openCmd, ringUpd, cmdStatus_writes]
theorem openCmd_fixes (h : Hdr) (c op : Nat) : (openCmd h c op).Fixes timeView := by
  obtain ⟨i, q⟩ := h
  cases i <;> simp [openCmd, ringUpd, cmdStatus_fixes]

theorem openCmd_cmds (h : Hdr) (c op : Nat) (d : Dev) : ((openCmd h c op).run d).x.ctl.cmds = d.x.ctl.cmds ++ [
    { id := d.x.ctl.fresh, hdr := some h, controller := c, seq := h.seq, opcode := op
      state := .accepted, received := d.x.time.clk, reserved := 2 }] := by
  have hs := cmdStatus_fixes fun x => x.ctl.cmds
  obtain ⟨i, q⟩ := h
  rw [openCmd, run_read, run_seq_cons, run_seq_cons, run_seq_cons, run_seq_nil, hs.proj]
  cases i <;> rfl

section
variable (d : Dev) (h : Hdr) (sp : CmdSpec)

theorem opened_run : d.opened h sp = (openCmd h (d.actsFor h sp) sp.opcode).run ((countRx h.intake).run d) := rfl

theorem opened_frame : CmdFrame d (d.opened h sp) :=
  (CmdFrame.of_writes (countRx_writes _) (countRx_fixes _ _) d).trans (.of_writes (openCmd_writes ..) (openCmd_fixes ..) _)

theorem opened_cmds : (d.opened h sp).x.ctl.cmds = d.x.ctl.cmds ++ [cmdOpened d h sp] := by
  have hx : ((countRx h.intake).run d).x = d.x := (countRx_fixes id _).proj d
  rw [opened_run, openCmd_cmds, hx, cmdOpened]

theorem opened_find : (d.opened h sp).x.ctl.cmds.find? (fun c => c.id == d.x.ctl.fresh) = some (cmdOpened d h sp) := by
  rw [opened_cmds]
  exact find_appended (r := cmdOpened d h sp) fun e he => CtlState.lt_fresh he

end

/-- Where a command's effect comes from. -/
def cmdOrig (d : Dev) (h : Hdr) (cmd : Cmd) (sp : CmdSpec) : Orig :=
  { id := d.x.ctl.fresh, controller := d.actsFor h sp, seq := h.seq, mirrored := false, cmd := cmd, instant := (d.opened h sp).x.time.ht }

/-- A command that is admitted has its effect on the device in which it is opened. -/
theorem rygus_run {d : Dev} {h : Hdr} {sp : CmdSpec} (ha : d.Admits h sp) (cmd : Cmd) :
    (rygus h cmd sp).run d = (sp.prog (cmdOrig d h cmd sp)).run (d.opened h sp) := by
  obtain ⟨-, hopen, hdup, hchk⟩ := ha
  rw [rygus, received, run_read]
  simp only [hopen, hdup, Bool.not_true, Bool.false_eq_true, if_false]
  rw [run_seq_cons, run_seq_cons, run_seq_nil, run_seq_cons, run_seq_cons, run_seq_nil, ← Dev.actsFor, ← opened_run, run_read]
  simp only [hchk, cmdOrig]

/-! ### A command is committed, has its effect and is answered (R105, R405, R440) -/

/-- A command is mirrored to the twin, and its latency noted. -/
def committed (o : Orig) : Prog := seq [mirrorCommit o, noteLatency o.id]

theorem committed_writes (o : Orig) : (committed o).Writes commandWord := by
  simp only [committed, mirrorCommit, noteLatency, emit, acts_seq_cons, acts_seq_nil, acts_read, acts_doIf, writes_wr, writes_ext,
    and_true]
  refine ⟨fun d _ => by simp [commandWord], fun d => ?_⟩
  split
  · simp [commandWord]
  · exact acts_nop

/-- What the control complex holds, and the time state. -/
def ctlTime (x : Ext) : CtlState × TimeState := (x.ctl, x.time)

theorem Prog.Fixes.ctlTime_ctl {p : Prog} (h : p.Fixes ctlTime) (d : Dev) : (p.run d).x.ctl = d.x.ctl := congrArg Prod.fst (h.proj d)
theorem Prog.Fixes.ctlTime_time {p : Prog} (h : p.Fixes ctlTime) (d : Dev) : (p.run d).x.time = d.x.time := congrArg Prod.snd (h.proj d)
theorem Prog.Fixes.out {p : Prog} (h : p.Fixes outView) (d : Dev) : (p.run d).x.out = d.x.out := h.proj d

theorem committed_fixes (o : Orig) : (committed o).Fixes ctlTime := by
  simp only [committed, mirrorCommit, noteLatency, emit, acts_seq_cons, acts_seq_nil, acts_read, acts_doIf, fixes_wr, and_true]
  refine ⟨fun d _ => ⟨trivial, fun _ => rfl⟩, fun d => ?_⟩
  split
  · simp
  · exact acts_nop

theorem committed_frame (o : Orig) (d : Dev) : CmdFrame d ((committed o).run d) :=
  ⟨(committed_writes o).keepsRegs d, (committed_writes o).memFree.run_mem d, (committed_fixes o).ctlTime_time d⟩

/-- A command of this unit that passes its chapter's checks is committed and has its effect. -/
theorem checked_run {o : Orig} {chk : Dev → Option Nat} {d : Dev} (hm : o.mirrored = false) (h : chk d = none) (p : Prog) :
    (checked o chk p).run d = p.run ((committed o).run d) := by
  rw [checked, run_read]
  simp only [hm, h, Bool.false_eq_true, if_false, run_seq_cons, run_seq_nil, committed]

/-- The registers that say where a completion goes. -/
def intakeWord (r : Reg) : Prop := r.kind ∈ [RK.CMD_RING_FSTATE, .CMD_SESS_STATE, .CMD_SESS_ID]

/-- The commands in progress, the rings and the sessions are as before. -/
structure KeepsIntake (d e : Dev) : Prop where
  ctl : e.x.ctl = d.x.ctl
  regs : ∀ r, intakeWord r → e.reg r = d.reg r

theorem KeepsIntake.open_eq {d e : Dev} (h : ∀ r, intakeWord r → e.reg r = d.reg r) (i : Intake) : e.intakeOpen i = d.intakeOpen i := by
  cases i with
  | ring r slot =>
    rw [Dev.intakeOpen, Dev.on, Dev.fst, Dev.fw, Dev.rd, h _ (by simp [intakeWord, fnReg]), Dev.intakeOpen, Dev.on, Dev.fst, Dev.fw, Dev.rd]
  | session k =>
    rw [Dev.intakeOpen, Dev.flag, Dev.fld, Dev.rd, h _ (by simp [intakeWord]), Dev.intakeOpen, Dev.flag, Dev.fld, Dev.rd]

theorem CmdFrame.intake {d e : Dev} (h : CmdFrame d e) : ∀ r, intakeWord r → e.reg r = d.reg r := fun r hr =>
  h.regs r fun hc => by
    simp only [intakeWord, commandWord, List.mem_cons, List.not_mem_nil, or_false] at hr hc
    rcases hr with hr | hr | hr <;> simp [hr] at hc

/-- An admitted command whose effect leaves the intakes is answered DONE, and its effect stands. -/
theorem admitted_completes {c : Instr} {s : State} {h : Hdr} {cmd : Cmd} {sp : CmdSpec} {body : Prog}
    (hc : exec c s = perform .core (rygus h cmd sp) s) (ha : s.dev.Admits h sp)
    (hp : (sp.prog (cmdOrig s.dev h cmd sp)).run (s.dev.opened h sp) =
      (finish s.dev.x.ctl.fresh 0 []).run (body.run ((committed (cmdOrig s.dev h cmd sp)).run (s.dev.opened h sp))))
    (hk : ∀ d, KeepsIntake d (body.run d)) :
    Completes c s fun t => Answered t h sp .done 0 [] ∧ ∃ d, CmdFrame s.dev d ∧ CmdFrame (body.run d) t := by
  have hopen0 : s.dev.intakeOpen h.intake = true := ha.2.1
  refine completes_of_live hc ha.1 ?_
  have h1 := (opened_frame s.dev h sp).trans (committed_frame (cmdOrig s.dev h cmd sp) _)
  have hctl1 : ((committed (cmdOrig s.dev h cmd sp)).run (s.dev.opened h sp)).x.ctl = (s.dev.opened h sp).x.ctl :=
    (committed_fixes _).ctlTime_ctl _
  rw [rygus_run ha, hp]
  generalize (committed (cmdOrig s.dev h cmd sp)).run (s.dev.opened h sp) = d1 at *
  obtain ⟨hctl2, hregs2⟩ := hk d1
  have hfind : (body.run d1).x.ctl.cmds.find? (fun c => c.id == s.dev.x.ctl.fresh) = some (cmdOpened s.dev h sp) := by
    rw [hctl2, hctl1, opened_find]
  have hopen2 : (body.run d1).intakeOpen h.intake = true := by
    rw [KeepsIntake.open_eq hregs2, KeepsIntake.open_eq h1.intake, hopen0]
  obtain ⟨rest, hw, hx, hout, hrun⟩ := finish_run hfind rfl rfl 0 []
  generalize hcpl : ({ opcode := (cmdOpened s.dev h sp).opcode, seq := (cmdOpened s.dev h sp).seq, status := statusWord .done 0
                       body := [], flags := 1 + boolBit true * 2 + 0 } : Completion) = cpl at hrun
  have hsent := deliver_sends hopen2 true cpl
  have hframe : CmdFrame (body.run d1) (settle.run ((finish s.dev.x.ctl.fresh 0 []).run (body.run d1))) := by
    rw [hrun]
    exact (deliver_frame h.intake true cpl _).trans ((CmdFrame.of_writes hw hx _).trans (CmdFrame.settled _))
  refine ⟨⟨cpl, hcpl ▸ rfl, hcpl ▸ rfl, hcpl ▸ rfl, hcpl ▸ rfl, hcpl ▸ rfl, ?_⟩, d1, h1, hframe⟩
  obtain ⟨l, hl⟩ := settle_out (rest.run ((deliver h.intake true cpl).run (body.run d1)))
  have hmem : ∀ o ∈ ((deliver h.intake true cpl).run (body.run d1)).x.out,
      o ∈ (settle.run ((finish s.dev.x.ctl.fresh 0 []).run (body.run d1))).x.out := fun o ho => by
    rw [hrun, hl, hout.out]
    exact List.mem_append_left l ho
  have hid : (fun k => (body.run d1).rd (R.CMD_SESS_ID k)) =
      fun k => (settle.run ((finish s.dev.x.ctl.fresh 0 []).run (body.run d1))).rd (R.CMD_SESS_ID k) := by
    funext k
    rw [Dev.rd, Dev.rd, hframe.intake _ (by simp [intakeWord])]
  rw [hid] at hsent
  have hfinal := hsent.mono hmem
  obtain ⟨i, q⟩ := h
  cases i with
  | ring r slot => exact hfinal
  | session k => exact hfinal

end Sys2Proof.Machine
end

section
/-!
PROOFS. The TIME commands: R39, R62, R63, R441.
-/

namespace Sys2Proof.Machine

/-! ### Bodies that leave the intakes -/

/-- What the control complex holds. -/
def ctlView (x : Ext) : CtlState := x.ctl

theorem Prog.Fixes.ctl {p : Prog} (h : p.Fixes ctlView) (d : Dev) : (p.run d).x.ctl = d.x.ctl := h.proj d

/-- What a script that leaves the clocks leaves of the control complex. -/
theorem Prog.Fixes.ctl_of_house {p : Prog} (h : p.Fixes houseView) : p.Fixes ctlView :=
  Prog.Acts.mono (fun q hq => by
    cases q with
    | ext g => exact fun x => congrArg Prod.fst (hq x)
    | wr _ _ | fstate _ _ | regReset _ => trivial
    | mem _ _ | memZero _ => exact hq) h

theorem keepsIntake_of_writes {p : Prog} {but : Reg → Prop} (hw : p.Writes but) (hb : ∀ r, but r → ¬ intakeWord r)
    (hx : p.Fixes ctlView) (d : Dev) : KeepsIntake d (p.run d) :=
  ⟨hx.ctl d, fun r hr => hw.keepsRegs d r fun h => hb r h hr⟩

@[simp] theorem raise_ctlView (f : Field) : (raise f).Fixes ctlView := fixes_raise f fun _ _ _ _ _ _ => rfl
@[simp] theorem timeUpd_ctlView (f : TimeState → TimeState) : (timeUpd f).Fixes ctlView := by simp [timeUpd, ctlView]

section
variable {t d : Dev} {r : Reg}

/-- What a command's registers show once it is answered, is what its effect left. -/
theorem CmdFrame.reg (h : CmdFrame d t) (hr : ¬ commandWord r) : t.reg r = d.reg r := h.regs r hr
theorem CmdFrame.fld {f : Field} (h : CmdFrame d t) (hr : ¬ commandWord f.reg) : t.fld f = d.fld f := by
  rw [Dev.fld, Dev.rd, h.regs _ hr, Dev.fld, Dev.rd]
theorem CmdFrame.flag {f : Field} (h : CmdFrame d t) (hr : ¬ commandWord f.reg) : t.flag f = d.flag f := by
  rw [Dev.flag, h.fld hr, Dev.flag]

end

/-- An admitted command's body has its reserved fields and ranges right (R442). -/
theorem admits_ok {d : Dev} {h : Hdr} {sp : CmdSpec} (ha : d.Admits h sp) : sp.ok = true := by
  obtain ⟨-, -, -, hchk⟩ := ha
  simp only [Dev.intakeCheck] at hchk
  split_ifs at hchk with _ _ _ hok
  simpa using hok

/-- A command without checks of its own has its effect. -/
theorem unchecked_run {o : Orig} (hm : o.mirrored = false) (p : Prog) (d : Dev) :
    (checked o (fun _ => none) p).run d = p.run ((committed o).run d) := checked_run hm rfl p

/-! ### TIME_SET of HT (R39) -/

theorem htMove_writes (by_ : Int) : (htMove by_).Writes stepWord := by
  simp [htMove, timeUpd, scaleShift_writes, scaleCross_writes]
theorem htMove_ctl (by_ : Int) : (htMove by_).Fixes ctlView := by
  simp [htMove, (scaleShift_fixes _ _).ctl_of_house, (scaleCross_fixes _ _ _).ctl_of_house]

/-- HT is set; while the DPLL is not locked to a time-bearing candidate it is not traceable. -/
def htSet (t : Nat) : Prog :=
  .read fun d => seq [htMove ((t : Int) - d.x.time.ht), doIf (!d.timeLocked) (setF F.TIME_STATUS_ht_traceable 0)]

/-- The registers that a set of HT reaches. -/
def setWord (r : Reg) : Prop := stepWord r ∨ r = R.TIME_STATUS

theorem setWord_apart (r : Reg) (h : setWord r) : ¬ intakeWord r := by
  rcases h with h | rfl
  · simp only [stepWord, List.mem_cons, List.not_mem_nil, or_false] at h
    rcases h with h | h | h | h <;> simp [intakeWord, h]
  · simp [intakeWord]

theorem htSet_writes (t : Nat) : (htSet t).Writes setWord := by
  have hm : ∀ by_, (htMove by_).Writes setWord := fun by_ => (htMove_writes by_).widen fun _ h => .inl h
  simp [htSet, hm, setWord]

theorem htSet_ht (t : Nat) (d : Dev) : ((htSet t).run d).x.time.ht = t := by
  have hset : (doIf (!d.timeLocked) (setF F.TIME_STATUS_ht_traceable 0)).Fixes houseView := by simp
  obtain ⟨rest, -, hx, hrun⟩ := htMove_run ((t : Int) - d.x.time.ht) d
  rw [htSet, run_read, run_seq_cons, run_seq_cons, run_seq_nil, hset.house_ht, hrun, hx.house_ht, timeUpd_x]
  simp only
  omega

theorem timeSet_completes {h : Hdr} {b : TimeSetBody} {s : State} (ha : s.dev.Admits h (timeSetSpec b)) (hb : b.target = 0) :
    Completes (.timeSet h b) s fun t =>
      t.x.time.ht = timeOf b.sec b.ns ∧ Answered t h (timeSetSpec b) .done 0 [] ∧ KeepsMem s.dev t := by
  have hw := htSet_writes (timeOf b.sec b.ns)
  refine (admitted_completes (body := htSet (timeOf b.sec b.ns)) rfl ha ?_
    (keepsIntake_of_writes hw setWord_apart (by simp [htSet, htMove_ctl]))).mono ?_
  · rw [timeSetSpec, unchecked_run rfl, run_read, if_pos hb, run_seq_cons, run_seq_cons, run_seq_nil, htSet, run_read]
    rfl
  · rintro t ⟨hans, d, hd, ht⟩
    refine ⟨?_, hans, keepsMem_of_eq ?_⟩
    · rw [ht.time, htSet_ht]
    · rw [ht.mem, hw.memFree.run_mem, hd.mem]

/-! ### TIME_REALIGN (R63) -/

theorem realignArm_raises (d : Dev) : (realignArm.run d).flag F.DPLL_REALIGN_STATUS_pending = true := by
  by_cases h : d.flag F.DPLL_REALIGN_STATUS_pending = true
  · rw [realignArm_pending h, h]
  · exact (realignArm_spec d (by simpa using h)).1

theorem timeRealign_completes {h : Hdr} {s : State} (ha : s.dev.Admits h timeRealignSpec) : Completes (.timeRealign h) s fun t =>
    t.flag F.DPLL_REALIGN_STATUS_pending = true ∧ Answered t h timeRealignSpec .done 0 [] ∧ KeepsMem s.dev t ∧
    KeepsRegs s.dev t fun r => commandWord r ∨ r = R.DPLL_REALIGN_STATUS := by
  have hw := realignArm_writes
  refine (admitted_completes (body := realignArm) rfl ha ?_
    (keepsIntake_of_writes hw (by simp [intakeWord]) (by simp [realignArm]))).mono ?_
  · rw [timeRealignSpec, unchecked_run rfl, run_seq_cons, run_seq_cons, run_seq_nil]
    rfl
  · rintro t ⟨hans, d, hd, ht⟩
    refine ⟨?_, hans, keepsMem_of_eq ?_, fun r hr => ?_⟩
    · rw [ht.flag (by simp [commandWord]), realignArm_raises]
    · rw [ht.mem, hw.memFree.run_mem, hd.mem]
    · rw [not_or] at hr
      obtain ⟨hc, hp⟩ := hr
      rw [ht.reg hc, hw.keepsRegs _ _ hp, hd.reg hc]

/-! ### TIME_REF (R51, R441) -/

/-- The registers that TIME_REF reaches. -/
def refWord (r : Reg) : Prop := r.kind ∈ [RK.REF_CTRL, .REF_STATE, .REF_WTR, .REF_DRIFT, .REF_ANA_FMT, .TIME_IRQ_STATUS]

theorem refWord_apart (r : Reg) (h : refWord r) : ¬ intakeWord r := by
  simp only [refWord, List.mem_cons, List.not_mem_nil, or_false] at h
  rcases h with h | h | h | h | h | h <;> simp [intakeWord, h]

/-- The three words of TIME_REF beside its control word. -/
def refWords (c : Nat) (v : List Nat) : Prog :=
  seq [wr (R.REF_WTR c) (v.getD 2 0), wr (R.REF_DRIFT c) (v.getD 4 0), wr (R.REF_ANA_FMT c) (v.getD 7 0)]

/-- What TIME_REF does. -/
def refConfig (c : Nat) (v : List Nat) : Prog := seq [refWriteCtrl c (v.getD 0 0), refWords c v]

theorem refConfig_writes (c : Nat) (v : List Nat) : (refConfig c v).Writes refWord := by
  have hp : ∀ q, (refPut c q).Writes refWord := fun q => (refPut_writes c q).widen fun r hr => by
    rcases hr with rfl | rfl <;> simp [refWord]
  simp [refConfig, refWriteCtrl, refWords, refUpd, timeUpd, hp]
  simp [refWord]

theorem refConfig_fixes (c : Nat) (v : List Nat) : (refConfig c v).Fixes ctlView := by
  simp [refConfig, refWriteCtrl, refWords, refUpd, refPut]

/-- Each of the three words is written as given, in the bits it has. -/
theorem refConfig_reg {c : Nat} (h : c < 16) (v : List Nat) (d : Dev) :
    ∀ e ∈ [(R.REF_WTR c, 2), (R.REF_DRIFT c, 4), (R.REF_ANA_FMT c, 7)],
      ((refConfig c v).run d).reg e.1 = BitVec.ofNat 32 (v.getD e.2 0) &&& implMask e.1 := by
  simp only [refConfig, refWords, List.mem_cons, List.not_mem_nil, or_false]
  rintro e (rfl | rfl | rfl) <;>
    rw [run_seq_cons, run_seq_cons, run_seq_nil, run_seq_cons, run_seq_cons, run_seq_cons, run_seq_nil]
  · rw [wr_reg_other _ _ (by simp), wr_reg_other _ _ (by simp), wr_reg_self _ _ _ (Reg.valid_indexed rfl h) rfl]
  · rw [wr_reg_other _ _ (by simp), wr_reg_self _ _ _ (Reg.valid_indexed rfl h) rfl]
  · rw [wr_reg_self _ _ _ (Reg.valid_indexed rfl h) rfl]

theorem timeRef_completes {h : Hdr} {b : TimeRefBody} {s : State} (ha : s.dev.Admits h (timeRefSpec b)) :
    Completes (.timeRef h b) s fun t => (∀ e ∈ [(R.REF_WTR b.cand, 2), (R.REF_DRIFT b.cand, 4), (R.REF_ANA_FMT b.cand, 7)],
        t.reg e.1 = BitVec.ofNat 32 (b.values.getD e.2 0) &&& implMask e.1) ∧
      Answered t h (timeRefSpec b) .done 0 [] ∧ KeepsMem s.dev t := by
  have hw := refConfig_writes b.cand b.values
  have hcand : b.cand < 16 := by
    have hok := admits_ok ha
    simp only [timeRefSpec, Bool.and_eq_true, decide_eq_true_eq] at hok
    obtain ⟨⟨⟨⟨hc, -⟩, -⟩, -⟩, -⟩ := hok
    exact hc
  refine (admitted_completes (body := refConfig b.cand b.values) rfl ha ?_
    (keepsIntake_of_writes hw refWord_apart (refConfig_fixes _ _))).mono ?_
  · rw [timeRefSpec, unchecked_run rfl, run_seq_cons, run_seq_cons, run_seq_cons, run_seq_nil, refConfig, run_seq_cons, run_seq_cons,
      run_seq_nil]
    rfl
  · rintro t ⟨hans, d, hd, ht⟩
    refine ⟨fun e he => ?_, hans, keepsMem_of_eq ?_⟩
    · rw [← refConfig_reg hcand b.values d e he]
      refine ht.reg ?_
      simp only [List.mem_cons, List.not_mem_nil, or_false] at he
      rcases he with rfl | rfl | rfl <;> simp [commandWord]
    · rw [ht.mem, hw.memFree.run_mem, hd.mem]

/-! ### TIME_DPLL (R53, R441) -/

/-- The registers that TIME_DPLL reaches. -/
def dpllConfigWord (r : Reg) : Prop :=
  r.kind ∈ [RK.DPLL_BW, .DPLL_SLEW, .DPLL_HOLDOVER, .DPLL_CTRL, .DPLL_STATE, .DPLL_HO_VALUE, .DPLL_HO_SPAN, .TIME_IRQ_STATUS]

theorem dpllConfigWord_apart (r : Reg) (h : dpllConfigWord r) : ¬ intakeWord r := by
  simp only [dpllConfigWord, List.mem_cons, List.not_mem_nil, or_false] at h
  rcases h with h | h | h | h | h | h | h | h <;> simp [intakeWord, h]

theorem dpllEnter_ctl (st : Nat) : (dpllEnter st).Fixes ctlView := by simp [dpllEnter]
theorem dpllHold_ctl (ref : Nat) : (dpllHold ref).Fixes ctlView := by
  simp [dpllHold, holdover, dpllUpd, dpllEnter_ctl]

theorem dpllWriteCtrl_ctl (v : Nat) : (dpllWriteCtrl v).Fixes ctlView := by
  simp only [dpllWriteCtrl, acts_read, acts_seq_cons, acts_seq_nil, fixes_wr, fixes_setF, true_and, and_true]
  intro d
  split
  · split <;> simp
  · simp [dpllHold_ctl]
  · simp [dpllUpd, dpllEnter_ctl]
  · exact acts_nop

/-- The registers that a write of DPLL_CTRL reaches. -/
def dpllCtrlWord (r : Reg) : Prop := r = R.DPLL_CTRL ∨ dpllWord r

theorem dpllWriteCtrl_writes (v : Nat) : (dpllWriteCtrl v).Writes dpllCtrlWord := by
  have hd : ∀ {p : Prog}, p.Writes dpllWord → p.Writes dpllCtrlWord := fun h => h.widen fun _ => .inr
  have hr : (raise F.TIME_IRQ_STATUS_force_refused).Writes dpllCtrlWord := writes_raise (.inr (by simp [dpllWord]))
  have hs : ∀ f v, f.reg = R.DPLL_STATE → (setF f v).Writes dpllCtrlWord := fun f v hf =>
    (writes_setF f v).2 (.inr (by simp [dpllWord, hf]))
  have hc : ∀ v, (wr R.DPLL_CTRL v).Writes dpllCtrlWord := fun v => (writes_wr _ v).2 (.inl rfl)
  simp only [dpllWriteCtrl, acts_read, acts_seq_cons, acts_seq_nil, and_true]
  refine fun d => ⟨hc _, hs _ _ rfl, hs _ _ rfl, ?_⟩
  split
  · split
    · exact acts_nop
    · simp [hr, hs]
  · simp [hd (dpllHold_writes _)]
  · simp [dpllUpd, timeUpd, hd (dpllEnter_writes 0)]
  · exact acts_nop

/-- What TIME_DPLL does. -/
def dpllConfig (b : TimeDpllBody) : Prog :=
  seq [wr R.DPLL_BW b.bw, wr R.DPLL_SLEW b.slew, wr R.DPLL_HOLDOVER b.holdover, dpllWriteCtrl b.ctrl]

theorem dpllConfig_writes (b : TimeDpllBody) : (dpllConfig b).Writes dpllConfigWord := by
  have hc : (dpllWriteCtrl b.ctrl).Writes dpllConfigWord := (dpllWriteCtrl_writes _).widen fun r hr => by
    rcases hr with rfl | hr
    · simp [dpllConfigWord]
    · simp only [dpllWord, List.mem_cons, List.not_mem_nil, or_false] at hr
      rcases hr with hr | hr | hr | hr <;> simp [dpllConfigWord, hr]
  simp [dpllConfig, hc]
  simp [dpllConfigWord]

theorem dpllConfig_fixes (b : TimeDpllBody) : (dpllConfig b).Fixes ctlView := by simp [dpllConfig, dpllWriteCtrl_ctl]

theorem dpllConfig_reg (b : TimeDpllBody) (d : Dev) :
    ∀ e ∈ [(R.DPLL_BW, b.bw), (R.DPLL_SLEW, b.slew), (R.DPLL_HOLDOVER, b.holdover)],
      ((dpllConfig b).run d).reg e.1 = BitVec.ofNat 32 e.2 &&& implMask e.1 := by
  have hw := dpllWriteCtrl_writes b.ctrl
  simp only [dpllConfig, List.mem_cons, List.not_mem_nil, or_false]
  rintro e (rfl | rfl | rfl) <;>
    rw [run_seq_cons, run_seq_cons, run_seq_cons, run_seq_cons, run_seq_nil, hw.keepsRegs _ _ (by simp [dpllCtrlWord, dpllWord])]
  · rw [wr_reg_other _ _ (by simp), wr_reg_other _ _ (by simp), wr_reg_self _ _ _ (by decide) rfl]
  · rw [wr_reg_other _ _ (by simp), wr_reg_self _ _ _ (by decide) rfl]
  · rw [wr_reg_self _ _ _ (by decide) rfl]

theorem timeDpll_completes {h : Hdr} {b : TimeDpllBody} {s : State} (ha : s.dev.Admits h (timeDpllSpec b)) :
    Completes (.timeDpll h b) s fun t =>
      (∀ e ∈ [(R.DPLL_BW, b.bw), (R.DPLL_SLEW, b.slew), (R.DPLL_HOLDOVER, b.holdover)],
        t.reg e.1 = BitVec.ofNat 32 e.2 &&& implMask e.1) ∧
      t.dpllMode = bitsOf b.ctrl 0 3 ∧ Answered t h (timeDpllSpec b) .done 0 [] ∧ KeepsMem s.dev t := by
  have hw := dpllConfig_writes b
  have hmode : bitsOf b.ctrl 0 3 < 4 := by
    have hok := admits_ok ha
    simp only [timeDpllSpec, Bool.and_eq_true, decide_eq_true_eq] at hok
    obtain ⟨⟨⟨⟨hm, -⟩, -⟩, -⟩, -⟩ := hok
    exact hm
  refine (admitted_completes (body := dpllConfig b) rfl ha ?_
    (keepsIntake_of_writes hw dpllConfigWord_apart (dpllConfig_fixes b))).mono ?_
  · rw [timeDpllSpec, unchecked_run rfl, run_seq_cons, run_seq_cons, run_seq_cons, run_seq_cons, run_seq_cons, run_seq_nil, dpllConfig,
      run_seq_cons, run_seq_cons, run_seq_cons, run_seq_cons, run_seq_nil]
    rfl
  · rintro t ⟨hans, d, hd, ht⟩
    refine ⟨fun e he => ?_, ?_, hans, keepsMem_of_eq ?_⟩
    · rw [← dpllConfig_reg b d e he]
      refine ht.reg ?_
      simp only [List.mem_cons, List.not_mem_nil, or_false] at he
      rcases he with rfl | rfl | rfl <;> simp [commandWord]
    · rw [Dev.dpllMode, ht.fld (by simp [commandWord]), dpllConfig, run_seq_cons, run_seq_cons, run_seq_cons, run_seq_cons, run_seq_nil,
        dpllWriteCtrl_fld hmode _ (by decide) rfl]
    · rw [ht.mem, hw.memFree.run_mem, hd.mem]

/-! ### TIME_OTG (R62, R441) -/

/-- The registers that follow an OTG's enable. -/
def otgFollowWord (r : Reg) : Prop :=
  r.kind ∈ [RK.OTG_FSTATE, .OTG_STATUS, .TIME_IRQ_STATUS, .DPLL_REALIGN_STATUS, .DST_STATUS, .DST_ALARM]

theorem fnEnable_writes (f : Fn) : (fnEnable f).Writes fun r => r = fnReg f := by
  simp only [fnEnable, acts_seq_cons, acts_seq_nil, acts_read, writes_fnMem, true_and, and_true]
  intro d
  split <;> simp

theorem fnDisable_writes (f : Fn) : (fnDisable f).Writes fun r => r = fnReg f := by
  simp only [fnDisable, acts_read]
  intro d
  split
  · simp
  · split <;> simp
  all_goals simp

theorem fnUpd_fixes {α : Type} (π : Ext → α) (f : Fn) (u : FWord → FWord) : (fnUpd f u).Fixes π := by
  simp only [fnUpd, acts_read]
  exact fun _ => trivial

theorem fnMem_ctl (f : Fn) (u : FnMem → FnMem) : (fnMem f u).Fixes ctlView := by simp [fnMem, ctlView]

theorem fnEnable_ctl (f : Fn) : (fnEnable f).Fixes ctlView := by
  simp only [fnEnable, acts_seq_cons, acts_seq_nil, acts_read, fnMem_ctl, true_and, and_true]
  intro d
  split <;> simp [fnUpd_fixes]

theorem fnDisable_ctl (f : Fn) : (fnDisable f).Fixes ctlView := by
  simp only [fnDisable, acts_read]
  intro d
  split
  · simp [fnUpd_fixes]
  · split <;> simp [fnUpd_fixes, fnMem_ctl]
  all_goals simp [fnUpd_fixes, fnMem_ctl]

theorem otgLost_writes (n : Nat) : (otgLost n).Writes otgFollowWord := by
  have hr : (raise F.TIME_IRQ_STATUS_realign_done).Writes otgFollowWord := writes_raise (by simp [otgFollowWord])
  have ha : ∀ q, (statusAlarm (F.DST_STATUS_otg_flywheel q) (F.DST_ALARM_otg_flywheel q) true).Writes otgFollowWord := fun q =>
    statusAlarm_writes (by simp [otgFollowWord]) (by simp [otgFollowWord]) true
  have hs : ∀ f v, f.reg.kind = .OTG_STATUS ∨ f.reg.kind = .DPLL_REALIGN_STATUS → (setF f v).Writes otgFollowWord := fun f v hf =>
    (writes_setF f v).2 (by rcases hf with hf | hf <;> simp [otgFollowWord, hf])
  simp [otgLost, flyStart, mvhFlyStart, otgRealigned, otgUpd, timeUpd, dstUpd, mvhUpd, hr, ha, hs]

theorem otgLost_ctl (n : Nat) : (otgLost n).Fixes ctlView := by
  have hx : ∀ g : Ext → Ext, (∀ x, (g x).ctl = x.ctl) → (ext g).Fixes ctlView := fun g hg => (fixes_ext g).2 hg
  simp [otgLost, flyStart, mvhFlyStart, otgRealigned, otgUpd, dstUpd, mvhUpd, statusAlarm, hx]

/-- What follows an OTG's enable. -/
def otgFollow (n : Nat) (on was runs : Bool) : Prog := seq [
  doIf (on && !was) (seq [fnEnable (otgFn n), doWhen (fun d => d.fst (otgFn n) == .waking) (otgLatch n)]),
  doIf (!on && was) (seq [doIf runs (otgLost n), fnDisable (otgFn n)])]

theorem otgFollow_writes (n : Nat) (on was runs : Bool) : (otgFollow n on was runs).Writes otgFollowWord := by
  have he : (fnEnable (otgFn n)).Writes otgFollowWord := (fnEnable_writes _).widen fun r hr => by
    simp [hr, otgFn, fnReg, otgFollowWord]
  have hd : (fnDisable (otgFn n)).Writes otgFollowWord := (fnDisable_writes _).widen fun r hr => by
    simp [hr, otgFn, fnReg, otgFollowWord]
  have hl : (otgLatch n).Writes otgFollowWord := by simp [otgLatch, otgUpd, timeUpd, otgFollowWord]
  simp [otgFollow, he, hd, hl, otgLost_writes]

theorem otgFollow_ctl (n : Nat) (on was runs : Bool) : (otgFollow n on was runs).Fixes ctlView := by
  simp [otgFollow, fnEnable_ctl, fnDisable_ctl, otgLost_ctl, otgLatch, otgUpd]

theorem otgSwitch_run (n : Nat) (on : Bool) (d : Dev) : (otgSwitch n on).run d =
    (otgFollow n on (d.flag (F.OTG_CTRL_enable n)) (d.on (otgFn n))).run ((setB (F.OTG_CTRL_enable n) on).run d) := by
  rw [otgSwitch, run_read, run_seq_cons, otgFollow]

/-- What TIME_OTG does. -/
def otgConfig (b : TimeOtgBody) : Prog := seq [
  setF (F.OTG_CTRL_format b.otg) (bitsOf b.ctrl 4 8), setF (F.OTG_CTRL_time_src b.otg) (bitsOf b.ctrl 12 3),
  wr (R.OTG_OFFSET b.otg) b.offset, otgSwitch b.otg (bitOf b.ctrl 0), planUpdate]

/-- The registers that TIME_OTG reaches. -/
def otgConfigWord (r : Reg) : Prop := r.kind = .OTG_CTRL ∨ r.kind = .OTG_OFFSET ∨ r.kind = .HBM_PLAN ∨ otgFollowWord r

theorem otgConfigWord_apart (r : Reg) (h : otgConfigWord r) : ¬ intakeWord r := by
  simp only [otgConfigWord, otgFollowWord, List.mem_cons, List.not_mem_nil, or_false] at h
  rcases h with h | h | h | h | h | h | h | h | h <;> simp [intakeWord, h]

theorem otgConfig_writes (b : TimeOtgBody) : (otgConfig b).Writes otgConfigWord := by
  have hf : ∀ n on was runs, (otgFollow n on was runs).Writes otgConfigWord := fun n on was runs =>
    (otgFollow_writes n on was runs).widen fun _ h => .inr (.inr (.inr h))
  have hs : (otgSwitch b.otg (bitOf b.ctrl 0)).Writes otgConfigWord := (acts_read _).2 fun d =>
    (acts_seq_cons _ _).2 ⟨(writes_setB _ _).2 (.inl rfl), hf b.otg (bitOf b.ctrl 0) _ _⟩
  simp [otgConfig, planUpdate, hs]
  simp [otgConfigWord]

theorem otgConfig_ctl (b : TimeOtgBody) : (otgConfig b).Fixes ctlView := by
  have hs : (otgSwitch b.otg (bitOf b.ctrl 0)).Fixes ctlView := (acts_read _).2 fun d =>
    (acts_seq_cons _ _).2 ⟨fixes_setB _ _, otgFollow_ctl b.otg (bitOf b.ctrl 0) _ _⟩
  simp [otgConfig, planUpdate, hs]

/-- The OTG's configuration is the body's. -/
theorem otgConfig_spec {b : TimeOtgBody} (hn : b.otg < 32) (ho : b.offset < 2 ^ 32) (d : Dev) : let e := (otgConfig b).run d
    e.fld (F.OTG_CTRL_format b.otg) = bitsOf b.ctrl 4 8 ∧ e.fld (F.OTG_CTRL_time_src b.otg) = bitsOf b.ctrl 12 3 ∧
      e.rd (R.OTG_OFFSET b.otg) = b.offset ∧ e.flag (F.OTG_CTRL_enable b.otg) = bitOf b.ctrl 0 := by
  have hv : ∀ {lo w}, hasBits .OTG_CTRL lo w = true → Field.within ⟨R.OTG_CTRL b.otg, lo, w⟩ = true := fun hb =>
    Field.within_of_hasBits (Reg.valid_indexed rfl hn) hb
  have hfmt : (F.OTG_CTRL_format b.otg).within = true := hv (by decide)
  have hsrc : (F.OTG_CTRL_time_src b.otg).within = true := hv (by decide)
  have hen : (F.OTG_CTRL_enable b.otg).within = true := hv (by decide)
  have hplan : planUpdate.Writes fun r => r = R.HBM_PLAN := by simp [planUpdate]
  have hfollow := fun was runs => otgFollow_writes b.otg (bitOf b.ctrl 0) was runs
  have henfmt : (setB (F.OTG_CTRL_enable b.otg) (bitOf b.ctrl 0)).KeepsFld (F.OTG_CTRL_format b.otg) :=
    setF_keepsFld hfmt (fun _ => .inr (by simp)) _
  have hensrc : (setB (F.OTG_CTRL_enable b.otg) (bitOf b.ctrl 0)).KeepsFld (F.OTG_CTRL_time_src b.otg) :=
    setF_keepsFld hsrc (fun _ => .inr (by simp)) _
  have hsrcfmt : ∀ v, (setF (F.OTG_CTRL_time_src b.otg) v).KeepsFld (F.OTG_CTRL_format b.otg) :=
    setF_keepsFld hfmt fun _ => .inl (by simp)
  simp only [otgConfig]
  rw [run_seq_cons, run_seq_cons, run_seq_cons, run_seq_cons, run_seq_cons, run_seq_nil, otgSwitch_run]
  refine ⟨?_, ?_, ?_, ?_⟩
  · rw [hplan.fld (by simp), (hfollow _ _).fld (by simp [otgFollowWord]), henfmt, wr_fld_other _ _ (by simp), hsrcfmt,
      setF_fld_self _ _ _ hfmt]
    exact Nat.mod_eq_of_lt (bitsOf_lt _ 4 8)
  · rw [hplan.fld (by simp), (hfollow _ _).fld (by simp [otgFollowWord]), hensrc, wr_fld_other _ _ (by simp),
      setF_fld_self _ _ _ hsrc]
    exact Nat.mod_eq_of_lt (bitsOf_lt _ 12 3)
  · rw [Dev.rd, hplan.keepsRegs _ _ (by simp), (hfollow _ _).keepsRegs _ _ (by simp [otgFollowWord]), setB,
      setF_reg_other _ _ (by simp), ← Dev.rd, wr_rd_full _ _ (Reg.valid_indexed rfl hn) rfl rfl, Nat.mod_eq_of_lt ho]
  · rw [hplan.flag (by simp), (hfollow _ _).flag (by simp [otgFollowWord])]
    exact setB_flag_self _ _ _ hen rfl

theorem timeOtg_completes {h : Hdr} {b : TimeOtgBody} {s : State} (ha : s.dev.Admits h (timeOtgSpec b))
    (hbudget : overBudget (s.dev.opened h (timeOtgSpec b))
      ((setF (F.OTG_CTRL_format b.otg) (bitsOf b.ctrl 4 8)).run (s.dev.opened h (timeOtgSpec b))) = false) :
    Completes (.timeOtg h b) s fun t =>
      t.fld (F.OTG_CTRL_format b.otg) = bitsOf b.ctrl 4 8 ∧ t.fld (F.OTG_CTRL_time_src b.otg) = bitsOf b.ctrl 12 3 ∧
      t.rd (R.OTG_OFFSET b.otg) = b.offset ∧ t.flag (F.OTG_CTRL_enable b.otg) = bitOf b.ctrl 0 ∧
      Answered t h (timeOtgSpec b) .done 0 [] ∧ KeepsMem s.dev t := by
  have hw := otgConfig_writes b
  obtain ⟨hn, ho⟩ : b.otg < 32 ∧ b.offset < 2 ^ 32 := by
    have hok := admits_ok ha
    simp only [timeOtgSpec, Bool.and_eq_true, decide_eq_true_eq] at hok
    obtain ⟨⟨⟨⟨⟨hn, -⟩, -⟩, ho⟩, -⟩, -⟩ := hok
    exact ⟨hn, ho⟩
  generalize hd1 : s.dev.opened h (timeOtgSpec b) = d1 at hbudget
  have hchk : firstOf [(overBudget d1 ((setF (F.OTG_CTRL_format b.otg) (bitsOf b.ctrl 4 8)).run d1), Reason.bandwidth)] = none := by
    rw [hbudget]
    rfl
  refine (admitted_completes (body := otgConfig b) rfl ha ?_
    (keepsIntake_of_writes hw otgConfigWord_apart (otgConfig_ctl b))).mono ?_
  · rw [hd1, timeOtgSpec, checked_run rfl hchk, otgConfig, run_seq_cons, run_seq_cons, run_seq_cons, run_seq_cons, run_seq_cons,
      run_seq_cons, run_seq_nil, run_seq_cons, run_seq_cons, run_seq_cons, run_seq_cons, run_seq_cons, run_seq_nil]
    rfl
  · rintro t ⟨hans, d, hd, ht⟩
    obtain ⟨hfmt, hsrc, hoff, hen⟩ := otgConfig_spec hn ho d
    refine ⟨?_, ?_, ?_, ?_, hans, keepsMem_of_eq ?_⟩
    · rw [ht.fld (by simp [commandWord]), hfmt]
    · rw [ht.fld (by simp [commandWord]), hsrc]
    · rw [Dev.rd, ht.reg (by simp [commandWord]), ← Dev.rd, hoff]
    · rw [ht.flag (by simp [commandWord]), hen]
    · rw [ht.mem, hw.memFree.run_mem, hd.mem]

/-- Settles O21: each command by its own lemma. -/
theorem timeCommandsSetHouseTiming : Obligations.TimeCommandsSetHouseTiming := fun _ _ =>
  ⟨fun _ ha hb => timeSet_completes ha hb, timeRealign_completes, fun _ ha => timeRef_completes ha,
    fun _ ha => timeDpll_completes ha, fun _ ha hb => timeOtg_completes ha hb⟩

end Sys2Proof.Machine
end

section
/-!
PROOFS. Scripts that may also write memory: the registers they write and what they leave of the typed state.
-/

namespace Sys2Proof.Machine

/-- The action writes no register but those named, zeroes no memory, and leaves what `π` shows of the typed state. -/
def Prim.Touches {α : Type} (but : Reg → Prop) (π : Ext → α) : Prim → Prop
  | .wr r _ => but r
  | .fstate r _ => but r
  | .mem _ _ => ∀ x l, π { x with poison := l } = π x
  | .ext g => ∀ x, π (g x) = π x
  | _ => False

/-- The script writes no register but those named, zeroes no memory, and leaves what `π` shows of the typed state. -/
abbrev Prog.Touches {α : Type} (but : Reg → Prop) (π : Ext → α) (p : Prog) : Prop := p.Acts (Prim.Touches but π)

section
variable {but : Reg → Prop} {α : Type} {π : Ext → α}

/-- What a script that touches certain registers does to the rest of the device. -/
theorem Prog.Touches.keeps {p : Prog} (h : p.Touches but π) (d : Dev) :
    KeepsRegs d (p.run d) but ∧ π (p.run d).x = π d.x := by
  refine h.run_rel (R := fun d e => KeepsRegs d e but ∧ π e.x = π d.x) (fun _ => ⟨fun _ _ => rfl, rfl⟩)
    (fun ⟨hr, hx⟩ ⟨gr, gx⟩ => ⟨fun r hn => (gr r hn).trans (hr r hn), gx.trans hx⟩) (fun q d hq => ?_) d
  have hne : ∀ s, but s → ∀ r, ¬ but r → r ≠ s := fun s hs r hr e => hr (e ▸ hs)
  cases q with
  | wr s v => exact ⟨fun r hr => wr_reg_other v d (hne s hq r hr), congrArg π (wr_x s v d)⟩
  | fstate s w =>
    rw [Prim.apply]
    split
    · exact ⟨fun r hr => by simp [Dev.reg, hne s hq r hr], rfl⟩
    · exact ⟨fun _ _ => rfl, rfl⟩
  | mem a bs => exact ⟨fun _ _ => rfl, hq d.x _⟩
  | ext g => exact ⟨fun _ _ => rfl, hq d.x⟩
  | regReset P => exact hq.elim
  | memZero P => exact hq.elim

theorem Prog.Touches.keepsRegs {p : Prog} (h : p.Touches but π) (d : Dev) : KeepsRegs d (p.run d) but := (h.keeps d).1

theorem Prog.Touches.proj {p : Prog} (h : p.Touches but π) (d : Dev) : π (p.run d).x = π d.x := (h.keeps d).2

theorem Prog.Touches.rd {p : Prog} (h : p.Touches but π) {r : Reg} (hr : ¬ but r) (d : Dev) : (p.run d).rd r = d.rd r := by
  rw [Dev.rd, h.keepsRegs d r hr, Dev.rd]

theorem Prog.Touches.keepsFld {p : Prog} (h : p.Touches but π) {f : Field} (hr : ¬ but f.reg) : p.KeepsFld f := fun d => by
  rw [Dev.fld, h.rd hr, Dev.fld]

theorem Prog.Touches.flag {p : Prog} (h : p.Touches but π) {f : Field} (hr : ¬ but f.reg) (d : Dev) :
    (p.run d).flag f = d.flag f := (h.keepsFld hr).flag d

theorem Prog.Touches.widen {but' : Reg → Prop} {p : Prog} (h : p.Touches but π) (hb : ∀ r, but r → but' r) :
    p.Touches but' π :=
  h.mono fun q hq => by
    cases q with
    | wr r v => exact hb r hq
    | fstate r w => exact hb r hq
    | mem a bs => exact hq
    | ext g => exact hq
    | regReset P => exact hq.elim
    | memZero P => exact hq.elim

/-- A script whose every action writes only the registers named and leaves what `π` shows, and no memory, is one. -/
theorem Prog.Writes.touches : ∀ {p : Prog}, p.Writes but → p.Fixes π → p.Touches but π
  | .nop, _, _ => trivial
  | .act p, hw, hx => by
    cases p with
    | wr r v => exact hw
    | fstate r w => exact hw
    | ext g => exact hx
    | mem a bs => exact hw.elim
    | regReset P => exact hw.elim
    | memZero P => exact hw.elim
  | .andThen _ _, hw, hx => ⟨Prog.Writes.touches hw.1 hx.1, Prog.Writes.touches hw.2 hx.2⟩
  | .read _, hw, hx => fun d => Prog.Writes.touches (hw d) (hx d)

@[simp] theorem touches_wr (r : Reg) (v : Nat) : (wr r v).Touches but π ↔ but r := .rfl
@[simp] theorem touches_setF (f : Field) (v : Nat) : (setF f v).Touches but π ↔ but f.reg := ⟨fun h => h {}, fun h _ => h⟩
@[simp] theorem touches_setB (f : Field) (b : Bool) : (setB f b).Touches but π ↔ but f.reg := touches_setF f _
@[simp] theorem touches_addCnt (r : Reg) (k : Nat) : (addCnt r k).Touches but π ↔ but r := ⟨fun h => h {}, fun h _ => h⟩
@[simp] theorem touches_inc (r : Reg) : (inc r).Touches but π ↔ but r := touches_addCnt r 1
@[simp] theorem touches_ext (g : Ext → Ext) : (ext g).Touches but π ↔ ∀ x, π (g x) = π x := .rfl
@[simp] theorem touches_memWrite (a : Nat) (bs : List Byte) :
    (memWrite a bs).Touches but π ↔ ∀ x l, π { x with poison := l } = π x := .rfl

/-- Raising an alarm touches its register, and leaves what an entry of the alarm history leaves. -/
theorem touches_raise {f : Field} (hr : but f.reg) (hx : ∀ k b i c, (histAdd k b i c).Fixes π) : (raise f).Touches but π :=
  (writes_raise hr).touches (fixes_raise f hx)

end


end Sys2Proof.Machine
end

section
/-!
PROOFS. A standby decides with the active: R91, R407.
-/

namespace Sys2Proof.Machine

/-! ### Status bits and alarms -/

theorem srcStatus_within (n : SrcId) {b : Nat} (hb : b < 9) : Field.within ⟨R.SRC_STATUS n, b, 1⟩ = true := by
  have h : ∀ b < 9, hasBits .SRC_STATUS b 1 = true := by decide
  exact Field.within_of_hasBits (Reg.valid_indexed rfl n.isLt) (h b hb)

theorem srcAlarm_within (n : SrcId) {b : Nat} (hb : b < 15) : Field.within ⟨R.SRC_ALARM n, b, 1⟩ = true := by
  have h : ∀ b < 15, hasBits .SRC_ALARM b 1 = true := by decide
  exact Field.within_of_hasBits (Reg.valid_indexed rfl n.isLt) (h b hb)

/-! ### Completing a frame (R89, R95) -/

/-- The registers that show a complete frame: of its record, of its arrival, and of what is monitored. -/
def completeWord (r : Reg) : Prop :=
  r.kind ∈ [RK.SRC_CNT_LATE, .SRC_ALARM, .SRC_ARRIVAL_LAT, .SRC_STATUS, .SRC_SEQ, .SRC_DIGEST, .SRC_CNT_FRAMES]

/-- Nothing of the typed state. -/
def noView (_ : Ext) : Unit := ()

theorem fixes_noView {p : Prog} (h : p.Acts Prim.MemFree) : p.Fixes noView :=
  h.mono fun q hq => by
    cases q with
    | mem a bs => exact hq.elim
    | memZero P => exact hq.elim
    | _ => simp [Prim.Fixes, noView]

theorem srcMonitor_writes (n : Nat) (r : FrameRec) : (srcMonitor n r).Writes fun q => q = R.SRC_ALARM n := by
  have hf : (raise (F.SRC_ALARM_frozen n)).Writes fun q => q = R.SRC_ALARM n := writes_raise rfl
  have hb : (raise (F.SRC_ALARM_black n)).Writes fun q => q = R.SRC_ALARM n := writes_raise rfl
  simp [srcMonitor, ingUpd, hf, hb]

theorem srcComplete1_touches (n : Nat) (fr : Frame) : (srcComplete1 n fr).Touches completeWord noView := by
  have hm : (srcMonitor n fr.rcd).Touches completeWord noView :=
    ((srcMonitor_writes n fr.rcd).widen fun r hr => by simp [hr, completeWord]).touches
      (fixes_noView (srcMonitor_writes n fr.rcd).memFree)
  have hr : (raise (F.SRC_ALARM_late_arrival n)).Touches completeWord noView :=
    touches_raise (by simp [completeWord]) fun _ _ _ _ _ _ => rfl
  simp [srcComplete1, storeUpd, emit, hm, hr, noView, completeWord]

theorem srcTryComplete_touches (n sq : Nat) : (srcTryComplete n sq).Touches completeWord noView := by
  simp only [srcTryComplete, acts_read]
  intro d
  split
  · exact acts_nop
  · simp only [acts_doIf, acts_each]
    intro _ q _
    split
    · exact srcComplete1_touches q _
    · exact acts_nop

/-- The record of a frame is written, and the frame is complete. -/
def recordWrite (n : Nat) (fr : Frame) (d : Dev) : Prog := seq [
  memWrite ((d.store n).recAddr d.grain fr.rcd.slot) fr.rcd.bytes,
  storeUpd n fun st => { st.updFrame fr.rcd.seq (fun e => { e with phase := .complete }) with
    proxies := match fr.proxy with | some q => (q, fr.rcd) :: st.proxies | none => st.proxies },
  doIf (decide (fr.due < (d.x.time.ht : Int))) (seq [inc (R.SRC_CNT_LATE n), raise (F.SRC_ALARM_late_arrival n)]),
  wr (R.SRC_ARRIVAL_LAT n) (satCode 32 (roundDiv ((d.x.time.ht : Int) - fr.rcd.t) nsU))]

/-- The channel shows the record of its newest complete frame. -/
def recordShow (n : Nat) (r : FrameRec) : Prog := seq [
  setB (F.SRC_STATUS_stamp_kind_local n) (decide (2 ≤ r.kind)),
  wr (R.SRC_SEQ n) r.seq, wr (R.SRC_DIGEST n) r.digest, inc (R.SRC_CNT_FRAMES n),
  setF (F.SRC_STATUS_no_input n) 0, setF (F.SRC_ALARM_no_input n) 0]

/-- A complete frame is monitored, and the active of a pair mirrors its decision. -/
def recordMonitor (n : Nat) (r : FrameRec) (mirrors : Bool) : Prog := seq [
  srcMonitor n r,
  doIf mirrors (emit (.decision n {
    format := r.format, sampling := r.sampling, seq := r.seq, t := r.t, kind := r.kind, locked := r.locked
    lockScale := r.lockScale, tsLocal := r.tsLocal, digest := r.digest }))]

theorem srcComplete1_run (n : Nat) (fr : Frame) (d : Dev) : (srcComplete1 n fr).run d =
    (recordMonitor n fr.rcd d.mirrors).run ((recordShow n fr.rcd).run ((recordWrite n fr d).run d)) := rfl

/-- The registers that writing a record changes. -/
def recordWord (r : Reg) : Prop := r.kind ∈ [RK.SRC_CNT_LATE, .SRC_ALARM, .SRC_ARRIVAL_LAT]

theorem recordWrite_touches (n : Nat) (fr : Frame) (d : Dev) : (recordWrite n fr d).Touches recordWord noView := by
  have hr : (raise (F.SRC_ALARM_late_arrival n)).Touches recordWord noView :=
    touches_raise (by simp [recordWord]) fun _ _ _ _ _ _ => rfl
  simp [recordWrite, storeUpd, hr, noView, recordWord]

theorem recordMonitor_writes (n : Nat) (r : FrameRec) (m : Bool) :
    (recordMonitor n r m).Writes fun q => q = R.SRC_ALARM n := by
  simp [recordMonitor, srcMonitor_writes, emit]

/-- A complete frame leaves what the status says of the decision. -/
theorem srcComplete1_keepsDecision (n : SrcId) (q : Nat) (fr : Frame) :
    (srcComplete1 q fr).KeepsFld (F.SRC_STATUS_decision_local n) := by
  have hg : (F.SRC_STATUS_decision_local n).within = true := srcStatus_within n (by decide)
  have hshow : (recordShow q fr.rcd).KeepsFld (F.SRC_STATUS_decision_local n) := fun d => by
    have hs : ∀ v, (setF (F.SRC_STATUS_stamp_kind_local q) v).KeepsFld (F.SRC_STATUS_decision_local n) :=
      setF_keepsFld hg fun _ => .inr (by simp)
    have hn : (setF (F.SRC_STATUS_no_input q) 0).KeepsFld (F.SRC_STATUS_decision_local n) :=
      setF_keepsFld hg (fun _ => .inr (by simp)) 0
    simp only [recordShow, run_seq_cons, run_seq_nil, setB]
    rw [setF_fld_other _ _ (by simp), hn, inc, addCnt, run_read, wr_fld_other _ _ (by simp), wr_fld_other _ _ (by simp),
      wr_fld_other _ _ (by simp), hs]
  intro d
  rw [srcComplete1_run, (recordMonitor_writes ..).fld (by simp), hshow, (recordWrite_touches ..).keepsFld (by simp [recordWord])]

theorem srcTryComplete_keepsDecision (n : SrcId) (m sq : Nat) :
    (srcTryComplete m sq).KeepsFld (F.SRC_STATUS_decision_local n) := by
  refine .read fun d => ?_
  split
  · exact keepsFld_nop
  · refine .doIf (keepsFld_each fun q _ => ?_)
    split
    · exact srcComplete1_keepsDecision n q _
    · exact keepsFld_nop

/-! ### Mirrored records (R91) -/

@[simp] theorem settle_ing (d : Dev) : (settle.run d).x.ing = d.x.ing := by
  obtain ⟨-, -, hx⟩ := settle_same d
  rw [hx]

@[simp] theorem settle_ingm (d : Dev) (n : Nat) : (settle.run d).ingm n = d.ingm n := by simp [Dev.ingm]

/-- The mirrored records that a channel keeps when one more arrives: the newest 16. -/
def keptMirrors (l : List DecisionRec) (r : DecisionRec) : List DecisionRec := (l ++ [r]).drop (l.length + 1 - 16)

theorem keptMirrors_getLast (l : List DecisionRec) (r : DecisionRec) : (keptMirrors l r).getLast? = some r := by
  have hlt : ¬ (l ++ [r]).length ≤ l.length + 1 - 16 := by simp
  rw [keptMirrors, List.getLast?_drop, if_neg hlt, List.getLast?_append_cons]
  rfl

theorem keptMirrors_length (l : List DecisionRec) (r : DecisionRec) : (keptMirrors l r).length ≤ 16 := by
  simp only [keptMirrors, List.length_drop, List.length_append, List.length_singleton]
  omega

theorem twinTake_lockstep (type : Nat) (d : Dev) : ((twinTake type).run d).lockstep = d.lockstep := rfl

/-- A record that no frame of the channel matches is kept. -/
theorem srcMirror_run {n : Nat} {d : Dev} (h : (d.store n).frames = []) (r : DecisionRec) :
    (srcMirror n r).run d = (ingUpd n fun m => { m with mirrors := keptMirrors m.mirrors r }).run d := by
  simp [srcMirror, Dev.inProgress, h, keptMirrors]

theorem decisionMirrorRx_kept {n : SrcId} {s : State} (hl : s.dev.live = true) (hs : s.dev.lockstep = true)
    (hf : (s.dev.store n).frames = []) (r : DecisionRec) : Completes (.decisionMirrorRx n r) s fun t =>
      (t.ingm n).mirrors.getLast? = some r ∧ (t.ingm n).mirrors.length ≤ 16 ∧ t.regs = s.dev.regs ∧ t.mem = s.dev.mem := by
  refine completes_of_live rfl hl ?_
  have hs' : ((twinTake 1).run s.dev).lockstep = true := (twinTake_lockstep 1 s.dev).trans hs
  rw [run_seq_cons, run_seq_cons, run_seq_nil, run_doWhen, if_pos hs', srcMirror_run (by exact hf), settle_ingm, ingUpd_self]
  exact ⟨keptMirrors_getLast _ r, keptMirrors_length _ r, settle_regs _, settle_mem _⟩

theorem decisionMirrorRx_dropped {n : SrcId} {s : State} (hl : s.dev.live = true) (hs : s.dev.lockstep = false)
    (r : DecisionRec) : Completes (.decisionMirrorRx n r) s fun t =>
      t.regs = s.dev.regs ∧ t.mem = s.dev.mem ∧ t.x.ing = s.dev.x.ing := by
  refine completes_of_live rfl hl ?_
  have hs' : ¬ ((twinTake 1).run s.dev).lockstep = true := by
    rw [twinTake_lockstep, hs]
    exact Bool.false_ne_true
  rw [run_seq_cons, run_seq_cons, run_seq_nil, run_doWhen, if_neg hs']
  exact ⟨settle_regs _, settle_mem _, settle_ing _⟩

/-! ### A local decision (R91, R407) -/

/-- The frame is decided with the standby's own values, which the counters, the status and the alarms show. -/
def localDecide (n k : Nat) : Prog := seq [
  storeUpd n fun st => st.updFrame k fun f => { f with own := true },
  inc (R.SRC_CNT_LOCAL n), inc R.TWIN_CNT_DECISION_LOCAL, raise F.TWIN_ALARM_decision_local,
  statusAlarm (F.SRC_STATUS_decision_local n) (F.SRC_ALARM_decision_local n) true]

/-- What a local decision shows: it is counted on both sides, and the status and the twin's alarm tell of it. -/
def LocallyDecided (n : Nat) (d e : Dev) : Prop :=
  e.rd (R.SRC_CNT_LOCAL n) = min (d.rd (R.SRC_CNT_LOCAL n) + 1) 0xFFFFFFFF ∧
  e.rd R.TWIN_CNT_DECISION_LOCAL = min (d.rd R.TWIN_CNT_DECISION_LOCAL + 1) 0xFFFFFFFF ∧
  e.flag (F.SRC_STATUS_decision_local n) = true ∧ e.flag F.TWIN_ALARM_decision_local = true

theorem localDecide_shows (n : SrcId) (k : Nat) (d : Dev) : LocallyDecided n d ((localDecide n k).run d) := by
  have hg : (F.SRC_STATUS_decision_local n).within = true := srcStatus_within n (by decide)
  have hs : (statusAlarm (F.SRC_STATUS_decision_local n) (F.SRC_ALARM_decision_local n) true).Writes
      fun r => r.kind = .SRC_STATUS ∨ r.kind = .SRC_ALARM := statusAlarm_writes (by simp) (by simp) true
  have hr : ∀ (r : Reg) (e : Dev), r ≠ R.TWIN_ALARM → ((raise F.TWIN_ALARM_decision_local).run e).rd r = e.rd r :=
    fun r e hne => by rw [Dev.rd, raise_reg_other e hne, Dev.rd]
  have hi : ∀ (r q : Reg) (e : Dev), q ≠ r → ((inc r).run e).rd q = e.rd q := fun r q e hne => wr_rd_other _ e hne
  have hc : ∀ (r : Reg) (e : Dev), r.kind ≠ .SRC_STATUS ∧ r.kind ≠ .SRC_ALARM →
      ((statusAlarm (F.SRC_STATUS_decision_local n) (F.SRC_ALARM_decision_local n) true).run e).rd r = e.rd r :=
    fun r e hne => by rw [Dev.rd, hs.keepsRegs _ _ (by simpa using hne), Dev.rd]
  simp only [LocallyDecided, localDecide, run_seq_cons, run_seq_nil]
  refine ⟨?_, ?_, statusAlarm_flag hg rfl (by simp) true _, ?_⟩
  · rw [hc _ _ (by simp), hr _ _ (by simp), hi _ _ _ (by simp), inc_rd_self _ (Reg.valid_indexed rfl n.isLt) rfl rfl]
    rfl
  · rw [hc _ _ (by simp), hr _ _ (by simp), inc_rd_self _ (Reg.valid_single rfl) rfl rfl, hi _ _ _ (by simp)]
    rfl
  · rw [hs.flag (by simp)]
    exact raise_flag_self _ _ (by decide) rfl

theorem decisionLocalDeadline_completes {n : SrcId} {k : Nat} {s : State} (hl : s.dev.live = true)
    (hs : s.dev.lockstep = true) (hf : ∃ f ∈ s.dev.inProgress n, f.rcd.seq = k ∧ f.matched = false ∧ f.own = false) :
    Completes (.decisionLocalDeadline n k) s (LocallyDecided n s.dev) := by
  have hdue : (s.dev.lockstep && (s.dev.inProgress n).any fun f => f.rcd.seq == k && !f.matched && !f.own) = true := by
    obtain ⟨f, hmem, hseq, hmatched, hown⟩ := hf
    rw [hs, Bool.true_and, List.any_eq_true]
    exact ⟨f, hmem, by simp [hseq, hmatched, hown]⟩
  have ht := srcTryComplete_touches n k
  obtain ⟨hsrc, htwin, hstatus, halarm⟩ := localDecide_shows n k s.dev
  refine completes_of_live rfl hl ?_
  rw [run_doWhen, if_pos hdue]
  change LocallyDecided n s.dev (settle.run ((srcTryComplete n k).run ((localDecide n k).run s.dev)))
  refine ⟨?_, ?_, ?_, ?_⟩
  · rw [settle_rd, ht.rd (by simp [completeWord]), hsrc]
  · rw [settle_rd, ht.rd (by simp [completeWord]), htwin]
  · rw [settle_flag, (srcTryComplete_keepsDecision n n k).flag, hstatus]
  · rw [settle_flag, ht.flag (by simp [completeWord]), halarm]

/-- Settles O23: a mirrored record that no frame matches is kept, and a frame at its deadline is decided locally. -/
theorem standbyDecidesWithTheActive : Obligations.StandbyDecidesWithTheActive := fun _ _ hl =>
  ⟨fun r hs hf => decisionMirrorRx_kept hl hs hf r, fun r hs => decisionMirrorRx_dropped hl hs r,
    fun _ hs hf => decisionLocalDeadline_completes hl hs hf⟩

end Sys2Proof.Machine
end

section
/-!
PROOFS. What the operations of an ingress channel change: its status bits and alarms, its lock, and its frame in progress: R87,
R89, R95.
-/

namespace Sys2Proof.Machine

/-! ### Status bits and alarms -/

/-- A status bit that rises raises its alarm. -/
theorem statusAlarm_raises {s a : Field} {d : Dev} (ha : a.within = true) (hw : a.width = 1) (h : d.flag s = false) :
    ((statusAlarm s a true).run d).flag a = true := by
  rw [statusAlarm, run_read, h, if_neg (by decide), run_seq_cons, run_seq_cons, run_seq_nil]
  exact raise_flag_self a _ ha hw

/-- A status bit and its alarm leave every field apart from them. -/
theorem statusAlarm_keepsFld {s a g : Field} (hg : g.within = true)
    (hs : g.reg = s.reg → g.lo + g.width ≤ s.lo ∨ s.lo + s.width ≤ g.lo) (ha : g.reg ≠ a.reg) (b : Bool) :
    (statusAlarm s a b).KeepsFld g := by
  refine .read fun d => ?_
  split
  · exact keepsFld_nop
  · exact .cons (setF_keepsFld hg hs _) (.cons (.doIf (raise_keepsFld ha)) keepsFld_seq_nil)

theorem fixes_statusAlarm {α : Type} {π : Ext → α} (s a : Field) (b : Bool) (h : ∀ k b i c, (histAdd k b i c).Fixes π) :
    (statusAlarm s a b).Fixes π := by
  simp [statusAlarm, fixes_raise a h]

/-! ### Lock and abandonment (R87, R89) -/

/-- The registers that show a channel's lock and its alarms. -/
def lockWord (r : Reg) : Prop := r.kind = .SRC_STATUS ∨ r.kind = .SRC_ALARM

theorem srcUnlock_writes (n : Nat) : (srcUnlock n).Writes lockWord := by
  have hr : (raise (F.SRC_ALARM_lock_lost n)).Writes lockWord := writes_raise (.inr rfl)
  simp [srcUnlock, ingUpd, hr, lockWord]

/-- Loss of lock leaves what does not depend on the lock's run and phase, nor on the alarm history. -/
theorem srcUnlock_fixes {α : Type} {π : Ext → α} {n : Nat} (h : ∀ k b i c, (histAdd k b i c).Fixes π)
    (hm : (ingUpd n fun m => { m with lockRun := 0, phase := none }).Fixes π) : (srcUnlock n).Fixes π := by
  simp only [srcUnlock, acts_seq_cons, acts_doWhen, acts_seq_nil, fixes_setF, fixes_raise _ h, and_true, implies_true]
  exact hm

theorem srcUnlock_keepsFld {n : SrcId} {b : Nat} (hb : 1 ≤ b) (h9 : b < 9) (q : Nat) :
    (srcUnlock q).KeepsFld ⟨R.SRC_STATUS n, b, 1⟩ := by
  have hl : (setF (F.SRC_STATUS_locked q) 0).KeepsFld ⟨R.SRC_STATUS n, b, 1⟩ :=
    setF_keepsFld (srcStatus_within n h9) (fun _ => .inr (by simpa using hb)) 0
  exact .cons (keepsFld_ext _) (.cons (.doWhen (.cons hl (.cons (raise_keepsFld (by simp)) keepsFld_seq_nil)))
    keepsFld_seq_nil)

/-- The stores. -/
def storesView (x : Ext) : KV Store := x.stores

theorem srcUnlock_stores (n : Nat) : (srcUnlock n).Fixes storesView :=
  srcUnlock_fixes (fun _ _ _ _ _ _ => rfl) fun _ => rfl

/-- The registers that show a channel's abandoned frames, its lock and its alarms. -/
def abandonWord (r : Reg) : Prop := r.kind = .SRC_CNT_ABANDONED ∨ lockWord r

theorem srcAbandon1_writes (n sq : Nat) : (srcAbandon1 n sq).Writes abandonWord := by
  have hr : (raise (F.SRC_ALARM_frame_abandoned n)).Writes abandonWord := writes_raise (.inr (.inr rfl))
  have hu : (srcUnlock n).Writes abandonWord := (srcUnlock_writes n).widen fun _ h => .inr h
  simp [srcAbandon1, storeUpd, ingUpd, hr, hu, abandonWord]

theorem srcAbandon1_keepsFld {n : SrcId} {b : Nat} (hb : 1 ≤ b) (h9 : b < 9) (q sq : Nat) :
    (srcAbandon1 q sq).KeepsFld ⟨R.SRC_STATUS n, b, 1⟩ := by
  have hc : (inc (R.SRC_CNT_ABANDONED q)).KeepsFld ⟨R.SRC_STATUS n, b, 1⟩ := fun d => wr_fld_other _ d (by simp)
  exact .cons (keepsFld_ext _) (.cons (keepsFld_ext _) (.cons hc (.cons (raise_keepsFld (by simp))
    (.cons (srcUnlock_keepsFld hb h9 q) keepsFld_seq_nil))))

/-- An abandoned frame is counted, and the channel's alarm tells of it. -/
theorem srcAbandon1_shows (n : SrcId) (sq : Nat) (d : Dev) : let e := (srcAbandon1 n sq).run d
    e.x.stores = ((storeUpd n fun st => st.updFrame sq fun f => { f with phase := .abandoned }).run d).x.stores ∧
    e.rd (R.SRC_CNT_ABANDONED n) = min (d.rd (R.SRC_CNT_ABANDONED n) + 1) 0xFFFFFFFF ∧
    e.flag (F.SRC_ALARM_frame_abandoned n) = true := by
  have hr : (raise (F.SRC_ALARM_frame_abandoned n)).Fixes storesView := fixes_raise _ fun _ _ _ _ _ _ => rfl
  simp only [srcAbandon1, run_seq_cons, run_seq_nil]
  refine ⟨?_, ?_, ?_⟩
  · rw [show ∀ e : Dev, e.x.stores = storesView e.x from fun _ => rfl, (srcUnlock_stores n).proj, hr.proj, inc_x]
    rfl
  · rw [Dev.rd, (srcUnlock_writes n).keepsRegs _ _ (by simp [lockWord]), raise_reg_other _ (by simp), ← Dev.rd,
      inc_rd_self _ (Reg.valid_indexed rfl n.isLt) rfl rfl]
    rfl
  · have hu : (srcUnlock n).KeepsFlag (F.SRC_ALARM_frame_abandoned n) := by
      have hl : (raise (F.SRC_ALARM_lock_lost n)).KeepsFlag (F.SRC_ALARM_frame_abandoned n) :=
        raise_keepsFlag (srcAlarm_within n (by decide)) rfl (srcAlarm_within n (by decide)) rfl
      have hs : (setF (F.SRC_STATUS_locked n) 0).KeepsFlag (F.SRC_ALARM_frame_abandoned n) := fun e he => by
        rw [Dev.flag, setF_fld_other _ _ (by simp)]
        exact he
      exact .cons (fun _ h => h) (.cons (.doWhen (.cons hs (.cons hl keepsFlag_seq_nil))) keepsFlag_seq_nil)
    exact hu _ (raise_flag_self _ _ (srcAlarm_within n (by decide)) rfl)

/-! ### The frame in progress (R89) -/

/-- A frame is in progress: it is being written, or its tiles are written and its record is not. -/
def Frame.open (f : Frame) : Bool := f.phase == .writing || f.phase == .tiled

theorem Dev.inProgress_eq (d : Dev) (n : Nat) : d.inProgress n = (d.store n).frames.filter Frame.open := rfl

/-- No other frame among these is in progress or has the sequence of this one. -/
def Sole (l : List Frame) (f : Frame) : Prop :=
  ∃ before after, l = before ++ f :: after ∧ ∀ e ∈ before ++ after, e.open = false ∧ e.rcd.seq ≠ f.rcd.seq

section
variable {l : List Frame} {f : Frame}

theorem sole_of_inProgress (ha : l.filter Frame.open = [f]) (hu : ∀ e ∈ l, e.rcd.seq = f.rcd.seq → e = f) : Sole l f := by
  obtain ⟨before, after, rfl, hb, hf, hafter⟩ := List.filter_eq_cons_iff.1 ha
  refine ⟨before, after, rfl, fun e he => ?_⟩
  have hclosed : e.open = false := by
    rcases List.mem_append.1 he with h | h
    · simpa using hb e h
    · simpa using List.filter_eq_nil_iff.1 hafter e h
  refine ⟨hclosed, fun hseq => ?_⟩
  have hmem : e ∈ before ++ f :: after := by
    rcases List.mem_append.1 he with h | h
    · exact List.mem_append_left _ h
    · exact List.mem_append_right _ (List.mem_cons_of_mem _ h)
  rw [hu e hmem hseq, hf] at hclosed
  exact Bool.false_ne_true hclosed.symm

theorem Sole.mem (h : Sole l f) : f ∈ l := by
  obtain ⟨before, after, rfl, -⟩ := h
  simp

/-- What a test that only a frame in progress meets finds. -/
theorem Sole.find (h : Sole l f) {p : Frame → Bool} (hp : p f = true) (ho : ∀ e, p e = true → e.open = true) :
    l.find? p = some f := by
  obtain ⟨before, after, rfl, hn⟩ := h
  have hb : before.find? p = none := List.find?_eq_none.2 fun e he hpe => by
    simpa [ho e hpe] using (hn e (List.mem_append_left _ he)).1
  rw [List.find?_append, hb, List.find?_cons, hp]
  rfl

theorem Sole.filter_open (h : Sole l f) : l.filter Frame.open = [f].filter Frame.open := by
  obtain ⟨before, after, rfl, hn⟩ := h
  have hnil : ∀ m ⊆ before ++ after, m.filter Frame.open = [] := fun m hm =>
    List.filter_eq_nil_iff.2 fun e he => by simp [(hn e (hm he)).1]
  rw [List.filter_append, List.filter_cons, hnil before (List.subset_append_left _ _), hnil after (List.subset_append_right _ _)]
  cases hf : f.open <;> simp [hf]

/-- The frame changes, and it is the only one that does. -/
theorem Sole.updFrame {st : Store} (h : Sole st.frames f) {g : Frame → Frame} (hg : (g f).rcd.seq = f.rcd.seq) :
    Sole (st.updFrame f.rcd.seq g).frames (g f) := by
  obtain ⟨before, after, hst, hn⟩ := h
  have hsame : ∀ m ⊆ before ++ after, (m.map fun e => if e.rcd.seq = f.rcd.seq then g e else e) = m := fun m hm =>
    (List.map_congr_left fun e he => if_neg (hn e (hm he)).2).trans (List.map_id m)
  refine ⟨before, after, ?_, fun e he => ⟨(hn e he).1, hg ▸ (hn e he).2⟩⟩
  simp only [Store.updFrame, hst, List.map_append, List.map_cons, if_true, hsame before (List.subset_append_left _ _),
    hsame after (List.subset_append_right _ _)]

end

/-! ### What does not bear on a frame's completion -/

/-- A frame without what its readers, its proxy and the comparison with the twin know of it. -/
def Frame.core (f : Frame) : Frame := { f with rows := [], far := none, diff := false, proxy := none }

/-- The frames of a store, without what does not bear on their completion. -/
def coresView (n : Nat) (x : Ext) : List Frame := (KV.get {} x.stores n).frames.map Frame.core

theorem Frame.of_core {e f : Frame} (h : e.core = f.core) : e.rcd = f.rcd ∧ e.phase = f.phase ∧ e.open = f.open := by
  simp only [Frame.core, Frame.mk.injEq] at h
  obtain ⟨hrcd, -, hphase, -⟩ := h
  exact ⟨hrcd, hphase, by rw [Frame.open, hphase, Frame.open]⟩

theorem Sole.of_core {l m : List Frame} {f : Frame} (h : Sole l f) (hm : m.map Frame.core = l.map Frame.core) :
    ∃ e, Sole m e ∧ e.core = f.core := by
  obtain ⟨before, after, rfl, hn⟩ := h
  rw [List.map_append, List.map_cons] at hm
  obtain ⟨before', rest, rfl, hb, hrest⟩ := List.map_eq_append_iff.1 hm
  obtain ⟨e, after', rfl, he, ha⟩ := List.map_eq_cons_iff.1 hrest
  have hseq : e.rcd.seq = f.rcd.seq := by rw [(Frame.of_core he).1]
  have hclosed : ∀ {m l : List Frame}, m.map Frame.core = l.map Frame.core →
      (∀ e ∈ l, e.open = false ∧ e.rcd.seq ≠ f.rcd.seq) → ∀ e ∈ m, e.open = false ∧ e.rcd.seq ≠ f.rcd.seq := by
    intro m l hml hl e he
    obtain ⟨c, hc, hce⟩ := List.mem_map.1 (hml ▸ List.mem_map_of_mem he)
    obtain ⟨hrcd, -, hopen⟩ := Frame.of_core hce
    rw [← hopen, ← hrcd]
    exact hl c hc
  refine ⟨e, ⟨before', after', rfl, fun c hc => hseq ▸ ?_⟩, he⟩
  exact hclosed (by rw [List.map_append, List.map_append, hb, ha]) hn c hc

/-- A channel's one frame in progress, which no other frame shares its sequence with: it has the sequence, instant and format of
a frame, and a phase. -/
def Dev.HasSole (d : Dev) (n : Nat) (f : Frame) (ph : FramePhase) : Prop :=
  ∃ e, Sole (d.store n).frames e ∧ e.rcd.seq = f.rcd.seq ∧ e.rcd.t = f.rcd.t ∧ e.rcd.format = f.rcd.format ∧ e.phase = ph

theorem Dev.HasSole.of_cores {d e : Dev} {n : Nat} {f : Frame} {ph : FramePhase} (h : d.HasSole n f ph)
    (hc : coresView n e.x = coresView n d.x) : e.HasSole n f ph := by
  obtain ⟨c, hsole, hseq, ht, hformat, hph⟩ := h
  obtain ⟨c', hsole', hcore⟩ := hsole.of_core hc
  obtain ⟨hrcd, hphase, -⟩ := Frame.of_core hcore
  exact ⟨c', hsole', hrcd ▸ hseq, hrcd ▸ ht, hrcd ▸ hformat, hphase.trans hph⟩

/-- A store's change that leaves what a view shows of every store leaves it of the stores. -/
theorem touches_storeUpd {α : Type} {but : Reg → Prop} {ρ : Store → α} {n : Nat} {u : Store → Store} (m : Nat)
    (h : ∀ st, ρ (u st) = ρ st) : (storeUpd m u).Touches but fun x => ρ (KV.get {} x.stores n) := fun x => by
  show ρ (KV.get {} (KV.upd {} x.stores m u) n) = ρ (KV.get {} x.stores n)
  by_cases hm : n = m
  · subst hm
    rw [KV.get_upd_self, h]
  · rw [KV.get_upd_other _ _ _ hm]

theorem updFrame_cores (st : Store) (sq : Nat) {g : Frame → Frame} (h : ∀ e, (g e).core = e.core) :
    (st.updFrame sq g).frames.map Frame.core = st.frames.map Frame.core := by
  rw [Store.updFrame, List.map_map]
  refine List.map_congr_left fun e _ => ?_
  rw [Function.comp_apply]
  split
  · exact h e
  · rfl

end Sys2Proof.Machine
end

section
/-!
PROOFS. Frames of an ingress channel are completed and abandoned: R89, R91, R95.
-/

namespace Sys2Proof.Machine

/-! ### NO_INPUT_TIMEOUT (R95) -/

theorem noInputTimeout_completes {n : SrcId} {s : State} (hl : s.dev.live = true) (hon : s.dev.fst (.src n) = .on) :
    Completes (.noInputTimeout n) s fun t => t.flag (F.SRC_STATUS_no_input n) = true ∧
      (s.dev.flag (F.SRC_STATUS_no_input n) = false → t.flag (F.SRC_ALARM_no_input n) = true) ∧
      KeepsRegs s.dev t (fun r => r = R.SRC_STATUS n ∨ r = R.SRC_ALARM n) ∧ KeepsMem s.dev t := by
  have hon' : s.dev.on (.src n) = true := by simp [Dev.on, hon]
  have hw : (statusAlarm (F.SRC_STATUS_no_input n) (F.SRC_ALARM_no_input n) true).Writes
      fun r => r = R.SRC_STATUS n ∨ r = R.SRC_ALARM n := statusAlarm_writes (.inl rfl) (.inr rfl) true
  refine completes_of_live rfl hl ?_
  rw [run_doWhen, if_pos hon']
  refine ⟨?_, fun h => ?_, keepsRegs_settle (hw.keepsRegs _), keepsMem_settle (hw.memFree.run_mem _)⟩
  · rw [settle_flag, statusAlarm_flag (srcStatus_within n (by decide)) rfl (by simp)]
  · rw [settle_flag, statusAlarm_raises (srcAlarm_within n (by decide)) rfl h]

/-! ### FRAME_ABANDON (R89) -/

@[simp] theorem settle_stores (d : Dev) : (settle.run d).x.stores = d.x.stores := by
  obtain ⟨-, -, hx⟩ := settle_same d
  rw [hx]

@[simp] theorem settle_store (d : Dev) (n : Nat) : (settle.run d).store n = d.store n := by simp [Dev.store]

/-- A source outside a quadrant group is a group of its own (R92). -/
theorem srcGroup_single {d : Dev} {n : Nat} (h : d.flag (F.SRC_CTRL_quad_member n) = false) : d.srcGroup n = [n] := by
  simp [Dev.srcGroup, h]

/-- A frame's instant is within half a frame of itself. -/
theorem near_self (t : Int) {p : Nat} (h : 0 < p) : decide (2 * (t - t).natAbs < p) = true := by simpa using h

theorem frameAbandon_completes {n : SrcId} {s : State} {fr : Frame} (hl : s.dev.live = true)
    (hq : s.dev.flag (F.SRC_CTRL_quad_member n) = false) (ha : s.dev.inProgress n = [fr])
    (hu : ∀ e ∈ (s.dev.store n).frames, e.rcd.seq = fr.rcd.seq → e = fr) (hp : 0 < fmtPeriod fr.rcd.format) :
    Completes (.frameAbandon n) s fun t => t.inProgress n = [] ∧
      t.rd (R.SRC_CNT_ABANDONED n) = min (s.dev.rd (R.SRC_CNT_ABANDONED n) + 1) 0xFFFFFFFF ∧
      t.flag (F.SRC_ALARM_frame_abandoned n) = true ∧ KeepsMem s.dev t := by
  have hsole : Sole (s.dev.store n).frames fr := sole_of_inProgress ha hu
  have hgone := (hsole.updFrame (g := fun f => { f with phase := .abandoned }) rfl).filter_open
  obtain ⟨hstores, hcount, halarm⟩ := srcAbandon1_shows n fr.rcd.seq s.dev
  refine completes_of_live rfl hl ?_
  simp only [run_read, ha, List.head?_cons, srcGroup_single hq, run_each_cons, run_each_nil, List.filter_cons, near_self _ hp,
    List.filter_nil, if_true]
  refine ⟨?_, ?_, ?_, keepsMem_settle ((srcAbandon1_writes n _).memFree.run_mem _)⟩
  · rw [Dev.inProgress_eq, settle_store, Dev.store, hstores, ← Dev.store, storeUpd_self, hgone]
    rfl
  · rw [settle_rd, hcount]
  · rw [settle_flag, halarm]

/-! ### The last tile of a frame (R76 to R83, R96) -/

/-- The registers that writing a frame's tiles changes. -/
def tileWord (r : Reg) : Prop :=
  r.kind ∈ [RK.SRC_CNT_ANC_DROP, .SRC_CNT_CONCEAL, .SRC_CNT_RAW_TILES, .SRC_COMPACT_RATIO, .SRC_STATUS, .SRC_ALARM]

/-- A script that only writes memory touches no register. -/
theorem tileRowProg_touches {α : Type} {but : Reg → Prop} {π : Ext → α} (hπ : ∀ x l, π { x with poison := l } = π x) (st : Store)
    (g slot f s : Nat) (compact : Bool) (row : Nat) (word : Nat → Nat → Nat) (conceal : Nat → Option Tile) :
    (tileRowProg st g slot f s compact row word conceal).1.Touches but π := by
  simp only [tileRowProg, acts_each, acts_seq_cons, touches_memWrite, acts_seq_nil, and_true]
  exact fun _ _ => ⟨hπ, hπ⟩

theorem proxyProg_touches {α : Type} {but : Reg → Prop} {π : Ext → α} (hπ : ∀ x l, π { x with poison := l } = π x) (st : Store)
    (g slot f s c : Nat) (word : Nat → Nat → Nat) : (proxyProg st g slot f s c word).Touches but π := by
  simp only [proxyProg, acts_each, touches_memWrite]
  exact fun _ _ _ _ => hπ

theorem srcTiles_run (n : Nat) (fr : Frame) (d : Dev) : ∃ (pre : Prog) (g : Frame → Frame),
    pre.Touches tileWord (coresView n) ∧
    (∀ e, (g e).rcd.seq = e.rcd.seq ∧ (g e).rcd.t = e.rcd.t ∧ (g e).rcd.format = e.rcd.format ∧ (g e).phase = .tiled) ∧
    (srcTiles n fr).run d = (storeUpd n fun st => st.updFrame fr.rcd.seq g).run (pre.run d) := by
  unfold srcTiles
  rw [run_read]
  refine ⟨seq [_, _, _, _, _, _, _, _, _], _, ?_, ?_, run_seq_append [_, _, _, _, _, _, _, _, _] [_] _⟩
  · have hm : ∀ x l, coresView n { x with poison := l } = coresView n x := fun _ _ => rfl
    have hr : ∀ b, (raise ⟨R.SRC_ALARM n, b, 1⟩).Touches tileWord (coresView n) := fun b =>
      touches_raise (by simp [tileWord]) fun _ _ _ _ _ _ => rfl
    have hi : ∀ u, (ingUpd n u).Touches tileWord (coresView n) := fun _ _ => rfl
    have hs : ∀ {u}, (∀ st, (u st).frames.map Frame.core = st.frames.map Frame.core) →
        (storeUpd n u).Touches tileWord (coresView n) := fun h =>
      touches_storeUpd (ρ := fun st => st.frames.map Frame.core) n h
    have hrows : ∀ (st : Store) (g slot f s c word conceal), (each ((List.range (tileRows f)).map fun row =>
        tileRowProg st g slot f s c row word conceal) (·.1)).Touches tileWord (coresView n) := fun _ _ _ _ _ _ _ _ =>
      (acts_each _ _).2 (List.forall_mem_map.2 fun _ _ => tileRowProg_touches hm ..)
    simp only [acts_seq_cons, acts_seq_nil, acts_doIf, touches_addCnt, touches_setF, touches_setB, and_true]
    refine ⟨hrows .., hm, fun _ => ⟨by simp [tileWord], hr _⟩, fun _ => ⟨by simp [tileWord], hr _⟩, fun _ => by simp [tileWord],
      by simp [tileWord], by simp [tileWord], ?_, hi _⟩
    split
    · simp only [acts_seq_cons, acts_seq_nil, and_true]
      exact ⟨hs fun _ => rfl, proxyProg_touches hm .., hs fun st => updFrame_cores st _ fun _ => rfl⟩
    · exact acts_nop
  · exact fun e => ⟨rfl, rfl, rfl, rfl⟩
/-- Once its last tile is written, the frame is tiled. -/
theorem srcTiles_sole {n : Nat} {fr : Frame} {d : Dev} (h : Sole (d.store n).frames fr) :
    ((srcTiles n fr).run d).HasSole n fr .tiled := by
  obtain ⟨pre, g, hpre, hg, hrun⟩ := srcTiles_run n fr d
  obtain ⟨e, hsole, hseq, ht, hformat, -⟩ :=
    Dev.HasSole.of_cores ⟨fr, h, rfl, rfl, rfl, rfl⟩ (hpre.proj d)
  obtain ⟨gseq, gt, gformat, gphase⟩ := hg e
  rw [hrun]
  refine ⟨g e, ?_, gseq.trans hseq, gt.trans ht, gformat.trans hformat, gphase⟩
  rw [storeUpd_self, ← hseq]
  exact hsole.updFrame gseq

theorem srcTiles_rd (n : Nat) (fr : Frame) (d : Dev) {r : Reg} (hr : ¬ tileWord r) : ((srcTiles n fr).run d).rd r = d.rd r := by
  obtain ⟨pre, g, hpre, -, hrun⟩ := srcTiles_run n fr d
  rw [hrun, storeUpd_rd, hpre.rd hr]

/-! ### A complete frame (R89, R91, R95) -/

/-- The registers that show how a frame compares with the active's. -/
def digestWord (r : Reg) : Prop := r.kind = .SRC_CNT_DIGEST_MISMATCH ∨ r.kind = .SRC_ALARM

theorem srcCompare_touches (n sq : Nat) : (srcCompare n sq).Touches digestWord (coresView n) := by
  have hr : (raise (F.SRC_ALARM_digest_mismatch n)).Touches digestWord (coresView n) :=
    touches_raise (.inr rfl) fun _ _ _ _ _ _ => rfl
  have hs : ∀ {g : Frame → Frame}, (∀ e, (g e).core = e.core) →
      (storeUpd n fun st => st.updFrame sq g).Touches digestWord (coresView n) := fun hg =>
    touches_storeUpd (ρ := fun st => st.frames.map Frame.core) n fun st => updFrame_cores st sq hg
  simp only [srcCompare, acts_read]
  intro d
  split
  · simp only [srcDigest, acts_seq_cons, acts_seq_nil, acts_doIf, touches_inc, and_true]
    exact ⟨fun _ => ⟨.inl rfl, hr, hs fun _ => rfl⟩, hs fun _ => rfl⟩
  · exact acts_nop

/-- A unit that is no standby in lockstep completes a tiled frame outside a quadrant group. -/
theorem srcTryComplete_run {n : Nat} {fr : Frame} {d : Dev} (h : d.HasSole n fr .tiled)
    (hq : d.flag (F.SRC_CTRL_quad_member n) = false) (hs : d.lockstep = false) (hp : 0 < fmtPeriod fr.rcd.format) :
    ∃ e, e ∈ (d.store n).frames ∧ e.rcd.seq = fr.rcd.seq ∧ (srcTryComplete n fr.rcd.seq).run d = (srcComplete1 n e).run d := by
  obtain ⟨e, hsole, hseq, ht, hformat, hph⟩ := h
  have hin : d.inProgress n = [e] := by
    rw [Dev.inProgress_eq, hsole.filter_open]
    simp [Frame.open, hph]
  have hp' : 0 < fmtPeriod e.rcd.format := hformat ▸ hp
  have hready : d.srcReady n e = true := by
    simp [Dev.srcReady, srcGroup_single hq, hin, hph, hs, hp']
  refine ⟨e, hsole.mem, hseq, ?_⟩
  have htiled : (e.rcd.seq == fr.rcd.seq && e.phase == .tiled) = true := by simp [hseq, hph]
  rw [srcTryComplete, run_read, hin, List.find?_singleton, if_pos htiled]
  simp [hready, srcGroup_single hq, hin, hph, hp']

/-- A complete frame's record is shown and counted, and the channel has input. -/
theorem srcComplete1_shows (n : SrcId) (fr : Frame) (d : Dev) : let e := (srcComplete1 n fr).run d
    e.rd (R.SRC_SEQ n) = fr.rcd.seq % 2 ^ 32 ∧
    e.rd (R.SRC_CNT_FRAMES n) = min (d.rd (R.SRC_CNT_FRAMES n) + 1) 0xFFFFFFFF ∧
    e.flag (F.SRC_STATUS_no_input n) = false := by
  have hmon : ∀ (e : Dev) {r : Reg}, r ≠ R.SRC_ALARM n → ((recordMonitor n fr.rcd d.mirrors).run e).rd r = e.rd r :=
    fun e r hr => by rw [Dev.rd, (recordMonitor_writes ..).keepsRegs _ _ hr, Dev.rd]
  have hset : ∀ (f : Field) (e : Dev) {r : Reg}, r ≠ f.reg → ((setF f 0).run e).rd r = e.rd r :=
    fun f e r hr => by rw [Dev.rd, setF_reg_other 0 e hr, Dev.rd]
  have hcnt : ∀ (e : Dev) {q r : Reg}, q ≠ r → ((inc r).run e).rd q = e.rd q := fun e _ _ hr => wr_rd_other _ e hr
  have hi := n.isLt
  simp only [srcComplete1_run, recordShow, run_seq_cons, run_seq_nil]
  refine ⟨?_, ?_, ?_⟩
  · rw [hmon _ (by simp), hset _ _ (by simp), hset _ _ (by simp), hcnt _ (by simp), wr_rd_other _ _ (by simp),
      wr_rd_full _ _ (Reg.valid_indexed rfl hi) rfl rfl]
  · rw [hmon _ (by simp), hset _ _ (by simp), hset _ _ (by simp), inc_rd_self _ (Reg.valid_indexed rfl hi) rfl rfl,
      wr_rd_other _ _ (by simp), wr_rd_other _ _ (by simp), Dev.rd, setB, setF_reg_other _ _ (by simp), ← Dev.rd,
      (recordWrite_touches ..).rd (by simp [recordWord])]
  · rw [(recordMonitor_writes ..).flag (by simp), Dev.flag, setF_fld_other _ _ (by simp),
      setF_fld_self _ _ _ (srcStatus_within n (by decide))]
    rfl

theorem raise_stores (f : Field) : (raise f).Fixes storesView := fixes_raise f fun _ _ _ _ _ _ => rfl

/-- The frame of the record is complete. -/
theorem srcComplete1_frame {n : Nat} {fr : Frame} {d : Dev} (h : fr ∈ (d.store n).frames) :
    ∃ e ∈ (((srcComplete1 n fr).run d).store n).frames, e.rcd.seq = fr.rcd.seq ∧ e.phase = .complete := by
  have hmon : (srcMonitor n fr.rcd).Fixes storesView := by
    simp [srcMonitor, ingUpd, raise_stores, storesView]
  have hframes : (((srcComplete1 n fr).run d).store n).frames =
      ((d.store n).updFrame fr.rcd.seq fun e => { e with phase := .complete }).frames := by
    have hmonitor : (recordMonitor n fr.rcd d.mirrors).Fixes storesView := by
      simp [recordMonitor, hmon, emit, storesView]
    have hshow : (recordShow n fr.rcd).Fixes storesView := by simp [recordShow]
    have hlate : (doIf (decide (fr.due < (d.x.time.ht : Int)))
        (seq [inc (R.SRC_CNT_LATE n), raise (F.SRC_ALARM_late_arrival n)])).Fixes storesView := by simp [raise_stores]
    rw [Dev.store, ← storesView, srcComplete1_run, hmonitor.proj, hshow.proj, recordWrite, run_seq_cons, run_seq_cons,
      run_seq_cons, run_seq_cons, run_seq_nil, wr_x, hlate.proj, storesView, ← Dev.store, storeUpd_self]
    rfl
  rw [hframes]
  exact ⟨_, List.mem_map_of_mem h, by simp, by simp⟩

/-- A frame in progress on a unit that is no standby in lockstep is compared, and completed if it is ready. -/
theorem srcMatch_run {n : Nat} {fr : Frame} {d : Dev} (h : d.HasSole n fr .tiled) (hs : d.lockstep = false) :
    (srcMatch n fr.rcd.seq).run d = (srcTryComplete n fr.rcd.seq).run ((srcCompare n fr.rcd.seq).run d) := by
  obtain ⟨e, hsole, hseq, -, -, hph⟩ := h
  have hin : d.inProgress n = [e] := by
    rw [Dev.inProgress_eq, hsole.filter_open]
    simp [Frame.open, hph]
  simp [srcMatch, hin, hseq, hs]

theorem ingressFrameComplete_completes {n : SrcId} {s : State} {fr : Frame} (hl : s.dev.live = true)
    (hon : s.dev.fst (.src n) = .on) (hq : s.dev.flag (F.SRC_CTRL_quad_member n) = false) (ha : s.dev.inProgress n = [fr])
    (hu : ∀ e ∈ (s.dev.store n).frames, e.rcd.seq = fr.rcd.seq → e = fr) (hp : 0 < fmtPeriod fr.rcd.format)
    (hw : fr.phase = .writing) (hs : s.dev.lockstep = false) : Completes (.ingressFrameComplete n) s fun t =>
      (∃ e ∈ (t.store n).frames, e.rcd.seq = fr.rcd.seq ∧ e.phase = .complete) ∧
      t.rd (R.SRC_SEQ n) = fr.rcd.seq % 2 ^ 32 ∧
      t.rd (R.SRC_CNT_FRAMES n) = min (s.dev.rd (R.SRC_CNT_FRAMES n) + 1) 0xFFFFFFFF ∧
      t.flag (F.SRC_STATUS_no_input n) = false := by
  have hon' : s.dev.on (.src n) = true := by simp [Dev.on, hon]
  have hsole : Sole (s.dev.store n).frames fr := sole_of_inProgress ha hu
  have hfind : (s.dev.store n).frames.find? (fun f => f.phase == .writing) = some fr :=
    hsole.find (by simp [hw]) fun e he => by simp [Frame.open, he]
  refine completes_of_live rfl hl ?_
  rw [run_doWhen, if_pos hon', run_read]
  simp only [hfind, run_seq_cons, run_seq_nil]
  have htile : ∀ {f : Field}, ¬ tileWord f.reg → ((srcTiles n fr).run s.dev).fld f = s.dev.fld f := fun hr => by
    rw [Dev.fld, srcTiles_rd n fr s.dev hr, Dev.fld]
  have hcmp := srcCompare_touches n fr.rcd.seq
  have htiled := srcTiles_sole (n := n) hsole
  have hs1 : ((srcTiles n fr).run s.dev).lockstep = false := by
    rw [Dev.lockstep, Dev.tstate, htile (by simp [tileWord])]
    exact hs
  rw [srcMatch_run htiled hs1]
  obtain ⟨e, hmem, hseq, hrun⟩ := srcTryComplete_run (htiled.of_cores (hcmp.proj _))
    (by rw [hcmp.flag (by simp [digestWord]), Dev.flag, htile (by simp [tileWord])]; exact hq)
    (by rw [Dev.lockstep, Dev.tstate, hcmp.keepsFld (by simp [digestWord])]; exact hs1) hp
  obtain ⟨hseqReg, hframes, hinput⟩ := srcComplete1_shows n e ((srcCompare n fr.rcd.seq).run ((srcTiles n fr).run s.dev))
  obtain ⟨c, hc, hcseq, hcph⟩ := srcComplete1_frame hmem
  refine ⟨⟨c, ?_, hcseq.trans hseq, hcph⟩, ?_, ?_, ?_⟩
  · rw [settle_store, hrun]
    exact hc
  · rw [settle_rd, hrun, hseqReg, hseq]
  · rw [settle_rd, hrun, hframes, hcmp.rd (by simp [digestWord]), srcTiles_rd n fr s.dev (by simp [tileWord])]
  · rw [settle_flag, hrun, hinput]

end Sys2Proof.Machine
end

section
/-!
PROOFS. A frame starts at an ingress channel: R71 to R73, R78, R85 to R88.
-/

namespace Sys2Proof.Machine

/-! ### What a channel has adopted, and the frames it is to skip -/

/-- The format a channel has adopted, and the instants of the frames that a quadrant's skip makes it skip. -/
def formatView (n : Nat) (x : Ext) : Option VideoFmt × List Int := ((KV.get {} x.ing n).adopted, (KV.get {} x.ing n).quadSkip)

theorem fixes_ingUpd {n : Nat} {u : IngMem → IngMem} (m : Nat)
    (h : ∀ i : IngMem, ((u i).adopted, (u i).quadSkip) = (i.adopted, i.quadSkip)) : (ingUpd m u).Fixes (formatView n) := fun x => by
  show ((KV.get {} (KV.upd {} x.ing m u) n).adopted, (KV.get {} (KV.upd {} x.ing m u) n).quadSkip) = formatView n x
  by_cases hm : n = m
  · subst hm
    rw [KV.get_upd_self, h]
    rfl
  · rw [KV.get_upd_other _ _ _ hm]
    rfl

theorem raise_formatView (n : Nat) (f : Field) : (raise f).Fixes (formatView n) := fixes_raise f fun _ _ _ _ _ _ => rfl

theorem srcUnlock_formatView (n q : Nat) : (srcUnlock q).Fixes (formatView n) :=
  srcUnlock_fixes (fun _ _ _ _ _ _ => rfl) (fixes_ingUpd q fun _ => rfl)

theorem srcAbandon1_formatView (n q sq : Nat) : (srcAbandon1 q sq).Fixes (formatView n) := by
  have hi : (ingUpd q fun m => { m with rx := KV.set [] m.rx sq [], anc := KV.set [] m.anc sq [] }).Fixes (formatView n) :=
    fixes_ingUpd q fun _ => rfl
  have hs : ∀ u, (storeUpd q u).Fixes (formatView n) := fun _ _ => rfl
  simp only [srcAbandon1, acts_seq_cons, acts_seq_nil, hs, hi, fixes_inc, raise_formatView, srcUnlock_formatView, and_true]

/-! ### Abandoning every frame of a group (R89, R92) -/

theorem srcAbandon_writes (n : Nat) : (srcAbandon n).Writes abandonWord := by
  simp [srcAbandon, srcAbandon1_writes]

theorem srcAbandon_formatView (n q : Nat) : (srcAbandon q).Fixes (formatView n) := by
  simp [srcAbandon, srcAbandon1_formatView]

theorem srcAbandon_keepsFld {n : SrcId} {b : Nat} (hb : 1 ≤ b) (h9 : b < 9) (q : Nat) :
    (srcAbandon q).KeepsFld ⟨R.SRC_STATUS n, b, 1⟩ :=
  .read fun _ => keepsFld_each fun _ _ => keepsFld_each fun _ _ => srcAbandon1_keepsFld hb h9 _ _

/-! ### Detection (R71 to R73) -/

/-- The registers that detection changes. -/
def detectWord (r : Reg) : Prop := r.kind = .SRC_FMT_DET ∨ abandonWord r

/-- The status bits of detection follow what is found. -/
def detectStatus (n : Nat) (bad big : Bool) : Prog := seq [
  statusAlarm (F.SRC_STATUS_format_mismatch n) (F.SRC_ALARM_format_mismatch n) bad,
  statusAlarm (F.SRC_STATUS_format_too_large n) (F.SRC_ALARM_format_too_large n) big]

/-- A format is adopted; what a channel that had another was receiving is abandoned. -/
def adoptFormat (n : Nat) (g : VideoFmt) (had : Bool) : Prog := seq [
  doIf had (seq [srcUnlock n, srcAbandon n]),
  ingUpd n fun m => { m with adopted := some g, cand := none, prevT := none },
  setF (F.SRC_FMT_DET_valid n) 1, setF (F.SRC_FMT_DET_depth n) g.depth, setF (F.SRC_FMT_DET_transfer n) g.transfer,
  setF (F.SRC_FMT_DET_colorimetry n) g.colorimetry, setF (F.SRC_FMT_DET_sampling n) g.sampling,
  setF (F.SRC_FMT_DET_format n) g.format]

/-- What a channel does with a format that it is to write: it keeps it, or adopts it. -/
def takeFormat (n : Nat) (g : VideoFmt) (was : Option VideoFmt) : Prog :=
  if was = some g then ingUpd n fun m => { m with cand := none } else adoptFormat n g was.isSome

theorem srcDetect_refused {n : Nat} {f : FrameStart} {d : Dev} (h : d.srcFormatOk n f = false) :
    (srcDetect n f).run d = (storeUpd n fun st => { st with producing := false }).run
      ((ingUpd n fun m => { m with cand := none }).run ((detectStatus n true false).run d)) := by
  simp [srcDetect, detectStatus, h]

/-- A format that FIXED mode expects and that fits the reservation stays adopted or is adopted, and the channel produces. -/
theorem srcDetect_fixed {n : Nat} {f : FrameStart} {d : Dev} (hok : d.srcFormatOk n f = true)
    (hfit : d.srcTooLarge n f.measured = false) (hfixed : d.flag (F.SRC_CTRL_fmt_mode n) = true) :
    (srcDetect n f).run d = (storeUpd n fun st => { st with producing := true }).run
      ((takeFormat n f.measured (d.ingm n).adopted).run ((detectStatus n false false).run d)) := by
  by_cases ha : (d.ingm n).adopted = some f.measured
  · simp [srcDetect, detectStatus, hok, hfit, takeFormat, ha]
  · simp [srcDetect, detectStatus, hok, hfit, takeFormat, ha, hfixed, adoptFormat]

theorem detectStatus_writes (n : Nat) (bad big : Bool) : (detectStatus n bad big).Writes detectWord := by
  have hw : ∀ {s a : Field} (b : Bool), s.reg = R.SRC_STATUS n → a.reg = R.SRC_ALARM n → (statusAlarm s a b).Writes detectWord :=
    fun b hs ha => statusAlarm_writes (by simp [hs, detectWord, abandonWord, lockWord])
      (by simp [ha, detectWord, abandonWord, lockWord]) b
  simp [detectStatus, hw]

theorem detectStatus_formatView (n q : Nat) (bad big : Bool) : (detectStatus q bad big).Fixes (formatView n) := by
  have hs : ∀ (s a : Field) (b : Bool), (statusAlarm s a b).Fixes (formatView n) := fun s a b =>
    fixes_statusAlarm s a b fun _ _ _ _ _ _ => rfl
  simp [detectStatus, hs]

theorem detectStatus_mismatch (n : SrcId) (bad big : Bool) (d : Dev) :
    ((detectStatus n bad big).run d).flag (F.SRC_STATUS_format_mismatch n) = bad := by
  have hb : (statusAlarm (F.SRC_STATUS_format_too_large n) (F.SRC_ALARM_format_too_large n) big).KeepsFld
      (F.SRC_STATUS_format_mismatch n) :=
    statusAlarm_keepsFld (srcStatus_within n (by decide)) (fun _ => .inl (by simp)) (by simp) big
  rw [detectStatus, run_seq_cons, run_seq_cons, run_seq_nil, hb.flag,
    statusAlarm_flag (srcStatus_within n (by decide)) rfl (by simp)]

theorem adoptFormat_writes (n : Nat) (g : VideoFmt) (had : Bool) : (adoptFormat n g had).Writes detectWord := by
  have hu : (srcUnlock n).Writes detectWord := (srcUnlock_writes n).widen fun _ h => .inr (.inr h)
  have ha : (srcAbandon n).Writes detectWord := (srcAbandon_writes n).widen fun _ h => .inr h
  simp [adoptFormat, ingUpd, hu, ha, detectWord]

theorem adoptFormat_mismatch (n : SrcId) (g : VideoFmt) (had : Bool) :
    (adoptFormat n g had).KeepsFld (F.SRC_STATUS_format_mismatch n) := by
  have hs : ∀ (f : Field) (v : Nat), f.reg.kind ≠ .SRC_STATUS → (setF f v).KeepsFld (F.SRC_STATUS_format_mismatch n) :=
    fun f v hf => setF_keepsFld (srcStatus_within n (by decide)) (fun h => absurd (congrArg Reg.kind h).symm hf) v
  exact .cons (.doIf (.cons (srcUnlock_keepsFld (by decide) (by decide) n)
      (.cons (srcAbandon_keepsFld (by decide) (by decide) n) keepsFld_seq_nil)))
    (.cons (keepsFld_ext _) (.cons (hs _ _ (by simp)) (.cons (hs _ _ (by simp)) (.cons (hs _ _ (by simp))
      (.cons (hs _ _ (by simp)) (.cons (hs _ _ (by simp)) (.cons (hs _ _ (by simp)) keepsFld_seq_nil)))))))

theorem setF_ingm (f : Field) (v : Nat) (d : Dev) (n : Nat) : ((setF f v).run d).ingm n = d.ingm n := by simp [Dev.ingm]

theorem adoptFormat_ingm (n : Nat) (g : VideoFmt) (had : Bool) (d : Dev) : ((adoptFormat n g had).run d).ingm n =
    { ((doIf had (seq [srcUnlock n, srcAbandon n])).run d).ingm n with adopted := some g, cand := none, prevT := none } := by
  simp only [adoptFormat, run_seq_cons, run_seq_nil, setF_ingm, ingUpd_self]

theorem adoptFormat_adopts (n : Nat) (g : VideoFmt) (had : Bool) (d : Dev) :
    (((adoptFormat n g had).run d).ingm n).adopted = some g ∧
      (((adoptFormat n g had).run d).ingm n).quadSkip = (d.ingm n).quadSkip := by
  have hfirst : (doIf had (seq [srcUnlock n, srcAbandon n])).Fixes (formatView n) := by
    simp [srcUnlock_formatView, srcAbandon_formatView]
  rw [adoptFormat_ingm]
  exact ⟨rfl, congrArg Prod.snd (hfirst.proj d)⟩

/-- A channel that has adopted a format produces, and skips no frame for a quadrant's sake. -/
structure Producing (n : Nat) (g : VideoFmt) (d e : Dev) : Prop where
  producing : (e.store n).producing = true
  adopted : (e.ingm n).adopted = some g
  skips : (e.ingm n).quadSkip = (d.ingm n).quadSkip
  matches_ : e.flag (F.SRC_STATUS_format_mismatch n) = false
  regs : KeepsRegs d e detectWord

theorem takeFormat_writes (n : Nat) (g : VideoFmt) (was : Option VideoFmt) : (takeFormat n g was).Writes detectWord := by
  rw [takeFormat]
  split
  · exact writes_ext _
  · exact adoptFormat_writes n g _

theorem takeFormat_mismatch (n : SrcId) (g : VideoFmt) (was : Option VideoFmt) :
    (takeFormat n g was).KeepsFld (F.SRC_STATUS_format_mismatch n) := by
  rw [takeFormat]
  split
  · exact keepsFld_ext _
  · exact adoptFormat_mismatch n g _

theorem takeFormat_adopts {n : Nat} {d : Dev} (g : VideoFmt) :
    (((takeFormat n g (d.ingm n).adopted).run d).ingm n).adopted = some g ∧
      (((takeFormat n g (d.ingm n).adopted).run d).ingm n).quadSkip = (d.ingm n).quadSkip := by
  rw [takeFormat]
  split
  · next h =>
    rw [ingUpd_self]
    exact ⟨h, rfl⟩
  · exact adoptFormat_adopts n g _ d

theorem srcDetect_produces {n : SrcId} {f : FrameStart} {d : Dev} (hok : d.srcFormatOk n f = true)
    (hfit : d.srcTooLarge n f.measured = false) (hfixed : d.flag (F.SRC_CTRL_fmt_mode n) = true) :
    Producing n f.measured d ((srcDetect n f).run d) := by
  obtain ⟨hadopted, hskip⟩ := Prod.mk.inj ((detectStatus_formatView n n false false).proj d)
  have hmis := detectStatus_mismatch n false false d
  have hregs := (detectStatus_writes n false false).keepsRegs d
  rw [srcDetect_fixed hok hfit hfixed]
  generalize (detectStatus n false false).run d = e at *
  have hwas : (d.ingm n).adopted = (e.ingm n).adopted := hadopted.symm
  rw [hwas]
  obtain ⟨had, hsk⟩ := takeFormat_adopts (n := n) (d := e) f.measured
  have hmis' := (takeFormat_mismatch n f.measured (e.ingm n).adopted).flag e
  have hregs' := (takeFormat_writes n f.measured (e.ingm n).adopted).keepsRegs e
  generalize (takeFormat n f.measured (e.ingm n).adopted).run e = c at *
  exact ⟨by rw [storeUpd_self], had, hsk.trans hskip, hmis'.trans hmis, fun r hr => (hregs' r hr).trans (hregs r hr)⟩

/-! ### A frame is placed (R78, R85 to R90) -/

/-- The registers that a new frame's stamp and lock change. -/
def stampWord (r : Reg) : Prop := r.kind = .SRC_PHASE ∨ lockWord r

theorem srcLock_writes (n p : Nat) (ph : Int) : (srcLock n p ph).Writes stampWord := by
  have hu : (srcUnlock n).Writes stampWord := (srcUnlock_writes n).widen fun _ h => .inr h
  simp only [srcLock, ingUpd, acts_read, acts_seq_cons, acts_doIf, hu, writes_ext, writes_wr, writes_setF, acts_seq_nil]
  simp [stampWord, lockWord]

theorem srcLock_formatView (n p : Nat) (ph : Int) : (srcLock n p ph).Fixes (formatView n) := by
  have hi : ∀ r, (ingUpd n fun m => { m with phase := some ph, lockRun := r }).Fixes (formatView n) := fun r =>
    fixes_ingUpd n fun _ => rfl
  simp [srcLock, srcUnlock_formatView, hi]

theorem srcLock_mismatch (n : SrcId) (p : Nat) (ph : Int) : (srcLock n p ph).KeepsFld (F.SRC_STATUS_format_mismatch n) := by
  have hl : (setF (F.SRC_STATUS_locked n) 1).KeepsFld (F.SRC_STATUS_format_mismatch n) :=
    setF_keepsFld (srcStatus_within n (by decide)) (fun _ => .inr (by simp)) 1
  have hw : ∀ v, (wr (R.SRC_PHASE n) v).KeepsFld (F.SRC_STATUS_format_mismatch n) := fun v d => wr_fld_other v d (by simp)
  exact .read fun _ => .cons (.doIf (srcUnlock_keepsFld (by decide) (by decide) n)) (.cons (.read fun _ =>
    .cons (keepsFld_ext _) (.cons (hw _) (.cons (.doIf hl) keepsFld_seq_nil))) keepsFld_seq_nil)

/-- What becomes of a new frame once its stamp is judged: it is skipped, or it takes a slot. -/
inductive Placing (n : Nat) (f : FrameStart) : Prog → Prop
  | skips (t : Int) : Placing n f (srcSkip n t)
  | places (u : IngMem → IngMem) (g : Store → Frame) (hu : ∀ m, (u m).adopted = m.adopted)
      (hg : ∀ st, (g st).phase = .writing ∧ (g st).rcd.source = n ∧ (g st).rcd.format = f.measured.format) :
      Placing n f (seq [ingUpd n u, storeUpd n fun st => st.push (g st)])

theorem srcFrame_run {n : SrcId} {f : FrameStart} {d : Dev} (hq : (d.ingm n).quadSkip = []) : ∃ pre post : Prog,
    pre.Writes stampWord ∧ pre.Fixes (formatView n) ∧ pre.KeepsFld (F.SRC_STATUS_format_mismatch n) ∧ Placing n f post ∧
    (srcFrame n f).run d = post.run (pre.run d) := by
  unfold srcFrame
  rw [run_read]
  suffices h : ∃ (pre : Prog) (r : Dev → Prog), pre.Writes stampWord ∧ pre.Fixes (formatView n) ∧
      pre.KeepsFld (F.SRC_STATUS_format_mismatch n) ∧ (∀ e : Dev, (e.ingm n).quadSkip = [] → Placing n f (r e)) ∧
      Prog.run _ d = (Prog.read r).run (pre.run d) by
    obtain ⟨pre, r, hw, hx, hk, hr, hrun⟩ := h
    exact ⟨pre, r (pre.run d), hw, hx, hk, hr _ ((congrArg Prod.snd (hx.proj d)).trans hq), hrun⟩
  refine ⟨seq [_, _, _, _, _], _, ?_, ?_, ?_, ?_, run_seq_append [_, _, _, _, _] [.read _] _⟩
  · have hu : (srcUnlock n).Writes stampWord := (srcUnlock_writes n).widen fun _ h => .inr h
    simp only [acts_seq_cons, acts_seq_nil, acts_doIf, ingUpd, writes_ext, writes_setB, hu, srcLock_writes, implies_true, and_true,
      true_and]
    exact .inr (.inl rfl)
  · simp only [acts_seq_cons, acts_seq_nil, acts_doIf, fixes_setB, srcUnlock_formatView, srcLock_formatView, implies_true, and_true,
      true_and]
    exact ⟨fixes_ingUpd n fun _ => rfl, fixes_ingUpd n fun _ => rfl⟩
  · exact .cons (keepsFld_ext _) (.cons (setF_keepsFld (srcStatus_within n (by decide)) (fun _ => .inr (by simp)) _)
      (.cons (.doIf (srcUnlock_keepsFld (by decide) (by decide) n)) (.cons (keepsFld_ext _)
        (.cons (srcLock_mismatch n _ _) keepsFld_seq_nil))))
  · intro e hnone
    simp only [hnone, List.any_nil, Bool.false_eq_true, if_false]
    split
    · exact .skips _
    · exact .places _ _ (fun _ => rfl) fun _ => ⟨rfl, rfl, rfl⟩

theorem srcSkip_run {n : Nat} {d : Dev} (hq : d.flag (F.SRC_CTRL_quad_member n) = false) (t : Int) : (srcSkip n t).run d =
    (srcUnlock n).run ((raise (F.SRC_ALARM_ingress_skip n)).run ((inc (R.SRC_CNT_SKIPPED n)).run d)) := by
  simp [srcSkip, srcGroup_single hq]

theorem mem_push (st : Store) (f : Frame) : f ∈ (st.push f).frames := by
  simp only [Store.push]
  rw [List.drop_append_of_le_length (by omega)]
  exact List.mem_append_right _ (List.mem_singleton_self f)

/-- The frame that starts is being written, or it is counted as skipped. -/
def WritesOrSkips (n : Nat) (g : VideoFmt) (d e : Dev) : Prop :=
  (∃ fr ∈ (e.store n).frames, fr.phase = .writing ∧ fr.rcd.source = n ∧ fr.rcd.format = g.format) ∨
    e.rd (R.SRC_CNT_SKIPPED n) = min (d.rd (R.SRC_CNT_SKIPPED n) + 1) 0xFFFFFFFF

theorem Placing.shows {n : SrcId} {f : FrameStart} {post : Prog} (h : Placing n f post) {d : Dev}
    (hq : d.flag (F.SRC_CTRL_quad_member n) = false) :
    (post.run d).flag (F.SRC_STATUS_format_mismatch n) = d.flag (F.SRC_STATUS_format_mismatch n) ∧
    ((post.run d).ingm n).adopted = (d.ingm n).adopted ∧ WritesOrSkips n f.measured d (post.run d) := by
  cases h with
  | skips t =>
    have hview := (srcUnlock_formatView n n).proj ((raise (F.SRC_ALARM_ingress_skip n)).run ((inc (R.SRC_CNT_SKIPPED n)).run d))
    rw [(raise_formatView n _).proj, inc_x] at hview
    have hr : (raise (F.SRC_ALARM_ingress_skip n)).KeepsFld (F.SRC_STATUS_format_mismatch n) := raise_keepsFld (by simp)
    have hi : (inc (R.SRC_CNT_SKIPPED n)).KeepsFld (F.SRC_STATUS_format_mismatch n) := fun e => wr_fld_other _ e (by simp)
    rw [srcSkip_run hq]
    refine ⟨?_, congrArg Prod.fst hview, .inr ?_⟩
    · rw [(srcUnlock_keepsFld (by decide) (by decide) n).flag, hr.flag, hi.flag]
    · rw [Dev.rd, (srcUnlock_writes n).keepsRegs _ _ (by simp [lockWord]), raise_reg_other _ (by simp), ← Dev.rd,
        inc_rd_self _ (Reg.valid_indexed rfl n.isLt) rfl rfl]
  | places u g hu hg =>
    rw [run_seq_cons, run_seq_cons, run_seq_nil]
    have hing : (((storeUpd n fun st => st.push (g st)).run ((ingUpd n u).run d)).ingm n) = ((ingUpd n u).run d).ingm n := rfl
    have hmem : g (((ingUpd n u).run d).store n) ∈
        (((storeUpd n fun st => st.push (g st)).run ((ingUpd n u).run d)).store n).frames := by
      rw [storeUpd_self]
      exact mem_push _ _
    exact ⟨rfl, by rw [hing, ingUpd_self, hu], .inl ⟨_, hmem, hg _⟩⟩

/-! ### INGRESS_FRAME_START (R71, R73, R78) -/

/-- What a started frame leaves: the channel has the format, and the frame is being written or is counted as skipped. -/
def Started (n : Nat) (g : VideoFmt) (d e : Dev) : Prop :=
  e.flag (F.SRC_STATUS_format_mismatch n) = false ∧ (e.ingm n).adopted = some g ∧ WritesOrSkips n g d e

theorem Producing.starts {n : SrcId} {f : FrameStart} {d e : Dev} (h : Producing n f.measured d e)
    (hs : (d.ingm n).quadSkip = []) (hq : d.flag (F.SRC_CTRL_quad_member n) = false) :
    Started n f.measured d ((srcFrame n f).run e) := by
  obtain ⟨-, hadopted, hskips, hmis, hregs⟩ := h
  obtain ⟨pre, post, hw, hx, hk, hpost, hrun⟩ := srcFrame_run (f := f) (hskips.trans hs)
  have hrd : ∀ {r : Reg}, ¬ detectWord r → ¬ stampWord r → (pre.run e).rd r = d.rd r := fun h1 h2 => by
    rw [Dev.rd, hw.keepsRegs e _ h2, hregs _ h1, Dev.rd]
  have hq' : (pre.run e).flag (F.SRC_CTRL_quad_member n) = false := by
    rw [Dev.flag, Dev.fld, hrd (by simp [detectWord, abandonWord, lockWord]) (by simp [stampWord, lockWord])]
    exact hq
  obtain ⟨hflag, hadopt, hplaced⟩ := hpost.shows hq'
  rw [hrun]
  refine ⟨(hflag.trans (hk.flag e)).trans hmis, (hadopt.trans (congrArg Prod.fst (hx.proj e))).trans hadopted, ?_⟩
  rw [WritesOrSkips, hrd (by simp [detectWord, abandonWord, lockWord]) (by simp [stampWord, lockWord])] at hplaced
  exact hplaced

theorem Started.settled {n : Nat} {g : VideoFmt} {d e : Dev} (h : Started n g d e) : Started n g d (settle.run e) := by
  rw [Started, WritesOrSkips, settle_flag, settle_ingm, settle_store, settle_rd]
  exact h

section
variable {n : SrcId} {s : State} {f : FrameStart} (hl : s.dev.live = true) (hon : s.dev.fst (.src n) = .on)
  (ha : (s.dev.store n).alloc = true)
include hl hon ha

/-- A frame that starts at a channel that is ON with its hogshead. -/
theorem ingressFrameStart_starts {P : Dev → Prop} (h : P (settle.run ((srcStart n f).run s.dev))) :
    Completes (.ingressFrameStart n f) s P := by
  have hruns : (s.dev.on (.src n) && (s.dev.store n).alloc) = true := by simp [Dev.on, hon, ha]
  refine completes_of_live rfl hl ?_
  rw [run_doWhen, if_pos hruns]
  exact h

theorem ingressFrameStart_completes (hq : s.dev.flag (F.SRC_CTRL_quad_member n) = false)
    (hfixed : s.dev.flag (F.SRC_CTRL_fmt_mode n) = true) (hok : s.dev.srcFormatOk n f = true)
    (hfit : s.dev.srcTooLarge n f.measured = false) (hs : (s.dev.ingm n).quadSkip = []) :
    Completes (.ingressFrameStart n f) s (Started n f.measured s.dev) := by
  refine ingressFrameStart_starts hl hon ha (Started.settled ?_)
  have hprod := srcDetect_produces (n := n) (d := (srcLatch n).run s.dev) hok hfit hfixed
  rw [srcStart, run_seq_cons, run_seq_cons, run_seq_cons, run_seq_nil, run_doWhen, if_pos hprod.producing]
  exact hprod.starts hs hq

theorem ingressFrameStart_refuses (hbad : s.dev.srcFormatOk n f = false) :
    Completes (.ingressFrameStart n f) s fun t =>
      t.flag (F.SRC_STATUS_format_mismatch n) = true ∧ (t.store n).producing = false ∧ KeepsMem s.dev t := by
  refine ingressFrameStart_starts hl hon ha ?_
  have hdetect := srcDetect_refused (n := n) (f := f) (d := (srcLatch n).run s.dev) hbad
  generalize hd : (srcLatch n).run s.dev = d at hdetect
  have hstop : ¬ (((srcDetect n f).run d).store n).producing = true := by
    rw [hdetect, storeUpd_self]
    exact Bool.false_ne_true
  rw [srcStart, run_seq_cons, run_seq_cons, run_seq_cons, run_seq_nil, hd, run_doWhen, if_neg hstop]
  refine ⟨?_, ?_, keepsMem_settle ?_⟩
  · rw [settle_flag, hdetect, Dev.flag, storeUpd_fld, ingUpd_fld]
    exact detectStatus_mismatch n true false d
  · rw [settle_store]
    exact Bool.eq_false_iff.2 hstop
  · rw [hdetect, storeUpd_mem, ingUpd_mem, (detectStatus_writes n true false).memFree.run_mem, ← hd]
    rfl

end

/-- Settles O22: a frame's start by what detection finds, its end by its one frame in progress. -/
theorem framesAreReceivedCompletedAndAbandoned : Obligations.FramesAreReceivedCompletedAndAbandoned :=
  fun _ _ hl hon ha hq =>
    ⟨fun _ hfixed hok hfit hs => ingressFrameStart_completes hl hon ha hq hfixed hok hfit hs,
      fun _ hbad => ingressFrameStart_refuses hl hon ha hbad,
      fun _ hone hu hp => ⟨fun hw hs => ingressFrameComplete_completes hl hon hq hone hu hp hw hs,
        frameAbandon_completes hl hq hone hu hp⟩,
      noInputTimeout_completes hl hon⟩

end Sys2Proof.Machine
end

section
/-!
PROOFS. A command that is admitted is answered with any final state and body, and leaves all but the commands' own state: R405,
R429, R433, R437, R440.
-/

namespace Sys2Proof.Machine

/-! ### The channels in FAULT -/

/-- Setting a word leaves what is filtered of the other words. -/
theorem RegFile.filterMap_set {β : Type} {g : Reg × Word → Option β} {r : Reg} (hg : ∀ w, g (r, w) = none) (m : RegFile) (v : Word) :
    (m.set r v).filterMap g = m.filterMap g := by
  have hfilter : (m.filter fun e => e.1 ≠ r).filterMap g = m.filterMap g := by
    rw [List.filterMap_filter]
    refine List.filterMap_congr fun e _ => ?_
    by_cases he : e.1 = r
    · obtain ⟨k, w⟩ := e
      subst he
      simp [hg]
    · simp [he]
  have hput : ∀ l : RegFile, (RegFile.put l r v).filterMap g = l.filterMap g := by
    intro l
    induction l with
    | nil => simp [RegFile.put, hg]
    | cons e t ih =>
      obtain ⟨k, w⟩ := e
      rw [RegFile.put]
      split
      · rw [List.filterMap_cons, hg]
      · rw [List.filterMap_cons, List.filterMap_cons, ih]
  unfold RegFile.set
  split
  · exact hfilter
  · rw [hput, hfilter]

/-- A script that writes no channel's state leaves the channels in FAULT. -/
theorem Prog.Writes.faultChans {p : Prog} {but : Reg → Prop} (h : p.Writes but) (hb : ∀ r, but r → r.kind ≠ .HBM_CH_FSTATE)
    (d : Dev) : (p.run d).faultChans = d.faultChans := by
  refine h.run_rel (R := fun d e => e.faultChans = d.faultChans) (fun _ => rfl) (fun h g => g.trans h) (fun q d hq => ?_) d
  have hset : ∀ {r : Reg}, but r → ∀ v, ({ d with regs := d.regs.set r v } : Dev).faultChans = d.faultChans := fun hr v =>
    RegFile.filterMap_set (fun w => if_neg fun h => hb _ hr h.1) d.regs v
  cases q with
  | wr r v =>
    rw [Prim.apply]
    split
    · exact hset hq _
    · rfl
  | fstate r w =>
    rw [Prim.apply]
    split
    · exact hset hq _
    · rfl
  | ext g => rfl
  | regReset P => exact hq.elim
  | mem a bs => exact hq.elim
  | memZero P => exact hq.elim

/-! ### What is not the commands' own -/

/-- The typed state without what has left the device and what the control complex holds. -/
def restView (x : Ext) : Ext := { x with out := [], ctl := {} }

/-- Nothing changes but the commands' own registers, the outputs and what the control complex holds. -/
structure CmdApart (d e : Dev) : Prop where
  regs : KeepsRegs d e commandWord
  mem : e.mem = d.mem
  rest : restView e.x = restView d.x
  fault : e.faultChans = d.faultChans

theorem CmdApart.trans {a b c : Dev} (h : CmdApart a b) (g : CmdApart b c) : CmdApart a c :=
  ⟨fun r hr => (g.regs r hr).trans (h.regs r hr), g.mem.trans h.mem, g.rest.trans h.rest, g.fault.trans h.fault⟩

theorem commandWord_ne_fault (r : Reg) (h : commandWord r) : r.kind ≠ .HBM_CH_FSTATE := fun e => by
  rw [commandWord, e] at h
  simp at h

theorem CmdApart.of_writes {p : Prog} (hw : p.Writes commandWord) (hx : p.Fixes restView) (d : Dev) : CmdApart d (p.run d) :=
  ⟨hw.keepsRegs d, hw.memFree.run_mem d, hx.proj d, hw.faultChans commandWord_ne_fault d⟩

theorem CmdApart.settled (d : Dev) : CmdApart d (settle.run d) := by
  obtain ⟨hregs, hmem, hx⟩ := settle_same d
  exact ⟨fun r _ => settle_reg d r, hmem, by rw [hx]; rfl, by rw [Dev.faultChans, hregs, Dev.faultChans]⟩

section
variable {d e : Dev} (h : CmdApart d e)
include h

theorem CmdApart.frame : CmdFrame d e := ⟨h.regs, h.mem, congrArg (a₁ := restView e.x) (a₂ := restView d.x) Ext.time h.rest⟩
theorem CmdApart.rd {r : Reg} (hr : ¬ commandWord r) : e.rd r = d.rd r := by rw [Dev.rd, h.regs r hr, Dev.rd]
theorem CmdApart.fld {f : Field} (hr : ¬ commandWord f.reg) : e.fld f = d.fld f := h.frame.fld hr
theorem CmdApart.stores : e.x.stores = d.x.stores := congrArg (a₁ := restView e.x) (a₂ := restView d.x) Ext.stores h.rest
theorem CmdApart.store (n : Nat) : e.store n = d.store n := by rw [Dev.store, h.stores, Dev.store]
theorem CmdApart.surfm (n : Nat) : e.surfm n = d.surfm n := by
  rw [Dev.surfm, Dev.surfm, show e.x.surf = d.x.surf from congrArg (a₁ := restView e.x) (a₂ := restView d.x) Ext.surf h.rest]
theorem CmdApart.surfState (n : Nat) : e.surfState n = d.surfState n := h.fld (by simp [commandWord])
theorem CmdApart.grain : e.grain = d.grain := by rw [Dev.grain, h.fld (by simp [commandWord]), Dev.grain]
theorem CmdApart.memLost (l : List Nat) (a : Nat) : e.memLost l a = d.memLost l a := by
  rw [Dev.memLost, h.fld (by simp [commandWord]), Dev.memLost]

end

/-! ### A final completion (R437, R440) -/

@[simp] theorem ctlUpd_restView (f : CtlState → CtlState) : (ctlUpd f).Fixes restView := fun _ => rfl
@[simp] theorem emit_restView (o : Output) : (emit o).Fixes restView := fun _ => rfl

theorem deliver_apart (i : Intake) (final : Bool) (c : Completion) (d : Dev) : CmdApart d ((deliver i final c).run d) := by
  cases i with
  | ring r slot => exact .of_writes (cqWrite_writes r slot c) (by simp [cqWrite, dropCpl, ringUpd]) d
  | session s => exact .of_writes (sessSend_writes s final c) (by simp [sessSend, dropCpl, sessUpd]) d

theorem opened_apart (d : Dev) (h : Hdr) (sp : CmdSpec) : CmdApart d (d.opened h sp) := by
  have hopen : (openCmd h (d.actsFor h sp) sp.opcode).Fixes restView := by
    obtain ⟨i, q⟩ := h
    cases i <;> simp [openCmd, ringUpd, cmdStatus_fixes]
  exact (CmdApart.of_writes (countRx_writes _) (countRx_fixes _ _) d).trans
    (.of_writes (openCmd_writes h (d.actsFor h sp) sp.opcode) hopen _)

theorem committed_apart (o : Orig) (d : Dev) : CmdApart d ((committed o).run d) := by
  refine .of_writes (committed_writes o) ?_ d
  simp only [committed, mirrorCommit, noteLatency, acts_seq_cons, acts_read, acts_doIf, fixes_wr, emit_restView, acts_seq_nil,
    and_true, implies_true, true_and]
  intro d
  split
  · simp
  · exact acts_nop

/-- A final completion is delivered, and its command ends. -/
theorem sendCompletion_run {id : Nat} {rec : CmdRec} {h : Hdr} {d : Dev}
    (hf : d.x.ctl.cmds.find? (fun c => c.id == id) = some rec) (hh : rec.hdr = some h) (hlost : rec.lost = false) (st : CmdState)
    (reason : Nat) (body : List Nat) : ∃ rest : Prog,
    rest.Writes commandWord ∧ rest.Fixes restView ∧ rest.Fixes outView ∧ (sendCompletion id true st reason 0 body).run d =
      rest.run ((deliver h.intake true { opcode := rec.opcode, seq := rec.seq, status := statusWord st reason, body := body
                                         flags := 1 + boolBit true * 2 + 0 }).run d) := by
  rw [sendCompletion, run_read]
  simp only [hf, hh, hlost]
  refine ⟨_, ?_, ?_, ?_, run_seq_cons _ _ _⟩
  · obtain ⟨i, q⟩ := h
    cases i <;> simp [ringUpd, cmdStatus_writes, commandWord]
  · obtain ⟨i, q⟩ := h
    cases i <;> simp [ringUpd, cmdStatus_fixes]
  · obtain ⟨i, q⟩ := h
    cases i <;> simp [ringUpd, cmdStatus_fixes]

/-- The final completion of a command whose record stands and whose intake is open reaches where the command came from. -/
theorem sendCompletion_answers {d e : Dev} {h : Hdr} {sp : CmdSpec}
    (hfind : e.x.ctl.cmds.find? (fun c => c.id == d.x.ctl.fresh) = some (cmdOpened d h sp)) (hopen : e.intakeOpen h.intake = true)
    (st : CmdState) (reason : Nat) (body : List Nat) :
    Answered (settle.run ((sendCompletion d.x.ctl.fresh true st reason 0 body).run e)) h sp st reason body ∧
      CmdApart e (settle.run ((sendCompletion d.x.ctl.fresh true st reason 0 body).run e)) := by
  obtain ⟨rest, hw, hx, hout, hrun⟩ := sendCompletion_run hfind rfl rfl st reason body
  generalize hcpl : ({ opcode := (cmdOpened d h sp).opcode, seq := (cmdOpened d h sp).seq, status := statusWord st reason
                       body := body, flags := 1 + boolBit true * 2 + 0 } : Completion) = cpl at hrun
  have hsent := deliver_sends hopen true cpl
  have hapart : CmdApart e (settle.run ((sendCompletion d.x.ctl.fresh true st reason 0 body).run e)) := by
    rw [hrun]
    exact (deliver_apart h.intake true cpl e).trans ((CmdApart.of_writes hw hx _).trans (CmdApart.settled _))
  refine ⟨⟨cpl, hcpl ▸ rfl, hcpl ▸ rfl, hcpl ▸ rfl, hcpl ▸ rfl, hcpl ▸ rfl, ?_⟩, hapart⟩
  obtain ⟨l, hl⟩ := settle_out (rest.run ((deliver h.intake true cpl).run e))
  have hmem : ∀ o ∈ ((deliver h.intake true cpl).run e).x.out,
      o ∈ (settle.run ((sendCompletion d.x.ctl.fresh true st reason 0 body).run e)).x.out := fun o ho => by
    rw [hrun, hl, hout.out]
    exact List.mem_append_left l ho
  have hid : (fun k => e.rd (R.CMD_SESS_ID k)) =
      fun k => (settle.run ((sendCompletion d.x.ctl.fresh true st reason 0 body).run e)).rd (R.CMD_SESS_ID k) :=
    funext fun k => (hapart.rd (by simp [commandWord])).symm
  rw [hid] at hsent
  have hfinal := hsent.mono hmem
  obtain ⟨i, q⟩ := h
  cases i with
  | ring r slot => exact hfinal
  | session k => exact hfinal

/-- An admitted command whose effect leaves the intakes is answered, and its effect stands. -/
theorem admitted_answers {c : Instr} {s : State} {h : Hdr} {cmd : Cmd} {sp : CmdSpec} {body : Prog} {st : CmdState}
    {reply : List Nat} (hc : exec c s = perform .core (rygus h cmd sp) s) (ha : s.dev.Admits h sp)
    (hp : (sp.prog (cmdOrig s.dev h cmd sp)).run (s.dev.opened h sp) = (sendCompletion s.dev.x.ctl.fresh true st 0 0 reply).run
      (body.run ((committed (cmdOrig s.dev h cmd sp)).run (s.dev.opened h sp))))
    (hk : ∀ d, KeepsIntake d (body.run d)) :
    Completes c s fun t => Answered t h sp st 0 reply ∧ ∃ d, CmdApart s.dev d ∧ CmdApart (body.run d) t := by
  have hopen : s.dev.intakeOpen h.intake = true := ha.2.1
  have hapart := (opened_apart s.dev h sp).trans (committed_apart (cmdOrig s.dev h cmd sp) _)
  have hctl : ((committed (cmdOrig s.dev h cmd sp)).run (s.dev.opened h sp)).x.ctl = (s.dev.opened h sp).x.ctl :=
    (committed_fixes _).ctlTime_ctl _
  refine completes_of_live hc ha.1 ?_
  rw [rygus_run ha, hp]
  generalize (committed (cmdOrig s.dev h cmd sp)).run (s.dev.opened h sp) = d at *
  obtain ⟨hctl', hregs⟩ := hk d
  obtain ⟨hans, hafter⟩ := sendCompletion_answers (d := s.dev) (e := body.run d) (by rw [hctl', hctl, opened_find])
    (by rw [KeepsIntake.open_eq hregs, KeepsIntake.open_eq hapart.frame.intake, hopen]) st 0 reply
  exact ⟨hans, d, hapart, hafter⟩

end Sys2Proof.Machine
end

section
/-!
PROOFS. Still surfaces: allocation, writes, publication, freeing, queries and reclaim: R75, R129, R130, R131.
-/

namespace Sys2Proof.Machine

/-! ### A surface's registers, and its references (R131) -/

/-- The registers that show a surface, and the plan. -/
def surfaceWord (r : Reg) : Prop := r.kind ∈ [RK.SURF_STATE, .SURF_SIZE, .SURF_REFS, .HBM_PLAN]

theorem surfaceWord_apart (r : Reg) (h : surfaceWord r) : ¬ intakeWord r := by
  simp only [surfaceWord, List.mem_cons, List.not_mem_nil, or_false] at h
  rcases h with h | h | h | h <;> simp [intakeWord, h]

theorem surfState_within {n : Nat} (h : n < 256) : (F.SURF_STATE_state n).within = true :=
  Field.within_of_hasBits (Reg.valid_indexed rfl h) (show hasBits .SURF_STATE 0 3 = true by decide)

theorem writes_refSync {but : Reg → Prop} (h : ∀ n, but (R.SURF_REFS n)) : refSync.Writes but := by
  simp [refSync, h]

theorem fixes_refSync {α : Type} {π : Ext → α} (h : ∀ x l, π { x with surfRefs := l } = π x) : refSync.Fixes π := by
  simp [refSync, h]

/-- A surface's state lies apart from the reference counts and the plan. -/
theorem refSync_surfState (n : Nat) (d : Dev) : (refSync.run d).surfState n = d.surfState n :=
  (writes_refSync (but := fun r => r.kind = .SURF_REFS) fun _ => rfl).fld (by simp) d

theorem planUpdate_writes : planUpdate.Writes surfaceWord := by simp [planUpdate, surfaceWord]

theorem planUpdate_fixes {α : Type} (π : Ext → α) : planUpdate.Fixes π := by simp [planUpdate]

theorem planUpdate_surfState (n : Nat) (d : Dev) : (planUpdate.run d).surfState n = d.surfState n := wr_fld_other _ _ (by simp)

/-- The lowest bits of a register that has no others hold what is set there. -/
theorem setF_rd_low {r : Reg} {k : Nat} (v : Nat) (d : Dev) (h : r.valid = true) (n : isFstate r.kind = false)
    (m : (regInfo r.kind).impl = 2 ^ k - 1) (hk : k ≤ 32) : ((setF ⟨r, 0, k⟩ v).run d).rd r = v % 2 ^ k := by
  have hbits := bitsOf_putBits_self (d.rd r) 0 k v
  rw [bitsOf, pow_zero, Nat.div_one] at hbits
  rw [setF, run_read, wr_rd_low _ d h n m hk, hbits]

/-- The count of a surface that no holder references comes to 0. -/
theorem refSync_releases {n : Nat} {d : Dev} (hn : n < 256) (hh : ∀ e ∈ d.refHolders, e.1 ≠ n)
    (hr : d.rd (R.SURF_REFS n) = (d.x.surfRefs.filter fun e => e.1 == n).length) : (refSync.run d).rd (R.SURF_REFS n) = 0 := by
  rw [refSync, run_read]
  extract_lets l touched
  have hnone : l.filter (fun e => e.1 == n) = [] :=
    List.filter_eq_nil_iff.2 fun e he => by simpa using hh e (List.mem_filter.1 he).1
  rw [run_seq_cons, run_seq_cons, run_seq_nil]
  by_cases hm : n ∈ touched
  · refine each_reaches (P := fun e => e.rd (R.SURF_REFS n) = 0) hm (fun e => ?_) (fun k _ hk e he => ?_) _
    · rw [hnone]
      exact setF_rd_low 0 e (Reg.valid_indexed rfl hn) rfl rfl (by decide)
    · have hother : R.SURF_REFS n ≠ R.SURF_REFS k := by simpa using hk.symm
      rw [Dev.rd, setF_reg_other _ _ hother, ← Dev.rd, he]
  · have hout : d.x.surfRefs.filter (fun e => e.1 == n) = [] := List.filter_eq_nil_iff.2 fun e he hen =>
      hm (List.mem_eraseDups.2 (List.mem_map.2 ⟨e, List.mem_append_left _ he, by simpa using hen⟩))
    rw [hout] at hr
    refine each_keeps_of_mem (P := fun e => e.rd (R.SURF_REFS n) = 0) (fun k hk e he => ?_) _ hr
    have hother : R.SURF_REFS n ≠ R.SURF_REFS k := by
      have hne : n ≠ k := fun e => hm (e ▸ hk)
      simpa using hne
    rw [Dev.rd, setF_reg_other _ _ hother, ← Dev.rd, he]

/-! ### SURFACE_ALLOC (R129) -/

/-- The store of an allocated surface. -/
def surfStore (d : Dev) (b : SurfaceAllocBody) : Store := {
  alloc := true, base := (d.place (d.surfBytes b)).getD 0, size := d.surfBytes b, format := b.format
  sampling := b.sampling, depth := if b.double then 2 else 1 }

/-- What SURFACE_ALLOC does. -/
def surfAllocate (b : SurfaceAllocBody) : Prog := .read fun d => seq [
  wr (R.SURF_STATE b.id) (surfWord b 1), wr (R.SURF_SIZE b.id) (d.surfBytes b / 1024),
  ext fun x => { x with surf := KV.set {} x.surf b.id {} },
  storeUpd (surfCode b.id) fun _ => surfStore d b,
  refSync, planUpdate]

theorem surfAllocate_writes (b : SurfaceAllocBody) : (surfAllocate b).Writes surfaceWord := by
  have hr : refSync.Writes surfaceWord := writes_refSync fun _ => by simp [surfaceWord]
  simp [surfAllocate, storeUpd, hr, planUpdate_writes, surfaceWord]

theorem surfAllocate_ctl (b : SurfaceAllocBody) : (surfAllocate b).Fixes ctlView := by
  have hr : refSync.Fixes ctlView := fixes_refSync fun _ _ => rfl
  simp [surfAllocate, storeUpd, hr, planUpdate_fixes, ctlView]

theorem surfWord_state (b : SurfaceAllocBody) {n : Nat} (h : n < 8) : bitsOf (surfWord b n) 0 3 = n := by
  rw [bitsOf, surfWord]
  omega

/-- The surface is LOADING, and its store is the body's. -/
theorem surfAllocate_shows {b : SurfaceAllocBody} (hb : b.id < 256) (d : Dev) :
    ((surfAllocate b).run d).surfState b.id = 1 ∧ ((surfAllocate b).run d).store (surfCode b.id) = surfStore d b := by
  have hr : refSync.Fixes storesView := fixes_refSync fun _ _ => rfl
  rw [surfAllocate, run_read]
  simp only [run_seq_cons, run_seq_nil]
  constructor
  · rw [planUpdate_surfState, refSync_surfState, Dev.surfState, storeUpd_fld]
    exact (wr_fld_other _ _ (by simp)).trans ((wr_fld_self _ _ d rfl (surfState_within hb)).trans (surfWord_state b (by decide)))
  · rw [Dev.store, show ∀ e : Dev, e.x.stores = storesView e.x from fun _ => rfl, (planUpdate_fixes storesView).proj, hr.proj]
    exact storeUpd_self _ _ _

section
variable {h : Hdr} {s : State}

theorem surfaceAlloc_completes {b : SurfaceAllocBody} (ha : s.dev.Admits h (surfaceAllocSpec b))
    (hchk : (s.dev.opened h (surfaceAllocSpec b)).surfAllocCheck b = none) :
    Completes (.surfaceAlloc h b) s fun t => t.surfState b.id = 1 ∧ (t.store (surfCode b.id)).alloc = true ∧
      (t.store (surfCode b.id)).format = b.format ∧ (t.store (surfCode b.id)).sampling = b.sampling ∧
      Answered t h (surfaceAllocSpec b) .done 0 [] ∧ KeepsMem s.dev t := by
  have hb : b.id < 256 := by
    have hok := admits_ok ha
    simp only [surfaceAllocSpec, Bool.and_eq_true, decide_eq_true_eq] at hok
    exact hok.1.1
  have hw := surfAllocate_writes b
  refine (admitted_answers (body := surfAllocate b) (st := .done) (reply := []) rfl ha ?_
    (keepsIntake_of_writes hw surfaceWord_apart (surfAllocate_ctl b))).mono ?_
  · rw [surfaceAllocSpec, checked_run rfl hchk]
    simp only [surfAllocate, run_read, run_seq_cons, run_seq_nil]
    rfl
  · rintro t ⟨hans, d, hd, ht⟩
    obtain ⟨hstate, hstore⟩ := surfAllocate_shows hb d
    rw [ht.surfState, hstate, ht.store, hstore]
    exact ⟨rfl, rfl, rfl, rfl, hans, keepsMem_of_eq (by rw [ht.mem, hw.memFree.run_mem, hd.mem])⟩

/-! ### SURFACE_FREE and SURFACE_RECLAIM (R129, R131) -/

theorem surfRelease_writes (n : Nat) : (surfRelease n).Writes surfaceWord := by
  simp [surfRelease, planUpdate_writes, surfaceWord]

theorem surfRelease_ctl (n : Nat) : (surfRelease n).Fixes ctlView := by
  simp [surfRelease, planUpdate_fixes, ctlView]

/-- The surface is FREE, and its store is gone. -/
theorem surfRelease_shows {n : Nat} (hn : n < 256) (d : Dev) :
    ((surfRelease n).run d).surfState n = 0 ∧ (((surfRelease n).run d).store (surfCode n)).alloc = false := by
  rw [surfRelease]
  simp only [run_seq_cons, run_seq_nil]
  constructor
  · rw [planUpdate_surfState]
    refine (wr_fld_other _ _ (by simp)).trans ((wr_fld_other _ _ (by simp)).trans ?_)
    exact (wr_fld_self _ 0 d rfl (surfState_within hn)).trans (by simp [bitsOf])
  · rw [Dev.store, show ∀ e : Dev, e.x.stores = storesView e.x from fun _ => rfl, (planUpdate_fixes storesView).proj]
    change Store.alloc (KV.get {} (KV.set {} _ (surfCode n) {}) (surfCode n)) = false
    rw [KV.get_set_self]

/-- What a command of this unit acts on stands apart from its opening. -/
theorem effect_apart (d : Dev) (h : Hdr) (cmd : Cmd) (sp : CmdSpec) :
    CmdApart d ((committed (cmdOrig d h cmd sp)).run (d.opened h sp)) :=
  (opened_apart d h sp).trans (committed_apart _ _)

/-- A check is passed where nothing stops it. -/
theorem firstOf_eq_none {l : List (Bool × Nat)} (h : ∀ e ∈ l, e.1 = false) : firstOf l = none := by
  induction l with
  | nil => rfl
  | cons e l ih =>
    obtain ⟨c, r⟩ := e
    obtain rfl : c = false := h _ List.mem_cons_self
    exact ih fun e he => h e (List.mem_cons_of_mem _ he)

section
variable {id : Nat} (h0 : s.dev.surfState id ≠ 0) (h4 : s.dev.surfState id ≠ 4)
include h0 h4

/-- A surface that is not FREE or DEFERRED is freed, or while it is referenced becomes DEFERRED. -/
theorem surfaceFree_run : let o := cmdOrig s.dev h (.surfaceFree id) (surfaceFreeSpec id)
    let e := (committed o).run (s.dev.opened h (surfaceFreeSpec id))
    ((surfaceFreeSpec id).prog o).run (s.dev.opened h (surfaceFreeSpec id)) =
      if 0 < s.dev.rd (R.SURF_REFS id) then
        (sendCompletion o.id true .deferred 0 0 []).run ((setF (F.SURF_STATE_state id) 4).run e)
      else (sendCompletion o.id true .done 0 0 []).run ((surfRelease id).run e) := by
  intro o e
  have hd : CmdApart s.dev e := effect_apart s.dev h (.surfaceFree id) (surfaceFreeSpec id)
  have hstate := (opened_apart s.dev h (surfaceFreeSpec id)).surfState id
  refine (checked_run (chk := fun d => firstOf [(d.surfState id == 0, Reason.badField)]) rfl
    (firstOf_eq_none (by simpa [hstate] using h0)) _).trans ?_
  rw [run_read, if_neg (by rwa [hd.surfState]), hd.rd (by simp [commandWord])]
  split
  · rw [run_seq_cons, run_seq_cons, run_seq_nil]
  · rw [run_seq_cons, run_seq_cons, run_seq_nil, finish]

theorem surfaceFree_frees (ha : s.dev.Admits h (surfaceFreeSpec id)) (hr : s.dev.rd (R.SURF_REFS id) = 0) :
    Completes (.surfaceFree h id) s fun t => t.surfState id = 0 ∧ (t.store (surfCode id)).alloc = false ∧
      Answered t h (surfaceFreeSpec id) .done 0 [] ∧ KeepsMem s.dev t := by
  have hn : id < 256 := by simpa [surfaceFreeSpec] using admits_ok ha
  have hw := surfRelease_writes id
  refine (admitted_answers (body := surfRelease id) (st := .done) (reply := []) rfl ha ?_
    (keepsIntake_of_writes hw surfaceWord_apart (surfRelease_ctl id))).mono ?_
  · exact (surfaceFree_run h0 h4).trans (if_neg (by omega))
  · rintro t ⟨hans, d, hd, ht⟩
    obtain ⟨hstate, hstore⟩ := surfRelease_shows hn d
    rw [ht.surfState, hstate, ht.store, hstore]
    exact ⟨rfl, rfl, hans, keepsMem_of_eq (by rw [ht.mem, hw.memFree.run_mem, hd.mem])⟩

theorem surfaceFree_defers (ha : s.dev.Admits h (surfaceFreeSpec id)) (hr : 0 < s.dev.rd (R.SURF_REFS id)) :
    Completes (.surfaceFree h id) s fun t => t.surfState id = 4 ∧ Answered t h (surfaceFreeSpec id) .deferred 0 [] ∧
      KeepsMem s.dev t := by
  have hn : id < 256 := by simpa [surfaceFreeSpec] using admits_ok ha
  have hw : (setF (F.SURF_STATE_state id) 4).Writes surfaceWord := by simp [surfaceWord]
  refine (admitted_answers (body := setF (F.SURF_STATE_state id) 4) (st := .deferred) (reply := []) rfl ha ?_
    (keepsIntake_of_writes hw surfaceWord_apart (fixes_setF _ _))).mono ?_
  · exact (surfaceFree_run h0 h4).trans (if_pos hr)
  · rintro t ⟨hans, d, hd, ht⟩
    rw [ht.surfState, Dev.surfState, setF_fld_self _ _ _ (surfState_within hn)]
    exact ⟨rfl, hans, keepsMem_of_eq (by rw [ht.mem, hw.memFree.run_mem, hd.mem])⟩

end

theorem surfaceReclaim_completes {id : Fin 256} (hl : s.dev.live = true) (h4 : s.dev.surfState id = 4)
    (hh : ∀ e ∈ s.dev.refHolders, e.1 ≠ id.val)
    (hr : s.dev.rd (R.SURF_REFS id) = (s.dev.x.surfRefs.filter fun e => e.1 == id.val).length) :
    Completes (.surfaceReclaim id) s fun t =>
      t.surfState id = 0 ∧ (t.store (surfCode id)).alloc = false ∧ KeepsMem s.dev t := by
  have hcond : ((refSync.run s.dev).surfState id == 4 && (refSync.run s.dev).rd (R.SURF_REFS id) == 0) = true := by
    rw [refSync_surfState, h4, refSync_releases id.isLt hh hr]
    rfl
  have hsync : refSync.Writes surfaceWord := writes_refSync fun _ => by simp [surfaceWord]
  refine completes_of_live rfl hl ?_
  rw [run_seq_cons, run_seq_cons, run_seq_nil, run_doWhen, hcond, if_pos rfl]
  obtain ⟨hstate, hstore⟩ := surfRelease_shows id.isLt (refSync.run s.dev)
  have ht := CmdApart.settled ((surfRelease id).run (refSync.run s.dev))
  rw [ht.surfState, hstate, ht.store, hstore]
  exact ⟨rfl, rfl, keepsMem_of_eq (by rw [ht.mem, (surfRelease_writes _).memFree.run_mem, hsync.memFree.run_mem])⟩

/-! ### SURFACE_QUERY (R129) -/

theorem surfaceQuery_completes {id : Nat} (ha : s.dev.Admits h (surfaceQuerySpec id)) :
    Completes (.surfaceQuery h id) s fun t =>
      Answered t h (surfaceQuerySpec id) .done 0 [s.dev.surfState id, s.dev.rd (R.SURF_REFS id), (s.dev.surfm id).written] ∧
      KeepsRegs s.dev t commandWord ∧ KeepsMem s.dev t := by
  have hd := opened_apart s.dev h (surfaceQuerySpec id)
  have hopen : s.dev.intakeOpen h.intake = true := ha.2.1
  obtain ⟨hans, ht⟩ := sendCompletion_answers (opened_find s.dev h (surfaceQuerySpec id))
    (by rw [KeepsIntake.open_eq hd.frame.intake, hopen]) .done 0
    [s.dev.surfState id, s.dev.rd (R.SURF_REFS id), (s.dev.surfm id).written]
  refine completes_of_live rfl ha.1 ?_
  have hrun : (rygus h (.surfaceQuery id) (surfaceQuerySpec id)).run s.dev =
      (sendCompletion s.dev.x.ctl.fresh true .done 0 0
        [s.dev.surfState id, s.dev.rd (R.SURF_REFS id), (s.dev.surfm id).written]).run (s.dev.opened h (surfaceQuerySpec id)) := by
    rw [rygus_run ha, ← hd.surfState, ← hd.rd (r := R.SURF_REFS id) (by simp [commandWord]), ← hd.surfm]
    rfl
  rw [hrun]
  exact ⟨hans, (hd.trans ht).regs, keepsMem_of_eq (hd.trans ht).mem⟩

end

end Sys2Proof.Machine
end

section
/-!
PROOFS. What is written of a surface's image, and the frame that is published: R75, R129, R130, R131.
-/

namespace Sys2Proof.Machine

/-- The register that shows a surface's state. -/
def surfStateWord (r : Reg) : Prop := r.kind = .SURF_STATE

/-- A script that reaches no more than a surface's state and memory leaves the intakes. -/
theorem keepsIntake_of_touches {p : Prog} (h : p.Touches surfStateWord ctlView) (d : Dev) : KeepsIntake d (p.run d) :=
  ⟨h.proj d, fun r hr => h.keepsRegs d r fun hs => by simp [intakeWord, show r.kind = .SURF_STATE from hs] at hr⟩

/-! ### SURFACE_WRITE (R129, R130) -/

/-- Where byte `i` of a write lies. -/
def Dev.surfPlace (d : Dev) (b : SurfaceWriteBody) (i : Nat) : Nat :=
  (d.store (surfCode b.id)).imageAddr d.grain (d.surfm b.id).loading (b.offset + i)

/-- The bytes of a write go to their places. -/
def surfImage (d : Dev) (b : SurfaceWriteBody) : Prog :=
  each b.data.zipIdx fun e => memWrite (d.surfPlace b e.2) [e.1]

/-- The surface is written, and its loading buffer is ahead of its current one. -/
def surfMark (d : Dev) (b : SurfaceWriteBody) : Prog := seq [
  doIf (d.surfState b.id == 2 || d.surfState b.id == 3)
    (setF (F.SURF_STATE_state b.id) (if (d.store (surfCode b.id)).depth = 2 then 3 else 1)),
  doIf (d.surfState b.id == 2 && (d.store (surfCode b.id)).depth == 1)
    (storeUpd (surfCode b.id) fun st => { st with frames := [] }),
  surfUpd b.id fun m => { m with written := m.written + b.data.length, dirty := true }]

/-- What SURFACE_WRITE does. -/
def surfFill (b : SurfaceWriteBody) : Prog := .read fun d => .andThen (surfImage d b) (surfMark d b)

theorem surfMark_writes (d : Dev) (b : SurfaceWriteBody) : (surfMark d b).Writes surfStateWord := by
  simp [surfMark, surfUpd, storeUpd, surfStateWord]

theorem surfFill_touches (b : SurfaceWriteBody) : (surfFill b).Touches surfStateWord ctlView := by
  have hmark : ∀ d, (surfMark d b).Touches surfStateWord ctlView := fun d =>
    (surfMark_writes d b).touches (by simp [surfMark, surfUpd, storeUpd, ctlView])
  simp [surfFill, surfImage, hmark, ctlView]

theorem surfFill_mem (b : SurfaceWriteBody) (d : Dev) : ((surfFill b).run d).mem = ((surfImage d b).run d).mem :=
  (surfMark_writes d b).memFree.run_mem _

/-- A byte outside the places of a write is as before. -/
theorem surfImage_other {b : SurfaceWriteBody} {d : Dev} {a : Nat} (h : ∀ i < b.data.length, d.surfPlace b i ≠ a) :
    ((surfImage d b).run d).mem.get a = d.mem.get a := by
  refine each_keeps_of_mem (P := fun e => e.mem.get a = d.mem.get a) (fun c hc e he => ?_) d rfl
  have hne := h c.2 (List.snd_lt_of_mem_zipIdx hc)
  exact (memWrite_get_other e (by rw [List.length_singleton]; omega)).trans he

/-- A byte that is the only one written reads back, where its place exists and is not lost. -/
theorem surfImage_single {b : SurfaceWriteBody} {d : Dev} {v : Byte} (hv : b.data = [v]) (ha : memAddr (d.surfPlace b 0) = true)
    (hl : d.memLost d.faultChans (d.surfPlace b 0) = false) : ((surfImage d b).run d).mem.get (d.surfPlace b 0) = v := by
  have hput := memPut_get_at (d.memLost d.faultChans) [v] d.mem (d.surfPlace b 0) 0 Nat.one_pos
  rw [Nat.add_zero, ha, hl] at hput
  rw [surfImage, hv]
  exact hput

section
variable {h : Hdr} {s : State}

theorem CmdApart.surfPlace {d e : Dev} (h : CmdApart d e) (b : SurfaceWriteBody) (i : Nat) : e.surfPlace b i = d.surfPlace b i := by
  rw [Dev.surfPlace, h.store, h.grain, h.surfm, Dev.surfPlace]

theorem CmdApart.surfaceWriteCheck {d e : Dev} (h : CmdApart d e) (b : SurfaceWriteBody) :
    e.surfaceWriteCheck b = d.surfaceWriteCheck b := by
  rw [Dev.surfaceWriteCheck, h.store, h.surfm, h.surfState, h.rd (by simp [commandWord]), Dev.surfaceWriteCheck]

theorem surfaceWrite_completes {b : SurfaceWriteBody} (ha : s.dev.Admits h (surfaceWriteSpec b))
    (hchk : s.dev.surfaceWriteCheck b = none) : Completes (.surfaceWrite h b) s fun t =>
      (∀ a, (∀ i < b.data.length, s.dev.surfPlace b i ≠ a) → t.mem.get a = s.dev.mem.get a) ∧
      (∀ v, b.data = [v] → memAddr (s.dev.surfPlace b 0) = true →
        s.dev.memLost s.dev.faultChans (s.dev.surfPlace b 0) = false → t.mem.get (s.dev.surfPlace b 0) = v) ∧
      Answered t h (surfaceWriteSpec b) .done 0 [] := by
  have hopened := opened_apart s.dev h (surfaceWriteSpec b)
  refine (admitted_answers (body := surfFill b) (st := .done) (reply := []) rfl ha ?_
    (keepsIntake_of_touches (surfFill_touches b))).mono ?_
  · refine (checked_run (chk := fun d => d.surfaceWriteCheck b) rfl (by rw [hopened.surfaceWriteCheck, hchk]) _).trans ?_
    simp only [surfFill, surfMark, run_read, run_seq_cons, run_seq_nil]
    rfl
  · rintro t ⟨hans, d, hd, ht⟩
    have hmem : t.mem = ((surfImage d b).run d).mem := by rw [ht.mem, surfFill_mem]
    simp only [hmem, ← hd.mem, ← hd.surfPlace b]
    refine ⟨fun a hout => surfImage_other hout, fun v hv hm hl => surfImage_single hv hm ?_, hans⟩
    rw [hd.memLost, hd.fault, hl]

/-! ### SURFACE_PUBLISH (R130) -/

/-- The record of the frame that is published. -/
def surfRecord (d : Dev) (n : Nat) : FrameRec :=
  let st := d.store (surfCode n)
  { source := surfCode n, format := st.format, slot := (d.surfm n).loading, sampling := st.sampling, seq := (d.surfm n).seq + 1
    t := d.x.time.ht, kind := 3, depth := 2
    tilesRaw := tileCount st.format st.sampling, sectors := 96 * tileCount st.format st.sampling }

/-- The loading buffer becomes current. -/
def surfCurrent (d : Dev) (n : Nat) : Prog := seq [
  storeUpd (surfCode n) fun st => { st with
    frames := [{ rcd := surfRecord d n, due := d.x.time.ht, phase := .complete }], producing := true },
  surfUpd n fun m => { m with
    front := some m.loading, loading := if (d.store (surfCode n)).depth = 2 then 1 - m.loading else 0, dirty := false
    written := 0, seq := m.seq + 1 },
  setF (F.SURF_STATE_state n) 2]

/-- What SURFACE_PUBLISH does. -/
def surfShow (n : Nat) : Prog := .read fun d =>
  doIf (d.surfm n).dirty (.andThen (surfSeal n (d.surfm n).loading (surfRecord d n)) (surfCurrent d n))

/-- Sealing a buffer writes memory only. -/
theorem surfSeal_touches {α : Type} {but : Reg → Prop} {π : Ext → α} (hπ : ∀ x l, π { x with poison := l } = π x) (n slot : Nat)
    (r : FrameRec) : (surfSeal n slot r).Touches but π := by
  simp [surfSeal, hπ]

theorem surfShow_touches (n : Nat) : (surfShow n).Touches surfStateWord ctlView := by
  have hseal : ∀ slot r, (surfSeal n slot r).Touches surfStateWord ctlView := surfSeal_touches (fun _ _ => rfl) n
  simp [surfShow, surfCurrent, hseal, storeUpd, surfUpd, surfStateWord, ctlView]

/-- What surfaces hold beside their registers. -/
def surfView (x : Ext) : KV SurfMem := x.surf

theorem surfUpd_surfm (n : Nat) (u : SurfMem → SurfMem) (d : Dev) : ((surfUpd n u).run d).surfm n = u (d.surfm n) :=
  KV.get_upd_self _ _ _ _
theorem surfUpd_store (n k : Nat) (u : SurfMem → SurfMem) (d : Dev) : ((surfUpd n u).run d).store k = d.store k := rfl
theorem storeUpd_surfm (n k : Nat) (u : Store → Store) (d : Dev) : ((storeUpd n u).run d).surfm k = d.surfm k := rfl
theorem setF_store (f : Field) (v : Nat) (d : Dev) (n : Nat) : ((setF f v).run d).store n = d.store n := by simp [Dev.store]
theorem setF_surfm (f : Field) (v : Nat) (d : Dev) (n : Nat) : ((setF f v).run d).surfm n = d.surfm n := by simp [Dev.surfm]

/-- The surface is READY, and its store holds one complete frame in what was the loading buffer. -/
theorem surfShow_shows {n : Nat} {d : Dev} (hn : n < 256) (hd : (d.surfm n).dirty = true) : let e := (surfShow n).run d
    e.surfState n = 2 ∧
    (∃ fr, (e.store (surfCode n)).frames = [fr] ∧ fr.phase = .complete ∧ fr.rcd.slot = (d.surfm n).loading) ∧
    (e.surfm n).front = some (d.surfm n).loading ∧ (e.surfm n).dirty = false := by
  have hseal : (surfSeal n (d.surfm n).loading (surfRecord d n)).Touches (fun _ => False) surfView :=
    surfSeal_touches (fun _ _ => rfl) n _ _
  have hloading : (((surfSeal n (d.surfm n).loading (surfRecord d n)).run d).surfm n).loading = (d.surfm n).loading :=
    congrArg (fun v => (KV.get {} v n).loading) (hseal.proj d)
  have hrun : (surfShow n).run d =
      (surfCurrent d n).run ((surfSeal n (d.surfm n).loading (surfRecord d n)).run d) := by
    rw [surfShow, run_read, hd]
    rfl
  rw [hrun]
  generalize (surfSeal n (d.surfm n).loading (surfRecord d n)).run d = e at hloading
  rw [surfCurrent]
  simp only [run_seq_cons, run_seq_nil, setF_store, setF_surfm, surfUpd_store, surfUpd_surfm, storeUpd_self, storeUpd_surfm]
  exact ⟨setF_fld_self _ _ _ (surfState_within hn), ⟨_, rfl, rfl, rfl⟩, congrArg some hloading, trivial⟩

theorem surfacePublish_completes {id : Nat} (ha : s.dev.Admits h (surfacePublishSpec id)) (hdirty : (s.dev.surfm id).dirty = true)
    (h0 : s.dev.surfState id ≠ 0) (h4 : s.dev.surfState id ≠ 4) : Completes (.surfacePublish h id) s fun t =>
      t.surfState id = 2 ∧
      (∃ fr, (t.store (surfCode id)).frames = [fr] ∧ fr.phase = .complete ∧ fr.rcd.slot = (s.dev.surfm id).loading) ∧
      (t.surfm id).front = some (s.dev.surfm id).loading ∧ (t.surfm id).dirty = false ∧
      Answered t h (surfacePublishSpec id) .done 0 [] := by
  have hn : id < 256 := by simpa [surfacePublishSpec] using admits_ok ha
  have hstate := (opened_apart s.dev h (surfacePublishSpec id)).surfState id
  refine (admitted_answers (body := surfShow id) (st := .done) (reply := []) rfl ha ?_
    (keepsIntake_of_touches (surfShow_touches id))).mono ?_
  · refine (checked_run (chk := fun d => firstOf [
      (d.surfState id == 0, Reason.badField), (d.surfState id == 4, Reason.surfaceBusy)]) rfl
      (firstOf_eq_none (by simpa [hstate] using ⟨h0, h4⟩)) _).trans ?_
    rw [run_read, run_seq_cons, run_seq_cons, run_seq_nil, surfShow, run_read]
    rfl
  · rintro t ⟨hans, d, hd, ht⟩
    obtain ⟨hready, hframe, hfront, hclean⟩ := surfShow_shows hn (d := d) (by rw [hd.surfm, hdirty])
    rw [ht.surfState, ht.store, ht.surfm, ← hd.surfm]
    exact ⟨hready, hframe, hfront, hclean, hans⟩

end

/-- Settles O27: a surface's command leaves all but the commands' own state around its effect, which is then read off the surface's
state, its store and its loading buffer. -/
theorem surfacesAreWrittenPublishedAndFreed : Obligations.SurfacesAreWrittenPublishedAndFreed := fun _ _ =>
  ⟨fun _ => surfaceAlloc_completes, fun _ => surfaceWrite_completes, fun _ => surfacePublish_completes,
    fun _ ha h0 h4 => ⟨surfaceFree_frees h0 h4 ha, surfaceFree_defers h0 h4 ha⟩, fun _ => surfaceQuery_completes,
    fun _ => surfaceReclaim_completes⟩

end Sys2Proof.Machine
end

section
/-!
PROOFS. A command that is committed or rejected without a body of its own, and what a command does not touch that its chapter's
checks and effects depend on: R405, R437, R440, R442.
-/

namespace Sys2Proof.Machine

/-! ### What completions and setting a command's state leave -/

/-- What delivering completions changes of the typed state lies in what the control complex holds beside the commands in progress,
and in what has left the device. -/
def DeliveryBlind {α : Type} (π : Ext → α) : Prop := ∀ x c o, c.cmds = x.ctl.cmds → π { x with ctl := c, out := o } = π x

/-- What completions change of the typed state lies in what the control complex holds and what has left the device. -/
def CplBlind {α : Type} (π : Ext → α) : Prop := ∀ x c o, π { x with ctl := c, out := o } = π x

/-- What a completion makes of the commands in progress. -/
def cplCmds (id : Nat) (final : Bool) (st : CmdState) (l : List CmdRec) : List CmdRec :=
  if final then l.filter fun e => e.id ≠ id
  else l.map fun e => if e.id = id then { e with state := st, reserved := e.reserved - 1 } else e

section
variable {α : Type} {π : Ext → α}

section
variable (h : DeliveryBlind π)
include h

theorem fixes_deliver (i : Intake) (final : Bool) (c : Completion) : (deliver i final c).Fixes π := by
  have hemit : ∀ o, (emit o).Fixes π := fun o x => h x x.ctl (x.out ++ [o]) rfl
  have hring : ∀ r f, (ringUpd r f).Fixes π := fun r f x => h x _ x.out rfl
  have hsess : ∀ s f, (sessUpd s f).Fixes π := fun s f x => h x _ x.out rfl
  cases i <;> simp [deliver, cqWrite, sessSend, dropCpl, hemit, hring, hsess]

theorem fixes_deliverHandover (k : Nat) (final : Bool) (c : Completion) : (deliverHandover k final c).Fixes π := by
  have hr : ∀ r slot, (cqWrite r slot c).Fixes π := fun r slot => fixes_deliver h (.ring r slot) final c
  have hs : ∀ s, (sessSend s final c).Fixes π := fun s => fixes_deliver h (.session s) final c
  simp [deliverHandover, dropCpl, hr, hs]

theorem fixes_sendCompletion_of {id : Nat} {final : Bool} {st : CmdState}
    (hg : ∀ g : CtlState → CtlState, (∀ c, (g c).cmds = cplCmds id final st c.cmds) → (ctlUpd g).Fixes π)
    (reason flags : Nat) (body : List Nat) : (sendCompletion id final st reason flags body).Fixes π := by
  have hring : ∀ r f, (ringUpd r f).Fixes π := fun r f x => h x _ x.out rfl
  simp only [sendCompletion, acts_read]
  intro d
  split
  · exact acts_nop
  · refine (acts_seq_cons _ _).2 ⟨?_, (acts_seq_cons _ _).2 ⟨?_, acts_seq_nil⟩⟩
    · split
      · simp [dropCpl, fixes_deliver h]
      · simp [fixes_deliverHandover h]
    · split
      · next hf =>
        refine (acts_seq_cons _ _).2 ⟨hg _ fun c => (if_pos hf).symm, ?_⟩
        simp only [acts_seq_cons, acts_seq_nil, and_true, acts_doIf, fixes_inc, cmdStatus_fixes, implies_true]
        split <;> simp [hring]
      · next hf =>
        refine (acts_seq_cons _ _).2 ⟨hg _ fun c => (if_neg hf).symm, ?_⟩
        simp only [acts_seq_cons, acts_seq_nil, and_true]
        split <;> simp [hring]

end

section
variable (h : CplBlind π)
include h

theorem fixes_sendCompletion (id : Nat) (final : Bool) (st : CmdState) (reason flags : Nat) (body : List Nat) :
    (sendCompletion id final st reason flags body).Fixes π :=
  fixes_sendCompletion_of (fun x c o _ => h x c o) (fun g _ x => h x (g x.ctl) x.out) reason flags body

theorem fixes_finish (id flags : Nat) (body : List Nat) : (finish id flags body).Fixes π :=
  fixes_sendCompletion h id true .done 0 flags body

theorem setCmdState_cmdFixes (id : Nat) (st : CmdState) : (setCmdState id st).Fixes π := fun x => h x _ x.out

end

end

theorem deliver_writes (i : Intake) (final : Bool) (c : Completion) : (deliver i final c).Writes commandWord := by
  cases i with
  | ring r slot => exact cqWrite_writes r slot c
  | session s => exact sessSend_writes s final c

theorem dropCpl_writes : dropCpl.Writes commandWord := by simp [dropCpl, commandWord]

theorem deliverHandover_writes (k : Nat) (final : Bool) (c : Completion) : (deliverHandover k final c).Writes commandWord := by
  simp [deliverHandover, dropCpl_writes, cqWrite_writes, sessSend_writes]

theorem sendCompletion_writes (id : Nat) (final : Bool) (st : CmdState) (reason flags : Nat) (body : List Nat) :
    (sendCompletion id final st reason flags body).Writes commandWord := by
  have hrejected : commandWord R.CMD_CNT_REJECTED := by simp [commandWord]
  simp only [sendCompletion, acts_read]
  intro d
  split
  · exact acts_nop
  · refine (acts_seq_cons _ _).2 ⟨?_, (acts_seq_cons _ _).2 ⟨?_, acts_seq_nil⟩⟩
    · split
      · simp [dropCpl_writes, deliver_writes]
      · simp [deliverHandover_writes]
    · split
      · simp only [acts_seq_cons, ctlUpd_writes, acts_doIf, writes_inc, hrejected, cmdStatus_writes, acts_seq_nil, and_true,
          true_and, implies_true]
        split <;> simp [ringUpd]
      · simp only [acts_seq_cons, ctlUpd_writes, acts_seq_nil, and_true, true_and]
        split <;> simp [ringUpd]

theorem finish_writes (id flags : Nat) (body : List Nat) : (finish id flags body).Writes commandWord :=
  sendCompletion_writes id true .done 0 flags body

/-! ### What a device keeps apart from commands -/

section
variable {d e : Dev} (h : CmdApart d e)
include h

theorem CmdApart.proj {α : Type} {π : Ext → α} (hπ : CplBlind π) : π e.x = π d.x :=
  (hπ e.x {} []).symm.trans ((congrArg π h.rest).trans (hπ d.x {} []))

theorem CmdApart.flag {f : Field} (hr : ¬ commandWord f.reg) : e.flag f = d.flag f := h.frame.flag hr
theorem CmdApart.time : e.x.time = d.x.time := h.frame.time
theorem CmdApart.dstm (n : Nat) : e.dstm n = d.dstm n := h.proj (π := fun x => KV.get ({} : DstMem) x.dst n) fun _ _ _ => rfl
theorem CmdApart.chain (c : Nat) : e.chain c = d.chain c := h.proj (π := fun x => KV.get ({} : ChainMem) x.chains c) fun _ _ _ => rfl
theorem CmdApart.otgm (n : Nat) : e.otgm n = d.otgm n := by rw [Dev.otgm, h.time, Dev.otgm]
theorem CmdApart.otgFrame (n : Nat) : e.otgFrame n = d.otgFrame n := by
  rw [Dev.otgFrame, Dev.rd64, h.rd (by simp [commandWord]), h.rd (by simp [commandWord]), Dev.otgFrame, Dev.rd64]

theorem CmdApart.scale (n : Nat) : e.scale n = d.scale n := by
  rw [Dev.scale, Dev.tbOwn, Dev.tbm, h.time, h.fld (by simp [commandWord]), Dev.scale, Dev.tbOwn, Dev.tbm]

theorem CmdApart.dstTiming (n : Nat) : e.dstTiming n = d.dstTiming n := by
  rw [Dev.dstTiming, h.dstm, h.fld (by simp [commandWord]), h.otgm, h.otgFrame, Dev.dstTiming]

theorem CmdApart.boundary (n : Nat) : e.boundary n = d.boundary n := by
  rw [Dev.boundary, Dev.toHt, h.dstTiming, h.scale, h.time, Dev.boundary, Dev.toHt]

theorem CmdApart.landing (n : Nat) (c : Int) (field2 : Bool) : e.landing n c field2 = d.landing n c field2 := by
  rw [Dev.landing, Dev.fieldTakes, Dev.opqLead, h.dstTiming, h.boundary, h.dstm, h.flag (by simp [commandWord]),
    h.flag (by simp [commandWord]), h.fld (by simp [commandWord]), Dev.landing, Dev.fieldTakes, Dev.opqLead]

theorem CmdApart.frameDue (dest count : Nat) : e.frameDue dest count = d.frameDue dest count := by
  rw [Dev.frameDue, h.dstTiming, Dev.frameDue]

end

/-! ### Commands that end without a body of their own -/

section
variable {c : Instr} {s : State} {h : Hdr} {cmd : Cmd} {sp : CmdSpec}

/-- An admitted command that its chapter's checks reject is answered, and only the commands' own state changes (R442). -/
theorem admitted_rejects {chk : Dev → Option Nat} {p : Prog} {r : Nat} (hc : exec c s = perform .core (rygus h cmd sp) s)
    (ha : s.dev.Admits h sp) (hp : sp.prog (cmdOrig s.dev h cmd sp) = checked (cmdOrig s.dev h cmd sp) chk p)
    (hr : chk (s.dev.opened h sp) = some r) :
    Completes c s fun t => Answered t h sp .rejected r [] ∧ CmdApart s.dev t := by
  have hd := opened_apart s.dev h sp
  have hopen : s.dev.intakeOpen h.intake = true := ha.2.1
  obtain ⟨hans, ht⟩ := sendCompletion_answers (opened_find s.dev h sp)
    (by rw [KeepsIntake.open_eq hd.frame.intake, hopen]) .rejected r []
  refine completes_of_live hc ha.1 ?_
  have hrun : (rygus h cmd sp).run s.dev =
      (sendCompletion s.dev.x.ctl.fresh true .rejected r 0 []).run (s.dev.opened h sp) := by
    rw [rygus_run ha, hp, checked, run_read]
    simp only [hr, cmdOrig, Bool.false_eq_true, if_false]
    rfl
  rw [hrun]
  exact ⟨hans, hd.trans ht⟩

/-- An admitted command that its chapter's checks pass has its effect on a device that stands apart from its opening. -/
theorem admitted_commits {chk : Dev → Option Nat} {body : Prog} {P : Dev → Prop}
    (hc : exec c s = perform .core (rygus h cmd sp) s) (ha : s.dev.Admits h sp)
    (hp : sp.prog (cmdOrig s.dev h cmd sp) = checked (cmdOrig s.dev h cmd sp) chk body)
    (hchk : chk (s.dev.opened h sp) = none) (hP : ∀ e, CmdApart s.dev e → P (settle.run (body.run e))) : Completes c s P := by
  refine completes_of_live hc ha.1 ?_
  rw [rygus_run ha, hp, checked_run rfl hchk]
  exact hP _ (effect_apart _ _ _ _)

end

end Sys2Proof.Machine
end

section
/-!
PROOFS. The holds of a destination: R114, R115, R441.
-/

namespace Sys2Proof.Machine

/-- The state that a hold command sets: PROTECTED, LOCKED or FREE. -/
def holdState : Nat → Nat
  | 0 => 1
  | 1 => 2
  | _ => 0

/-- What a hold command does. -/
def holdPut (op : Nat) (b : HoldBody) : Prog := seq [
  setF (F.DST_HOLD_state b.dest) (holdState op), setF (F.DST_HOLD_owner b.dest) (if op < 2 then b.controller else 0), xptSave b.dest]

theorem holdPut_writes (op : Nat) (b : HoldBody) : (holdPut op b).Writes fun r => r = R.DST_HOLD b.dest := by
  simp [holdPut, xptSave, mramPut]

theorem holdPut_ctl (op : Nat) (b : HoldBody) : (holdPut op b).Fixes ctlView := by
  simp [holdPut, xptSave, mramPut, ctlView]

theorem xptSave_fld (n : Nat) (f : Field) (d : Dev) : ((xptSave n).run d).fld f = d.fld f := rfl

theorem holdPut_shows {op : Nat} {b : HoldBody} (hb : b.dest < 1024) (d : Dev) :
    ((holdPut op b).run d).fld (F.DST_HOLD_state b.dest) = holdState op ∧
    ((holdPut op b).run d).fld (F.DST_HOLD_owner b.dest) = if op < 2 then b.controller % 2 ^ 16 else 0 := by
  have hstate : (F.DST_HOLD_state b.dest).within = true :=
    Field.within_of_hasBits (Reg.valid_indexed rfl hb) (show hasBits .DST_HOLD 16 2 = true by decide)
  have howner : (F.DST_HOLD_owner b.dest).within = true :=
    Field.within_of_hasBits (Reg.valid_indexed rfl hb) (show hasBits .DST_HOLD 0 16 = true by decide)
  have hle : holdState op < 4 := by
    unfold holdState
    split <;> decide
  rw [holdPut]
  simp only [run_seq_cons, run_seq_nil, xptSave_fld]
  constructor
  · rw [setF_keepsFld (f := F.DST_HOLD_owner b.dest) hstate (fun _ => .inr (by simp)), setF_fld_self _ _ _ hstate]
    exact Nat.mod_eq_of_lt hle
  · rw [setF_fld_self _ _ _ howner]
    split
    · rfl
    · exact Nat.zero_mod _

/-- A hold message, with its op, and what becomes of it. -/
theorem hold_completes {i : Instr} {h : Hdr} {op : Nat} {b : HoldBody} {s : State}
    (hi : exec i s = perform .core (rygus h (.hold op b) (holdSpec op b)) s) (ha : s.dev.Admits h (holdSpec op b)) :
    ((s.dev.opened h (holdSpec op b)).holdCheck op b b.controller = none → Completes i s fun t =>
      t.fld (F.DST_HOLD_state b.dest) = holdState op ∧
      t.fld (F.DST_HOLD_owner b.dest) = (if op < 2 then b.controller % 2 ^ 16 else 0) ∧
      Answered t h (holdSpec op b) .done 0 [] ∧
      KeepsRegs s.dev t (fun r => commandWord r ∨ r = R.DST_HOLD b.dest) ∧ KeepsMem s.dev t) ∧
    (∀ reason, (s.dev.opened h (holdSpec op b)).holdCheck op b b.controller = some reason → Completes i s fun t =>
      Answered t h (holdSpec op b) .rejected reason [] ∧ KeepsRegs s.dev t commandWord ∧ KeepsMem s.dev t) := by
  have hok : (decide (b.dest < 1024) && decide (op < 4)) = true := admits_ok ha
  obtain ⟨hb, -⟩ : b.dest < 1024 ∧ op < 4 := by simpa using hok
  have hw := holdPut_writes op b
  constructor
  · intro hchk
    refine (admitted_answers (body := holdPut op b) (st := .done) (reply := []) hi ha ?_
      (keepsIntake_of_writes hw (by rintro r rfl; simp [intakeWord]) (holdPut_ctl op b))).mono ?_
    · refine (checked_run (chk := fun d => d.holdCheck op b b.controller) rfl hchk _).trans ?_
      simp only [holdPut, run_seq_cons, run_seq_nil]
      rfl
    · rintro t ⟨hans, d, hd, ht⟩
      obtain ⟨hstate, howner⟩ := holdPut_shows (op := op) hb d
      rw [ht.fld (by simp [commandWord]), ht.fld (by simp [commandWord])]
      refine ⟨hstate, howner, hans, fun r hr => ?_, keepsMem_of_eq (by rw [ht.mem, hw.memFree.run_mem, hd.mem])⟩
      obtain ⟨hcmd, hhold⟩ := not_or.1 hr
      rw [ht.regs r hcmd, hw.keepsRegs d r hhold, hd.regs r hcmd]
  · intro reason hchk
    refine (admitted_rejects (chk := fun d => d.holdCheck op b b.controller) hi ha rfl hchk).mono ?_
    exact fun t ⟨hans, ht⟩ => ⟨hans, ht.regs, keepsMem_of_eq ht.mem⟩

/-- Settles O25: each of the four messages is a hold message with its op. -/
theorem holdsAreTakenAndReleased : Obligations.HoldsAreTakenAndReleased := by
  unfold Obligations.HoldsAreTakenAndReleased
  intro h b s e he
  simp only [List.mem_cons, List.not_mem_nil, or_false] at he
  rcases he with rfl | rfl | rfl | rfl
  · exact hold_completes (op := 0) rfl
  · exact hold_completes (op := 1) rfl
  · exact hold_completes (op := 2) rfl
  · exact hold_completes (op := 3) rfl

end Sys2Proof.Machine
end

section
/-!
PROOFS. A destination fetches tile rows, builds lines, and measures the frame it has emitted: R122, R128, R189, R190.
-/

namespace Sys2Proof.Machine

/-! ### Fetching (R128) -/

section
variable {n : DstId} {layer : Fin 3} {s : State}

/-- A change of one layer's selection is what the layer then shows. -/
theorem dstUpd_layerSel (n layer : Nat) (u : LayerSel → LayerSel) (d : Dev) :
    ((dstUpd n fun m => { m with sel := KV.upd {} m.sel layer u }).run d).layerSel n layer = u (d.layerSel n layer) := by
  rw [Dev.layerSel, dstUpd_self]
  exact KV.get_upd_self _ _ _ _

@[simp] theorem settle_layerSel (n layer : Nat) (d : Dev) : (settle.run d).layerSel n layer = d.layerSel n layer := by
  rw [Dev.layerSel, settle_dstm, Dev.layerSel]

/-- A row of a complete frame without an uncorrectable error counts as fetched; after the last row the slot is let go. -/
theorem fetchRow_complete_run {row : Nat} {d : Dev} {f : Frame} (hr : d.dstRuns n = true) (ho : (d.layerSel n layer).off = false)
    (hs : (d.layerSel n layer).slot.isSome = true) (hf : d.selFrame (d.layerSel n layer) = some f) (hc : f.phase = .complete)
    (he : d.rowErrors (d.store (d.layerSel n layer).code) f row = 0) : (fetchRow n layer row).run d =
      (doIf (row + 1 == tileRows f.rcd.format) (hold (d.layerSel n layer).code (.dst n layer) none)).run
        ((dstUpd n fun m => { m with sel := KV.upd {} m.sel layer fun s => { s with fetched := s.fetched ++ [row] } }).run d) := by
  rw [fetchRow, run_read, run_doIf, hr, ho, hs, if_pos (by rfl)]
  simp [hf, hc, he]

/-- Where the frame of a layer has gone, the layer underruns. -/
theorem fetchRow_gone_run {row : Nat} {d : Dev} (hr : d.dstRuns n = true) (ho : (d.layerSel n layer).off = false)
    (hs : (d.layerSel n layer).slot.isSome = true) (hf : d.selFrame (d.layerSel n layer) = none) :
    (fetchRow n layer row).run d = (underrun n layer).run d := by
  rw [fetchRow, run_read, run_doIf, hr, ho, hs, if_pos (by rfl)]
  simp [hf]

theorem rowFetch_completes {row : Nat} {f : Frame} (hl : s.dev.live = true) (hr : s.dev.dstRuns n = true)
    (ho : (s.dev.layerSel n layer).off = false) (hs : (s.dev.layerSel n layer).slot.isSome = true)
    (hf : s.dev.selFrame (s.dev.layerSel n layer) = some f) (hc : f.phase = .complete)
    (he : s.dev.rowErrors (s.dev.store (s.dev.layerSel n layer).code) f row = 0) :
    Completes (.scanoutTileRowFetch n layer row) s fun t =>
      t.layerSel n layer = { s.dev.layerSel n layer with fetched := (s.dev.layerSel n layer).fetched ++ [row] } ∧
      t.regs = s.dev.regs ∧ t.mem = s.dev.mem := by
  have hlet : ∀ b c, (doIf b (hold c (.dst n layer) none)).Leaves (n : Nat) id := fun b c => (acts_doIf _ _).2 fun _ => leaves_hold _ _ _
  have htyped : ∀ b c, (doIf b (hold c (.dst n layer) none)).Acts Prim.Typed := fun b c => (acts_doIf _ _).2 fun _ => typed_hold _ _ _
  refine completes_of_live rfl hl ?_
  rw [fetchRow_complete_run hr ho hs hf hc he]
  refine ⟨?_, ?_, ?_⟩
  · rw [settle_layerSel, Dev.layerSel, show ((doIf _ _).run _).dstm n = _ from (hlet _ _).shows _]
    exact dstUpd_layerSel _ _ _ _
  · rw [settle_regs, (htyped _ _).typed_regs, dstUpd_regs]
  · rw [settle_mem, (hlet _ _).mem, dstUpd_mem]

theorem underrunAlarm_within (n : DstId) (layer : Fin 3) : (underrunAlarm n layer).within = true :=
  Field.within_of_hasBits (Reg.valid_indexed rfl n.isLt)
    ((by decide : ∀ l : Fin 3, hasBits .DST_ALARM (3 + l) 1 = true) layer)

theorem rowUnderrun_completes {row : Nat} (hl : s.dev.live = true) (hr : s.dev.dstRuns n = true)
    (ho : (s.dev.layerSel n layer).off = false) (hs : (s.dev.layerSel n layer).slot.isSome = true)
    (hf : s.dev.selFrame (s.dev.layerSel n layer) = none) : Completes (.scanoutTileRowFetch n layer row) s fun t =>
      t.layerSel n layer = { s.dev.layerSel n layer with off := true } ∧ t.flag (underrunAlarm n layer) = true ∧
      t.rd (R.DST_CNT_UNDERRUN n) = min (s.dev.rd (R.DST_CNT_UNDERRUN n) + 1) 0xFFFFFFFF ∧
      KeepsRegs s.dev t (fun r => r = R.DST_ALARM n ∨ r = R.DST_CNT_UNDERRUN n) ∧ t.mem = s.dev.mem := by
  have hleaves : (seq [raise (underrunAlarm n layer), inc (R.DST_CNT_UNDERRUN n)]).Leaves (n : Nat) id := by
    simp [underrunAlarm, routeKinds]
  have hwrites : (underrun n layer).Writes fun r => r = R.DST_ALARM n ∨ r = R.DST_CNT_UNDERRUN n := by
    simp [underrun, dstUpd, writes_raise, underrunAlarm]
  refine completes_of_live rfl hl ?_
  rw [fetchRow_gone_run hr ho hs hf]
  refine ⟨?_, ?_, ?_, keepsRegs_settle (hwrites.keepsRegs _), ?_⟩
  · rw [settle_layerSel, underrun, run_seq_cons, Dev.layerSel, show ((seq _).run _).dstm n = _ from hleaves.shows _]
    exact dstUpd_layerSel _ _ _ _
  · rw [settle_flag, underrun, run_seq_cons, run_seq_cons, run_seq_cons, run_seq_nil, Dev.flag, Dev.fld, Dev.rd,
      inc_reg_other _ (by simp [underrunAlarm]), ← Dev.rd, ← Dev.fld, ← Dev.flag]
    exact raise_flag_self _ _ (underrunAlarm_within n layer) rfl
  · rw [settle_rd, underrun, run_seq_cons, run_seq_cons, run_seq_cons, run_seq_nil,
      inc_rd_self _ (Reg.valid_indexed rfl n.isLt) rfl rfl, Dev.rd, raise_reg_other _ (by simp [underrunAlarm]), ← Dev.rd, dstUpd_rd]
  · rw [settle_mem, hwrites.memFree.run_mem]

end

/-! ### Lines (R122, R128) -/

section
variable {n : DstId} {s : State} {out : Nat}

/-- Where every layer's data is present, an active line of a destination that is not opaque is built from its layers. -/
theorem emitOut_present_run {line : Nat} {d : Dev} (hr : d.dstRuns n = true) (ho : d.flag (F.DST_CTRL_opaque n) = false)
    (hline : activeLine (d.dstTiming n).1.format out = some line) (hp : ∀ l ∈ [0, 1, 2], d.missing n l line = false) :
    (emitOut n out).run d = (dstUpd n fun m => { m with lines := KV.set [] m.lines line (d.outLine n line) }).run d := by
  have hnone : ∀ l ∈ [0, 1, 2], (doWhen (fun d => d.missing n l line) (underrun n l)).run d = d := fun l hl => by
    rw [run_doWhen, hp l hl, if_neg (by decide)]
  rw [emitOut, run_doWhen, hr, ho, if_pos (by rfl), run_read, hline]
  simp only [run_seq_cons, run_seq_nil, run_each_cons, run_each_nil, run_read]
  rw [hnone 0 (by simp), hnone 1 (by simp), hnone 2 (by simp)]

theorem leaves_hlkVideoTx {α : Type} {m : Nat} {ρ : DstMem → α} (q k line : Nat) (b : Int) (f : Nat) (ws : List Nat) :
    (hlkVideoTx q k b f line ws).Leaves m ρ := by
  simp [hlkVideoTx]

theorem leaves_txVideoLine {α : Type} {m : Nat} {ρ : DstMem → α} (k line : Nat) (ws : List Nat) :
    (txVideoLine k line ws).Leaves m ρ := by
  simp only [txVideoLine, acts_read]
  intro d
  split
  · exact acts_nop
  · simp

/-- An output line is built, and what it leaves in changes neither the destination nor memory. -/
theorem destLine_run (n out : Nat) (d : Dev) : ∃ rest : Prog, rest.Leaves n id ∧
    (destLine n out).run d = rest.run ((emitOut n out).run d) := by
  refine ⟨_, ?_, run_seq_cons _ _ _⟩
  simp only [acts_seq_cons, acts_doWhen, acts_read, acts_seq_nil, and_true]
  intro _ _ d
  split
  · exact acts_nop
  · split
    · simp [leaves_hlkVideoTx]
    · exact leaves_txVideoLine _ _ _
    · exact acts_nop

theorem lineEmit_completes {line : Nat} (hl : s.dev.live = true) (hr : s.dev.dstRuns n = true)
    (ho : s.dev.flag (F.DST_CTRL_opaque n) = false) (hline : activeLine (s.dev.dstTiming n).1.format out = some line)
    (hp : ∀ l ∈ [0, 1, 2], s.dev.missing n l line = false) : Completes (.scanoutLineEmit n out) s fun t =>
      KV.get [] (t.dstm n).lines line = s.dev.outLine n line ∧ KeepsMem s.dev t := by
  obtain ⟨rest, hrest, hrun⟩ := destLine_run n out s.dev
  refine completes_of_live rfl hl ?_
  rw [hrun, emitOut_present_run hr ho hline hp]
  refine ⟨?_, keepsMem_of_eq (by rw [settle_mem, hrest.mem, dstUpd_mem])⟩
  have hshows := hrest.shows ((dstUpd n fun m => { m with lines := KV.set [] m.lines line (s.dev.outLine n line) }).run s.dev)
  rw [settle_dstm, show ((rest.run _).dstm n) = _ from hshows, id, dstUpd_self]
  exact KV.get_set_self _ _ _ _

/-- A line that is not active leaves the destination as it is, and leaves in nothing. -/
theorem destLine_blank_run {d : Dev} (h : activeLine (d.dstTiming n).1.format out = none) : (destLine n out).run d = d := by
  have hemit : (emitOut n out).run d = d := by
    rw [emitOut, run_doWhen]
    split
    · rw [run_read, h]
      rfl
    · rfl
  rw [destLine, run_seq_cons, hemit, run_seq_cons, run_seq_nil, run_doWhen]
  split
  · rw [run_read, h]
    rfl
  · rfl

theorem lineBlank_completes (hl : s.dev.live = true) (h : activeLine (s.dev.dstTiming n).1.format out = none) :
    Completes (.scanoutLineEmit n out) s fun t => t.regs = s.dev.regs ∧ t.mem = s.dev.mem := by
  refine completes_of_live rfl hl ?_
  rw [destLine_blank_run h]
  exact ⟨settle_regs _, settle_mem _⟩

end

/-! ### The destination's monitor (R189, R190) -/

/-- The luma of the emitted frame. -/
def Dev.emittedLumas (d : Dev) (n : Nat) : List Nat :=
  (d.emitted n).flatMap fun l =>
    (l.zipIdx.filter fun e => lumaWord (d.fld (F.DST_CTRL_out_sampling n)) e.2).map fun e => e.1 % 4096

theorem lumaMin_le (l : List Nat) : l.foldl min 4095 ≤ 4095 :=
  List.foldlRecOn l min (motive := (· ≤ 4095)) le_rfl fun _ hb a _ => (Nat.min_le_left _ a).trans hb

theorem lumaMax_lt (d : Dev) (n : Nat) : (d.emittedLumas n).foldl max 0 < 4096 := by
  refine List.foldlRecOn _ max (motive := (· < 4096)) (by decide) fun b hb a ha => ?_
  obtain ⟨l, -, hl⟩ := List.mem_flatMap.1 ha
  obtain ⟨e, -, rfl⟩ := List.mem_map.1 hl
  exact Nat.max_lt.2 ⟨hb, Nat.mod_lt _ (by decide)⟩

/-- What the monitor shows of the emitted frame. -/
def frameShow (n : Nat) (d : Dev) : Prog := seq [
  wr (R.DMON_DIGEST n) (crc32c (pelBytes ((d.emitted n).flatMap id))),
  setF (F.DMON_LUMA_min n) ((d.emittedLumas n).foldl min 4095), setF (F.DMON_LUMA_max n) ((d.emittedLumas n).foldl max 0),
  wr (R.DMON_SEQ n) ((d.dstTiming n).2 % 2 ^ 32), setF (F.DMON_STATUS_monitoring n) 1]

/-- The registers of a destination's monitor and of the scruples that are checked at it. -/
def monitorWord (r : Reg) : Prop :=
  r.kind ∈ [RK.DMON_DIGEST, .DMON_LUMA, .DMON_SEQ, .DMON_STATUS, .DMON_ALARM, .MVH_GR_STATUS, .MVH_GR_MEAS, .MVH_GR_CNT,
    .MVH_CNT_SCRUPLE_MISMATCH, .MVH_ALARM]

/-- The registers that the monitor judges in, and those of the scruples. -/
def judgeWord (r : Reg) : Prop :=
  r.kind ∈ [RK.DMON_STATUS, .DMON_ALARM, .MVH_GR_STATUS, .MVH_GR_MEAS, .MVH_GR_CNT, .MVH_CNT_SCRUPLE_MISMATCH, .MVH_ALARM]

theorem judgeWord_monitorWord (r : Reg) (h : judgeWord r) : monitorWord r := by
  simp only [judgeWord, List.mem_cons, List.not_mem_nil, or_false] at h
  simp only [monitorWord, List.mem_cons, List.not_mem_nil, or_false]
  tauto

/-- The registers of the scruples. -/
def scrupleWord (r : Reg) : Prop :=
  r.kind ∈ [RK.MVH_GR_STATUS, .MVH_GR_MEAS, .MVH_GR_CNT, .MVH_CNT_SCRUPLE_MISMATCH, .MVH_ALARM]

theorem scrupleCheck_writes (n h : Nat) (ls : List (List Nat)) : (scrupleCheck n h ls).Writes scrupleWord := by
  have hr : (raise (F.MVH_ALARM_scruple_mismatch h)).Writes scrupleWord := writes_raise (by simp [scrupleWord])
  simp only [scrupleCheck, acts_read, acts_each]
  intro d r _
  split
  · simp [scrupleWord]
  · simp only [acts_seq_cons, acts_ite, writes_wr, writes_setF, writes_inc, hr, acts_seq_nil, and_true]
    simp [scrupleWord]

theorem scrupleWord_judgeWord (r : Reg) (h : scrupleWord r) : judgeWord r := by
  simp only [scrupleWord, List.mem_cons, List.not_mem_nil, or_false] at h
  simp only [judgeWord, List.mem_cons, List.not_mem_nil, or_false]
  tauto

/-- What the monitor judges of a frame, and the check of the scruples of the heads it stands for. -/
def frameJudge (n : Nat) (u : Ext → Ext) (black flat thaw : Bool) (cause : Nat) (frozen : Bool) (heads : List Nat)
    (ls : List (List Nat)) : Prog := seq [
  ext u, statusAlarm (F.DMON_STATUS_black n) (F.DMON_ALARM_black n) black,
  statusAlarm (F.DMON_STATUS_flat n) (F.DMON_ALARM_flat n) flat, doIf thaw (raise (F.DMON_ALARM_dest_frozen n)),
  setF (F.DMON_STATUS_freeze_cause n) cause, statusAlarm (F.DMON_STATUS_frozen_out n) (F.DMON_ALARM_frozen_out n) frozen,
  each heads fun h => scrupleCheck n h ls]

section
variable {n : DstId} {s : State} {d : Dev}

theorem monitoring_within (n : DstId) : (F.DMON_STATUS_monitoring n).within = true :=
  Field.within_of_hasBits (Reg.valid_indexed rfl n.isLt) (show hasBits .DMON_STATUS 0 1 = true by decide)

/-- The monitor shows the frame, then judges it and checks the scruples. -/
theorem frameEmitted_run (hon : d.fst (.dst n) = .on) (ho : d.flag (F.DST_CTRL_opaque n) = false) :
    ∃ u black flat thaw cause frozen heads, (frameEmitted n).run d =
      (frameJudge n u black flat thaw cause frozen heads (d.emitted n)).run ((frameShow n d).run d) := by
  have hruns : d.on (dstFn n) = true := by
    rw [dstFn, Fin.ofNat_val_eq_self]
    simp [Dev.on, hon]
  refine ⟨?u, ?black, ?flat, ?thaw, ?cause, ?frozen, ?heads, ?run⟩
  case run =>
    rw [frameEmitted, run_doWhen, hruns, ho, if_pos (by rfl), run_read, frameJudge, frameShow]
    simp only [run_seq_cons, run_seq_nil]
    rfl

theorem frameJudge_writes (n : Nat) (u : Ext → Ext) (black flat thaw : Bool) (cause : Nat) (frozen : Bool) (heads : List Nat)
    (ls : List (List Nat)) : (frameJudge n u black flat thaw cause frozen heads ls).Writes judgeWord := by
  have hs : ∀ h, (scrupleCheck n h ls).Writes judgeWord := fun h => (scrupleCheck_writes n h ls).widen scrupleWord_judgeWord
  have hstatus : judgeWord (R.DMON_STATUS n) := by simp [judgeWord]
  have halarm : judgeWord (R.DMON_ALARM n) := by simp [judgeWord]
  simp [frameJudge, statusAlarm_writes, writes_raise, hs, hstatus, halarm]

/-- Judging the frame leaves the bit that says that the monitor runs. -/
theorem frameJudge_monitoring (n : DstId) (u : Ext → Ext) (black flat thaw : Bool) (cause : Nat) (frozen : Bool)
    (heads : List Nat) (ls : List (List Nat)) :
    (frameJudge n u black flat thaw cause frozen heads ls).KeepsFld (F.DMON_STATUS_monitoring n) := by
  have hg := monitoring_within n
  have hstatus : ∀ k (a : Field) (b : Bool), 1 ≤ k → a.reg = R.DMON_ALARM n →
      (statusAlarm ⟨R.DMON_STATUS n, k, 1⟩ a b).KeepsFld (F.DMON_STATUS_monitoring n) := fun k a b hk ha =>
    statusAlarm_keepsFld hg (fun _ => .inl (by simpa using hk)) (by simp [ha]) b
  have hscruple : ∀ h, (scrupleCheck n h ls).KeepsFld (F.DMON_STATUS_monitoring n) := fun h =>
    (scrupleCheck_writes n h ls).keepsFld (by simp [scrupleWord])
  exact .cons (keepsFld_ext u) (.cons (hstatus 2 _ black (by decide) rfl) (.cons (hstatus 3 _ flat (by decide) rfl)
    (.cons (.doIf (raise_keepsFld (by simp))) (.cons (setF_keepsFld hg (fun _ => .inl (by simp)) cause)
      (.cons (hstatus 1 _ frozen (by decide) rfl) (.cons (keepsFld_each fun h _ => hscruple h) keepsFld_seq_nil))))))

theorem frameShow_writes (n : Nat) (d : Dev) : (frameShow n d).Writes monitorWord := by
  simp [frameShow, monitorWord]

/-- The monitor shows the digest, the sequence and the least and the greatest luma of the frame. -/
theorem frameShow_shows (n : DstId) (d : Dev) : let e := (frameShow n d).run d
    e.rd (R.DMON_DIGEST n) = crc32c (pelBytes ((d.emitted n).flatMap id)) % 2 ^ 32 ∧
    e.rd (R.DMON_SEQ n) = (d.dstTiming n).2 % 2 ^ 32 ∧ e.flag (F.DMON_STATUS_monitoring n) = true ∧
    e.fld (F.DMON_LUMA_min n) = (d.emittedLumas n).foldl min 4095 ∧
    e.fld (F.DMON_LUMA_max n) = (d.emittedLumas n).foldl max 0 := by
  have hvalid : ∀ {k : RK} {t : Nat}, (regInfo k).dims = [(1024, t)] → Reg.valid ⟨k, n, 0, 0⟩ = true :=
    fun h => Reg.valid_indexed h n.isLt
  have hmin : (F.DMON_LUMA_min n).within = true :=
    Field.within_of_hasBits (hvalid rfl) (show hasBits .DMON_LUMA 12 12 = true by decide)
  have hmax : (F.DMON_LUMA_max n).within = true :=
    Field.within_of_hasBits (hvalid rfl) (show hasBits .DMON_LUMA 0 12 = true by decide)
  have hother : ∀ {f : Field} {r : Reg} (v : Nat) (e : Dev), r ≠ f.reg → ((setF f v).run e).rd r = e.rd r :=
    fun v e h => by rw [Dev.rd, setF_reg_other v e h, Dev.rd]
  intro e
  simp only [e, frameShow, run_seq_cons, run_seq_nil]
  refine ⟨?_, ?_, ?_, ?_, ?_⟩
  · rw [hother _ _ (by simp), wr_rd_other _ _ (by simp), hother _ _ (by simp), hother _ _ (by simp),
      wr_rd_full _ _ (hvalid rfl) rfl rfl]
  · rw [hother _ _ (by simp), wr_rd_full _ _ (hvalid rfl) rfl rfl, Nat.mod_mod]
  · exact setB_flag_self _ true _ (monitoring_within n) rfl
  · rw [setF_fld_other _ _ (by simp), wr_fld_other _ _ (by simp),
      setF_keepsFld (f := F.DMON_LUMA_max n) hmin (fun _ => .inr (by simp)), setF_fld_self _ _ _ hmin]
    exact Nat.mod_eq_of_lt (Nat.lt_succ_of_le (lumaMin_le _))
  · rw [setF_fld_other _ _ (by simp), wr_fld_other _ _ (by simp), setF_fld_self _ _ _ hmax]
    exact Nat.mod_eq_of_lt (lumaMax_lt d n)

theorem frameEmitted_completes (hl : s.dev.live = true) (hon : s.dev.fst (.dst n) = .on)
    (ho : s.dev.flag (F.DST_CTRL_opaque n) = false) : Completes (.destFrameEmitted n) s fun t =>
      t.rd (R.DMON_DIGEST n) = crc32c (pelBytes ((s.dev.emitted n).flatMap id)) % 2 ^ 32 ∧
      t.rd (R.DMON_SEQ n) = (s.dev.dstTiming n).2 % 2 ^ 32 ∧ t.flag (F.DMON_STATUS_monitoring n) = true ∧
      t.fld (F.DMON_LUMA_min n) = (s.dev.emittedLumas n).foldl min 4095 ∧
      t.fld (F.DMON_LUMA_max n) = (s.dev.emittedLumas n).foldl max 0 ∧
      KeepsRegs s.dev t monitorWord ∧ KeepsMem s.dev t := by
  obtain ⟨u, black, flat, thaw, cause, frozen, heads, hrun⟩ := frameEmitted_run hon ho
  have hw := frameJudge_writes n u black flat thaw cause frozen heads (s.dev.emitted n)
  have hmon := frameJudge_monitoring n u black flat thaw cause frozen heads (s.dev.emitted n)
  obtain ⟨hdigest, hseq, hmonitoring, hmin, hmax⟩ := frameShow_shows n s.dev
  have hshow := frameShow_writes n s.dev
  refine completes_of_live rfl hl ?_
  rw [hrun]
  refine ⟨?_, ?_, ?_, ?_, ?_, fun r hr => ?_, keepsMem_of_eq ?_⟩
  · rw [settle_rd, Dev.rd, hw.keepsRegs _ _ (by simp [judgeWord]), ← Dev.rd, hdigest]
  · rw [settle_rd, Dev.rd, hw.keepsRegs _ _ (by simp [judgeWord]), ← Dev.rd, hseq]
  · rw [settle_flag, hmon.flag, hmonitoring]
  · rw [settle_fld, hw.fld (by simp [judgeWord]), hmin]
  · rw [settle_fld, hw.fld (by simp [judgeWord]), hmax]
  · rw [settle_reg, hw.keepsRegs _ _ (fun h => hr (judgeWord_monitorWord r h)), hshow.keepsRegs _ _ hr]
  · rw [settle_mem, hw.memFree.run_mem, hshow.memFree.run_mem]

end

/-- Settles O38: a row is fetched or underruns, a line is built or blank, and an emitted frame is shown by the monitor. -/
theorem destinationsFetchBuildAndMeasureLines : Obligations.DestinationsFetchBuildAndMeasureLines := by
  unfold Obligations.DestinationsFetchBuildAndMeasureLines
  intro n s hl hr
  refine ⟨fun layer row hoff hslot => ⟨fun f hf hc he => rowFetch_completes hl hr hoff hslot hf hc he,
    fun hf => rowUnderrun_completes hl hr hoff hslot hf⟩,
    fun out ho => ⟨fun line hline hp => lineEmit_completes hl hr ho hline hp, fun h => lineBlank_completes hl h⟩,
    fun hon ho => frameEmitted_completes hl hon ho⟩

end Sys2Proof.Machine
end

section
/-!
PROOFS. Takes are accepted, and committed: R104 to R108, R112, R124.
-/

namespace Sys2Proof.Machine

/-! ### Accepted takes (R105, R106) -/

/-- The takes that wait for their commit. -/
def armedView (x : Ext) : List ArmedTake := x.armed

@[simp] theorem settle_armed (d : Dev) : (settle.run d).x.armed = d.x.armed := by
  rw [(settle_same d).2.2]

@[simp] theorem settle_dst (d : Dev) : (settle.run d).x.dst = d.x.dst := by
  rw [(settle_same d).2.2]

/-- The record of an accepted take. -/
def armedBy (o : Orig) (dest : Nat) : ArmedTake :=
  { id := o.id, dest := dest, body := o.cmd, controller := o.controller, seq := o.seq }

/-- What accepting a take does: it joins the end of those that wait. -/
def takeArm (o : Orig) (dest : Nat) : Prog :=
  seq [setCmdState o.id .armed, ext fun x => { x with armed := x.armed ++ [armedBy o dest] }]

/-- A take of this unit waits for its commit. -/
theorem acceptTake_own {o : Orig} (hm : o.mirrored = false) (dest : Nat) (commit : Int → Prog) :
    acceptTake o dest commit = takeArm o dest := by
  rw [acceptTake, hm, if_neg Bool.false_ne_true]
  rfl

theorem takeArm_completes {c : Instr} {s : State} {h : Hdr} {cmd : Cmd} {sp : CmdSpec} {dest : Nat}
    (hc : exec c s = perform .core (rygus h cmd sp) s) (ha : s.dev.Admits h sp)
    (hp : (sp.prog (cmdOrig s.dev h cmd sp)).run (s.dev.opened h sp) =
      (takeArm (cmdOrig s.dev h cmd sp) dest).run (s.dev.opened h sp)) :
    Completes c s fun t => t.x.armed = s.dev.x.armed ++ [armedBy (cmdOrig s.dev h cmd sp) dest] ∧
      KeepsRegs s.dev t commandWord ∧ KeepsMem s.dev t ∧ t.x.dst = s.dev.x.dst := by
  have hd := opened_apart s.dev h sp
  have hw : (takeArm (cmdOrig s.dev h cmd sp) dest).Writes fun _ => False := by simp [takeArm, setCmdState]
  have hdst : (takeArm (cmdOrig s.dev h cmd sp) dest).Fixes fun x => x.dst := by simp [takeArm, setCmdState, ctlUpd]
  have hset : ∀ id st, (setCmdState id st).Fixes armedView := setCmdState_cmdFixes fun _ _ _ => rfl
  refine completes_of_live hc ha.1 ?_
  rw [rygus_run ha, hp]
  refine ⟨?_, fun r hr => ?_, keepsMem_of_eq ?_, ?_⟩
  · rw [settle_armed, takeArm, run_seq_cons, run_seq_cons, run_seq_nil, ext_x]
    exact congrArg (· ++ _) (((hset _ _).proj _).trans (hd.proj (π := armedView) fun _ _ _ => rfl))
  · rw [settle_reg, hw.keepsRegs _ _ not_false, hd.regs r hr]
  · rw [settle_mem, hw.memFree.run_mem, hd.mem]
  · rw [settle_dst, hdst.proj]
    exact hd.proj (π := fun x => x.dst) fun _ _ _ => rfl

section
variable {h : Hdr} {s : State}

theorem take_completes {b : TakeBody} (ha : s.dev.Admits h (takeSpec b))
    (hs : (s.dev.opened h (takeSpec b)).takeStatic b (s.dev.actsFor h (takeSpec b)) = none)
    (hd : (s.dev.opened h (takeSpec b)).takeDynamic b (s.dev.actsFor h (takeSpec b)) = none) :
    Completes (.take h b) s fun t =>
      t.x.armed = s.dev.x.armed ++ [armedBy (cmdOrig s.dev h (.take b) (takeSpec b)) b.dest] ∧
      KeepsRegs s.dev t commandWord ∧ KeepsMem s.dev t ∧ t.x.dst = s.dev.x.dst := by
  refine takeArm_completes rfl ha ?_
  rw [takeSpec, run_read, ← takeSpec]
  simp only [cmdOrig, hs, hd, Bool.false_eq_true, if_false]
  rw [acceptTake_own rfl]

theorem takeOverlay_completes {b : OverlayBody} (ha : s.dev.Admits h (overlaySpec b))
    (hchk : (s.dev.opened h (overlaySpec b)).overlayCheck b (s.dev.actsFor h (overlaySpec b)) = none) :
    Completes (.takeOverlay h b) s fun t =>
      t.x.armed = s.dev.x.armed ++ [armedBy (cmdOrig s.dev h (.takeOverlay b) (overlaySpec b)) b.dest] ∧
      KeepsRegs s.dev t commandWord ∧ KeepsMem s.dev t ∧ t.x.dst = s.dev.x.dst := by
  refine takeArm_completes rfl ha ?_
  rw [overlaySpec, run_read, ← overlaySpec]
  simp only [cmdOrig, hchk, Bool.false_eq_true, if_false]
  rw [acceptTake_own rfl]

end

/-! ### A take is committed (R105, R108, R112) -/

theorem noteLatency_apart (id : Nat) (d : Dev) : CmdApart d ((noteLatency id).run d) := by
  have hw : (noteLatency id).Writes commandWord := fun d => by
    dsimp only
    split
    · simp [commandWord]
    · exact acts_nop
  have hx : (noteLatency id).Fixes restView := fun d => by
    dsimp only
    split
    · simp
    · exact acts_nop
  exact .of_writes hw hx d

theorem mirrorCommit_apart (o : Orig) (d : Dev) : CmdApart d ((mirrorCommit o).run d) :=
  .of_writes (by simp [mirrorCommit, emit, commandWord]) (by simp [mirrorCommit]) d

/-- The change that a take commits on a quadrant's member, for itself or for a chain. -/
def takeChange (id : Nat) (chain : Option Nat) (b : TakeBody) (mode quad : Nat) (land : Nat × Bool) : PendTake :=
  { id := id, chain := chain, video := b.video, audio := b.audio, anc := b.anc, source := quadRead b.source quad, mode := mode
    frame := land.1, field2 := land.2 }

theorem quadRead_zero (c : Nat) : quadRead c 0 = c := by
  unfold quadRead
  split <;> rfl

/-- A destination outside a quadrant group is its own group (R111). -/
theorem dstGroup_alone {d : Dev} {n : Nat} (h : d.flag (F.DST_CTRL_quad_member n) = false) : d.dstGroup n = [(n, 0)] := by
  rw [Dev.dstGroup, h, if_neg Bool.false_ne_true]

/-- A take on a destination outside a quadrant group commits one change. -/
theorem commitTake_alone (id : Nat) (chain : Option Nat) {b : TakeBody} (c : Int) {d : Dev}
    (hq : d.flag (F.DST_CTRL_quad_member b.dest) = false) : ∃ mode, (commitTake id chain b c).run d =
      (commitChange b.dest [(b.dest, 0)] c b.field2 b.reportCommit fun _ => takeChange id chain b mode).run d := by
  refine ⟨?mode, ?run⟩
  case run =>
    rw [commitTake, run_read, dstGroup_alone hq]
    rfl

/-- The device with no take waiting for its commit. -/
def Dev.unarmed (d : Dev) : Dev := { d with x := { d.x with armed := [] } }

/-- The only armed take, one of its own destination, is committed on a device in which none is armed any more. -/
theorem takeCommit_run {n : Nat} {a : ArmedTake} {b : TakeBody} {d : Dev} (ha : d.x.armed = [a]) (hn : a.dest = n)
    (hb : a.body = .take b) : ∃ e, CmdApart d.unarmed e ∧
    (Prog.read fun d => seq [ext fun x => { x with armed := x.armed.drop (upTo n d.x.armed).length },
        each (upTo n d.x.armed) commitArmed]).run d = (commitTake a.id none b d.x.time.ht).run e := by
  have hup : upTo n [a] = [a] := by rw [upTo, if_pos hn]
  have hbegin : (ext fun x => { x with armed := x.armed.drop 1 }).run d = d.unarmed := by
    rw [Dev.unarmed, ← (show d.x.armed.drop 1 = [] by rw [ha]; rfl)]
    rfl
  refine ⟨_, (noteLatency_apart a.id d.unarmed).trans (mirrorCommit_apart
    { id := a.id, controller := a.controller, seq := a.seq, mirrored := false, cmd := .take b, instant := d.x.time.ht } _), ?_⟩
  rw [run_read, run_seq_cons, run_seq_cons, run_seq_nil, ha, hup, run_each_cons, run_each_nil, List.length_singleton, hbegin,
    commitArmed, run_read, run_seq_cons, run_seq_cons, run_seq_cons, run_seq_nil, hb]
  rfl

/-! ### The change on a running destination (R105, R108) -/

/-- A take's change is shown in the pending registers of its levels (R100, R139). -/
theorem writePending_writes {t : PendTake} (h : t.layer = none) (n : Nat) :
    (writePending n t).Writes fun r => r.kind ∈ [RK.DST_TAKE, .DST_BREAK] := by
  simp [writePending, h]

theorem writePending_leaves {α : Type} {ρ : DstMem → α} (m n : Nat) (t : PendTake) : (writePending m t).Leaves n ρ := by
  unfold writePending
  split <;> simp [routeKinds]

theorem writePending_fixes {α : Type} (π : Ext → α) (m : Nat) (t : PendTake) : (writePending m t).Fixes π := by
  unfold writePending
  split <;> simp

theorem setCmdState_writes (id : Nat) (st : CmdState) (but : Reg → Prop) : (setCmdState id st).Writes but := trivial
theorem setCmdState_leaves {α : Type} {n : Nat} {ρ : DstMem → α} (id : Nat) (st : CmdState) : (setCmdState id st).Leaves n ρ :=
  leaves_ctlUpd _

/-- What tells a command that its change is committed on a running destination. -/
def tellCommitted (t : PendTake) (report : Bool) (land : Nat × Bool) : Prog :=
  match t.chain with
  | some _ => .nop
  | none => if report then sendCompletion t.id false .committed 0 0 [land.1 % 2 ^ 32, land.1 / 2 ^ 32]
    else setCmdState t.id .committed

theorem tellCommitted_writes (t : PendTake) (report : Bool) (land : Nat × Bool) :
    (tellCommitted t report land).Writes commandWord := by
  unfold tellCommitted
  split
  · exact acts_nop
  · simp [sendCompletion_writes, setCmdState_writes]

theorem tellCommitted_leaves {α : Type} {n : Nat} {ρ : DstMem → α} (t : PendTake) (report : Bool) (land : Nat × Bool) :
    (tellCommitted t report land).Leaves n ρ := by
  unfold tellCommitted
  split
  · exact acts_nop
  · simp [setCmdState_leaves]

theorem tellCommitted_fixes {α : Type} {π : Ext → α} (h : CplBlind π) (t : PendTake) (report : Bool) (land : Nat × Bool) :
    (tellCommitted t report land).Fixes π := by
  unfold tellCommitted
  split
  · exact acts_nop
  · simp [fixes_sendCompletion h, setCmdState_cmdFixes h]

/-- On a running destination a change is shown, becomes pending with its landing, and its command is told. -/
theorem commitChange_running {n : Nat} {c : Int} {field2 report : Bool} {make : Nat → Nat → Nat × Bool → PendTake} {d : Dev}
    (hi : d.dstIdle n = false) : let t := make n 0 (d.landing n c field2)
    (commitChange n [(n, 0)] c field2 report make).run d =
      (seq [refSync, tellCommitted t report (d.landing n c field2)]).run
        ((dstUpd n fun x => { x with pend := x.pend ++ [t] }).run ((writePending n t).run d)) := by
  intro t
  rw [commitChange, run_read, hi, if_neg Bool.false_ne_true]
  simp only [run_seq_cons, run_seq_nil, run_each_cons, run_each_nil]
  rfl

/-- The entry of an idle destination is saved, and the command whose change it took is DONE with DEST_IDLE (R112). -/
def tellIdle (n id frame : Nat) : Prog := seq [xptSave n, refSync, finish id (2 ^ 4) [frame % 2 ^ 32, frame / 2 ^ 32]]

theorem tellIdle_leaves {α : Type} {m : Nat} {ρ : DstMem → α} (n id frame : Nat) : (tellIdle n id frame).Leaves m ρ := by
  simp [tellIdle]

theorem tellIdle_armed (n id frame : Nat) : (tellIdle n id frame).Fixes armedView := by
  have hsync : refSync.Fixes armedView := fixes_refSync fun _ _ => rfl
  have hdone : ∀ fl l, (finish id fl l).Fixes armedView := fixes_finish (π := armedView) (fun _ _ _ => rfl) id
  simp [tellIdle, hsync, hdone, xptSave, mramPut, armedView]

/-- On an idle destination a command's change is shown and applied at once, and the command is told (R112). -/
theorem commitChange_idle {n : Nat} {c : Int} {field2 report : Bool} {make : Nat → Nat → Nat × Bool → PendTake} {d : Dev}
    (hi : d.dstIdle n = true) : let t := make n 0 (d.landing n c field2)
    t.chain = none → (commitChange n [(n, 0)] c field2 report make).run d =
      (tellIdle n t.id (d.rd64 (R.DST_LANDED_LO n) (R.DST_LANDED_HI n))).run
        ((applyChanges n [t]).run ((writePending n t).run d)) := by
  intro t ht
  rw [commitChange, run_read, hi, if_pos rfl, tellIdle]
  simp only [run_seq_cons, run_seq_nil, run_each_cons, run_each_nil]
  rw [show (make n 0 (d.landing n c field2)).chain = none from ht]

/-! ### TAKE_COMMIT (R105, R106, R108, R112) -/

theorem CmdApart.dstIdle {d e : Dev} (h : CmdApart d e) (n : Nat) : e.dstIdle n = d.dstIdle n := by
  have hfst : ∀ k, e.fst (.dst k) = d.fst (.dst k) := fun k => by
    rw [Dev.fst, Dev.fw, h.rd (by simp [commandWord, fnReg]), Dev.fst, Dev.fw]
  simp only [Dev.dstIdle, hfst]

/-- The registers that a take's commit on a running destination changes beside those of commands. -/
def pendingWord (r : Reg) : Prop := r.kind ∈ [RK.DST_TAKE, .DST_BREAK, .SURF_REFS]

theorem committedTell_writes (t : PendTake) (report : Bool) (land : Nat × Bool) :
    (seq [refSync, tellCommitted t report land]).Writes fun r => commandWord r ∨ pendingWord r := by
  have hsync : refSync.Writes fun r => commandWord r ∨ pendingWord r := writes_refSync fun n => .inr (by simp [pendingWord])
  simp only [acts_seq_cons, hsync, acts_seq_nil, and_true, true_and]
  exact (tellCommitted_writes t report land).widen fun _ => .inl

section
variable {n : DstId} {a : ArmedTake} {b : TakeBody} {s : State} (hl : s.dev.live = true) (ha : s.dev.x.armed = [a])
  (hn : a.dest = n) (hbody : a.body = .take b) (hb : b.dest = n) (hq : s.dev.flag (F.DST_CTRL_quad_member n) = false)
include hl ha hn hbody hb hq

theorem takeCommit_running (hi : s.dev.dstIdle n = false) : Completes (.takeCommit n) s fun t => t.x.armed = [] ∧
    (∃ mode, (t.dstm n).pend =
      (s.dev.dstm n).pend ++ [takeChange a.id none b mode 0 (s.dev.landing n s.dev.x.time.ht b.field2)]) ∧
    KeepsRegs s.dev t (fun r => commandWord r ∨ pendingWord r) ∧ KeepsMem s.dev t := by
  obtain ⟨e, he, hrun⟩ := takeCommit_run ha hn hbody
  obtain ⟨mode, hcommit⟩ := commitTake_alone a.id none s.dev.x.time.ht (b := b) (d := e)
    (by rw [he.flag (by simp [commandWord]), hb]; exact hq)
  have hland : e.landing n s.dev.x.time.ht b.field2 = s.dev.landing n s.dev.x.time.ht b.field2 := he.landing _ _ _
  have hchange := commitChange_running (n := n) (c := s.dev.x.time.ht) (field2 := b.field2) (report := b.reportCommit)
    (make := fun _ => takeChange a.id none b mode) ((he.dstIdle n).trans hi)
  rw [hb] at hcommit
  rw [hland] at hchange
  generalize htake : takeChange a.id none b mode 0 (s.dev.landing n s.dev.x.time.ht b.field2) = t at hchange
  have hlayer : t.layer = none := by rw [← htake]; rfl
  have hpend := writePending_writes hlayer n
  have htell := committedTell_writes t b.reportCommit (s.dev.landing n s.dev.x.time.ht b.field2)
  have harmed : (seq [refSync, tellCommitted t b.reportCommit (s.dev.landing n s.dev.x.time.ht b.field2)]).Fixes armedView := by
    have hsync : refSync.Fixes armedView := fixes_refSync fun _ _ => rfl
    simp [hsync, tellCommitted_fixes (π := armedView) fun _ _ _ => rfl]
  have hleaves : (seq [refSync, tellCommitted t b.reportCommit (s.dev.landing n s.dev.x.time.ht b.field2)]).Leaves n
      DstMem.pend := by
    simp [tellCommitted_leaves]
  refine completes_of_live rfl hl ?_
  rw [hrun, hcommit, hchange]
  refine ⟨?_, ⟨mode, ?_⟩, fun r hr => ?_, keepsMem_of_eq ?_⟩
  · rw [settle_armed]
    exact (harmed.proj _).trans (((writePending_fixes armedView n t).proj e).trans (he.proj fun _ _ _ => rfl))
  · have hbefore : ((writePending n t).run e).dstm n = s.dev.dstm n :=
      ((writePending_leaves (ρ := id) n n t).shows e).trans (he.dstm n)
    rw [settle_dstm, hleaves.shows, dstUpd_self, hbefore, htake]
  · obtain ⟨hcmd, hword⟩ := not_or.1 hr
    have hnot : ¬ r.kind ∈ [RK.DST_TAKE, .DST_BREAK] := fun h => hword (by
      simp only [List.mem_cons, List.not_mem_nil, or_false, pendingWord] at h ⊢
      tauto)
    rw [settle_reg, htell.keepsRegs _ r hr]
    exact (hpend.keepsRegs e r hnot).trans (he.regs r hcmd)
  · rw [settle_mem, htell.memFree.run_mem, dstUpd_mem, hpend.memFree.run_mem, he.mem]
    rfl

theorem takeCommit_idle (hi : s.dev.dstIdle n = true) (hv : b.video = true) : Completes (.takeCommit n) s fun t =>
    t.x.armed = [] ∧ t.fld (F.DST_CUR_VIDEO_source n) = b.source % 4096 ∧ (t.dstm n).pend = (s.dev.dstm n).pend ∧
    KeepsMem s.dev t := by
  obtain ⟨e, he, hrun⟩ := takeCommit_run ha hn hbody
  obtain ⟨mode, hcommit⟩ := commitTake_alone a.id none s.dev.x.time.ht (b := b) (d := e)
    (by rw [he.flag (by simp [commandWord]), hb]; exact hq)
  have hchange := commitChange_idle (n := n) (c := s.dev.x.time.ht) (field2 := b.field2) (report := b.reportCommit)
    (make := fun _ => takeChange a.id none b mode) ((he.dstIdle n).trans hi) rfl
  rw [hb] at hcommit
  rw [applyChanges_single rfl] at hchange
  generalize htake : takeChange a.id none b mode 0 (e.landing n s.dev.x.time.ht b.field2) = t at hchange
  have hlayer : t.layer = none := by rw [← htake]; rfl
  have hroute : (putRoute n (t.applyTo (((writePending n t).run e).route n))).Fixes fun x => x := by simp [putRoute]
  have hx := (hroute.proj ((writePending n t).run e)).trans ((writePending_fixes (fun x => x) n t).proj e)
  refine completes_of_live rfl hl ?_
  rw [hrun, hcommit, hchange]
  refine ⟨?_, ?_, ?_, keepsMem_of_eq ?_⟩
  · rw [settle_armed]
    exact ((tellIdle_armed n _ _).proj _).trans ((congrArg armedView hx).trans (he.proj fun _ _ _ => rfl))
  · rw [settle_fld, (tellIdle_leaves (m := n) (ρ := id) n _ _).fld (by simp [routeKinds]), putRoute_source, ← htake]
    simp [PendTake.applyTo, takeChange, hv, quadRead_zero]
  · rw [settle_dstm, (tellIdle_leaves (ρ := DstMem.pend) n _ _).shows, Dev.dstm, hx]
    exact congrArg DstMem.pend (he.dstm n)
  · rw [settle_mem, (tellIdle_leaves (m := n) (ρ := id) n _ _).mem, (putRoute_writes n _).memFree.run_mem,
      (writePending_writes hlayer n).memFree.run_mem, he.mem]
    rfl

end

/-- Settles O24: a take and an overlay change are armed; the only armed take is committed by the state of its destination. -/
theorem takesAreAcceptedThenCommitted : Obligations.TakesAreAcceptedThenCommitted := by
  unfold Obligations.TakesAreAcceptedThenCommitted
  refine ⟨fun h b s ha hs hd => take_completes ha hs hd, fun h b s ha hchk => takeOverlay_completes ha hchk,
    fun n a b s hl ha hn hbody hb hq => ⟨fun hi => ?_, fun hi hv => takeCommit_idle hl ha hn hbody hb hq hi hv⟩⟩
  refine (takeCommit_running hl ha hn hbody hb hq hi).mono fun t ⟨harmed, ⟨mode, hpend⟩, hregs, hmem⟩ => ?_
  exact ⟨harmed, ⟨_, hpend, rfl, rfl, rfl, rfl, rfl, quadRead_zero _, rfl⟩, hregs, hmem⟩

end Sys2Proof.Machine
end

section
/-!
PROOFS. Chains are loaded, armed and queried: R116, R117, R120.
-/

namespace Sys2Proof.Machine

/-! ### A chain's state -/

/-- The chains. -/
def chainsView (x : Ext) : KV ChainMem := x.chains

theorem chain_of_proj {p : Prog} (h : p.Fixes chainsView) (c : Nat) (d : Dev) : (p.run d).chain c = d.chain c :=
  congrArg (fun k => KV.get ({} : ChainMem) k c) (h.proj d)

@[simp] theorem settle_chain (c : Nat) (d : Dev) : (settle.run d).chain c = d.chain c := by
  rw [Dev.chain, (settle_same d).2.2]
  rfl

/-- A chain that is changed holds the change. -/
theorem chainUpd_chain (c : Nat) (f : ChainMem → ChainMem) (d : Dev) : ((chainUpd c f).run d).chain c = f (d.chain c) :=
  KV.get_upd_self _ _ _ _

theorem chainUpd_writes (c : Nat) (f : ChainMem → ChainMem) (but : Reg → Prop) : (chainUpd c f).Writes but := by
  simp [chainUpd, mramPut]

/-- A chain is changed beside what shows neither the chains nor the records kept in MRAM. -/
theorem chainUpd_fixes {α : Type} {π : Ext → α} (h : ∀ x k b, π { x with chains := k, boot := b } = π x) (c : Nat)
    (f : ChainMem → ChainMem) : (chainUpd c f).Fixes π := by
  refine (acts_seq_cons _ _).2 ⟨fun x => ?_, (acts_seq_cons _ _).2 ⟨fun d x => ?_, acts_seq_nil⟩⟩
  · exact h x _ x.boot
  · exact h x x.chains _

section
variable {h : Hdr} {s : State}

/-! ### CHAIN_LOAD (R116, R117) -/

/-- What CHAIN_LOAD does. -/
def chainFill (b : ChainLoadBody) : Prog := .read fun d =>
  chainUpd b.chain fun m => { m with entries := loadEntries (d.chain b.chain).entries b, state := if b.last then 2 else 1 }

theorem chainFill_shows (b : ChainLoadBody) (d : Dev) : let m := ((chainFill b).run d).chain b.chain
    m.entries = loadEntries (d.chain b.chain).entries b ∧ m.state = if b.last then 2 else 1 := by
  rw [chainFill, run_read, chainUpd_chain]
  exact ⟨rfl, rfl⟩

theorem chainFill_writes (b : ChainLoadBody) : (chainFill b).Writes fun _ => False := by
  simp [chainFill, chainUpd_writes]

theorem chainLoad_completes {b : ChainLoadBody} (ha : s.dev.Admits h (chainLoadSpec b))
    (hchk : (s.dev.opened h (chainLoadSpec b)).chainLoadCheck b (s.dev.actsFor h (chainLoadSpec b)) = none) :
    Completes (.chainLoad h b) s fun t => (t.chain b.chain).entries = loadEntries (s.dev.chain b.chain).entries b ∧
      (t.chain b.chain).state = (if b.last then 2 else 1) ∧
      Answered t h (chainLoadSpec b) .done 0 [b.chain, (loadEntries (s.dev.chain b.chain).entries b).length] ∧
      KeepsRegs s.dev t commandWord ∧ KeepsMem s.dev t := by
  have hw := chainFill_writes b
  have hx : (chainFill b).Fixes ctlView := fun d => chainUpd_fixes (fun _ _ _ => rfl) _ _
  refine (admitted_answers (body := chainFill b) (st := .done)
    (reply := [b.chain, (loadEntries (s.dev.chain b.chain).entries b).length]) rfl ha ?_
    (keepsIntake_of_writes hw (fun _ h => h.elim) hx)).mono ?_
  · refine (checked_run (chk := fun d => d.chainLoadCheck b (s.dev.actsFor h (chainLoadSpec b))) rfl hchk _).trans ?_
    rw [run_read, run_seq_cons, run_seq_cons, run_seq_nil, (effect_apart s.dev h (.chainLoad b) (chainLoadSpec b)).chain, chainFill,
      run_read, (effect_apart s.dev h (.chainLoad b) (chainLoadSpec b)).chain]
    rfl
  · rintro t ⟨hans, d, hd, ht⟩
    obtain ⟨hentries, hstate⟩ := chainFill_shows b d
    rw [ht.chain, hentries, hstate, hd.chain]
    refine ⟨rfl, rfl, hans, fun r hr => ?_, keepsMem_of_eq (by rw [ht.mem, hw.memFree.run_mem, hd.mem])⟩
    rw [ht.regs r hr, hw.keepsRegs d r not_false, hd.regs r hr]

/-! ### CHAIN_QUERY (R117) -/

/-- A command whose record stands and whose intake is open is answered DONE, whatever the flags above the final one. -/
theorem finish_answers {d e : Dev} {sp : CmdSpec}
    (hfind : e.x.ctl.cmds.find? (fun c => c.id == d.x.ctl.fresh) = some (cmdOpened d h sp)) (hopen : e.intakeOpen h.intake = true)
    {flags : Nat} (hflags : flags % 4 = 0) (body : List Nat) :
    Answered (settle.run ((finish d.x.ctl.fresh flags body).run e)) h sp .done 0 body ∧
      CmdFrame e (settle.run ((finish d.x.ctl.fresh flags body).run e)) := by
  obtain ⟨rest, hw, hx, hout, hrun⟩ := finish_run hfind rfl rfl flags body
  generalize hcpl : ({ opcode := (cmdOpened d h sp).opcode, seq := (cmdOpened d h sp).seq, status := statusWord .done 0
                       body := body, flags := 1 + boolBit true * 2 + flags } : Completion) = cpl at hrun
  have hframe : CmdFrame e (settle.run ((finish d.x.ctl.fresh flags body).run e)) := by
    rw [hrun]
    exact (deliver_frame h.intake true cpl e).trans ((CmdFrame.of_writes hw hx _).trans (CmdFrame.settled _))
  have hfinal : cpl.flags % 4 = 3 := by
    rw [← hcpl]
    change (1 + 1 * 2 + flags) % 4 = 3
    omega
  obtain ⟨l, hl⟩ := settle_out (rest.run ((deliver h.intake true cpl).run e))
  have hsent := (deliver_sends hopen true cpl).mono (m := (settle.run ((finish d.x.ctl.fresh flags body).run e)).x.out)
    fun o ho => by
      rw [hrun, hl, hout.out]
      exact List.mem_append_left l ho
  refine ⟨⟨cpl, hcpl ▸ rfl, hcpl ▸ rfl, hcpl ▸ rfl, hcpl ▸ rfl, hfinal, ?_⟩, hframe⟩
  obtain ⟨i, q⟩ := h
  cases i with
  | ring r slot => exact hsent
  | session k =>
    obtain ⟨counter, hmem⟩ := hsent
    refine ⟨counter, ?_⟩
    rw [Dev.rd, hframe.intake _ (by simp [intakeWord]), ← Dev.rd]
    exact hmem

/-- What CHAIN_QUERY answers of a chain. -/
def chainReply (m : ChainMem) : List Nat :=
  [m.state, m.entries.length] ++ trigWords m.trig ++ [m.landed.length, m.skipped.length] ++
    (m.landed.flatMap fun e => [e.1, e.2]) ++ m.skipped.flatMap fun e => [e.1, e.2]

theorem chainQuery_completes {c : Nat} (ha : s.dev.Admits h (chainQuerySpec c)) : Completes (.chainQuery h c) s fun t =>
    Answered t h (chainQuerySpec c) .done 0 (chainReply (s.dev.chain c)) ∧ KeepsRegs s.dev t commandWord ∧ KeepsMem s.dev t := by
  have hd := opened_apart s.dev h (chainQuerySpec c)
  have hopen : s.dev.intakeOpen h.intake = true := ha.2.1
  have hflags : (if (s.dev.chain c).missed then 2 ^ 7 else 0) % 4 = 0 := by split <;> rfl
  obtain ⟨hans, ht⟩ := finish_answers (opened_find s.dev h (chainQuerySpec c))
    (by rw [KeepsIntake.open_eq hd.frame.intake, hopen]) hflags (chainReply (s.dev.chain c))
  refine completes_of_live rfl ha.1 ?_
  have hrun : (rygus h (.chainQuery c) (chainQuerySpec c)).run s.dev =
      (finish s.dev.x.ctl.fresh (if (s.dev.chain c).missed then 2 ^ 7 else 0) (chainReply (s.dev.chain c))).run
        (s.dev.opened h (chainQuerySpec c)) := by
    rw [rygus_run ha, ← hd.chain]
    rfl
  rw [hrun]
  exact ⟨hans, (hd.frame.trans ht).regs, keepsMem_of_eq (hd.frame.trans ht).mem⟩

/-! ### CHAIN_ARM and CHAIN_FIRE (R117, R120) -/

/-- The timer that arming a chain takes. -/
def Dev.trigTimer (d : Dev) : ChainTrig → Option Nat
  | .time .. => d.freeTimer
  | .frame .. => none

/-- The trigger comes too late as the chain is armed. -/
def Dev.trigLate (d : Dev) : ChainTrig → Bool
  | .time scale sec ns => decide (timeOf sec ns < d.scale scale)
  | .frame dest count => decide (0 < count) && d.frameDue dest count

/-- The trigger that an armed chain holds: a frame count that has been reached gives way to the next boundary. -/
def trigHeld (late : Bool) (trig : ChainTrig) : ChainTrig :=
  match trig with
  | .frame dest _ => if late then .frame dest 0 else trig
  | .time .. => trig

/-- An armed chain. -/
def chainArmed (o : Orig) (trig : ChainTrig) (late : Bool) (timer : Option Nat) (m : ChainMem) : ChainMem :=
  { m with
    state := 3, trig := some (trigHeld late trig), controller := o.controller, late := late, missed := false, cmd := some o.id
    timer := timer, firedAt := none, outstanding := 0, landed := [], skipped := [] }

/-- Arming the firmware timer of a chain with a TIME trigger. -/
def trigArm (c : Nat) (trig : ChainTrig) (timer : Option Nat) : Prog :=
  match trig, timer with
  | .time scale sec ns, some n => fwTimer n scale sec ns (.chain c)
  | _, _ => .nop

theorem chainArm_run (o : Orig) (c : Nat) (trig : ChainTrig) (d : Dev) : (chainArm o c trig).run d =
    (seq [trigArm c trig (d.trigTimer trig), setCmdState o.id .armed, refSync]).run
      ((chainUpd c (chainArmed o trig (d.trigLate trig) (d.trigTimer trig))).run d) := by
  rw [chainArm, run_read]
  cases trig <;> rfl

/-- The registers of event timers and of the references to surfaces. -/
def armingWord (r : Reg) : Prop := r.kind ∈ [RK.EVT_SEC_LO, .EVT_SEC_HI, .EVT_NS, .EVT_CTRL, .EVT_STATUS, .SURF_REFS]

theorem fwTimer_writes (n scale sec ns : Nat) (a : FwAction) : (fwTimer n scale sec ns a).Writes armingWord := by
  have harm : (evtArm n).Writes armingWord := (evtArm_writes n).widen fun r hr => by rcases hr with rfl | rfl <;> simp [armingWord]
  simp [fwTimer, harm, timeUpd, armingWord]

theorem fwTimer_fixes {α : Type} {π : Ext → α} (h : ∀ x t, π { x with time := t } = π x) (n scale sec ns : Nat) (a : FwAction) :
    (fwTimer n scale sec ns a).Fixes π := by
  simp [fwTimer, evtArm, timeUpd, h]

theorem trigArm_writes (c : Nat) (trig : ChainTrig) (timer : Option Nat) : (trigArm c trig timer).Writes armingWord := by
  unfold trigArm
  split
  · exact fwTimer_writes ..
  · exact acts_nop

theorem trigArm_fixes {α : Type} {π : Ext → α} (h : ∀ x t, π { x with time := t } = π x) (c : Nat) (trig : ChainTrig)
    (timer : Option Nat) : (trigArm c trig timer).Fixes π := by
  unfold trigArm
  split
  · exact fwTimer_fixes h ..
  · exact acts_nop

theorem chainArm_mem (o : Orig) (c : Nat) (trig : ChainTrig) (d : Dev) : ((chainArm o c trig).run d).mem = d.mem := by
  have hsync : refSync.Writes armingWord := writes_refSync fun n => by simp [armingWord]
  have hw : (seq [trigArm c trig (d.trigTimer trig), setCmdState o.id .armed, refSync]).Writes armingWord := by
    simp [trigArm_writes, hsync, setCmdState]
  rw [chainArm_run, hw.memFree.run_mem, (chainUpd_writes c _ fun _ => False).memFree.run_mem]

/-- The chain that is armed. -/
theorem chainArm_chain (o : Orig) (c : Nat) (trig : ChainTrig) (d : Dev) :
    ((chainArm o c trig).run d).chain c = chainArmed o trig (d.trigLate trig) (d.trigTimer trig) (d.chain c) := by
  have hsync : refSync.Fixes chainsView := fixes_refSync fun _ _ => rfl
  have htimer : (trigArm c trig (d.trigTimer trig)).Fixes chainsView := trigArm_fixes (fun _ _ => rfl) _ _ _
  have hx : (seq [trigArm c trig (d.trigTimer trig), setCmdState o.id .armed, refSync]).Fixes chainsView := by
    simp [htimer, hsync, setCmdState_cmdFixes (π := chainsView) fun _ _ _ => rfl]
  rw [chainArm_run, chain_of_proj hx, chainUpd_chain]

/-- A firmware timer's registers are written, and it is armed for what firmware is to do. -/
theorem fwTimer_run (n scale sec ns : Nat) (a : FwAction) (d : Dev) : ∃ e, (fwTimer n scale sec ns a).run d =
    (timeUpd fun t => { t with evtFw := KV.set none t.evtFw n (some a) }).run ((evtArm n).run e) := by
  rw [fwTimer, run_seq_cons, run_seq_cons, run_seq_cons, run_seq_cons, run_seq_cons, run_seq_cons, run_seq_cons, run_seq_nil]
  exact ⟨_, rfl⟩

/-- A firmware timer that is armed shows it, and holds what firmware is to do. -/
theorem fwTimer_shows (n : EvtId) (scale sec ns : Nat) (a : FwAction) (d : Dev) : let e := (fwTimer n scale sec ns a).run d
    e.fld (F.EVT_STATUS_state n) = 1 ∧ KV.get none e.x.time.evtFw n = some a := by
  obtain ⟨e, hrun⟩ := fwTimer_run n scale sec ns a d
  obtain ⟨-, -, hstate⟩ := evtArm_spec (n := n) e
  dsimp only
  rw [hrun, timeUpd_fld, timeUpd_x]
  exact ⟨hstate, KV.get_set_self (none : Option FwAction) _ n.val (some a)⟩

/-- The timer that arming a chain takes is armed for the chain. -/
theorem chainArm_timer {o : Orig} {c : Nat} {trig : ChainTrig} {d : Dev} {n : EvtId} (hn : d.trigTimer trig = some n.val) :
    let e := (chainArm o c trig).run d
    e.fld (F.EVT_STATUS_state n) = 1 ∧ KV.get none e.x.time.evtFw n = some (.chain c) := by
  have hsync : refSync.Writes fun r => r.kind = .SURF_REFS := writes_refSync fun n => rfl
  have hw : (seq [setCmdState o.id .armed, refSync]).Writes fun r => r.kind = .SURF_REFS := by simp [setCmdState, hsync]
  have hx : (seq [setCmdState o.id .armed, refSync]).Fixes timeView := by
    have hsync : refSync.Fixes timeView := fixes_refSync fun _ _ => rfl
    simp [hsync, setCmdState_cmdFixes (π := timeView) fun _ _ _ => rfl]
  cases trig with
  | frame dest count => exact absurd hn (by simp [Dev.trigTimer])
  | time scale sec ns =>
    intro e
    simp only [e]
    rw [chainArm_run, hn, run_seq_cons, trigArm, hw.fld (by simp), hx.time]
    exact fwTimer_shows n scale sec ns (.chain c) _

/-- A timer that is free is one of firmware's 48. -/
theorem freeTimer_lt {d : Dev} {n : Nat} (h : d.freeTimer = some n) : n < 48 :=
  List.mem_range.1 (List.mem_of_find?_eq_some h)

/-- What a check that is passed says. -/
theorem firstOf_none {l : List (Bool × Nat)} (h : firstOf l = none) : ∀ e ∈ l, e.1 = false := by
  induction l with
  | nil => simp
  | cons e l ih =>
    obtain ⟨c, r⟩ := e
    cases c with
    | true => exact absurd h nofun
    | false => exact List.forall_mem_cons.2 ⟨rfl, ih h⟩

section
variable {d e : Dev} (hd : CmdApart d e)
include hd

theorem CmdApart.freeTimer : e.freeTimer = d.freeTimer := by
  have hfld : ∀ n, e.fld (F.EVT_STATUS_state n) = d.fld (F.EVT_STATUS_state n) := fun n => hd.fld (by simp [commandWord])
  simp only [Dev.freeTimer, hfld, hd.time]

theorem CmdApart.trigTimer (trig : ChainTrig) : e.trigTimer trig = d.trigTimer trig := by
  cases trig with
  | time scale sec ns => exact hd.freeTimer
  | frame dest count => rfl

theorem CmdApart.trigLate (trig : ChainTrig) : e.trigLate trig = d.trigLate trig := by
  cases trig with
  | time scale sec ns => rw [Dev.trigLate, hd.scale, Dev.trigLate]
  | frame dest count => rw [Dev.trigLate, hd.frameDue, Dev.trigLate]

end

/-- A command that arms a chain: the chain it arms, and the timer that it takes. -/
theorem chainArm_completes {i : Instr} {cmd : Cmd} {sp : CmdSpec} {c : Nat} {trig : ChainTrig}
    (hi : exec i s = perform .core (rygus h cmd sp) s) (ha : s.dev.Admits h sp)
    (hp : sp.prog (cmdOrig s.dev h cmd sp) = checked (cmdOrig s.dev h cmd sp) (fun d => d.chainArmCheck c trig)
      (chainArm (cmdOrig s.dev h cmd sp) c trig))
    (hchk : (s.dev.opened h sp).chainArmCheck c trig = none) : Completes i s fun t =>
      t.chain c = chainArmed (cmdOrig s.dev h cmd sp) trig (s.dev.trigLate trig) (s.dev.trigTimer trig) (s.dev.chain c) ∧
      (∀ n : EvtId, s.dev.trigTimer trig = some n.val →
        t.fld (F.EVT_STATUS_state n) = 1 ∧ KV.get none t.x.time.evtFw n = some (.chain c)) ∧ KeepsMem s.dev t := by
  refine admitted_commits hi ha hp hchk fun e he => ⟨?_, fun n hn => ?_, keepsMem_of_eq ?_⟩
  · rw [settle_chain, chainArm_chain, he.trigLate, he.trigTimer, he.chain]
  · rw [settle_fld, settle_time]
    exact chainArm_timer ((he.trigTimer trig).trans hn)
  · rw [settle_mem, chainArm_mem, he.mem]

theorem chainArmCmd_completes {b : ChainArmBody} (ha : s.dev.Admits h (chainArmSpec b))
    (hchk : (s.dev.opened h (chainArmSpec b)).chainArmCheck b.chain b.trig = none) : Completes (.chainArm h b) s fun t =>
      (t.chain b.chain).state = 3 ∧ (t.chain b.chain).controller = b.controller ∧ KeepsMem s.dev t ∧
      match b.trig with
      | .frame dest count => s.dev.frameDue dest count = false → (t.chain b.chain).trig = some (.frame dest count)
      | .time .. => ∃ n, (t.chain b.chain).timer = some n ∧ t.fld (F.EVT_STATUS_state n) = 1 ∧
          KV.get none t.x.time.evtFw n = some (.chain b.chain) := by
  refine (chainArm_completes rfl ha rfl hchk).mono fun t ⟨hchain, htimer, hmem⟩ => ?_
  rw [hchain]
  refine ⟨rfl, rfl, hmem, ?_⟩
  cases htrig : b.trig with
  | frame dest count =>
    intro hdue
    simp [chainArmed, trigHeld, Dev.trigLate, hdue]
  | time scale sec ns =>
    rw [htrig] at hchk htimer
    have hfree : (s.dev.opened h (chainArmSpec b)).freeTimer.isNone = false :=
      firstOf_none hchk _ (List.mem_cons_of_mem _ (List.mem_cons_of_mem _ List.mem_cons_self))
    rw [(opened_apart s.dev h (chainArmSpec b)).freeTimer, Option.isNone_eq_false_iff] at hfree
    obtain ⟨n, hn⟩ := Option.isSome_iff_exists.1 hfree
    exact ⟨n, hn, htimer ⟨n, (freeTimer_lt hn).trans (by decide)⟩ hn⟩

theorem chainFire_completes {b : ChainFireBody} (ha : s.dev.Admits h (chainFireSpec b))
    (hchk : (s.dev.opened h (chainFireSpec b)).chainArmCheck b.chain (.frame b.dest 0) = none) :
    Completes (.chainFire h b) s fun t => (t.chain b.chain).state = 3 ∧
      (t.chain b.chain).trig = some (.frame b.dest 0) ∧ (t.chain b.chain).controller = b.controller ∧ KeepsMem s.dev t := by
  refine (chainArm_completes rfl ha rfl hchk).mono fun t ⟨hchain, _, hmem⟩ => ?_
  rw [hchain]
  exact ⟨rfl, rfl, rfl, hmem⟩

end

end Sys2Proof.Machine
end

section
/-!
PROOFS. Chains are cancelled and fire, and the obligation about chains: R117 to R120.
-/

namespace Sys2Proof.Machine

/-! ### CHAIN_CANCEL (R117, R120) -/

/-- The record of a command in progress. -/
def recordView (id : Nat) (x : Ext) : Option CmdRec := x.ctl.cmds.find? fun c => c.id == id

/-- The end of one command leaves the record of another. -/
theorem finish_record {i j : Nat} (h : j ≠ i) (flags : Nat) (body : List Nat) : (finish i flags body).Fixes (recordView j) := by
  refine fixes_sendCompletion_of (fun x c o hc => ?_) (fun g hg x => ?_) 0 flags body
  · exact congrArg (List.find? _) hc
  · refine (congrArg (List.find? _) (hg x.ctl)).trans ?_
    rw [cplCmds, if_pos rfl, List.find?_filter]
    refine List.find?_congr fun c _ => ?_
    by_cases hj : c.id = j
    · simp [hj, h]
    · simp [hj]

/-- What CHAIN_CANCEL does to a chain: it is LOADED, its timer is disarmed, and the command that armed it ends. -/
def chainLetGo (c : Nat) (m : ChainMem) : Prog := seq [
  chainUpd c fun m => { m with state := 2, trig := none, cmd := none, timer := none },
  match m.timer with | some n => evtDisarm n | none => .nop,
  match m.cmd with | some id => finish id 0 [c] | none => .nop,
  refSync]

/-- The registers that cancelling a chain changes. -/
def cancelWord (r : Reg) : Prop := commandWord r ∨ armingWord r

theorem chainLetGo_writes (c : Nat) (m : ChainMem) : (chainLetGo c m).Writes cancelWord := by
  have hsync : refSync.Writes cancelWord := writes_refSync fun n => .inr (by simp [armingWord])
  simp only [chainLetGo, acts_seq_cons, chainUpd_writes, hsync, acts_seq_nil, and_true, true_and]
  constructor
  · split
    · exact (evtDisarm_writes _).widen fun r hr => .inr (by rcases hr with rfl | rfl <;> simp [armingWord])
    · exact acts_nop
  · split
    · exact (finish_writes _ _ _).widen fun r => .inl
    · exact acts_nop

theorem cancelWord_apart (r : Reg) (h : cancelWord r) : ¬ intakeWord r := by
  simp only [cancelWord, commandWord, armingWord, List.mem_cons, List.not_mem_nil, or_false] at h
  intro hi
  simp only [intakeWord, List.mem_cons, List.not_mem_nil, or_false] at hi
  rcases hi with hi | hi | hi <;> simp [hi] at h

theorem evtDisarm_fixes {α : Type} {π : Ext → α} (h : ∀ x t, π { x with time := t } = π x) (n : Nat) : (evtDisarm n).Fixes π := by
  simp [evtDisarm, timeUpd, h]

/-- Cancelling a chain leaves the record of every command but the one that armed it. -/
theorem chainLetGo_record {j c : Nat} {m : ChainMem} (h : ∀ i, m.cmd = some i → j ≠ i) : (chainLetGo c m).Fixes (recordView j) := by
  have hsync : refSync.Fixes (recordView j) := fixes_refSync fun _ _ => rfl
  have hupd : ∀ f, (chainUpd c f).Fixes (recordView j) := chainUpd_fixes (fun _ _ _ => rfl) c
  simp only [chainLetGo, acts_seq_cons, hupd, hsync, acts_seq_nil, and_true, true_and]
  constructor
  · split
    · exact evtDisarm_fixes (fun _ _ => rfl) _
    · exact acts_nop
  · split
    · next i hi => exact finish_record (h i hi) 0 _
    · exact acts_nop

theorem chainLetGo_chain (c : Nat) (m : ChainMem) (d : Dev) : ((chainLetGo c m).run d).chain c =
    { d.chain c with state := 2, trig := none, cmd := none, timer := none } := by
  have hsync : refSync.Fixes chainsView := fixes_refSync fun _ _ => rfl
  rw [chainLetGo, run_seq_cons, chain_of_proj, chainUpd_chain]
  simp only [acts_seq_cons, hsync, acts_seq_nil, and_true]
  constructor
  · split
    · exact evtDisarm_fixes (fun _ _ => rfl) _
    · exact acts_nop
  · split
    · exact fixes_finish (fun _ _ _ => rfl) _ _ _
    · exact acts_nop

theorem CmdApart.chainFired {d e : Dev} (h : CmdApart d e) (c : Nat) : e.chainFired c = d.chainFired c := by
  rw [Dev.chainFired, show e.x.chainDue = d.x.chainDue from h.proj (π := fun x => x.chainDue) fun _ _ _ => rfl, h.chain]
  simp only [h.scale]
  rfl

theorem chainCancel_completes {h : Hdr} {s : State} {b : ChainCancelBody} (ha : s.dev.Admits h (chainCancelSpec b))
    (h3 : (s.dev.chain b.chain).state = 3) (hf : s.dev.chainFired b.chain = false)
    (hcmd : ∀ i, (s.dev.chain b.chain).cmd = some i → ∃ e ∈ s.dev.x.ctl.cmds, e.id = i) :
    Completes (.chainCancel h b) s fun t => (t.chain b.chain).state = 2 ∧ (t.chain b.chain).trig = none ∧
      Answered t h (chainCancelSpec b) .done 0 [] ∧ KeepsMem s.dev t := by
  have hopened := opened_apart s.dev h (chainCancelSpec b)
  have hopen : s.dev.intakeOpen h.intake = true := ha.2.1
  have hother : ∀ i, (s.dev.chain b.chain).cmd = some i → s.dev.x.ctl.fresh ≠ i := fun i hi => by
    obtain ⟨e, he, rfl⟩ := hcmd i hi
    exact (CtlState.lt_fresh he).ne'
  have hw := chainLetGo_writes b.chain (s.dev.chain b.chain)
  have he := effect_apart s.dev h (.chainCancel b) (chainCancelSpec b)
  have hctl : ((committed (cmdOrig s.dev h (.chainCancel b) (chainCancelSpec b))).run (s.dev.opened h (chainCancelSpec b))).x.ctl =
      (s.dev.opened h (chainCancelSpec b)).x.ctl := (committed_fixes _).ctlTime_ctl _
  have hrun : (rygus h (.chainCancel b) (chainCancelSpec b)).run s.dev = (sendCompletion s.dev.x.ctl.fresh true .done 0 0 []).run
      ((chainLetGo b.chain (s.dev.chain b.chain)).run
        ((committed (cmdOrig s.dev h (.chainCancel b) (chainCancelSpec b))).run (s.dev.opened h (chainCancelSpec b)))) := by
    rw [rygus_run ha]
    refine (checked_run (chk := fun d => firstOf [
      ((d.chain b.chain).state == 4 || ((d.chain b.chain).state == 3 && d.chainFired b.chain), Reason.chainFired),
      ((d.chain b.chain).state ≠ 3, if (d.chain b.chain).firedAt.isSome then Reason.chainFired else Reason.chainBusy)]) rfl
      (firstOf_eq_none (by simp [hopened.chain, hopened.chainFired, h3, hf])) _).trans ?_
    rw [run_read, he.chain, chainLetGo]
    simp only [run_seq_cons, run_seq_nil]
    rfl
  refine completes_of_live rfl ha.1 ?_
  rw [hrun]
  generalize (committed (cmdOrig s.dev h (.chainCancel b) (chainCancelSpec b))).run (s.dev.opened h (chainCancelSpec b)) = e at he hctl
  have hrecord : ((chainLetGo b.chain (s.dev.chain b.chain)).run e).x.ctl.cmds.find? (fun c => c.id == s.dev.x.ctl.fresh) =
      some (cmdOpened s.dev h (chainCancelSpec b)) := by
    refine ((chainLetGo_record hother).proj e).trans ?_
    rw [recordView, hctl, opened_find]
  obtain ⟨hans, ht⟩ := sendCompletion_answers hrecord (by
    rw [KeepsIntake.open_eq (fun r hr => hw.keepsRegs e r fun h => cancelWord_apart r h hr),
      KeepsIntake.open_eq he.frame.intake, hopen]) .done 0 []
  rw [ht.chain, chainLetGo_chain]
  exact ⟨rfl, rfl, hans, keepsMem_of_eq (by rw [ht.mem, hw.memFree.run_mem, he.mem])⟩

/-! ### Scripts that keep what holds of the typed state -/

/-- The action writes no memory, and keeps what holds of the typed state. -/
def Prim.Upholds (P : Ext → Prop) : Prim → Prop
  | .wr _ _ => True
  | .fstate _ _ => True
  | .regReset _ => True
  | .ext g => ∀ x, P x → P (g x)
  | _ => False

/-- The script writes no memory, and keeps what holds of the typed state. -/
abbrev Prog.Upholds (P : Ext → Prop) (p : Prog) : Prop := p.Acts (Prim.Upholds P)

section
variable {P : Ext → Prop}

theorem Prog.Upholds.holds {p : Prog} (h : p.Upholds P) (d : Dev) : P d.x → P (p.run d).x := by
  refine h.run_rel (R := fun d e => P d.x → P e.x) (fun _ => id) (fun h g hP => g (h hP)) (fun q d hq hP => ?_) d
  cases q with
  | wr r v => exact (wr_x r v d).symm ▸ hP
  | fstate r w =>
    rw [Prim.apply]
    split <;> exact hP
  | regReset p => exact hP
  | ext g => exact hq d.x hP
  | mem a bs => exact hq.elim
  | memZero p => exact hq.elim

theorem Prog.Upholds.mem {p : Prog} (h : p.Upholds P) (d : Dev) : (p.run d).mem = d.mem :=
  Prog.Acts.run_mem (h.mono fun q hq => by cases q <;> trivial) d

/-- What a script fixes, it upholds. -/
theorem Prog.Fixes.upholds {α : Type} {π : Ext → α} {p : Prog} (h : p.Fixes π) (hP : ∀ x y, π x = π y → P y → P x) :
    p.Upholds P :=
  h.mono fun q hq => by
    cases q with
    | wr r v => trivial
    | fstate r w => trivial
    | regReset p => trivial
    | ext g => exact fun x => hP _ _ (hq x)
    | mem a bs => exact hq.elim
    | memZero p => exact hq.elim

end

/-! ### A chain fires (R118, R119) -/

/-- The chains, and those whose fire instant firmware has been told of. -/
def firingView (x : Ext) : KV ChainMem × List (Nat × Nat × Nat) := (x.chains, x.chainDue)

/-- A chain has fired at an instant and is FIRING, or LOADED again, and nothing is due for it. -/
def Fired (c : Nat) (f : Int) (x : Ext) : Prop :=
  let m := KV.get ({} : ChainMem) x.chains c
  m.firedAt = some f ∧ (m.state = 4 ∨ m.state = 2) ∧ ∀ e ∈ x.chainDue, e.1 ≠ c

section
variable {c : Nat} {f : Int}

theorem upholds_of_fixes {p : Prog} (h : p.Fixes firingView) : p.Upholds (Fired c f) :=
  h.upholds fun x y hxy hP => by
    obtain ⟨hchains, hdue⟩ := Prod.mk.inj hxy
    rw [Fired, hchains, hdue]
    exact hP

/-- A change of the chain that keeps its fire instant, and its being FIRING or LOADED. -/
theorem chainUpd_upholds {u : ChainMem → ChainMem} (hf : ∀ m, (u m).firedAt = m.firedAt)
    (hs : ∀ m, m.state = 4 ∨ m.state = 2 → (u m).state = 4 ∨ (u m).state = 2) : (chainUpd c u).Upholds (Fired c f) := by
  refine (acts_seq_cons _ _).2 ⟨fun x hx => ?_, (acts_seq_cons _ _).2 ⟨fun _ _ hx => hx, acts_seq_nil⟩⟩
  obtain ⟨hfired, hstate, hdue⟩ := hx
  simp only [Fired, KV.get_upd_self]
  exact ⟨(hf _).trans hfired, hs _ hstate, hdue⟩

theorem xptSave_firing (n : Nat) : (xptSave n).Fixes firingView := by simp [xptSave, mramPut, firingView]
theorem refSync_firing : refSync.Fixes firingView := fixes_refSync fun _ _ => rfl
theorem finish_firing (id flags : Nat) (body : List Nat) : (finish id flags body).Fixes firingView :=
  fixes_finish (fun _ _ _ => rfl) id flags body

theorem applyChanges_fixes {α : Type} (π : Ext → α) (n : Nat) (l : List PendTake) : (applyChanges n l).Fixes π := by
  simp only [applyChanges, acts_read, acts_seq_cons, acts_each, acts_seq_nil, and_true]
  refine fun d => ⟨by simp [putRoute], fun t _ => ?_⟩
  split <;> simp

theorem writePending_firing (n : Nat) (t : PendTake) : (writePending n t).Fixes firingView := by
  unfold writePending
  split <;> simp

theorem chainEnd_upholds : (chainEnd c).Upholds (Fired c f) := by
  simp only [chainEnd, acts_doWhen, acts_read, acts_seq_cons, acts_seq_nil, and_true]
  refine fun _ _ d => ⟨chainUpd_upholds (fun _ => rfl) fun _ _ => .inr rfl, ?_⟩
  split
  · exact upholds_of_fixes (finish_firing _ _ _)
  · exact acts_nop

/-- The commit of a change of the chain keeps the chain fired. -/
theorem commitChange_upholds {n : Nat} {ms : List (Nat × Nat)} {i : Int} {field2 report : Bool}
    {make : Nat → Nat → Nat × Bool → PendTake} (hm : ∀ m q l, (make m q l).chain = some c) :
    (commitChange n ms i field2 report make).Upholds (Fired c f) := by
  have hwrite : ∀ m t, (writePending m t).Upholds (Fired c f) := fun m t => upholds_of_fixes (writePending_firing m t)
  have happly : ∀ m l, (applyChanges m l).Upholds (Fired c f) := fun m l => upholds_of_fixes (applyChanges_fixes firingView m l)
  have hsave : ∀ m, (xptSave m).Upholds (Fired c f) := fun m => upholds_of_fixes (xptSave_firing m)
  have hsync : refSync.Upholds (Fired c f) := upholds_of_fixes refSync_firing
  have hdst : ∀ m u, (dstUpd m u).Upholds (Fired c f) := fun m u _ hx => hx
  have hland : ∀ v, (chainUpd c fun m => { m with outstanding := m.outstanding - 1, landed := m.landed ++ [v] }).Upholds
      (Fired c f) := fun v => chainUpd_upholds (fun _ => rfl) fun _ h => h
  simp only [commitChange, acts_read, acts_ite, acts_seq_cons, acts_each, hm, hwrite, happly, hsave, hsync, hdst, hland,
    chainEnd_upholds, acts_seq_nil, acts_nop, and_self, implies_true]

theorem commitTake_upholds (b : TakeBody) (i : Int) : (commitTake c (some c) b i).Upholds (Fired c f) := by
  simp only [commitTake, acts_read]
  exact fun d => commitChange_upholds fun _ _ _ => rfl

/-- A chain that fires is FIRING from its fire instant, and its entries are committed or skipped. -/
theorem chainFire_run (c : Nat) (f : Int) (d : Dev) : ∃ rest : Prog, rest.Upholds (Fired c f) ∧ (chainFire c f).run d =
    rest.run ((chainUpd c fun m => { m with
      state := 4, firedAt := some f, outstanding := (d.chain c).entries.length + 1 }).run d) := by
  refine ⟨_, ?_, run_seq_cons _ _ _⟩
  have hskip : ∀ v, (chainUpd c fun m => { m with skipped := m.skipped ++ [v], outstanding := m.outstanding - 1 }).Upholds
      (Fired c f) := fun v => chainUpd_upholds (fun _ => rfl) fun _ h => h
  have hcount : (chainUpd c fun m => { m with outstanding := m.outstanding - 1 }).Upholds (Fired c f) :=
    chainUpd_upholds (fun _ => rfl) fun _ h => h
  simp only [acts_seq_cons, acts_each, acts_read, hcount, upholds_of_fixes refSync_firing, chainEnd_upholds, acts_seq_nil, and_true]
  intro b _ e
  split
  · exact hskip _
  · exact commitTake_upholds _ _

/-- Once a chain fires, with nothing due for it, it has fired. -/
theorem chainFire_fired {d : Dev} (h : ∀ e ∈ d.x.chainDue, e.1 ≠ c) : Fired c f ((chainFire c f).run d).x := by
  obtain ⟨rest, hrest, hrun⟩ := chainFire_run c f d
  rw [hrun]
  refine hrest.holds _ ⟨?_, ?_, h⟩
  · exact congrArg ChainMem.firedAt (chainUpd_chain c _ d)
  · exact .inl (congrArg ChainMem.state (chainUpd_chain c _ d))

theorem chainFire_mem (d : Dev) : ((chainFire c f).run d).mem = d.mem := by
  obtain ⟨rest, hrest, hrun⟩ := chainFire_run c f d
  rw [hrun, hrest.mem, (chainUpd_writes c _ fun _ => False).memFree.run_mem]

end

theorem settle_fired {c : Nat} {f : Int} {d : Dev} (h : Fired c f d.x) : Fired c f (settle.run d).x := by
  rw [(settle_same d).2.2]
  exact h

theorem chainTrigger_completes {s : State} {c : Fin 256} {due scale : Nat} (hl : s.dev.live = true)
    (h3 : (s.dev.chain c).state = 3)
    (hdue : s.dev.x.chainDue.find? (fun e => e.1 == c.val) = some (c.val, due, scale)) : Completes (.chainTrigger c) s fun t =>
      Fired c (if (s.dev.chain c).late then (s.dev.x.time.ht : Int) else s.dev.toHt scale due) t.x ∧ KeepsMem s.dev t := by
  have hrun : (chainTrigger c).run s.dev =
      (chainFire c (if (s.dev.chain c).late then (s.dev.x.time.ht : Int) else s.dev.toHt scale due)).run
        ((ext fun x => { x with chainDue := x.chainDue.filter fun e => e.1 ≠ c }).run s.dev) := by
    rw [chainTrigger, run_read, hdue]
    simp only [h3]
    rw [run_seq_cons, run_seq_cons, run_seq_nil, run_doIf, if_pos (by rfl)]
  refine completes_of_live rfl hl ?_
  rw [hrun]
  refine ⟨settle_fired (chainFire_fired fun e he => ?_), keepsMem_of_eq ?_⟩
  · simpa using (List.mem_filter.1 he).2
  · rw [settle_mem, chainFire_mem, ext_mem]

/-- Settles O26: each message by its own lemma, and a trigger by what a fired chain holds. -/
theorem chainsAreLoadedArmedFiredAndCancelled : Obligations.ChainsAreLoadedArmedFiredAndCancelled := by
  unfold Obligations.ChainsAreLoadedArmedFiredAndCancelled
  refine ⟨fun h b s ha hchk => chainLoad_completes ha hchk, fun h b s ha hchk => chainArmCmd_completes ha hchk,
    fun h b s ha hchk => chainFire_completes ha hchk, fun h b s ha h3 hf hcmd => chainCancel_completes ha h3 hf hcmd,
    fun h c s ha => chainQuery_completes ha, fun c due scale s hl h3 hdue => ?_⟩
  refine (chainTrigger_completes hl h3 hdue).mono fun t ⟨⟨hfired, hstate, hnone⟩, hmem⟩ => ?_
  exact ⟨hfired, hstate, hnone, hmem⟩

end Sys2Proof.Machine
end

section
/-!
PROOFS. What scripts leave of what a processor holds: R142, R145, R151, R155, R158.
-/

namespace Sys2Proof.Machine

/-- What `ρ` shows of what a processor holds. -/
def prcShow {α : Type} (q : Nat) (ρ : PrcMem → α) (x : Ext) : α := ρ (KV.get {} x.prc q)

section
variable {α : Type} {p q : Nat} {ρ : PrcMem → α}

theorem Prog.Fixes.prcm {P : Prog} (h : P.Fixes (prcShow q ρ)) (d : Dev) : ρ ((P.run d).prcm q) = ρ (d.prcm q) := h.proj d

theorem cplBlind_prcShow : CplBlind (prcShow q ρ) := fun _ _ _ => rfl

theorem CmdApart.prcm {d e : Dev} (h : CmdApart d e) (p : Nat) : e.prcm p = d.prcm p := h.proj (cplBlind_prcShow (ρ := id))

@[simp] theorem settle_prcm (d : Dev) (p : Nat) : (settle.run d).prcm p = d.prcm p := (CmdApart.settled d).prcm p

/-! ### A processor's own scripts -/

/-- A change of what a processor holds leaves the other processors, and what it does not concern. -/
theorem prcUpd_shows {u : PrcMem → PrcMem} (h : q = p → ∀ m, ρ (u m) = ρ m) : (prcUpd p u).Fixes (prcShow q ρ) := fun x => by
  by_cases hq : q = p
  · subst hq
    exact (congrArg ρ (KV.get_upd_self _ _ _ _)).trans (h rfl _)
  · exact congrArg ρ (KV.get_upd_other _ _ _ hq)

@[simp] theorem storeUpd_shows (c : Nat) (u : Store → Store) : (storeUpd c u).Fixes (prcShow q ρ) := fun _ => rfl
@[simp] theorem procRelease_shows : (procRelease p).Fixes (prcShow q ρ) := fun _ => rfl
@[simp] theorem hold_shows (c : Nat) (h : Holder) (s : Option Nat) : (hold c h s).Fixes (prcShow q ρ) := fun _ => rfl
@[simp] theorem histAdd_shows (k b i c : Nat) : (histAdd k b i c).Fixes (prcShow q ρ) := fun _ _ => rfl
@[simp] theorem fnMem_shows (f : Fn) (u : FnMem → FnMem) : (fnMem f u).Fixes (prcShow q ρ) := fun _ => rfl
@[simp] theorem raise_shows (f : Field) : (raise f).Fixes (prcShow q ρ) := fixes_raise f histAdd_shows
@[simp] theorem statusAlarm_shows (s a : Field) (b : Bool) : (statusAlarm s a b).Fixes (prcShow q ρ) :=
  fixes_statusAlarm s a b histAdd_shows

theorem engUpdate_fixes {β : Type} (π : Ext → β) (e : Nat) : (engUpdate e).Fixes π := by simp [engUpdate]

theorem procMirror_fixes {β : Type} (π : Ext → β) (p : Nat) : (procMirror p).Fixes π := by
  have hput : ∀ f w, (fnPut f w).Fixes π := fun _ _ => trivial
  simp only [procMirror, acts_read]
  intro d
  split <;> simp [engUpdate_fixes, hput]

theorem fnEnable_shows (f : Fn) : (fnEnable f).Fixes (prcShow q ρ) := by
  simp only [fnEnable, acts_seq_cons, fnMem_shows, acts_read, acts_seq_nil, and_true, true_and]
  intro d
  split <;> simp [fnUpd_fixes]

theorem fnDisable_shows (f : Fn) : (fnDisable f).Fixes (prcShow q ρ) := by
  simp only [fnDisable, acts_read]
  intro d
  split <;> simp [fnUpd_fixes]

theorem fnFault_shows (f : Fn) (code : Nat) : (fnFault f code).Fixes (prcShow q ρ) := by
  simp [fnFault, fnUpd_fixes]

theorem procRestart_shows (h : q ≠ p) : (procRestart p).Fixes (prcShow q ρ) := prcUpd_shows fun e => absurd e h

theorem procAlloc_shows (c : PrcCfg) : (procAlloc p c).Fixes (prcShow q ρ) := by
  have harea : ∀ g : List (Nat × Nat × Nat) → List (Nat × Nat × Nat),
      (ext fun x => { x with areas := g x.areas }).Fixes (prcShow q ρ) := fun _ _ => rfl
  simp only [procAlloc, acts_read, acts_seq_cons, acts_ite, acts_doIf, acts_nop, storeUpd_shows, harea, acts_seq_nil, implies_true,
    and_true, true_and]
  refine fun d => ⟨fun _ _ e => ?_, fun _ e => ?_⟩
  · split <;> simp
  · split
    · exact fun _ => rfl
    · exact acts_nop

section
variable (hj : q = p → ∀ m j, ρ { m with job := j } = ρ m)
include hj

theorem procDrop_shows : (procDrop p).Fixes (prcShow q ρ) := by
  have hu : (prcUpd p fun m => { m with job := none }).Fixes (prcShow q ρ) := prcUpd_shows fun e m => hj e m none
  simp only [procDrop, acts_read]
  intro d
  split <;> simp [hu]

theorem procStopped_shows : (procStopped p).Fixes (prcShow q ρ) := by
  simp only [procStopped, acts_seq_cons, procDrop_shows hj, procRelease_shows, fixes_setF, acts_read, acts_seq_nil, and_true, true_and]
  intro d
  split <;> simp

end

/-! ### Landing (R145, R158) -/

theorem lutSync_shows (l : List Nat) : (lutSync l).Fixes (prcShow q ρ) := by
  simp [lutSync, prcShow]

theorem refSync_shows : refSync.Fixes (prcShow q ρ) := fixes_refSync fun _ _ => rfl

/-- A landing at a processor leaves what the others hold. -/
theorem procLand1_shows (h : q ≠ p) (c : PrcCfg) : (procLand1 p c).Fixes (prcShow q ρ) := by
  have hj : q = p → ∀ m j, ρ { m with job := j } = ρ m := fun e => absurd e h
  have hu : ∀ u, (prcUpd p u).Fixes (prcShow q ρ) := fun _ => prcUpd_shows fun e => absurd e h
  simp only [procLand1, acts_read, acts_seq_cons, procDrop_shows hj, procRestart_shows h, hu, procAlloc_shows, acts_ite, fnEnable_shows,
    fnDisable_shows, acts_doIf, fnFault_shows, acts_doWhen, procStopped_shows hj, procMirror_fixes, acts_seq_nil, implies_true,
    and_true, true_and]
  intro d
  split <;> simp

/-- The configuration that lands is in force. -/
theorem procLand1_cfg (p : Nat) (c : PrcCfg) (d : Dev) : (((procLand1 p c).run d).prcm p).cfg = some c := by
  have hj : p = p → ∀ (m : PrcMem) j, { m with job := j }.cfg = m.cfg := fun _ _ _ => rfl
  simp only [procLand1, run_read]
  rw [run_seq_cons, run_seq_cons, run_seq_cons]
  refine (Prog.Fixes.prcm ?_ _).trans (congrArg PrcMem.cfg (prcUpd_self _ _ _))
  simp only [acts_seq_cons, procAlloc_shows, acts_ite, fnEnable_shows, fnDisable_shows, acts_doIf, fnFault_shows, acts_doWhen,
    procStopped_shows hj, procMirror_fixes, acts_seq_nil, implies_true, and_true, true_and]
  split <;> simp

/-- A landing of due configurations leaves what the other processors hold. -/
theorem procLand_shows (h : q ≠ p) (frame : Nat) (pick : Nat × Nat × PrcCfg → Bool) :
    (procLand p frame pick).Fixes (prcShow q ρ) := by
  have hu : ∀ u, (prcUpd p u).Fixes (prcShow q ρ) := fun _ => prcUpd_shows fun e => absurd e h
  simp only [procLand, acts_read]
  intro d
  split
  · exact acts_nop
  · simp [hu, procLand1_shows h, lutSync_shows, refSync_shows, planUpdate_fixes, fixes_finish cplBlind_prcShow]

/-- The last due configuration stays in force. -/
theorem procLand_cfg {frame : Nat} {pick : Nat × Nat × PrcCfg → Bool} {d : Dev} {id at_ : Nat} {c : PrcCfg}
    (hdue : ((d.prcm p).pend.filter pick).getLast? = some (id, at_, c)) : (((procLand p frame pick).run d).prcm p).cfg = some c := by
  simp only [procLand, run_read, hdue]
  rw [run_seq_cons, run_seq_cons]
  refine (Prog.Fixes.prcm ?_ _).trans (procLand1_cfg p c _)
  simp [lutSync_shows, refSync_shows, planUpdate_fixes, fixes_finish cplBlind_prcShow]

theorem procLand_none {frame : Nat} {pick : Nat × Nat × PrcCfg → Bool} {d : Dev} (h : (d.prcm p).pend = []) :
    (procLand p frame pick).run d = d := by
  simp [procLand, h]

/-! ### The gangs of a configuration (R142) -/

/-- A configuration sets up each gang once. -/
theorem procLeaders_nodup (p : Nat) (c : PrcCfg) : ((procLeaders p c).map (·.1)).Nodup := by
  unfold procLeaders
  split
  · simp [List.range_succ]
  · simp

/-- In scripts that each concern one processor, what a processor holds changes at its own turn only. -/
theorem each_turn {β : Type} {f : Nat × β → Prog} (hf : ∀ a q, q ≠ a.1 → (f a).Fixes (prcShow q id)) {ls : List (Nat × β)} :
    (ls.map (·.1)).Nodup → ∀ {l}, l ∈ ls → ∀ d : Dev, ∃ e : Dev, e.prcm l.1 = d.prcm l.1 ∧
      ((each ls f).run d).prcm l.1 = ((f l).run e).prcm l.1 := by
  induction ls with
  | nil => exact fun _ _ h => absurd h List.not_mem_nil
  | cons a ls ih =>
    intro hn l hl d
    obtain ⟨ha, hn⟩ := List.nodup_cons.1 hn
    obtain rfl | hl := List.mem_cons.1 hl
    · have hrest : (each ls f).Fixes (prcShow l.1 id) :=
        (acts_each _ _).2 fun b hb => hf b _ fun e => ha (List.mem_map.2 ⟨b, hb, e.symm⟩)
      exact ⟨d, rfl, by rw [run_each_cons]; exact hrest.prcm _⟩
    · obtain ⟨e, he, h⟩ := ih hn hl ((f a).run d)
      have hother := (hf a l.1 fun e => ha (List.mem_map.2 ⟨l, hl, e⟩)).prcm d
      exact ⟨e, he.trans hother, by rw [run_each_cons]; exact h⟩
end

end Sys2Proof.Machine
end

section
/-!
PROOFS. Processor configurations, table loads and queries: R145, R150, R158, R164, R165.
-/

namespace Sys2Proof.Machine

/-! ### PROC_SET (R145, R165) -/

/-- A configuration is pending last. -/
def PrcMem.pends (t : Nat × Nat × PrcCfg) (m : PrcMem) : PrcMem := { m with pend := m.pend ++ [t] }

/-- What PROC_SET does before an idle path lands it. -/
def procPend (p : Nat) (c : PrcCfg) (num frame : Nat) : Prog := seq [
  procWrite p c, procSave p c, setCmdState num .committed,
  each (procLeaders p c) fun l => prcUpd l.1 (PrcMem.pends (num, frame, l.2)),
  lutSync (List.range 64), planUpdate]

theorem procWrite_writes (p : Nat) (c : PrcCfg) : (procWrite p c).Writes fun _ => True := by simp [procWrite]

theorem procWrite_fixes {α : Type} (π : Ext → α) (p : Nat) (c : PrcCfg) : (procWrite p c).Fixes π := by simp [procWrite]

theorem procSave_shows {α : Type} {q : Nat} {ρ : PrcMem → α} (p : Nat) (c : PrcCfg) : (procSave p c).Fixes (prcShow q ρ) := by
  simp [procSave, mramPut, prcShow]

theorem procPend_writes (p : Nat) (c : PrcCfg) (num frame : Nat) : (procPend p c num frame).Writes fun _ => True := by
  simp [procPend, procWrite_writes, procSave, mramPut, setCmdState, lutSync, planUpdate, prcUpd]

section
variable {p : Nat} {c : PrcCfg} {num : Nat} {l : Nat × PrcCfg} (hl : l ∈ procLeaders p c)
include hl

/-- The configuration of each gang is pending last. -/
theorem procPend_pend (frame : Nat) (d : Dev) :
    (((procPend p c num frame).run d).prcm l.1).pend = (d.prcm l.1).pend ++ [(num, frame, l.2)] := by
  have hfirst : (seq [procWrite p c, procSave p c, setCmdState num .committed]).Fixes (prcShow l.1 id) := by
    simp [procWrite_fixes, procSave_shows, setCmdState_cmdFixes cplBlind_prcShow]
  have hlast : (seq [lutSync (List.range 64), planUpdate]).Fixes (prcShow l.1 id) := by
    simp [lutSync_shows, planUpdate_fixes]
  have hother : ∀ (a : Nat × PrcCfg) q, q ≠ a.1 →
      (prcUpd a.1 (PrcMem.pends (num, frame, a.2))).Fixes (prcShow q id) :=
    fun _ _ hq => prcUpd_shows fun e => absurd e hq
  obtain ⟨e, he, hturn⟩ := each_turn hother (procLeaders_nodup p c) hl
    ((seq [procWrite p c, procSave p c, setCmdState num .committed]).run d)
  have hfirst : e.prcm l.1 = d.prcm l.1 := he.trans (hfirst.prcm d)
  rw [prcUpd_self, hfirst] at hturn
  exact congrArg PrcMem.pend ((hlast.prcm _).trans hturn)

/-- On an idle path the configuration of each gang lands. -/
theorem procLand_lands {frame landed : Nat} {d : Dev} {pre : List (Nat × Nat × PrcCfg)}
    (hpend : (d.prcm l.1).pend = pre ++ [(num, frame, l.2)]) :
    (((each (procLeaders p c) fun l => procLand l.1 landed fun t => t.1 == num).run d).prcm l.1).cfg = some l.2 := by
  obtain ⟨e, he, hturn⟩ := each_turn (f := fun l : Nat × PrcCfg => procLand l.1 landed fun t => t.1 == num)
    (fun a q hq => procLand_shows hq _ _) (procLeaders_nodup p c) hl d
  rw [hturn]
  exact procLand_cfg (id := num) (at_ := frame) (by simp [he, hpend])

end

/-- What PROC_SET does after: on an idle path the command's configurations land. -/
def procIdleLand (p : Nat) (c : PrcCfg) (num landed : Nat) (idle : Bool) : Prog :=
  doIf (!c.publish && idle) (each (procLeaders p c) fun l => procLand l.1 landed fun t => t.1 == num)

section
variable {h : Hdr} {s : State} {b : ProcSetBody} {c : PrcCfg} (hc : c = ⟨b.regs, b.mtx⟩) (ha : s.dev.Admits h (procSetSpec b))
  (hchk : (s.dev.opened h (procSetSpec b)).procCheck b.proc c (s.dev.actsFor h (procSetSpec b)) = none)
include hc ha hchk

/-- An admitted PROC_SET that passes its check is pending at every gang; on an idle path it lands then. -/
theorem procSet_runs {P : Dev → Prop} (hP : ∀ e frame landed, CmdApart s.dev e →
      P (settle.run ((procIdleLand b.proc c s.dev.x.ctl.fresh landed (s.dev.dstIdle c.dest)).run
        ((procPend b.proc c s.dev.x.ctl.fresh frame).run e)))) : Completes (.procSet h b) s P := by
  subst hc
  refine admitted_commits (chk := fun d => d.procCheck b.proc ⟨b.regs, b.mtx⟩ (s.dev.actsFor h (procSetSpec b))) rfl ha rfl hchk
    fun e he => ?_
  have hdone := hP e (e.landing (PrcCfg.mk b.regs b.mtx).dest (cmdOrig s.dev h (.procSet b) (procSetSpec b)).instant false).1
    (e.rd64 (R.DST_LANDED_LO (PrcCfg.mk b.regs b.mtx).dest) (R.DST_LANDED_HI (PrcCfg.mk b.regs b.mtx).dest)) he
  rw [← he.dstIdle] at hdone
  exact hdone

theorem procSet_pends (hwait : c.publish = true ∨ s.dev.dstIdle c.dest = false) : Completes (.procSet h b) s fun t =>
    (∀ l ∈ procLeaders b.proc c, ∃ frame, (t.prcm l.1).pend = (s.dev.prcm l.1).pend ++ [(s.dev.x.ctl.fresh, frame, l.2)]) ∧
    KeepsMem s.dev t := by
  refine procSet_runs hc ha hchk fun e frame landed he => ?_
  have hnot : (!c.publish && s.dev.dstIdle c.dest) = false := by
    rcases hwait with h | h <;> simp [h]
  rw [procIdleLand, hnot, run_doIf, if_neg Bool.false_ne_true]
  constructor
  · intro l hl
    rw [settle_prcm, procPend_pend hl, he.prcm]
    exact ⟨frame, rfl⟩
  · exact keepsMem_of_eq (by rw [settle_mem, (procPend_writes _ _ _ _).memFree.run_mem, he.mem])

theorem procSet_lands (hpath : c.publish = false) (hidle : s.dev.dstIdle c.dest = true) : Completes (.procSet h b) s fun t =>
    ∀ l ∈ procLeaders b.proc c, (t.prcm l.1).cfg = some l.2 := by
  refine procSet_runs hc ha hchk fun e frame landed he l hl => ?_
  rw [procIdleLand, hpath, hidle, run_doIf, if_pos (by decide), settle_prcm]
  exact procLand_lands hl (procPend_pend hl frame e)

end

theorem cmdOrig_id (d : Dev) (h : Hdr) (cmd : Cmd) (sp : CmdSpec) : (cmdOrig d h cmd sp).id = d.x.ctl.fresh := rfl

/-! ### 3D LUT slots (R158, R165) -/

/-- A table with entries laid from a place on. -/
def lutLay {α : Type} (g : α → Nat) (l : List α) (first n : Nat) (m : KV Nat) : KV Nat :=
  (l.zipIdx n).foldl (fun m e => KV.set 0 m (first + e.2) (g e.1)) m

theorem lutLay_below {α : Type} {g : α → Nat} {l : List α} {first n k : Nat} {m : KV Nat} (h : k < first + n) :
    KV.get 0 (lutLay g l first n m) k = KV.get 0 m k := by
  induction l generalizing n m with
  | nil => rfl
  | cons a l ih => exact (ih (n := n + 1) (by omega)).trans (KV.get_set_other _ _ _ (by omega))

/-- Each entry stands at its place. -/
theorem lutLay_get {α : Type} {g : α → Nat} {l : List α} {first n i : Nat} {m : KV Nat} (dflt : α) (h : i < l.length) :
    KV.get 0 (lutLay g l first n m) (first + (n + i)) = g (l.getD i dflt) := by
  induction l generalizing n m i with
  | nil => exact absurd h (Nat.not_lt_zero _)
  | cons a l ih =>
    cases i with
    | zero => exact (lutLay_below (n := n + 1) (by omega)).trans (KV.get_set_self _ _ _ _)
    | succ i =>
      have hnext : n + (i + 1) = n + 1 + i := by omega
      rw [hnext]
      exact ih (Nat.lt_of_succ_lt_succ h)

/-- An entry of a 3D LUT as a slot stores it (R158). -/
def lutPack (e : Nat × Nat × Nat) : Nat := e.1 + e.2.1 * 2 ^ 12 + e.2.2 * 2 ^ 24

/-- The register words of a slot. -/
def lutWord (slot : Nat) (r : Reg) : Prop := r = R.LUT3D_LOADED slot ∨ r = R.LUT3D_STATE slot

theorem lutWord_apart (slot : Nat) (r : Reg) (h : lutWord slot r) : ¬ intakeWord r := by
  rcases h with rfl | rfl <;> simp [intakeWord]

theorem CmdApart.lutUsers {d e : Dev} (h : CmdApart d e) (slot : Nat) : e.lutUsers slot = d.lutUsers slot := by
  rw [Dev.lutUsers, show e.x.prc = d.x.prc from h.proj (π := Ext.prc) fun _ _ _ => rfl, Dev.lutUsers]

theorem lutState_within {slot : Nat} (h : slot < 64) : (F.LUT3D_STATE_state slot).within = true :=
  Field.within_of_hasBits (Reg.valid_indexed rfl h) (show hasBits .LUT3D_STATE 0 2 = true by decide)

/-- What PROC_LUT3D_LOAD does. -/
def lutFill (b : LutLoadBody) : Prog := .read fun d => seq [
  ext fun x => { x with luts := KV.upd [] x.luts b.slot (lutLay lutPack b.entries b.first 0) },
  wr (R.LUT3D_LOADED b.slot) (max (d.rd (R.LUT3D_LOADED b.slot)) (b.first + b.entries.length)),
  setF (F.LUT3D_STATE_state b.slot) (if b.last then 2 else 1)]

theorem lutFill_writes (b : LutLoadBody) : (lutFill b).Writes (lutWord b.slot) := by simp [lutFill, lutWord]
theorem lutFill_ctl (b : LutLoadBody) : (lutFill b).Fixes ctlView := by simp [lutFill, ctlView]

/-- What PROC_LUT3D_FREE does at a slot nobody uses. -/
def lutEmpty (slot : Nat) : Prog := seq [
  setF (F.LUT3D_STATE_state slot) 0, wr (R.LUT3D_LOADED slot) 0, ext fun x => { x with luts := KV.set [] x.luts slot [] }]

theorem lutEmpty_writes (slot : Nat) : (lutEmpty slot).Writes (lutWord slot) := by simp [lutEmpty, lutWord]
theorem lutEmpty_ctl (slot : Nat) : (lutEmpty slot).Fixes ctlView := by simp [lutEmpty, ctlView]

theorem luts_setF (f : Field) (v : Nat) (d : Dev) : ((setF f v).run d).x.luts = d.x.luts := (fixes_setF (π := Ext.luts) f v).proj d
theorem luts_wr (r : Reg) (v : Nat) (d : Dev) : ((wr r v).run d).x.luts = d.x.luts := (fixes_wr (π := Ext.luts) r v).proj d

theorem lutFill_shows {b : LutLoadBody} (hb : b.slot < 64) (d : Dev) :
    (∀ k < b.entries.length, KV.get 0 (KV.get [] ((lutFill b).run d).x.luts b.slot) (b.first + k) =
      lutPack (b.entries.getD k (0, 0, 0))) ∧
    ((lutFill b).run d).rd (R.LUT3D_LOADED b.slot) = max (d.rd (R.LUT3D_LOADED b.slot)) (b.first + b.entries.length) % 2 ^ 16 ∧
    ((lutFill b).run d).fld (F.LUT3D_STATE_state b.slot) = if b.last then 2 else 1 := by
  rw [lutFill, run_read]
  simp only [run_seq_cons, run_seq_nil]
  refine ⟨fun k hk => ?_, ?_, ?_⟩
  · have hlaid := lutLay_get (g := lutPack) (first := b.first) (n := 0) (m := KV.get [] d.x.luts b.slot) (0, 0, 0) hk
    rw [Nat.zero_add] at hlaid
    rw [luts_setF, luts_wr]
    exact (congrArg (fun m => KV.get 0 m (b.first + k)) (KV.get_upd_self _ _ _ _)).trans hlaid
  · rw [Dev.rd, setF_reg_other _ _ (by simp), ← Dev.rd]
    exact wr_rd_low _ _ (Reg.valid_indexed rfl hb) rfl rfl (by decide)
  · rw [setF_fld_self _ _ _ (lutState_within hb)]
    split <;> rfl

theorem lutEmpty_shows {slot : Nat} (hs : slot < 64) (d : Dev) : ((lutEmpty slot).run d).fld (F.LUT3D_STATE_state slot) = 0 ∧
    ((lutEmpty slot).run d).rd (R.LUT3D_LOADED slot) = 0 ∧ KV.get [] ((lutEmpty slot).run d).x.luts slot = [] := by
  rw [lutEmpty, run_seq_cons, run_seq_cons, run_seq_cons, run_seq_nil]
  refine ⟨?_, ?_, KV.get_set_self [] _ slot []⟩
  · rw [ext_fld, wr_fld_other _ _ (by simp), setF_fld_self _ _ _ (lutState_within hs), Nat.zero_mod]
  · rw [ext_rd]
    exact wr_rd_low 0 _ (Reg.valid_indexed rfl hs) rfl rfl (k := 16) (by decide)

section
variable {h : Hdr} {s : State}

theorem lutLoad_completes {b : LutLoadBody} (ha : s.dev.Admits h (lutLoadSpec b)) (huse : (s.dev.lutUsers b.slot).isEmpty = true)
    (hfree : s.dev.fld (F.LUT3D_STATE_state b.slot) ≠ 3) (hload : s.dev.rd (R.LUT3D_LOADED b.slot) ≤ 35937) :
    Completes (.procLut3dLoad h b) s fun t =>
      (∀ k < b.entries.length, KV.get 0 (KV.get [] t.x.luts b.slot) (b.first + k) =
        lutPack (b.entries.getD k (0, 0, 0))) ∧
      t.rd (R.LUT3D_LOADED b.slot) = max (s.dev.rd (R.LUT3D_LOADED b.slot)) (b.first + b.entries.length) ∧
      t.fld (F.LUT3D_STATE_state b.slot) = (if b.last then 2 else 1) ∧ Answered t h (lutLoadSpec b) .done 0 [] ∧
      KeepsRegs s.dev t (fun r => commandWord r ∨ r = R.LUT3D_LOADED b.slot ∨ r = R.LUT3D_STATE b.slot) ∧ KeepsMem s.dev t := by
  obtain ⟨⟨hslot, hlast⟩, -⟩ : (b.slot < 64 ∧ b.first + b.entries.length ≤ 35937) ∧ _ := by
    simpa only [lutLoadSpec, Bool.and_eq_true, decide_eq_true_eq] using admits_ok ha
  have hw := lutFill_writes b
  refine (admitted_answers (body := lutFill b) (st := .done) (reply := []) rfl ha ?_
    (keepsIntake_of_writes hw (lutWord_apart b.slot) (lutFill_ctl b))).mono ?_
  · have ho := opened_apart s.dev h (lutLoadSpec b)
    refine (checked_run (chk := fun d => firstOf [(!(d.lutUsers b.slot).isEmpty || d.fld (F.LUT3D_STATE_state b.slot) == 3,
      Reason.lutBusy)]) rfl (firstOf_eq_none ?_) _).trans ?_
    · simpa [ho.lutUsers, ho.fld (f := F.LUT3D_STATE_state b.slot) (by simp [commandWord]), huse] using hfree
    · rw [run_read, lutFill, run_read, run_seq_cons, run_seq_cons, run_seq_cons, run_seq_cons, run_seq_nil, run_seq_cons, run_seq_cons,
        run_seq_cons, run_seq_nil, finish, cmdOrig_id]
      rfl
  · rintro t ⟨hans, d, hd, ht⟩
    obtain ⟨htable, hloaded, hstate⟩ := lutFill_shows hslot d
    rw [show t.x.luts = _ from ht.proj (π := Ext.luts) fun _ _ _ => rfl, ht.rd (by simp [commandWord]), ht.fld (by simp [commandWord]),
      hloaded, hd.rd (by simp [commandWord]), Nat.mod_eq_of_lt (by omega)]
    refine ⟨htable, rfl, hstate, hans, fun r hr => ?_, keepsMem_of_eq (by rw [ht.mem, hw.memFree.run_mem, hd.mem])⟩
    obtain ⟨hcmd, hlut⟩ := not_or.1 hr
    rw [ht.regs r hcmd, hw.keepsRegs d r hlut, hd.regs r hcmd]

/-- A slot nobody uses is emptied; one in use is to be freed. -/
theorem lutFree_run (slot : Nat) : let o := cmdOrig s.dev h (.lutFree slot) (lutFreeSpec slot)
    let e := (committed o).run (s.dev.opened h (lutFreeSpec slot))
    ((lutFreeSpec slot).prog o).run (s.dev.opened h (lutFreeSpec slot)) =
      if (s.dev.lutUsers slot).isEmpty then (sendCompletion o.id true .done 0 0 []).run ((lutEmpty slot).run e)
      else (sendCompletion o.id true .deferred 0 0 []).run ((setF (F.LUT3D_STATE_state slot) 3).run e) := by
  intro o e
  have hd : CmdApart s.dev e := effect_apart s.dev h (.lutFree slot) (lutFreeSpec slot)
  refine (checked_run (o := o) (chk := fun _ => none) rfl rfl _).trans ?_
  rw [show (committed o).run (s.dev.opened h (lutFreeSpec slot)) = e from rfl, run_read, hd.lutUsers]
  clear_value e
  split
  · rw [lutEmpty, run_seq_cons, run_seq_cons, run_seq_cons, run_seq_cons, run_seq_nil, run_seq_cons, run_seq_cons, run_seq_cons,
      run_seq_nil, finish]
  · rw [run_seq_cons, run_seq_cons, run_seq_nil]

theorem lutFree_empties {slot : Nat} (ha : s.dev.Admits h (lutFreeSpec slot)) (huse : (s.dev.lutUsers slot).isEmpty = true) :
    Completes (.procLut3dFree h slot) s fun t => t.fld (F.LUT3D_STATE_state slot) = 0 ∧ t.rd (R.LUT3D_LOADED slot) = 0 ∧
      KV.get [] t.x.luts slot = [] ∧ Answered t h (lutFreeSpec slot) .done 0 [] ∧ KeepsMem s.dev t := by
  have hn : slot < 64 := by simpa [lutFreeSpec] using admits_ok ha
  have hw := lutEmpty_writes slot
  refine (admitted_answers (body := lutEmpty slot) (st := .done) (reply := []) rfl ha ((lutFree_run slot).trans (if_pos huse))
    (keepsIntake_of_writes hw (lutWord_apart slot) (lutEmpty_ctl slot))).mono ?_
  rintro t ⟨hans, d, hd, ht⟩
  obtain ⟨hstate, hloaded, htable⟩ := lutEmpty_shows hn d
  rw [ht.fld (by simp [commandWord]), ht.rd (by simp [commandWord]), show t.x.luts = _ from ht.proj (π := Ext.luts) fun _ _ _ => rfl]
  exact ⟨hstate, hloaded, htable, hans, keepsMem_of_eq (by rw [ht.mem, hw.memFree.run_mem, hd.mem])⟩

theorem lutFree_defers {slot : Nat} (ha : s.dev.Admits h (lutFreeSpec slot)) (huse : (s.dev.lutUsers slot).isEmpty = false) :
    Completes (.procLut3dFree h slot) s fun t => t.fld (F.LUT3D_STATE_state slot) = 3 ∧ t.x.luts = s.dev.x.luts ∧
      Answered t h (lutFreeSpec slot) .deferred 0 [] ∧ KeepsMem s.dev t := by
  have hn : slot < 64 := by simpa [lutFreeSpec] using admits_ok ha
  have hw : (setF (F.LUT3D_STATE_state slot) 3).Writes (lutWord slot) := by simp [lutWord]
  have hluts : CplBlind Ext.luts := fun _ _ _ => rfl
  refine (admitted_answers (body := setF (F.LUT3D_STATE_state slot) 3) (st := .deferred) (reply := []) rfl ha
    ((lutFree_run slot).trans (if_neg (by simp [huse]))) (keepsIntake_of_writes hw (lutWord_apart slot) (fixes_setF _ _))).mono ?_
  rintro t ⟨hans, d, hd, ht⟩
  rw [ht.fld (by simp [commandWord]), setF_fld_self _ _ _ (lutState_within hn), ht.proj hluts, luts_setF, hd.proj hluts]
  exact ⟨rfl, rfl, hans, keepsMem_of_eq (by rw [ht.mem, hw.memFree.run_mem, hd.mem])⟩

end

/-! ### Shadow curves and banks (R150, R165) -/

theorem prcUpd_writes (p : Nat) (u : PrcMem → PrcMem) (but : Reg → Prop) : (prcUpd p u).Writes but := by simp [prcUpd]
theorem prcUpd_ctl (p : Nat) (u : PrcMem → PrcMem) : (prcUpd p u).Fixes ctlView := fun _ => rfl

section
variable {h : Hdr} {s : State}

/-- A load that changes only what a processor holds is DONE. -/
theorem prcLoad_completes {i : Instr} {cmd : Cmd} {sp : CmdSpec} {p : Nat} {u : PrcMem → PrcMem} {chk : Dev → Option Nat}
    (hi : exec i s = perform .core (rygus h cmd sp) s) (ha : s.dev.Admits h sp)
    (hp : sp.prog (cmdOrig s.dev h cmd sp) = checked (cmdOrig s.dev h cmd sp) chk
      (seq [prcUpd p u, finish (cmdOrig s.dev h cmd sp).id 0 []])) (hchk : chk (s.dev.opened h sp) = none) :
    Completes i s fun t => t.prcm p = u (s.dev.prcm p) ∧ Answered t h sp .done 0 [] ∧ KeepsRegs s.dev t commandWord ∧
      KeepsMem s.dev t := by
  have hw := prcUpd_writes p u fun _ => False
  refine (admitted_answers (body := prcUpd p u) (st := .done) (reply := []) hi ha ?_
    (keepsIntake_of_writes hw (fun _ h => h.elim) (prcUpd_ctl p u))).mono ?_
  · rw [hp, checked_run rfl hchk, run_seq_cons, run_seq_cons, run_seq_nil, finish, cmdOrig_id]
  · rintro t ⟨hans, d, hd, ht⟩
    refine ⟨?_, hans, fun r hr => ?_, keepsMem_of_eq (by rw [ht.mem, hw.memFree.run_mem, hd.mem])⟩
    · rw [ht.prcm, prcUpd_self, hd.prcm]
    · rw [ht.regs r hr, hw.keepsRegs d r id, hd.regs r hr]

theorem curveLoad_completes {b : CurveLoadBody} (ha : s.dev.Admits h (curveLoadSpec b)) :
    Completes (.procCurveLoad h b) s fun t => KV.get [] (t.prcm b.proc).shadowCurves b.curve = b.entries ∧
      Answered t h (curveLoadSpec b) .done 0 [] ∧ KeepsRegs s.dev t commandWord ∧ KeepsMem s.dev t := by
  refine (prcLoad_completes (chk := fun _ => none) rfl ha rfl rfl).mono fun t ⟨hm, hrest⟩ => ⟨?_, hrest⟩
  rw [hm]
  exact KV.get_set_self _ _ _ _

theorem coefLoad_completes {b : CoefLoadBody} (ha : s.dev.Admits h (coefLoadSpec b)) (hv : bankValid b.bank b.coefs = true) :
    Completes (.procCoefLoad h b) s fun t => KV.get [] (t.prcm b.proc).shadowBanks b.bank = b.coefs ∧
      Answered t h (coefLoadSpec b) .done 0 [] ∧ KeepsRegs s.dev t commandWord ∧ KeepsMem s.dev t := by
  refine (prcLoad_completes (chk := fun _ => firstOf [(!bankValid b.bank b.coefs, Reason.badCoef)]) rfl ha rfl
    (firstOf_eq_none (by simp [hv]))).mono fun t ⟨hm, hrest⟩ => ⟨?_, hrest⟩
  rw [hm]
  exact KV.get_set_self _ _ _ _

theorem coefLoad_rejects {b : CoefLoadBody} (ha : s.dev.Admits h (coefLoadSpec b)) (hv : bankValid b.bank b.coefs = false) :
    Completes (.procCoefLoad h b) s fun t => t.x.prc = s.dev.x.prc ∧
      Answered t h (coefLoadSpec b) .rejected Reason.badCoef [] ∧ KeepsRegs s.dev t commandWord ∧ KeepsMem s.dev t := by
  refine (admitted_rejects (chk := fun _ => firstOf [(!bankValid b.bank b.coefs, Reason.badCoef)]) (r := Reason.badCoef) rfl ha rfl
    (by simp [hv, firstOf])).mono fun t ⟨hans, ht⟩ => ?_
  exact ⟨ht.proj (π := Ext.prc) fun _ _ _ => rfl, hans, ht.regs, keepsMem_of_eq ht.mem⟩

/-! ### PROC_QUERY (R165) -/

/-- The values in force that PROC_QUERY answers. -/
def PrcMem.inForce (m : PrcMem) : List Nat := match m.cfg with | some c => c.words ++ c.mtx | none => []

/-- What PROC_QUERY answers. -/
def procReply (d : Dev) (p : Nat) : List Nat :=
  [d.rd (R.PRC_FSTATE p), d.rd (R.PRC_LOAD p), d.rd (R.PRC_ELLS p), d.fld (F.PRC_ELLS_vtaps_eff p), d.rd (R.PRC_ALARM p)] ++
    (d.prcm p).inForce

theorem CmdApart.procReply {d e : Dev} (h : CmdApart d e) (p : Nat) : procReply e p = procReply d p := by
  unfold Machine.procReply
  rw [h.rd (by simp [commandWord]), h.rd (by simp [commandWord]), h.rd (by simp [commandWord]), h.rd (by simp [commandWord]),
    h.fld (by simp [commandWord]), h.prcm]

theorem procQuery_completes {p : Nat} (ha : s.dev.Admits h (procQuerySpec p)) : Completes (.procQuery h p) s fun t =>
    Answered t h (procQuerySpec p) .done 0 (procReply s.dev p) ∧ KeepsRegs s.dev t commandWord ∧ KeepsMem s.dev t := by
  have hd := opened_apart s.dev h (procQuerySpec p)
  have hopen : s.dev.intakeOpen h.intake = true := ha.2.1
  obtain ⟨hans, ht⟩ := sendCompletion_answers (opened_find s.dev h (procQuerySpec p))
    (by rw [KeepsIntake.open_eq hd.frame.intake, hopen]) .done 0 (procReply s.dev p)
  refine completes_of_live rfl ha.1 ?_
  have hrun : (rygus h (.procQuery p) (procQuerySpec p)).run s.dev =
      (sendCompletion s.dev.x.ctl.fresh true .done 0 0 (procReply s.dev p)).run (s.dev.opened h (procQuerySpec p)) := by
    rw [rygus_run ha, ← hd.procReply]
    rfl
  rw [hrun]
  exact ⟨hans, (hd.trans ht).regs, keepsMem_of_eq (hd.trans ht).mem⟩

end

/-- Settles O39: each command's script is one of the shapes above, on a device apart from its opening. -/
theorem processorCommandsSetWhatTheyName : Obligations.ProcessorCommandsSetWhatTheyName := by
  unfold Obligations.ProcessorCommandsSetWhatTheyName
  intro h s
  refine ⟨fun b => ?_, fun b ha hu hf hl => ?_, fun slot ha => ⟨fun hu => ?_, fun hu => ?_⟩, fun b ha => ?_,
    fun b ha => ⟨fun hv => ?_, fun hv => ?_⟩, fun p ha => ?_⟩
  · intro c ha hchk
    exact ⟨procSet_pends rfl ha hchk, procSet_lands rfl ha hchk⟩
  · have hload := lutLoad_completes ha hu hf hl
    unfold lutPack at hload
    exact hload
  · exact lutFree_empties ha hu
  · exact lutFree_defers ha hu
  · exact curveLoad_completes ha
  · exact coefLoad_completes ha hv
  · exact coefLoad_rejects ha hv
  · exact procQuery_completes ha

end Sys2Proof.Machine
end

section
/-!
PROOFS. A processor begins a frame at its boundary, or counts none: R144, R152, R159.
-/

namespace Sys2Proof.Machine

/-! ### A boundary without a frame (R159) -/

/-- A boundary without a frame is counted and alarmed, and nothing is produced. -/
structure NoFrame (p : PrcId) (d t : Dev) : Prop where
  job : (t.prcm p).job = none
  counted : t.rd (R.PRC_CNT_NO_FRAME p) = min (d.rd (R.PRC_CNT_NO_FRAME p) + 1) 0xFFFFFFFF
  alarm : t.flag (F.PRC_ALARM_no_frame p) = true
  producing : t.flag (F.PRC_STATUS_producing p) = false

/-- Registers other than the count of boundaries without a frame. -/
def notNoFrame (r : Reg) : Prop := r.kind ≠ .PRC_CNT_NO_FRAME

theorem producing_within (p : PrcId) : (F.PRC_STATUS_producing p).within = true :=
  Field.within_of_hasBits (Reg.valid_indexed rfl p.isLt) (show hasBits .PRC_STATUS 0 1 = true by decide)

theorem noFrame_within (p : PrcId) : (F.PRC_ALARM_no_frame p).within = true :=
  Field.within_of_hasBits (Reg.valid_indexed rfl p.isLt) (show hasBits .PRC_ALARM 6 1 = true by decide)

theorem procNoFrame_shows {p : PrcId} {d e : Dev} (he : e.rd (R.PRC_CNT_NO_FRAME p) = d.rd (R.PRC_CNT_NO_FRAME p)) :
    NoFrame p d ((procNoFrame p).run e) := by
  have hrelease : ∀ e : Dev, ((procRelease p).run e).regs = e.regs := fun _ => rfl
  have hkeep : ∀ e : Dev, ((procRelease p).run e).prcm p = e.prcm p := fun _ => rfl
  simp only [procNoFrame, run_seq_cons, run_seq_nil]
  refine ⟨?_, ?_, ?_, ?_⟩
  · rw [hkeep, prcUpd_self]
  · rw [rd_of_regs (hrelease _), prcUpd_rd, Dev.rd, setF_reg_other _ _ (by simp), raise_reg_other _ (by simp), ← Dev.rd,
      inc_rd_self _ (Reg.valid_indexed rfl p.isLt) rfl rfl, he]
  · rw [flag_of_regs (hrelease _), Dev.flag, prcUpd_fld, setF_fld_other _ _ (by simp), ← Dev.flag]
    exact raise_flag_self _ _ (noFrame_within p) rfl
  · rw [flag_of_regs (hrelease _), Dev.flag, prcUpd_fld, setF_fld_self _ _ _ (producing_within p)]
    rfl

theorem procStatus_writes (p : Nat) (e : ProcEval) : (procStatus p e).Writes notNoFrame := by
  have hs : ∀ i k b, (statusAlarm ⟨R.PRC_STATUS p, i, 1⟩ ⟨R.PRC_ALARM p, k, 1⟩ b).Writes notNoFrame := fun _ _ b =>
    statusAlarm_writes (by simp [notNoFrame]) (by simp [notNoFrame]) b
  simp [procStatus, engUpdate, hs, notNoFrame]

/-- What a judgement finds lets a frame be produced (R159). -/
def ProcEval.produces (e : ProcEval) : Bool := !(e.overload || (!e.bypass && (e.short || e.missing)))

section
variable {p : PrcId} {c : PrcCfg} {d : Dev} (hcfg : (d.prcm p).cfg = some c)
include hcfg

/-- Where a processor has no frame to produce, the boundary passes without one. -/
theorem procStart_idle {k : Nat} {b : Int} (h : d.codeFmt (d.procInput c) = none ∨ ∃ i, d.codeFmt (d.procInput c) = some i ∧
      ((d.procEval p c i).produces = false ∨ d.procJob p c k b false (d.procEval p c i) = none)) :
    NoFrame p d ((procStart p k b false).run d) := by
  simp only [procStart, run_read, hcfg]
  obtain hi | ⟨i, hi, hno⟩ := h
  · simp only [hi]
    exact procNoFrame_shows rfl
  · have hstatus := (procStatus_writes p (d.procEval p c i)).keepsRegs d (R.PRC_CNT_NO_FRAME p) (by simp [notNoFrame])
    simp only [hi]
    rw [run_seq_cons, run_seq_cons, run_seq_nil]
    split
    · exact procNoFrame_shows (by rw [Dev.rd, hstatus, Dev.rd])
    · next hgo =>
      obtain hev | hjob := hno
      · simp only [ProcEval.produces, Bool.not_eq_false'] at hev
        exact absurd hev hgo
      · rw [hjob]
        exact procNoFrame_shows (by rw [Dev.rd, hstatus, Dev.rd])

/-- Where it has one, that frame is in production. -/
theorem procStart_begins {k : Nat} {few broken : Bool} {b : Int} {i : VideoFmt} {j : PrcJob} (hi : d.codeFmt (d.procInput c) = some i)
    (hev : (d.procEval p c i).produces = true) (hjob : d.procJob p c k b false (d.procEval p c i) = some (j, few, broken)) :
    (((procStart p k b false).run d).prcm p).job = some j ∧
      ((procStart p k b false).run d).rd (R.PRC_CNT_NO_FRAME p) = d.rd (R.PRC_CNT_NO_FRAME p) := by
  have hshort : (statusAlarm (F.PRC_STATUS_history_short p) (F.PRC_ALARM_history_short p) few).Writes notNoFrame :=
    statusAlarm_writes (by simp [notNoFrame]) (by simp [notNoFrame]) few
  simp only [ProcEval.produces, Bool.not_eq_true'] at hev
  simp only [procStart, run_read, hcfg, hi, hjob, hev]
  constructor
  · exact congrArg PrcMem.job (prcUpd_self _ _ _)
  · rw [Dev.rd, Prog.Writes.keepsRegs (but := notNoFrame) ?_ d _ (by simp [notNoFrame]), Dev.rd]
    simp only [acts_seq_cons, procStatus_writes, Bool.false_eq_true, if_false, hshort, procRelease, hold, storeUpd, prcUpd, writes_ext,
      acts_seq_nil, and_true, true_and]
    split <;> simp

end

/-! ### The boundary (R144) -/

/-- The frame in production has a slot of the processor's store. -/
def PrcMem.takeSlot (slot : Nat) (m : PrcMem) : PrcMem := { m with job := m.job.map fun j => { j with slot := slot } }

theorem PrcMem.takeSlot_job {slot : Nat} {m : PrcMem} {j : PrcJob} (h : m.job = some j) :
    (m.takeSlot slot).job = some { j with slot := slot } := by rw [takeSlot, h, Option.map_some]

theorem storeUpd_prcm (code : Nat) (u : Store → Store) (d : Dev) (p : Nat) : ((storeUpd code u).run d).prcm p = d.prcm p := rfl

/-- A frame of sequence `q` being written in slot `slot` is among a store's. -/
def Store.Writing (st : Store) (q slot : Nat) : Prop := ∃ fr ∈ st.frames, fr.phase = .writing ∧ fr.rcd.seq = q ∧ fr.rcd.slot = slot

theorem push_writing (st : Store) {f : Frame} (producing : Bool) (h : f.phase = .writing) :
    { st.push f with producing := producing }.Writing f.rcd.seq f.rcd.slot := ⟨f, mem_push st f, h, rfl, rfl⟩

/-- At the boundary of a processor with nothing to land and nothing in production, what is begun finds its slot, or no frame
is produced. -/
theorem procBoundary_run {p : PrcId} {c : PrcCfg} {d : Dev} (hcfg : (d.prcm p).cfg = some c) (hpub : c.publish = true)
    (hen : c.enable = true) (hpend : (d.prcm p).pend = []) (hjob : (d.prcm p).job = none) (hon : d.on (.prc p) = true) :
    ∃ after : Prog, (procBoundary p).run d = after.run ((procStart p (d.otgFrame c.otg)
        (d.toHt (d.otgm c.otg).src (d.otgm c.otg).start) false).run d) ∧
      (∀ e, (e.prcm p).job = none → after.run e = e) ∧
      ∀ e j, (e.prcm p).job = some j → after.run e = (procNoFrame p).run e ∨ ∃ slot u,
        after.run e = (storeUpd (procCode p c) u).run ((prcUpd p (PrcMem.takeSlot slot)).run e) ∧
        ∀ st, (u st).Writing (d.otgFrame c.otg % 2 ^ 32) slot := by
  have hfn : d.on (prcFn p) = true := by rw [show prcFn p = .prc p by simp [prcFn]]; exact hon
  rw [procBoundary, run_read]
  simp only [hpend, List.getLast?_nil, hcfg, hjob]
  rw [run_seq_cons, run_seq_cons, run_seq_cons, run_seq_nil, run_doIf, if_neg (by simp), procLand_none hpend, run_read]
  simp only [hcfg]
  rw [run_doIf, hpub, hen, hfn, if_pos (by decide), run_seq_cons, run_seq_cons, run_seq_nil]
  refine ⟨_, rfl, fun e he => ?_, fun e j he => ?_⟩
  · simp only [run_read, he]
    rfl
  · simp only [run_read, he]
    split
    · next slot _ _ =>
      rw [run_seq_cons, run_seq_cons, run_seq_nil]
      exact .inr ⟨slot, _, rfl, fun st => push_writing st true rfl⟩
    · exact .inl rfl

theorem NoFrame.settled {p : PrcId} {d e : Dev} (h : NoFrame p d e) : NoFrame p d (settle.run e) :=
  ⟨by rw [settle_prcm, h.job], by rw [settle_rd, h.counted], by rw [settle_flag, h.alarm], by rw [settle_flag, h.producing]⟩

theorem procStart_mem (p frame : Nat) (b : Int) (line : Bool) (d : Dev) : ((procStart p frame b line).run d).mem = d.mem :=
  (leaves_procStart (n := 0) (ρ := id) p frame b line).mem d

theorem procNoFrame_mem (p : Nat) (d : Dev) : ((procNoFrame p).run d).mem = d.mem := (leaves_procNoFrame (n := 0) (ρ := id) p).mem d

section
variable {p : PrcId} {c : PrcCfg} {s : State} (hl : s.dev.live = true) (hon : s.dev.fst (.prc p) = .on)
  (hcfg : (s.dev.prcm p).cfg = some c) (hpub : c.publish = true) (hen : c.enable = true) (hpend : (s.dev.prcm p).pend = [])
  (hjob : (s.dev.prcm p).job = none)
include hl hon hcfg hpub hen hpend hjob

/-- A processor without a frame to produce counts the boundary. -/
theorem procOutputBoundary_idle (h : s.dev.codeFmt (s.dev.procInput c) = none ∨ ∃ i, s.dev.codeFmt (s.dev.procInput c) = some i ∧
      ((s.dev.procEval p c i).produces = false ∨ s.dev.procJob p c (s.dev.otgFrame c.otg)
        (s.dev.toHt (s.dev.otgm c.otg).src (s.dev.otgm c.otg).start) false (s.dev.procEval p c i) = none)) :
    Completes (.procOutputBoundary p) s fun t => NoFrame p s.dev t ∧ KeepsMem s.dev t := by
  have hon' : s.dev.on (.prc p) = true := by simp [Dev.on, hon]
  obtain ⟨after, hrun, hnone, -⟩ := procBoundary_run hcfg hpub hen hpend hjob hon'
  have hidle := procStart_idle hcfg h
  refine completes_of_live rfl hl ?_
  rw [hrun, hnone _ hidle.job]
  exact ⟨hidle.settled, keepsMem_of_eq (by rw [settle_mem, procStart_mem])⟩

/-- A processor with a frame to produce has it in production and in its store, or counts the boundary where no slot is free. -/
theorem procOutputBoundary_begins {i : VideoFmt} {j : PrcJob} {few broken : Bool}
    (hi : s.dev.codeFmt (s.dev.procInput c) = some i) (hev : (s.dev.procEval p c i).produces = true)
    (hnew : s.dev.procJob p c (s.dev.otgFrame c.otg) (s.dev.toHt (s.dev.otgm c.otg).src (s.dev.otgm c.otg).start) false
      (s.dev.procEval p c i) = some (j, few, broken)) :
    Completes (.procOutputBoundary p) s fun t => KeepsMem s.dev t ∧
      ((∃ slot, (t.prcm p).job = some { j with slot := slot } ∧
        (t.store (procCode p c)).Writing (s.dev.otgFrame c.otg % 2 ^ 32) slot) ∨ NoFrame p s.dev t) := by
  have hon' : s.dev.on (.prc p) = true := by simp [Dev.on, hon]
  obtain ⟨after, hrun, -, hplace⟩ := procBoundary_run hcfg hpub hen hpend hjob hon'
  obtain ⟨hbegun, hcount⟩ := procStart_begins hcfg hi hev hnew
  refine completes_of_live rfl hl ?_
  rw [hrun]
  obtain hno | ⟨slot, u, hput, hw⟩ := hplace _ j hbegun
  · rw [hno]
    exact ⟨keepsMem_of_eq (by rw [settle_mem, procNoFrame_mem, procStart_mem]), .inr (procNoFrame_shows hcount).settled⟩
  · rw [hput]
    refine ⟨keepsMem_of_eq (by rw [settle_mem, storeUpd_mem, prcUpd_mem, procStart_mem]), .inl ⟨slot, ?_, ?_⟩⟩
    · rw [settle_prcm, storeUpd_prcm, prcUpd_self, PrcMem.takeSlot_job hbegun]
    · rw [settle_store, storeUpd_self]
      exact hw _

end

end Sys2Proof.Machine
end

section
/-!
PROOFS. A publishing processor completes the frame it produced: R144, R159, R161.
-/

namespace Sys2Proof.Machine

/-! ### A frame of the device's own (R76, R89) -/

/-- What a device writes of its own frame ends in that frame's being complete in its store. -/
theorem frameWrite_run (code : Nat) (fr : Frame) (word : Nat → Nat → Nat) (d : Dev) : ∃ (pre : Prog) (g : Frame → Frame),
    pre.Touches (fun _ => False) storesView ∧
    (∀ e, (g e).rcd.seq = fr.rcd.seq ∧ (g e).phase = .complete ∧ (g e).rcd.slot = fr.rcd.slot) ∧
    (frameWrite code fr word).run d = (storeUpd code fun st => st.updFrame fr.rcd.seq g).run (pre.run d) := by
  unfold frameWrite
  rw [run_read]
  refine ⟨seq [_, _, _], _, ?_, ?_, run_seq_append [_, _, _] [_] _⟩
  · have hm : ∀ x l, storesView { x with poison := l } = storesView x := fun _ _ => rfl
    simp only [acts_seq_cons, acts_each, touches_memWrite, hm, acts_seq_nil, List.mem_map, forall_exists_index, and_imp,
      forall_apply_eq_imp_iff₂, implies_true, and_true]
    exact fun _ _ => tileRowProg_touches hm ..
  · exact fun _ => ⟨rfl, rfl, rfl⟩

theorem frameWrite_rd (code : Nat) (fr : Frame) (word : Nat → Nat → Nat) (d : Dev) (r : Reg) :
    ((frameWrite code fr word).run d).rd r = d.rd r := by
  obtain ⟨pre, g, hpre, -, hrun⟩ := frameWrite_run code fr word d
  rw [hrun, storeUpd_rd, hpre.rd id]

theorem frameWrite_frame {code : Nat} {fr e : Frame} {d : Dev} (word : Nat → Nat → Nat) (he : e ∈ (d.store code).frames)
    (hs : e.rcd.seq = fr.rcd.seq) : ∃ f ∈ (((frameWrite code fr word).run d).store code).frames,
      f.rcd.seq = fr.rcd.seq ∧ f.phase = .complete ∧ f.rcd.slot = fr.rcd.slot := by
  obtain ⟨pre, g, hpre, hg, hrun⟩ := frameWrite_run code fr word d
  have hstore : (pre.run d).store code = d.store code := by rw [Dev.store, ← storesView, hpre.proj, storesView, Dev.store]
  rw [hrun, storeUpd_self, hstore]
  refine ⟨g e, List.mem_map.2 ⟨e, he, if_pos hs⟩, hg e⟩

/-! ### Slots released (R78) -/

theorem KV.get_map {α : Type} {dflt : α} {g : α → α} (h : g dflt = dflt) (m : KV α) (n : Nat) :
    KV.get dflt (m.map fun e => (e.1, g e.2)) n = g (KV.get dflt m n) := by
  induction m with
  | nil => exact h.symm
  | cons e m ih =>
    simp only [List.map_cons, KV.get]
    split
    · rfl
    · exact ih

/-- A store without the holds of a processor. -/
def Store.release (p : Nat) (st : Store) : Store :=
  { st with holds := st.holds.filter fun h => match h.1 with | .prc q _ => q ≠ p | _ => true }

theorem procRelease_store (p n : Nat) (d : Dev) : ((procRelease p).run d).store n = (d.store n).release p :=
  KV.get_map (g := Store.release p) rfl d.x.stores n

/-! ### The completed frame (R144, R159, R161) -/

/-- What a processor counts of the input it had to substitute. -/
def procSubst (p code n ue : Nat) : Prog := seq [
  doIf (decide (0 < ue)) (seq [addCnt (R.PRC_CNT_UE p) ue, raise (F.PRC_ALARM_ue_substitute p)]), countSrcUe code n]

/-- The record of a completed frame, and the end of its production. -/
def procDone (p frame : Nat) (motion : KV Nat) : Prog := seq [
  wr (R.PRC_SEQ p) (frame % 2 ^ 32), inc (R.PRC_CNT_FRAMES p), setF (F.PRC_STATUS_producing p) 1,
  doWhen (fun d => d.flag (F.PRC_STATUS_reduced_taps p)) (inc (R.PRC_CNT_REDUCED p)),
  prcUpd p fun m => { m with job := none, motion := motion }, procRelease p]

/-- The one frame of its sequence being written is the one found. -/
theorem find_writing {l : List Frame} {fr : Frame} {q : Nat} (hm : fr ∈ l) (hw : fr.phase = .writing) (hq : fr.rcd.seq = q)
    (hu : ∀ e ∈ l, e.rcd.seq = fr.rcd.seq → e = fr) : l.find? (fun f => f.rcd.seq == q && f.phase == .writing) = some fr := by
  cases hfind : l.find? (fun f => f.rcd.seq == q && f.phase == .writing) with
  | none => exact absurd (List.find?_eq_none.1 hfind fr hm) (by simp [hw, hq])
  | some e =>
    have hseq : e.rcd.seq = q := by
      have hfound := List.find?_some hfind
      simp only [Bool.and_eq_true, beq_iff_eq] at hfound
      exact hfound.1
    rw [hu e (List.mem_of_find?_eq_some hfind) (hseq.trans hq.symm)]

/-- A publishing processor writes the frame in production, which its store holds being written, and ends its production. -/
theorem procComplete_run {p : Nat} {c : PrcCfg} {j : PrcJob} {fr : Frame} {d : Dev} (hcfg : (d.prcm p).cfg = some c)
    (hpub : c.publish = true) (hjob : (d.prcm p).job = some j) (hm : fr ∈ (d.store (procCode p c)).frames)
    (hw : fr.phase = .writing) (hq : fr.rcd.seq = j.frame % 2 ^ 32)
    (hu : ∀ e ∈ (d.store (procCode p c)).frames, e.rcd.seq = fr.rcd.seq → e = fr) :
    ∃ (out : Frame) (word : Nat → Nat → Nat) (n ue : Nat) (motion : KV Nat),
      (procComplete p).run d =
        (procDone p j.frame motion).run ((procSubst p j.code n ue).run ((frameWrite (procCode p c) out word).run d)) ∧
      out.rcd.seq = fr.rcd.seq ∧ out.rcd.slot = fr.rcd.slot := by
  rw [procComplete, run_read]
  simp only [hjob, hcfg, find_writing hm hw hq hu]
  obtain ⟨ls, motion, n⟩ := d.procLines p c j
  rw [run_doIf, hpub, if_pos rfl, run_seq_cons, run_seq_cons, run_seq_cons]
  exact ⟨_, _, _, _, _, rfl, rfl, rfl⟩

/-- The frames of a store. -/
def framesView (n : Nat) (x : Ext) : List Frame := (KV.get {} x.stores n).frames

/-- What shows a completed frame lies apart from the counts of what was substituted. -/
def substWord (p : Nat) (r : Reg) : Prop := r ∉ [R.PRC_SEQ p, R.PRC_CNT_FRAMES p, R.PRC_STATUS p]

theorem procSubst_touches (p code n ue m : Nat) : (procSubst p code n ue).Touches (substWord p) (framesView m) := by
  have hr : (raise (F.PRC_ALARM_ue_substitute p)).Touches (substWord p) (framesView m) :=
    touches_raise (by simp [substWord]) fun _ _ _ _ _ _ => rfl
  simp [procSubst, countSrcUe, hr, substWord]

theorem procDone_fixes (p frame : Nat) (motion : KV Nat) (m : Nat) : (procDone p frame motion).Fixes (framesView m) := by
  have hupd : ∀ u, (prcUpd p u).Fixes (framesView m) := fun _ _ => rfl
  have hrelease : (procRelease p).Fixes (framesView m) := fun x => (congrArg Store.frames (procRelease_store p m { x := x })).trans rfl
  simp [procDone, hupd, hrelease]

/-- The completed frame is shown and counted, and nothing is in production. -/
theorem procDone_shows (p : PrcId) (frame : Nat) (motion : KV Nat) (d : Dev) :
    let t := (procDone p frame motion).run d
    (t.prcm p).job = none ∧ t.rd (R.PRC_SEQ p) = frame % 2 ^ 32 ∧
    t.rd (R.PRC_CNT_FRAMES p) = min (d.rd (R.PRC_CNT_FRAMES p) + 1) 0xFFFFFFFF ∧ t.flag (F.PRC_STATUS_producing p) = true := by
  have hrelease : ∀ e : Dev, ((procRelease p).run e).regs = e.regs := fun _ => rfl
  have hkeep : ∀ e : Dev, ((procRelease p).run e).prcm p = e.prcm p := fun _ => rfl
  have hreduced : (doWhen (fun d => d.flag (F.PRC_STATUS_reduced_taps p)) (inc (R.PRC_CNT_REDUCED p))).Writes
      fun r => r = R.PRC_CNT_REDUCED p := by simp
  have hlast : ∀ (e : Dev) (r : Reg), r ≠ R.PRC_CNT_REDUCED p → r ≠ R.PRC_STATUS p → ((procRelease p).run
      ((prcUpd p fun m => { m with job := none, motion := motion }).run
        ((doWhen (fun d => d.flag (F.PRC_STATUS_reduced_taps p)) (inc (R.PRC_CNT_REDUCED p))).run
          ((setF (F.PRC_STATUS_producing p) 1).run e)))).rd r = e.rd r := fun e r h1 h2 => by
    rw [rd_of_regs (hrelease _), prcUpd_rd, Dev.rd, hreduced.keepsRegs _ _ h1, setF_reg_other _ _ h2, Dev.rd]
  simp only [procDone, run_seq_cons, run_seq_nil]
  refine ⟨?_, ?_, ?_, ?_⟩
  · rw [hkeep, prcUpd_self]
  · rw [hlast _ _ (by simp) (by simp), Dev.rd, inc_reg_other _ (by simp), ← Dev.rd,
      wr_rd_full _ _ (Reg.valid_indexed rfl p.isLt) rfl rfl, Nat.mod_mod]
  · rw [hlast _ _ (by simp) (by simp), inc_rd_self _ (Reg.valid_indexed rfl p.isLt) rfl rfl, wr_rd_other _ _ (by simp)]
  · rw [flag_of_regs (hrelease _), Dev.flag, prcUpd_fld, ← Dev.flag, hreduced.flag (by simp), Dev.flag,
      setF_fld_self _ _ _ (producing_within p)]
    rfl

theorem procFrameComplete_completes {p : PrcId} {c : PrcCfg} {j : PrcJob} {fr : Frame} {s : State} (hl : s.dev.live = true)
    (hcfg : (s.dev.prcm p).cfg = some c) (hpub : c.publish = true) (hjob : (s.dev.prcm p).job = some j)
    (hm : fr ∈ (s.dev.store (procCode p c)).frames) (hw : fr.phase = .writing) (hq : fr.rcd.seq = j.frame % 2 ^ 32)
    (hu : ∀ e ∈ (s.dev.store (procCode p c)).frames, e.rcd.seq = fr.rcd.seq → e = fr) :
    Completes (.procFrameComplete p) s fun t => (t.prcm p).job = none ∧ t.rd (R.PRC_SEQ p) = j.frame % 2 ^ 32 ∧
      t.rd (R.PRC_CNT_FRAMES p) = min (s.dev.rd (R.PRC_CNT_FRAMES p) + 1) 0xFFFFFFFF ∧ t.flag (F.PRC_STATUS_producing p) = true ∧
      ∃ e ∈ (t.store (procCode p c)).frames, e.rcd.seq = fr.rcd.seq ∧ e.phase = .complete ∧ e.rcd.slot = fr.rcd.slot := by
  obtain ⟨out, word, n, ue, motion, hrun, hseq, hslot⟩ := procComplete_run hcfg hpub hjob hm hw hq hu
  have hsubst := procSubst_touches p j.code n ue (procCode p c)
  obtain ⟨hnone, hshown, hcounted, hproducing⟩ := procDone_shows p j.frame motion
    ((procSubst p j.code n ue).run ((frameWrite (procCode p c) out word).run s.dev))
  obtain ⟨e, he, hedone⟩ := frameWrite_frame word hm hseq.symm
  refine completes_of_live rfl hl ?_
  rw [hrun]
  refine ⟨?_, ?_, ?_, ?_, e, ?_, ?_⟩
  · rw [settle_prcm, hnone]
  · rw [settle_rd, hshown]
  · rw [settle_rd, hcounted, hsubst.rd (by simp [substWord]), frameWrite_rd]
  · rw [settle_flag, hproducing]
  · rw [settle_store, Dev.store, ← framesView, (procDone_fixes _ _ _ _).proj, hsubst.proj]
    exact he
  · rwa [hseq, hslot] at hedone

/-- Settles O40: the boundary begins the frame that the processor has, or counts none, and the frame in production is completed
in its store. -/
theorem processorsProduceTheirFrames : Obligations.ProcessorsProduceTheirFrames := by
  unfold Obligations.ProcessorsProduceTheirFrames
  intro p c s hl hon hcfg hpub hen hpend k b
  refine ⟨fun hjob => ⟨fun h => ?_, fun i j few broken hi h => ?_⟩, fun j fr hjob hm hw hq hu => ?_⟩
  · have hidle : s.dev.codeFmt (s.dev.procInput c) = none ∨ ∃ i, s.dev.codeFmt (s.dev.procInput c) = some i ∧
        ((s.dev.procEval p c i).produces = false ∨ s.dev.procJob p c k b false (s.dev.procEval p c i) = none) := by
      simpa only [ProcEval.produces, Bool.not_eq_false'] using h
    refine (procOutputBoundary_idle hl hon hcfg hpub hen hpend hjob hidle).mono fun t ⟨hno, hmem⟩ => ?_
    exact ⟨hno.job, hno.counted, hno.alarm, hno.producing, hmem⟩
  · obtain ⟨hev, hnew⟩ := h
    have hgo : (s.dev.procEval p c i).produces = true := by simpa only [ProcEval.produces, Bool.not_eq_true'] using hev
    refine (procOutputBoundary_begins hl hon hcfg hpub hen hpend hjob hi hgo hnew).mono fun t ⟨hmem, ht⟩ => ⟨hmem, ?_⟩
    exact ht.imp id fun hno => ⟨hno.job, hno.counted⟩
  · exact procFrameComplete_completes hl hcfg hpub hjob hm hw hq hu

end Sys2Proof.Machine
end
